-- ==== Sys2Proof/Word.lean ====
section
/-! DEFINITION. The plainest word types and the sparse map that holds keyed state. -/

namespace Sys2Proof

/-- A byte (00: all structures are little-endian byte sequences, R13). -/
abbrev Byte := BitVec 8

/-- A BAR0 register (R10: 32 bits wide). -/
abbrev Word := BitVec 32

/-- Sparse keyed state: pairs of key and value, keys strictly rising, no value equal to the
default that an unlisted key reads as. -/
abbrev AMap (α : Type) := List (Nat × α)

/-- The value at a key, the default where the key is not listed. -/
def AMap.get {α : Type} (d : α) : AMap α → Nat → α
  | [], _ => d
  | (k, v) :: m, n => if k = n then v else AMap.get d m n

/-- Remove a key. -/
def AMap.erase {α : Type} : AMap α → Nat → AMap α
  | [], _ => []
  | (k, v) :: m, n => if k = n then AMap.erase m n else (k, v) :: AMap.erase m n

/-- Insert a pair at its place, replacing an entry of the same key. -/
def AMap.insert {α : Type} : AMap α → Nat → α → AMap α
  | [], n, w => [(n, w)]
  | (k, v) :: m, n, w =>
    if n < k then (n, w) :: (k, v) :: m
    else if n = k then (n, w) :: m
    else (k, v) :: AMap.insert m n w

/-- Write a value at a key, keeping the canonical form: writing the default removes the entry. -/
def AMap.set {α : Type} [DecidableEq α] (d : α) (m : AMap α) (n : Nat) (w : α) : AMap α :=
  if w = d then m.erase n else m.insert n w

/-- Every key of the map is above a bound, keys rise, and no value is the default. -/
def AMap.wfFrom {α : Type} [DecidableEq α] (d : α) : Nat → AMap α → Bool
  | _, [] => true
  | b, (k, v) :: m => decide (b ≤ k) && decide (v ≠ d) && AMap.wfFrom d (k + 1) m

/-- The canonical form. -/
def AMap.wf {α : Type} [DecidableEq α] (d : α) (m : AMap α) : Bool := AMap.wfFrom d 0 m

end Sys2Proof
end

