-- ==== Sys2Proof/Syntax.lean ====
section
/-! DEFINITION. The commands of the block: one constructor per row of spec/opcode_table.json, with the row's operands. -/

namespace Sys2Proof

/-- Where and under what header a slot of an instruction word issues: the cluster's global ID (R16)
and the header fields psel, sense and qp of the word (R86, R87). -/
structure Issue where
  cluster : BitVec 16
  psel : BitVec 3
  sense : Bool
  qp : Bool
  deriving DecidableEq, Repr

/-- The fields of EMAC and EMACC (R92). -/
structure EmacOps where
  elast : BitVec 3
  fmtA : BitVec 4
  fmtB : BitVec 4
  srcA : BitVec 6
  pa : BitVec 3
  srcB : BitVec 6
  hb : Bool
  scl : Bool
  deriving DecidableEq, Repr

/-- vd, va and vb of a V-slot operation (R98). -/
structure VOps where
  vd : BitVec 5
  va : BitVec 6
  vb : BitVec 6
  deriving DecidableEq, Repr

/-- The fields of VLD and VST (R102). -/
structure MemOps where
  reg : BitVec 5
  cntM1 : BitVec 2
  sb : BitVec 5
  off : BitVec 10
  inc : Bool
  deriving DecidableEq, Repr

/-- The fields of SLD and SST (R102). -/
structure SMemOps where
  reg : BitVec 5
  lane : BitVec 4
  sb : BitVec 5
  off : BitVec 10
  deriving DecidableEq, Repr

/-- The fields of LSAVE and LREST (R102). -/
structure LMemOps where
  acc : BitVec 3
  sb : BitVec 5
  off : BitVec 10
  inc : Bool
  deriving DecidableEq, Repr

/-- Who makes a register access: a function through a host port (R248), the management plane
(R478) or authenticated JTAG (R498). -/
inductive Via where
  | host (port : Bool) (fn : BitVec 6)
  | mgmt
  | jtag
  deriving DecidableEq, Repr

/-- Where the failing runs of a Wheelwright segment failed (R472): runs failed of three are found by
the three runs themselves; a failure may lie in one row of one SRAM. -/
structure BistLoc where
  under : Bool
  row : BitVec 10
  bit : BitVec 11
  oneRow : Bool
  deriving DecidableEq, Repr

/-- What the host side answered to the reads or writes of a DMA (R267). -/
inductive HostReply where
  | ok
  /-- read completions with EP set covered the lines at these byte offsets of the transfer -/
  | poisoned (offsets : List Nat)
  /-- a host read ended with Unsupported Request or Completer Abort at this byte offset -/
  | error (offset : BitVec 32)
  deriving DecidableEq, Repr

/-- A flit (R307). -/
structure Flit where
  kind : Byte
  chan : Byte
  seq : BitVec 16
  ack : BitVec 12
  nak : Bool
  credit : BitVec 12
  creditChan : BitVec 2
  poison : BitVec 16
  len : Byte
  payload : List Byte
  crc : BitVec 32 := 0
  deriving DecidableEq, Repr

/-- What the header and the end of a received control flit say beside its message (R307, R308). -/
structure FlitHead where
  ack : BitVec 12
  nak : Bool
  credit : BitVec 12
  creditChan : BitVec 2
  crc : BitVec 32
  deriving DecidableEq, Repr

/-- TS (R313). -/
structure TsMsg where
  state : Byte
  locked : Byte
  equalised : Byte
  maxWidth : Byte
  bad : Byte
  deriving DecidableEq, Repr

/-- CONFIG (R313). -/
structure ConfigMsg where
  version : Byte
  moduleId : BitVec 10
  port : Byte
  enabled : Bool
  recentre : BitVec 32
  deriving DecidableEq, Repr

/-- REQ (R313). -/
structure ReqMsg where
  reqNo : Byte
  op : Byte
  width : Byte
  bad : Byte
  reason : Byte
  name : BitVec 30
  reqPort : Byte
  deriving DecidableEq, Repr

/-- HELLO (R325). -/
structure HelloMsg where
  role : Byte
  id : BitVec 12
  version : Byte
  caps : Byte
  deriving DecidableEq, Repr

/-- The OPEN body with the pair flag of its header (R324, R326). -/
structure OpenBody where
  pair : Bool
  dir : Byte
  mode : Byte
  elem : Byte
  partner : BitVec 16
  addr : BitVec 64
  lines : BitVec 32
  deriving DecidableEq, Repr

/-- One 64 B line on a link, with its poison (R324). -/
structure Line where
  data : BitVec 512
  poison : Bool
  deriving DecidableEq, Repr

/-- The 1 s averages of the cold plate's two inlet and two outlet sensors and of the dies (R362), in °C. -/
structure ThermalIn where
  inletA : Byte
  inletB : Byte
  outletA : Byte
  outletB : Byte
  junction : Byte
  site : BitVec 6
  deriving DecidableEq, Repr

/-- The higher sensor of each pair (R362). -/
def ThermalIn.inlet (t : ThermalIn) : Nat := max t.inletA.toNat t.inletB.toNat
def ThermalIn.outlet (t : ThermalIn) : Nat := max t.outletA.toNat t.outletB.toNat

/-- The part a contact group serves (R359). -/
inductive Part where
  | die (d : BitVec 6)
  | stack (s : BitVec 5)
  | engine (k : BitVec 6)
  | controller
  | hostDie (p : Bool)
  deriving DecidableEq, Repr

/-- A lane found bad at step 4 (R436): die, edge and lane number. -/
structure BadLane where
  die : BitVec 6
  edge : BitVec 2
  lane : BitVec 14
  deriving DecidableEq, Repr

/-- A failure that a Wheelwright pass of step 8 found (R472): the die, the record of R442 it calls for, the
segment, the runs of three that failed (one is a transient), the bit within the row, the region and the row. -/
structure BistFail where
  die : BitVec 6
  record : BitVec 64
  seg : BitVec 12
  runs : BitVec 2
  bit : BitVec 11
  under : Bool := false
  row : BitVec 10 := 0
  deriving DecidableEq, Repr

/-- The 64 bytes of a parameter block (R233) with the required values: redundant 4, t_max 85 °C, t_refi 3,900 ns,
t_rfc 350 ns, vendor 0, and a serial number. -/
def paramBlock (serial : List (BitVec 8)) : List (BitVec 8) :=
  [0x43, 0x48, 0x50, 0x42, 1, 0, 64, 0, 32, 8, 4, 85, 0x3C, 0x0F, 0, 0, 0x5E, 0x01, 0, 0, 0, 0x10, 0, 0] ++
    (serial ++ List.replicate 8 0).take 8 ++ List.replicate 32 0

/-- What a stack answers while step 6 attaches it (R234): the sideband comes up, the parameter block as read, the
rate, modules and CMTL version that the parameter exchange agrees on, the lanes that MBINIT repairs and whether that is
enough, training from saved settings and in full, CMTL initialisation, the zeroing, the temperature in °C, and whether
the CRC of its saved record is good (R421). -/
structure StackIn where
  stack : BitVec 5
  sideband : Bool := true
  block : List (BitVec 8) := paramBlock []
  rate : Nat := 32
  modules : Nat := 8
  version : Nat := 1
  repaired : BitVec 6 := 0
  repairOk : Bool := true
  savedTrains : Bool := true
  fullTrains : Bool := true
  cmtlOk : Bool := true
  zeroOk : Bool := true
  temp : Nat := 40
  savedCrc : Bool := true
  deriving DecidableEq, Repr

/-- What the parts and surroundings answer while a bring-up step runs (R419): the facts a step reads
that no state of the module determines. A step uses the fields its actions name. -/
structure StepEnv where
  /-- dies that fail the step's per-die check: fuse CRC, PLL lock, hash, link loop -/
  dieBad : BitVec 64 := 0
  /-- step 1: a service die whose fuse CRC fails -/
  svcBad : Option (BitVec 2) := none
  /-- step 2: crystals that run, their difference XA - XB in ppm, XA nearer the fused trim, root PLL lock -/
  xaRuns : Bool := true
  xbRuns : Bool := true
  ppmXaXb : Int := 0
  xaNearer : Bool := true
  pllLock : Bool := true
  /-- step 3: die straps read, where they differ from the pattern of R354; the two samples of the 19 straps -/
  dieStraps : List (Nat × BitVec 11) := []
  sample1 : BitVec 19 := 0
  sample2 : BitVec 19 := 0
  /-- steps 4 and 5: serial numbers of dies, 0 unless listed -/
  dieSerials : List (Nat × BitVec 64) := []
  /-- step 4: lanes newly found bad; edges (die × 4 + edge) that fail the short check, or whose saved record has a bad
  CRC -/
  badLanes : List BadLane := []
  edgesUnfit : List Nat := []
  /-- step 5: a crossing that cannot be trained; crossings (die × 4 + edge 1 or 2) whose saved record has a bad CRC, or
  from whose saved settings training fails; die temperatures in °C (also of step 4), 25 unless listed -/
  crossBad : Option (BitVec 6 × BitVec 2) := none
  crossUnfit : List Nat := []
  dieTemps : List (Nat × Nat) := []
  /-- step 6: what the stacks answer; one that is not listed answers as `StackIn`'s defaults say -/
  stackIn : List StackIn := []
  /-- step 7: dies to which a flood brought other bytes than the payload: what the first flood brought and what the
  second did -/
  floods : List (Nat × List (BitVec 8) × List (BitVec 8)) := []
  /-- step 8: failures of the Wheelwright pass -/
  bist : List BistFail := []
  /-- step 9: serial numbers of engines, 0 unless listed; engines whose saved record has a bad CRC -/
  engineSerials : List (Nat × BitVec 64) := []
  enginesUnfit : List Nat := []
  /-- step 10: the licence store can be read -/
  licReadable : Bool := true
  deriving DecidableEq, Repr

/-- The header of a management command (R480): the path it came by, the magic, version and length that it shows over
UDP, key slot, nonce, signature; the management port and the UDP port at which it arrived (R479), and over MCTP whether the
bus is SMBus (R486). -/
structure MgmtHdr where
  mctp : Bool
  magic : BitVec 16
  version : BitVec 8
  len : BitVec 16
  key : BitVec 3
  nonce : BitVec 64
  sig : BitVec 512
  mport : Bool := false
  udp : BitVec 16 := 47210
  smbus : Bool := false
  deriving DecidableEq, Repr

/-- The commands (spec/opcode_table.json, in its order). -/
inductive Instr where
  /-- ENOP (R91): E-slot no-operation. -/
  | enop (i : Issue)
  /-- EMAC (R93): Accumulates one outer-product step of A and B into the Ledgers of engines 0 to elast. -/
  | emac (i : Issue) (o : EmacOps)
  /-- EMACC (R91): Clears engines 0 to elast in their held modes, then accumulates as EMAC. -/
  | emacc (i : Issue) (o : EmacOps)
  /-- ECLR (R97): Clears the Ledger registers named by emask in the named mode and sets W. -/
  | eclr (i : Issue) (emask : BitVec 8) (mode : BitVec 2) (w : BitVec 10)
  /-- ERD (R53): Reads out one Ledger register under a readout control field into vector registers. -/
  | erd (i : Issue) (acc : BitVec 3) (vd : BitVec 5) (rctl : BitVec 20)
  /-- ESLICE (R67): Performs one FP64 slice step on engines 0 to elast. -/
  | eslice (i : Issue) (elast : BitVec 3) (sstep : BitVec 3) (srcA : BitVec 6) (srcB : BitVec 6)
  /-- VNOP (R98): V-slot no-operation. -/
  | vnop (i : Issue)
  /-- FADD (R71): FP32 addition of va and vb. -/
  | fadd (i : Issue) (o : VOps)
  /-- FSUB (R71): FP32 subtraction of vb from va. -/
  | fsub (i : Issue) (o : VOps)
  /-- FMUL (R71): FP32 multiplication of va and vb. -/
  | fmul (i : Issue) (o : VOps)
  /-- FMA (R98): FP32 fused multiply-add va × vb + vd, rounded once. -/
  | fma (i : Issue) (o : VOps)
  /-- FMIN (R71): IEEE 754-2019 minimum of va and vb. -/
  | fmin (i : Issue) (o : VOps)
  /-- FMAX (R71): IEEE 754-2019 maximum of va and vb. -/
  | fmax (i : Issue) (o : VOps)
  /-- FCMP (R98): Compares FP32 elements and writes a predicate bit in each active lane. -/
  | fcmp (i : Issue) (va : BitVec 6) (vb : BitVec 6) (pd : BitVec 3) (cond : BitVec 3) (red : BitVec 2)
  /-- CVT (R100): Converts va between FP32 and another format under a conversion-table entry. -/
  | cvt (i : Issue) (vd : BitVec 5) (va : BitVec 6) (idx : BitVec 4) (fmt : BitVec 4)
  /-- SFU (R72): Evaluates a special function of va on an F-core. -/
  | sfu (i : Issue) (vd : BitVec 5) (va : BitVec 6) (fn : BitVec 3)
  /-- PWT (R73): Evaluates the piecewise table unit on va with a scalar descriptor. -/
  | pwt (i : Issue) (vd : BitVec 5) (va : BitVec 6) (vb : BitVec 6)
  /-- IADD (R98): 32-bit integer addition element by element. -/
  | iadd (i : Issue) (o : VOps)
  /-- ISUB (R98): 32-bit integer subtraction element by element. -/
  | isub (i : Issue) (o : VOps)
  /-- AND (R98): Bitwise AND of va and vb. -/
  | vand (i : Issue) (o : VOps)
  /-- OR (R98): Bitwise OR of va and vb. -/
  | vor (i : Issue) (o : VOps)
  /-- XOR (R98): Bitwise XOR of va and vb. -/
  | vxor (i : Issue) (o : VOps)
  /-- SHL (R98): Logical left shift of 32-bit elements. -/
  | shl (i : Issue) (vd : BitVec 5) (va : BitVec 6) (count : BitVec 5)
  /-- SHR (R98): Logical right shift of 32-bit elements. -/
  | shr (i : Issue) (vd : BitVec 5) (va : BitVec 6) (count : BitVec 5)
  /-- MOV (R98): Copies va to vd. -/
  | mov (i : Issue) (vd : BitVec 5) (va : BitVec 6)
  /-- BCAST (R98): Broadcasts one 32-bit element of va to every element. -/
  | bcast (i : Issue) (vd : BitVec 5) (va : BitVec 6) (elem : BitVec 4)
  /-- LANEX (R98): Copies va of a named lane into every active lane. -/
  | lanex (i : Issue) (vd : BitVec 5) (va : BitVec 6) (lane : BitVec 4)
  /-- SCALE (R98): Loads scale register sa or sb from va. -/
  | scale (i : Issue) (va : BitVec 6) (sbTarget : Bool)
  /-- VFROMS (R98): Broadcasts the low 32 bits of a scalar operand into every element. -/
  | vfroms (i : Issue) (vd : BitVec 5) (vb : BitVec 6)
  /-- XSET (R165): Loads the lane walk state from two BM64 headers. -/
  | xset (i : Issue) (o : VOps) (dense : Bool) (ha : BitVec 2) (hb : BitVec 2) (range : BitVec 2)
  /-- XWALK (R166): Emits up to 8 walk records from the match mask. -/
  | xwalk (i : Issue) (vd : BitVec 5) (pd : BitVec 3)
  /-- XGATH (R167): Gathers kept elements named by walk records. -/
  | xgath (i : Issue) (o : VOps) (rankB : Bool) (width : BitVec 3)
  /-- X24 (R168): Selects 2:4 partner elements from a dense block. -/
  | x24 (i : Issue) (o : VOps) (width : BitVec 3)
  /-- XCSLU (R169): Unpacks 8 CSL records into keys or FP32 values. -/
  | xcslu (i : Issue) (vd : BitVec 5) (va : BitVec 6) (values : Bool) (fmt : BitVec 4) (clear : Bool)
  /-- HCLR (R174): Clears a hash accumulator and loads its descriptor. -/
  | hclr (i : Issue) (vb : BitVec 6) (table : Bool)
  /-- HACC (R176): Inserts 8 contributions into a hash accumulator. -/
  | hacc (i : Issue) (o : VOps) (table : Bool) (mul : Bool)
  /-- SPILL_COMPLETE (R180): The last spilling lane finishes and the cluster's hold ends. -/
  | spillComplete (c : BitVec 16)
  /-- HMERGE (R181): Starts merging a hash accumulator and its spills into the output window, holding issue. -/
  | hmerge (i : Issue) (vd : BitVec 5) (vb : BitVec 6) (table : Bool)
  /-- HMERGE_COMPLETE (R182): The last output record is written, vd receives the count, and the table is cleared. -/
  | hmergeComplete (c : BitVec 16)
  /-- HSTAT (R183): Reads hash-accumulator statistics into vd. -/
  | hstat (i : Issue) (vd : BitVec 5) (table : Bool)
  /-- MNOP (R102): M-slot no-operation. -/
  | mnop (i : Issue)
  /-- VLD (R102): Loads cnt vector registers from lane SRAM. -/
  | vld (i : Issue) (o : MemOps)
  /-- VST (R102): Stores cnt vector registers to lane SRAM. -/
  | vst (i : Issue) (o : MemOps)
  /-- SLD (R102): Loads a scalar register from 8 B in a named lane. -/
  | sld (i : Issue) (o : SMemOps)
  /-- SST (R102): Stores a scalar register to 8 B in a named lane. -/
  | sst (i : Issue) (o : SMemOps)
  /-- LSAVE (R60): Saves a Ledger register to SRAM as 32 records. -/
  | lsave (i : Issue) (o : LMemOps)
  /-- LREST (R61): Restores a Ledger register from SRAM with a residue check. -/
  | lrest (i : Issue) (o : LMemOps)
  /-- SOUT (R102): Injects 64 B of a named lane's SRAM into the vector network. -/
  | sout (i : Issue) (lane : BitVec 4) (sb : BitVec 5) (off : BitVec 10) (inc : Bool)
  /-- SIN (R102): Consumes a vector queue head and writes it to SRAM in every active lane. -/
  | sin (i : Issue) (queue : BitVec 2) (sb : BitVec 5) (off : BitVec 10) (inc : Bool)
  /-- QNOP (R103): Q-slot no-operation. -/
  | qnop (i : Issue)
  /-- SALU (R103): Scalar ALU operation on two scalar operands. -/
  | salu (i : Issue) (fn : BitVec 4) (sd : BitVec 5) (sa : BitVec 6) (sb : BitVec 6)
  /-- SALUI (R103): Scalar ALU operation with a signed immediate. -/
  | salui (i : Issue) (fn : BitVec 4) (sd : BitVec 5) (sa : BitVec 6) (imm : BitVec 8)
  /-- SLI (R103): Loads a 16-bit immediate into a halfword of a scalar register. -/
  | sli (i : Issue) (sd : BitVec 5) (hw : BitVec 2) (imm : BitVec 16)
  /-- PCMP (R103): Compares scalars and writes all bits of a predicate. -/
  | pcmp (i : Issue) (pd : BitVec 3) (cond : BitVec 3) (sa : BitVec 6) (sb : BitVec 6)
  /-- PLOG (R103): Logical operation on two predicates. -/
  | plog (i : Issue) (pd : BitVec 3) (fn : BitVec 2) (pa : BitVec 3) (pb : BitVec 3)
  /-- PFROMS (R103): Loads a predicate from a scalar. -/
  | pfroms (i : Issue) (pd : BitVec 3) (sa : BitVec 6)
  /-- PTOS (R103): Copies a predicate into a scalar register. -/
  | ptos (i : Issue) (sd : BitVec 5) (pa : BitVec 3)
  /-- REP (R107): Opens a hardware repeat block with a fixed count. -/
  | rep (i : Issue) (count : BitVec 12) (lenM1 : BitVec 8) (lp : BitVec 3)
  /-- SSEND (R103): Injects a scalar into the scalar network. -/
  | ssend (i : Issue) (sa : BitVec 6)
  /-- CSEND (R103): Injects 16 bits into the control network. -/
  | csend (i : Issue) (sa : BitVec 6)
  /-- VSEND (R103): Injects a lane's vector register into the vector network. -/
  | vsend (i : Issue) (vs : BitVec 5) (lane : BitVec 4)
  /-- CSIG (R188): Signals a coupling locally or injects a remote signal message. -/
  | csig (i : Issue) (cpl : BitVec 6) (rem : Bool) (sub : Bool) (amount : BitVec 8)
  /-- CWAIT (R190): Holds issue on a local condition, or injects a watch and holds for a wake. -/
  | cwait (i : Issue) (cpl : BitVec 6) (rem : Bool) (cond : BitVec 3) (val : BitVec 8) (take : Bool) (path : BitVec 3)
  /-- CTOLL (R205): Snapshots the cluster's mark objects and enters a Tollgate round. -/
  | ctoll (i : Issue) (w : Bool)
  /-- CREAD (R189): Reads a coupling count into a scalar register. -/
  | cread (i : Issue) (cpl : BitVec 6) (sd : BitVec 5)
  /-- END (R106): Parks the sequencer for the rest of the job. -/
  | endProg (i : Issue)
  /-- WAIT_SATISFIED (R190): A held local wait finds its condition true with the drain complete, takes, and resumes issue 4 beats later. -/
  | waitSatisfied (c : BitVec 16)
  /-- JOB_BEAT (R122): One job beat of a rectangle: routers apply route words, queues and coupling units update. -/
  | jobBeat (slot : BitVec 6)
  /-- WITHHELD_BEAT (R376): A beat that Drag withholds holds every job pipeline and router of the rectangle. -/
  | withheldBeat (slot : BitVec 6)
  /-- SIGNAL_MESSAGE (R193): A remote signal message reaches a coupling unit and takes effect. -/
  | signalMessage (c : BitVec 16) (msg : BitVec 16) (origin : BitVec 20)
  /-- WATCH_MESSAGE (R194): A watch message registers a remote waiter in a free slot. -/
  | watchMessage (c : BitVec 16) (msg : BitVec 16)
  /-- WAKE_MESSAGE (R194): A wake message ends the waiter's pending remote wait. -/
  | wakeMessage (c : BitVec 16) (msg : BitVec 16)
  /-- WAKE_LINE_PULSE (R194): A wake-line pulse from a neighbour ends a pending remote wait. -/
  | wakeLinePulse (c : BitVec 16) (dir : BitVec 2)
  /-- BROADCAST_WAKE (R196): The die agent's broadcast wake ends held waits on the die. -/
  | broadcastWake (die : BitVec 6)
  /-- DRIFT_WARNING (R140): Crossing drift rises to 32 or above, counting a warning and logging at most once per period. -/
  | driftWarning (die : BitVec 6) (edge : BitVec 2) (drift : BitVec 8)
  /-- DRIFT_LIMIT (R140): Crossing drift reaches 64, causing a crossing fault. -/
  | driftLimit (die : BitVec 6) (edge : BitVec 2) (drift : BitVec 8)
  /-- BEAT_CHECK_ERROR (R142): A beat's CRC-32C mismatches on a crossing, causing a crossing fault. -/
  | beatCheckError (die : BitVec 6) (edge : BitVec 2)
  /-- LANE_LOSS (R142): A crossing lane without a spare loses phase lock, causing a crossing fault. -/
  | laneLoss (die : BitVec 6) (edge : BitVec 2) (lane : BitVec 14)
  /-- FAB_VIEW_CAPTURE (R155): A write of capture starts a fabric-view capture of one cluster. -/
  | fabViewCapture (via : Via) (die : BitVec 6) (value : BitVec 32)
  /-- FAB_VIEW_CAPTURE_TAKEN (R156): The capture is taken at the chosen or late job beat and done is set. -/
  | fabViewCaptureTaken (die : BitVec 6)
  /-- CLEAR_MINMAX (R157): Sets the drift minimum and maximum to the current drift. -/
  | clearMinmax (via : Via) (die : BitVec 6) (edge : BitVec 2)
  /-- CLEAR_COUNT (R157): Clears the crossing warning and check-error counts. -/
  | clearCount (via : Via) (die : BitVec 6) (edge : BitVec 2)
  /-- DBG_CAPTURE (R210): A write of DBG_SEL.capture requests a coupling capture. -/
  | dbgCapture (via : Via) (value : BitVec 32)
  /-- DBG_CAPTURE_TAKEN (R210): The coupling and Tollgate state are captured at a job beat. -/
  | dbgCaptureTaken
  /-- TOLLGATE_ROUND_OPEN (R199): Round n opens at Milestone O_n. -/
  | tollgateRoundOpen
  /-- TOLLGATE_ENTRY (R202): A participant enters a round and is judged by its distance from the oldest round. -/
  | tollgateEntry (src : BitVec 20) (round : BitVec 8) (parityOk : Bool)
  /-- TOLLGATE_RELEASE (R201): The round releases at R_n and its changes take effect in order. -/
  | tollgateRelease
  /-- TOLLGATE_STALL (R203): At D_n missing participants leave service and the round releases. -/
  | tollgateStall
  /-- TG_PERIOD_WRITE (R206): A write to CLK_TG_PERIOD stages a new period or is ignored. -/
  | tgPeriodWrite (via : Via) (value : BitVec 32)
  /-- BIST_SEGMENT_END (R469): A test segment completes on a core under test and is judged. -/
  | bistSegmentEnd (c : BitVec 16) (pass : Bool) (loc : BistLoc)
  /-- DRAG_CONTROL_PERIOD (R373): Every 1,024 ns Drag moves E toward W, fits k and sets ballast. -/
  | dragControlPeriod (inputMv : Nat) (idleMw : Nat) (measuredMw : Nat) (draws : List (Nat × Nat))
  /-- EGRESS_PREFETCH (R223): An egress slot with buffer room issues a Coachhouse read in pattern order. -/
  | egressPrefetch (die : BitVec 6) (edge : BitVec 2) (slot : BitVec 6)
  /-- CREDIT_RETURN (R223): A signal message at a slot's control input adds credits to the slot counter. -/
  | creditReturn (die : BitVec 6) (edge : BitVec 2) (slot : BitVec 6) (msg : BitVec 16)
  /-- INGRESS_LINE_WRITE (R225): An ingress slot writes a whole line to the Coachhouse, reading a partial final line first. -/
  | ingressLineWrite (die : BitVec 6) (edge : BitVec 2) (slot : BitVec 6)
  /-- READ_REQUEST (R235): A CMTL read-request frame is received. -/
  | readRequest (stack : BitVec 5) (good : Bool)
  /-- WRITE (R235): A CMTL write frame is received. -/
  | writeFrame (stack : BitVec 5) (good : Bool)
  /-- READ_DATA (R235): A CMTL read-data frame returns a line or granule. -/
  | readData (stack : BitVec 5) (good : Bool)
  /-- WRITE_ACKNOWLEDGE (R235): A CMTL write-acknowledge frame confirms a write. -/
  | writeAcknowledge (stack : BitVec 5) (good : Bool)
  /-- ACKNOWLEDGE_ONLY (R235): A CMTL acknowledge-only frame advances the ack. -/
  | acknowledgeOnly (stack : BitVec 5) (toStack : Bool) (good : Bool)
  /-- NAK (R236): A CMTL NAK makes the sender resend go-back-N. -/
  | nak (stack : BitVec 5) (toStack : Bool) (good : Bool)
  /-- LINK_RECENTRE (R237): After 1,024 releases or a 5 K change the stack link is re-centred. -/
  | linkRecentre (stack : BitVec 5) (temp : Nat)
  /-- PATROL_SCRUB (R239): The scrubber reads each line once per 24 hours. -/
  | patrolScrub (stack : BitVec 5)
  /-- POLL_CYCLE (R258): A poll cycle reads gen, group_map and producer indices of each running function. -/
  | pollCycle (fails : List (BitVec 6 × BitVec 6))
  /-- DESCRIPTOR_FETCH (R258): The module reads descriptors of a ring until ci reaches pi_seen. -/
  | descriptorFetch (ring : BitVec 16) (good : Bool)
  /-- NOP (R264): Descriptor with no action that completes. -/
  | nop (ring : BitVec 16)
  /-- CREATE_RING (R265): Creates a ring with its depth, port, vector, coalescing and bases. -/
  | createRing (ring : BitVec 16)
  /-- DESTROY_RING (R265): Destroys a ring after retiring its started descriptors. -/
  | destroyRing (ring : BitVec 16)
  /-- ASSIGN_VF (R265): Assigns a virtual function its slot, ring range and Coachhouse range. -/
  | assignVf (ring : BitVec 16)
  /-- SET_APERTURE (R252): Moves the function's BAR2 aperture base. -/
  | setAperture (ring : BitVec 16)
  /-- JOB_LOAD (R289): Checks a staged image in a first pass and starts loading it onto a rectangle. -/
  | jobLoad (ring : BitVec 16)
  /-- LOAD_COMPLETE (R289): The second pass finishes, the CRC is rechecked and JOB_LOAD retires with a new tag. -/
  | loadComplete (slot : BitVec 6)
  /-- JOB_START (R293): Starts a Loaded job and retires when the job leaves Running and Stopping. -/
  | jobStart (ring : BitVec 16)
  /-- JOB_BEAT_ZERO (R375): Job beat 0 begins on every die at least 100 ns after k is sent. -/
  | jobBeatZero (slot : BitVec 6)
  /-- JOB_STOP (R294): Requests a stop; the controller chooses a stop beat within 4 µs. -/
  | jobStop (ring : BitVec 16)
  /-- STOP_BEAT (R294): At the end of beat s issue ends on every die and the job moves toward Stopped. -/
  | stopBeat (slot : BitVec 6)
  /-- JOB_KILL (R295): Stops a job and discards unwritten ingress entries. -/
  | jobKill (ring : BitVec 16)
  /-- JOB_UNLOAD (R297): Releases every resource of a job in order and frees the slot. -/
  | jobUnload (ring : BitVec 16)
  /-- JOB_QUERY (R292): Returns the job's state code. -/
  | jobQuery (ring : BitVec 16)
  /-- JOB_ENDED (R292): Every cluster has reached END and every sending stream completed; the job becomes Ended. -/
  | jobEnded (slot : BitVec 6)
  /-- DMA_TO_CHS (R266): Checks and starts a host-to-Coachhouse transfer. -/
  | dmaToChs (ring : BitVec 16)
  /-- DMA_FROM_CHS (R266): Checks and starts a Coachhouse-to-host transfer. -/
  | dmaFromChs (ring : BitVec 16)
  /-- DMA_COMPLETE (R267): A DMA finishes or stops and its status is determined. -/
  | dmaComplete (ring : BitVec 16) (idx : Nat) (host : HostReply)
  /-- COALESCE_TIMER (R269): coal_time after the first unsignalled completion a message is sent. -/
  | coalesceTimer (ring : BitVec 16)
  /-- VECTOR_UNMASK (R269): Unmasking a vector with a pending condition sends one message. -/
  | vectorUnmask (port : Bool) (fn : BitVec 6) (vec : BitVec 5)
  /-- BAR2_READ (R252): A host read through the aperture returns Coachhouse data or fails. -/
  | bar2Read (port : Bool) (fn : BitVec 6) (off : BitVec 36) (len : Nat)
  /-- BAR2_WRITE (R253): A host write through the aperture replaces lines atomically or is discarded. -/
  | bar2Write (port : Bool) (fn : BitVec 6) (off : BitVec 36) (data : List (BitVec 8)) (poisoned : Bool)
  /-- REGISTER_WRITE (R7): A BAR0 write to a register with no row of its own, under its access codes. -/
  | registerWrite (via : Via) (off : BitVec 24) (size : Nat) (value : BitVec 32) (env : StepEnv)
  /-- FUNCTION_RUN (R254): Writing run 1 starts polling the function's doorbell area. -/
  | functionRun (port : Bool) (fn : BitVec 6) (value : BitVec 32)
  /-- FUNCTION_STOP (R254): Writing run 0 stops polling at the end of the current cycle. -/
  | functionStop (port : Bool) (fn : BitVec 6) (value : BitVec 32)
  /-- PORT_LINK_DOWN (R271): A host port losing its link aborts started descriptors of its rings. -/
  | portLinkDown (port : Bool)
  /-- PORT_LINK_UP (R247): A host port trains and its data link comes up. -/
  | portLinkUp (port : Bool) (speed : BitVec 4) (width : BitVec 6) (flit : Bool)
  /-- FLR (R272): Function-level reset destroys rings, clears HIF registers and kills jobs. -/
  | flr (fn : BitVec 6)
  /-- FLIT_SLOT (R308): Each flit slot the transmitter sends a replay, control, data or idle flit by priority. -/
  | flitSlot (port : BitVec 7)
  /-- DATA_FLIT (R309): A data flit is received, checked and delivered or discarded with a nak. -/
  | dataFlit (port : BitVec 7) (flit : Flit)
  /-- IDLE_FLIT (R308): An idle flit delivers its ack and credit return. -/
  | idleFlit (port : BitVec 7) (flit : Flit)
  /-- REPLAY_TIMEOUT (R309): After 4 µs without ack advance the sender replays from the oldest flit. -/
  | replayTimeout (port : BitVec 7)
  /-- NAK_HOLDOFF_EXPIRY (R309): After 2 µs the receiver may send a further nak. -/
  | nakHoldoffExpiry (port : BitVec 7)
  /-- TS (R313): A training-status control message is received. -/
  | ts (port : BitVec 7) (h : FlitHead) (m : TsMsg)
  /-- CONFIG (R313): A CONFIG control message is received and the port moves toward ACTIVE. -/
  | config (port : BitVec 7) (h : FlitHead) (m : ConfigMsg)
  /-- REQ (R319): A retrain or width request is received and granted, held or treated as a collision. -/
  | req (port : BitVec 7) (h : FlitHead) (m : ReqMsg)
  /-- GRANT (R319): A Lantern GRANT starts the leader's operation. -/
  | grant (port : BitVec 7) (h : FlitHead) (reqNo : BitVec 8)
  /-- WIDTH_MARK (R317): A width mark switches the receiver to the new pair set. -/
  | widthMark (port : BitVec 7) (h : FlitHead) (width : BitVec 8) (pairs : BitVec 8) (reqNo : BitVec 8)
  /-- TIME (R398): A TIME message is taken for pair time alignment and trimming. -/
  | time (port : BitVec 7) (h : FlitHead) (value : BitVec 64) (arrival : Nat)
  /-- TIME_SEND (R313): A port sends TIME at each wrap of Milestone bits [14:0]. -/
  | timeSend (port : BitVec 7)
  /-- REQ_RESEND (R319): An unanswered REQ is resent every 2 µs; at the 8th the end enters RETRAIN. -/
  | reqResend (port : BitVec 7)
  /-- TRAINING_TIMEOUT (R314): A training state runs past its limit and fails. -/
  | trainingTimeout (port : BitVec 7)
  /-- RING_CAL_COMPLETE (R314): Engine ring calibration completes or fails. -/
  | ringCalComplete (engine : BitVec 6) (ok : Bool) (fromSaved : Bool) (temp : BitVec 8)
  /-- SEEK_LOCK (R316): The receiver locks to TS on all pairs of a group. -/
  | seekLock (port : BitVec 7) (pairs : BitVec 8) (peer : BitVec 17)
  /-- EQUALISE_COMPLETE (R314): Receive equalisation and thresholds are set. -/
  | equaliseComplete (port : BitVec 7)
  /-- DOWN_TIMER (R314): One second after DOWN the port returns to SEEK. -/
  | downTimer (port : BitVec 7)
  /-- LASER_LINE_PRESENT (R304): A laser line holds 16 mW for 10 ms and is present. -/
  | laserLinePresent (engine : BitVec 6) (line : BitVec 3) (power : BitVec 8)
  /-- LASER_LINE_LOST (R304): A laser line falls below 14 mW and both ports of the engine go dark. -/
  | laserLineLost (engine : BitVec 6) (line : BitVec 3) (power : BitVec 8)
  /-- PAIR_MARKED_BAD (R316): A fibre pair losing lock or eye margin is marked bad. -/
  | pairMarkedBad (port : BitVec 7) (pair : BitVec 3)
  /-- PAIR_MARK_CLEARED (R316): A bad mark clears after 1 s clean. -/
  | pairMarkCleared (port : BitVec 7) (pair : BitVec 3)
  /-- UPSHIFT_CHECK (R317): A wider clean group existing for 1 s triggers an upshift REQ. -/
  | upshiftCheck (port : BitVec 7)
  /-- RING_LOCK_LOSS (R320): A ring heater reaching its range end marks its pair bad and recalibrates the ring. -/
  | ringLockLoss (engine : BitVec 6) (pair : BitVec 4) (ring : BitVec 4)
  /-- RING_RELOCK (R320): A single-ring recalibration completes and the pair is cleared. -/
  | ringRelock (engine : BitVec 6) (pair : BitVec 4) (ring : BitVec 4)
  /-- RING_RECENTRE_COMPLETE (R320): A re-centring started at the release completes. -/
  | ringRecentreComplete (engine : BitVec 6) (temp : BitVec 8)
  /-- HEATER_SETTINGS_SAVE (R321): After each full hour in ACTIVE the settings are saved at the next release. -/
  | heaterSettingsSave (engine : BitVec 6) (temp : BitVec 8)
  /-- ADMIN_DOWN (R322): Writing admin_down holds the port DOWN then DISABLED. -/
  | adminDown (via : Via) (port : BitVec 7) (value : BitVec 32)
  /-- MAX_WIDTH (R322): Writing max_width below the current width requests a width change. -/
  | maxWidth (via : Via) (port : BitVec 7) (value : BitVec 32)
  /-- PORT_RETRAIN (R318): Writing retrain requests a retrain. -/
  | portRetrain (via : Via) (port : BitVec 7)
  /-- PORT_RECAL (R318): Writing recal requests a retrain with ring recalibration. -/
  | portRecal (via : Via) (port : BitVec 7)
  /-- HELLO (R325): A transport HELLO names the peer of a link epoch. -/
  | hello (port : BitVec 7) (m : HelloMsg)
  /-- OPEN (R326): A stream OPEN is received and answered. -/
  | openMsg (port : BitVec 7) (key : BitVec 32) (m : OpenBody)
  /-- OPEN_ACK (R326): An OPEN_ACK accepts or refuses a stream. -/
  | openAck (port : BitVec 7) (key : BitVec 32) (status : BitVec 64)
  /-- STREAM_GRANT (R327): A receiver's GRANT raises the sender's limit. -/
  | streamGrant (port : BitVec 7) (key : BitVec 32) (limit : Nat)
  /-- COMMIT (R328): A COMMIT declares lines durable; at the end the stream completes. -/
  | commit (port : BitVec 7) (key : BitVec 32) (off : Nat)
  /-- RESUME (R333): A RESUME makes the sender resend from an offset. -/
  | resume (port : BitVec 7) (key : BitVec 32) (off : Nat)
  /-- CLOSE (R332): A CLOSE ends a stream normally or by abort. -/
  | closeMsg (port : BitVec 7) (key : BitVec 32) (arg : BitVec 64)
  /-- CLOSE_ACK (R332): A CLOSE_ACK confirms a closed stream. -/
  | closeAck (port : BitVec 7) (key : BitVec 32)
  /-- DATA (R327): A DATA message is written into storage once whole. -/
  | data (port : BitVec 7) (chan : BitVec 2) (key : BitVec 32) (off : Nat) (lines : List (Line))
  /-- STREAM_TIMEOUT (R333): A suspended stream not resumed within stream_timeout fails. -/
  | streamTimeout (port : BitVec 7) (key : BitVec 32)
  /-- OPEN_TIMEOUT (R335): An unmatched peer OPEN is answered with status 5. -/
  | openTimeout (port : BitVec 7) (key : BitVec 32)
  /-- OPEN_ANSWER_TIMEOUT (R352): An OPEN unanswered within its limit fails the stream. -/
  | openAnswerTimeout (port : BitVec 7) (key : BitVec 32)
  /-- POSTING_PORT_DRAIN (R337): Setting drain refuses later admissions naming the port. -/
  | postingPortDrain (via : Via) (port : BitVec 7) (value : BitVec 32)
  /-- PAIR_ENABLE (R339): Setting PST_PAIR_CTRL.enable starts pair formation. -/
  | pairEnable (via : Via) (value : BitVec 32)
  /-- PAIR_HELLO (R339): A PAIR_HELLO is received and judged for formation. -/
  | pairHello (port : BitVec 7) (last : Bool) (body : List (BitVec 8))
  /-- PAIR_SIG (R345): A PAIR_SIG list is received and compared unit by unit. -/
  | pairSig (round : BitVec 8) (units : List (BitVec 64 × BitVec 64)) (last : Bool)
  /-- PAIR_EVIDENCE (R347): Evidence is received and the mismatch is decided or undecided. -/
  | pairEvidence (present : Bool)
  /-- PAIR_FAIL (R346): A received PAIR_FAIL makes the partner single leader and releases held completions. -/
  | pairFail (cause : BitVec 8)
  /-- CPL_SEEN (R343): The follower writes held completions up to the seen seq. -/
  | cplSeen (fn : BitVec 6) (ring : BitVec 16) (seq : BitVec 32)
  /-- MIRROR (R350): A MIRROR write lands whole at its Coachhouse address. -/
  | mirror (addr : BitVec 41) (lines : List (Line))
  /-- MIRROR_SEND (R350): The survivor sends range or dirty granules as MIRROR while link capacity allows. -/
  | mirrorSend (port : BitVec 7)
  /-- PAIR_LINK_LOST (R349): No pair port ACTIVE for 1 ms ends the pair. -/
  | pairLinkLost
  /-- TURN_ON (R371): Input at 44 V for 100 ms brings the module from Off to Standby. -/
  | turnOn (inputMv : Nat)
  /-- BROWN_OUT (R381): Input below 40 V stops clocks and rails and starts a cold reset. -/
  | brownOut (inputMv : Nat)
  /-- OVERVOLTAGE (R381): Input above its limit is handled as a brown-out. -/
  | overvoltage (inputMv : Nat)
  /-- INPUT_RECOVERY (R381): Input back at 44 V for 100 ms returns the module to Standby. -/
  | inputRecovery (inputMv : Nat)
  /-- INPUT_LOW (R380): Input between 40 and 42 V for 1 ms logs a power event. -/
  | inputLow (inputMv : Nat)
  /-- STANDBY (R380): Writing PWR_CTRL.standby brings the module down to Standby. -/
  | standby (via : Via)
  /-- THERMAL_SAMPLE (R362): Each 1 s average the thermal level is judged and entered or left. -/
  | thermalSample (t : ThermalIn)
  /-- CONTACT_IMBALANCE (R359): Unequal contact sharing logs a power event. -/
  | contactImbalance (part : Part) (currents : List Nat)
  /-- CONTACT_GROUP_OPEN (R359): An open contact group takes its part out of service. -/
  | contactGroupOpen (part : Part)
  /-- VOTE_WINDOW_END (R391): At the end of each 1 ms window the three voters are judged. -/
  | voteWindowEnd (xaFo : Int) (xbFo : Int)
  /-- REFERENCE_MOVE_COMPLETE (R391): The root PLL finishes slewing to the new reference. -/
  | referenceMoveComplete
  /-- REFERENCE_LOSS (R392): A reference without edges for 1 µs is lost and holdover may begin. -/
  | referenceLoss (ref : BitVec 2)
  /-- CRYSTAL_RETURN (R394): A crystal agreeing for 1 s returns as a voter at the next release. -/
  | crystalReturn (ref : BitVec 2)
  /-- MILESTONE_BEACON (R397): Every 65,536 ns each die compares its Milestone copy with the master. -/
  | milestoneBeacon (errs : List (Nat × Int))
  /-- DIE_PLL_LOCK_LOSS (R397): A die PLL losing lock is a die clock fault. -/
  | diePllLockLoss (die : BitVec 6)
  /-- ROOT_PLL_LOCK_LOSS (R401): The root PLL losing lock is a clock failure. -/
  | rootPllLockLoss
  /-- POWER_ON (R401): The standby domain gains power: cold reset. -/
  | powerOn
  /-- RESET_N_SHORT (R401): RESET_N released after 1 µs to 4 s: warm reset. -/
  | resetNShort
  /-- RESET_N_LONG (R401): RESET_N low for 4 s: cold reset at the 4 s mark. -/
  | resetNLong
  /-- PERST (R404): PERST# on a host connector resets that port. -/
  | perst (port : Bool)
  /-- OSTLER_WATCHDOG (R403): An unserviced watchdog restarts the Ostler. -/
  | ostlerWatchdog
  /-- OSTLER_RETURN (R403): The restarted Ostler writes held events to the log. -/
  | ostlerReturn
  /-- SEQUENCER_LOCK_UP (R401): A failed sequencer self-check resets its die once the job has stopped. -/
  | sequencerLockUp (c : BitVec 16)
  /-- HIF_PROCESSOR_LOCK_UP (R404): A host-interface processor watchdog resets the port and restarts the processor. -/
  | hifProcessorLockUp (port : Bool)
  /-- WARM_RESET (R405): RST_CTRL op 1 performs a warm reset. -/
  | warmReset (via : Via) (key : BitVec 8)
  /-- COLD_RESET (R405): RST_CTRL op 2 performs a cold reset. -/
  | coldReset (via : Via) (key : BitVec 8)
  /-- RECOVERY_EXIT (R411): RST_CTRL op 3 leaves Recovery mode with a cold reset. -/
  | recoveryExit (via : Via) (key : BitVec 8)
  /-- BLOCK_RESET_REQUEST (R407): RST_BLOCK_CMD start requests a block reset of masked dies. -/
  | blockResetRequest (via : Via) (value : BitVec 32)
  /-- BLOCK_RESET_COMPLETE (R408): The re-run steps finish and dies rejoin or stay excluded. -/
  | blockResetComplete (env : StepEnv)
  /-- STANDBY_READY (R415): Step 0 is reached by itself after a cold reset. -/
  | standbyReady
  /-- FUSE_LOAD (R419): Bring-up step 1: raise rails and load fuse shadows. -/
  | fuseLoad (via : Via) (env : StepEnv)
  /-- CLOCK_START (R395): Bring-up step 2: start crystals, select a reference, start the Milestone. -/
  | clockStart (via : Via) (env : StepEnv)
  /-- DIE_RELEASE (R419): Bring-up step 3: release dies, read die and module straps. -/
  | dieRelease (via : Via) (env : StepEnv)
  /-- INTERCONNECT_CHECK (R436): Bring-up step 4: test die-edge wires and assign spares. -/
  | interconnectCheck (via : Via) (env : StepEnv)
  /-- DIE_TO_DIE_TRAIN (R139): Bring-up step 5: train crossings to 12 beats. -/
  | dieToDieTrain (via : Via) (env : StepEnv)
  /-- COACHHOUSE_DISCOVER (R234): Bring-up step 6: attach stacks and build the map. -/
  | coachhouseDiscover (via : Via) (env : StepEnv)
  /-- FIRMWARE_BROADCAST (R426): Bring-up step 7: choose a valid bank and flood it to dies. -/
  | firmwareBroadcast (via : Via) (env : StepEnv)
  /-- FABRIC_CHECK (R419): Bring-up step 8: check the fabric, run quick BIST and open round 0. -/
  | fabricCheck (via : Via) (env : StepEnv)
  /-- LANTERN_TRAIN (R315): Bring-up step 9: start every enabled port. -/
  | lanternTrain (via : Via) (env : StepEnv)
  /-- LICENCE_APPLY (R430): Bring-up step 10: check licence slots and fix the enabled set. -/
  | licenceApply (via : Via) (env : StepEnv)
  /-- READY (R419): Bring-up step 11: clear the failed-start count and save settings. -/
  | ready (via : Via) (env : StepEnv)
  /-- STEP_COMPLETE (R418): A running bring-up step finishes or fails. -/
  | stepComplete
  /-- STEP_TIME_LIMIT (R417): A step passing its budget fails with code 0xsF. -/
  | stepTimeLimit
  /-- START_DEADLINE (R410): The cold-start deadline passes and the start fails. -/
  | startDeadline
  /-- LICENCE_STORE (R429): LIC_CMD op 1 checks LIC_BUF and writes a slot. -/
  | licenceStore (via : Via) (slot : BitVec 3)
  /-- LICENCE_ERASE (R429): LIC_CMD op 2 erases a licence slot. -/
  | licenceErase (via : Via) (slot : BitVec 3)
  /-- REPAIR_BURN (R447): FUS_CMD op 1 burns a die's soft repairs into field records. -/
  | repairBurn (via : Via) (die : BitVec 6) (token : BitVec 16)
  /-- ADD_SOFT_REPAIR (R446): FUS_CMD op 2 adds the record in FUS_REC as a soft repair. -/
  | addSoftRepair (via : Via) (die : BitVec 6)
  /-- EVENT_DELIVERY (R457): A source delivers an event record to the module controller. -/
  | eventDelivery (src : BitVec 20)
  /-- EVENT_COMMIT (R458): A record 16 µs old is committed to the log in order. -/
  | eventCommit
  /-- EVENT_IRQ_DEFERRED (R463): Deferred event notifications are sent when 10 µs have passed. -/
  | eventIrqDeferred
  /-- COLLECTOR_SEND (R484): Committed records are sent to collectors in event batches. -/
  | collectorSend (coll : BitVec 2) (portsUp : Bool)
  /-- TELEMETRY_INTERVAL (R485): Each interval a telemetry datagram goes to every collector. -/
  | telemetryInterval
  /-- READ_REG (R483): Management command reading BAR0 registers. -/
  | readReg (m : MgmtHdr) (off : BitVec 32) (count : BitVec 16) (view : Bool)
  /-- WRITE_REG (R483): Management command writing a BAR0 register. -/
  | writeReg (m : MgmtHdr) (off : BitVec 32) (value : BitVec 32) (env : StepEnv)
  /-- STEP (R483): Management command running a bring-up step. -/
  | stepCmd (m : MgmtHdr) (n : BitVec 8) (env : StepEnv)
  /-- RESET (R483): Management command requesting a reset. -/
  | resetCmd (m : MgmtHdr) (op : BitVec 8)
  /-- BLOCK_RESET (R483): Management command requesting a block reset. -/
  | blockReset (m : MgmtHdr) (mask : BitVec 64) (token : BitVec 16)
  /-- DRAIN_SLOT (R483): Management command killing a slot's job as a drain. -/
  | drainSlot (m : MgmtHdr) (slot : BitVec 8)
  /-- DRAIN_MODULE (R475): Management command draining and flagging the module. -/
  | drainModule (m : MgmtHdr)
  /-- FW_WRITE (R483): Management command writing data into a firmware bank. -/
  | fwWrite (m : MgmtHdr) (bank : BitVec 8) (off : BitVec 32) (data : List (BitVec 8))
  /-- FW_COMMIT (R425): Management command checking a bank and optionally preferring it. -/
  | fwCommit (m : MgmtHdr) (bank : BitVec 8) (prefer : BitVec 8)
  /-- LICENCE (R483): Management command storing or erasing a licence. -/
  | licence (m : MgmtHdr) (op : BitVec 8) (slot : BitVec 8) (record : List (BitVec 8))
  /-- REPAIR_ADD (R483): Management command adding a soft repair. -/
  | repairAdd (m : MgmtHdr) (die : BitVec 6) (record : BitVec 64)
  /-- KEY_SET (R482): Management command setting or erasing a key slot. -/
  | keySet (m : MgmtHdr) (slot : BitVec 8) (rights : BitVec 8) (key : BitVec 256)
  /-- LOG_READ (R483): Management command returning event or flash log records. -/
  | logRead (m : MgmtHdr) (log : BitVec 8) (first : BitVec 32) (count : BitVec 8)
  /-- COLLECTORS (R483): Management command setting collectors and telemetry interval. -/
  | collectors (m : MgmtHdr) (entries : List (BitVec 32 × BitVec 16 × BitVec 32)) (interval : BitVec 16)
  /-- NET_SET (R487): MCTP command setting a static address or returning to DHCP. -/
  | netSet (mport : Bool) (addr : BitVec 32) (mask : BitVec 32) (gateway : BitVec 32)
  /-- SET_ENDPOINT_ID (R486): The baseboard controller assigns the MCTP endpoint ID. -/
  | setEndpointId (eid : BitVec 8)
  /-- PLDM_FIRMWARE_UPDATE (R486): PLDM firmware update writes and commits banks. -/
  | pldmFirmwareUpdate (bank : Bool) (off : BitVec 32) (data : List (BitVec 8)) (commit : Bool)
  /-- BYPASS (R496): JTAG bypass instruction. -/
  | bypass
  /-- IDCODE (R496): JTAG instruction returning the ID code. -/
  | idcode
  /-- SAMPLE_PRELOAD (R496): JTAG boundary sample and preload. -/
  | samplePreload
  /-- AUTH_CHALLENGE (R496): JTAG instruction returning a fresh nonce, serial and ceiling. -/
  | authChallenge (nonce : BitVec 256)
  /-- AUTH_RESPONSE (R497): JTAG signed response granting a debug level. -/
  | authResponse (level : BitVec 8) (slot : BitVec 8) (key : BitVec 256) (sig : BitVec 512)
  /-- AUTH_STATUS (R496): JTAG instruction returning the granted level. -/
  | authStatus
  /-- MEM (R498): JTAG BAR0 read or write at the granted level. -/
  | mem (off : BitVec 24) (write : Bool) (view : Bool) (data : BitVec 32) (env : StepEnv)
  /-- CLEAR_FLAG (R498): JTAG instruction clearing the drain flag and releasing FAULT_N. -/
  | clearFlag
  /-- DEBUG_SESSION_CLOSE (R497): TRST_N low, Test-Logic-Reset or 10 minutes without TCK ends the session. -/
  | debugSessionClose
  /-- MANIFEST_ARM (R490): Writing MAN_CTRL.arm makes a Manifest pending. -/
  | manifestArm (via : Via)
  /-- MANIFEST_CANCEL (R490): Writing cancel drops a pending Manifest. -/
  | manifestCancel (via : Via)
  /-- MANIFEST_LATCH (R489): Each unit latches its counters when its copy reaches T. -/
  | manifestLatch
  /-- WAYBILL_ARM (R494): Writing WAY_CTRL.arm arms the recorder or is refused. -/
  | waybillArm (via : Via)
  /-- WAYBILL_STOP (R494): Writing stop ends a capture with no copy. -/
  | waybillStop (via : Via)
  /-- WAYBILL_FORCE (R493): Writing force makes the next committed entry the trigger. -/
  | waybillForce (via : Via)
  /-- WAYBILL_ENTRY_COMMIT (R492): A probe entry is committed 16 µs after its ms and stored or judged as trigger. -/
  | waybillEntryCommit
  /-- WAYBILL_COPY_COMPLETE (R494): The capture copy finishes and the recorder re-arms or goes idle. -/
  | waybillCopyComplete
  /-- STANDBY_DOMAIN_POWER_LOSS (R380): The input stays below turn-on, the hold-up energy runs out and the module passes from Standby to Off, clearing PWR_COUNTS. -/
  | standbyDomainPowerLoss
  /-- CLOSE_ACK_TIMEOUT (R332): stream_timeout expires while JOB_UNLOAD waits for a CLOSE_ACK, and the unload proceeds without it. -/
  | closeAckTimeout (slot : BitVec 6)
  /-- JOB_UNLOAD_COMPLETE (R297): The unload finishes clearing clusters and running any suspect-core tests, the slot is freed and JOB_UNLOAD retires. -/
  | jobUnloadComplete (slot : BitVec 6) (tests : List (BitVec 3 × BistLoc))
  /-- SEEK_PAUSE_END (R314): The 1 s pause after a failed SEEK ends and the port enters SEEK again. -/
  | seekPauseEnd (port : BitVec 7)
  /-- PHYRETRAIN_COMPLETE (R236): A stack link's PHYRETRAIN ends, returning the link to ACTIVE or, if the retrain failed, taking the stack out of service. -/
  | phyretrainComplete (stack : BitVec 5) (ok : Bool)
  /-- REPAIR_BURN_COMPLETE (R447): The burn of a die's soft repairs finishes after 2 ms per record, FUS_CMD_STATUS reports the result and the die's reservation ends. -/
  | repairBurnComplete (bad : List (Nat))
  /-- LICENCE_COMMAND_COMPLETE (R432): A licence store or erase in flash finishes, busy clears and done is set with the result. -/
  | licenceCommandComplete
  /-- REGISTER_READ (R12): A host BAR0 read returns a value and, for the lowest word of a wide value, latches the upper words into a shadow. -/
  | registerRead (via : Via) (off : BitVec 24) (size : Nat)
  /-- NUMVFS_WRITE (R249): A write of NumVFs to the SR-IOV capability enables that many virtual functions, or is ignored when it exceeds the fused value. -/
  | numvfsWrite (n : BitVec 16)
  deriving DecidableEq, Repr

end Sys2Proof
end

