-- ==== Sys2Proof/Decode.lean ====
section
/-! DEFINITION. The words of the block: no row of the opcode table gives bits, so no word spells a command; and
the 128-bit instruction words of a cluster's program, whose slots the commands of the slot families are (R86-R103,
R164-R183, R188, R501). -/

namespace Sys2Proof

/-- The command that a word spells by the opcode table's bits. The table gives no row any bits. -/
def decodeTableWord (_nbits _w : Nat) : Option Instr := none

/-- A field of a slot. -/
abbrev slotField {n : Nat} (x : BitVec n) (lo w : Nat) : BitVec w := x.extractLsb' lo w

/-- The command if every reserved bit is 0 (R501). -/
def whenZero (ok : Bool) (c : Instr) : Option Instr := if ok then some c else none

/-- The E slot (R91, R92, R97). -/
def decodeE (i : Issue) (x : BitVec 32) : Option Instr :=
  let emac : EmacOps :=
    { elast := slotField x 4 3, fmtA := slotField x 7 4, fmtB := slotField x 11 4
      srcA := slotField x 15 6, pa := slotField x 21 3, srcB := slotField x 24 6
      hb := x.getLsbD 30, scl := x.getLsbD 31 }
  match (slotField x 0 4).toNat with
  | 0 => whenZero (slotField x 4 28 == 0#28) (.enop i)
  | 1 => some (.emac i emac)
  | 2 => some (.emacc i emac)
  | 3 => whenZero (slotField x 24 8 == 0#8) (.eclr i (slotField x 4 8) (slotField x 12 2) (slotField x 14 10))
  | 4 => some (.erd i (slotField x 4 3) (slotField x 7 5) (slotField x 12 20))
  | 5 => whenZero (slotField x 22 10 == 0#10)
      (.eslice i (slotField x 4 3) (slotField x 7 3) (slotField x 10 6) (slotField x 16 6))
  | _ => none

/-- The V slot (R98, R164-R183). -/
def decodeV (i : Issue) (x : BitVec 32) : Option Instr :=
  let vd : BitVec 5 := slotField x 6 5
  let va : BitVec 6 := slotField x 11 6
  let vb : BitVec 6 := slotField x 17 6
  let fn : BitVec 9 := slotField x 23 9
  let o : VOps := { vd := vd, va := va, vb := vb }
  let d0 := vd == 0#5
  let a0 := va == 0#6
  let b0 := vb == 0#6
  let f0 := fn == 0#9
  let above (k : Nat) : Bool := fn >>> k == 0#9
  match (slotField x 0 6).toNat with
  | 0x00 => whenZero (d0 && a0 && b0 && f0) (.vnop i)
  | 0x01 => whenZero f0 (.fadd i o)
  | 0x02 => whenZero f0 (.fsub i o)
  | 0x03 => whenZero f0 (.fmul i o)
  | 0x04 => whenZero f0 (.fma i o)
  | 0x05 => whenZero f0 (.fmin i o)
  | 0x06 => whenZero f0 (.fmax i o)
  | 0x07 => whenZero (d0 && above 8) (.fcmp i va vb (slotField fn 0 3) (slotField fn 3 3) (slotField fn 6 2))
  | 0x08 => whenZero (b0 && above 8) (.cvt i vd va (slotField fn 0 4) (slotField fn 4 4))
  | 0x09 => whenZero (b0 && above 3) (.sfu i vd va (slotField fn 0 3))
  | 0x0A => whenZero f0 (.pwt i vd va vb)
  | 0x0B => whenZero f0 (.iadd i o)
  | 0x0C => whenZero f0 (.isub i o)
  | 0x0D => whenZero f0 (.vand i o)
  | 0x0E => whenZero f0 (.vor i o)
  | 0x0F => whenZero f0 (.vxor i o)
  | 0x10 => whenZero (b0 && above 5) (.shl i vd va (slotField fn 0 5))
  | 0x11 => whenZero (b0 && above 5) (.shr i vd va (slotField fn 0 5))
  | 0x12 => whenZero (b0 && f0) (.mov i vd va)
  | 0x13 => whenZero (b0 && above 4) (.bcast i vd va (slotField fn 0 4))
  | 0x14 => whenZero (b0 && above 4) (.lanex i vd va (slotField fn 0 4))
  | 0x15 => whenZero (d0 && b0 && above 1) (.scale i va (fn.getLsbD 0))
  | 0x16 => whenZero (a0 && f0) (.vfroms i vd vb)
  | 0x30 => whenZero (above 7)
      (.xset i o (fn.getLsbD 0) (slotField fn 1 2) (slotField fn 3 2) (slotField fn 5 2))
  | 0x31 => whenZero (a0 && b0 && above 3) (.xwalk i vd (slotField fn 0 3))
  | 0x32 => whenZero (above 4) (.xgath i o (fn.getLsbD 0) (slotField fn 1 3))
  | 0x33 => whenZero (!fn.getLsbD 0 && above 4) (.x24 i o (slotField fn 1 3))
  | 0x34 => whenZero (b0 && above 6) (.xcslu i vd va (fn.getLsbD 0) (slotField fn 1 4) (fn.getLsbD 5))
  | 0x35 => whenZero (d0 && a0 && above 1) (.hclr i vb (fn.getLsbD 0))
  | 0x36 => whenZero (above 2) (.hacc i o (fn.getLsbD 0) (fn.getLsbD 1))
  | 0x37 => whenZero (a0 && above 1) (.hmerge i vd vb (fn.getLsbD 0))
  | 0x38 => whenZero (a0 && b0 && above 1) (.hstat i vd (fn.getLsbD 0))
  | _ => none

/-- The M slot (R102). -/
def decodeM (i : Issue) (x : BitVec 28) : Option Instr :=
  let mem : MemOps :=
    { reg := slotField x 4 5, cntM1 := slotField x 9 2, sb := slotField x 11 5
      off := slotField x 16 10, inc := x.getLsbD 26 }
  let smem : SMemOps :=
    { reg := slotField x 4 5, lane := slotField x 9 4, sb := slotField x 13 5, off := slotField x 18 10 }
  let lmem : LMemOps :=
    { acc := slotField x 4 3, sb := slotField x 7 5, off := slotField x 12 10, inc := x.getLsbD 22 }
  match (slotField x 0 4).toNat with
  | 0 => whenZero (slotField x 4 24 == 0#24) (.mnop i)
  | 1 => whenZero (!x.getLsbD 27) (.vld i mem)
  | 2 => whenZero (!x.getLsbD 27) (.vst i mem)
  | 3 => some (.sld i smem)
  | 4 => some (.sst i smem)
  | 5 => whenZero (slotField x 23 5 == 0#5) (.lsave i lmem)
  | 6 => whenZero (slotField x 23 5 == 0#5) (.lrest i lmem)
  | 7 => whenZero (slotField x 24 4 == 0#4)
      (.sout i (slotField x 4 4) (slotField x 8 5) (slotField x 13 10) (x.getLsbD 23))
  | 8 => whenZero (slotField x 22 6 == 0#6)
      (.sin i (slotField x 4 2) (slotField x 6 5) (slotField x 11 10) (x.getLsbD 21))
  | _ => none

/-- The Q slot (R103, R107, R188). -/
def decodeQ (i : Issue) (x : BitVec 28) : Option Instr :=
  let above (k : Nat) : Bool := x >>> k == 0#28
  match (slotField x 0 5).toNat with
  | 0x00 => whenZero (above 5) (.qnop i)
  | 0x01 => whenZero (above 26) (.salu i (slotField x 5 4) (slotField x 9 5) (slotField x 14 6) (slotField x 20 6))
  | 0x02 => some (.salui i (slotField x 5 4) (slotField x 9 5) (slotField x 14 6) (slotField x 20 8))
  | 0x03 => some (.sli i (slotField x 5 5) (slotField x 10 2) (slotField x 12 16))
  | 0x04 => whenZero (above 23) (.pcmp i (slotField x 5 3) (slotField x 8 3) (slotField x 11 6) (slotField x 17 6))
  | 0x05 => whenZero (above 16) (.plog i (slotField x 5 3) (slotField x 8 2) (slotField x 10 3) (slotField x 13 3))
  | 0x06 => whenZero (above 14) (.pfroms i (slotField x 5 3) (slotField x 8 6))
  | 0x07 => whenZero (above 13) (.ptos i (slotField x 5 5) (slotField x 10 3))
  | 0x08 => some (.rep i (slotField x 5 12) (slotField x 17 8) (slotField x 25 3))
  | 0x09 => whenZero (above 11) (.ssend i (slotField x 5 6))
  | 0x0A => whenZero (above 11) (.csend i (slotField x 5 6))
  | 0x0B => whenZero (above 14) (.vsend i (slotField x 5 5) (slotField x 10 4))
  | 0x0C => whenZero (above 21) (.csig i (slotField x 5 6) (x.getLsbD 11) (x.getLsbD 12) (slotField x 13 8))
  | 0x0D => whenZero (above 27)
      (.cwait i (slotField x 5 6) (x.getLsbD 11) (slotField x 12 3) (slotField x 15 8) (x.getLsbD 23)
        (slotField x 24 3))
  | 0x0E => whenZero (slotField x 5 6 == 0#6 && above 12) (.ctoll i (x.getLsbD 11))
  | 0x0F => whenZero (above 16) (.cread i (slotField x 5 6) (slotField x 11 5))
  | 0x10 => whenZero (above 5) (.endProg i)
  | _ => none

/-- The four slots of a word, E, V, M and Q, as commands of a cluster. -/
structure WordSlots where
  e : Instr
  v : Instr
  m : Instr
  q : Instr
  deriving DecidableEq, Repr

/-- An instruction word (R86); none where a reserved bit or opcode is not 0 (R501). -/
def decodeWord (cluster : BitVec 16) (w : BitVec 128) : Option WordSlots :=
  let i : Issue :=
    { cluster := cluster, psel := slotField w 0 3, sense := w.getLsbD 3, qp := w.getLsbD 4 }
  if slotField w 5 3 == 0#3 then
    match decodeE i (slotField w 8 32), decodeV i (slotField w 40 32), decodeM i (slotField w 72 28),
        decodeQ i (slotField w 100 28) with
    | some e, some v, some m, some q => some { e := e, v := v, m := m, q := q }
    | _, _, _, _ => none
  else none

/-! ### The encoder: the fields of each slot from the highest bit down -/

/-- A flag as a bit. -/
abbrev flagBit (b : Bool) : BitVec 1 := BitVec.ofBool b

/-- The E slot of a command, with the header it issues under (R91, R92, R97). -/
def encodeE (c : Instr) : Option (Issue × BitVec 32) :=
  let emac (o : EmacOps) (op : BitVec 4) : BitVec 32 :=
    flagBit o.scl ++ flagBit o.hb ++ o.srcB ++ o.pa ++ o.srcA ++ o.fmtB ++ o.fmtA ++ o.elast ++ op
  match c with
  | .enop i => some (i, 0)
  | .emac i o => some (i, emac o 1)
  | .emacc i o => some (i, emac o 2)
  | .eclr i emask mode w => some (i, 0#8 ++ w ++ mode ++ emask ++ 3#4)
  | .erd i acc vd rctl => some (i, rctl ++ vd ++ acc ++ 4#4)
  | .eslice i elast sstep a b => some (i, 0#10 ++ b ++ a ++ sstep ++ elast ++ 5#4)
  | _ => none

/-- The V slot of a command (R98, R164-R183). -/
def encodeV (c : Instr) : Option (Issue × BitVec 32) :=
  let pack (op : BitVec 6) (vd : BitVec 5) (va vb : BitVec 6) (fn : BitVec 9) : BitVec 32 := fn ++ vb ++ va ++ vd ++ op
  let three (o : VOps) (op : BitVec 6) : BitVec 32 := pack op o.vd o.va o.vb 0
  match c with
  | .vnop i => some (i, 0)
  | .fadd i o => some (i, three o 0x01)
  | .fsub i o => some (i, three o 0x02)
  | .fmul i o => some (i, three o 0x03)
  | .fma i o => some (i, three o 0x04)
  | .fmin i o => some (i, three o 0x05)
  | .fmax i o => some (i, three o 0x06)
  | .fcmp i va vb pd cond red => some (i, pack 0x07 0 va vb (0#1 ++ red ++ cond ++ pd))
  | .cvt i vd va idx fmt => some (i, pack 0x08 vd va 0 (0#1 ++ fmt ++ idx))
  | .sfu i vd va fn => some (i, pack 0x09 vd va 0 (0#6 ++ fn))
  | .pwt i vd va vb => some (i, pack 0x0A vd va vb 0)
  | .iadd i o => some (i, three o 0x0B)
  | .isub i o => some (i, three o 0x0C)
  | .vand i o => some (i, three o 0x0D)
  | .vor i o => some (i, three o 0x0E)
  | .vxor i o => some (i, three o 0x0F)
  | .shl i vd va n => some (i, pack 0x10 vd va 0 (0#4 ++ n))
  | .shr i vd va n => some (i, pack 0x11 vd va 0 (0#4 ++ n))
  | .mov i vd va => some (i, pack 0x12 vd va 0 0)
  | .bcast i vd va e => some (i, pack 0x13 vd va 0 (0#5 ++ e))
  | .lanex i vd va lane => some (i, pack 0x14 vd va 0 (0#5 ++ lane))
  | .scale i va t => some (i, pack 0x15 0 va 0 (0#8 ++ flagBit t))
  | .vfroms i vd vb => some (i, pack 0x16 vd 0 vb 0)
  | .xset i o dense ha hb range => some (i, pack 0x30 o.vd o.va o.vb (0#2 ++ range ++ hb ++ ha ++ flagBit dense))
  | .xwalk i vd pd => some (i, pack 0x31 vd 0 0 (0#6 ++ pd))
  | .xgath i o rankB w => some (i, pack 0x32 o.vd o.va o.vb (0#5 ++ w ++ flagBit rankB))
  | .x24 i o w => some (i, pack 0x33 o.vd o.va o.vb (0#5 ++ w ++ 0#1))
  | .xcslu i vd va values fmt clear => some (i, pack 0x34 vd va 0 (0#3 ++ flagBit clear ++ fmt ++ flagBit values))
  | .hclr i vb t => some (i, pack 0x35 0 0 vb (0#8 ++ flagBit t))
  | .hacc i o t mul => some (i, pack 0x36 o.vd o.va o.vb (0#7 ++ flagBit mul ++ flagBit t))
  | .hmerge i vd vb t => some (i, pack 0x37 vd 0 vb (0#8 ++ flagBit t))
  | .hstat i vd t => some (i, pack 0x38 vd 0 0 (0#8 ++ flagBit t))
  | _ => none

/-- The M slot of a command (R102). -/
def encodeM (c : Instr) : Option (Issue × BitVec 28) :=
  let mem (o : MemOps) (op : BitVec 4) : BitVec 28 := 0#1 ++ flagBit o.inc ++ o.off ++ o.sb ++ o.cntM1 ++ o.reg ++ op
  let smem (o : SMemOps) (op : BitVec 4) : BitVec 28 := o.off ++ o.sb ++ o.lane ++ o.reg ++ op
  let lmem (o : LMemOps) (op : BitVec 4) : BitVec 28 := 0#5 ++ flagBit o.inc ++ o.off ++ o.sb ++ o.acc ++ op
  match c with
  | .mnop i => some (i, 0)
  | .vld i o => some (i, mem o 1)
  | .vst i o => some (i, mem o 2)
  | .sld i o => some (i, smem o 3)
  | .sst i o => some (i, smem o 4)
  | .lsave i o => some (i, lmem o 5)
  | .lrest i o => some (i, lmem o 6)
  | .sout i lane sb off inc => some (i, 0#4 ++ flagBit inc ++ off ++ sb ++ lane ++ 7#4)
  | .sin i q sb off inc => some (i, 0#6 ++ flagBit inc ++ off ++ sb ++ q ++ 8#4)
  | _ => none

/-- The Q slot of a command (R103, R107, R188). -/
def encodeQ (c : Instr) : Option (Issue × BitVec 28) :=
  match c with
  | .qnop i => some (i, 0)
  | .salu i fn sd sa sb => some (i, 0#2 ++ sb ++ sa ++ sd ++ fn ++ 0x01#5)
  | .salui i fn sd sa imm => some (i, imm ++ sa ++ sd ++ fn ++ 0x02#5)
  | .sli i sd hw imm => some (i, imm ++ hw ++ sd ++ 0x03#5)
  | .pcmp i pd cond sa sb => some (i, 0#5 ++ sb ++ sa ++ cond ++ pd ++ 0x04#5)
  | .plog i pd fn pa pb => some (i, 0#12 ++ pb ++ pa ++ fn ++ pd ++ 0x05#5)
  | .pfroms i pd sa => some (i, 0#14 ++ sa ++ pd ++ 0x06#5)
  | .ptos i sd pa => some (i, 0#15 ++ pa ++ sd ++ 0x07#5)
  | .rep i count lenM1 lp => some (i, lp ++ lenM1 ++ count ++ 0x08#5)
  | .ssend i sa => some (i, 0#17 ++ sa ++ 0x09#5)
  | .csend i sa => some (i, 0#17 ++ sa ++ 0x0A#5)
  | .vsend i vs lane => some (i, 0#14 ++ lane ++ vs ++ 0x0B#5)
  | .csig i cpl rem sub amount => some (i, 0#7 ++ amount ++ flagBit sub ++ flagBit rem ++ cpl ++ 0x0C#5)
  | .cwait i cpl rem cond val take path =>
    some (i, 0#1 ++ path ++ flagBit take ++ val ++ cond ++ flagBit rem ++ cpl ++ 0x0D#5)
  | .ctoll i w => some (i, 0#16 ++ flagBit w ++ 0#6 ++ 0x0E#5)
  | .cread i cpl sd => some (i, 0#12 ++ sd ++ cpl ++ 0x0F#5)
  | .endProg i => some (i, 0x10#28)
  | _ => none

/-- The instruction word of four slot commands (R86); none where one is not a command of its slot, or where they do not
issue under one header on the cluster. -/
def encodeWord (cluster : BitVec 16) (o : WordSlots) : Option (BitVec 128) :=
  match encodeE o.e, encodeV o.v, encodeM o.m, encodeQ o.q with
  | some (i, e), some (j, v), some (k, m), some (l, q) =>
    if i = j ∧ i = k ∧ i = l ∧ i.cluster = cluster then
      some (q ++ m ++ v ++ e ++ 0#3 ++ flagBit i.qp ++ flagBit i.sense ++ i.psel)
    else none
  | _, _, _, _ => none

end Sys2Proof
end

