-- ==== Sys2Proof/Machine/State.lean ====
section
/-! DEFINITION. The state of the module as plain data, the reasons to stop, and the state after reset. -/

namespace Sys2Proof.Machine

/-- Byte memory: address and byte pairs in canonical form (AMap.wf with default 0). -/
abbrev Mem := List Host.Cell

/-- Reasons for a fault of the model. The module itself has none: its faults are events (R453). -/
inductive Fault where
  /-- Raised by no command: every fault of the spec is an event and a stopped job. Safe. -/
  | none
  deriving DecidableEq, Repr

/-- Reasons for a refusal. -/
inductive Refusal where
  /-- The command has no meaning yet. Safe. -/
  | notModelled (mnemonic : String)
  /-- Raised where an operand holds a value the spec reserves for the operation or forbids on the
  cluster's kind: admission refuses every image that holds it (R35, R76, R501), so the slot never
  issues. Safe. -/
  | reservedOperand (mnemonic : String)
  deriving DecidableEq, Repr

/-! ### Clusters (02, 03, 05, 06) -/

/-- An exact value: NaN, an infinity, or (-1)^neg × m × 2^e; a zero keeps its sign (R44, R50). -/
inductive Exact where
  | nan
  | inf (neg : Bool)
  | fin (neg : Bool) (m : Nat) (e : Int)
  deriving DecidableEq, Repr

/-- One Ledger (R40). `expo` is its 10-bit E; `carry` counts, in steps of 1,024, how far a slice mode exponent sum
stands outside E's range, since R70 wants such sums exact (log entry 121); `group` holds the tree-mode products not yet
summed (R49). -/
structure Ledger where
  l : BitVec 128 := 0
  expo : BitVec 10 := 0
  carry : Int := 0
  residue : BitVec 8 := 0
  status : BitVec 16 := 0
  group : List Exact := []
  deriving DecidableEq, Repr

/-- An entry of a hash table (R173); `frozen` after its sum left the range (R176). -/
structure HEntry where
  valid : Bool := false
  key : BitVec 40 := 0
  value : BitVec 128 := 0
  residue : BitVec 8 := 0
  frozen : Bool := false
  deriving DecidableEq, Repr

/-- A hash accumulator (R173); `underRecs` and `chsRecs` count the spill records standing in the
under-SRAM area and in the Coachhouse segment (R178), `spilledFrozen` lists the positions of those whose
sum had left the range (R176, R182; the record has no bit for it, log entry 16). -/
structure HashTable where
  entries : AMap HEntry := []
  status : BitVec 16 := 0
  valid : BitVec 32 := 0
  spills : BitVec 32 := 0
  probe : BitVec 32 := 0
  desc : BitVec 64 := 0
  underRecs : Nat := 0
  chsRecs : Nat := 0
  spilledFrozen : List Nat := []
  deriving DecidableEq, Repr

/-- One lane of a cluster (R80, R165, R169, R173). `sramErr` is the number of bit errors standing in
the 64-bit word with that index (R113). -/
structure Lane where
  v : AMap (BitVec 512) := []
  led : AMap Ledger := []
  sa : BitVec 64 := 0
  sb : BitVec 256 := 0
  sram : Mem := []
  sramErr : AMap Nat := []
  walkA : BitVec 64 := 0
  walkB : BitVec 64 := 0
  walkM : BitVec 64 := 0
  lastKey : BitVec 40 := 0
  orderErr : BitVec 32 := 0
  t0 : HashTable := {}
  t1 : HashTable := {}
  deriving DecidableEq, Repr

/-- A network entry (R119, R120): payload, zero-extended to 512 bits, and its poison flag. -/
structure Entry where
  data : BitVec 512
  poison : Bool
  deriving DecidableEq, Repr

/-- A queue (R119, R133). -/
structure Queue where
  entries : List Entry := []
  arrivals : BitVec 32 := 0
  consumed : BitVec 32 := 0
  deriving DecidableEq, Repr

/-- An entry of an injection buffer with the job beats until it can be taken (R129, R130). -/
structure InjEntry where
  entry : Entry
  wait : Nat
  deriving DecidableEq, Repr

/-- An active repeat block (R107). -/
structure RepFrame where
  first : Nat
  last : Nat
  count : Nat
  idx : Nat
  lp : BitVec 3
  deriving DecidableEq, Repr

/-- Why a wait of the Q slot holds issue (R81, R190, R194, R205). `left` is the beats until every result of an
earlier instruction has landed (R85). -/
inductive Hold where
  | none
  /-- a local wait -/
  | wait (cpl : BitVec 6) (cond : BitVec 3) (val : BitVec 8) (take : Bool) (mask : BitVec 16) (left : Nat)
  /-- a remote wait pending -/
  | remote (cpl : BitVec 6) (left : Nat)
  /-- CTOLL with w = 1 until the release of the round -/
  | toll (round : Nat) (left : Nat)
  /-- a remote wait or a CTOLL whose wake has come, until its drain is complete -/
  | woken (left : Nat)
  /-- satisfied: the next instruction issues when no beat is left -/
  | resume (beats : Nat)
  deriving DecidableEq, Repr

/-- Why the pipeline of an S cluster stands still, beside any wait (R180, R181). -/
inductive Stall where
  | none
  /-- a spill: the beats its under-SRAM writes still take, and whether Coachhouse records still move -/
  | spill (beats : Nat) (chs : Bool)
  /-- a merge of a table with the destination register, the HMERGE's word address and executed beat -/
  | merge (table : Bool) (vd : BitVec 5) (owin : BitVec 8) (rctl : BitVec 20) (mask : BitVec 16) (pc : Nat)
      (beat : BitVec 64)
  deriving DecidableEq, Repr

/-- Where the records of one vector entry of a hash unit stand in its spill window (R178, R179, R228): the cluster, the
window offset, and the number of 32-byte records, one after another from there. -/
structure SpillAt where
  cluster : Nat
  off : Nat
  n : Nat
  deriving DecidableEq, Repr

/-- An entry that a hash unit has yet to inject: the window, the records, where they go (R228). -/
structure SpillOut where
  win : Nat
  data : BitVec 512
  at_ : SpillAt
  deriving DecidableEq, Repr

/-- What lands in the pipeline's last beat (R82). -/
inductive Target where
  | vreg (lane : Nat) (r : Nat) (v : BitVec 512)
  | sreg (r : Nat) (mask : BitVec 64) (v : BitVec 64)
  | pred (r : Nat) (mask : BitVec 16) (v : BitVec 16)
  | scaleA (lane : Nat) (v : BitVec 64)
  | scaleB (lane : Nat) (v : BitVec 256)
  | mem (lane : Nat) (addr : Nat) (bytes : List Byte)
  | ledgers (lane : Nat) (acc : Nat) (ls : List Ledger)
  /-- residue_fault of the named Ledgers of a register (R64) -/
  | ledgerFault (lane : Nat) (acc : Nat) (which : List Nat)
  | walk (lane : Nat) (a b m : BitVec 64)
  | table (lane : Nat) (which : Bool) (t : HashTable)
  /-- a spill begins (R180): the beats of its under-SRAM writes, whether Coachhouse records move, what the hash unit has
  to inject -/
  | spill (beats : Nat) (chs : Bool) (outs : List SpillOut)
  deriving DecidableEq, Repr

/-- A result in flight: it lands at the end of the beat in which `beats` reaches 0. -/
structure Landing where
  beats : Nat
  target : Target
  deriving DecidableEq, Repr

/-- A remote-waiter slot (R186). -/
structure Waiter where
  valid : Bool := false
  path : BitVec 3 := 0
  deriving DecidableEq, Repr

/-- A coupling (R186, R187). -/
structure Coupling where
  count : BitVec 32 := 0
  thresh : BitVec 32 := 0
  lanes : BitVec 16 := 0
  seqWaiter : Bool := false
  remote : AMap Waiter := []
  lastSrc : BitVec 20 := 0
  lastMs : BitVec 24 := 0
  lastValid : Bool := false
  total : BitVec 32 := 0
  deriving DecidableEq, Repr

/-- A mark (R205): its round, the snapshot of each object and of each queue's consumption counter. -/
structure Mark where
  round : Nat
  vals : List (Nat × BitVec 32)
  qms : List (Nat × BitVec 32)
  deriving DecidableEq, Repr

/-- The local CSIG of a beat (R188, R189). -/
structure LocalSig where
  cpl : BitVec 6
  sub : Bool
  amount : BitVec 8
  deriving DecidableEq, Repr

/-- The Wheelwright's place in a cluster (R469-R473): the core under test, its next segment, the segment
at which the slice began, the segments left of the slice, the runs and failures of a segment that is run again, whether the core has passed, whether
the cluster has tested its last core since the last counted rotation (R474), and the jobs (by tag, latest last) that each core has served since it last passed. -/
structure WhlState where
  core : Option (BitVec 5) := none
  seg : Nat := 0
  start : Nat := 0
  sliceLeft : Nat := 0
  reruns : Nat := 0
  fails : Nat := 0
  passed : Bool := false
  last : Nat := 17
  turned : Bool := false
  served : List (Nat × BitVec 16) := []
  deriving DecidableEq, Repr

/-- A cluster (R80). `coreMap` gives the physical core of each logical lane (R78). `issued`, `nextRep`,
`ending`, `consumed` and `sig` are the record of the current beat; `consumed` holds the codes of the queues
whose heads the instruction consumes, plus 16 where an acting slot consumed poison. `drain` is the beats that
the results of the instructions before the current beat still need. `roundersBad` lists the readout rounders
that disagree with their duplicates, by physical core, Ledger register and engine lane (R65). `tasted` lists the queues
whose poisoned head a peek consumed (R464). `older` is how many results of `pend`, from its head, are of words before the
last one issued: only these advance while a wait of that word holds (R81, R85). `spillOut` is what the hash unit has yet to
inject, `ended` says that END has issued, `mergeIn` what it has read back through vq3 for the merge in hand (R228). -/
structure Cluster where
  prog : List (BitVec 128) := []
  cvt : List (BitVec 20) := []
  sr : BitVec 32 := 0
  s : AMap (BitVec 64) := []
  p : AMap (BitVec 16) := []
  rep : List RepFrame := []
  execBeat : BitVec 64 := 0
  pc : Nat := 0
  parked : Bool := true
  hold : Hold := .none
  stall : Stall := .none
  lanes : AMap Lane := []
  queues : AMap Queue := []
  inj : AMap (List InjEntry) := []
  links : AMap (Option Entry) := []
  pend : List Landing := []
  drain : Nat := 0
  issued : Bool := false
  nextRep : Option RepFrame := none
  ending : Bool := false
  consumed : List Nat := []
  sig : Option LocalSig := none
  wakeNext : List (BitVec 16) := []
  pulseNext : List (BitVec 2) := []
  wakeQ : List (BitVec 16) := []
  couplings : AMap Coupling := []
  routes : List (BitVec 128) := []
  origins : List (BitVec 20) := []
  corrected : BitVec 32 := 0
  markObjs : List (Nat × BitVec 32) := []
  mark : Option Mark := none
  pendMark : Option Mark := none
  coreMap : List Nat := [0, 1, 2, 3, 4, 5, 6, 7, 8, 9, 10, 11, 12, 13, 14, 15]
  whl : WhlState := {}
  roundersBad : List (Nat × Nat × Nat) := []
  tasted : List Nat := []
  older : Nat := 0
  ended : Bool := false
  spillOut : List SpillOut := []
  mergeIn : List Entry := []
  deriving DecidableEq, Repr

/-! ### Fabric and stream engines (04, 07) -/

/-- An exchange unit with a schedule (R135, R286); `rx` is what arrived from the edge cluster; `lastOut` and
`lastIn` are the job beats of a transit endpoint's last vector entries, `scOut` and `scIn` those of its last scalar or control
entries (R144). -/
structure XUnit where
  used : Bool := false
  transit : Bool := false
  stack : Nat := 0xFF
  words : List (BitVec 128) := []
  rx : AMap (Option Entry) := []
  lastOut : Option Nat := none
  lastIn : Option Nat := none
  scOut : Option Nat := none
  scIn : Option Nat := none
  deriving DecidableEq, Repr

/-- An entry on a crossing (R139): the beats it still takes, where it arrives. -/
structure Flight where
  beats : Nat
  cluster : Nat
  net : Nat
  dir : Nat
  entry : Entry
  deriving DecidableEq, Repr

/-- An entry on its way from a transit endpoint to the named strip (R143): the beats it still takes, the network,
the strip slot, the edge cluster, edge and unit that it came from. -/
structure TransitIn where
  job : BitVec 6
  beats : Nat
  net : Nat
  key : Nat
  entry : Entry
  cluster : Nat
  edge : Nat
  unit : Nat
  deriving DecidableEq, Repr

/-- One cluster as it stood at the end of a job beat, for a capture (R155, R210): the job beat, its route index, the
schedule length, the Milestone. -/
structure Shot where
  c : Cluster
  beat : Nat
  ridx : Nat
  len : Nat
  ms : Nat
  deriving DecidableEq, Repr

/-- The pending fabric-view capture of a die (R155): the cluster, the target beat of an at_beat capture whose
target had not passed when the command arrived, whether it had, and what has been captured. -/
structure FabView where
  cluster : Nat := 0
  target : Option Nat := none
  late : Bool := false
  shot : Option Shot := none
  deriving DecidableEq, Repr

/-- The pending sync-object capture (R210): cluster, coupling, what has been captured. -/
structure DbgView where
  cluster : Nat := 0
  cpl : Nat := 0
  shot : Option Shot := none
  deriving DecidableEq, Repr

/-- A stream record (R221). -/
structure StreamDesc where
  die : Nat := 0
  edge : Nat := 0
  ingress : Bool := false
  net : Nat := 0
  conv : Nat := 0
  slot : Nat := 0
  window : Nat := 0
  depth : Nat := 0
  credits : Nat := 0
  start : Nat := 0
  rowLen : Nat := 0
  passes : Nat := 0
  rows : Nat := 0
  stride : Int := 0
  cplCluster : Nat := 0
  cpl : Nat := 0
  batch : Nat := 0
  deriving DecidableEq, Repr

/-- A stream slot (R220-R229). `dry` says that no entry has been driven since the last underrun. Counts are in entries of the stream. `buf` is the strip buffer. Egress:
`fetched` entries have been asked for, `ready` have reached the buffer in order, `early` holds what came
before its turn, by first entry. Ingress: `written` entries are in lines sent to the stacks, `acked` are
acknowledged with all before them, `spans` holds acknowledged runs that wait for an earlier one. `sig*` is
the pair signature of the open block (R344). `rowBad` says that a header of the row being expanded was poisoned, so
that the rest of the row cannot be told apart into blocks (log entry 124). `spillAt` of a spill slot: the entries that a
hash unit has injected and that have yet to come, or those that it waits for (R228). -/
structure StreamSlot where
  used : Bool := false
  job : BitVec 6 := 0
  desc : StreamDesc := {}
  buf : List Entry := []
  credit : Nat := 0
  fetched : Nat := 0
  ready : Nat := 0
  early : AMap (List Entry) := []
  driven : Nat := 0
  accepted : Nat := 0
  written : Nat := 0
  acked : Nat := 0
  spans : AMap Nat := []
  creditedTo : Nat := 0
  ctl : List (BitVec 16) := []
  rowByte : Nat := 0
  rowBad : Bool := false
  pendingWrite : Bool := false
  done : Bool := false
  stopped : Bool := false
  dry : Bool := true
  sigCrc : BitVec 64 := 0
  sigCount : Nat := 0
  sigBlock : Nat := 0
  spillAt : List SpillAt := []
  deriving DecidableEq, Repr

/-- A transit route (R143): the chain of crossings from a fenced unit to the named strip. -/
structure TransitRoute where
  job : BitVec 6
  unit : Nat
  stack : Nat
  hops : List (Nat × Nat)
  latency : Nat
  deriving DecidableEq, Repr

/-- Who waits for a CMTL transaction: a stream slot by key, with the tag of the job that declared it. -/
inductive Txn where
  | none
  /-- entries first to first + count - 1 of an egress slot; the bytes start at `off` of the data -/
  | egress (job : BitVec 16) (slot : Nat) (first : Nat) (count : Nat) (off : Nat)
  /-- a line that holds the ingress entries from `first` up to `upto` -/
  | ingress (job : BitVec 16) (slot : Nat) (first : Nat) (upto : Nat)
  /-- the read of a partial line before it is written -/
  | partialLine (job : BitVec 16) (slot : Nat) (first : Nat) (upto : Nat)
  deriving DecidableEq, Repr

/-- A CMTL frame (R235). -/
structure Frame where
  kind : Byte
  granule : Bool
  seq : BitVec 12
  ack : BitVec 12
  tag : BitVec 12
  addr : BitVec 36
  poison : BitVec 64
  corrected : BitVec 64
  status : Byte
  data : List (BitVec 512)
  crc : BitVec 32 := 0
  deriving DecidableEq, Repr

/-- One direction of a CMTL link (R236): frames in flight, unacknowledged frames with the times
each was sent, the next sequence number to send and to accept. -/
structure LinkDir where
  wire : List Frame := []
  unacked : List (Frame × Nat) := []
  txSeq : BitVec 12 := 0
  rxNext : BitVec 12 := 0
  deriving DecidableEq, Repr

/-- The training states of a UCIe link that the module uses (R232). -/
inductive LinkTrain where
  | reset | sbinit | mbinit | mbtrain | linkinit | active | phyretrain | trainerror
  deriving DecidableEq, Repr

/-- A DRAM stack's link and controller (R232-R241): the parameter block as read, the temperature at which the link was
trained or last centred, the answers that wait for room on the link. -/
structure Stack where
  link : LinkTrain := .reset
  params : List Byte := []
  toStack : LinkDir := {}
  toCtl : LinkDir := {}
  answers : List Frame := []
  txns : AMap Txn := []
  nextTag : BitVec 12 := 0
  retrainTimes : List Nat := []
  releases : Nat := 0
  centreTemp : Nat := 0
  scrubPos : Nat := 0
  ceLogged : Bool := false
  afterReplay : Bool := false
  deriving DecidableEq, Repr

/-! ### Host interface and jobs (08, 09) -/

/-- A function's state beside its registers (R249, R252, R256-R258). -/
structure FnState where
  seenGen : BitVec 64 := 0
  errCount : BitVec 32 := 0
  slot : Option (BitVec 6) := none
  groupFirst : Nat := 0
  groupCount : Nat := 0
  chsBase : Nat := 0
  chsGranules : Nat := 0
  deriving DecidableEq, Repr

/-- How far a fetched descriptor has come (R261). -/
inductive DescPhase where
  | fetched
  | started
  | done (status : Byte) (jobTag : BitVec 16) (detail : BitVec 32)
  deriving DecidableEq, Repr

/-- A fetched descriptor (R260): its index, its 64 bytes as one number, its phase. -/
structure Desc where
  idx : Nat
  raw : BitVec 512
  phase : DescPhase
  deriving DecidableEq, Repr

/-- A descriptor by ring and index. -/
structure DescRef where
  ring : BitVec 16
  idx : Nat
  deriving DecidableEq, Repr

/-- A ring (R258-R263, R269). `retired` counts completions written or held; `bytes` of a windowed
DMA that runs are found again from the descriptor. -/
structure Ring where
  used : Bool := false
  fn : BitVec 6 := 0
  loc : BitVec 16 := 0
  port : Bool := false
  vector : BitVec 8 := 0xFF
  coalCount : BitVec 8 := 1
  coalTime : BitVec 16 := 0
  descBase : BitVec 64 := 0
  cplBase : BitVec 64 := 0
  log2 : Nat := 4
  ci : Nat := 0
  piSeen : Nat := 0
  retired : Nat := 0
  descs : List Desc := []
  stopped : Bool := false
  destroyRef : Option DescRef := none
  unsignalled : Nat := 0
  firstUnsig : Nat := 0
  deriving DecidableEq, Repr

/-- A bound window (R217, R288). -/
structure Window where
  rights : Byte := 0
  near : Bool := false
  die : Nat := 0
  granules : Nat := 0
  base : Nat := 0
  deriving DecidableEq, Repr

/-- The states of a slot (R292); `free` holds no job. -/
inductive JobState where
  | free | loading | loaded | running | stopping | ended | stopped | faulted | unloading
  deriving DecidableEq, Repr

/-- A job slot (R273-R297, R374-R378). `faultDue` says that a fault was detected in the current beat and
stops the job at its end (R296). `k` is the withheld count of the current window of 64 cycles, `winPos` the
cycle in it, `withheld` the beats Drag withheld, `skipped` those and the beats of swaps (R207, R375). `liveRef` names the
JOB_LOAD of a tag that is not yet current because that descriptor is done but has not retired; `dead` lists, with the
JOB_UNLOADs that have not retired, the tags of earlier jobs that are still current (R261, R275). `poisonCounted` says that
the poisoned entries left in the queues at the job's end have been counted (R465). -/
structure Job where
  gen : BitVec 10 := 0
  st : JobState := .free
  tag : BitVec 16 := 0
  row0 : Nat := 0
  col0 : Nat := 0
  height : Nat := 0
  width : Nat := 0
  schedLen : Nat := 0
  windows : AMap Window := []
  imgAddr : Nat := 0
  imgLen : Nat := 0
  crc : Nat := 0
  beat : Nat := 0
  zeroMs : Nat := 0
  half : Bool := false
  ceilW : Nat := 0
  ceilSet : Bool := false
  spanWhole : Bool := false
  spanKZero : Bool := false
  spanMaxMw : Nat := 0
  winPos : Nat := 0
  k : Nat := 0
  withheld : Nat := 0
  skipped : Nat := 0
  swapLeft : Nat := 0
  stopAt : Option Nat := none
  acceptMs : Nat := 0
  stopKind : BitVec 8 := 0
  firstStop : Option (Byte × Byte) := none
  loadRef : Option DescRef := none
  liveRef : Option DescRef := none
  dead : List (DescRef × BitVec 16) := []
  startRef : Option DescRef := none
  stopRefs : List DescRef := []
  unloadRef : Option DescRef := none
  dmas : List DescRef := []
  paired : Bool := false
  faultDue : Bool := false
  evidenceDue : Bool := false
  flrUnload : Bool := false
  poisonCounted : Bool := false
  deriving DecidableEq, Repr

/-! ### Lantern, posting, pair (10, 11) -/

/-- A data flit waiting for its acknowledgement, with the times it was sent (R309). -/
structure TxFlit where
  flit : Flit
  sends : Nat
  deriving DecidableEq, Repr

/-- 16 bytes of a channel's byte stream with their poison mark (R324). -/
structure Seg where
  data : BitVec 128
  poison : Bool
  deriving DecidableEq, Repr

/-- A request of this end (R319). -/
structure ReqState where
  msg : ReqMsg
  sends : Nat
  lastMs : Nat
  deriving DecidableEq, Repr

/-- The saved equalisation of a port (R321, R420): the peer (module ID and port), the serial numbers of the engine and of the
die it stands at, the engine's temperature. -/
structure EqRec where
  peer : Nat
  serials : List (BitVec 64)
  temp : Byte
  deriving DecidableEq, Repr

/-- A port's state beside its registers (R307-R319). `st` is the code of R314. By channel: `credits` at
the sender, `rxFill` the byte counts of the flits in the receive buffers, `rxq` the received byte stream that no message
has taken (R324), `owed` credits to return, `txq` what waits to be sent; `seekTried` says that a first SEEK limit has
passed (R315). `calDone` and `checked` say how far a RETRAIN has come; `savedEq` is the flash record of the saved
equalisation, `eqUnfit` says that it failed a check of R421. `want` is a retrain that this end asks for once nothing else is under way (operation and reason, R318);
after a lost collision it asks for nothing before `notBefore` (R319). `tsSent`, `tsSeen`, `cfgSent` and `cfgSeen` say
which way the exchange of TS and of CONFIG has gone (R314); a full hour in ACTIVE is counted from `activeMs` (R321). -/
structure Port where
  st : BitVec 4 := 0
  since : Nat := 0
  seekPause : Bool := false
  seekTried : Bool := false
  width : BitVec 4 := 0
  pairs : Byte := 0
  txSeq : BitVec 12 := 0
  unacked : List TxFlit := []
  replayLeft : Nat := 0
  rxNext : BitVec 12 := 0
  nakDue : Bool := false
  nakHeldMs : Option Nat := none
  ackMs : Nat := 0
  credits : AMap Nat := []
  rxFill : AMap (List Nat) := []
  rxq : AMap (List Seg) := []
  owed : AMap Nat := []
  txq : AMap (List Seg) := []
  ctlq : List (List Byte) := []
  rr : Nat := 0
  reqNo : Byte := 0
  req : Option ReqState := none
  heldReq : Option ReqMsg := none
  op : Option ReqMsg := none
  leading : Bool := false
  txPairs : Byte := 0
  ownBad : Byte := 0
  permBad : Byte := 0
  peerBad : Byte := 0
  locked : Byte := 0
  equalised : Byte := 0
  eqSaved : Bool := false
  calDone : Bool := false
  checked : Bool := false
  savedEq : Option EqRec := none
  eqUnfit : Bool := false
  peerMax : Byte := 8
  retrainTimes : List Nat := []
  wideSince : Option Nat := none
  helloSeen : Bool := false
  lost : Bool := false
  notBefore : Nat := 0
  want : Option (Nat × Nat) := none
  msOff : List Int := []
  tsSent : Bool := false
  tsSeen : Bool := false
  cfgSent : Bool := false
  cfgSeen : Bool := false
  activeMs : Nat := 0
  deriving DecidableEq, Repr

/-- A photonic engine's state beside its registers (R301-R321). `ringsOut` marks the rings under single-ring calibration,
16 for each fibre pair, a wavelength and a direction each (R320). `late` says that the re-centring under way has
counted as late (R322). `savedHeater`, `savedTemp` and `savedSerials` stand in
the Ostler flash; `serials` are the serial numbers of the engine and of the die it stands at, `unfit` says that its record
failed a check of R421, `full` that this start has counted it as trained in full, `calibrated` that it has completed its ring
calibration since step 9 began (R315). -/
structure Engine where
  ringsOut : BitVec 256 := 0
  recentring : Bool := false
  late : Bool := false
  recentreCount : BitVec 32 := 0
  savedHeater : Bool := false
  savedTemp : Byte := 0
  savedSerials : List (BitVec 64) := []
  serials : List (BitVec 64) := []
  unfit : Bool := false
  full : Bool := false
  usingSaved : Bool := false
  calibrated : Bool := false
  deriving DecidableEq, Repr

/-- States of a transport stream (R332, R333). -/
inductive StreamState where
  | none | waitOpen | opening | opened | suspended | closing | closed | failed
  deriving DecidableEq, Repr

/-- A transport stream of a loaded job (R330-R335). Offsets in bytes. `have` lists line numbers
written above the landed offset; of a gated sending stream they are the lines that the slot has written, `unsent` those
still to be sent, and `noted` counts the slot's acknowledged elements that they come from (R331). -/
structure TStream where
  st : StreamState := .none
  kind : Nat := 0
  job : BitVec 6 := 0
  port : Nat := 0
  key : BitVec 32 := 0
  loc : Nat := 0
  window : Nat := 0
  mode : Nat := 0
  elem : Nat := 0
  peer : BitVec 12 := 0
  remote : BitVec 64 := 0
  start : Nat := 0
  lines : Nat := 0
  gate : Option Nat := none
  ring : Nat := 0
  paired : Bool := false
  openMs : Nat := 0
  suspMs : Nat := 0
  limitIn : Nat := 0
  limitOut : Nat := 0
  landed : Nat := 0
  seenLines : List Nat := []
  sentTo : Nat := 0
  unsent : List Nat := []
  noted : Nat := 0
  committed : Nat := 0
  commitOut : Nat := 0
  complete : Bool := false
  deriving DecidableEq, Repr

/-- A signature unit (R344) with the round in which it was listed. -/
structure SigUnit where
  id : BitVec 64
  crc : BitVec 64
  round : Nat
  deriving DecidableEq, Repr

/-- A completion that the follower holds (R343): function, global ring, index, the 32 bytes. -/
structure HeldCpl where
  fn : BitVec 6
  ring : Nat
  idx : Nat
  entry : BitVec 256
  deriving DecidableEq, Repr

/-- The pair unit (R338-R350); its state and leader bit live in PST_PAIR_STATUS. `cplSeen` is, by ring,
one more than the highest seq of a CPL_SEEN (R343); `peerNext` says that the partner's list of the round
after the oldest is complete; lists are exchanged from the round `sigFrom` (R341, R345). -/
structure Pair where
  hello1 : Option (List Byte) := none
  closed : List SigUnit := []
  own : List SigUnit := []
  peer : List SigUnit := []
  peerListed : Bool := false
  peerNext : Bool := false
  ownListed : Bool := false
  held : List HeldCpl := []
  mismatch : Bool := false
  evidence : Bool := false
  mirrorNext : Nat := 0
  dirty : AMap Bool := []
  sending : List Nat := []
  linkLostMs : Option Nat := none
  helloSent : Bool := false
  peerEvidence : Option Bool := none
  cplSeen : AMap Nat := []
  sigFrom : Nat := 0
  deriving DecidableEq, Repr

/-! ### Power, clock, reset, bring-up, repair (13-17) -/

/-- Drag and the input (R371-R384); state, thermal level and k live in PWR_STATUS; `kSent` lists
the values of k that were sent with their standby times, latest first; `ballast` is each base die's ballast load in mW
(R377); `periodMs` is the start of the last control period. `tripCond` says that a
trip condition stood in the last thermal sample. -/
structure Power where
  periodMs : Nat := 0
  tripCond : Bool := false
  inputMv : Nat := 0
  envMw : Nat := 0
  idleMw : Nat := 0
  kSent : List (Nat × Nat) := []
  ballast : AMap Nat := []
  off : Bool := false
  flow : Nat := 0
  coolSince : Option Nat := none
  recovering : Bool := false
  deriving DecidableEq, Repr

/-- The copy of the Milestone that a participant other than the module controller keeps (R397): its error at `at` (the
Milestone master's value then), which it corrects by one count in 1,024 ns, and the beacons in a row that found it beyond
±4 ns. -/
structure Copy where
  err : Int := 0
  at_ : Nat := 0
  bad : Nat := 0
  deriving DecidableEq, Repr

/-- Clock controller state beside CLK_STATUS (R387-R397): `windows` lists the vote windows that have closed, latest first,
each with its end and its outlier, `judgedMs` is the end of the last one, `carried` the judgement that the open round
carries, `undecidedPeriod` the start of the Tollgate period in which an undecided window was last logged; a move of the root PLL to `moving`, from
`moveFrom` to `moveTo` ppm, ends at `moveDue`; `beaconMs` is the time of the last beacon round; in holdover `held` names the reference that was lost and
`heldPpm` the frequency that it keeps. `copies` is by source number. -/
structure Clock where
  running : Bool := false
  windows : List (Nat × Option (BitVec 2)) := []
  judgedMs : Nat := 0
  carried : Option (BitVec 2) := none
  undecidedPeriod : Option Nat := none
  moving : Option (BitVec 2) := none
  moveFrom : Int := 0
  moveTo : Int := 0
  beaconMs : Nat := 0
  moveDue : Nat := 0
  held : BitVec 2 := 0
  heldPpm : Int := 0
  returning : List (BitVec 2) := []
  xaFo : Int := 0
  xbFo : Int := 0
  gateStaged : Bool := true
  copies : AMap Copy := []
  deriving DecidableEq, Repr

/-- The Tollgate (R199-R206). Rounds are counted without wrapping; the number of a round is its
count modulo 256. Round baseN opens at baseMs;
`past` holds the earlier base times, base rounds and periods, latest first, with period 0 where the Tollgate stopped. -/
structure Toll where
  started : Bool := false
  baseMs : Nat := 0
  baseN : Nat := 0
  k : Nat := 16
  staged : Option Nat := none
  oldest : Nat := 0
  opened : Nat := 0
  entered : List Nat := []
  pending : List Nat := []
  returning : List (Nat × Nat) := []
  lastEntryMs : Nat := 0
  lastRelease : Nat := 0
  past : List (Nat × Nat × Nat) := []
  deriving DecidableEq, Repr

/-- The saved result of a die edge (R420): its lanes with their spares at the full test, the serial numbers of the parts
it joins, the die's temperature. -/
structure EdgeRec where
  pairs : List (Nat × Nat)
  serials : List (BitVec 64)
  temp : Nat
  deriving DecidableEq, Repr

/-- The saved training of a crossing (R420): the temperatures and serial numbers of its two dies. -/
structure CrossRec where
  temps : Nat × Nat
  serials : List (BitVec 64)
  deriving DecidableEq, Repr

/-- The saved training of a DRAM stack (R420): the serial numbers of the stack and of the die it stands at, its
temperature. -/
structure StackRec where
  serials : List (BitVec 64)
  temp : Nat
  deriving DecidableEq, Repr

/-- Bring-up and resets in progress (R405-R419). `running` is what the parts answer to the step that runs; `newEdges`,
`newCross` and `newStacks` are the records of what this start has trained fully, which step 11 writes (R420); `bank` is the firmware bank that
the broadcast under way takes (R425); `flagged`
says that the module was drained and flagged in this start or at its beginning, which holds its service level until the
next cold start (R475, R498). -/
structure Bringup where
  startUp : Nat := 0
  stepUp : Nat := 0
  startOpen : Bool := false
  step0 : Bool := false
  fusesLoaded : Bool := false
  running : Option StepEnv := none
  minStacksLocked : Bool := false
  step6Done : Bool := false
  blockMask : BitVec 64 := 0
  newEdges : AMap (Option EdgeRec) := []
  newCross : AMap (Option CrossRec) := []
  newStacks : AMap (Option StackRec) := []
  burnDie : Option (BitVec 6) := none
  burnQueue : List (BitVec 64) := []
  resetScope : BitVec 3 := 0
  licBusy : Option (BitVec 3 × Option (List Byte)) := none
  bank : Option Bool := none
  flagged : Bool := false
  deriving DecidableEq, Repr

/-- A die's state beside its registers (R280, R397, R439-R451): `fuses` are the factory tables by word from
die-window offset 0x12000, `fields` and `soft` the repair records, `shifted` the rows whose column shift is
in force with the column, `rowsPending` the SRAM-row entries that wait for their spare row, `rowsWaiting`
those of them that found no spare core either (R444); `baseOut` that a degraded die has lost its base die too (R418, R448); `pllLost` says that its clock has failed since it was last started (R397, R408); `fw`
is the SHA-384 of the firmware payload that its agent wrote last (R426). -/
structure Die where
  fuses : AMap Word := []
  shifted : List (Nat × Nat) := []
  rowsPending : List Word := []
  rowsWaiting : List Word := []
  degraded : Bool := false
  baseOut : Bool := false
  pendingShift : Bool := false
  warned : List Nat := []
  fields : List (BitVec 64) := []
  soft : List (BitVec 64) := []
  edgesBad : BitVec 4 := 0
  pllLost : Bool := false
  fw : BitVec 384 := 0
  deriving DecidableEq, Repr

/-! ### Events, management (18, 19) -/

/-- An event record (R454). -/
structure EventRec where
  ms : Nat
  source : BitVec 30
  cls : Byte
  cause : Byte
  jobTag : BitVec 16 := 0
  flags : BitVec 16 := 0
  seq : BitVec 32 := 0
  loc : BitVec 16 := 0xFFFF
  lane : Byte := 0xFF
  pcore : Byte := 0xFF
  beat : BitVec 64 := 0
  p0 : BitVec 32 := 0
  p1 : BitVec 64 := 0
  p2 : BitVec 64 := 0
  deriving DecidableEq, Repr

/-- The event system (R457-R463); `lastIrq` is the standby time of the last message, `counts` is by the start of the
Tollgate period. `beforeStep` holds, in the order of the log, the records made before the Milestone stepped while the Ostler
restarted (R398, R403). -/
structure Events where
  atSource : List EventRec := []
  arrived : List EventRec := []
  log : List EventRec := []
  seq : BitVec 32 := 0
  last : Option (Nat × BitVec 30) := none
  counts : List ((Nat × BitVec 30 × Byte × Byte) × Nat) := []
  lastIrq : Option Nat := none
  deferred : Bool := false
  heldByReset : List EventRec := []
  beforeStep : List EventRec := []
  heldLost : Nat := 0
  ostlerDown : Bool := false
  collQ : AMap (List EventRec) := []
  deriving DecidableEq, Repr

/-- A suspect core (R467); `due` says that its three runs have not been made since the last residue event (R468). -/
structure Suspect where
  die : BitVec 6
  pcol : BitVec 6
  y : BitVec 5
  core : BitVec 5
  count : Nat
  due : Bool
  deriving DecidableEq, Repr

/-- A management key slot (R482). -/
structure MgmtKey where
  present : Bool := false
  key : BitVec 256 := 0
  rights : BitVec 8 := 0
  nonce : BitVec 64 := 0
  deriving DecidableEq, Repr

/-- A collector (R484). -/
structure Collector where
  addr : BitVec 32 := 0
  udp : BitVec 16 := 0
  mask : BitVec 32 := 0
  deriving DecidableEq, Repr

/-- What the Ostler flash holds (R477). The saved settings (R420) stand by die × 4 + edge, for a
crossing by die × 4 + edge 1 or 2, for a stack by its number; those of an engine and a port stand
with them. -/
structure Flash where
  bankA : Mem := []
  bankB : Mem := []
  openA : Bool := false
  openB : Bool := false
  fwActive : Bool := false
  maxRollback : BitVec 32 := 0
  licences : AMap (Option (List Byte)) := []
  failedStarts : Nat := 0
  recovery : Bool := false
  drained : Bool := false
  suspects : List Suspect := []
  log : List EventRec := []
  keys : AMap MgmtKey := []
  collectors : List Collector := []
  interval : Nat := 100
  savedSettings : Bool := false
  savedEdges : AMap (Option EdgeRec) := []
  savedCross : AMap (Option CrossRec) := []
  savedStacks : AMap (Option StackRec) := []
  deriving DecidableEq, Repr

/-- What the Manifest counts as it stood when the Milestone reached the target: the registers, the skip counts, EVT_HEAD,
the units out of service (R489). -/
structure ManCopy where
  regs : AMap (Option Word) := []
  skips : AMap Nat := []
  head : Nat := 0
  out : List Nat := []
  deriving DecidableEq, Repr

/-- The Manifest (R489, R490); its state lives in the MAN block. `held` says that a snapshot is held, `out` lists the
units that were out of service when the target was carried, `gone` those that left before they latched; `snap` holds
the latched registers by offset, `skips` the latched skip counts by slot, `left` lists the units that have left and come
back since the release, `atT` is what stood when an armed target was reached. -/
structure Manifest where
  target : Nat := 0
  held : Bool := false
  gone : List Nat := []
  snap : AMap (Option Word) := []
  skips : AMap Nat := []
  out : List Nat := []
  left : List Nat := []
  atT : Option ManCopy := none
  deriving DecidableEq, Repr

/-- A Waybill entry (R492). -/
structure WayEntry where
  ms : Nat
  src : BitVec 20
  probe : BitVec 4
  kind : BitVec 4
  gap : Bool
  late : Bool
  data : BitVec 32
  deriving DecidableEq, Repr

/-- The Waybill recorder (R492-R494); state and settings live in the WAY block. `buf` holds the stored entries, latest
first, `post` how many of them are the trigger and after it, `drops` the entries dropped since the recorder was armed;
`seenMs` is the WAY_TRIG_MS at or after which the first entry has been committed. `header` and `copyDue` are the header of
the capture being copied and the time at which its copy ends. -/
structure Waybill where
  pending : List WayEntry := []
  buf : List WayEntry := []
  post : Nat := 0
  force : Bool := false
  seenMs : Option Nat := none
  preValid : Nat := 0
  trigMs : Nat := 0
  capture : BitVec 32 := 0
  drops : Nat := 0
  header : List Byte := []
  copyDue : Nat := 0
  lastMs : AMap Nat := []
  gap : AMap Bool := []
  last : Option (Nat × BitVec 20) := none
  deriving DecidableEq, Repr

/-- The management plane's own settings (R479-R487); `sentCount` is the sender's datagram count, `teleUp` the time of the
last telemetry, `sensed` the threshold state of each sensor when it was last judged, `smbus` which bus carries MCTP once
that is decided, `alert` says that a PlatformEventMessage is pending on SMBus (R486). -/
structure Mgmt where
  addr : AMap (BitVec 96) := []
  eid : Byte := 0
  portsDown : Bool := false
  sentCount : BitVec 64 := 0
  teleUp : Nat := 0
  sensed : AMap Nat := []
  smbus : Option Bool := none
  alert : Bool := false
  deriving DecidableEq, Repr

/-- The JTAG port (R496, R497): the nonce that still accepts a response, the granted level (0: no session is open), the
instruction register (IDCODE at reset as IEEE 1149.1 has it, log entry 162). -/
structure Jtag where
  nonce : Option (BitVec 256) := none
  level : Nat := 0
  ir : Byte := 0x01
  deriving DecidableEq, Repr

/-- What a response answers: the path and the management port of the command, and its nonce (R479, R480). -/
structure Reply where
  mctp : Bool
  mport : Bool
  nonce : BitVec 64
  deriving DecidableEq, Repr

/-- What leaves the module or is answered to a reader. -/
inductive Msg where
  | msix (port : Bool) (fn : BitVec 6) (vec : BitVec 5)
  | regRead (value : Word)
  | bar2Data (data : List Byte) (poison : Bool)
  | unsupported
  /-- a flit, on the fibre pairs of the map -/
  | flit (port : BitVec 7) (pairs : Byte) (f : Flit)
  | tlpPoison (count : Nat)
  | eventBatch (coll : Nat) (count : BitVec 64) (recs : List EventRec)
  | telemetry (coll : Nat) (count : BitVec 64) (items : List (BitVec 16 × BitVec 48))
  /-- a PlatformEventMessage: the sensor, its threshold state before and now (R486) -/
  | platformEvent (sensor : BitVec 16) (old new : BitVec 2)
  | response (dst : Reply) (status : Byte) (detail : BitVec 32) (data : List Byte)
  | jtag (width : Nat) (value : Nat)
  | faultN (low : Bool)
  deriving DecidableEq, Repr

/-- The module. -/
structure State where
  pending : List Instr
  /-- the Milestone master (R396) -/
  ms : Nat
  /-- time in ns on the standby domain's own clock since it gained power -/
  up : Nat
  /-- what a follower's Milestone still has to be corrected by, above 0 where it is ahead of its leader (R398) -/
  msOff : Int
  /-- the model's counter behind the free values -/
  freeCtr : Nat
  sent : List Msg
  hostMem : Mem
  /-- BAR0 registers, keyed by function * 2^24 + offset; an unlisted one holds its reset value -/
  regs : AMap (Option Word)
  /-- read shadows of wide values (R12), same keys -/
  shadow : AMap (Option Word)
  clusters : AMap Cluster
  xunits : AMap XUnit
  flights : List Flight
  /-- entries between transit endpoints and strips (R143) -/
  transitIn : List TransitIn
  strips : AMap StreamSlot
  transit : List TransitRoute
  chsMem : Mem
  poisoned : AMap Bool
  /-- what has changed in the stored codeword of a line: 36 symbols of 16 bits, symbol 0 lowest (R238) -/
  symErr : AMap (BitVec 576)
  dstacks : AMap Stack
  fns : AMap FnState
  numVfs : Nat
  rings : AMap Ring
  /-- when the next poll cycle is due (R258) -/
  pollDue : Nat
  /-- vectors that are not masked; as PCIe has it, every vector is masked until it is unmasked (R269) -/
  msixOpen : AMap Bool
  msixPend : AMap Bool
  jobs : AMap Job
  ports : AMap Port
  engines : AMap Engine
  streams : AMap TStream
  opens : AMap (Option (OpenBody × Nat × Nat))
  pair : Pair
  power : Power
  clock : Clock
  toll : Toll
  bru : Bringup
  dies : AMap Die
  /-- source numbers (R17) of participants out of service -/
  outOf : List Nat
  ev : Events
  flash : Flash
  man : Manifest
  way : Waybill
  mgmt : Mgmt
  jtag : Jtag
  /-- the function whose sync-object capture is pending (R210) -/
  dbgFn : Nat
  /-- pending fabric-view captures by die (R155) -/
  fabViews : AMap FabView
  dbgView : DbgView
  /-- host ports (0 or 1) whose configuration space has been reset since NumVFs was written (R402) -/
  vfsGone : AMap Bool
  /-- host ports (0 or 1) that a port reset holds: their links have not come back since (R404, R409) -/
  portReset : AMap Bool
  deriving DecidableEq, Repr

/-- The module as a power-on leaves it before step 0 (R401, R402): registers at their reset values,
every slot free, nothing in service beyond the standby domain. -/
def State.reset : State where
  pending := []
  ms := 0
  up := 0
  msOff := 0
  freeCtr := 0
  sent := []
  hostMem := []
  regs := []
  shadow := []
  clusters := []
  xunits := []
  flights := []
  transitIn := []
  strips := []
  transit := []
  chsMem := []
  poisoned := []
  symErr := []
  dstacks := []
  fns := []
  numVfs := 0
  rings := []
  pollDue := 0
  msixOpen := []
  msixPend := []
  jobs := []
  ports := []
  engines := []
  streams := []
  opens := []
  pair := {}
  power := {}
  clock := {}
  toll := {}
  bru := {}
  dies := []
  outOf := []
  ev := {}
  flash := {}
  man := {}
  way := {}
  mgmt := {}
  jtag := {}
  dbgFn := 0
  fabViews := []
  dbgView := {}
  vfsGone := []
  portReset := []

end Sys2Proof.Machine
end

