-- ==== Sys2Proof/Machine/Float.lean ====
section
/-! DEFINITION. Number formats, exact values and rounding (02, R35, R36, R51-R59, R71). -/

namespace Sys2Proof.Machine

/-- A floating-point format of R35: its widths, its bias, and whether it has infinities and NaNs
(`ieee`), only the two NaN codes of E4M3 (`e4m3`), or neither (`finite`). -/
structure Format where
  exp : Nat
  man : Nat
  bias : Nat
  ieee : Bool
  e4m3 : Bool

/-- The floating-point formats by code (R35). -/
def formatOf (code : Nat) : Option Format :=
  match code with
  | 0x0 => some ⟨2, 1, 1, false, false⟩
  | 0x1 => some ⟨2, 3, 1, false, false⟩
  | 0x2 => some ⟨3, 2, 3, false, false⟩
  | 0x3 => some ⟨4, 3, 7, false, true⟩
  | 0x4 => some ⟨5, 2, 15, true, false⟩
  | 0x7 => some ⟨8, 7, 127, true, false⟩
  | 0x8 => some ⟨5, 10, 15, true, false⟩
  | 0x9 => some ⟨8, 23, 127, true, false⟩
  | 0xA => some ⟨11, 52, 1023, true, false⟩
  | _ => none

/-- Bits of an element of a format code (R35); 0 for a reserved code. -/
def formatBits (code : Nat) : Nat :=
  match code with
  | 0x0 => 4
  | 0x1 => 6
  | 0x2 => 6
  | 0x3 => 8
  | 0x4 => 8
  | 0x5 => 8
  | 0x6 => 4
  | 0x7 => 16
  | 0x8 => 16
  | 0x9 => 32
  | 0xA => 64
  | 0xB => 32
  | 0xC => 16
  | _ => 0

/-- The quantum exponent of a format: that of its smallest subnormal, 0 for integers (R44). -/
def quantumExp (code : Nat) : Int :=
  match formatOf code with
  | some f => 1 - (f.bias : Int) - (f.man : Int)
  | none => 0

/-- The 32-bit format that vector arithmetic uses (R71). -/
def fp32 : Format := ⟨8, 23, 127, true, false⟩

/-- The value a floating-point encoding stands for (R35). -/
def decodeFloat (f : Format) (x : Nat) : Exact :=
  let neg := x / 2 ^ (f.exp + f.man) % 2 == 1
  let be := x / 2 ^ f.man % 2 ^ f.exp
  let frac := x % 2 ^ f.man
  if f.ieee && be == 2 ^ f.exp - 1 then
    if frac == 0 then .inf neg else .nan
  else if f.e4m3 && be == 2 ^ f.exp - 1 && frac == 2 ^ f.man - 1 then .nan
  else
    let q := 1 - (f.bias : Int) - (f.man : Int)
    if be == 0 then .fin neg frac q
    else .fin neg (2 ^ f.man + frac) (q + (be : Int) - 1)

/-- The value of a signed integer of a given width. -/
def decodeInt (bits x : Nat) : Exact :=
  let m := x % 2 ^ bits
  if m < 2 ^ (bits - 1) then .fin false m 0 else .fin true (2 ^ bits - m) 0

/-- The value of an element under a format code. -/
def decodeCode (code x : Nat) : Exact :=
  match formatOf code with
  | some f => decodeFloat f x
  | none => decodeInt (formatBits code) x

/-- Is the code one of the formats that carry a block scale (R36)? -/
def isNarrow (code : Nat) : Bool := code ≤ 4

/-- m × 2^k, a fraction dropped. -/
def shiftNat (m : Nat) (k : Int) : Nat :=
  match k with
  | .ofNat n => m * 2 ^ n
  | .negSucc n => m / 2 ^ (n + 1)

/-- Does m × 2^k have a fraction? -/
def hasFraction (m : Nat) (k : Int) : Bool :=
  match k with
  | .ofNat _ => false
  | .negSucc n => m % 2 ^ (n + 1) != 0

/-- The magnitude m × 2^k rounded to an integer: rounding mode of R53, the sign of the value, and the
random word of the element for mode 4 (R54, R59). The Bool says that the value changed. -/
def roundMag (rnd : Nat) (neg : Bool) (sr : Nat) (m : Nat) (k : Int) : Nat × Bool :=
  let t := shiftNat m k
  let frac := hasFraction m k
  let half := shiftNat m (k + 1) % 2 == 1
  let below := hasFraction m (k + 1)
  let up :=
    match rnd with
    | 0 => half && (below || t % 2 == 1)
    | 1 => false
    | 2 => frac && neg
    | 3 => frac && !neg
    | _ => shiftNat m (k + 32) % 2 ^ 32 + sr ≥ 2 ^ 32
  (if up then t + 1 else t, frac)

/-- What a rounding delivers: the element and the flags of bits [12:10] of R41. -/
structure Rounded where
  bits : Nat
  inexact : Bool := false
  overflow : Bool := false
  invalid : Bool := false

/-- The encoding of the largest finite magnitude. -/
def maxFiniteBits (f : Format) : Nat :=
  if f.ieee then (2 ^ f.exp - 1) * 2 ^ f.man - 1
  else if f.e4m3 then 2 ^ (f.exp + f.man) - 2
  else 2 ^ (f.exp + f.man) - 1

/-- The sign bit of a format. -/
def signBits (f : Format) (neg : Bool) : Nat := if neg then 2 ^ (f.exp + f.man) else 0

/-- The canonical NaN (R51); 0 in a format that has none. -/
def canonicalNan (f : Format) : Nat :=
  if f.ieee then
    if f.exp = 5 ∧ f.man = 2 then 0x7F
    else (2 ^ f.exp - 1) * 2 ^ f.man + 2 ^ (f.man - 1)
  else if f.e4m3 then 0x7F
  else 0

/-- An infinity delivered in a format (R51, R54): ∞, NaN in E4M3, or the largest finite value. -/
def deliverInf (f : Format) (neg sat : Bool) : Nat :=
  if sat || !(f.ieee || f.e4m3) then signBits f neg + maxFiniteBits f
  else if f.ieee then signBits f neg + (2 ^ f.exp - 1) * 2 ^ f.man
  else canonicalNan f

/-- The magnitude bits of m × 2^e (m above 0) rounded to a format, the exponent not yet bounded above. -/
def roundBits (f : Format) (rnd : Nat) (neg : Bool) (sr m : Nat) (e : Int) : Nat × Bool :=
  let qmin := 1 - (f.bias : Int) - (f.man : Int)
  let q := max ((Nat.log2 m : Int) + e - (f.man : Int)) qmin
  let (t, inexact) := roundMag rnd neg sr m (e - q)
  ((q - qmin).toNat * 2 ^ f.man + t, inexact)

/-- Round an exact value to a floating-point format (R51 rows, R54). -/
def roundFloat (f : Format) (rnd : Nat) (sat : Bool) (sr : Nat) (v : Exact) : Rounded :=
  match v with
  | .nan => { bits := canonicalNan f, invalid := true }
  | .inf neg => { bits := deliverInf f neg sat, overflow := !(f.ieee && !sat) }
  | .fin neg m e =>
    if m = 0 then { bits := signBits f neg }
    else
      let (b, inexact) := roundBits f rnd neg sr m e
      if b ≤ maxFiniteBits f then { bits := signBits f neg + b, inexact := inexact }
      else
        let toMax := sat || rnd == 1 || (rnd == 2 && !neg) || (rnd == 3 && neg)
        { bits := deliverInf f neg toMax, inexact := true, overflow := true }

/-- Round an exact value to a signed integer format, saturating (R51 rows, R54); a saturated value counts as
inexact (log entry 121). -/
def roundInt (bits : Nat) (rnd sr : Nat) (v : Exact) : Rounded :=
  let hi := 2 ^ (bits - 1) - 1
  let lo := 2 ^ (bits - 1)
  match v with
  | .nan => { bits := 0, invalid := true }
  | .inf neg => { bits := if neg then lo else hi, overflow := true }
  | .fin neg m e =>
    let (t, inexact) := roundMag rnd neg sr m e
    if neg then
      if t ≤ lo then { bits := (2 ^ bits - t) % 2 ^ bits, inexact := inexact }
      else { bits := lo, inexact := true, overflow := true }
    else
      if t ≤ hi then { bits := t, inexact := inexact }
      else { bits := hi, inexact := true, overflow := true }

/-- Round to the output format of a readout control field. -/
def roundCode (code rnd : Nat) (sat : Bool) (sr : Nat) (v : Exact) : Rounded :=
  match formatOf code with
  | some f => roundFloat f rnd sat sr v
  | none => roundInt (formatBits code) rnd sr v

/-- An exact value times 2^k. -/
def Exact.scale (v : Exact) (k : Int) : Exact :=
  match v with
  | .fin neg m e => .fin neg m (e + k)
  | w => w

/-- The negated value. -/
def Exact.negate (v : Exact) : Exact :=
  match v with
  | .nan => .nan
  | .inf neg => .inf (!neg)
  | .fin neg m e => .fin (!neg) m e

/-- A product (R50): NaN, ∞ or the exact product with sign a XOR b, also for integers: 0 times a negative integer is -0
(log entry 28). -/
def Exact.mul (a b : Exact) : Exact :=
  match a, b with
  | .nan, _ => .nan
  | _, .nan => .nan
  | .inf s, .inf t => .inf (s != t)
  | .inf s, .fin t m _ => if m = 0 then .nan else .inf (s != t)
  | .fin s m _, .inf t => if m = 0 then .nan else .inf (s != t)
  | .fin s m e, .fin t n g => .fin (s != t) (m * n) (e + g)

/-- The exact sum; an exact zero sum is +0 unless both addends are negative zeros (IEEE 754 under
round-to-nearest-even, R71). -/
def Exact.add (a b : Exact) : Exact :=
  match a, b with
  | .nan, _ => .nan
  | _, .nan => .nan
  | .inf s, .inf t => if s = t then .inf s else .nan
  | .inf s, .fin _ _ _ => .inf s
  | .fin _ _ _, .inf t => .inf t
  | .fin s m e, .fin t n g =>
    if m = 0 ∧ n = 0 then .fin (s && t) 0 0
    else if m = 0 then .fin t n g
    else if n = 0 then .fin s m e
    else
      let lo := min e g
      let x : Int := (m * 2 ^ (e - lo).toNat : Nat)
      let y : Int := (n * 2 ^ (g - lo).toNat : Nat)
      let z := (if s then -x else x) + (if t then -y else y)
      .fin (decide (z < 0)) z.natAbs lo

/-- An FP32 element (R71). -/
def fromF32 (x : BitVec 32) : Exact := decodeFloat fp32 x.toNat

/-- Round to FP32, nearest even; every NaN is the canonical one (R71). -/
def toF32 (v : Exact) : BitVec 32 := BitVec.ofNat 32 (roundFloat fp32 0 false 0 v).bits

def f32Add (a b : BitVec 32) : BitVec 32 := toF32 ((fromF32 a).add (fromF32 b))
def f32Sub (a b : BitVec 32) : BitVec 32 := toF32 ((fromF32 a).add (fromF32 b).negate)
def f32Mul (a b : BitVec 32) : BitVec 32 := toF32 ((fromF32 a).mul (fromF32 b))
def f32Fma (a b c : BitVec 32) : BitVec 32 := toF32 (((fromF32 a).mul (fromF32 b)).add (fromF32 c))

/-- Compare two exact values: none where either is NaN, else the order of a and b. -/
def Exact.compare (a b : Exact) : Option Ordering :=
  match a, b with
  | .nan, _ => none
  | _, .nan => none
  | .inf s, .inf t => some (if s = t then .eq else if s then .lt else .gt)
  | .inf s, .fin _ _ _ => some (if s then .lt else .gt)
  | .fin _ _ _, .inf t => some (if t then .gt else .lt)
  | .fin s m e, .fin t n g =>
    let lo := min e g
    let x : Int := (m * 2 ^ (e - lo).toNat : Nat)
    let y : Int := (n * 2 ^ (g - lo).toNat : Nat)
    let x' := if s then -x else x
    let y' := if t then -y else y
    some (if x' < y' then .lt else if x' = y' then .eq else .gt)

/-- IEEE 754-2019 minimum: NaN for a NaN input, minimum(-0, +0) = -0 (R71). -/
def f32Min (a b : BitVec 32) : BitVec 32 :=
  match (fromF32 a).compare (fromF32 b) with
  | none => 0x7FC00000#32
  | some .lt => a
  | some .gt => b
  | some .eq => if a.msb then a else b

/-- IEEE 754-2019 maximum. -/
def f32Max (a b : BitVec 32) : BitVec 32 :=
  match (fromF32 a).compare (fromF32 b) with
  | none => 0x7FC00000#32
  | some .lt => b
  | some .gt => a
  | some .eq => if a.msb then b else a

/-- The correctly rounded reciprocal (R72): the quotient with 32 or more bits and a sticky bit, then
one rounding. -/
def f32Recip (a : BitVec 32) : BitVec 32 :=
  match fromF32 a with
  | .nan => 0x7FC00000#32
  | .inf neg => toF32 (.fin neg 0 0)
  | .fin neg m e =>
    if m = 0 then toF32 (.inf neg)
    else
      let k := Nat.log2 m + 32
      let q := 2 ^ k / m
      let sticky := if 2 ^ k % m = 0 then 0 else 1
      toF32 (.fin neg (q * 2 + sticky) (-e - (k : Int) - 1))

/-- The exact square of an FP32 magnitude. -/
def Exact.square (v : Exact) : Exact := v.mul v

/-- ⌊v⌋ of a finite value m × 2^e. -/
def floorExact (neg : Bool) (m : Nat) (e : Int) : Int :=
  let t := shiftNat m e
  if neg then (if hasFraction m e then -((t : Int) + 1) else -(t : Int)) else (t : Int)

/-- xorshift32 with shifts 13, 17, 5 (R58). -/
def srStep (x : BitVec 32) : BitVec 32 :=
  let x := x ^^^ (x <<< 13)
  let x := x ^^^ (x >>> 17)
  x ^^^ (x <<< 5)

/-- The random word of element n (R58). -/
def srWord (g : BitVec 32) (n : Nat) : BitVec 32 :=
  let x := g ^^^ (BitVec.ofNat 32 n * 0x9E3779B9#32)
  let x := (x ^^^ (x >>> 16)) * 0x045D9F3B#32
  let x := (x ^^^ (x >>> 16)) * 0x045D9F3B#32
  x ^^^ (x >>> 16)

/-- The fields of a readout control field (R53). -/
structure Rctl where
  fmt : Nat
  rnd : Nat
  sat : Bool
  blk : Bool
  clr : Bool
  shift : Int

/-- Read a readout control field (R53). -/
def rctlOf (x : BitVec 20) : Rctl where
  fmt := (x.extractLsb' 0 4).toNat
  rnd := (x.extractLsb' 4 3).toNat
  sat := x.getLsbD 7
  blk := x.getLsbD 8
  clr := x.getLsbD 9
  shift := (x.extractLsb' 13 7).toInt

/-- A readout control field that R53 does not refuse; slice readouts (0xA), INT32 and the status word
only where `engine` says that an engine readout carries it. -/
def rctlOk (engine : Bool) (x : BitVec 20) : Bool :=
  let r := rctlOf x
  let fmtOk := decide (r.fmt ≤ 0x9) || (engine && (r.fmt == 0xA || r.fmt == 0xB || r.fmt == 0xC))
  fmtOk && decide (r.rnd ≤ 4) && (!r.blk || isNarrow r.fmt) && (x.extractLsb' 10 3 == 0#3) &&
    !(r.fmt == 0xA && r.rnd == 4)

/-- e_max of a narrow format (R55). -/
def narrowEmax (code : Nat) : Int :=
  match code with
  | 0x0 => 2
  | 0x1 => 2
  | 0x2 => 4
  | 0x3 => 8
  | _ => 15

/-- Does a list of exact values hold a NaN or an infinity? -/
def hasSpecial (vs : List Exact) : Bool :=
  vs.any fun v => match v with
    | .fin _ _ _ => false
    | _ => true

/-- ⌊log₂⌋ of the largest magnitude of finite values, none where all are 0. -/
def maxLog (vs : List Exact) : Option Int :=
  vs.foldl (fun acc v => match v with
    | .fin _ m e =>
      if m = 0 then acc
      else
        let x := (Nat.log2 m : Int) + e
        match acc with
        | none => some x
        | some y => some (max x y)
    | _ => acc) none

/-- The block readout of R55: the scale byte and the elements. `sr n` is the random word of element n. A block with a
special value sets rd_invalid alone, the range row's infinity among them (log entry 121). -/
def roundBlock (code rnd : Nat) (sr : Nat → Nat) (vs : List Exact) : Nat × List Rounded :=
  if hasSpecial vs then (0xFF, vs.map fun _ => { bits := 0, invalid := true })
  else
    let x := match maxLog vs with
      | none => -127
      | some l => max (l - narrowEmax code) (-127)
    if x > 127 then (0xFF, vs.map fun _ => { bits := 0, overflow := true })
    else
      ((x + 127).toNat,
        vs.zipIdx.map fun (v, n) => roundCode code rnd true (sr n) (v.scale (-x)))

end Sys2Proof.Machine
end

