-- ==== Sys2Proof/Config.lean ====
section
/-! DEFINITION. What the spec leaves open: free values as constants without a body, and the facts that
one module's fuses and keys hold. Nothing can evaluate them, so no statement rests on a value. -/

namespace Sys2Proof.Config

/-- A fresh free value: the counter of State applied to it (log entry 3). -/
opaque freeValue : Nat → Nat

/-- The exponent that a save stores for a Ledger whose E holds no value (R42, R60; log entry 10). -/
opaque unsetExponent : BitVec 10

/-- The sign of a slice readout whose frozen Ledgers disagree (R51, R69; log entry 11). -/
opaque sliceRangeSign : BitVec 128 → BitVec 128 → Bool

/-- A slice readout of Ledgers that are not in slice mode (R53; log entry 11). -/
opaque sliceUnstated : BitVec 128 → BitVec 64

/-- A special function (0 exp2, 1 log2, 3 rsqrt, 4 sin, 5 cos, 6 tanh) of an FP32 input, before the
bound of R72 is put on it (log entry 14). -/
opaque sfu : Nat → BitVec 32 → BitVec 32

/-- The piecewise table unit where the descriptor's base is NaN or an infinity (R73; log entry 15). -/
opaque pwtUnstated : BitVec 64 → BitVec 32 → BitVec 32

/-- The element width index of a stream that expands BM64 blocks of 8 bits or fewer, by the CRC of its image and its
relative strip and slot: 0, 1, 2 for 4, 6, 8 bits (R221, R227 do not say how the engine knows it; log entry 17). -/
opaque bm64Width : Nat → Nat → Fin 3

/-- The hop and crossing bytes of a distance-table entry without a reachable target on a die that is not excluded,
by global cluster ID and by stack (false) or port (true) (R153). -/
opaque noPath : Nat → Bool → BitVec 16

/-- What the Manifest view shows for a field that no unit latched, by offset: R489 gives 0 only for units that left
service before they latched. -/
opaque unlatched : Nat → BitVec 32

/-- The fused hash of vendor key slot 0 or 1 (R425, R428). -/
opaque keyHash : Nat → BitVec 384

/-- The fused number of virtual functions (R249, R255). -/
opaque maxVfs : BitVec 6

/-- The fused debug ceiling (R496, R497). -/
opaque debugCeiling : BitVec 2

end Sys2Proof.Config
end

