-- ==== Sys2Proof/Machine/RegTable.lean ====
section
/-! DEFINITION. The registers of BAR0: their offsets by name, and the table of fields, access codes and
reset values (every register table of the spec; R7, R12, R250). -/

namespace Sys2Proof.Machine

/-- The access codes of R7. -/
inductive Access where
  | rw | ro | wo | w1c | w1s | rwl | rf
  deriving DecidableEq, Repr

/-- A field: lowest bit, width, access code. -/
structure RegField where
  lo : Nat
  w : Nat
  acc : Access

/-- Registers base + s1 × i + s2 × j for i below c1 and j below c2; `wide` upper words follow the
lowest word of a wide value (R12). -/
structure RegSpec where
  base : Nat
  s1 : Nat
  c1 : Nat
  s2 : Nat
  c2 : Nat
  reset : Word
  wide : Nat
  fields : List RegField

namespace Reg

/-- FAB_VIEW_CTRL (R155), die window. -/
def FAB_VIEW_CTRL (die : Nat) : Nat := 0x408000 + 0x20000 * die
/-- FAB_VIEW_TARGET_LO (R155), die window. -/
def FAB_VIEW_TARGET_LO (die : Nat) : Nat := 0x408004 + 0x20000 * die
/-- FAB_VIEW_TARGET_HI (R155), die window. -/
def FAB_VIEW_TARGET_HI (die : Nat) : Nat := 0x408008 + 0x20000 * die
/-- FAB_VIEW_STATUS (R155), die window. -/
def FAB_VIEW_STATUS (die : Nat) : Nat := 0x40800C + 0x20000 * die
/-- FAB_VIEW_OCC_LO (R155), die window. -/
def FAB_VIEW_OCC_LO (die : Nat) : Nat := 0x408010 + 0x20000 * die
/-- FAB_VIEW_OCC_HI (R155), die window. -/
def FAB_VIEW_OCC_HI (die : Nat) : Nat := 0x408014 + 0x20000 * die
/-- FAB_VIEW_BEAT_LO (R155), die window. -/
def FAB_VIEW_BEAT_LO (die : Nat) : Nat := 0x408018 + 0x20000 * die
/-- FAB_VIEW_BEAT_HI (R155), die window. -/
def FAB_VIEW_BEAT_HI (die : Nat) : Nat := 0x40801C + 0x20000 * die
/-- FAB_VIEW_MS_LO (R155), die window. -/
def FAB_VIEW_MS_LO (die : Nat) : Nat := 0x408020 + 0x20000 * die
/-- FAB_VIEW_MS_HI (R155), die window. -/
def FAB_VIEW_MS_HI (die : Nat) : Nat := 0x408024 + 0x20000 * die
/-- FAB_VIEW_INJ (R155), die window. -/
def FAB_VIEW_INJ (die : Nat) : Nat := 0x408028 + 0x20000 * die
/-- FAB_DROP_COUNT (R157), die window. -/
def FAB_DROP_COUNT (die : Nat) : Nat := 0x408400 + 0x20000 * die
/-- FAB_INJ_DROP_COUNT (R157), die window. -/
def FAB_INJ_DROP_COUNT (die : Nat) : Nat := 0x408404 + 0x20000 * die
/-- FAB_DROP_FIRST (R157), die window. -/
def FAB_DROP_FIRST (die : Nat) : Nat := 0x408408 + 0x20000 * die
/-- FAB_DIST_GEN (R157), die window. -/
def FAB_DIST_GEN (die : Nat) : Nat := 0x40840C + 0x20000 * die
/-- FAB_XING_STATUS (R157), die window. -/
def FAB_XING_STATUS (die i : Nat) : Nat := 0x408500 + 0x20000 * die + 0x10 * i
/-- FAB_XING_DRIFT (R157), die window. -/
def FAB_XING_DRIFT (die i : Nat) : Nat := 0x408504 + 0x20000 * die + 0x10 * i
/-- FAB_XING_COUNT (R157), die window. -/
def FAB_XING_COUNT (die i : Nat) : Nat := 0x408508 + 0x20000 * die + 0x10 * i
/-- FAB_XING_CLEAR (R157), die window. -/
def FAB_XING_CLEAR (die i : Nat) : Nat := 0x40850C + 0x20000 * die + 0x10 * i
/-- CLK_TG_PERIOD (R208). -/
def CLK_TG_PERIOD : Nat := 0x20100
/-- CLK_TG_STATUS (R208). -/
def CLK_TG_STATUS : Nat := 0x20104
/-- CLK_TG_RELEASE_LO (R208). -/
def CLK_TG_RELEASE_LO : Nat := 0x20108
/-- CLK_TG_RELEASE_HI (R208). -/
def CLK_TG_RELEASE_HI : Nat := 0x2010C
/-- CLK_TG_COUNTS (R208). -/
def CLK_TG_COUNTS : Nat := 0x20110
/-- CLK_TG_STALL (R208). -/
def CLK_TG_STALL : Nat := 0x20114
/-- CLK_CFG (R399). -/
def CLK_CFG : Nat := 0x20000
/-- CLK_STATUS (R399). -/
def CLK_STATUS : Nat := 0x20004
/-- CLK_PPM (R399). -/
def CLK_PPM : Nat := 0x20008
/-- CLK_MS_LO (R399). -/
def CLK_MS_LO : Nat := 0x2000C
/-- CLK_MS_HI (R399). -/
def CLK_MS_HI : Nat := 0x20010
/-- CLK_MS_ERR (R399). -/
def CLK_MS_ERR : Nat := 0x20014
/-- CLK_COUNTS (R399). -/
def CLK_COUNTS : Nat := 0x20018
/-- CLK_INFO (R399). -/
def CLK_INFO : Nat := 0x2001C
/-- DBG_SEL (R210). -/
def DBG_SEL : Nat := 0xD0000
/-- DBG_STATUS (R210). -/
def DBG_STATUS : Nat := 0xD0004
/-- DBG_COUNT (R210). -/
def DBG_COUNT : Nat := 0xD0008
/-- DBG_THRESH (R210). -/
def DBG_THRESH : Nat := 0xD000C
/-- DBG_SIG_TOTAL (R210). -/
def DBG_SIG_TOTAL : Nat := 0xD0010
/-- DBG_WAITERS (R210). -/
def DBG_WAITERS : Nat := 0xD0014
/-- DBG_PATHS (R210). -/
def DBG_PATHS : Nat := 0xD0018
/-- DBG_LAST (R210). -/
def DBG_LAST : Nat := 0xD001C
/-- DBG_LAST_MS (R210). -/
def DBG_LAST_MS : Nat := 0xD0020
/-- DBG_TOLL (R210). -/
def DBG_TOLL : Nat := 0xD0024
/-- DBG_BEAT_LO (R210). -/
def DBG_BEAT_LO : Nat := 0xD0028
/-- DBG_BEAT_HI (R210). -/
def DBG_BEAT_HI : Nat := 0xD002C
/-- DBG_MS_LO (R210). -/
def DBG_MS_LO : Nat := 0xD0030
/-- DBG_MS_HI (R210). -/
def DBG_MS_HI : Nat := 0xD0034
/-- STR_UNDERRUN_0 (R224), die window. -/
def STR_UNDERRUN_0 (die i : Nat) : Nat := 0x413000 + 0x20000 * die + 0x4 * i
/-- STR_UNDERRUN_1 (R224), die window. -/
def STR_UNDERRUN_1 (die i : Nat) : Nat := 0x413100 + 0x20000 * die + 0x4 * i
/-- STR_UNDERRUN_2 (R224), die window. -/
def STR_UNDERRUN_2 (die i : Nat) : Nat := 0x413200 + 0x20000 * die + 0x4 * i
/-- STR_UNDERRUN_3 (R224), die window. -/
def STR_UNDERRUN_3 (die i : Nat) : Nat := 0x413300 + 0x20000 * die + 0x4 * i
/-- CHS_CFG (R245). -/
def CHS_CFG : Nat := 0x70000
/-- CHS_STATUS (R245). -/
def CHS_STATUS : Nat := 0x70004
/-- CHS_WARM_DISCARD (R245). -/
def CHS_WARM_DISCARD : Nat := 0x70008
/-- CHS_STACK (R245). -/
def CHS_STACK (i : Nat) : Nat := 0x70100 + 0x4 * i
/-- CHS_SPREAD_MAP (R245). -/
def CHS_SPREAD_MAP (i : Nat) : Nat := 0x70200 + 0x4 * i
/-- CHS_NEAR_MAP (R245). -/
def CHS_NEAR_MAP (i : Nat) : Nat := 0x70300 + 0x4 * i
/-- CHS_CE (R245). -/
def CHS_CE (i : Nat) : Nat := 0x70400 + 0x8 * i
/-- CHS_UE (R245). -/
def CHS_UE (i : Nat) : Nat := 0x70404 + 0x8 * i
/-- CHS_LINK (R245). -/
def CHS_LINK (i : Nat) : Nat := 0x70500 + 0x4 * i
/-- CHS_UE_FIRST_LO (R245). -/
def CHS_UE_FIRST_LO : Nat := 0x70600
/-- CHS_UE_FIRST_HI (R245). -/
def CHS_UE_FIRST_HI : Nat := 0x70604
/-- HIF_ID (R255). -/
def HIF_ID : Nat := 0x0
/-- HIF_FN_CTRL (R255). -/
def HIF_FN_CTRL : Nat := 0x10
/-- HIF_DB_BASE_LO (R255). -/
def HIF_DB_BASE_LO : Nat := 0x14
/-- HIF_DB_BASE_HI (R255). -/
def HIF_DB_BASE_HI : Nat := 0x18
/-- HIF_ADMIN_DESC_LO (R255). -/
def HIF_ADMIN_DESC_LO : Nat := 0x1C
/-- HIF_ADMIN_DESC_HI (R255). -/
def HIF_ADMIN_DESC_HI : Nat := 0x20
/-- HIF_ADMIN_CPL_LO (R255). -/
def HIF_ADMIN_CPL_LO : Nat := 0x24
/-- HIF_ADMIN_CPL_HI (R255). -/
def HIF_ADMIN_CPL_HI : Nat := 0x28
/-- HIF_ADMIN_CFG (R255). -/
def HIF_ADMIN_CFG : Nat := 0x2C
/-- HIF_POLL_INTERVAL (R255). -/
def HIF_POLL_INTERVAL : Nat := 0x30
/-- HIF_STATUS (R255). -/
def HIF_STATUS : Nat := 0x34
/-- HIF_ERR_COUNT (R255). -/
def HIF_ERR_COUNT : Nat := 0x38
/-- HIF_RING_ERR (R255). -/
def HIF_RING_ERR : Nat := 0x3C
/-- HIF_FN_INFO (R255). -/
def HIF_FN_INFO : Nat := 0x40
/-- HIF_BAR2_BASE_LO (R255). -/
def HIF_BAR2_BASE_LO : Nat := 0x44
/-- HIF_BAR2_BASE_HI (R255). -/
def HIF_BAR2_BASE_HI : Nat := 0x48
/-- HIF_PORT_STATUS (R255). -/
def HIF_PORT_STATUS (i : Nat) : Nat := 0x100 + 0x10 * i
/-- LTN_CFG (R322). -/
def LTN_CFG : Nat := 0x80000
/-- LTN_PORT_EN (R322). -/
def LTN_PORT_EN (i : Nat) : Nat := 0x80010 + 0x4 * i
/-- LTN_PORT_CTRL (R322). -/
def LTN_PORT_CTRL (i : Nat) : Nat := 0x81000 + 0x40 * i
/-- LTN_PORT_STATUS (R322). -/
def LTN_PORT_STATUS (i : Nat) : Nat := 0x81004 + 0x40 * i
/-- LTN_PORT_PEER (R322). -/
def LTN_PORT_PEER (i : Nat) : Nat := 0x81008 + 0x40 * i
/-- LTN_PORT_TX_LO (R322). -/
def LTN_PORT_TX_LO (i : Nat) : Nat := 0x8100C + 0x40 * i
/-- LTN_PORT_TX_HI (R322). -/
def LTN_PORT_TX_HI (i : Nat) : Nat := 0x81010 + 0x40 * i
/-- LTN_PORT_RX_LO (R322). -/
def LTN_PORT_RX_LO (i : Nat) : Nat := 0x81014 + 0x40 * i
/-- LTN_PORT_RX_HI (R322). -/
def LTN_PORT_RX_HI (i : Nat) : Nat := 0x81018 + 0x40 * i
/-- LTN_PORT_CRC (R322). -/
def LTN_PORT_CRC (i : Nat) : Nat := 0x8101C + 0x40 * i
/-- LTN_PORT_REPLAY (R322). -/
def LTN_PORT_REPLAY (i : Nat) : Nat := 0x81020 + 0x40 * i
/-- LTN_PORT_EVENTS (R322). -/
def LTN_PORT_EVENTS (i : Nat) : Nat := 0x81024 + 0x40 * i
/-- LTN_PORT_LOST (R322). -/
def LTN_PORT_LOST (i : Nat) : Nat := 0x81028 + 0x40 * i
/-- LTN_PORT_STALL (R322). -/
def LTN_PORT_STALL (i : Nat) : Nat := 0x8102C + 0x40 * i
/-- LTN_PORT_DOWN (R322). -/
def LTN_PORT_DOWN (i : Nat) : Nat := 0x81030 + 0x40 * i
/-- LTN_ENG_STATUS (R322). -/
def LTN_ENG_STATUS (i : Nat) : Nat := 0x84000 + 0x20 * i
/-- LTN_ENG_LASER_LO (R322). -/
def LTN_ENG_LASER_LO (i : Nat) : Nat := 0x84004 + 0x20 * i
/-- LTN_ENG_LASER_HI (R322). -/
def LTN_ENG_LASER_HI (i : Nat) : Nat := 0x84008 + 0x20 * i
/-- LTN_ENG_RING (R322). -/
def LTN_ENG_RING (i : Nat) : Nat := 0x8400C + 0x20 * i
/-- PST_CFG (R351). -/
def PST_CFG : Nat := 0x90000
/-- PST_PORT_INFO (R351). -/
def PST_PORT_INFO (i : Nat) : Nat := 0x91000 + 0x10 * i
/-- PST_PORT_CTRL (R351). -/
def PST_PORT_CTRL (i : Nat) : Nat := 0x91004 + 0x10 * i
/-- PST_PORT_COUNT (R351). -/
def PST_PORT_COUNT (i : Nat) : Nat := 0x91008 + 0x10 * i
/-- PST_PAIR_CTRL (R351). -/
def PST_PAIR_CTRL : Nat := 0x90100
/-- PST_PAIR_STATUS (R351). -/
def PST_PAIR_STATUS : Nat := 0x90104
/-- PST_PAIR_RINGS (R351). -/
def PST_PAIR_RINGS : Nat := 0x90108
/-- PST_PAIR_MIRROR_LO (R351). -/
def PST_PAIR_MIRROR_LO : Nat := 0x9010C
/-- PST_PAIR_MIRROR_HI (R351). -/
def PST_PAIR_MIRROR_HI : Nat := 0x90110
/-- PST_PAIR_MIRROR_LEN (R351). -/
def PST_PAIR_MIRROR_LEN : Nat := 0x90114
/-- PST_PAIR_COUNTS (R351). -/
def PST_PAIR_COUNTS : Nat := 0x90118
/-- PST_PAIR_DIRTY (R351). -/
def PST_PAIR_DIRTY : Nat := 0x9011C
/-- BRU_STRAPS (R370). -/
def BRU_STRAPS : Nat := 0x40800
/-- BRU_DIE_STRAP (R370). -/
def BRU_DIE_STRAP (i : Nat) : Nat := 0x40900 + 0x4 * i
/-- BRU_IDLE_LO (R412). -/
def BRU_IDLE_LO : Nat := 0x40A00
/-- BRU_IDLE_HI (R412). -/
def BRU_IDLE_HI : Nat := 0x40A04
/-- BRU_IDLE_GEN (R412). -/
def BRU_IDLE_GEN : Nat := 0x40A08
/-- BRU_STEP (R431). -/
def BRU_STEP : Nat := 0x40000
/-- BRU_STATUS (R431). -/
def BRU_STATUS : Nat := 0x40004
/-- BRU_FAIL_DETAIL (R431). -/
def BRU_FAIL_DETAIL : Nat := 0x40008
/-- BRU_CFG (R431). -/
def BRU_CFG : Nat := 0x4000C
/-- BRU_ELAPSED (R431). -/
def BRU_ELAPSED : Nat := 0x40010
/-- BRU_DEADLINE (R431). -/
def BRU_DEADLINE : Nat := 0x40014
/-- BRU_SAVED (R431). -/
def BRU_SAVED : Nat := 0x40018
/-- BRU_FW (R431). -/
def BRU_FW : Nat := 0x4001C
/-- BRU_FW_VERSION (R431). -/
def BRU_FW_VERSION : Nat := 0x40020
/-- PWR_CFG (R383). -/
def PWR_CFG : Nat := 0x30000
/-- PWR_CTRL (R383). -/
def PWR_CTRL : Nat := 0x30004
/-- PWR_STATUS (R383). -/
def PWR_STATUS : Nat := 0x30008
/-- PWR_INPUT (R383). -/
def PWR_INPUT : Nat := 0x3000C
/-- PWR_POWER (R383). -/
def PWR_POWER : Nat := 0x30010
/-- PWR_BALLAST (R383). -/
def PWR_BALLAST : Nat := 0x30014
/-- PWR_THERMAL (R383). -/
def PWR_THERMAL : Nat := 0x30018
/-- PWR_SLOT_GRADE_LO (R383). -/
def PWR_SLOT_GRADE_LO : Nat := 0x30020
/-- PWR_SLOT_GRADE_HI (R383). -/
def PWR_SLOT_GRADE_HI : Nat := 0x30024
/-- PWR_SKIP_SEL (R383). -/
def PWR_SKIP_SEL : Nat := 0x30030
/-- PWR_SKIP_LO (R383). -/
def PWR_SKIP_LO : Nat := 0x30034
/-- PWR_SKIP_HI (R383). -/
def PWR_SKIP_HI : Nat := 0x30038
/-- PWR_COUNTS (R383). -/
def PWR_COUNTS : Nat := 0x3003C
/-- RST_CTRL (R412). -/
def RST_CTRL : Nat := 0x10000
/-- RST_BLOCK_MASK_LO (R412). -/
def RST_BLOCK_MASK_LO : Nat := 0x10010
/-- RST_BLOCK_MASK_HI (R412). -/
def RST_BLOCK_MASK_HI : Nat := 0x10014
/-- RST_BLOCK_CMD (R412). -/
def RST_BLOCK_CMD : Nat := 0x10018
/-- RST_BLOCK_STATUS (R412). -/
def RST_BLOCK_STATUS : Nat := 0x1001C
/-- RST_CAUSE (R412). -/
def RST_CAUSE : Nat := 0x10020
/-- RST_CAUSE_MS_LO (R412). -/
def RST_CAUSE_MS_LO : Nat := 0x10024
/-- RST_CAUSE_MS_HI (R412). -/
def RST_CAUSE_MS_HI : Nat := 0x10028
/-- RST_FAILED_STARTS (R412). -/
def RST_FAILED_STARTS : Nat := 0x10030
/-- LIC_SERIAL_LO (R432). -/
def LIC_SERIAL_LO : Nat := 0x60000
/-- LIC_SERIAL_HI (R432). -/
def LIC_SERIAL_HI : Nat := 0x60004
/-- LIC_KEYS (R432). -/
def LIC_KEYS : Nat := 0x60008
/-- LIC_FLOOR (R432). -/
def LIC_FLOOR : Nat := 0x6000C
/-- LIC_ENABLED (R432). -/
def LIC_ENABLED : Nat := 0x60010
/-- LIC_SLOT_STATUS (R432). -/
def LIC_SLOT_STATUS : Nat := 0x60014
/-- LIC_CMD (R432). -/
def LIC_CMD : Nat := 0x60018
/-- LIC_CMD_STATUS (R432). -/
def LIC_CMD_STATUS : Nat := 0x6001C
/-- LIC_BUF (R432). -/
def LIC_BUF (i : Nat) : Nat := 0x60100 + 0x4 * i
/-- FUS_EXCL_LO (R451). -/
def FUS_EXCL_LO : Nat := 0x50000
/-- FUS_EXCL_HI (R451). -/
def FUS_EXCL_HI : Nat := 0x50004
/-- FUS_EXCL_GEN (R451). -/
def FUS_EXCL_GEN : Nat := 0x50008
/-- FUS_CMD (R451). -/
def FUS_CMD : Nat := 0x50010
/-- FUS_REC_LO (R451). -/
def FUS_REC_LO : Nat := 0x50014
/-- FUS_REC_HI (R451). -/
def FUS_REC_HI : Nat := 0x50018
/-- FUS_CMD_STATUS (R451). -/
def FUS_CMD_STATUS : Nat := 0x5001C
/-- FUS_DIE (R451). -/
def FUS_DIE (i : Nat) : Nat := 0x50100 + 0x4 * i
/-- FUS_DIE_SPARE (R451). -/
def FUS_DIE_SPARE (i : Nat) : Nat := 0x50200 + 0x4 * i
/-- FUS_WHL_CFG (R474). -/
def FUS_WHL_CFG : Nat := 0x50400
/-- FUS_WHL_STATUS (R474). -/
def FUS_WHL_STATUS : Nat := 0x50404
/-- FUS_WHL_COUNTS (R474). -/
def FUS_WHL_COUNTS : Nat := 0x50408
/-- FUS_SUSPECT (R474). -/
def FUS_SUSPECT : Nat := 0x5040C
/-- EVT_CFG (R463). -/
def EVT_CFG : Nat := 0xA0000
/-- EVT_IRQ_MASK (R463). -/
def EVT_IRQ_MASK : Nat := 0xA0004
/-- EVT_HEAD (R463). -/
def EVT_HEAD : Nat := 0xA0008
/-- EVT_COUNTS (R463). -/
def EVT_COUNTS : Nat := 0xA000C
/-- EVT_SEL (R463). -/
def EVT_SEL : Nat := 0xA0010
/-- EVT_POISON (R463). -/
def EVT_POISON : Nat := 0xA0018
/-- EVT_REC (R463). -/
def EVT_REC (i : Nat) : Nat := 0xA0100 + 0x4 * i
/-- MAN_CTRL (R491). -/
def MAN_CTRL : Nat := 0xB0000
/-- MAN_TARGET_LO (R491). -/
def MAN_TARGET_LO : Nat := 0xB0004
/-- MAN_TARGET_HI (R491). -/
def MAN_TARGET_HI : Nat := 0xB0008
/-- MAN_STATUS (R491). -/
def MAN_STATUS : Nat := 0xB000C
/-- WAY_CTRL (R495). -/
def WAY_CTRL : Nat := 0xC0000
/-- WAY_DEPTH (R495). -/
def WAY_DEPTH : Nat := 0xC0004
/-- WAY_PROBE (R495). -/
def WAY_PROBE (i : Nat) : Nat := 0xC0010 + 0x4 * i
/-- WAY_TRIG (R495). -/
def WAY_TRIG : Nat := 0xC0030
/-- WAY_TRIG_MASK (R495). -/
def WAY_TRIG_MASK : Nat := 0xC0034
/-- WAY_TRIG_VALUE (R495). -/
def WAY_TRIG_VALUE : Nat := 0xC0038
/-- WAY_TRIG_MS_LO (R495). -/
def WAY_TRIG_MS_LO : Nat := 0xC003C
/-- WAY_TRIG_MS_HI (R495). -/
def WAY_TRIG_MS_HI : Nat := 0xC0040
/-- WAY_DEST_LO (R495). -/
def WAY_DEST_LO : Nat := 0xC0044
/-- WAY_DEST_HI (R495). -/
def WAY_DEST_HI : Nat := 0xC0048
/-- WAY_STATUS (R495). -/
def WAY_STATUS : Nat := 0xC004C
/-- WAY_MISSED (R495). -/
def WAY_MISSED : Nat := 0xC0050
/-- WAY_MISSED_MS_LO (R495). -/
def WAY_MISSED_MS_LO : Nat := 0xC0054
/-- WAY_MISSED_MS_HI (R495). -/
def WAY_MISSED_MS_HI : Nat := 0xC0058
/-- WAY_TRIG_HIT_LO (R495). -/
def WAY_TRIG_HIT_LO : Nat := 0xC005C
/-- WAY_TRIG_HIT_HI (R495). -/
def WAY_TRIG_HIT_HI : Nat := 0xC0060
/-- WAY_COUNTS (R495). -/
def WAY_COUNTS : Nat := 0xC0064

end Reg

/-- The FAB block. -/
def regsFab : List RegSpec := [
  -- FAB_VIEW_CTRL
  ⟨0x408000, 0x20000, 64, 0x4, 1, 0x0, 0, [⟨0, 10, .rw⟩, ⟨12, 1, .rw⟩, ⟨31, 1, .wo⟩]⟩,
  -- FAB_VIEW_TARGET_LO
  ⟨0x408004, 0x20000, 64, 0x4, 1, 0x0, 1, [⟨0, 32, .rw⟩]⟩,
  -- FAB_VIEW_TARGET_HI
  ⟨0x408008, 0x20000, 64, 0x4, 1, 0x0, 0, [⟨0, 32, .rw⟩]⟩,
  -- FAB_VIEW_STATUS
  ⟨0x40800C, 0x20000, 64, 0x4, 1, 0x0, 0, [⟨0, 1, .ro⟩, ⟨1, 1, .w1c⟩, ⟨2, 1, .ro⟩, ⟨3, 1, .w1c⟩]⟩,
  -- FAB_VIEW_OCC_LO
  ⟨0x408010, 0x20000, 64, 0x4, 1, 0x0, 0, [⟨0, 5, .ro⟩, ⟨5, 5, .ro⟩, ⟨10, 5, .ro⟩, ⟨15, 5, .ro⟩, ⟨20, 6, .ro⟩, ⟨26, 6, .ro⟩]⟩,
  -- FAB_VIEW_OCC_HI
  ⟨0x408014, 0x20000, 64, 0x4, 1, 0x0, 0, [⟨0, 6, .ro⟩, ⟨6, 6, .ro⟩, ⟨12, 4, .ro⟩, ⟨16, 4, .ro⟩, ⟨20, 4, .ro⟩, ⟨24, 4, .ro⟩]⟩,
  -- FAB_VIEW_BEAT_LO
  ⟨0x408018, 0x20000, 64, 0x4, 1, 0x0, 1, [⟨0, 32, .ro⟩]⟩,
  -- FAB_VIEW_BEAT_HI
  ⟨0x40801C, 0x20000, 64, 0x4, 1, 0x0, 0, [⟨0, 32, .ro⟩]⟩,
  -- FAB_VIEW_MS_LO
  ⟨0x408020, 0x20000, 64, 0x4, 1, 0x0, 1, [⟨0, 32, .ro⟩]⟩,
  -- FAB_VIEW_MS_HI
  ⟨0x408024, 0x20000, 64, 0x4, 1, 0x0, 0, [⟨0, 32, .ro⟩]⟩,
  -- FAB_VIEW_INJ
  ⟨0x408028, 0x20000, 64, 0x4, 1, 0x0, 0, [⟨0, 3, .ro⟩, ⟨3, 4, .ro⟩, ⟨7, 3, .ro⟩, ⟨10, 8, .ro⟩, ⟨18, 9, .ro⟩]⟩,
  -- FAB_DROP_COUNT
  ⟨0x408400, 0x20000, 64, 0x4, 1, 0x0, 0, [⟨0, 32, .ro⟩]⟩,
  -- FAB_INJ_DROP_COUNT
  ⟨0x408404, 0x20000, 64, 0x4, 1, 0x0, 0, [⟨0, 32, .ro⟩]⟩,
  -- FAB_DROP_FIRST
  ⟨0x408408, 0x20000, 64, 0x4, 1, 0x0, 0, [⟨0, 10, .ro⟩, ⟨10, 4, .ro⟩, ⟨14, 1, .ro⟩, ⟨15, 2, .ro⟩, ⟨17, 5, .ro⟩, ⟨31, 1, .w1c⟩]⟩,
  -- FAB_DIST_GEN
  ⟨0x40840C, 0x20000, 64, 0x4, 1, 0x0, 0, [⟨0, 32, .ro⟩]⟩,
  -- FAB_XING_STATUS
  ⟨0x408500, 0x20000, 64, 0x10, 4, 0x0, 0, [⟨0, 2, .ro⟩, ⟨2, 1, .ro⟩, ⟨3, 1, .ro⟩, ⟨4, 4, .ro⟩, ⟨8, 8, .ro⟩, ⟨16, 6, .ro⟩]⟩,
  -- FAB_XING_DRIFT
  ⟨0x408504, 0x20000, 64, 0x10, 4, 0x0, 0, [⟨0, 8, .ro⟩, ⟨8, 8, .ro⟩, ⟨16, 8, .ro⟩]⟩,
  -- FAB_XING_COUNT
  ⟨0x408508, 0x20000, 64, 0x10, 4, 0x0, 0, [⟨0, 16, .ro⟩, ⟨16, 16, .ro⟩]⟩,
  -- FAB_XING_CLEAR
  ⟨0x40850C, 0x20000, 64, 0x10, 4, 0x0, 0, [⟨0, 1, .wo⟩, ⟨1, 1, .wo⟩]⟩]

/-- The CLK block. -/
def regsClk : List RegSpec := [
  -- CLK_TG_PERIOD
  ⟨0x20100, 0x4, 1, 0x4, 1, 0x10, 0, [⟨0, 5, .rw⟩]⟩,
  -- CLK_TG_STATUS
  ⟨0x20104, 0x4, 1, 0x4, 1, 0x0, 0, [⟨0, 8, .ro⟩, ⟨8, 1, .ro⟩, ⟨9, 1, .ro⟩, ⟨10, 10, .ro⟩, ⟨20, 10, .ro⟩]⟩,
  -- CLK_TG_RELEASE_LO
  ⟨0x20108, 0x4, 1, 0x4, 1, 0x0, 1, [⟨0, 32, .ro⟩]⟩,
  -- CLK_TG_RELEASE_HI
  ⟨0x2010C, 0x4, 1, 0x4, 1, 0x0, 0, [⟨0, 32, .ro⟩]⟩,
  -- CLK_TG_COUNTS
  ⟨0x20110, 0x4, 1, 0x4, 1, 0x0, 0, [⟨0, 16, .ro⟩, ⟨16, 16, .ro⟩]⟩,
  -- CLK_TG_STALL
  ⟨0x20114, 0x4, 1, 0x4, 1, 0x0, 0, [⟨0, 20, .ro⟩, ⟨20, 8, .ro⟩, ⟨31, 1, .w1c⟩]⟩,
  -- CLK_CFG
  ⟨0x20000, 0x4, 1, 0x4, 1, 0x5, 0, [⟨0, 1, .rw⟩, ⟨1, 1, .rwl⟩, ⟨2, 1, .rw⟩]⟩,
  -- CLK_STATUS
  ⟨0x20004, 0x4, 1, 0x4, 1, 0x0, 0, [⟨0, 2, .ro⟩, ⟨2, 2, .ro⟩, ⟨4, 2, .ro⟩, ⟨6, 2, .ro⟩, ⟨8, 2, .ro⟩, ⟨10, 1, .ro⟩, ⟨11, 1, .ro⟩, ⟨12, 1, .ro⟩]⟩,
  -- CLK_PPM
  ⟨0x20008, 0x4, 1, 0x4, 1, 0x0, 0, [⟨0, 10, .ro⟩, ⟨10, 10, .ro⟩, ⟨20, 10, .ro⟩]⟩,
  -- CLK_MS_LO
  ⟨0x2000C, 0x4, 1, 0x4, 1, 0x0, 1, [⟨0, 32, .ro⟩]⟩,
  -- CLK_MS_HI
  ⟨0x20010, 0x4, 1, 0x4, 1, 0x0, 0, [⟨0, 32, .ro⟩]⟩,
  -- CLK_MS_ERR
  ⟨0x20014, 0x4, 1, 0x4, 1, 0x0, 0, [⟨0, 8, .ro⟩, ⟨8, 6, .ro⟩]⟩,
  -- CLK_COUNTS
  ⟨0x20018, 0x4, 1, 0x4, 1, 0x0, 0, [⟨0, 8, .ro⟩, ⟨8, 8, .ro⟩, ⟨16, 8, .ro⟩, ⟨24, 8, .ro⟩]⟩,
  -- CLK_INFO
  ⟨0x2001C, 0x4, 1, 0x4, 1, 0x3CE, 0, [⟨0, 16, .ro⟩]⟩]

/-- The DBG block. -/
def regsDbg : List RegSpec := [
  -- DBG_SEL
  ⟨0xD0000, 0x4, 1, 0x4, 1, 0x0, 0, [⟨0, 16, .rw⟩, ⟨16, 6, .rw⟩, ⟨31, 1, .wo⟩]⟩,
  -- DBG_STATUS
  ⟨0xD0004, 0x4, 1, 0x4, 1, 0x0, 0, [⟨0, 1, .ro⟩, ⟨1, 1, .w1c⟩, ⟨2, 1, .ro⟩]⟩,
  -- DBG_COUNT
  ⟨0xD0008, 0x4, 1, 0x4, 1, 0x0, 0, [⟨0, 32, .ro⟩]⟩,
  -- DBG_THRESH
  ⟨0xD000C, 0x4, 1, 0x4, 1, 0x0, 0, [⟨0, 32, .ro⟩]⟩,
  -- DBG_SIG_TOTAL
  ⟨0xD0010, 0x4, 1, 0x4, 1, 0x0, 0, [⟨0, 32, .ro⟩]⟩,
  -- DBG_WAITERS
  ⟨0xD0014, 0x4, 1, 0x4, 1, 0x0, 0, [⟨0, 16, .ro⟩, ⟨16, 1, .ro⟩, ⟨17, 8, .ro⟩]⟩,
  -- DBG_PATHS
  ⟨0xD0018, 0x4, 1, 0x4, 1, 0x0, 0, [⟨0, 24, .ro⟩]⟩,
  -- DBG_LAST
  ⟨0xD001C, 0x4, 1, 0x4, 1, 0x0, 0, [⟨0, 20, .ro⟩, ⟨31, 1, .ro⟩]⟩,
  -- DBG_LAST_MS
  ⟨0xD0020, 0x4, 1, 0x4, 1, 0x0, 0, [⟨0, 24, .ro⟩]⟩,
  -- DBG_TOLL
  ⟨0xD0024, 0x4, 1, 0x4, 1, 0x0, 0, [⟨0, 8, .ro⟩, ⟨8, 1, .ro⟩, ⟨9, 8, .ro⟩, ⟨17, 1, .ro⟩, ⟨18, 1, .ro⟩]⟩,
  -- DBG_BEAT_LO
  ⟨0xD0028, 0x4, 1, 0x4, 1, 0x0, 1, [⟨0, 32, .ro⟩]⟩,
  -- DBG_BEAT_HI
  ⟨0xD002C, 0x4, 1, 0x4, 1, 0x0, 0, [⟨0, 32, .ro⟩]⟩,
  -- DBG_MS_LO
  ⟨0xD0030, 0x4, 1, 0x4, 1, 0x0, 1, [⟨0, 32, .ro⟩]⟩,
  -- DBG_MS_HI
  ⟨0xD0034, 0x4, 1, 0x4, 1, 0x0, 0, [⟨0, 32, .ro⟩]⟩]

/-- The STR block. -/
def regsStr : List RegSpec := [
  -- STR_UNDERRUN_0
  ⟨0x413000, 0x20000, 64, 0x4, 64, 0x0, 0, [⟨0, 32, .ro⟩]⟩,
  -- STR_UNDERRUN_1
  ⟨0x413100, 0x20000, 64, 0x4, 64, 0x0, 0, [⟨0, 32, .ro⟩]⟩,
  -- STR_UNDERRUN_2
  ⟨0x413200, 0x20000, 64, 0x4, 64, 0x0, 0, [⟨0, 32, .ro⟩]⟩,
  -- STR_UNDERRUN_3
  ⟨0x413300, 0x20000, 64, 0x4, 64, 0x0, 0, [⟨0, 32, .ro⟩]⟩]

/-- The CHS block. -/
def regsChs : List RegSpec := [
  -- CHS_CFG
  ⟨0x70000, 0x4, 1, 0x4, 1, 0x12000, 0, [⟨0, 7, .rwl⟩, ⟨8, 6, .rwl⟩, ⟨16, 1, .rw⟩]⟩,
  -- CHS_STATUS
  ⟨0x70004, 0x4, 1, 0x4, 1, 0x0, 0, [⟨0, 6, .ro⟩, ⟨8, 6, .ro⟩, ⟨16, 1, .ro⟩, ⟨17, 1, .ro⟩, ⟨18, 1, .ro⟩]⟩,
  -- CHS_WARM_DISCARD
  ⟨0x70008, 0x4, 1, 0x4, 1, 0x0, 0, [⟨0, 32, .ro⟩]⟩,
  -- CHS_STACK
  ⟨0x70100, 0x4, 32, 0x4, 1, 0x0, 0, [⟨0, 3, .ro⟩, ⟨4, 8, .ro⟩, ⟨12, 5, .ro⟩, ⟨17, 1, .ro⟩, ⟨18, 6, .ro⟩]⟩,
  -- CHS_SPREAD_MAP
  ⟨0x70200, 0x4, 8, 0x4, 1, 0xFFFFFFFF, 0, [⟨0, 8, .ro⟩, ⟨8, 8, .ro⟩, ⟨16, 8, .ro⟩, ⟨24, 8, .ro⟩]⟩,
  -- CHS_NEAR_MAP
  ⟨0x70300, 0x4, 16, 0x4, 1, 0xFFFFFFFF, 0, [⟨0, 8, .ro⟩, ⟨8, 8, .ro⟩, ⟨16, 8, .ro⟩, ⟨24, 8, .ro⟩]⟩,
  -- CHS_CE
  ⟨0x70400, 0x8, 32, 0x4, 1, 0x0, 0, [⟨0, 32, .ro⟩]⟩,
  -- CHS_UE
  ⟨0x70404, 0x8, 32, 0x4, 1, 0x0, 0, [⟨0, 32, .ro⟩]⟩,
  -- CHS_LINK
  ⟨0x70500, 0x4, 32, 0x4, 1, 0x0, 0, [⟨0, 16, .ro⟩, ⟨16, 8, .ro⟩]⟩,
  -- CHS_UE_FIRST_LO
  ⟨0x70600, 0x4, 1, 0x4, 1, 0x0, 1, [⟨0, 32, .ro⟩]⟩,
  -- CHS_UE_FIRST_HI
  ⟨0x70604, 0x4, 1, 0x4, 1, 0x0, 0, [⟨0, 9, .ro⟩, ⟨9, 5, .ro⟩, ⟨31, 1, .w1c⟩]⟩]

/-- The HIF block. -/
def regsHif : List RegSpec := [
  -- HIF_ID
  ⟨0x0, 0x4, 1, 0x4, 1, 0x10D64, 0, [⟨0, 16, .ro⟩, ⟨16, 8, .ro⟩]⟩,
  -- HIF_FN_CTRL
  ⟨0x10, 0x4, 1, 0x4, 1, 0x0, 0, [⟨0, 1, .rw⟩, ⟨1, 1, .rw⟩, ⟨2, 1, .rw⟩]⟩,
  -- HIF_DB_BASE_LO
  ⟨0x14, 0x4, 1, 0x4, 1, 0x0, 1, [⟨12, 20, .rw⟩]⟩,
  -- HIF_DB_BASE_HI
  ⟨0x18, 0x4, 1, 0x4, 1, 0x0, 0, [⟨0, 32, .rw⟩]⟩,
  -- HIF_ADMIN_DESC_LO
  ⟨0x1C, 0x4, 1, 0x4, 1, 0x0, 1, [⟨12, 20, .rw⟩]⟩,
  -- HIF_ADMIN_DESC_HI
  ⟨0x20, 0x4, 1, 0x4, 1, 0x0, 0, [⟨0, 32, .rw⟩]⟩,
  -- HIF_ADMIN_CPL_LO
  ⟨0x24, 0x4, 1, 0x4, 1, 0x0, 1, [⟨12, 20, .rw⟩]⟩,
  -- HIF_ADMIN_CPL_HI
  ⟨0x28, 0x4, 1, 0x4, 1, 0x0, 0, [⟨0, 32, .rw⟩]⟩,
  -- HIF_ADMIN_CFG
  ⟨0x2C, 0x4, 1, 0x4, 1, 0x4, 0, [⟨0, 5, .rw⟩, ⟨5, 1, .rw⟩, ⟨6, 5, .rw⟩]⟩,
  -- HIF_POLL_INTERVAL
  ⟨0x30, 0x4, 1, 0x4, 1, 0x4, 0, [⟨0, 12, .rw⟩]⟩,
  -- HIF_STATUS
  ⟨0x34, 0x4, 1, 0x4, 1, 0x0, 0, [⟨0, 1, .ro⟩, ⟨1, 1, .w1c⟩, ⟨2, 1, .w1c⟩]⟩,
  -- HIF_ERR_COUNT
  ⟨0x38, 0x4, 1, 0x4, 1, 0x0, 0, [⟨0, 16, .ro⟩, ⟨16, 16, .ro⟩]⟩,
  -- HIF_RING_ERR
  ⟨0x3C, 0x4, 1, 0x4, 1, 0x0, 0, [⟨0, 16, .ro⟩, ⟨16, 8, .ro⟩, ⟨31, 1, .w1c⟩]⟩,
  -- HIF_FN_INFO
  ⟨0x40, 0x4, 1, 0x4, 1, 0xFFFFFF00, 0, [⟨0, 6, .rf⟩, ⟨8, 8, .ro⟩, ⟨16, 16, .ro⟩]⟩,
  -- HIF_BAR2_BASE_LO
  ⟨0x44, 0x4, 1, 0x4, 1, 0x0, 1, [⟨0, 32, .ro⟩]⟩,
  -- HIF_BAR2_BASE_HI
  ⟨0x48, 0x4, 1, 0x4, 1, 0x0, 0, [⟨0, 32, .ro⟩]⟩,
  -- HIF_PORT_STATUS
  ⟨0x100, 0x10, 2, 0x4, 1, 0x0, 0, [⟨0, 4, .ro⟩, ⟨4, 6, .ro⟩, ⟨10, 1, .ro⟩, ⟨11, 1, .ro⟩, ⟨12, 1, .ro⟩]⟩]

/-- The LTN block. -/
def regsLtn : List RegSpec := [
  -- LTN_CFG
  ⟨0x80000, 0x4, 1, 0x4, 1, 0x3, 0, [⟨0, 1, .rw⟩, ⟨1, 1, .rw⟩]⟩,
  -- LTN_PORT_EN
  ⟨0x80010, 0x4, 4, 0x4, 1, 0x0, 0, [⟨0, 32, .ro⟩]⟩,
  -- LTN_PORT_CTRL
  ⟨0x81000, 0x40, 128, 0x4, 1, 0x0, 0, [⟨0, 1, .rw⟩, ⟨1, 2, .rw⟩, ⟨3, 1, .wo⟩, ⟨4, 1, .wo⟩]⟩,
  -- LTN_PORT_STATUS
  ⟨0x81004, 0x40, 128, 0x4, 1, 0x0, 0, [⟨0, 4, .ro⟩, ⟨4, 4, .ro⟩, ⟨8, 8, .ro⟩, ⟨16, 8, .ro⟩, ⟨24, 8, .ro⟩]⟩,
  -- LTN_PORT_PEER
  ⟨0x81008, 0x40, 128, 0x4, 1, 0x0, 0, [⟨0, 10, .ro⟩, ⟨10, 7, .ro⟩, ⟨17, 1, .ro⟩]⟩,
  -- LTN_PORT_TX_LO
  ⟨0x8100C, 0x40, 128, 0x4, 1, 0x0, 1, [⟨0, 32, .ro⟩]⟩,
  -- LTN_PORT_TX_HI
  ⟨0x81010, 0x40, 128, 0x4, 1, 0x0, 0, [⟨0, 32, .ro⟩]⟩,
  -- LTN_PORT_RX_LO
  ⟨0x81014, 0x40, 128, 0x4, 1, 0x0, 1, [⟨0, 32, .ro⟩]⟩,
  -- LTN_PORT_RX_HI
  ⟨0x81018, 0x40, 128, 0x4, 1, 0x0, 0, [⟨0, 32, .ro⟩]⟩,
  -- LTN_PORT_CRC
  ⟨0x8101C, 0x40, 128, 0x4, 1, 0x0, 0, [⟨0, 32, .ro⟩]⟩,
  -- LTN_PORT_REPLAY
  ⟨0x81020, 0x40, 128, 0x4, 1, 0x0, 0, [⟨0, 16, .ro⟩, ⟨16, 16, .ro⟩]⟩,
  -- LTN_PORT_EVENTS
  ⟨0x81024, 0x40, 128, 0x4, 1, 0x0, 0, [⟨0, 8, .ro⟩, ⟨8, 8, .ro⟩, ⟨16, 8, .ro⟩, ⟨24, 8, .ro⟩]⟩,
  -- LTN_PORT_LOST
  ⟨0x81028, 0x40, 128, 0x4, 1, 0x0, 0, [⟨0, 32, .ro⟩]⟩,
  -- LTN_PORT_STALL
  ⟨0x8102C, 0x40, 128, 0x4, 1, 0x0, 0, [⟨0, 32, .ro⟩]⟩,
  -- LTN_PORT_DOWN
  ⟨0x81030, 0x40, 128, 0x4, 1, 0x0, 0, [⟨0, 4, .ro⟩]⟩,
  -- LTN_ENG_STATUS
  ⟨0x84000, 0x20, 64, 0x4, 1, 0x0, 0, [⟨0, 8, .ro⟩, ⟨8, 2, .ro⟩, ⟨10, 1, .ro⟩, ⟨16, 8, .ro⟩, ⟨24, 8, .ro⟩]⟩,
  -- LTN_ENG_LASER_LO
  ⟨0x84004, 0x20, 64, 0x4, 1, 0x0, 0, [⟨0, 8, .ro⟩, ⟨8, 8, .ro⟩, ⟨16, 8, .ro⟩, ⟨24, 8, .ro⟩]⟩,
  -- LTN_ENG_LASER_HI
  ⟨0x84008, 0x20, 64, 0x4, 1, 0x0, 0, [⟨0, 8, .ro⟩, ⟨8, 8, .ro⟩, ⟨16, 8, .ro⟩, ⟨24, 8, .ro⟩]⟩,
  -- LTN_ENG_RING
  ⟨0x8400C, 0x20, 64, 0x4, 1, 0x0, 0, [⟨0, 16, .ro⟩, ⟨16, 8, .ro⟩, ⟨24, 8, .ro⟩]⟩]

/-- The PST block. -/
def regsPst : List RegSpec := [
  -- PST_CFG
  ⟨0x90000, 0x4, 1, 0x4, 1, 0x640064, 0, [⟨0, 16, .rw⟩, ⟨16, 16, .rw⟩]⟩,
  -- PST_PORT_INFO
  ⟨0x91000, 0x10, 128, 0x4, 1, 0x0, 0, [⟨0, 2, .ro⟩, ⟨2, 12, .ro⟩, ⟨14, 1, .ro⟩, ⟨15, 1, .ro⟩]⟩,
  -- PST_PORT_CTRL
  ⟨0x91004, 0x10, 128, 0x4, 1, 0x0, 0, [⟨0, 1, .rw⟩]⟩,
  -- PST_PORT_COUNT
  ⟨0x91008, 0x10, 128, 0x4, 1, 0x0, 0, [⟨0, 11, .ro⟩, ⟨16, 16, .ro⟩]⟩,
  -- PST_PAIR_CTRL
  ⟨0x90100, 0x4, 1, 0x4, 1, 0x0, 0, [⟨0, 1, .rw⟩, ⟨1, 10, .rw⟩]⟩,
  -- PST_PAIR_STATUS
  ⟨0x90104, 0x4, 1, 0x4, 1, 0x0, 0, [⟨0, 4, .ro⟩, ⟨4, 1, .ro⟩, ⟨5, 10, .ro⟩, ⟨15, 4, .ro⟩]⟩,
  -- PST_PAIR_RINGS
  ⟨0x90108, 0x4, 1, 0x4, 1, 0x0, 0, [⟨0, 10, .rw⟩, ⟨10, 11, .rw⟩]⟩,
  -- PST_PAIR_MIRROR_LO
  ⟨0x9010C, 0x4, 1, 0x4, 1, 0x0, 1, [⟨0, 32, .rw⟩]⟩,
  -- PST_PAIR_MIRROR_HI
  ⟨0x90110, 0x4, 1, 0x4, 1, 0x0, 0, [⟨0, 32, .rw⟩]⟩,
  -- PST_PAIR_MIRROR_LEN
  ⟨0x90114, 0x4, 1, 0x4, 1, 0x0, 0, [⟨0, 29, .rw⟩]⟩,
  -- PST_PAIR_COUNTS
  ⟨0x90118, 0x4, 1, 0x4, 1, 0x0, 0, [⟨0, 8, .ro⟩, ⟨8, 8, .ro⟩, ⟨16, 8, .ro⟩]⟩,
  -- PST_PAIR_DIRTY
  ⟨0x9011C, 0x4, 1, 0x4, 1, 0x0, 0, [⟨0, 29, .ro⟩]⟩]

/-- The BRU block. -/
def regsBru : List RegSpec := [
  -- BRU_STRAPS
  ⟨0x40800, 0x4, 1, 0x4, 1, 0x0, 0, [⟨0, 10, .ro⟩, ⟨10, 6, .ro⟩, ⟨16, 2, .ro⟩, ⟨18, 1, .ro⟩, ⟨19, 1, .ro⟩, ⟨20, 1, .ro⟩, ⟨21, 1, .ro⟩]⟩,
  -- BRU_DIE_STRAP
  ⟨0x40900, 0x4, 64, 0x4, 1, 0x0, 0, [⟨0, 4, .ro⟩, ⟨4, 6, .ro⟩, ⟨10, 1, .ro⟩, ⟨11, 1, .ro⟩, ⟨12, 1, .ro⟩]⟩,
  -- BRU_IDLE_LO
  ⟨0x40A00, 0x4, 1, 0x4, 1, 0x0, 2, [⟨0, 32, .ro⟩]⟩,
  -- BRU_IDLE_HI
  ⟨0x40A04, 0x4, 1, 0x4, 1, 0x0, 0, [⟨0, 32, .ro⟩]⟩,
  -- BRU_IDLE_GEN
  ⟨0x40A08, 0x4, 1, 0x4, 1, 0x0, 0, [⟨0, 16, .ro⟩]⟩,
  -- BRU_STEP
  ⟨0x40000, 0x4, 1, 0x4, 1, 0x0, 0, [⟨0, 4, .wo⟩]⟩,
  -- BRU_STATUS
  ⟨0x40004, 0x4, 1, 0x4, 1, 0x0, 0, [⟨0, 4, .ro⟩, ⟨4, 2, .ro⟩, ⟨6, 1, .w1c⟩, ⟨7, 1, .ro⟩, ⟨8, 8, .ro⟩, ⟨16, 2, .ro⟩, ⟨18, 1, .ro⟩]⟩,
  -- BRU_FAIL_DETAIL
  ⟨0x40008, 0x4, 1, 0x4, 1, 0x0, 0, [⟨0, 32, .ro⟩]⟩,
  -- BRU_CFG
  ⟨0x4000C, 0x4, 1, 0x4, 1, 0x3801, 0, [⟨0, 1, .rw⟩, ⟨8, 7, .rwl⟩]⟩,
  -- BRU_ELAPSED
  ⟨0x40010, 0x4, 1, 0x4, 1, 0x0, 0, [⟨0, 32, .ro⟩]⟩,
  -- BRU_DEADLINE
  ⟨0x40014, 0x4, 1, 0x4, 1, 0x0, 0, [⟨0, 32, .ro⟩]⟩,
  -- BRU_SAVED
  ⟨0x40018, 0x4, 1, 0x4, 1, 0x0, 0, [⟨0, 7, .ro⟩, ⟨8, 7, .ro⟩, ⟨16, 6, .ro⟩, ⟨24, 7, .ro⟩]⟩,
  -- BRU_FW
  ⟨0x4001C, 0x4, 1, 0x4, 1, 0x0, 0, [⟨0, 1, .rw⟩, ⟨1, 1, .ro⟩, ⟨2, 1, .ro⟩]⟩,
  -- BRU_FW_VERSION
  ⟨0x40020, 0x4, 1, 0x4, 1, 0x0, 0, [⟨0, 32, .ro⟩]⟩]

/-- The PWR block. -/
def regsPwr : List RegSpec := [
  -- PWR_CFG
  ⟨0x30000, 0x4, 1, 0x4, 1, 0x25878, 0, [⟨0, 8, .rw⟩, ⟨8, 10, .rw⟩]⟩,
  -- PWR_CTRL
  ⟨0x30004, 0x4, 1, 0x4, 1, 0x0, 0, [⟨0, 1, .wo⟩]⟩,
  -- PWR_STATUS
  ⟨0x30008, 0x4, 1, 0x4, 1, 0x1, 0, [⟨0, 2, .ro⟩, ⟨2, 2, .ro⟩, ⟨4, 1, .w1c⟩, ⟨5, 1, .w1c⟩, ⟨6, 1, .ro⟩, ⟨7, 1, .ro⟩, ⟨8, 7, .ro⟩]⟩,
  -- PWR_INPUT
  ⟨0x3000C, 0x4, 1, 0x4, 1, 0x0, 0, [⟨0, 16, .ro⟩, ⟨16, 16, .ro⟩]⟩,
  -- PWR_POWER
  ⟨0x30010, 0x4, 1, 0x4, 1, 0x0, 0, [⟨0, 16, .ro⟩, ⟨16, 16, .ro⟩]⟩,
  -- PWR_BALLAST
  ⟨0x30014, 0x4, 1, 0x4, 1, 0x0, 0, [⟨0, 16, .ro⟩]⟩,
  -- PWR_THERMAL
  ⟨0x30018, 0x4, 1, 0x4, 1, 0x0, 0, [⟨0, 8, .ro⟩, ⟨8, 8, .ro⟩, ⟨16, 8, .ro⟩, ⟨24, 6, .ro⟩]⟩,
  -- PWR_SLOT_GRADE_LO
  ⟨0x30020, 0x4, 1, 0x4, 1, 0x0, 1, [⟨0, 32, .rw⟩]⟩,
  -- PWR_SLOT_GRADE_HI
  ⟨0x30024, 0x4, 1, 0x4, 1, 0x0, 0, [⟨0, 32, .rw⟩]⟩,
  -- PWR_SKIP_SEL
  ⟨0x30030, 0x4, 1, 0x4, 1, 0x0, 0, [⟨0, 6, .rw⟩]⟩,
  -- PWR_SKIP_LO
  ⟨0x30034, 0x4, 1, 0x4, 1, 0x0, 1, [⟨0, 32, .ro⟩]⟩,
  -- PWR_SKIP_HI
  ⟨0x30038, 0x4, 1, 0x4, 1, 0x0, 0, [⟨0, 32, .ro⟩]⟩,
  -- PWR_COUNTS
  ⟨0x3003C, 0x4, 1, 0x4, 1, 0x0, 0, [⟨0, 16, .ro⟩, ⟨16, 16, .ro⟩]⟩]

/-- The RST block. -/
def regsRst : List RegSpec := [
  -- RST_CTRL
  ⟨0x10000, 0x4, 1, 0x4, 1, 0x0, 0, [⟨0, 8, .wo⟩, ⟨8, 2, .wo⟩]⟩,
  -- RST_BLOCK_MASK_LO
  ⟨0x10010, 0x4, 1, 0x4, 1, 0x0, 1, [⟨0, 32, .rw⟩]⟩,
  -- RST_BLOCK_MASK_HI
  ⟨0x10014, 0x4, 1, 0x4, 1, 0x0, 0, [⟨0, 32, .rw⟩]⟩,
  -- RST_BLOCK_CMD
  ⟨0x10018, 0x4, 1, 0x4, 1, 0x0, 0, [⟨0, 16, .wo⟩, ⟨31, 1, .wo⟩]⟩,
  -- RST_BLOCK_STATUS
  ⟨0x1001C, 0x4, 1, 0x4, 1, 0x0, 0, [⟨0, 1, .ro⟩, ⟨1, 1, .w1c⟩, ⟨2, 4, .ro⟩, ⟨6, 4, .ro⟩]⟩,
  -- RST_CAUSE
  ⟨0x10020, 0x4, 1, 0x4, 1, 0x0, 0, [⟨0, 5, .ro⟩, ⟨5, 3, .ro⟩, ⟨8, 1, .ro⟩, ⟨9, 1, .ro⟩]⟩,
  -- RST_CAUSE_MS_LO
  ⟨0x10024, 0x4, 1, 0x4, 1, 0x0, 1, [⟨0, 32, .ro⟩]⟩,
  -- RST_CAUSE_MS_HI
  ⟨0x10028, 0x4, 1, 0x4, 1, 0x0, 0, [⟨0, 32, .ro⟩]⟩,
  -- RST_FAILED_STARTS
  ⟨0x10030, 0x4, 1, 0x4, 1, 0x0, 0, [⟨0, 2, .ro⟩, ⟨8, 1, .ro⟩]⟩]

/-- The LIC block. -/
def regsLic : List RegSpec := [
  -- LIC_SERIAL_LO
  ⟨0x60000, 0x4, 1, 0x4, 1, 0x0, 1, [⟨0, 32, .rf⟩]⟩,
  -- LIC_SERIAL_HI
  ⟨0x60004, 0x4, 1, 0x4, 1, 0x0, 0, [⟨0, 32, .rf⟩]⟩,
  -- LIC_KEYS
  ⟨0x60008, 0x4, 1, 0x4, 1, 0x0, 0, [⟨0, 1, .rf⟩, ⟨1, 1, .rf⟩, ⟨2, 1, .rf⟩, ⟨3, 1, .rf⟩]⟩,
  -- LIC_FLOOR
  ⟨0x6000C, 0x4, 1, 0x4, 1, 0x0, 0, [⟨0, 32, .rf⟩]⟩,
  -- LIC_ENABLED
  ⟨0x60010, 0x4, 1, 0x4, 1, 0x0, 0, [⟨0, 3, .ro⟩, ⟨4, 2, .ro⟩, ⟨6, 1, .ro⟩]⟩,
  -- LIC_SLOT_STATUS
  ⟨0x60014, 0x4, 1, 0x4, 1, 0x0, 0, [⟨0, 4, .ro⟩, ⟨4, 4, .ro⟩, ⟨8, 4, .ro⟩, ⟨12, 4, .ro⟩, ⟨16, 4, .ro⟩, ⟨20, 4, .ro⟩, ⟨24, 4, .ro⟩, ⟨28, 4, .ro⟩]⟩,
  -- LIC_CMD
  ⟨0x60018, 0x4, 1, 0x4, 1, 0x0, 0, [⟨0, 3, .wo⟩, ⟨3, 2, .wo⟩]⟩,
  -- LIC_CMD_STATUS
  ⟨0x6001C, 0x4, 1, 0x4, 1, 0x0, 0, [⟨0, 1, .ro⟩, ⟨1, 1, .w1c⟩, ⟨2, 4, .ro⟩]⟩,
  -- LIC_BUF
  ⟨0x60100, 0x4, 32, 0x4, 1, 0x0, 0, [⟨0, 32, .rw⟩]⟩]

/-- The FUS block. -/
def regsFus : List RegSpec := [
  -- FUS_EXCL_LO
  ⟨0x50000, 0x4, 1, 0x4, 1, 0x0, 2, [⟨0, 32, .ro⟩]⟩,
  -- FUS_EXCL_HI
  ⟨0x50004, 0x4, 1, 0x4, 1, 0x0, 0, [⟨0, 32, .ro⟩]⟩,
  -- FUS_EXCL_GEN
  ⟨0x50008, 0x4, 1, 0x4, 1, 0x0, 0, [⟨0, 16, .ro⟩]⟩,
  -- FUS_CMD
  ⟨0x50010, 0x4, 1, 0x4, 1, 0x0, 0, [⟨0, 6, .wo⟩, ⟨6, 2, .wo⟩, ⟨8, 16, .wo⟩, ⟨31, 1, .wo⟩]⟩,
  -- FUS_REC_LO
  ⟨0x50014, 0x4, 1, 0x4, 1, 0x0, 1, [⟨0, 32, .rw⟩]⟩,
  -- FUS_REC_HI
  ⟨0x50018, 0x4, 1, 0x4, 1, 0x0, 0, [⟨0, 32, .rw⟩]⟩,
  -- FUS_CMD_STATUS
  ⟨0x5001C, 0x4, 1, 0x4, 1, 0x0, 0, [⟨0, 1, .ro⟩, ⟨1, 1, .w1c⟩, ⟨2, 4, .ro⟩, ⟨6, 5, .ro⟩]⟩,
  -- FUS_DIE
  ⟨0x50100, 0x4, 64, 0x4, 1, 0x0, 0, [⟨0, 3, .ro⟩, ⟨3, 7, .ro⟩, ⟨10, 5, .ro⟩, ⟨15, 6, .ro⟩, ⟨21, 6, .ro⟩]⟩,
  -- FUS_DIE_SPARE
  ⟨0x50200, 0x4, 64, 0x4, 1, 0x0, 0, [⟨0, 11, .ro⟩, ⟨11, 11, .ro⟩, ⟨22, 8, .ro⟩]⟩,
  -- FUS_WHL_CFG
  ⟨0x50400, 0x4, 1, 0x4, 1, 0x1, 0, [⟨0, 1, .rw⟩]⟩,
  -- FUS_WHL_STATUS
  ⟨0x50404, 0x4, 1, 0x4, 1, 0x0, 0, [⟨0, 16, .ro⟩, ⟨16, 16, .ro⟩]⟩,
  -- FUS_WHL_COUNTS
  ⟨0x50408, 0x4, 1, 0x4, 1, 0x0, 0, [⟨0, 16, .ro⟩, ⟨16, 16, .ro⟩]⟩,
  -- FUS_SUSPECT
  ⟨0x5040C, 0x4, 1, 0x4, 1, 0x0, 0, [⟨0, 9, .ro⟩]⟩]

/-- The EVT block. -/
def regsEvt : List RegSpec := [
  -- EVT_CFG
  ⟨0xA0000, 0x4, 1, 0x4, 1, 0x0, 0, [⟨0, 5, .rw⟩, ⟨5, 1, .rw⟩]⟩,
  -- EVT_IRQ_MASK
  ⟨0xA0004, 0x4, 1, 0x4, 1, 0x0, 0, [⟨0, 32, .rw⟩]⟩,
  -- EVT_HEAD
  ⟨0xA0008, 0x4, 1, 0x4, 1, 0x0, 0, [⟨0, 32, .ro⟩]⟩,
  -- EVT_COUNTS
  ⟨0xA000C, 0x4, 1, 0x4, 1, 0x0, 0, [⟨0, 16, .ro⟩, ⟨16, 16, .ro⟩]⟩,
  -- EVT_SEL
  ⟨0xA0010, 0x4, 1, 0x4, 1, 0x0, 0, [⟨0, 32, .rw⟩]⟩,
  -- EVT_POISON
  ⟨0xA0018, 0x4, 1, 0x4, 1, 0x0, 0, [⟨0, 16, .ro⟩, ⟨16, 16, .ro⟩]⟩,
  -- EVT_REC
  ⟨0xA0100, 0x4, 16, 0x4, 1, 0x0, 15, [⟨0, 32, .ro⟩]⟩]

/-- The MAN block. -/
def regsMan : List RegSpec := [
  -- MAN_CTRL
  ⟨0xB0000, 0x4, 1, 0x4, 1, 0x0, 0, [⟨0, 1, .wo⟩, ⟨1, 1, .wo⟩, ⟨2, 1, .rw⟩]⟩,
  -- MAN_TARGET_LO
  ⟨0xB0004, 0x4, 1, 0x4, 1, 0x0, 1, [⟨0, 32, .rw⟩]⟩,
  -- MAN_TARGET_HI
  ⟨0xB0008, 0x4, 1, 0x4, 1, 0x0, 0, [⟨0, 32, .rw⟩]⟩,
  -- MAN_STATUS
  ⟨0xB000C, 0x4, 1, 0x4, 1, 0x0, 0, [⟨0, 3, .ro⟩, ⟨3, 1, .w1c⟩, ⟨4, 10, .ro⟩, ⟨14, 8, .ro⟩, ⟨22, 10, .ro⟩]⟩]

/-- The WAY block. -/
def regsWay : List RegSpec := [
  -- WAY_CTRL
  ⟨0xC0000, 0x4, 1, 0x4, 1, 0x0, 0, [⟨0, 1, .wo⟩, ⟨1, 1, .wo⟩, ⟨2, 1, .wo⟩, ⟨3, 1, .rw⟩]⟩,
  -- WAY_DEPTH
  ⟨0xC0004, 0x4, 1, 0x4, 1, 0x0, 0, [⟨0, 16, .rw⟩, ⟨16, 16, .rw⟩]⟩,
  -- WAY_PROBE
  ⟨0xC0010, 0x4, 8, 0x4, 1, 0x0, 0, [⟨0, 20, .rw⟩, ⟨20, 4, .rw⟩, ⟨24, 6, .rw⟩]⟩,
  -- WAY_TRIG
  ⟨0xC0030, 0x4, 1, 0x4, 1, 0x0, 0, [⟨0, 8, .rw⟩, ⟨8, 1, .rw⟩]⟩,
  -- WAY_TRIG_MASK
  ⟨0xC0034, 0x4, 1, 0x4, 1, 0x0, 0, [⟨0, 32, .rw⟩]⟩,
  -- WAY_TRIG_VALUE
  ⟨0xC0038, 0x4, 1, 0x4, 1, 0x0, 0, [⟨0, 32, .rw⟩]⟩,
  -- WAY_TRIG_MS_LO
  ⟨0xC003C, 0x4, 1, 0x4, 1, 0x0, 1, [⟨0, 32, .rw⟩]⟩,
  -- WAY_TRIG_MS_HI
  ⟨0xC0040, 0x4, 1, 0x4, 1, 0x0, 0, [⟨0, 32, .rw⟩]⟩,
  -- WAY_DEST_LO
  ⟨0xC0044, 0x4, 1, 0x4, 1, 0x0, 1, [⟨0, 32, .rw⟩]⟩,
  -- WAY_DEST_HI
  ⟨0xC0048, 0x4, 1, 0x4, 1, 0x0, 0, [⟨0, 9, .rw⟩, ⟨9, 8, .rw⟩, ⟨31, 1, .rw⟩]⟩,
  -- WAY_STATUS
  ⟨0xC004C, 0x4, 1, 0x4, 1, 0x0, 0, [⟨0, 2, .ro⟩, ⟨2, 1, .w1c⟩, ⟨3, 17, .ro⟩]⟩,
  -- WAY_MISSED
  ⟨0xC0050, 0x4, 1, 0x4, 1, 0x0, 0, [⟨0, 16, .ro⟩, ⟨31, 1, .w1c⟩]⟩,
  -- WAY_MISSED_MS_LO
  ⟨0xC0054, 0x4, 1, 0x4, 1, 0x0, 1, [⟨0, 32, .ro⟩]⟩,
  -- WAY_MISSED_MS_HI
  ⟨0xC0058, 0x4, 1, 0x4, 1, 0x0, 0, [⟨0, 32, .ro⟩]⟩,
  -- WAY_TRIG_HIT_LO
  ⟨0xC005C, 0x4, 1, 0x4, 1, 0x0, 1, [⟨0, 32, .ro⟩]⟩,
  -- WAY_TRIG_HIT_HI
  ⟨0xC0060, 0x4, 1, 0x4, 1, 0x0, 0, [⟨0, 32, .ro⟩]⟩,
  -- WAY_COUNTS
  ⟨0xC0064, 0x4, 1, 0x4, 1, 0x0, 0, [⟨0, 16, .ro⟩, ⟨16, 16, .ro⟩]⟩]

/-- Every register table. -/
def regTable : List RegSpec :=
  regsFab ++ regsClk ++ regsDbg ++ regsStr ++ regsChs ++ regsHif ++ regsLtn ++ regsPst ++ regsBru ++ regsPwr ++ regsRst ++ regsLic ++ regsFus ++ regsEvt ++ regsMan ++ regsWay

/-- Does an offset name a register of a row? -/
def RegSpec.covers (r : RegSpec) (off : Nat) : Bool :=
  decide (r.base ≤ off) &&
    (let d := off - r.base
     decide (d / r.s1 < r.c1) && decide (d % r.s1 / r.s2 < r.c2) && decide (d % r.s1 % r.s2 = 0))

/-- The row of an offset; none for a reserved offset (R11). -/
def regSpec (off : Nat) : Option RegSpec := regTable.find? (·.covers off)

end Sys2Proof.Machine
end

