-- ==== Sys2Proof/Machine/Ops.lean ====
section
/-! DEFINITION. Named operations over the state: keyed parts, byte memory, registers, time, identifiers. -/

namespace Sys2Proof.Machine

/-! ### Parts of the state by key -/

def State.cluster (s : State) (g : Nat) : Cluster := AMap.get {} s.clusters g
def State.setCluster (s : State) (g : Nat) (c : Cluster) : State :=
  { s with clusters := AMap.set {} s.clusters g c }
def State.modCluster (s : State) (g : Nat) (f : Cluster → Cluster) : State :=
  s.setCluster g (f (s.cluster g))

def Cluster.lane (c : Cluster) (l : Nat) : Lane := AMap.get {} c.lanes l
def Cluster.setLane (c : Cluster) (l : Nat) (x : Lane) : Cluster :=
  { c with lanes := AMap.set {} c.lanes l x }
def Cluster.queue (c : Cluster) (q : Nat) : Queue := AMap.get {} c.queues q
def Cluster.setQueue (c : Cluster) (q : Nat) (x : Queue) : Cluster :=
  { c with queues := AMap.set {} c.queues q x }
def Cluster.coupling (c : Cluster) (k : Nat) : Coupling := AMap.get {} c.couplings k
def Cluster.setCoupling (c : Cluster) (k : Nat) (x : Coupling) : Cluster :=
  { c with couplings := AMap.set {} c.couplings k x }
def Coupling.slot (x : Coupling) (j : Nat) : Waiter := AMap.get {} x.remote j
def Coupling.setSlot (x : Coupling) (j : Nat) (w : Waiter) : Coupling :=
  { x with remote := AMap.set {} x.remote j w }
/-- A scalar register (R80). -/
def Cluster.sreg (c : Cluster) (r : Nat) : BitVec 64 := AMap.get 0 c.s r
def Cluster.setSreg (c : Cluster) (r : Nat) (v : BitVec 64) : Cluster :=
  { c with s := AMap.set 0 c.s r v }
/-- A predicate register; p0 reads as all ones (R104). -/
def Cluster.pred (c : Cluster) (r : Nat) : BitVec 16 :=
  if r = 0 then 0xFFFF#16 else AMap.get 0 c.p r
/-- Write a predicate register; p0 is fixed (R80, R104). -/
def Cluster.setPred (c : Cluster) (r : Nat) (v : BitVec 16) : Cluster :=
  if r = 0 then c else { c with p := AMap.set 0 c.p r v }
def Lane.vreg (x : Lane) (r : Nat) : BitVec 512 := AMap.get 0 x.v r
def Lane.setVreg (x : Lane) (r : Nat) (v : BitVec 512) : Lane := { x with v := AMap.set 0 x.v r v }
/-- Ledger el of register acc (R40). -/
def Lane.ledger (x : Lane) (acc el : Nat) : Ledger := AMap.get {} x.led (acc * 32 + el)
def Lane.setLedger (x : Lane) (acc el : Nat) (l : Ledger) : Lane :=
  { x with led := AMap.set {} x.led (acc * 32 + el) l }
/-- The 32 Ledgers of a Ledger register. -/
def Lane.ledgers (x : Lane) (acc : Nat) : List Ledger := (List.range 32).map (x.ledger acc)
/-- Write Ledgers 0, 1, … of a Ledger register. -/
def Lane.setLedgers (x : Lane) (acc : Nat) (ls : List Ledger) : Lane :=
  ls.zipIdx.foldl (fun y (l, el) => y.setLedger acc el l) x
def Lane.table (x : Lane) (which : Bool) : HashTable := if which then x.t1 else x.t0
def Lane.setTable (x : Lane) (which : Bool) (t : HashTable) : Lane :=
  if which then { x with t1 := t } else { x with t0 := t }

def State.xunit (s : State) (k : Nat) : XUnit := AMap.get {} s.xunits k
def State.setXunit (s : State) (k : Nat) (x : XUnit) : State :=
  { s with xunits := AMap.set {} s.xunits k x }
def State.strip (s : State) (k : Nat) : StreamSlot := AMap.get {} s.strips k
def State.setStrip (s : State) (k : Nat) (x : StreamSlot) : State :=
  { s with strips := AMap.set {} s.strips k x }
def State.stack (s : State) (k : Nat) : Stack := AMap.get {} s.dstacks k
def State.setStack (s : State) (k : Nat) (x : Stack) : State :=
  { s with dstacks := AMap.set {} s.dstacks k x }
def State.fn (s : State) (k : Nat) : FnState := AMap.get {} s.fns k
def State.setFn (s : State) (k : Nat) (x : FnState) : State :=
  { s with fns := AMap.set {} s.fns k x }
def State.ring (s : State) (k : Nat) : Ring := AMap.get {} s.rings k
def State.setRing (s : State) (k : Nat) (x : Ring) : State :=
  { s with rings := AMap.set {} s.rings k x }
def State.job (s : State) (k : Nat) : Job := AMap.get {} s.jobs k
def State.setJob (s : State) (k : Nat) (x : Job) : State :=
  { s with jobs := AMap.set {} s.jobs k x }
def State.modJob (s : State) (k : Nat) (f : Job → Job) : State := s.setJob k (f (s.job k))
def State.port (s : State) (k : Nat) : Port := AMap.get {} s.ports k
def State.setPort (s : State) (k : Nat) (x : Port) : State :=
  { s with ports := AMap.set {} s.ports k x }
def State.modPort (s : State) (k : Nat) (f : Port → Port) : State := s.setPort k (f (s.port k))
def State.engine (s : State) (k : Nat) : Engine := AMap.get {} s.engines k
def State.setEngine (s : State) (k : Nat) (x : Engine) : State :=
  { s with engines := AMap.set {} s.engines k x }
def State.stream (s : State) (k : Nat) : TStream := AMap.get {} s.streams k
def State.setStream (s : State) (k : Nat) (x : TStream) : State :=
  { s with streams := AMap.set {} s.streams k x }
def State.die (s : State) (k : Nat) : Die := AMap.get {} s.dies k
def State.setDie (s : State) (k : Nat) (x : Die) : State :=
  { s with dies := AMap.set {} s.dies k x }
def State.modDie (s : State) (k : Nat) (f : Die → Die) : State := s.setDie k (f (s.die k))
def Job.window (j : Job) (w : Nat) : Window := AMap.get {} j.windows w

/-! ### Byte memory (R13: little-endian) -/

/-- n bytes from an address. -/
def readBytes (m : Mem) (a : Nat) : Nat → List Byte
  | 0 => []
  | n + 1 => AMap.get 0 m a :: readBytes m (a + 1) n

/-- Write bytes from an address, the canonical form kept. -/
def writeBytes (m : Mem) (a : Nat) : List Byte → Mem
  | [] => m
  | b :: bs => writeBytes (AMap.set 0 m a b) (a + 1) bs

/-- The number that little-endian bytes spell. -/
def leNat : List Byte → Nat
  | [] => 0
  | b :: bs => b.toNat + 256 * leNat bs

/-- n little-endian bytes of a number. -/
def natLe (v : Nat) : Nat → List Byte
  | 0 => []
  | n + 1 => BitVec.ofNat 8 v :: natLe (v / 256) n

/-- A little-endian number of n bytes at an address. -/
def readLe (m : Mem) (a n : Nat) : Nat := leNat (readBytes m a n)

/-- Write a little-endian number of n bytes. -/
def writeLe (m : Mem) (a n v : Nat) : Mem := writeBytes m a (natLe v n)

/-- Bits [lo + w - 1 : lo] of a number. -/
def bitsOf (v lo w : Nat) : Nat := v / 2 ^ lo % 2 ^ w

/-- A number with bits [lo + w - 1 : lo] replaced. -/
def setBits (v lo w x : Nat) : Nat :=
  v - bitsOf v lo w * 2 ^ lo + x % 2 ^ w * 2 ^ lo

/-- A number read as two's complement of a width. -/
def toSigned (w v : Nat) : Int :=
  if v % 2 ^ w < 2 ^ (w - 1) then ((v % 2 ^ w : Nat) : Int) else ((v % 2 ^ w : Nat) : Int) - (2 ^ w : Nat)

/-- Two's complement of a width. -/
def ofSigned (w : Nat) (z : Int) : Nat := (z % (2 ^ w : Nat)).toNat

/-- A byte of bits, by number. -/
def bitAt (v i : Nat) : Bool := v / 2 ^ i % 2 == 1

/-- Bytes written to lane SRAM; the written words hold no error any more (R113). -/
def Lane.writeSram (x : Lane) (a : Nat) (bs : List Byte) : Lane :=
  { x with
    sram := writeBytes x.sram a bs
    sramErr := (List.range ((bs.length + 7) / 8)).foldl (fun m i => AMap.set 0 m (a / 8 + i) 0) x.sramErr }

/-! ### Registers (R7-R12) -/

/-- The key of a register in a function's view (R255: only the HIF block differs by function). -/
def regKey (fn off : Nat) : Nat := fn * 2 ^ 24 + off

/-- A register's value at reset; in a virtual function HIF_ID reads 0x0D65 (R255). -/
def regResetValue (fn off : Nat) : Word :=
  if off = Reg.HIF_ID ∧ fn ≠ 0 then 0x00010D65#32
  else match regSpec off with
    | some r => r.reset
    | none => 0

/-- The stored value of a register in a function's view. -/
def State.fnReg (s : State) (fn off : Nat) : Word :=
  match AMap.get none s.regs (regKey fn off) with
  | some w => w
  | none => regResetValue fn off

/-- Store a register value; the reset value is what an unlisted register holds. -/
def State.setFnReg (s : State) (fn off : Nat) (w : Word) : State :=
  let v := if w = regResetValue fn off then none else some w
  { s with regs := AMap.set none s.regs (regKey fn off) v }

def State.reg (s : State) (off : Nat) : Word := s.fnReg 0 off
def State.setReg (s : State) (off : Nat) (w : Word) : State := s.setFnReg 0 off w

/-- A field of a register as a number. -/
def State.fnField (s : State) (fn off lo w : Nat) : Nat := bitsOf (s.fnReg fn off).toNat lo w
def State.field (s : State) (off lo w : Nat) : Nat := s.fnField 0 off lo w

/-- Set a field of a register. -/
def State.setFnField (s : State) (fn off lo w v : Nat) : State :=
  s.setFnReg fn off (BitVec.ofNat 32 (setBits (s.fnReg fn off).toNat lo w v))
def State.setField (s : State) (off lo w v : Nat) : State := s.setFnField 0 off lo w v

/-- Add to a counter field, saturating. -/
def State.fnBump (s : State) (fn off lo w n : Nat) : State :=
  s.setFnField fn off lo w (min (s.fnField fn off lo w + n) (2 ^ w - 1))
def State.bump (s : State) (off lo w n : Nat) : State := s.fnBump 0 off lo w n

/-- A wide value of two registers (R12). -/
def State.reg64 (s : State) (off : Nat) : Nat := (s.reg off).toNat + 2 ^ 32 * (s.reg (off + 4)).toNat
def State.setReg64 (s : State) (off v : Nat) : State :=
  (s.setReg off (BitVec.ofNat 32 v)).setReg (off + 4) (BitVec.ofNat 32 (v / 2 ^ 32))

/-! ### Time and free values -/

/-- Before the Milestone moves to t: where that reaches an armed Manifest's target, what the Manifest counts stands as it
is now, whatever comes at the target or after it (R489). -/
def State.manReach (s : State) (t : Nat) : Manifest :=
  if s.field Reg.MAN_STATUS 0 3 = 2 ∧ s.ms < s.man.target ∧ s.man.target ≤ t ∧ s.man.atT = none then
    { s.man with atT := some {
        regs := s.regs
        skips := (s.jobs.map fun (p : Nat × Job) => (p.1, p.2.withheld)).filter fun (p : Nat × Nat) => p.2 != 0
        head := s.ev.seq.toNat
        out := s.outOf } }
  else s.man

/-- The ns until the standby clock next stands at a multiple of 1,024 ns, at which a follower holds or doubles a count. -/
def State.toHold (s : State) : Nat := (1024 - s.up % 1024) % 1024

/-- The counts that a follower holds, or doubles, while its Milestone moves by d counts: one in 1,024 ns, until the offset
is gone (R397, R398). -/
def State.heldBy (s : State) (d : Nat) : Nat :=
  if !s.clock.running then 0
  else if 0 < s.msOff then min s.msOff.natAbs (if d ≤ s.toHold then 0 else (d - s.toHold + 1022) / 1023)
  else min s.msOff.natAbs (if d < s.toHold + 2 then 0 else (d - s.toHold - 2) / 1025 + 1)

/-- The same in n ns of the standby clock. -/
def State.heldIn (s : State) (n : Nat) : Nat :=
  min s.msOff.natAbs (if n ≤ s.toHold then 0 else (n - s.toHold - 1) / 1024 + 1)

/-- What is left of a follower's offset after c counts held or doubled. -/
def State.offAfter (s : State) (c : Nat) : Int := if 0 < s.msOff then s.msOff - c else s.msOff + c

/-- The Milestone moves to the time at which a timed event falls due, if it has not passed it, and the
standby clock with it (log entry 8); a follower's offset is corrected meanwhile (R398). -/
def State.advanceTo (s : State) (t : Nat) : State :=
  if s.ms < t then
    let d := t - s.ms
    let c := s.heldBy d
    { s with
      ms := t
      up := if 0 < s.msOff then s.up + d + c else s.up + d - c
      msOff := s.offAfter c
      man := s.manReach t }
  else s

/-- The standby clock moves by the same rule; the Milestone follows while the clock runs. -/
def State.advanceUpTo (s : State) (t : Nat) : State :=
  if s.up < t then
    let n := t - s.up
    let c := if s.clock.running then s.heldIn n else 0
    let ms := if !s.clock.running then s.ms else if 0 < s.msOff then s.ms + n - c else s.ms + n + c
    { s with up := t, ms := ms, msOff := s.offAfter c, man := s.manReach ms }
  else s

/-- The counts by which the Milestone moves in a nanosecond: 1 while the clock runs; once in 1,024 ns a follower holds or
doubles one, while it is ahead of its leader or behind (R397, R398). -/
def State.tick (s : State) : Nat :=
  if !s.clock.running then 0
  else if s.up % 1024 = 0 ∧ 0 < s.msOff then 0
  else if s.up % 1024 = 0 ∧ s.msOff < 0 then 2
  else 1

/-- A free value: nothing constrains it (log entry 3). -/
def State.fresh (s : State) : Nat × State :=
  (Config.freeValue s.freeCtr, { s with freeCtr := s.freeCtr + 1 })

/-- The step that a block reset re-runs after another: 4, 5, 7, 8 (R408). -/
def nextBlockStep (n : Nat) : Nat := if n = 4 then 5 else if n = 5 then 7 else 8

/-- A block reset under way may go on to its next step at any time (R408, R412, log entry 154). -/
def State.blockProgress (s : State) : State :=
  if s.bru.blockMask = 0#64 then s
  else
    let (v, s) := s.fresh
    let r := Reg.RST_BLOCK_STATUS
    if v % 2 = 0 then s else s.setField r 6 4 (nextBlockStep (s.field r 6 4))

/-- What one idle step does: one nanosecond passes (log entry 2), and a block reset goes on. -/
def State.idle (s : State) : State :=
  ({ s with
    up := s.up + 1
    ms := s.ms + s.tick
    man := s.manReach (s.ms + s.tick)
    msOff := if s.clock.running then s.msOff + s.tick - 1 else s.msOff } : State).blockProgress

/-- Something leaves the module. -/
def State.send (s : State) (m : Msg) : State := { s with sent := m :: s.sent }

/-! ### Identifiers (R14-R19) -/

def gidDie (g : Nat) : Nat := g / 1024 % 64
def gidY (g : Nat) : Nat := g / 32 % 32
def gidX (g : Nat) : Nat := g % 32
def gidOf (die y x : Nat) : Nat := die * 1024 + y * 32 + x

/-- The three kinds of a cluster (R75). -/
inductive Kind where
  | m | f | s
  deriving DecidableEq, Repr

/-- The kind fixed by the position (R15). -/
def kindOf (g : Nat) : Kind :=
  match gidX g % 4, gidY g % 4 with
  | 1, 1 => .f
  | 3, 3 => .f
  | 3, 1 => .s
  | 1, 3 => .s
  | _, _ => .m

def srcStack (k : Nat) : Nat := 0x10000 + k
def srcEngine (k : Nat) : Nat := 0x10100 + k
def srcHostPort (p : Bool) : Nat := 0x10200 + (if p then 1 else 0)
def srcOstler : Nat := 0x10300
def srcDrag : Nat := 0x10301
def srcClock : Nat := 0x10302
def srcReset : Nat := 0x10303

/-- The module ID read from the straps (R369, R370). -/
def State.moduleId (s : State) : Nat := s.field Reg.BRU_STRAPS 0 10

/-- The 30-bit name of a source (R18). -/
def State.sourceName (s : State) (src : Nat) : BitVec 30 := BitVec.ofNat 30 (s.moduleId * 2 ^ 20 + src)

end Sys2Proof.Machine
end

