-- ==== Sys2Proof/Machine/Flags.lean ====
section
/-! DEFINITION. Lane masks and comparison conditions (R87, R98, R103). -/

namespace Sys2Proof.Machine

/-- The loop predicates of the active repeat blocks (R87, R109). -/
def Cluster.loopMask (c : Cluster) : BitVec 16 :=
  c.rep.foldl (fun m f => if f.lp = 0#3 then m else m &&& c.pred f.lp.toNat) 0xFFFF#16

/-- The lane mask of an instruction (R87). -/
def Cluster.laneMask (c : Cluster) (i : Issue) : BitVec 16 :=
  let p := c.pred i.psel.toNat
  (if i.sense then ~~~p else p) &&& c.loopMask

/-- Does the Q slot execute (R87)? -/
def qExecutes (i : Issue) (mask : BitVec 16) : Bool := !i.qp || mask != 0#16

/-- The active lanes of a mask, in ascending order. -/
def activeLanes (mask : BitVec 16) : List Nat := (List.range 16).filter fun l => mask.getLsbD l

/-- FCMP's conditions (R98): IEEE 754 comparisons. -/
def fcmpHolds (cond : Nat) (a b : BitVec 32) : Bool :=
  match (fromF32 a).compare (fromF32 b) with
  | none => cond == 3 || cond == 4
  | some o =>
    match cond with
    | 0 => o == .eq
    | 1 => o == .lt
    | 2 => o != .gt
    | 3 => false
    | 4 => o != .eq
    | 5 => o == .gt
    | _ => o != .lt

/-- FCMP's reduction over the elements (R98). -/
def fcmpReduce (red : Nat) (bs : List Bool) : Bool :=
  match red with
  | 0 => bs.headD false
  | 1 => bs.any id
  | _ => bs.all id

/-- PCMP's conditions (R103). -/
def pcmpHolds (cond : Nat) (a b : BitVec 64) : Bool :=
  match cond with
  | 0 => a == b
  | 1 => a != b
  | 2 => a.slt b
  | 3 => a.sle b
  | 4 => a.ult b
  | _ => a.ule b

/-- PLOG (R103). -/
def plogResult (fn : Nat) (a b : BitVec 16) : BitVec 16 :=
  match fn with
  | 0 => a &&& b
  | 1 => a ||| b
  | 2 => a &&& ~~~b
  | _ => a ^^^ b

/-- SALU (R103): shifts use bits [5:0] of the second operand. -/
def saluResult (fn : Nat) (a b : BitVec 64) : BitVec 64 :=
  let k := b.toNat % 64
  match fn with
  | 0 => a + b
  | 1 => a - b
  | 2 => a &&& b
  | 3 => a ||| b
  | 4 => a ^^^ b
  | 5 => a <<< k
  | 6 => a >>> k
  | 7 => a.sshiftRight k
  | 8 => a * b
  | 9 => if a.slt b then a else b
  | 10 => if a.slt b then b else a
  | 11 => if a.ult b then a else b
  | _ => if a.ult b then b else a

end Sys2Proof.Machine
end

