-- ==== Sys2Proof/Machine/HostOps.lean ====
section
/-! DEFINITION. CRCs, transport messages, MSI-X, completions and their retirement in ring order (08, 11). -/

namespace Sys2Proof.Machine

/-! ### Cyclic codes -/

/-- One bit of CRC-32C (reflected polynomial 0x82F63B78). -/
def crc32cBit (c : BitVec 32) : BitVec 32 :=
  if c.getLsbD 0 then (c >>> 1) ^^^ 0x82F63B78#32 else c >>> 1

def crc32cByte (c : BitVec 32) (b : Byte) : BitVec 32 :=
  let x := c ^^^ b.setWidth 32
  crc32cBit (crc32cBit (crc32cBit (crc32cBit (crc32cBit (crc32cBit (crc32cBit (crc32cBit x)))))))

/-- CRC-32C (R281, R307, R235). -/
def crc32c (bs : List Byte) : BitVec 32 := ~~~(bs.foldl crc32cByte 0xFFFFFFFF#32)

/-- One bit of CRC-64/ECMA-182. -/
def crc64Bit (c : BitVec 64) : BitVec 64 :=
  if c.msb then (c <<< 1) ^^^ 0x42F0E1EBA9EA3693#64 else c <<< 1

def crc64Byte (c : BitVec 64) (b : Byte) : BitVec 64 :=
  let x := c ^^^ (b.setWidth 64 <<< 56)
  crc64Bit (crc64Bit (crc64Bit (crc64Bit (crc64Bit (crc64Bit (crc64Bit (crc64Bit x)))))))

/-- CRC-64/ECMA-182 continued from a value (R344: initial value 0, no reflection, no final XOR). -/
def crc64 (c : BitVec 64) (bs : List Byte) : BitVec 64 := bs.foldl crc64Byte c

/-! ### Transport messages (R324, R325) -/

/-- The 16-byte header. -/
def msgHeader (kind flags bodyLen key arg : Nat) : Seg where
  data := BitVec.ofNat 128
    (kind % 256 + 2 ^ 8 * (flags % 256) + 2 ^ 16 * (bodyLen % 2 ^ 16) + 2 ^ 32 * (key % 2 ^ 32) +
      2 ^ 64 * (arg % 2 ^ 64))
  poison := false

/-- Bytes cut into segments of 16 without poison. -/
def segsOf (bs : List Byte) : List Seg :=
  (List.range ((bs.length + 15) / 16)).map fun i =>
    { data := BitVec.ofNat 128 (leNat ((bs.drop (16 * i)).take 16)), poison := false }

/-- The four segments of a line. -/
def segsOfLine (x : Line) : List Seg :=
  (List.range 4).map fun i => { data := x.data.extractLsb' (128 * i) 128, poison := x.poison }

/-- Is the port's link carrying data (R314, R311: credits are kept through RETRAIN)? -/
def Port.linked (p : Port) : Bool := p.st == 7#4 || p.st == 8#4

/-- Queue a message on a channel of a port; a port without a link epoch sends nothing (R312). -/
def State.sendMsg (s : State) (port chan kind flags key arg : Nat) (body : List Seg) : State :=
  let p := s.port port
  if p.linked then
    let q := AMap.get [] p.txq chan ++ msgHeader kind flags (16 * body.length) key arg :: body
    s.setPort port { p with txq := AMap.set [] p.txq chan q }
  else s

/-- The pair ports in ACTIVE (R338). -/
def State.activePairPorts (s : State) : List Nat :=
  ((List.range 8).map (· + 120)).filter fun p => (s.port p).st == 7#4

/-- A pair message on the lowest ACTIVE pair port. -/
def State.sendPair (s : State) (kind flags arg : Nat) (body : List Seg) : State :=
  match s.activePairPorts with
  | [] => s
  | p :: _ => s.sendMsg p (if kind = 0x25 then 3 else 0) kind flags 0 arg body

/-! ### MSI-X (R269) -/

def vectorKey (port : Bool) (fn vec : Nat) : Nat := ((if port then 1 else 0) * 64 + fn) * 32 + vec

/-- Is a host port's data link up? -/
def State.hostPortUp (s : State) (p : Bool) : Bool :=
  s.field (Reg.HIF_PORT_STATUS (if p then 1 else 0)) 11 1 == 1

/-- Signal a vector: a message, or the pending bit of a masked vector. -/
def State.signalVector (s : State) (port : Bool) (fn vec : Nat) : State :=
  let k := vectorKey port fn vec
  if !AMap.get false s.msixOpen k then { s with msixPend := AMap.set false s.msixPend k true }
  else s.send (.msix port (BitVec.ofNat 6 fn) (BitVec.ofNat 5 vec))

/-! ### Pair state (R338, R343, R351) -/

def State.pairState (s : State) : Nat := s.field Reg.PST_PAIR_STATUS 0 4
def State.pairLeads (s : State) : Bool := s.field Reg.PST_PAIR_STATUS 4 1 == 1
/-- Pair mode is active (R338). -/
def State.pairActive (s : State) : Bool := s.pairState != 0

/-- A ring in the groups that PST_PAIR_RINGS names (R342). -/
def State.pairedRing (s : State) (ring : Nat) : Bool :=
  let first := s.field Reg.PST_PAIR_RINGS 0 10
  let count := s.field Reg.PST_PAIR_RINGS 10 11
  s.pairActive && decide (first ≤ ring / 64) && decide (ring / 64 < first + count)

/-- This module holds its completions as the follower of a pair: paired, or mirrored replacement. -/
def State.pairFollows (s : State) : Bool :=
  (s.pairState == 2 || s.pairState == 7) && !s.pairLeads

/-- Vector 0 of a function on every port whose link is up. -/
def State.signalZero (s : State) (fn : Nat) : State :=
  [false, true].foldl (fun s p => if s.hostPortUp p then s.signalVector p fn 0 else s) s

/-- The pair unit's number among the participants of the Tollgate (R200, R338): no source has it (log entry 127). -/
def pairUnit : Nat := 0x100000

/-- Do the pair units exchange lists for the oldest round: paired or mirrored, from the round that the PAIR_HELLO named
(R339, R341, R345, log entry 127)? -/
def State.comparing (s : State) : Bool :=
  (s.pairState == 2 || s.pairState == 7) && decide (s.pair.sigFrom ≤ s.toll.oldest)

/-- The pair unit enters the oldest round, if that is open (R345). -/
def State.enterPair (s : State) : State :=
  if s.toll.started && decide (s.toll.oldest < s.toll.opened) && !s.toll.entered.contains pairUnit then
    { s with toll := { s.toll with entered := s.toll.entered ++ [pairUnit], lastEntryMs := s.ms } }
  else s

/-- A change of the pair state is signalled on vector 0 of the physical function (R351). A pair unit with no list to
compare has nothing that keeps it from the open round. -/
def State.setPairState (s : State) (v : Nat) : State :=
  if s.pairState = v then s
  else
    let s := (s.setField Reg.PST_PAIR_STATUS 0 4 v).signalZero 0
    if s.pairActive && !s.comparing then s.enterPair else s

/-! ### Completions (R262, R263) -/

/-- The 32 bytes of a completion entry. -/
def completionEntry (cookie : Nat) (idx : Nat) (status : Byte) (tag : BitVec 16) (detail : BitVec 32)
    (ms log2 : Nat) : BitVec 256 :=
  let phase := 1 - idx / 2 ^ log2 % 2
  BitVec.ofNat 256
    (cookie % 2 ^ 64 + 2 ^ 64 * (idx % 2 ^ 32) + 2 ^ 96 * status.toNat + 2 ^ 112 * tag.toNat +
      2 ^ 128 * detail.toNat + 2 ^ 192 * (ms % 2 ^ 56) + 2 ^ 248 * phase)

/-- Write an entry to its slot of the completion ring and count it towards a message (R263, R269). -/
def State.writeEntry (s : State) (rn idx : Nat) (entry : BitVec 256) (irq : Bool) : State :=
  let r := s.ring rn
  let a := r.cplBase.toNat + 32 * (idx % 2 ^ r.log2)
  let s := { s with hostMem := writeBytes s.hostMem a (natLe entry.toNat 32) }
  if r.vector = 0xFF#8 then s
  else if irq || decide (r.unsignalled + 1 ≥ r.coalCount.toNat) then
    (s.setRing rn { r with unsignalled := 0 }).signalVector r.port r.fn.toNat (r.vector.toNat % 32)
  else
    let first := if r.unsignalled = 0 then s.ms else r.firstUnsig
    s.setRing rn { r with unsignalled := r.unsignalled + 1, firstUnsig := first }

/-- Write an entry without counting it towards a message: a follower's (R343). -/
def State.writeQuiet (s : State) (rn idx : Nat) (entry : BitVec 256) : State :=
  let r := s.ring rn
  { s with hostMem := writeBytes s.hostMem (r.cplBase.toNat + 32 * (idx % 2 ^ r.log2)) (natLe entry.toNat 32) }

/-- The bytes of an entry that the pair signature covers (R344). -/
def signedBytes (entry : BitVec 256) : List Byte :=
  let b := natLe entry.toNat 16
  b.take 13 ++ b.drop 14

/-- Retire a descriptor: the leader or a module outside a pair writes the completion, a follower holds
it, a failed module writes nothing on a paired ring (R343, R346). -/
def State.writeCompletion (s : State) (rn : Nat) (d : Desc) (status : Byte) (tag : BitVec 16)
    (detail : BitVec 32) : State :=
  let r := s.ring rn
  let irq := d.raw.getLsbD 9
  let cookie := (d.raw.extractLsb' 64 64).toNat
  let entry := completionEntry cookie d.idx status tag detail s.ms r.log2
  if s.pairedRing rn then
    let id := 2 ^ 63 + 2 ^ 48 * r.fn.toNat + 2 ^ 32 * r.loc.toNat + d.idx % 2 ^ 32
    let u : SigUnit := { id := BitVec.ofNat 64 id, crc := crc64 0 (signedBytes entry), round := 0 }
    if s.pairState = 4 then s
    else
      let s := if s.pairState = 2 ∨ s.pairState = 7 then { s with pair := { s.pair with closed := s.pair.closed ++ [u] } } else s
      if s.pairFollows then
        let h : HeldCpl := { fn := r.fn, ring := rn, idx := d.idx, entry := entry }
        if d.idx < AMap.get 0 s.pair.cplSeen rn then s.writeQuiet rn d.idx entry
        else { s with pair := { s.pair with held := s.pair.held ++ [h] } }
      else
        let s := s.writeEntry rn d.idx entry irq
        let arg := d.idx % 2 ^ 32 + 2 ^ 32 * r.loc.toNat + 2 ^ 48 * r.fn.toNat
        if s.pairState = 2 || s.pairState = 7 then s.sendPair 0x23 0 arg [] else s
  else s.writeEntry rn d.idx entry irq

/-! ### Opening the streams of a job (R326, R332, R335) -/

/-- The flags of a stream's messages: the pair flag (R324). -/
def TStream.flags (t : TStream) : Nat := if t.paired then 2 else 0

/-- A message of a stream on channel 0. -/
def State.sendStream (s : State) (t : TStream) (kind arg : Nat) : State :=
  s.sendMsg t.port 0 kind t.flags t.key.toNat arg []

/-- The keys of the streams of a slot that satisfy a test. -/
def State.streamsOf (s : State) (slot : Nat) (p : TStream → Bool) : List Nat :=
  (s.streams.filter fun (_, t) => t.job.toNat == slot && p t).map (·.1)

/-- The body of OPEN (R326). -/
def State.openBody (s : State) (t : TStream) : List Byte :=
  let dir := if t.kind = 4 then 2 else t.kind - 1
  let partner := if t.paired then s.field Reg.PST_PAIR_STATUS 5 10 else 0
  let addr := if t.kind = 4 then 0 else t.remote.toNat
  [BitVec.ofNat 8 dir, BitVec.ofNat 8 t.mode, BitVec.ofNat 8 t.elem, 0] ++ natLe partner 2 ++ natLe 0 2 ++
    natLe addr 8 ++ natLe t.lines 4 ++ natLe 0 12

/-- OPEN of a stream that this module opens (R332). -/
def State.sendOpen (s : State) (k : Nat) : State :=
  let t := s.stream k
  (s.sendMsg t.port 0 0x02 t.flags t.key.toNat 0 (segsOf (s.openBody t))).setStream k
    { t with st := .opening, openMs := s.ms }

def openKey (port : Nat) (key : BitVec 32) : Nat := port * 2 ^ 32 + key.toNat

/-- An OPEN that waits for the send record of a loaded job is answered, if the module that the record names sent it
(R335). -/
def State.matchOpen (s : State) (k : Nat) : State :=
  let t := s.stream k
  if t.kind = 3 ∧ t.st = .waitOpen then
    match AMap.get none s.opens (openKey t.port t.key) with
    | some (_, _, sender) =>
      if t.peer.toNat = sender then
        let s := { s with opens := AMap.set none s.opens (openKey t.port t.key) none }
        (s.sendStream t 0x03 0).setStream k { t with st := .opened, openMs := s.ms }
      else s
    | none => s
  else s

/-- The streams of a loaded job open (R332, R335). -/
def State.openStreams (s : State) (slot : Nat) : State :=
  (s.streamsOf slot fun _ => true).foldl (fun s k =>
    let t := s.stream k
    if t.kind = 3 then (s.setStream k { t with st := .waitOpen, openMs := s.ms }).matchOpen k else s.sendOpen k) s

/-- What a retirement decides: from then on the tag of a loaded job is current and its streams open, that of an unloaded
one is no longer current (R275, R332). -/
def State.tagsRetire (s : State) (ref : DescRef) : State :=
  (List.range 64).foldl (fun s k =>
    let j := s.job k
    if j.liveRef = some ref ∨ j.dead.any (·.1 == ref) then
      let s := s.setJob k { j with
        liveRef := if j.liveRef = some ref then none else j.liveRef
        dead := j.dead.filter (·.1 != ref) }
      if j.liveRef = some ref ∧ j.st = .loaded then s.openStreams k else s
    else s) s

/-- Retire from the front of a ring's descriptors every one that is done (R261). -/
def State.retireRing (s : State) (rn : Nat) : Nat → State
  | 0 => s
  | n + 1 =>
    match (s.ring rn).descs with
    | d :: rest =>
      match d.phase with
      | .done status tag detail =>
        let s := s.writeCompletion rn d status tag detail
        let r := s.ring rn
        let s := (s.setRing rn { r with descs := rest, retired := r.retired + 1 }).tagsRetire
          { ring := BitVec.ofNat 16 rn, idx := d.idx }
        State.retireRing s rn n
      | _ => s
    | [] => s

/-- Mark a descriptor done; nothing happens where the ring no longer holds it. -/
def State.markDone (s : State) (ref : DescRef) (status : Byte) (tag : BitVec 16)
    (detail : BitVec 32) : State :=
  let rn := ref.ring.toNat
  let r := s.ring rn
  let descs := r.descs.map fun d =>
    if d.idx = ref.idx then { d with phase := .done status tag detail } else d
  s.setRing rn { r with descs := descs }

/-- The rings that exist, by global number. -/
def State.ringsWhere (s : State) (p : Ring → Bool) : List Nat :=
  (s.rings.filter fun (_, r) => r.used && p r).map (·.1)

/-- A little-endian field of a descriptor. -/
def Desc.num (d : Desc) (off size : Nat) : Nat := (d.raw.toNat / 2 ^ (8 * off)) % 2 ^ (8 * size)

def Desc.opcode (d : Desc) : Nat := d.num 0 1

/-- The opcodes of R264. -/
def opcodeKnown (op : Nat) : Bool :=
  decide (op ≤ 4) || (decide (0x10 ≤ op) && decide (op ≤ 0x15)) || op == 0x20 || op == 0x21

/-- The descriptor that a ring starts next: in ring order, at most 64 started, a fence first (R261). DESIGN CHOICE (log
entry 173): R270 stops the fetching of a stopped ring and lets what has started retire; what it has fetched and not
started never starts. -/
def Ring.next (r : Ring) : Option Desc :=
  if !r.used || r.stopped || r.destroyRef.isSome then none
  else if decide ((r.descs.filter fun d => d.phase != .fetched).length ≥ 64) then none
  else
    match r.descs.find? fun d => d.phase == .fetched with
    | none => none
    | some d =>
      let first := match r.descs with
        | x :: _ => x.idx == d.idx
        | [] => false
      if d.raw.getLsbD 8 && !first then none else some d

/-- Reserved opcodes whose turn has come complete with status 0x02 (R264, R265). -/
def State.skipReserved (s : State) (rn : Nat) : Nat → State
  | 0 => s
  | n + 1 =>
    match (s.ring rn).next with
    | some d =>
      if opcodeKnown d.opcode then s
      else
        let s := s.markDone { ring := BitVec.ofNat 16 rn, idx := d.idx } 0x02 0 0
        State.skipReserved (s.retireRing rn (s.ring rn).descs.length) rn n
    | none => s

/-- A ring being destroyed whose started descriptors have all retired ceases to exist, and its
DESTROY_RING completes (R265); reserved opcodes behind that one have their turn (R264). -/
def State.finishDestroy (s : State) (rn : Nat) : State :=
  let r := s.ring rn
  match r.destroyRef with
  | some ref =>
    if r.descs.any (fun d => d.phase != .fetched) then s
    else
      let s := s.setRing rn {}
      let s := s.markDone ref 0 0 0
      let n := (s.ring ref.ring.toNat).descs.length
      (s.retireRing ref.ring.toNat n).skipReserved ref.ring.toNat n
  | none => s

/-- Retire what is done on a ring, and pass over the reserved opcodes that come next. -/
def State.settleRing (s : State) (rn : Nat) : State :=
  let s := s.retireRing rn (s.ring rn).descs.length
  (s.skipReserved rn (s.ring rn).descs.length).finishDestroy rn

/-- Complete a descriptor: done, then retired in ring order (R261). -/
def State.complete (s : State) (ref : DescRef) (status : Nat) (tag : BitVec 16) (detail : Nat) : State :=
  (s.markDone ref (BitVec.ofNat 8 status) tag (BitVec.ofNat 32 detail)).settleRing ref.ring.toNat

/-- Complete a descriptor if there is one. -/
def State.completeOpt (s : State) (ref : Option DescRef) (status : Nat) (tag : BitVec 16)
    (detail : Nat) : State :=
  match ref with
  | some r => s.complete r status tag detail
  | none => s

end Sys2Proof.Machine
end

