-- ==== Sys2Proof/Machine/Ledger.lean ====
section
/-! DEFINITION. One Ledger: clear, accumulate, rebase, freeze, tree groups, slice terms, readout
classification, residue, the save record (02, R40-R70). -/

namespace Sys2Proof.Machine

/-- The exponent that a Ledger's value stands at: E, and the model's carry beyond E's 10 bits (R40, log entry 121). -/
def Ledger.e (x : Ledger) : Int := x.expo.toInt + 1024 * x.carry

/-- E set to an exponent, what its 10 bits cannot hold going to the carry. -/
def Ledger.setE (x : Ledger) (v : Int) : Ledger :=
  { x with expo := BitVec.ofInt 10 v, carry := (v - (BitVec.ofInt 10 v).toInt) / 1024 }

/-- The value of L as a signed integer (R40). -/
def Ledger.value (x : Ledger) : Int := x.l.toInt

/-- Bits [1:0] of the status word: 0 exact, 1 window, 2 tree, 3 slice (R41). -/
def Ledger.mode (x : Ledger) : Nat := (x.status.extractLsb' 0 2).toNat

/-- One bit of the status word (R41). -/
def Ledger.flag (x : Ledger) (i : Nat) : Bool := x.status.getLsbD i

/-- A status word with one bit set to a value. -/
def withFlag (st : BitVec 16) (i : Nat) (b : Bool) : BitVec 16 :=
  if b then st ||| (1#16 <<< i) else st &&& ~~~(1#16 <<< i)

def Ledger.setFlag (x : Ledger) (i : Nat) (b : Bool) : Ledger :=
  { x with status := withFlag x.status i b }

/-- Frozen: range has set outside tree mode (R45, R49). -/
def Ledger.frozen (x : Ledger) : Bool := x.flag 6 && x.mode != 2

/-- A clear in a named mode (R42). -/
def Ledger.clear (x : Ledger) (mode : Nat) (w : Int) : Ledger :=
  { (if mode = 1 then x.setE w else x) with
    l := if mode = 2 then 0x80000000#128 else 0
    residue := 0
    status := BitVec.ofNat 16 (mode % 4)
    group := [] }

/-- A clear in the mode held, keeping W in window mode (R53, R91). -/
def Ledger.clearHeld (x : Ledger) : Ledger := x.clear x.mode x.e

/-- Freeze at the bound with a sign (R45). -/
def Ledger.freeze (x : Ledger) (neg : Bool) : Ledger :=
  { x.setFlag 6 true with
    l := if neg then BitVec.ofInt 128 (-(2 ^ 127)) else BitVec.ofInt 128 (2 ^ 127 - 1)
    residue := 127 }

/-- Is an integer representable in L? -/
def inLedgerRange (z : Int) : Bool := decide (-(2 ^ 127) ≤ z) && decide (z ≤ 2 ^ 127 - 1)

/-- The flags that every product updates, frozen or not (R41, R45, R50). -/
def Ledger.touch (x : Ledger) (p : Exact) : Ledger :=
  let negZero := match p with
    | .fin true 0 _ => x.flag 3 || !x.flag 2
    | _ => false
  let st := withFlag (withFlag x.status 3 negZero) 2 true
  let st := match p with
    | .nan => withFlag st 7 true
    | .inf true => withFlag st 9 true
    | .inf false => withFlag st 8 true
    | .fin _ m _ => if m = 0 then st else withFlag st 4 true
  { x with status := st }

/-- 8-bit rotation left (R62). -/
def rotl8 (r : BitVec 8) (k : Nat) : BitVec 8 := r.rotateLeft (k % 8)

/-- Set E on the first non-zero finite product, or rebase to a smaller scale (R44, R45, R62). `seen`
says whether E already holds a value. A rebase that leaves the range takes E to the new scale before it freezes
(log entry 121). -/
def Ledger.rebase (x : Ledger) (seen : Bool) (s : Int) : Ledger :=
  if !seen then x.setE s
  else if s < x.e then
    let k := (x.e - s).toNat
    let z := x.value * (2 ^ k : Nat)
    if inLedgerRange z then
      { x.setE s with l := BitVec.ofInt 128 z, residue := rotl8 x.residue k }
    else (x.setE s).freeze (decide (x.value < 0))
  else x

/-- Add an aligned contribution: alone out of range, sum out of range, or exact (R45, R62). -/
def Ledger.addAligned (x : Ledger) (c : Int) : Ledger :=
  if c.natAbs ≥ 2 ^ 127 then x.freeze (decide (c < 0))
  else
    let z := x.value + c
    if inLedgerRange z then
      { x with l := BitVec.ofInt 128 z
               residue := BitVec.ofNat 8 ((x.residue.toNat + (c % 255).toNat) % 255) }
    else x.freeze (decide (z < 0))

/-- The signed integer m × 2^k, truncated toward zero. -/
def alignInt (neg : Bool) (m : Nat) (k : Int) : Int :=
  let t : Int := (shiftNat m k : Nat)
  if neg then -t else t

/-- An exact-mode product of combined scale s (R44). -/
def Ledger.addExact (x : Ledger) (p : Exact) (s : Int) : Ledger :=
  let seen := x.flag 4
  let y := x.touch p
  match p with
  | .fin neg m e =>
    if m = 0 || x.frozen then y
    else
      let z := y.rebase seen s
      if z.frozen then z else z.addAligned (alignInt neg m (64 + e + (s - z.e)))
  | _ => y

/-- A window-mode product (R48). -/
def Ledger.addWindow (x : Ledger) (p : Exact) : Ledger :=
  let y := x.touch p
  match p with
  | .fin neg m e =>
    if m = 0 || x.frozen then y
    else
      let k := 64 + e - y.e
      let z := if hasFraction m k then y.setFlag 5 true else y
      z.addAligned (alignInt neg m k)
  | _ => y

/-- One FP32 addition of tree mode with its flags (R49): the sum, rounded, overflowed. The first additions take the
exact products (log entry 121). -/
def treeAdd (a b : Exact) : Exact × Bool × Bool :=
  let r := roundFloat fp32 0 false 0 (a.add b)
  (decodeFloat fp32 r.bits, r.inexact, r.overflow && !(match a.add b with
    | .inf _ => true
    | _ => false))

/-- One level of the tree: adjacent addends (R49). -/
def treeLevel : List Exact → List Exact × Bool × Bool
  | a :: b :: rest =>
    let (s, i, o) := treeAdd a b
    let (ss, i', o') := treeLevel rest
    (s :: ss, i || i', o || o')
  | rest => (rest, false, false)

/-- The running value of tree mode. -/
def Ledger.running (x : Ledger) : Exact := decodeFloat fp32 (x.l.toNat % 2 ^ 32)

/-- Sum the group, completed with -0 addends, in the balanced tree and add it to the running value (R49). -/
def Ledger.commitGroup (x : Ledger) : Ledger :=
  if x.group.isEmpty then x
  else
    let pad := x.group ++ List.replicate (16 - x.group.length) (.fin true 0 0)
    let (l1, i1, o1) := treeLevel pad
    let (l2, i2, o2) := treeLevel l1
    let (l3, i3, o3) := treeLevel l2
    let (l4, i4, o4) := treeLevel l3
    let (v, i5, o5) := treeAdd x.running (l4.headD (.fin true 0 0))
    let st := if i1 || i2 || i3 || i4 || i5 then withFlag x.status 5 true else x.status
    let st := if o1 || o2 || o3 || o4 || o5 then withFlag st 6 true else st
    { x with l := BitVec.ofNat 128 (roundFloat fp32 0 false 0 v).bits, status := st, group := [] }

/-- A tree-mode product: it joins the group, and the sixteenth completes it (R49). -/
def Ledger.addTree (x : Ledger) (p : Exact) : Ledger :=
  let y := x.touch p
  let y := { y with group := y.group ++ [p] }
  if y.group.length ≥ 16 then y.commitGroup else y

/-- A product of an EMAC of the given combined scale enters a Ledger whose mode suits it (R95). -/
def Ledger.addProduct (x : Ledger) (p : Exact) (s : Int) : Ledger :=
  match x.mode with
  | 0 => x.addExact p s
  | 1 => x.addWindow p
  | 2 => x.addTree p
  | _ => x

/-- Does the mode suit the operand formats (R95)? -/
def Ledger.modeFits (x : Ledger) (bf16 : Bool) : Bool :=
  if bf16 then x.mode == 1 || x.mode == 2 else x.mode == 0

/-- A slice term in the D Ledger or a Q Ledger (R67): `product` is the slice product already shifted
by 8i or 8(i+j) - β, `u` the ulp-exponent sum, `term` the product of the operands. A non-zero term rebases and
is seen as non-zero even where its own slice product is 0 (log entry 121). -/
def Ledger.addSlice (x : Ledger) (isD : Bool) (term : Exact) (product : Int) (u : Int) : Ledger :=
  let seen := x.flag 4
  match term with
  | .fin _ m _ =>
    if m = 0 then (if isD then x.touch term else x)
    else
      let y := x.touch term
      if x.frozen then y
      else
        let z := y.rebase seen u
        if z.frozen then z else z.addAligned (product * (2 ^ (u - z.e).toNat : Nat))
  | _ => if isD then x.touch term else x

/-- The residue recomputed from L (R63). -/
def Ledger.computedResidue (x : Ledger) : BitVec 8 := BitVec.ofInt 8 (x.value % 255)

/-- The residue check; a tree-mode Ledger is not checked (R63). -/
def Ledger.residueOk (x : Ledger) : Bool := x.mode == 2 || x.computedResidue == x.residue

/-- Is +0 or -0 read from L = 0 (R52)? -/
def Ledger.zeroNeg (x : Ledger) (rnd : Nat) : Bool :=
  (x.flag 2 && x.flag 3) || (x.flag 4 && rnd == 2)

/-- The classification of R51: the value taken for rounding, and whether it came from the range row. -/
def Ledger.classify (x : Ledger) (rnd : Nat) : Exact × Bool :=
  if !x.flag 2 then (.fin false 0 0, false)
  else if x.mode = 2 then
    match x.running with
    | .nan => (.nan, false)
    | .inf neg =>
      if x.flag 7 || (x.flag 8 && x.flag 9) then (.nan, false)
      else if x.flag 8 || x.flag 9 then (.inf neg, false)
      else (.inf neg, true)
    | .fin neg m e =>
      if x.flag 7 || (x.flag 8 && x.flag 9) then (.nan, false) else (.fin neg m e, false)
  else if x.flag 7 || (x.flag 8 && x.flag 9) then (.nan, false)
  else if x.flag 8 then (.inf false, false)
  else if x.flag 9 then (.inf true, false)
  else if x.flag 6 then (.inf (decide (x.value < 0)), true)
  else if x.value = 0 then (.fin (x.zeroNeg rnd) 0 0, false)
  else (.fin (decide (x.value < 0)) x.value.natAbs (x.e - 64), false)

/-- The readout flags of R41 bits [12:10]. -/
def Ledger.setReadFlags (x : Ledger) (r : Rounded) : Ledger :=
  ((x.setFlag 10 r.inexact).setFlag 11 r.overflow).setFlag 12 r.invalid

/-- A readout of one Ledger to an element (R51-R54), the range row setting rd_overflow in every format. -/
def Ledger.readElement (x : Ledger) (c : Rctl) (sr : Nat) : Rounded :=
  let (v, fromRange) := x.classify c.rnd
  let r := roundCode c.fmt c.rnd c.sat sr (v.scale c.shift)
  if fromRange then { r with overflow := true } else r

/-- σ of R66. -/
def sliceSigma : Int := 1 + 2 ^ 8 + 2 ^ 16 + 2 ^ 24 + 2 ^ 32 + 2 ^ 40 + 2 ^ 48

/-- L aligned to a common exponent; a Ledger that no non-zero term has reached counts as 0. -/
def Ledger.alignedTo (x : Ledger) (e : Int) : Int :=
  if x.flag 4 then x.value * (2 ^ (x.e - e).toNat : Nat) else 0

/-- The residue of L aligned to a common exponent (R62). -/
def Ledger.alignedResidue (x : Ledger) (e : Int) : Int :=
  if x.flag 4 then (rotl8 x.residue (x.e - e).toNat).toNat else 0

/-- The common exponent of a slice group: the lowest of those that hold a value (R69). -/
def sliceExp (d ql qm qh : Ledger) : Option Int := (([d, ql, qm, qh].filter (·.flag 4)).map (·.e)).min?

/-- Z of R69 at a common exponent. -/
def sliceSum (d ql qm qh : Ledger) (e : Int) : Int :=
  sliceSigma * d.alignedTo e - 2 ^ 8 * ql.alignedTo e - 2 ^ 40 * qm.alignedTo e - 2 ^ 56 * qh.alignedTo e

/-- The residues that the check of R69 compares: the combination of the group's residues, and Z mod 255. -/
def sliceResidues (d ql qm qh : Ledger) : BitVec 8 × BitVec 8 :=
  let e := (sliceExp d ql qm qh).getD 0
  let r := 7 * d.alignedResidue e - ql.alignedResidue e - qm.alignedResidue e - qh.alignedResidue e
  (BitVec.ofInt 8 (r % 255), BitVec.ofInt 8 (sliceSum d ql qm qh e % 255))

/-- The recombined value of a slice group with its range row (R51, R52, R69); a frozen Ledger gives the infinity its
bound's sign, whichever Ledger of the group it is (log entry 11). -/
def sliceClassify (d ql qm qh : Ledger) (rnd : Nat) : Exact × Bool :=
  let all := [d, ql, qm, qh]
  let any (i : Nat) := all.any (·.flag i)
  if !any 2 then (.fin false 0 0, false)
  else if any 7 || (any 8 && any 9) then (.nan, false)
  else if any 8 then (.inf false, false)
  else if any 9 then (.inf true, false)
  else if any 6 then
    let fr := all.filter (·.flag 6)
    let negs := fr.map fun x => decide (x.value < 0)
    if negs.all (· == true) then (.inf true, true)
    else if negs.all (· == false) then (.inf false, true)
    else (.inf (Config.sliceRangeSign d.l ql.l), true)
  else
    match sliceExp d ql qm qh with
    | none => (.fin ((d.flag 2 && d.flag 3) || (any 4 && rnd == 2)) 0 0, false)
    | some e =>
      let z := sliceSum d ql qm qh e
      if z = 0 then (.fin (rnd == 2) 0 0, false)
      else (.fin (decide (z < 0)) z.natAbs e, false)

/-- The 8-bit slices of a significand (R66). -/
def sliceOf (m i : Nat) : Int := (m / 2 ^ (8 * i) % 256 : Nat)

/-- The pair of slices that Q lane q (1-3) takes in a step (R67). -/
def slicePair (q step : Nat) : Nat × Nat :=
  match q, step with
  | 1, 0 => (0, 1)
  | 1, 1 => (0, 2)
  | 1, 2 => (0, 3)
  | 1, 3 => (1, 2)
  | 1, 4 => (0, 4)
  | 1, 5 => (1, 3)
  | 1, _ => (0, 5)
  | 2, 0 => (1, 4)
  | 2, 1 => (2, 3)
  | 2, 2 => (0, 6)
  | 2, 3 => (1, 5)
  | 2, 4 => (2, 4)
  | 2, 5 => (1, 6)
  | 2, _ => (2, 5)
  | _, 0 => (3, 4)
  | _, 1 => (2, 6)
  | _, 2 => (3, 5)
  | _, 3 => (3, 6)
  | _, 4 => (4, 5)
  | _, 5 => (4, 6)
  | _, _ => (5, 6)

/-- β, the bit-0 exponent of lane q (R67). -/
def sliceBase (q : Nat) : Nat :=
  match q with
  | 0 => 0
  | 1 => 8
  | 2 => 40
  | _ => 56

/-- The significand and ulp exponent of an FP64 operand (R66). -/
def sliceOperand (x : BitVec 64) : Nat × Int :=
  let b := (x.extractLsb' 52 11).toNat
  let f := (x.extractLsb' 0 52).toNat
  (if b = 0 then f else 2 ^ 52 + f, (max b 1 : Nat) - 1075)

/-- One slice step of one engine lane (R67): q = 0 is the D lane. -/
def Ledger.sliceStep (x : Ledger) (q step : Nat) (a b : BitVec 64) : Ledger :=
  let fa := decodeFloat ⟨11, 52, 1023, true, false⟩ a.toNat
  let fb := decodeFloat ⟨11, 52, 1023, true, false⟩ b.toNat
  let (ma, ua) := sliceOperand a
  let (mb, ub) := sliceOperand b
  let s : Int := if a.msb != b.msb then -1 else 1
  let product :=
    if q = 0 then s * (sliceOf ma step * sliceOf mb step) * (2 ^ (8 * step) : Nat)
    else
      let (i, j) := slicePair q step
      s * ((sliceOf ma i - sliceOf ma j) * (sliceOf mb i - sliceOf mb j)) *
        (2 ^ (8 * (i + j) - sliceBase q) : Nat)
  x.addSlice (q == 0) (fa.mul fb) product (ua + ub)

/-- The 32 B save record (R60). E holds no value before the first non-zero product of an exact or
slice accumulation, nor in tree mode (log entry 121). The residue field of tree
mode reads 0 (R63). -/
def Ledger.record (x : Ledger) : BitVec 256 :=
  let hasE := x.mode == 1 || (x.mode != 2 && x.flag 4)
  let e : BitVec 10 := if hasE then x.expo else Config.unsetExponent
  let e16 : BitVec 16 := e.signExtend 16
  let r : BitVec 8 := if x.mode = 2 then 0 else x.residue
  (0#80 ++ x.status ++ 0#8 ++ r ++ e16 ++ x.l : BitVec 256)

/-- The Ledger that a record restores, residue_fault set on a mismatch (R61); the residue of tree mode reads 0 (R63).
The reserved bits of the status word are kept as stored (log entry 121). -/
def Ledger.ofRecord (r : BitVec 256) : Ledger :=
  let x : Ledger :=
    { l := r.extractLsb' 0 128
      expo := r.extractLsb' 128 10
      residue := if (r.extractLsb' 160 2) = 2#2 then 0 else r.extractLsb' 144 8
      status := r.extractLsb' 160 16 }
  if x.residueOk then x else x.setFlag 13 true

end Sys2Proof.Machine
end

