-- ==== Sys2Proof/Machine/JobOps.lean ====
section
/-! DEFINITION. Events at their sources, the jobs that hold dies, and every way a job stops (09, 11, 18). -/

namespace Sys2Proof.Machine

/-! ### Jobs by place -/

/-- The die sites of a rectangle (R277). -/
def rectDies (row0 col0 height width : Nat) : List Nat :=
  (List.range height).flatMap fun r => (List.range width).map fun c => (row0 + r) * 8 + col0 + c

def Job.dies (j : Job) : List Nat := rectDies j.row0 j.col0 j.height j.width

/-- What a slot without a job keeps: its generation and the beats withheld from its last job (R274, R383). -/
def Job.bare (j : Job) : Job := { gen := j.gen, withheld := j.withheld, dead := j.dead }

/-- Does the slot hold a job (any state from Loading to Unloading, R273)? -/
def Job.held (j : Job) : Bool := j.st != .free

/-- Is a die of the rectangle? -/
def Job.covers (j : Job) (die : Nat) : Bool :=
  decide (j.row0 ≤ die / 8) && decide (die / 8 < j.row0 + j.height) &&
    decide (j.col0 ≤ die % 8) && decide (die % 8 < j.col0 + j.width)

/-- The slot whose job owns a die (R277). -/
def State.slotOfDie (s : State) (die : Nat) : Option Nat :=
  (List.range 64).find? fun k => (s.job k).held && (s.job k).covers die

/-- The idle map (R407): the dies that no slot holds or reserves and no block reset or burn has reserved; none before
step 0 (R412, log entry 150). -/
def State.idleMap (s : State) : Nat :=
  if !s.bru.step0 then 0
  else (List.range 64).foldl (fun n d =>
    if (s.slotOfDie d).isSome || s.bru.blockMask.getLsbD d || s.bru.burnDie == some (BitVec.ofNat 6 d) then n
    else n + 2 ^ d) 0

/-- The idle map's generation advances where it changed from an earlier state (R407). -/
def State.trackIdle (s old : State) : State :=
  if s.idleMap = old.idleMap then s
  else s.setField Reg.BRU_IDLE_GEN 0 16 (s.field Reg.BRU_IDLE_GEN 0 16 + 1)

/-- The slot whose job owns a cluster. -/
def State.slotOfCluster (s : State) (g : Nat) : Option Nat := s.slotOfDie (gidDie g)

/-- The job tag of a cluster's job, or 0. -/
def State.tagOfDie (s : State) (die : Nat) : BitVec 16 :=
  match s.slotOfDie die with
  | some k => (s.job k).tag
  | none => 0

/-- Is a job Running or Stopping? -/
def Job.live (j : Job) : Bool := j.st == .running || j.st == .stopping

/-- Do job beats advance: Running, or Stopping because every cluster has reached END (R123, R292)? -/
def Job.beating (j : Job) : Bool := j.st == .running || (j.st == .stopping && j.stopKind == 0)

/-- The time of a cycle of the job's clock (R375, R378). -/
def Job.cycleMs (j : Job) (n : Nat) : Nat := j.zeroMs + n * (if j.half then 8 else 4) / 5

/-- The clusters of a job, by global cluster ID. -/
def Job.clusters (j : Job) : List Nat :=
  j.dies.flatMap fun d => (List.range 1024).map fun i => d * 1024 + i

/-- The global ID of a relative cluster number (R149). -/
def Job.globalOf (j : Job) (rel : Nat) : Nat :=
  let d := rel / 1024
  ((j.row0 + d / j.width) * 8 + j.col0 + d % j.width) * 1024 + rel % 1024

/-- The die site of a relative die number (R149). -/
def Job.siteOf (j : Job) (rel : Nat) : Nat := (j.row0 + rel / j.width) * 8 + j.col0 + rel % j.width

/-! ### Events (R453-R457) -/

/-- An event of a source, stamped now. -/
def State.eventOf (s : State) (src cls cause : Nat) : EventRec where
  ms := s.ms
  source := s.sourceName src
  cls := BitVec.ofNat 8 cls
  cause := BitVec.ofNat 8 cause

/-- The faults that are local evidence of failure where they stop a paired job, by class and cause (R346): residue,
uncorrectable SRAM or Coachhouse data consumed, crossing, BIST, sequencer lock-up, stream failure (R334). -/
def isEvidence (cls cause : Nat) : Bool :=
  cls == 0x02 || cls == 0x03 || cls == 0x05 || cls == 0x16 || cls == 0x12 || cls == 0x0D || (cls == 0x01 && cause == 0x04)

/-- A record of what is local evidence where `b` holds: the flag is set while pair mode is active (R455). -/
def State.asEvidence (s : State) (b : Bool) (r : EventRec) : EventRec :=
  if s.pairActive && b then { r with flags := r.flags ||| 4#16 } else r

/-- An event stands at its source until EVENT_DELIVERY (R457); evidence is remembered for a mismatch (R347). -/
def State.logEvent (s : State) (r : EventRec) : State :=
  let s := { s with ev := { s.ev with atSource := s.ev.atSource ++ [r] } }
  if r.flags.getLsbD 2 then { s with pair := { s.pair with evidence := true } } else s

/-- The same record as local evidence, decided before the module failed with it (R455). -/
def State.logMarked (s : State) (evidence : Bool) (src cls cause p0 p1 : Nat) (p2 : Nat) : State :=
  s.logEvent { s.eventOf src cls cause with
    p0 := BitVec.ofNat 32 p0, p1 := BitVec.ofNat 64 p1, p2 := BitVec.ofNat 64 p2
    flags := if evidence then 4#16 else 0#16 }

/-- An event of the module that stops no job. -/
def State.logPlain (s : State) (src cls cause p0 p1 p2 : Nat) : State :=
  s.logEvent { s.eventOf src cls cause with
    p0 := BitVec.ofNat 32 p0, p1 := BitVec.ofNat 64 p1, p2 := BitVec.ofNat 64 p2 }

/-- The lock-write event of R8: class register, with the offset and the function that wrote. -/
def State.logLockWrite (s : State) (via : Via) (off : Nat) : State :=
  match via with
  | .host p fn => s.logPlain (srcHostPort p) 0x17 0x01 (off + 2 ^ 24 * fn.toNat) 0 0
  | _ => s.logPlain srcOstler 0x17 0x01 (off + 2 ^ 30) 0 0

/-! ### Service -/

/-- Insert into a rising list. -/
def insertNat (n : Nat) : List Nat → List Nat
  | [] => [n]
  | m :: ms => if n < m then n :: m :: ms else if n = m then m :: ms else m :: insertNat n ms

/-- A participant leaves the Tollgate roster at once (R200). -/
def State.leave (s : State) (src : Nat) : State := { s with outOf := insertNat src s.outOf }

/-- Is a participant in service? -/
def State.serves (s : State) (src : Nat) : Bool := !s.outOf.contains src

/-- The distance table changed (R154): its generation advances on every die. -/
def State.distChanged (s : State) : State :=
  (List.range 64).foldl (fun s d => s.bump (Reg.FAB_DIST_GEN d) 0 32 1) s

/-! ### Streams and strips of a job that stops -/

/-- The stream states in which a stream is open on its port (R332, R333). -/
def StreamState.isOpen (x : StreamState) : Bool :=
  match x with
  | .opening => true
  | .opened => true
  | .suspended => true
  | .closing => true
  | _ => false

/-- Send CLOSE to one stream of a job (R332). A stream that has not opened just ends. -/
def State.closeStream (s : State) (k arg : Nat) : State :=
  let t := s.stream k
  match t.st with
  | .opened => (s.sendMsg t.port 0 0x07 (if t.paired then 2 else 0) t.key.toNat arg []).setStream k { t with st := .closing }
  | .opening => (s.sendMsg t.port 0 0x07 (if t.paired then 2 else 0) t.key.toNat arg []).setStream k { t with st := .closing }
  | .suspended => (s.sendMsg t.port 0 0x07 (if t.paired then 2 else 0) t.key.toNat arg []).setStream k { t with st := .closing }
  | .waitOpen => s.setStream k { t with st := .closed }
  | _ => s

/-- CLOSE to every stream of a job that satisfies a test. -/
def State.closeStreams (s : State) (slot arg : Nat) (p : TStream → Bool) : State :=
  (s.streamsOf slot p).foldl (fun s k => s.closeStream k arg) s

/-- The keys of a job's stream slots. -/
def State.stripsOf (s : State) (slot : Nat) : List Nat :=
  (s.strips.filter fun (_, x) => x.used && x.job.toNat == slot).map (·.1)

/-- Egress slots stop and discard their buffers; ingress slots go on, or discard what they have not
written (R294, R295). -/
def StreamSlot.stop (x : StreamSlot) (discard : Bool) : StreamSlot :=
  if !x.desc.ingress then { x with stopped := true, buf := [], early := [], spillAt := [], ctl := [] }
  else if discard then { x with stopped := true, buf := [], spillAt := [], done := true }
  else { x with stopped := true }

def State.stopStrips (s : State) (slot : Nat) (discard : Bool) : State :=
  (s.stripsOf slot).foldl (fun s k => s.setStrip k ((s.strip k).stop discard)) s

/-- Poisoned entries left in a cluster's queues that no instruction has consumed; a head that a peek consumed stands in
its queue still (R464, R465). -/
def Cluster.poisonLeft (c : Cluster) : Nat :=
  c.queues.foldl (fun n (q, x) =>
    n + ((if c.tasted.contains q then x.entries.drop 1 else x.entries).filter (·.poison)).length) 0

/-- Poisoned entries left in the queues of a job's clusters (R465). -/
def State.poisonLeft (s : State) (j : Job) : Nat :=
  (s.clusters.filter fun (g, _) => j.covers (gidDie g)).foldl (fun n (_, c) => n + c.poisonLeft) 0

/-- What is left poisoned in the queues of a job is counted once, when the job ends (R465). -/
def State.countPoison (s : State) (slot : Nat) : State :=
  let j := s.job slot
  let n := if j.poisonCounted then 0 else s.poisonLeft j
  let s := s.modJob slot fun j => { j with poisonCounted := true }
  if n = 0 then s else s.bump Reg.EVT_POISON 16 16 n

/-- Entries that the hash unit has yet to inject, behind those that wait (R228). -/
def Cluster.queueSpill (c : Cluster) (outs : List SpillOut) : Cluster := { c with spillOut := c.spillOut ++ outs }

/-- A spill begins to hold issue (R180): lanes that spill in one beat do so in parallel, and beside a merge that holds
issue already the spill's beats pass in its hold. -/
def Cluster.stallSpill (c : Cluster) (n : Nat) (chs : Bool) : Cluster :=
  match c.stall with
  | .none => { c with stall := .spill n chs }
  | .spill m chs' => { c with stall := .spill (max m n) (chs' || chs) }
  | .merge _ _ _ _ _ _ _ => c

/-- A result lands. A spill that begins in a beat that a wait holds counts from the next beat on, as in any other. -/
def Cluster.apply (c : Cluster) (t : Target) : Cluster :=
  match t with
  | .vreg l r v => c.setLane l ((c.lane l).setVreg r v)
  | .sreg r m v => c.setSreg r ((c.sreg r &&& ~~~m) ||| (v &&& m))
  | .pred r m v => c.setPred r ((c.pred r &&& ~~~m) ||| (v &&& m))
  | .scaleA l v => c.setLane l { c.lane l with sa := v }
  | .scaleB l v => c.setLane l { c.lane l with sb := v }
  | .mem l a bs => c.setLane l ((c.lane l).writeSram a bs)
  | .ledgers l acc ls => c.setLane l ((c.lane l).setLedgers acc ls)
  | .ledgerFault l acc which => c.setLane l ((c.lane l).setLedgers acc
      (((c.lane l).ledgers acc).zipIdx.map fun (x, j) => if which.contains j then x.setFlag 13 true else x))
  | .walk l a b m => c.setLane l { c.lane l with walkA := a, walkB := b, walkM := m }
  | .table l w t => c.setLane l ((c.lane l).setTable w t)
  | .spill n chs outs => (c.stallSpill (if c.issued then n else n + 1) chs).queueSpill outs

/-- Is it the residue_fault bit that a save leaves? -/
def Target.isFault (t : Target) : Bool :=
  match t with
  | .ledgerFault _ _ _ => true
  | _ => false

/-- The results of one beat land; the residue_fault bit that a save leaves stands over what the E slot of its word
makes of the Ledger (R64). -/
def Cluster.applyAll (c : Cluster) (ls : List Landing) : Cluster :=
  (ls.filter (!·.target.isFault) ++ ls.filter (·.target.isFault)).foldl (fun c p => c.apply p.target) c

/-- Every result in flight lands, in the order of the beats in which it was due. -/
def Cluster.landRest (c : Cluster) : Cluster :=
  let last := c.pend.foldl (fun n p => max n p.beats) 0
  { (List.range (last + 1)).foldl (fun (c : Cluster) n => c.applyAll (c.pend.filter (·.beats == n))) c with
    pend := [], older := 0 }

/-- Issue has ended and nothing is held any more; what was in flight lands (R61, R64: a readout or a restore that
finds a fault still completes; log entry 122); entries left in queues are discarded poison. -/
def State.endIssue (s : State) (slot : Nat) : State :=
  let j := s.job slot
  let s := s.countPoison slot
  { s with
    clusters := s.clusters.map fun (g, c) =>
      if j.covers (gidDie g) then (g, { c.landRest with parked := true, hold := .none, stall := .none, issued := false, spillOut := [], mergeIn := [] })
      else (g, c) }

/-- What a slot holds beside its clusters is released: stream slots, transit routes, link streams (R297). -/
def State.releaseSlot (s : State) (slot : Nat) : State :=
  { s with
    strips := s.strips.filter fun p => !(p.2.used && p.2.job.toNat == slot)
    transit := s.transit.filter fun t => t.job.toNat != slot
    transitIn := s.transitIn.filter fun t => t.job.toNat != slot
    streams := s.streams.filter fun p => p.2.job.toNat != slot }

/-! ### Ends of a job (R292-R296) -/

/-- A command that waits for a job is done, if there is one; its ring is not settled yet. -/
def State.markOpt (s : State) (ref : Option DescRef) (status : Byte) (tag : BitVec 16) (detail : BitVec 32) : State :=
  match ref with
  | some r => s.markDone r status tag detail
  | none => s

/-- Stopped: the pending JOB_START is done with 0x04 and the stop commands with 0x00 (R293, R294). -/
def State.becomeStopped (s : State) (slot : Nat) : State :=
  let j := s.job slot
  let detail := if j.stopKind = 3#8 then 2 else if j.stopKind = 2#8 then 1 else 0
  let s := s.setJob slot { j with st := .stopped, startRef := none, stopRefs := [], stopAt := none }
  let s := s.markOpt j.startRef 0x04 j.tag detail
  j.stopRefs.foldl (fun s r => s.markDone r 0x00 j.tag 0) s

/-- Does the oldest descriptor of a ring only wait to retire? -/
def Ring.ripe (r : Ring) : Bool :=
  match r.descs with
  | d :: _ => match d.phase with
    | .done _ _ _ => true
    | _ => false
  | [] => false

/-- What one host port's rings have done retires. -/
def State.settlePort (s : State) (port : Bool) : State :=
  (s.ringsWhere fun r => r.port == port && r.ripe).foldl (fun s rn => s.settleRing rn) s

/-- Everything that is done retires: completions of one Milestone value stand in the order of the host ports that write
them (R32). -/
def State.settleDone (s : State) : State := (s.settlePort false).settlePort true

/-- Every accepted entry of a job's ingress slots is written and acknowledged. -/
def State.ingressDone (s : State) (slot : Nat) : Bool :=
  (s.stripsOf slot).all fun k =>
    let x := s.strip k
    !x.desc.ingress || (x.buf.isEmpty && x.acked == x.accepted)

/-- A stop that takes effect now (R294, R295): stop kinds 1 JOB_STOP, 2 JOB_KILL, 3 drain. -/
def State.stopNow (s : State) (slot : Nat) : State :=
  let j := s.job slot
  let discard := j.stopKind != 1#8
  let s := (s.endIssue slot).stopStrips slot discard
  let s := if discard then s.closeStreams slot 1 (fun _ => true)
    else s.closeStreams slot 0 (fun t => t.kind == 1 || t.kind == 4)
  let s := s.modJob slot fun j => { j with st := .stopping, stopAt := none }
  if discard || s.ingressDone slot then s.becomeStopped slot else s

/-- JOB_KILL and drain in each state (R293, R295). A kill or drain that already stops the job stays its cause, and
the 4 µs of R294 count from the first stop that was accepted. A fault that stops the job at the end of the beat comes
first (R296). -/
def State.killJob (s : State) (slot : Nat) (kind : BitVec 8) : State :=
  let j := s.job slot
  let kind := if j.stopKind.toNat ≥ 2 then j.stopKind else kind
  match j.st with
  | .loaded =>
    let s := (s.stopStrips slot true).closeStreams slot 1 (fun _ => true)
    (s.modJob slot fun j => { j with stopKind := kind }).becomeStopped slot
  | .running =>
    let first := if j.stopAt.isSome then j.acceptMs else s.ms
    s.setJob slot { j with
      stopKind := kind, stopAt := some (j.stopAt.getD j.beat), acceptMs := first }
  | .stopping => if j.faultDue then s else (s.setJob slot { j with stopKind := kind }).stopNow slot
  | _ => s

/-- Kill every job as a drain; no completion is written yet (R346, R405, R475). -/
def State.drainQuiet (s : State) : State := (List.range 64).foldl (fun s k => s.killJob k 3#8) s

/-- Kill every job as a drain (R475). -/
def State.drainAll (s : State) : State := s.drainQuiet.settleDone

/-- This module declares itself failed (R346): PAIR_FAIL on every ACTIVE pair port, state failed, every job killed as
a drain, a pair event of cause 0x02. From the state on nothing is written on paired rings; what is done on the others
has not retired yet. A module already failed does nothing more. -/
def State.pairFails (s : State) (cause : Nat) : State :=
  if s.pairActive && s.pairState != 4 then
    let p0 := s.field Reg.PST_PAIR_STATUS 5 10 + 2 ^ 10 * 4
    let s := s.activePairPorts.foldl (fun s p => s.sendMsg p 0 0x22 0 0 cause []) s
    let s := (s.setPairState 4).bump Reg.PST_PAIR_COUNTS 0 8 1
    let s := s.drainQuiet
    s.logEvent { s.eventOf srcOstler 0x0E 0x02 with p0 := BitVec.ofNat 32 p0, flags := 1 }
  else s

/-- The same, and what is done on rings outside the pair retires. -/
def State.pairDeclareFailed (s : State) (cause : Nat) : State := (s.pairFails cause).settleDone

/-- The JOB_START of a job whose first stopping event the log has committed is done with status 0x03 (R270, R462). -/
def State.markStart (s : State) (slot : Nat) : State :=
  let j := s.job slot
  match j.firstStop with
  | some (cls, cause) => (s.modJob slot fun j => { j with startRef := none }).markOpt j.startRef 0x03 j.tag
      (BitVec.ofNat 32 (cause.toNat + 2 ^ 8 * cls.toNat))
  | none => s

/-- A fault stops a job: every die of the rectangle at once (the spec allows others up to 2 µs, log
entry 12), ingress entries discarded, streams closed with abort, state Faulted (R296, R332). A later
cause never changes an earlier state. Where the log has committed its first stopping event already, its JOB_START is done
with status 0x03. -/
def State.faultJob (s : State) (slot : Nat) : State :=
  let j := s.job slot
  match j.st with
  | .loaded | .running | .stopping =>
    let s := ((s.endIssue slot).stopStrips slot true).closeStreams slot 1 (fun _ => true)
    let (v, s) := if j.stopRefs.isEmpty then (0, s) else s.fresh
    let s := s.modJob slot fun j => { j with st := .faulted, stopAt := none, stopRefs := [] }
    let s := s.markStart slot
    j.stopRefs.foldl (fun s r => s.markDone r (BitVec.ofNat 8 v) j.tag (BitVec.ofNat 32 (v / 256))) s
  | _ => s

/-- The module fails first where a cause is given, so that nothing leaves on paired rings; then what is done retires
(R346). -/
def State.failOrSettle (s : State) (fail : Option Nat) : State :=
  match fail with
  | some c => s.pairDeclareFailed c
  | none => s.settleDone

/-- The record of a fault of a slot's job: its tag, the stop flag, and evidence where the job is paired (R455). -/
def State.stopRec (s : State) (slot : Nat) (r : EventRec) : EventRec :=
  let j := s.job slot
  s.asEvidence (j.paired && isEvidence r.cls.toNat r.cause.toNat) { r with jobTag := j.tag, flags := r.flags ||| 1#16 }

/-- A fault of a slot's job at once; `fail` is the PAIR_FAIL cause where the module fails with it (R346, R462). -/
def State.stopWith (s : State) (slot : Nat) (r : EventRec) (fail : Option Nat) : State :=
  ((s.logEvent (s.stopRec slot r)).faultJob slot).failOrSettle fail

/-- An event that stops the job of a slot (R455, R462). A fault that stops a paired job is a module failure of cause
0x01 (R346). -/
def State.stopEvent (s : State) (slot : Nat) (r : EventRec) : State :=
  s.stopWith slot r (if (s.job slot).paired && isEvidence r.cls.toNat r.cause.toNat then some 1 else none)

/-- A fault of the job in a slot: it stops the job at the end of the beat while it runs, at once otherwise
(R296). -/
def State.slotFault (s : State) (k : Nat) (r : EventRec) : State :=
  let j := s.job k
  if j.beating then
    let ev := isEvidence r.cls.toNat r.cause.toNat
    let s := s.logEvent (s.stopRec k r)
    s.modJob k fun j => { j with faultDue := true, evidenceDue := j.evidenceDue || ev }
  else s.stopEvent k r

/-- One fault hits several jobs; those that do not run stop at once, together (R32, R141, R348). -/
def State.slotFaults (s : State) (ks : List Nat) (r : Nat → EventRec) : State :=
  let fails := ks.any fun k => !(s.job k).beating && (s.job k).paired && isEvidence (r k).cls.toNat (r k).cause.toNat
  let s := ks.foldl (fun s k =>
    if (s.job k).beating then s.slotFault k (r k) else (s.logEvent (s.stopRec k (r k))).faultJob k) s
  s.failOrSettle (if fails then some 1 else none)

/-- A fault of a job because a part that it uses goes out of service: where the job is paired, the event is evidence and
the module fails at once with cause 0x02 (R346). -/
def State.partFault (s : State) (k : Nat) (r : EventRec) : State :=
  let j := s.job k
  if !j.paired || !s.pairActive then s.slotFault k r
  else
    let r := { r with flags := r.flags ||| 4#16 }
    if j.beating then (s.slotFault k r).pairDeclareFailed 2 else s.stopWith k r (some 2)

/-- A fault of a cluster, charged to its job; a cluster without a job only logs it. -/
def State.clusterFault (s : State) (g : Nat) (r : EventRec) : State :=
  let r := { r with loc := BitVec.ofNat 16 g }
  match s.slotOfCluster g with
  | some k => s.slotFault k r
  | none => s.logEvent r

/-- The end of a beat in which a fault was detected (R296). -/
def State.faultsAtBeatEnd (s : State) (slot : Nat) : State :=
  let j := s.job slot
  if j.faultDue then
    let s := (s.faultJob slot).modJob slot fun j => { j with faultDue := false, evidenceDue := false }
    s.failOrSettle (if j.paired && j.evidenceDue then some 1 else none)
  else s

/-- The physical core that carries a lane (R78). -/
def Cluster.core (c : Cluster) (lane : Nat) : Nat := c.coreMap.getD lane lane

end Sys2Proof.Machine
end

