-- ==== Sys2Proof/Machine/Operands.lean ====
section
/-! DEFINITION. Issue, operand codes, queue heads as operands, and results that land later
(R81-R90, R114-R117, R464). -/

namespace Sys2Proof.Machine

/-! ### Issue -/

/-- Can the cluster's sequencer issue in this beat (R81, R106)? Its job runs, END has not parked it, and
nothing held issue when the beat began; a slot that holds issue does not hold the others of its instruction. -/
def State.canIssue (s : State) (g : Nat) : Bool :=
  match s.slotOfCluster g with
  | some k =>
    let c := s.cluster g
    (s.job k).st == .running && !c.parked && (c.issued || (c.hold == .none && c.stall == .none))
  | none => false

/-- What a slot sees when its instruction issues: the cluster before the instruction, its ID, its lane
mask. -/
structure Slot where
  g : Nat
  i : Issue
  c : Cluster
  mask : BitVec 16

/-- An execution fault (R118): word address, lane mask, lane address, of the instruction that the slot belongs to. -/
def State.execFault (s : State) (x : Slot) (cause : Nat) (lane : Option Nat) (addr : Nat) : State :=
  let r := s.eventOf x.g 0x01 cause
  let r := match lane with
    | some l => { r with lane := BitVec.ofNat 8 l, pcore := BitVec.ofNat 8 (x.c.core l) }
    | none => r
  s.clusterFault x.g { r with
    beat := x.c.execBeat
    p0 := BitVec.ofNat 32 (x.c.pc + 2 ^ 16 * x.mask.toNat)
    p1 := BitVec.ofNat 64 addr }

/-- A residue fault (R64, R460): engine or table, index, stored and computed residue. The physical core
enters the suspect list when the record is committed (R467). -/
def State.residueFault (s : State) (x : Slot) (cause lane unit idx : Nat) (hash : Bool) (pos : Nat)
    (stored computed : BitVec 8) : State :=
  s.clusterFault x.g { s.eventOf x.g 0x02 cause with
    lane := BitVec.ofNat 8 lane
    pcore := BitVec.ofNat 8 (x.c.core lane)
    beat := x.c.execBeat
    p0 := BitVec.ofNat 32 (unit + 2 ^ 3 * idx + (if hash then 2 ^ 14 else 0))
    p1 := BitVec.ofNat 64 pos
    p2 := BitVec.ofNat 64 (stored.toNat + 256 * computed.toNat) }

/-- A cluster in the beat in which it issues a word: the results already in flight are older than the word's own (R81,
R83). -/
def Cluster.begun (c : Cluster) : Cluster :=
  { c with issued := true, older := if c.issued then c.older else c.pend.length }

/-- A slot of an instruction issues; a cluster that cannot issue does nothing (log entry 13). -/
def State.issue (s : State) (i : Issue) (f : Slot → State → State) : State :=
  let g := i.cluster.toNat
  if s.canIssue g then
    let c := s.cluster g
    f { g := g, i := i, c := c, mask := c.laneMask i } (s.setCluster g c.begun)
  else s

/-- Results enter the pipeline; each lands at the end of its last beat (R82). -/
def State.land (s : State) (g : Nat) (ls : List Landing) : State :=
  s.modCluster g fun c => { c with pend := c.pend ++ ls }

/-! ### Operand codes -/

/-- The queue that a vector operand code names, and whether it consumes (R89). -/
def vectorQueue (code : Nat) : Option (Nat × Bool) :=
  if 32 ≤ code ∧ code < 36 then some (code - 32, true)
  else if 36 ≤ code ∧ code < 40 then some (code - 36, false)
  else none

/-- The queue that a scalar operand code names, by the queue codes of R150, and whether it consumes (R90). -/
def scalarQueue (code : Nat) : Option (Nat × Bool) :=
  if 32 ≤ code ∧ code < 36 then some (code - 32 + 4, true)
  else if 36 ≤ code ∧ code < 40 then some (code - 36 + 4, false)
  else if 40 ≤ code ∧ code < 42 then some (code - 40 + 8, true)
  else if 42 ≤ code ∧ code < 44 then some (code - 42 + 8, false)
  else none

/-- The head of a queue; an empty queue reads 0 (R115). -/
def Cluster.head (c : Cluster) (q : Nat) : BitVec 512 :=
  match (c.queue q).entries with
  | e :: _ => e.data
  | [] => 0

/-- A vector operand in a lane (R89). -/
def Cluster.vop (c : Cluster) (lane code : Nat) : BitVec 512 :=
  if code < 32 then (c.lane lane).vreg code
  else match vectorQueue code with
    | some (q, _) => c.head q
    | none => 0

/-- A field of the queue status word: the occupancy, saturated (R116). -/
def statusField (c : Cluster) (q top : Nat) : Nat := min (c.queue q).entries.length top

/-- The queue status word (R116, R117): what stood at the end of the last beat. -/
def Cluster.statusWord (c : Cluster) : Nat :=
  statusField c 0 15 + 2 ^ 4 * statusField c 1 15 + 2 ^ 8 * statusField c 2 15 +
    2 ^ 12 * statusField c 3 15 + 2 ^ 16 * statusField c 4 7 + 2 ^ 19 * statusField c 5 7 +
    2 ^ 22 * statusField c 6 7 + 2 ^ 25 * statusField c 7 7 + 2 ^ 28 * statusField c 8 3 +
    2 ^ 30 * statusField c 9 3

/-- The iteration index of the N-th innermost active block (R90, R107). -/
def Cluster.iteration (c : Cluster) (n : Nat) : Nat :=
  match c.rep[n]? with
  | some f => f.idx
  | none => 0

/-- A scalar operand (R90). -/
def Cluster.sop (c : Cluster) (g code : Nat) : BitVec 64 :=
  if code < 32 then c.sreg code
  else match scalarQueue code with
    | some (q, _) => (c.head q).setWidth 64
    | none =>
      if code = 44 then BitVec.ofNat 64 c.statusWord
      else if 45 ≤ code ∧ code < 49 then BitVec.ofNat 64 (c.iteration (code - 45))
      else if code = 49 then c.execBeat
      else if code = 50 then BitVec.ofNat 64 g
      else 0

/-! ### Queue heads named by a slot -/

/-- One naming of a queue head by a slot: queue code, operand code, consumed. -/
structure Naming where
  q : Nat
  code : Nat
  take : Bool

/-- The naming of a vector operand. -/
def namesV (code : Nat) : List Naming :=
  match vectorQueue code with
  | some (q, t) => [⟨q, code, t⟩]
  | none => []

/-- The naming of a scalar operand. -/
def namesS (code : Nat) : List Naming :=
  match scalarQueue code with
  | some (q, t) => [⟨q, code, t⟩]
  | none => []

/-- The poison fault of R464: operand code, slot number, queue code. -/
def State.poisonFault (s : State) (x : Slot) (cause slotNo code q : Nat) : State :=
  let s := if (s.cluster x.g).consumed.contains (q + 16) then s else s.bump Reg.EVT_POISON 0 16 1
  s.clusterFault x.g { s.eventOf x.g 0x03 cause with
    beat := x.c.execBeat
    p0 := BitVec.ofNat 32 (code + 2 ^ 6 * slotNo + 2 ^ 8 * q)
    p1 := BitVec.ofNat 64 x.c.pc }

/-- Note that the instruction of this beat consumes a queue's head (its code), or that an acting slot
consumed poison there (its code plus 16). -/
def Cluster.note (c : Cluster) (k : Nat) : Cluster :=
  if c.consumed.contains k then c else { c with consumed := c.consumed ++ [k] }

/-- One naming takes effect (R88, R114, R115, R464): underflow, poison in a slot that acts, consumption. DESIGN CHOICE
(log entry 159): each slot logs one underflow record for each empty queue that it names. -/
def State.nameQueue (s : State) (x : Slot) (slotNo : Nat) (acts : Bool) (n : Naming) : State :=
  let s := match (x.c.queue n.q).entries with
    | [] => s.execFault x 0x01 none 0
    | e :: _ =>
      if acts && e.poison then
        (s.poisonFault x 0x01 slotNo n.code n.q).modCluster x.g fun c => c.note (n.q + 16)
      else s
  if n.take then s.modCluster x.g fun c => c.note n.q else s

/-- The namings of a slot, one for each queue (R114); slot numbers 0 E, 1 V, 2 M, 3 Q. -/
def State.nameQueues (s : State) (x : Slot) (slotNo : Nat) (acts : Bool) (ns : List Naming) : State :=
  match ns with
  | [] => s
  | [n] => s.nameQueue x slotNo acts n
  | [a, b] =>
    if a.q = b.q then s.nameQueue x slotNo acts { a with take := a.take || b.take }
    else (s.nameQueue x slotNo acts a).nameQueue x slotNo acts b
  | n :: rest => rest.foldl (fun s m => s.nameQueue x slotNo acts m) (s.nameQueue x slotNo acts n)

/-- Does a slot that obeys the lane mask act in any lane? -/
def Slot.acts (x : Slot) : Bool := x.mask != 0#16

/-- The lanes in which the slot acts. -/
def Slot.lanes (x : Slot) : List Nat := activeLanes x.mask

/-- Step the stochastic-rounding generator and give its value (R58, R88). -/
def State.stepSr (s : State) (g : Nat) : BitVec 32 × State :=
  let v := srStep (s.cluster g).sr
  (v, s.modCluster g fun c => { c with sr := v })

/-- The 32-bit element n of a register. -/
def element (v : BitVec 512) (n : Nat) : BitVec 32 := v.extractLsb' (32 * n) 32

/-- Pack elements of a width from bit 0 upward, the rest 0. -/
def packBits (w : Nat) (xs : List Nat) : Nat :=
  xs.foldr (fun x acc => x % 2 ^ w + 2 ^ w * acc) 0

/-- A register of sixteen 32-bit elements. -/
def ofElements (xs : List (BitVec 32)) : BitVec 512 := BitVec.ofNat 512 (packBits 32 (xs.map (·.toNat)))

end Sys2Proof.Machine
end

