-- ==== Sys2Proof/Machine/Legal.lean ====
section
/-! DEFINITION. Which slot commands hold no value that admission refuses: reserved codes, registers past
v31, operations a cluster's kind lacks (R35, R38, R53, R76, R86-R104, R188, R501). -/

namespace Sys2Proof.Machine

/-- A vector operand code that is not reserved (R89). -/
def vcodeOk (x : BitVec 6) : Bool := decide (x.toNat ≤ 40)

/-- A scalar operand code that is not reserved (R90). -/
def scodeOk (x : BitVec 6) : Bool := decide (x.toNat ≤ 51)

/-- The scalar operand of a 32-element operation on an F cluster: no queue head (R90, R99). -/
def scodePlainOk (x : BitVec 6) : Bool := scodeOk x && !(decide (32 ≤ x.toNat) && decide (x.toNat < 44))

/-- An operand of a 32-element operation on an F cluster: an even register or zero (R99). -/
def pairCodeOk (x : BitVec 6) : Bool :=
  (decide (x.toNat < 32) && x.toNat % 2 == 0) || x.toNat == 40

/-- An operand of an element operation on a cluster's kind (R89, R99). -/
def elemCodeOk (k : Kind) (x : BitVec 6) : Bool :=
  match k with
  | .f => pairCodeOk x
  | _ => vcodeOk x

/-- A destination of an element operation on a cluster's kind (R99). -/
def elemDestOk (k : Kind) (x : BitVec 5) : Bool :=
  match k with
  | .f => x.toNat % 2 == 0
  | _ => true

/-- The kind of the cluster that issues. -/
def issueKind (i : Issue) : Kind := kindOf i.cluster.toNat

/-- An engine number on a cluster's kind (R76). -/
def engineOk (k : Kind) (n : Nat) : Bool :=
  match k with
  | .m => true
  | .f => n == 0
  | .s => false

/-- Operand formats that pair (R35, R38). -/
def formatsPair (a b : Nat) : Bool :=
  (isNarrow a && isNarrow b) || ((a == 5 || a == 6) && (b == 5 || b == 6)) ||
    (a == 7 && b == 7) || (a == 8 && b == 8)

/-- EMAC and EMACC (R92-R94). -/
def emacOk (i : Issue) (o : EmacOps) : Bool :=
  let a := o.fmtA.toNat
  let b := o.fmtB.toNat
  let wide := a == 7 || a == 8
  engineOk (issueKind i) o.elast.toNat && formatsPair a b && vcodeOk o.srcA && vcodeOk o.srcB &&
    (!wide || (o.pa.toNat % 2 == 0 && !o.hb)) && (!o.scl || isNarrow a)

/-- Every Ledger register that an emask names exists (R76). -/
def emaskOk (k : Kind) (m : BitVec 8) : Bool :=
  match k with
  | .m => true
  | .f => m &&& 0xFE#8 == 0#8
  | .s => false

/-- The registers an ERD writes (R56). -/
def erdRegs (fmt : Nat) : Nat := if fmt = 0x9 ∨ fmt = 0xB then 2 else 1

/-- ERD (R53, R56, R76). -/
def erdOk (i : Issue) (acc : BitVec 3) (vd : BitVec 5) (rctl : BitVec 20) : Bool :=
  engineOk (issueKind i) acc.toNat && rctlOk true rctl && decide (vd.toNat + erdRegs (rctlOf rctl).fmt ≤ 32)

/-- A three-register element operation (R98, R99). -/
def vopsOk (i : Issue) (o : VOps) : Bool :=
  elemDestOk (issueKind i) o.vd && elemCodeOk (issueKind i) o.va && elemCodeOk (issueKind i) o.vb

/-- A sparse operation needs an S cluster (R76, R164). -/
def onS (i : Issue) : Bool := (issueKind i) == .s

/-- The register pair of XGATH and X24 with 16-bit elements stays within v31 (R89, R168). -/
def wideSourceOk (va : BitVec 6) (width : BitVec 3) : Bool :=
  vcodeOk va && (width.toNat != 3 || decide (va.toNat < 31))

/-- VLD and VST stay within v31 (R102). -/
def memOk (o : MemOps) : Bool := decide (o.reg.toNat + o.cntM1.toNat < 32)

/-- A well-formed command: for a slot operation, no reserved field value and nothing its cluster's kind
lacks. Every other command is well formed by its type. -/
def legal (c : Instr) : Bool :=
  match c with
  | .emac i o => emacOk i o
  | .emacc i o => emacOk i o
  | .eclr i emask _ _ => emaskOk (issueKind i) emask
  | .erd i acc vd rctl => erdOk i acc vd rctl
  | .eslice i elast sstep a b => engineOk (issueKind i) elast.toNat && sstep != 7#3 && vcodeOk a && vcodeOk b
  | .fadd i o => vopsOk i o
  | .fsub i o => vopsOk i o
  | .fmul i o => vopsOk i o
  | .fma i o => vopsOk i o
  | .fmin i o => vopsOk i o
  | .fmax i o => vopsOk i o
  | .fcmp i va vb pd cond red =>
    elemCodeOk (issueKind i) va && elemCodeOk (issueKind i) vb && pd != 0#3 && cond != 7#3 && red != 3#2
  | .cvt i vd va _ fmt => elemDestOk (issueKind i) vd && elemCodeOk (issueKind i) va && decide (fmt.toNat ≤ 9)
  | .sfu i vd va fn => (issueKind i) == .f && elemDestOk .f vd && pairCodeOk va && fn != 7#3
  | .pwt i vd va vb => (issueKind i) == .f && elemDestOk .f vd && pairCodeOk va && scodePlainOk vb
  | .iadd i o => vopsOk i o
  | .isub i o => vopsOk i o
  | .vand i o => vopsOk i o
  | .vor i o => vopsOk i o
  | .vxor i o => vopsOk i o
  | .shl i vd va _ => elemDestOk (issueKind i) vd && elemCodeOk (issueKind i) va
  | .shr i vd va _ => elemDestOk (issueKind i) vd && elemCodeOk (issueKind i) va
  | .mov _ _ va => vcodeOk va
  | .bcast _ _ va _ => vcodeOk va
  | .lanex _ _ va _ => vcodeOk va
  | .scale _ va _ => vcodeOk va
  | .vfroms _ _ vb => scodeOk vb
  | .xset i o _ _ _ range => onS i && vcodeOk o.va && vcodeOk o.vb && range != 3#2
  | .xwalk i _ _ => onS i
  | .xgath i o _ width => onS i && vcodeOk o.vb && decide (width.toNat ≤ 3) && wideSourceOk o.va width &&
      (width.toNat != 3 || o.va.toNat % 2 == 0)
  | .x24 i o width => onS i && vcodeOk o.vb && decide (width.toNat ≤ 3) && wideSourceOk o.va width
  | .xcslu i _ va values fmt clear =>
    onS i && vcodeOk va &&
      (if values then (fmt == 3#4 || fmt == 4#4 || fmt == 5#4 || fmt == 7#4 || fmt == 8#4) && !clear
       else fmt == 0#4)
  | .hclr i vb _ => onS i && scodeOk vb
  | .hacc i o _ mul => onS i && vcodeOk o.va && vcodeOk o.vb && (mul || o.vd == 0#5)
  | .hmerge i _ vb _ => onS i && scodeOk vb
  | .hstat i _ _ => onS i
  | .vld _ o => memOk o
  | .vst _ o => memOk o
  | .lsave i o => engineOk (issueKind i) o.acc.toNat
  | .lrest i o => engineOk (issueKind i) o.acc.toNat
  | .salu _ fn _ sa sb => decide (fn.toNat ≤ 12) && scodeOk sa && scodeOk sb
  | .salui _ fn _ sa _ => decide (fn.toNat ≤ 12) && scodeOk sa
  | .pcmp _ pd cond sa sb => pd != 0#3 && decide (cond.toNat ≤ 5) && scodeOk sa && scodeOk sb
  | .plog _ pd _ _ _ => pd != 0#3
  | .pfroms _ pd sa => pd != 0#3 && scodeOk sa
  | .rep i count _ _ => !i.qp && count != 0#12
  | .ssend _ sa => scodeOk sa
  | .csend _ sa => scodeOk sa
  | .csig _ _ rem sub amount => amount != 0#8 && !(rem && sub)
  | .cwait _ cpl rem cond val take path =>
    if rem then cond == 0#3 && val == 0#8 && !take && decide (path.toNat ≤ 4)
    else decide (cond.toNat ≤ 2) && path == 0#3 && (cond != 2#3 || (!take && decide (cpl.toNat ≤ 9)))
  | .endProg i => !i.qp
  | _ => true

/-- The outcome of a meaning: the next state, or the refusal of a reserved operand. -/
abbrev Answer := Host.Outcome State Fault Refusal

/-- A slot meaning acts only where its operands are well formed. -/
def whenLegal (c : Instr) (mnemonic : String) (t : State) : Answer :=
  if legal c then .next t else .refused (.reservedOperand mnemonic)

end Sys2Proof.Machine
end

