-- ==== Sys2Proof/Machine/Access.lean ====
section
/-! DEFINITION. Who may reach a register (R250, R251, R411), and the views of one cluster in one beat (R155-R157,
R210). -/

namespace Sys2Proof.Machine

/-! ### Reach -/

/-- The function of a register access: the management plane and JTAG see the physical function's view. -/
def viaFn : Via → Nat
  | .host _ fn => fn.toNat
  | _ => 0

/-- Is the module in Recovery mode (R411)? -/
def State.inRecovery (s : State) : Bool := s.field Reg.RST_FAILED_STARTS 8 1 == 1

/-- The service level (R423). -/
def State.service (s : State) : Nat := s.field Reg.BRU_STATUS 16 2

/-- The job slot that a function may act on; none where it may act on every one (R249, R273). -/
def State.onlySlot (s : State) (fn : Nat) : Option (Option (BitVec 6)) :=
  if fn = 0 then none else some (s.fn fn).slot

/-- May a function act on a slot (R249, R273)? -/
def State.mayUse (s : State) (fn slot : Nat) : Bool :=
  fn == 0 || (match (s.fn fn).slot with
    | some k => k.toNat == slot
    | none => false)

/-- The die of a die window's offset (R250). -/
def windowDie (off : Nat) : Nat := (off - 0x400000) / 0x20000

/-- Does an offset lie in a die window? -/
def inDieWindow (off : Nat) : Bool := decide (0x400000 ≤ off) && decide (off < 0xC00000)

/-- May a function reach a die window (R251)? -/
def State.mayReachDie (s : State) (fn die : Nat) : Bool :=
  fn == 0 || (match (s.fn fn).slot with
    | some k => (s.job k.toNat).st != .free && (s.job k.toNat).st != .loading && (s.job k.toNat).covers die
    | none => false)

/-- Is an offset not reserved for a function by its block (R250, R251)? -/
def State.reaches (s : State) (fn off : Nat) : Bool :=
  let block := off / 0x10000
  if inDieWindow off then s.mayReachDie fn (windowDie off)
  else if block = 0 ∨ block = 0xD then true
  else fn == 0 && decide (block < 0xD)

/-- Does the access reach its register: by block, and in Recovery mode only HIF, RST, FUS and EVT (R411)? -/
def State.grants (s : State) (via : Via) (off : Nat) : Bool :=
  let block := off / 0x10000
  s.reaches (viaFn via) off && (!s.inRecovery || block == 0 || block == 1 || block == 5 || block == 0xA)

/-- Count a refused access of a function (R10, R251, R252). -/
def State.accessError (s : State) (fn : Nat) : State := s.fnBump fn Reg.HIF_ERR_COUNT 0 16 1

/-- An access that does not reach its register: a virtual function's counts (R251), another is one to a
reserved offset (R11). -/
def State.deny (s : State) (via : Via) (off : Nat) : State :=
  if viaFn via ≠ 0 ∧ !s.reaches (viaFn via) off then s.accessError (viaFn via) else s

/-- May a write act: it reaches its register, or it is one of BRU_STEP in Recovery mode, which is ignored as R411 says and
marked as refused like every write that fails a condition (R414, log entry 151)? -/
def State.admits (s : State) (via : Via) (off : Nat) : Bool :=
  s.grants via off || (off == Reg.BRU_STEP && s.reaches (viaFn via) off)

/-- A register write with an effect of its own: `act` where the access reaches the register. -/
def State.gate (s : State) (via : Via) (off : Nat) (act : State → State) : State :=
  if s.admits via off then act s else s.deny via off

/-! ### The fabric view (R155, R156) -/

/-- Write numbers of 64 bits to registers one after another. -/
def State.setRegs64 (s : State) (off : Nat) : List Nat → State
  | [] => s
  | v :: vs => State.setRegs64 (s.setReg64 off v) (off + 8) vs

/-- The eight 64-bit numbers of an entry. -/
def entryWords (x : BitVec 512) (n : Nat) : List Nat :=
  (List.range n).map fun i => (x.extractLsb' (64 * i) 64).toNat

/-- The head entry of a queue; an empty queue reads 0. -/
def Cluster.headData (c : Cluster) (q : Nat) : BitVec 512 :=
  match (c.queue q).entries with
  | e :: _ => e.data
  | [] => 0

def Cluster.headPoison (c : Cluster) (q : Nat) : Nat :=
  match (c.queue q).entries with
  | e :: _ => if e.poison then 1 else 0
  | [] => 0

def Cluster.occ (c : Cluster) (q : Nat) : Nat := (c.queue q).entries.length

/-- FAB_VIEW_CAPTURE (R155): the fields are stored; a capture starts unless one is pending. It takes the first job beat
from here on, or the target beat where that has not passed. -/
def State.fabViewCapture (s : State) (die : Nat) (value : BitVec 32) : State :=
  let s := (s.setField (Reg.FAB_VIEW_CTRL die) 0 10 (bitsOf value.toNat 0 10)).setField
    (Reg.FAB_VIEW_CTRL die) 12 1 (bitsOf value.toNat 12 1)
  if value.msb ∧ s.field (Reg.FAB_VIEW_STATUS die) 0 1 = 0 then
    let target := s.reg64 (Reg.FAB_VIEW_TARGET_LO die)
    let passed := match (s.slotOfDie die).filter fun k => (s.job k).beating with
      | some k => decide (target < (s.job k).beat)
      | none => false
    let late := bitAt value.toNat 12 && passed
    let v : FabView :=
      { cluster := bitsOf value.toNat 0 10, target := if bitAt value.toNat 12 && !passed then some target else none, late := late }
    { s.setField (Reg.FAB_VIEW_STATUS die) 0 1 1 with fabViews := AMap.set {} s.fabViews die v }
  else s

/-- What a capture writes (R155, R156). -/
def State.fabViewWrite (s : State) (die : Nat) (x : Shot) (noJob late : Bool) : State :=
  let c := x.c
  let lo := c.occ 0 + 2 ^ 5 * c.occ 1 + 2 ^ 10 * c.occ 2 + 2 ^ 15 * c.occ 3 + 2 ^ 20 * c.occ 4 + 2 ^ 26 * c.occ 5
  let hi := c.occ 6 + 2 ^ 6 * c.occ 7 + 2 ^ 12 * c.occ 8 + 2 ^ 16 * c.occ 9 +
    2 ^ 20 * (c.headPoison 0 + 2 * c.headPoison 1 + 4 * c.headPoison 2 + 8 * c.headPoison 3) +
    2 ^ 24 * (c.headPoison 4 + 2 * c.headPoison 5 + 4 * c.headPoison 6 + 8 * c.headPoison 7)
  let depth (n : Nat) := (AMap.get [] c.inj n).length
  let inj := depth 0 + 2 ^ 3 * depth 1 + 2 ^ 7 * depth 2 + 2 ^ 10 * x.ridx + 2 ^ 18 * x.len
  let base := 0x400000 + 0x20000 * die
  let s := (s.setReg (Reg.FAB_VIEW_OCC_LO die) (BitVec.ofNat 32 lo)).setReg (Reg.FAB_VIEW_OCC_HI die) (BitVec.ofNat 32 hi)
  let s := (s.setReg64 (Reg.FAB_VIEW_BEAT_LO die) x.beat).setReg64 (Reg.FAB_VIEW_MS_LO die) x.ms
  let s := s.setReg (Reg.FAB_VIEW_INJ die) (BitVec.ofNat 32 inj)
  let s := s.setRegs64 (base + 0x8100) ((List.range 4).flatMap fun q => entryWords (c.headData q) 8)
  let s := s.setRegs64 (base + 0x8200) ((List.range 4).map fun q => ((c.headData (4 + q)).setWidth 64).toNat)
  let s := s.setRegs64 (base + 0x8220)
    [((c.headData 8).setWidth 16).toNat + 2 ^ 32 * ((c.headData 9).setWidth 16).toNat]
  let s := s.setRegs64 (base + 0x8300) ((List.range 10).map fun q =>
    (c.queue q).arrivals.toNat + 2 ^ 32 * (c.queue q).consumed.toNat)
  let st := Reg.FAB_VIEW_STATUS die
  let s := ((s.setField st 0 1 0).setField st 1 1 1).setField st 2 1 (if noJob then 1 else 0)
  if late then s.setField st 3 1 1 else s

/-- FAB_VIEW_CAPTURE_TAKEN (R155): what the job beat left is shown; none where no job runs on the die, and as long as
the beat is to come the capture stays pending. -/
def State.fabViewTaken (s : State) (die : Nat) : State :=
  let v := AMap.get {} s.fabViews die
  let gone (s : State) : State := { s with fabViews := AMap.set {} s.fabViews die {} }
  if s.field (Reg.FAB_VIEW_STATUS die) 0 1 = 0 then s
  else
    match v.shot with
    | some x => gone (s.fabViewWrite die x false v.late)
    | none =>
      match (s.slotOfDie die).filter fun k => (s.job k).beating with
      | none => gone (s.fabViewWrite die { c := {}, beat := 0, ridx := 0, len := 0, ms := s.ms } true false)
      | some _ => s

/-- CLEAR_MINMAX (R157). -/
def State.clearMinmax (s : State) (die e : Nat) : State :=
  let r := Reg.FAB_XING_DRIFT die e
  let now := s.field r 0 8
  (s.setField r 8 8 now).setField r 16 8 now

/-- CLEAR_COUNT (R157). -/
def State.clearCount (s : State) (die e : Nat) : State := s.setReg (Reg.FAB_XING_COUNT die e) 0

/-! ### The sync-object view (R210) -/

/-- DBG_CAPTURE (R210): the selection is stored, and a capture starts unless one is pending. -/
def State.dbgCapture (s : State) (via : Via) (value : BitVec 32) : State :=
  let s := s.setField Reg.DBG_SEL 0 22 (bitsOf value.toNat 0 22)
  if value.msb ∧ s.field Reg.DBG_STATUS 0 1 = 0 then
    { s.setField Reg.DBG_STATUS 0 1 1 with
      dbgFn := viaFn via
      dbgView := { cluster := bitsOf value.toNat 0 16, cpl := bitsOf value.toNat 16 6, shot := none } }
  else s

/-- What a capture writes (R210). -/
def State.dbgWrite (s : State) (c : Cluster) (cpl beat ms : Nat) (noJob : Bool) : State :=
  let k := c.coupling cpl
  let remote := (List.range 8).foldl (fun n j => if (k.slot j).valid then n + 2 ^ j else n) 0
  let paths := (List.range 8).foldl (fun n j => n + 2 ^ (3 * j) * (k.slot j).path.toNat) 0
  let toll := (match c.mark with
    | some m => m.round % 256 + 2 ^ 8
    | none => 0) + (match c.pendMark with
    | some m => 2 ^ 9 * (m.round % 256) + 2 ^ 17
    | none => 0) + (match c.hold with
    | .toll _ _ => 2 ^ 18
    | _ => 0)
  let count := if noJob then 0 else k.count.toNat
  let thresh := if noJob then 0 else k.thresh.toNat
  let s := s.setReg Reg.DBG_COUNT (BitVec.ofNat 32 count)
  let s := s.setReg Reg.DBG_THRESH (BitVec.ofNat 32 thresh)
  let s := s.setReg Reg.DBG_SIG_TOTAL k.total
  let s := s.setReg Reg.DBG_WAITERS
    (BitVec.ofNat 32 (k.lanes.toNat + (if k.seqWaiter then 2 ^ 16 else 0) + 2 ^ 17 * remote))
  let s := s.setReg Reg.DBG_PATHS (BitVec.ofNat 32 paths)
  let s := s.setReg Reg.DBG_LAST (BitVec.ofNat 32 (k.lastSrc.toNat + if k.lastValid then 2 ^ 31 else 0))
  let s := s.setReg Reg.DBG_LAST_MS (k.lastMs.setWidth 32)
  let s := s.setReg Reg.DBG_TOLL (BitVec.ofNat 32 toll)
  let s := (s.setReg64 Reg.DBG_BEAT_LO beat).setReg64 Reg.DBG_MS_LO ms
  ((s.setField Reg.DBG_STATUS 0 1 0).setField Reg.DBG_STATUS 1 1 1).setField Reg.DBG_STATUS 2 1
    (if noJob then 1 else 0)

/-- DBG_CAPTURE_TAKEN (R210): the first job beat after the capture's command is shown, or no_job where the function sees
no running job on the cluster; as long as that beat is to come the capture stays pending. -/
def State.dbgTaken (s : State) : State :=
  let v := s.dbgView
  if s.field Reg.DBG_STATUS 0 1 = 0 then s
  else
    match v.shot with
    | some x => { s.dbgWrite x.c v.cpl x.beat x.ms false with dbgView := {} }
    | none =>
      match (s.slotOfCluster v.cluster).filter fun k => (s.job k).beating && s.mayUse s.dbgFn k with
      | none => { s.dbgWrite {} 0 0 0 true with dbgView := {} }
      | some _ => s

/-- FAB_VIEW_CAPTURE (R155). -/
def execFabViewCapture (via : Via) (die : BitVec 6) (value : BitVec 32) (s : State) : Answer :=
  .next (s.gate via (Reg.FAB_VIEW_CTRL die.toNat) fun s => s.fabViewCapture die.toNat value)
/-- FAB_VIEW_CAPTURE_TAKEN (R155). -/
def execFabViewCaptureTaken (die : BitVec 6) (s : State) : Answer := .next (s.fabViewTaken die.toNat)
/-- CLEAR_MINMAX (R157). -/
def execClearMinmax (via : Via) (die : BitVec 6) (edge : BitVec 2) (s : State) : Answer :=
  .next (s.gate via (Reg.FAB_XING_CLEAR die.toNat edge.toNat) fun s => s.clearMinmax die.toNat edge.toNat)
/-- CLEAR_COUNT (R157). -/
def execClearCount (via : Via) (die : BitVec 6) (edge : BitVec 2) (s : State) : Answer :=
  .next (s.gate via (Reg.FAB_XING_CLEAR die.toNat edge.toNat) fun s => s.clearCount die.toNat edge.toNat)
/-- DBG_CAPTURE (R210). -/
def execDbgCapture (via : Via) (value : BitVec 32) (s : State) : Answer :=
  .next (s.gate via Reg.DBG_SEL fun s => s.dbgCapture via value)
/-- DBG_CAPTURE_TAKEN (R210). -/
def execDbgCaptureTaken (s : State) : Answer := .next s.dbgTaken

end Sys2Proof.Machine
end

