-- ==== Sys2Proof/Machine/Chs.lean ====
section
/-! DEFINITION. The Coachhouse: address map, lines with their error correction and poison, byte transfers,
job windows (07 R211-R219, R238-R241). -/

namespace Sys2Proof.Machine

/-! ### The map (R212, R213) -/

/-- N of R212. -/
def State.nearGib (s : State) : Nat := s.field Reg.CHS_CFG 0 7
/-- n_s of R212. -/
def State.spreadLen (s : State) : Nat := s.field Reg.CHS_STATUS 8 6
/-- Is the map built? -/
def State.mapValid (s : State) : Bool := s.field Reg.CHS_STATUS 18 1 == 1
/-- The stack at a spread index. -/
def State.spreadEntry (s : State) (i : Nat) : Nat := s.field (Reg.CHS_SPREAD_MAP (i / 4)) (8 * (i % 4)) 8
/-- The near stack of a die site (R215). -/
def State.nearStack (s : State) (die : Nat) : Nat := s.field (Reg.CHS_NEAR_MAP (die / 4)) (8 * (die % 4)) 8
/-- S_sp in bytes. -/
def State.spreadBytes (s : State) : Nat := s.spreadLen * (64 - s.nearGib) * 2 ^ 30
/-- The state code of a stack (R245). -/
def State.stackState (s : State) (k : Nat) : Nat := s.field (Reg.CHS_STACK k) 0 3
/-- Is the stack in service: active or retraining? -/
def State.stackUp (s : State) (k : Nat) : Bool := s.stackState k == 2 || s.stackState k == 3

/-- chs_decode of R213, none for an absent address (R212). -/
def State.chsDecode (s : State) (a : Nat) : Option (Nat × Nat) :=
  let n := s.nearGib
  let sp := s.spreadBytes
  if !s.mapValid then none
  else if a < sp then
    let g := a / 4096
    some (s.spreadEntry (g % s.spreadLen), g / s.spreadLen * 4096 + a % 4096)
  else if n = 0 then none
  else
    let b := a - sp
    let k := b / (n * 2 ^ 30)
    if k < 32 ∧ s.field (Reg.CHS_STACK k) 17 1 = 1 then
      some (k, (64 - n) * 2 ^ 30 + b % (n * 2 ^ 30))
    else none

/-- Is no address of a range absent? Regions change only at granule boundaries. -/
def State.chsPresent (s : State) (a n : Nat) : Bool :=
  if n = 0 then true
  else
    let sp := s.spreadBytes
    let gib := s.nearGib * 2 ^ 30
    s.mapValid && decide (a + n ≤ 2 ^ 41) &&
      (decide (a + n ≤ sp) ||
        (decide (gib ≠ 0) &&
          (List.range 32).all fun k =>
            let lo := sp + k * gib
            decide (a + n ≤ lo) || decide (lo + gib ≤ a) || s.field (Reg.CHS_STACK k) 17 1 == 1) &&
          decide (a + n ≤ sp + 32 * gib))

/-- The key of a line: stack and line number. -/
def lineKey (k loc : Nat) : Nat := (k * 2 ^ 36 + loc) / 64

/-- The Coachhouse address of a stack-local line, where the map gives one. -/
def State.chsAddress (s : State) (k loc : Nat) : Nat :=
  let n := s.nearGib
  if loc < (64 - n) * 2 ^ 30 then
    let idx := s.field (Reg.CHS_STACK k) 12 5
    (loc / 4096 * s.spreadLen + idx) * 4096 + loc % 4096
  else s.spreadBytes + k * n * 2 ^ 30 + (loc - (64 - n) * 2 ^ 30)

/-! ### Lines (R238-R241) -/

/-- Record the first uncorrectable line (R245). -/
def State.ueFirst (s : State) (a k : Nat) : State :=
  if s.field Reg.CHS_UE_FIRST_HI 31 1 = 1 then s
  else
    (s.setReg Reg.CHS_UE_FIRST_LO (BitVec.ofNat 32 a)).setReg Reg.CHS_UE_FIRST_HI
      (BitVec.ofNat 32 (a / 2 ^ 32 % 2 ^ 9 + 2 ^ 9 * k + 2 ^ 31))

/-- Twice an element of GF(2^16) with the field polynomial x^16 + x^12 + x^3 + x + 1: times α. -/
def gfDouble (a : BitVec 16) : BitVec 16 := if a.msb then (a <<< 1) ^^^ 0x100B#16 else a <<< 1

/-- Times α to the power n. -/
def gfShift (a : BitVec 16) : Nat → BitVec 16
  | 0 => a
  | n + 1 => gfShift (gfDouble a) n

/-- The 36 symbols of a codeword, symbol 0 first. -/
def symbolsOf (w : BitVec 576) : List (BitVec 16) := (List.range 36).map fun i => w.extractLsb' (16 * i) 16

/-- A codeword's value at α^i, symbol 0 being the coefficient of x^35 (log entry 126). -/
def syndrome (w : BitVec 576) (i : Nat) : BitVec 16 :=
  (symbolsOf w).foldl (fun acc x => gfShift acc i ^^^ x) 0

/-- One step of the division by (x + 1)(x + α)(x + α²) = x³ + 7x² + 14x + 8: the remainder after one more symbol. -/
def checkStep (r : BitVec 16 × BitVec 16 × BitVec 16) (d : BitVec 16) : BitVec 16 × BitVec 16 × BitVec 16 :=
  let f := d ^^^ r.1
  let f2 := gfDouble f
  let f4 := gfDouble f2
  let f8 := gfDouble f4
  (r.2.1 ^^^ f ^^^ f2 ^^^ f4, r.2.2 ^^^ f2 ^^^ f4 ^^^ f8, f8)

/-- The codeword of a line (R238): 32 data symbols, the metadata symbol with the poison bit, three check symbols. -/
def codeword (data : BitVec 512) (poison : Bool) : BitVec 576 :=
  let body : BitVec 528 := (if poison then 1#16 else 0#16) ++ data
  let (a, b, c) := ((List.range 33).map fun i => body.extractLsb' (16 * i) 16).foldl checkStep (0, 0, 0)
  (c ++ b ++ a ++ body : BitVec 576)

/-- What the decoder makes of a stored word (R238): the word as it is where it is a codeword, the word with one symbol
corrected where that gives one, and nothing where no single symbol does. The Bool says that a symbol was corrected. -/
def rsDecode (w : BitVec 576) : Option (BitVec 576 × Bool) :=
  let s0 := syndrome w 0
  let s1 := syndrome w 1
  let s2 := syndrome w 2
  if s0 = 0 ∧ s1 = 0 ∧ s2 = 0 then some (w, false)
  else if s0 = 0 then none
  else
    match (List.range 36).find? fun p => gfShift s0 p == s1 && gfShift s1 p == s2 with
    | some p => some (w ^^^ (s0.setWidth 576 <<< (16 * (35 - p))), true)
    | none => none

/-- The controller reads one line of a stack (R238-R240): corrected and written back, or poisoned where it cannot be
corrected. The Bool of the second component says that it was corrected. -/
def State.stackRead (s : State) (k loc : Nat) (tag : BitVec 16) :
    BitVec 512 × Bool × Bool × State :=
  let key := lineKey k loc
  let data := BitVec.ofNat 512 (readLe s.chsMem (64 * key) 64)
  let poison := AMap.get false s.poisoned key
  let err := AMap.get 0 s.symErr key
  if err = 0 then (data, poison, false, s)
  else match rsDecode (codeword data poison ^^^ err) with
  | some (w, fixed) =>
    let data := w.extractLsb' 0 512
    let poison := w.getLsbD 512
    let s := { s with
      chsMem := if fixed then writeLe s.chsMem (64 * key) 64 data.toNat else s.chsMem
      poisoned := if fixed then AMap.set false s.poisoned key poison else s.poisoned
      symErr := if fixed then AMap.set 0 s.symErr key 0 else s.symErr }
    if !fixed then (data, poison, false, s)
    else
      let s := s.bump (Reg.CHS_CE k) 0 32 1
      let x := s.stack k
      let s := if x.ceLogged then s
        else (s.setStack k { x with ceLogged := true }).logEvent
          { s.eventOf (srcStack k) 0x0A 0x02 with
            p0 := BitVec.ofNat 32 k, p1 := BitVec.ofNat 64 (s.chsAddress k loc), jobTag := tag }
      (data, poison, true, s)
  | none =>
    let (v, s) := s.fresh
    if poison then (BitVec.ofNat 512 v, true, false, s)
    else
      let a := s.chsAddress k loc
      let s := { s with poisoned := AMap.set false s.poisoned key true }
      let s := ((s.bump (Reg.CHS_UE k) 0 32 1).ueFirst a k).logEvent
        { s.eventOf (srcStack k) 0x0A 0x01 with
          p0 := BitVec.ofNat 32 k, p1 := BitVec.ofNat 64 a, jobTag := tag }
      (BitVec.ofNat 512 v, true, false, s)

/-- The survivor of a pair notes every granule of the mirror range that is written while it copies; in the mirrored
phase not what the partner writes itself: what paired jobs, paired rings and the host write on both (R342, R350). -/
def State.noteWrite (s : State) (a : Nat) (both : Bool) : State :=
  let lo := s.reg64 Reg.PST_PAIR_MIRROR_LO / 4096
  let n := s.field Reg.PST_PAIR_MIRROR_LEN 0 29
  let g := a / 4096
  let st := s.pairState
  if (st == 5 || st == 6 || (st == 7 && !both)) && s.pairLeads && decide (lo ≤ g) && decide (g < lo + n) then
    { s with pair := { s.pair with dirty := AMap.set false s.pair.dirty g true } }
  else s

/-- A whole line is written into a stack: its errors and its old poison are gone (R240). `both` says that the partner of a
pair makes the same write. -/
def State.stackWrite (s : State) (k loc : Nat) (d : BitVec 512) (poison both : Bool) : State :=
  let key := lineKey k loc
  let s := s.noteWrite (s.chsAddress k loc) both
  { s with
    chsMem := writeLe s.chsMem (64 * key) 64 d.toNat
    poisoned := AMap.set false s.poisoned key poison
    symErr := AMap.set 0 s.symErr key 0 }

/-- Is a tag that of a paired job? -/
def State.pairedTag (s : State) (tag : BitVec 16) : Bool := s.jobs.any fun p => p.2.paired && p.2.tag == tag && p.2.held

/-- A line read by Coachhouse address; a lost stack or an absent address returns poison (R241). -/
def State.readLine (s : State) (a : Nat) (tag : BitVec 16) : BitVec 512 × Bool × State :=
  match s.chsDecode a with
  | some (k, loc) =>
    if s.stackUp k then
      let (d, p, _, s) := s.stackRead k loc tag
      (d, p, s)
    else
      let (v, s) := s.fresh
      (BitVec.ofNat 512 v, true, s)
  | none =>
    let (v, s) := s.fresh
    (BitVec.ofNat 512 v, true, s)

/-- A line write by Coachhouse address; false where the stack is lost (R241). -/
def State.writeLine (s : State) (a : Nat) (d : BitVec 512) (poison both : Bool) : State × Bool :=
  match s.chsDecode a with
  | some (k, loc) => if s.stackUp k then (s.stackWrite k loc d poison both, true) else (s, false)
  | none => (s, false)

/-! ### Byte transfers -/

/-- The parts of n bytes from an address by line: line address, offset in the line, length. -/
def linesOf (a n : Nat) : List (Nat × Nat × Nat) :=
  if n = 0 then []
  else
    let first := a / 64
    (List.range ((a + n - 1) / 64 - first + 1)).map fun i =>
      let lo := max a ((first + i) * 64)
      let hi := min (a + n) ((first + i + 1) * 64)
      ((first + i) * 64, lo % 64, hi - lo)

/-- The bytes [off, off + n) of a line. -/
def lineBytes (d : BitVec 512) (off n : Nat) : List Byte :=
  (List.range n).map fun i => d.extractLsb' (8 * (off + i)) 8

/-- A line with bytes replaced from an offset. -/
def lineSet (d : BitVec 512) (off : Nat) (bs : List Byte) : BitVec 512 :=
  BitVec.ofNat 512 (setBits d.toNat (8 * off) (8 * bs.length) (leNat bs))

/-- Read bytes; the line addresses that were poisoned. -/
def State.chsRead (s : State) (a n : Nat) (tag : BitVec 16) : List Byte × List Nat × State :=
  (linesOf a n).foldl (fun (bs, bad, s) (la, off, len) =>
    let (d, p, s) := s.readLine la tag
    (bs ++ lineBytes d off len, if p then bad ++ [la] else bad, s)) ([], [], s)

/-- Write bytes, a partial line by reading it and writing it back whole; the line addresses that could
not be written. A line is written poisoned if its bytes are, or if what it keeps was (R240). -/
def State.chsWrite (s : State) (a : Nat) (bs : List Byte) (poison : Nat → Bool) (tag : BitVec 16) (both : Bool) :
    State × List Nat :=
  (linesOf a bs.length).foldl (fun (s, lost) (la, off, len) =>
    let part := (bs.drop (la + off - a)).take len
    let (d, p, s) :=
      if len = 64 then (0#512, false, s) else s.readLine la tag
    let (s, ok) := s.writeLine la (lineSet d off part) (p || poison la) both
    (s, if ok then lost else lost ++ [la])) (s, [])

/-! ### Windows (R217, R218) -/

/-- Is the window declared and bound? -/
def Window.bound (w : Window) : Bool := w.granules != 0
/-- A right by its bit: 0 fabric read, 1 fabric write, 2 host, 3 posting, 4 peer, 5 spill. -/
def Window.has (w : Window) (bit : Nat) : Bool := w.bound && w.rights.getLsbD bit
/-- The length in bytes. -/
def Window.bytes (w : Window) : Nat := w.granules * 4096

end Sys2Proof.Machine
end

