-- ==== Sys2Proof/Machine/Repair.lean ====
section
/-! DEFINITION. Repair: the die exclusion map, records and spares, lanes on physical cores, soft repairs and what they
bring about, drain and flag (17 R435-R448, 18 R475, R78, R145, R280). -/

namespace Sys2Proof.Machine

/-! ### The die exclusion map (R280, R451) -/

def State.excluded (s : State) (d : Nat) : Bool :=
  s.field (if d < 32 then Reg.FUS_EXCL_LO else Reg.FUS_EXCL_HI) (d % 32) 1 == 1

/-- Set or clear a die's bit; the generation advances at a change. -/
def State.setExcl (s : State) (d : Nat) (b : Bool) : State :=
  if s.excluded d = b then s
  else
    let s := s.setField (if d < 32 then Reg.FUS_EXCL_LO else Reg.FUS_EXCL_HI) (d % 32) 1 (if b then 1 else 0)
    s.setField Reg.FUS_EXCL_GEN 0 16 (s.field Reg.FUS_EXCL_GEN 0 16 + 1)

/-- The source number of a die's agent (R17). -/
def srcDie (d : Nat) : Nat := d * 1024

/-- The die sites not excluded. -/
def State.liveDies (s : State) : List Nat := (List.range 64).filter fun d => !s.excluded d

/-! ### Repair entries (R439-R442) -/

/-- A word of the die's factory tables by die-window offset. -/
def Die.fuseWord (x : Die) (off : Nat) : Nat := (AMap.get 0 x.fuses ((off - 0x12000) / 4)).toNat

/-- The records of a die that hold: field records burned with valid, then soft repairs, as numbers. -/
def Die.records (x : Die) : List Nat :=
  (((x.fields ++ x.soft).map (·.toNat)).filter fun r => bitAt r 63)

def recKind (r : Nat) : Nat := r % 16
def recEntry (r : Nat) : Nat := bitsOf r 8 32

/-- A record of a kind and origin (R442). -/
def mkRecord (kind origin entry : Nat) : Nat := kind + 16 * origin + 2 ^ 8 * entry + 2 ^ 63

/-- The entries of kind 1 in effect. -/
def Die.coreEntries (x : Die) : List Nat :=
  (((List.range 64).map fun i => x.fuseWord (0x12000 + 4 * i)).filter fun e => bitAt e 16) ++
    (x.records.filter fun r => recKind r == 1).map recEntry

/-- The entries of kind 2 in effect. -/
def Die.rowEntries (x : Die) : List Nat :=
  (((List.range 256).map fun i => x.fuseWord (0x12100 + 4 * i)).filter fun e => bitAt e 30) ++
    (x.records.filter fun r => recKind r == 2).map recEntry

/-- The lane entries of an edge in effect. -/
def Die.laneEntries (x : Die) (e : Nat) : List Nat :=
  (((List.range 32).map fun i => x.fuseWord (0x12500 + 0x80 * e + 4 * i)).filter fun n => bitAt n 24) ++
    ((x.records.filter fun r => recKind r == 3).map recEntry).filter fun n => n % 4 == e

/-- The row and column of every column shift on record. -/
def Die.shiftEntries (x : Die) : List (Nat × Nat) :=
  (((List.range 32).map fun y => (y, x.fuseWord (0x12700 + y / 4 * 4) / 2 ^ (8 * (y % 4)) % 256)).filter
      fun p => bitAt p.2 6).map (fun p => (p.1, p.2 % 64)) ++
    ((x.records.filter fun r => recKind r == 4).map recEntry).map fun e => (bitsOf e 6 5, e % 64)

def entCol (e : Nat) : Nat := e % 64
def entRow (e : Nat) : Nat := bitsOf e 6 5
def entCore (e : Nat) : Nat := bitsOf e 11 5

/-- A core entry (R440). -/
def coreEntry (col y core : Nat) : Nat := col + 2 ^ 6 * y + 2 ^ 11 * core + 2 ^ 16

/-- The physical column of a logical column in a row (R145). -/
def Die.physCol (x : Die) (y lx : Nat) : Nat :=
  match x.shifted.find? fun p => p.1 == y with
  | some p => if lx < p.2 then lx else lx + 1
  | none => lx

/-- The logical column that a physical column carries. -/
def Die.logCol (x : Die) (y pc : Nat) : Option Nat := (List.range 32).find? fun lx => x.physCol y lx == pc

/-- The bad cores of a physical cluster. -/
def Die.badCores (x : Die) (pc y : Nat) : List Nat :=
  ((x.coreEntries.filter fun e => entCol e == pc && entRow e == y).map entCore).eraseDups

/-- Is the whole cluster bad (core 31)? -/
def Die.clusterBad (x : Die) (pc y : Nat) : Bool := (x.badCores pc y).contains 31

/-- The cores removed as bad cores because their SRAM row waits for its spare row (R444). They stay out until it applies,
whatever is recorded later. -/
def Die.rowCores (x : Die) (pc y : Nat) : List Nat :=
  ((((x.rowsPending.filter fun e => !x.rowsWaiting.contains e).map (·.toNat)).filter fun e =>
    entCol e == pc && entRow e == y).map entCore).eraseDups

/-- The cores that carry no lane: bad ones, and those removed for a row (R443, R444). -/
def Die.outCores (x : Die) (pc y : Nat) : List Nat :=
  let bad := x.badCores pc y
  bad ++ (x.rowCores pc y).filter fun c => !bad.contains c

/-- Does an SRAM row of a die wait with neither its spare row nor a spare core (R444)? -/
def Die.rowWaits (x : Die) : Bool := !x.rowsWaiting.isEmpty

/-- Would an SRAM row of a core find a spare core: one is free, or the core is out already (R444)? -/
def Die.rowSpare (x : Die) (pc y core : Nat) : Bool :=
  decide ((x.outCores pc y).length < 2) || (x.outCores pc y).contains core

/-- A row entry waits for its spare row; where no spare core was free it waits with its core in service (R444). -/
def Die.addRowEntry (x : Die) (e : Nat) (spare : Bool) : Die :=
  let w : Word := BitVec.ofNat 32 e
  { x with
    rowsPending := x.rowsPending ++ [w]
    rowsWaiting := if spare then x.rowsWaiting else x.rowsWaiting ++ [w] }

/-- The free spares of a cluster: cores that carry no lane and are not out (R79), those that are not under test first:
repair takes a spare before the Wheelwright does (R443). -/
def State.spares (s : State) (g : Nat) : List Nat :=
  let c := s.cluster g
  let x := s.die (gidDie g)
  let out := x.outCores (x.physCol (gidY g) (gidX g)) (gidY g)
  let free := (List.range 18).filter fun k => !c.coreMap.contains k && !out.contains k
  let tested (k : Nat) : Bool := c.whl.core == some (BitVec.ofNat 5 k)
  (free.filter fun k => !tested k) ++ free.filter tested

/-- Spares that repair has not used: 2 less the cores that are out (R443). -/
def State.spareCount (s : State) (g : Nat) : Nat :=
  let x := s.die (gidDie g)
  2 - (x.outCores (x.physCol (gidY g) (gidX g)) (gidY g)).length

/-- A cluster with a free spare keeps its run-time rotation (R443). -/
def State.guarded (s : State) (g : Nat) : Bool := decide (s.spareCount g ≥ 1)

/-! ### Lanes and cores (R78, R443) -/

/-- A lane goes to the lowest free spare, whose test ends if it is under one; the spare serves the job of the die from now
on (R473). -/
def State.moveLane (s : State) (g lane : Nat) : State :=
  match s.spares g with
  | [] => s
  | k :: _ => s.modCluster g fun c =>
    let tags := match s.slotOfCluster g with
      | some j => if (s.job j).live then [(k, (s.job j).tag)] else []
      | none => []
    let w := if c.whl.core = some (BitVec.ofNat 5 k) then
        { last := c.whl.last, turned := c.whl.turned, served := c.whl.served }
      else c.whl
    { c with coreMap := c.coreMap.set lane k, whl := { w with served := w.served ++ tags } }

/-- The lanes of a cluster on cores that are out. -/
def State.strandedLanes (s : State) (g : Nat) : List Nat :=
  let x := s.die (gidDie g)
  let out := x.outCores (x.physCol (gidY g) (gidX g)) (gidY g)
  (List.range 16).filter fun l => out.contains ((s.cluster g).core l)

/-- The lanes of a cluster leave cores that are out (R443). -/
def State.fixCluster (s : State) (g : Nat) : State :=
  (s.strandedLanes g).foldl (fun s l => s.moveLane g l) s

/-- The clusters of a die that some core or row entry names. -/
def State.namedClusters (s : State) (d : Nat) : List Nat :=
  let x := s.die d
  ((x.coreEntries ++ x.rowsPending.map (·.toNat)).filterMap fun e =>
    (x.logCol (entRow e) (entCol e)).map fun lx => gidOf d (entRow e) lx).eraseDups

def State.fixDie (s : State) (d : Nat) : State := (s.namedClusters d).foldl (fun s g => s.fixCluster g) s

/-- Does a running job hold the die? -/
def State.dieRuns (s : State) (d : Nat) : Bool :=
  match s.slotOfDie d with
  | some k => (s.job k).live
  | none => false

/-! ### Soft repairs (R444-R448) -/

/-- An event of class repair (R452, R453). -/
def State.logRepair (s : State) (d cause record : Nat) : State := s.logPlain srcOstler 0x15 cause d record 0

/-- Dies neither degraded nor otherwise out. -/
def State.dieCount (s : State) : Nat := s.liveDies.length

/-- The drain flag in the flash; the exclusion map shows it for every die, so its generation and that of the distance
table advance (R154, R280, R451). -/
def State.setDrained (s : State) (b : Bool) : State :=
  if s.flash.drained = b then s
  else
    let s := { s with flash := { s.flash with drained := b }, bru := { s.bru with flagged := s.bru.flagged || b } }
    (s.setField Reg.FUS_EXCL_GEN 0 16 (s.field Reg.FUS_EXCL_GEN 0 16 + 1)).distChanged

/-- Drain and flag (R475): the jobs are killed, then the module declares itself failed, and what is done retires after that
(R346). -/
def State.drainModule (s : State) : State :=
  let s := (s.logRepair 0 0x06 0).setDrained true
  ((s.drainQuiet.pairFails 2).settleDone).send (.faultN true)

/-- Too few dies are left after the count that step 8 needs (R448). -/
def State.checkDies (s : State) : State :=
  if !s.flash.drained && decide (s.field Reg.BRU_STATUS 16 2 ≥ 2) && decide (s.dieCount < s.field Reg.BRU_CFG 8 7) then s.drainModule
  else s

/-- The slot of a job that runs on a die which a repair has taken from it, and that no fault stops in this beat (R448). The
fault that the repair follows stops it (R452). -/
def State.lostJob (s : State) (d : Nat) : Option Nat :=
  if s.excluded d then (s.slotOfDie d).filter fun k => (s.job k).live && !(s.job k).faultDue else none

/-- A die is degraded (R448): out until the module is replaced, its base die in service. -/
def State.degrade (s : State) (d : Nat) (record : Nat) : State :=
  if (s.die d).degraded then s
  else
    let s := s.modDie d fun x => { x with degraded := true, pendingShift := false }
    (((s.setExcl d true).distChanged).logRepair d 0x04 record).checkDies

/-- Lane and spare of the entries of an edge. -/
def Die.lanePairs (x : Die) (e : Nat) : List (Nat × Nat) :=
  (x.laneEntries e).map fun n => (bitsOf n 2 14, bitsOf n 16 8)

/-- A soft repair goes on a die's list; the 49th degrades the die (R446, R448). -/
def State.pushSoft (s : State) (d record : Nat) : State :=
  if (s.die d).soft.length ≥ 48 then s.degrade d record
  else
    (s.modDie d fun x => { x with soft := x.soft ++ [BitVec.ofNat 64 record] }).logRepair d 0x01 record

/-- A die waits as repair pending (R445): it is out of service, and the distance table says so (R154). -/
def State.dieWaits (s : State) (d : Nat) : State := if s.excluded d then s else (s.setExcl d true).distChanged

/-- May column 32 of a row carry a cluster: no more than 2 bad cores, not wholly bad (R448)? -/
def Die.spareColumn (x : Die) (y : Nat) : Bool := decide ((x.badCores 32 y).length ≤ 2) && !x.clusterBad 32 y

/-- A cluster has lost more than its spares: a column shift of its row, or the die is degraded where the row is
shifted or column 32 cannot serve (R448). The die waits as repair pending (R445). -/
def State.needShift (s : State) (d pc y origin : Nat) : State :=
  let x := s.die d
  let record := mkRecord 4 origin (coreEntry pc y 0)
  if x.shiftEntries.any (fun p => p.1 == y) || !x.spareColumn y then
    s.degrade d record
  else
    let s := s.pushSoft d record
    if (s.die d).degraded then s
    else (((s.modDie d fun x => { x with pendingShift := true }).logRepair d 0x02 record).dieWaits d).checkDies

/-- Is a physical column of a row in use: it carries a cluster, or will once the row's shift is applied (R445)? A column
that the shift removes is not. -/
def Die.columnUsed (x : Die) (pc y : Nat) : Bool :=
  match x.shiftEntries.find? fun p => p.1 == y with
  | some p => p.2 != pc
  | none => pc != 32

/-- The bad cores of a cluster are judged, those removed for a row with them (R444, R448, log entry 174). -/
def State.judgeCluster (s : State) (d pc y origin : Nat) : State :=
  let x := s.die d
  if x.degraded then s
  else if x.clusterBad pc y || decide ((x.outCores pc y).length > 2) then
    if x.columnUsed pc y then s.needShift d pc y origin else s
  else if s.dieRuns d then s
  else s.fixDie d

/-- A core record is made and acts (R443). -/
def State.addCore (s : State) (d pc y core origin : Nat) : State :=
  (s.pushSoft d (mkRecord 1 origin (coreEntry pc y core))).judgeCluster d pc y origin

/-- The lowest free spare row of an SRAM (R440, R444). -/
def Die.freeRow (x : Die) (pc y core : Nat) (under : Bool) : Option Nat :=
  let used := (x.rowEntries.filter fun e => entCol e == pc && entRow e == y && entCore e == core &&
    bitAt e 16 == under).map fun e => bitsOf e 27 3
  (List.range (if under then 8 else 4)).find? fun k => !used.contains k

/-- A bad SRAM row takes a spare row, which waits for the next block reset or cold start, or else the core goes
(R444). -/
def State.addRow (s : State) (d pc y core : Nat) (under : Bool) (row origin : Nat) : State :=
  match (s.die d).freeRow pc y core under with
  | none => s.addCore d pc y core origin
  | some k =>
    let e := pc + 2 ^ 6 * y + 2 ^ 11 * core + (if under then 2 ^ 16 else 0) + 2 ^ 17 * row + 2 ^ 27 * k + 2 ^ 30
    let spare := (s.die d).rowSpare pc y core
    let s := s.pushSoft d (mkRecord 2 origin e)
    if (s.die d).degraded then s
    else
      let s := s.modDie d fun x => x.addRowEntry e spare
      if s.dieRuns d then s else s.fixDie d

/-- The core that an entry of a job's fault names is gone: a third bad core under a job stops it (R448). -/
def State.clusterCarries (s : State) (g : Nat) : Bool := (s.strandedLanes g).length ≤ (s.spares g).length

/-- What the Wheelwright keeps of a cluster whose die is reset: the jobs that a failed core exposes
(R473). -/
def WhlState.kept (w : WhlState) : WhlState := { served := w.served }

/-- A cluster with its lanes on cores 0 to 15 and no core under test. -/
def Cluster.freshCores (c : Cluster) : Cluster := { c with coreMap := List.range 16, whl := c.whl.kept }

/-- The record of the column shift of a row: the one made, 0 for a shift of the factory table (R442, R452). -/
def Die.shiftRecord (x : Die) (p : Nat × Nat) : Nat :=
  (x.records.find? fun r => recKind r == 4 && entRow (recEntry r) == p.1 && entCol (recEntry r) == p.2).getD 0

/-- The pending shifts of a die take effect, and the spare rows (R444, R445), the lanes placed anew. -/
def State.applyRepairs (s : State) (d : Nat) : State :=
  let x := s.die d
  let fresh := x.shiftEntries.filter fun p => !x.shifted.contains p
  let s := s.setDie d { x with
    shifted := x.shifted ++ fresh, rowsPending := [], rowsWaiting := [], pendingShift := false }
  let s : State := fresh.foldl (fun s p => s.logRepair d 0x03 (x.shiftRecord p)) s
  let s := { s with
    clusters := s.clusters.map fun (g, c) =>
      if gidDie g = d then (g, Cluster.freshCores c) else (g, c) }
  s.fixDie d

end Sys2Proof.Machine
end

