-- ==== Sys2Proof/Machine/Sram.lean ====
section
/-! DEFINITION. Near and under SRAM: regions, effective addresses, error correction, results that hold the
drain (R75, R82, R85, R102, R110, R113). -/

namespace Sys2Proof.Machine

/-- The size of a kind's near SRAM (R75). -/
def nearSize (k : Kind) : Nat :=
  match k with
  | .s => 0x20000
  | _ => 0x8000

/-- The region of a lane address: false near, true under, none absent (R110). -/
def sramRegion (k : Kind) (a : Nat) : Option Bool :=
  if a < nearSize k then some false
  else if 0x20000 ≤ a ∧ a < 0x38000 then some true
  else none

/-- The one region that holds n bytes from an address (R110). -/
def sramSpan (k : Kind) (a n : Nat) : Option Bool :=
  let r := sramRegion k a
  if r = sramRegion k (a + n - 1) then r else none

/-- An effective address: s[sb] + off × unit, with the low bits that the transfer ignores cleared
(R102, R110). -/
def Cluster.ea (c : Cluster) (sb : BitVec 5) (off : BitVec 10) (unit : Nat) : Nat :=
  let a := c.sreg sb.toNat + off.signExtend 64 * BitVec.ofNat 64 unit
  a.toNat / unit * unit

/-- Single and double bit errors in the words that n bytes from an address touch. -/
def Lane.errors (x : Lane) (a n : Nat) : Nat × Nat :=
  (List.range ((n + 7) / 8)).foldl (fun (one, two) i =>
    match AMap.get 0 x.sramErr (a / 8 + i) with
    | 0 => (one, two)
    | 1 => (one + 1, two)
    | _ => (one, two + 1)) (0, 0)

/-- The row of a 64-bit word of lane SRAM: region (true under) and row (R440). -/
def wordRow (k : Kind) (w : Nat) : Bool × Nat :=
  match sramRegion k (8 * w) with
  | some true => (true, (8 * w - 0x20000) / 128)
  | _ => (false, 8 * w / 256)

/-- The rows with a double error among some reads of a lane (R113, R440). -/
def Lane.badRows (x : Lane) (k : Kind) (spans : List (Nat × Nat)) : List (Bool × Nat) :=
  (((spans.flatMap fun (a, n) => (List.range ((n + 7) / 8)).map fun i => a / 8 + i).filter
    fun w => AMap.get 0 x.sramErr w ≥ 2).map (wordRow k)).eraseDups

/-- The single errors among some reads of a lane. -/
def Lane.singles (x : Lane) (spans : List (Nat × Nat)) : Nat :=
  spans.foldl (fun n (a, len) => n + (x.errors a len).1) 0

/-- A lane's reads with a double error: the execution fault at the first such read, and every bad row reported for
repair (R113, R442). DESIGN CHOICE (log entry 158): the event's lane address is the start of that read, not of the word
that fails in it. -/
def State.laneUncorrectable (s : State) (x : Slot) (l : Nat) (spans : List (Nat × Nat)) : State :=
  match spans.find? fun (a, n) => ((x.c.lane l).errors a n).2 != 0 with
  | none => s
  | some (a, _) =>
    let d := gidDie x.g
    ((x.c.lane l).badRows (kindOf x.g) spans).foldl (fun s (under, row) =>
      s.addRow d ((s.die d).physCol (gidY x.g) (gidX x.g)) (gidY x.g) (x.c.core l) under row 6)
      (s.execFault x 0x04 (some l) a)

/-- Reads of SRAM in some lanes: corrected errors are counted, an uncorrectable one faults in its lane, and its row is
reported for repair (R113, R442). `spans l` lists the address and length of each read in lane l. DESIGN CHOICE (log entry
158): the cluster's counter of corrected errors has 32 bits and wraps. -/
def State.sramRead (s : State) (x : Slot) (lanes : List Nat) (spans : Nat → List (Nat × Nat)) : State :=
  let ones := lanes.foldl (fun n l => n + (x.c.lane l).singles (spans l)) 0
  let s := if ones = 0 then s
    else s.modCluster x.g fun c => { c with corrected := c.corrected + BitVec.ofNat 32 ones }
  lanes.foldl (fun s l => s.laneUncorrectable x l (spans l)) s

/-- The drain of R85 waits for a result even where no lane is active, so every slow operation keeps its
place in the pipeline. -/
def drainMark (beats : Nat) : Landing := ⟨beats, .pred 0 0 0⟩

/-- Results of a slot that land together after some beats. -/
def State.landAll (s : State) (g beats : Nat) (ts : List Target) : State :=
  s.land g (drainMark beats :: ts.map fun t => ⟨beats, t⟩)

end Sys2Proof.Machine
end

