-- ==== Sys2Proof/Machine/Engine.lean ====
section
/-! DEFINITION. The E slot: ENOP, EMAC, EMACC, ECLR, ERD, ESLICE (02, 03 R91-R97). -/

namespace Sys2Proof.Machine

/-- Does the slot ask for a slot-free instruction issue only. -/
def noSlot (s : State) (i : Issue) : State := s.issue i fun _ s => s

/-- Bits [lo + w - 1 : lo] of a register as a number. -/
def regBits (v : BitVec 512) (lo w : Nat) : Nat := (v.extractLsb' lo w).toNat

/-- The products per engine lane of one EMAC (R37, R93). -/
def emacK (o : EmacOps) : Nat :=
  if (o.fmtA = 0#4 ∧ o.fmtB = 0#4) ∨ (o.fmtA = 6#4 ∧ o.fmtB = 6#4) then 2 else 1

/-- A block scale byte as a power of two; none for NaN (R36). -/
def scalePower (b : BitVec 8) : Option Int := if b = 0xFF#8 then none else some ((b.toNat : Int) - 127)

/-- The combined scale of engine e and engine lane j in a lane: none for NaN (R94). -/
def combinedScale (x : Lane) (scl : Bool) (e j : Nat) : Option Int :=
  if scl then
    match scalePower (x.sa.extractLsb' (8 * e) 8), scalePower (x.sb.extractLsb' (8 * j) 8) with
    | some a, some b => some (a + b)
    | _, _ => none
  else some 0

/-- Product number n of engine e and engine lane j: A(e, n) × B(j, n) (R93). -/
def emacProduct (o : EmacOps) (a b : BitVec 512) (e j n : Nat) : Exact :=
  let k := emacK o
  let wa := formatBits o.fmtA.toNat
  let wb := formatBits o.fmtB.toNat
  let baseB := if wb = 16 then 0 else if o.hb then 256 else 0
  let x := decodeCode o.fmtA.toNat (regBits a (64 * o.pa.toNat + wa * (e * k + n)) wa)
  let y := decodeCode o.fmtB.toNat (regBits b (baseB + wb * (j * k + n)) wb)
  x.mul y

/-- One Ledger takes the products of this beat (R37, R43, R95). -/
def emacLedger (o : EmacOps) (lane : Lane) (a b : BitVec 512) (e j : Nat) (x : Ledger) : Ledger :=
  if x.modeFits (o.fmtA == 7#4) then
    (List.range (emacK o)).foldl (fun y n =>
      match combinedScale lane o.scl e j with
      | some p => y.addProduct (emacProduct o a b e j n) p
      | none => y.addProduct .nan 0) x
  else x

/-- The engines 0 to elast of one lane: the new Ledgers, and whether a mode did not fit. -/
def emacLane (o : EmacOps) (clear : Bool) (c : Cluster) (l : Nat) : List Landing × Bool :=
  let lane := c.lane l
  let a := c.vop l o.srcA.toNat
  let b := c.vop l o.srcB.toNat
  let engines := List.range (o.elast.toNat + 1)
  let landing (e : Nat) : Landing :=
    let ls := (lane.ledgers e).zipIdx.map fun (x, j) =>
      emacLedger o lane a b e j (if clear then x.clearHeld else x)
    ⟨1, .ledgers l e ls⟩
  (engines.map landing,
    engines.any fun e => (lane.ledgers e).any fun x => !x.modeFits (o.fmtA == 7#4))

/-- EMAC and EMACC (R43, R91-R96): the products enter at the end of the beat; a Ledger whose mode does
not fit adds none and raises the execution fault of R95. -/
def State.emac (s : State) (i : Issue) (o : EmacOps) (clear : Bool) : State :=
  s.issue i fun x s =>
    let s := s.nameQueues x 0 x.acts (namesV o.srcA.toNat ++ namesV o.srcB.toNat)
    let rs := x.lanes.map fun l => (l, emacLane o clear x.c l)
    let s := s.land x.g (rs.flatMap fun r => r.2.1)
    match rs.find? (fun r => r.2.2) with
    | some (l, _) => s.execFault x 0x03 (some l) 0
    | none => s

/-- ECLR (R42, R97). -/
def State.eclr (s : State) (i : Issue) (emask : BitVec 8) (mode : BitVec 2) (w : BitVec 10) : State :=
  s.issue i fun x s =>
    let regs := (List.range 8).filter fun e => emask.getLsbD e
    s.land x.g (x.lanes.flatMap fun l => regs.map fun e =>
      ⟨1, .ledgers l e (((x.c.lane l).ledgers e).map (·.clear mode.toNat w.toInt))⟩)

/-- A failed check of a readout, save or restore (R63-R65, R69): its cause in class residue, the engine lane, the
stored and the computed residue. -/
structure ResFault where
  cause : Nat
  idx : Nat
  stored : BitVec 8
  computed : BitVec 8

/-- The failed residue checks of a Ledger register's Ledgers (R63). -/
def resFaults (cause : Nat) (ls : List Ledger) : List ResFault :=
  (ls.zipIdx.filter fun (x, _) => !x.residueOk).map fun (x, j) => ⟨cause, j, x.residue, x.computedResidue⟩

/-- residue_fault set in the engine lanes that a check names; the group check of R69 names its four Ledgers (R64). -/
def markFaults (bad : List ResFault) (ls : List Ledger) : List Ledger :=
  ls.zipIdx.map fun (x, j) => if bad.any (fun f => f.idx == j || (f.cause == 3 && f.idx / 4 == j / 4)) then x.setFlag 13 true else x

/-- Slice group t of a Ledger register where its four Ledgers are in slice mode (R67, R69). -/
def sliceGroup (ls : List Ledger) (t : Nat) : Option (Ledger × Ledger × Ledger × Ledger) :=
  let g (q : Nat) := ls.getD (4 * t + q) {}
  if (g 0).mode = 3 ∧ (g 1).mode = 3 ∧ (g 2).mode = 3 ∧ (g 3).mode = 3 then some (g 0, g 1, g 2, g 3) else none

/-- The group checks of a slice readout that fail (R69), named by the group's D lane. -/
def groupFaults (ls : List Ledger) : List ResFault :=
  (List.range 8).filterMap fun t =>
    match sliceGroup ls t with
    | some (d, ql, qm, qh) =>
      let (a, b) := sliceResidues d ql qm qh
      if a = b then none else some ⟨0x03, 4 * t, a, b⟩
    | none => none

/-- The faults that a readout of a format meets: residues, the group check of a slice readout, and rounders that
disagree with their duplicates (R63, R65, R69). A status readout rounds nothing. -/
def readFaults (fmt : Nat) (rounders : List Nat) (ls : List Ledger) : List ResFault :=
  resFaults 0x01 ls ++ (if fmt = 0xA then groupFaults ls else []) ++
    (if fmt = 0xC then [] else rounders.map fun j => ⟨0x04, j, 0, 0⟩)

/-- What a readout delivers: the 32 Ledgers with their readout flags, and the destination registers (R41, R51-R56,
R69). -/
def readValues (c : Rctl) (sr : Nat → Nat) (ls : List Ledger) : List Ledger × List (BitVec 512) :=
  if c.fmt = 0xC then
    (ls.map (·.setReadFlags ⟨0, false, false, false⟩), [BitVec.ofNat 512 (packBits 16 (ls.map (·.status.toNat)))])
  else if c.fmt = 0xA then
    let groups := (List.range 8).map fun t =>
      match sliceGroup ls t with
      | some (d, ql, qm, qh) =>
        let (v, fromRange) := sliceClassify d ql qm qh c.rnd
        let r := roundCode 0xA c.rnd c.sat 0 (v.scale c.shift)
        if fromRange then { r with overflow := true } else r
      | none => ({ bits := (Config.sliceUnstated (ls.getD (4 * t) {}).l).toNat } : Rounded)
    (ls.zipIdx.map fun (x, j) => x.setReadFlags (groups.getD (j / 4) { bits := 0 }),
      [BitVec.ofNat 512 (packBits 64 (groups.map (·.bits)))])
  else if c.blk then
    let (scale, rs) := roundBlock c.fmt c.rnd sr (ls.map fun x => (x.classify c.rnd).1.scale c.shift)
    ((ls.zip rs).map fun (x, r) => x.setReadFlags r,
      [BitVec.ofNat 512 (packBits (formatBits c.fmt) (rs.map (·.bits)) + 2 ^ 504 * scale)])
  else
    let rs := ls.zipIdx.map fun (x, j) => x.readElement c (sr j)
    let v := packBits (formatBits c.fmt) (rs.map (·.bits))
    ((ls.zip rs).map fun (x, r) => x.setReadFlags r,
      if erdRegs c.fmt = 2 then [BitVec.ofNat 512 v, BitVec.ofNat 512 (v / 2 ^ 512)] else [BitVec.ofNat 512 v])

/-- A readout of one Ledger register in one lane: the Ledgers as they stand after it, the destination
registers, and the failed checks (R41, R51-R56, R63-R65, R69). A partial group of tree mode is summed first, and a
status readout shows what that sets (log entry 121). -/
def readLane (c : Rctl) (sr : Nat → Nat) (rounders : List Nat) (ls : List Ledger) :
    List Ledger × List (BitVec 512) × List ResFault :=
  let ls := ls.map fun x => if x.mode = 2 then x.commitGroup else x
  let bad := readFaults c.fmt rounders ls
  let (flagged, regs) := readValues c sr ls
  let after := markFaults bad flagged
  (if c.clr then after.map (·.clearHeld) else after, regs, bad)

/-- Log the residue faults of one lane's readout, save or restore. -/
def State.residueFaults (s : State) (x : Slot) (lane acc : Nat) (bad : List ResFault) : State :=
  bad.foldl (fun s f => s.residueFault x f.cause lane acc f.idx false (2 ^ 64 - 1) f.stored f.computed) s

/-- The engine lanes of a Ledger register whose rounder disagrees with its duplicate, in one lane (R65). -/
def Cluster.badRounders (c : Cluster) (lane acc : Nat) : List Nat :=
  (c.roundersBad.filter fun r => r.1 == c.core lane && r.2.1 == acc).map (·.2.2)

/-- ERD (R43, R53-R59, R63-R65, R82). -/
def State.erd (s : State) (i : Issue) (acc : BitVec 3) (vd : BitVec 5) (rctl : BitVec 20) : State :=
  s.issue i fun x s =>
    let c := rctlOf rctl
    let (g, s) := if c.rnd = 4 then s.stepSr x.g else (0#32, s)
    let beats := if c.fmt = 0xA then 8 else 4
    let s := s.land x.g [drainMark beats]
    x.lanes.foldl (fun s l =>
      let sr := fun j => (srWord g (l * 32 + j)).toNat
      let (ls, regs, bad) := readLane c sr (x.c.badRounders l acc.toNat) ((x.c.lane l).ledgers acc.toNat)
      let writes := regs.zipIdx.map fun (v, k) => ⟨beats, .vreg l (vd.toNat + k) v⟩
      let s := s.land x.g (⟨1, .ledgers l acc.toNat ls⟩ :: writes)
      s.residueFaults x l acc.toNat bad) s

/-- ESLICE (R67, R97): engine e takes a(e), group t of every engine takes b(t). A Ledger in another mode adds nothing
and raises the execution fault that R95 names for EMAC (log entry 121). -/
def State.eslice (s : State) (i : Issue) (elast : BitVec 3) (sstep : BitVec 3) (srcA srcB : BitVec 6) : State :=
  s.issue i fun x s =>
    let s := s.nameQueues x 0 x.acts (namesV srcA.toNat ++ namesV srcB.toNat)
    let engines := List.range (elast.toNat + 1)
    let lane (l : Nat) : List Landing := engines.map fun e =>
      let a := (x.c.vop l srcA.toNat).extractLsb' (64 * e) 64
      let ls := ((x.c.lane l).ledgers e).zipIdx.map fun (y, j) =>
        let b := (x.c.vop l srcB.toNat).extractLsb' (64 * (j / 4)) 64
        if y.mode = 3 then y.sliceStep (j % 4) sstep.toNat a b else y
      ⟨1, .ledgers l e ls⟩
    let s := s.land x.g (x.lanes.flatMap lane)
    let wrong := x.lanes.find? fun l => engines.any fun e => ((x.c.lane l).ledgers e).any (·.mode != 3)
    match wrong with
    | some l => s.execFault x 0x03 (some l) 0
    | none => s

/-- ENOP (R91): the slot does nothing. -/
def execEnop (i : Issue) (s : State) : Answer := .next (noSlot s i)
/-- EMAC (R93). -/
def execEmac (i : Issue) (o : EmacOps) (s : State) : Answer :=
  whenLegal (.emac i o) "EMAC" (s.emac i o false)
/-- EMACC (R43, R91): clear in the held modes, then accumulate. -/
def execEmacc (i : Issue) (o : EmacOps) (s : State) : Answer :=
  whenLegal (.emacc i o) "EMACC" (s.emac i o true)
/-- ECLR (R97). -/
def execEclr (i : Issue) (emask : BitVec 8) (mode : BitVec 2) (w : BitVec 10) (s : State) : Answer :=
  whenLegal (.eclr i emask mode w) "ECLR" (s.eclr i emask mode w)
/-- ERD (R53). -/
def execErd (i : Issue) (acc : BitVec 3) (vd : BitVec 5) (rctl : BitVec 20) (s : State) : Answer :=
  whenLegal (.erd i acc vd rctl) "ERD" (s.erd i acc vd rctl)
/-- ESLICE (R67). -/
def execEslice (i : Issue) (elast sstep : BitVec 3) (srcA srcB : BitVec 6) (s : State) : Answer :=
  whenLegal (.eslice i elast sstep srcA srcB) "ESLICE" (s.eslice i elast sstep srcA srcB)

end Sys2Proof.Machine
end

