-- ==== Sys2Proof/Machine/MemSlot.lean ====
section
/-! DEFINITION. The M slot: SRAM loads and stores, Ledger saves and restores, SOUT and SIN (02 R60-R63,
03 R102, R110-R113, 04 R130). -/

namespace Sys2Proof.Machine

/-- The region that an SOUT's delay and a load's latency follow when no lane checks the transfer: an
address in no region takes the under-SRAM time (R130). -/
def isUnder (k : Kind) (a : Nat) : Bool :=
  match sramRegion k a with
  | some false => false
  | _ => true

/-- The post-increment of a base register (R82, R88, R102): it happens whatever the lane mask. -/
def State.postInc (s : State) (x : Slot) (inc : Bool) (sb : BitVec 5) (n : Nat) : State :=
  if inc then
    s.land x.g [⟨1, .sreg sb.toNat (BitVec.allOnes 64) (x.c.sreg sb.toNat + BitVec.ofNat 64 n)⟩]
  else s

/-- A transfer of n bytes at an address in some lanes (R110, R111, R500): the region, or the SRAM address
fault. DESIGN CHOICE (log entry 159): one record names the lowest lane, as for a mode mismatch (R95), where an
uncorrectable error logs one for each lane (R118). -/
def State.transfer (s : State) (x : Slot) (lanes : List Nat) (a n : Nat) (maxUnder : Nat) :
    Option Bool × State :=
  match sramSpan (kindOf x.g) a n with
  | some under =>
    if under && decide (n > maxUnder) && !lanes.isEmpty then
      (none, s.execFault x 0x02 lanes.head? a)
    else (some under, s)
  | none => if lanes.isEmpty then (none, s) else (none, s.execFault x 0x02 lanes.head? a)

/-- The bytes of a register. -/
def regBytes (v : BitVec 512) : List Byte := natLe v.toNat 64

/-- VLD (R102): cnt registers from lane SRAM. -/
def State.vld (s : State) (i : Issue) (o : MemOps) : State :=
  s.issue i fun x s =>
    let cnt := o.cntM1.toNat + 1
    let a := x.c.ea o.sb o.off 64
    let s := s.postInc x o.inc o.sb (64 * cnt)
    let beats := if isUnder (kindOf x.g) a then 6 else 2
    match s.transfer x x.lanes a (64 * cnt) 128 with
    | (some _, s) =>
      let s := s.sramRead x x.lanes fun _ => [(a, 64 * cnt)]
      s.landAll x.g beats (x.lanes.flatMap fun l => (List.range cnt).map fun k =>
        .vreg l (o.reg.toNat + k) (BitVec.ofNat 512 (readLe (x.c.lane l).sram (a + 64 * k) 64)))
    | (none, s) => s.landAll x.g beats []

/-- VST (R102): cnt registers to lane SRAM. -/
def State.vst (s : State) (i : Issue) (o : MemOps) : State :=
  s.issue i fun x s =>
    let cnt := o.cntM1.toNat + 1
    let a := x.c.ea o.sb o.off 64
    let s := s.postInc x o.inc o.sb (64 * cnt)
    match s.transfer x x.lanes a (64 * cnt) 128 with
    | (some _, s) =>
      s.land x.g (x.lanes.map fun l =>
        ⟨1, .mem l a ((List.range cnt).flatMap fun k => regBytes ((x.c.lane l).vreg (o.reg.toNat + k)))⟩)
    | (none, s) => s

/-- The named lane of SLD and SST, where it is active (R102). -/
def namedLane (x : Slot) (lane : BitVec 4) : List Nat := if x.mask.getLsbD lane.toNat then [lane.toNat] else []

/-- SLD (R102). -/
def State.sld (s : State) (i : Issue) (o : SMemOps) : State :=
  s.issue i fun x s =>
    let a := x.c.ea o.sb o.off 8
    let ls := namedLane x o.lane
    let beats := if isUnder (kindOf x.g) a then 6 else 2
    match s.transfer x ls a 8 8 with
    | (some _, s) =>
      let s := s.sramRead x ls fun _ => [(a, 8)]
      s.landAll x.g beats (ls.map fun l =>
        .sreg o.reg.toNat (BitVec.allOnes 64) (BitVec.ofNat 64 (readLe (x.c.lane l).sram a 8)))
    | (none, s) => s.landAll x.g beats []

/-- SST (R102). -/
def State.sst (s : State) (i : Issue) (o : SMemOps) : State :=
  s.issue i fun x s =>
    let a := x.c.ea o.sb o.off 8
    let ls := namedLane x o.lane
    match s.transfer x ls a 8 8 with
    | (some _, s) =>
      s.land x.g (ls.map fun l => ⟨1, .mem l a (natLe (x.c.sreg o.reg.toNat).toNat 8)⟩)
    | (none, s) => s

/-- LSAVE (R60, R63, R64, R82): 32 records, each residue checked before it is stored; a partial group of tree
mode is not part of the record. DESIGN CHOICE (log entry 155): the status field of a record whose check fails already
shows the residue_fault that the check has found. -/
def State.lsave (s : State) (i : Issue) (o : LMemOps) : State :=
  s.issue i fun x s =>
    let a := x.c.ea o.sb o.off 64
    let s := s.postInc x o.inc o.sb 1024
    let beats := if isUnder (kindOf x.g) a then 8 else 4
    match s.transfer x x.lanes a 1024 1024 with
    | (some _, s) =>
      let s := s.landAll x.g beats (x.lanes.map fun l =>
        let ls := (x.c.lane l).ledgers o.acc.toNat
        .mem l a ((markFaults (resFaults 0x01 ls) ls).flatMap fun r => natLe r.record.toNat 32))
      x.lanes.foldl (fun s l =>
        let ls := (x.c.lane l).ledgers o.acc.toNat
        let bad := resFaults 0x01 ls
        let s := if bad.isEmpty then s else s.land x.g [⟨1, .ledgerFault l o.acc.toNat (bad.map (·.idx))⟩]
        s.residueFaults x l o.acc.toNat bad) s
    | (none, s) => s.landAll x.g beats []

/-- LREST (R61, R82): 32 records read back, each residue checked. -/
def State.lrest (s : State) (i : Issue) (o : LMemOps) : State :=
  s.issue i fun x s =>
    let a := x.c.ea o.sb o.off 64
    let s := s.postInc x o.inc o.sb 1024
    let beats := if isUnder (kindOf x.g) a then 8 else 4
    match s.transfer x x.lanes a 1024 1024 with
    | (some _, s) =>
      let s := s.sramRead x x.lanes fun _ => [(a, 1024)]
      let ledgers (l : Nat) : List Ledger := (List.range 32).map fun j =>
        Ledger.ofRecord (BitVec.ofNat 256 (readLe (x.c.lane l).sram (a + 32 * j) 32))
      let s := s.landAll x.g beats (x.lanes.map fun l => .ledgers l o.acc.toNat (ledgers l))
      x.lanes.foldl (fun s l => s.residueFaults x l o.acc.toNat (resFaults 0x02 (ledgers l))) s
    | (none, s) => s.landAll x.g beats []

/-- An entry enters an injection buffer, not to be taken for some beats (R129, R130); networks 0 vector,
1 scalar, 2 control. Whether the buffer overflows is judged after the beat's take (R131). -/
def State.inject (s : State) (g net : Nat) (data : BitVec 512) (poison : Bool) (wait : Nat) : State :=
  s.modCluster g fun c =>
    let b := AMap.get [] c.inj net
    { c with inj := AMap.set [] c.inj net (b ++ [{ entry := { data := data, poison := poison }, wait := wait }]) }

/-- SOUT (R88, R102, R130): 64 B of the named lane, 0 where the lane is off. -/
def State.sout (s : State) (i : Issue) (lane : BitVec 4) (sb : BitVec 5) (off : BitVec 10) (inc : Bool) : State :=
  s.issue i fun x s =>
    let a := x.c.ea sb off 64
    let s := s.postInc x inc sb 64
    let ls := namedLane x lane
    let wait := if isUnder (kindOf x.g) a then 6 else 2
    match s.transfer x ls a 64 64 with
    | (some _, s) =>
      let s := s.sramRead x ls fun _ => [(a, 64)]
      let v := match ls with
        | l :: _ => BitVec.ofNat 512 (readLe (x.c.lane l).sram a 64)
        | [] => 0
      s.inject x.g 0 v false wait
    | (none, s) => s.inject x.g 0 0 false wait

/-- SIN (R88, R102, R464): the head of a vector queue to every active lane; the queue is named whatever
the mask. -/
def State.sinOp (s : State) (i : Issue) (queue : BitVec 2) (sb : BitVec 5) (off : BitVec 10) (inc : Bool) : State :=
  s.issue i fun x s =>
    let a := x.c.ea sb off 64
    let s := s.postInc x inc sb 64
    let s := s.nameQueues x 2 x.acts [⟨queue.toNat, 0x3F, true⟩]
    match s.transfer x x.lanes a 64 64 with
    | (some _, s) =>
      s.land x.g (x.lanes.map fun l => ⟨1, .mem l a (regBytes (x.c.head queue.toNat))⟩)
    | (none, s) => s

/-- MNOP (R102). -/
def execMnop (i : Issue) (s : State) : Answer := .next (s.issue i fun _ s => s)
/-- VLD (R102). -/
def execVld (i : Issue) (o : MemOps) (s : State) : Answer := whenLegal (.vld i o) "VLD" (s.vld i o)
/-- VST (R102). -/
def execVst (i : Issue) (o : MemOps) (s : State) : Answer := whenLegal (.vst i o) "VST" (s.vst i o)
/-- SLD (R102). -/
def execSld (i : Issue) (o : SMemOps) (s : State) : Answer := .next (s.sld i o)
/-- SST (R102). -/
def execSst (i : Issue) (o : SMemOps) (s : State) : Answer := .next (s.sst i o)
/-- LSAVE (R60). -/
def execLsave (i : Issue) (o : LMemOps) (s : State) : Answer := whenLegal (.lsave i o) "LSAVE" (s.lsave i o)
/-- LREST (R61). -/
def execLrest (i : Issue) (o : LMemOps) (s : State) : Answer := whenLegal (.lrest i o) "LREST" (s.lrest i o)
/-- SOUT (R102). -/
def execSout (i : Issue) (lane : BitVec 4) (sb : BitVec 5) (off : BitVec 10) (inc : Bool) (s : State) : Answer :=
  .next (s.sout i lane sb off inc)
/-- SIN (R102). -/
def execSin (i : Issue) (queue : BitVec 2) (sb : BitVec 5) (off : BitVec 10) (inc : Bool) (s : State) : Answer :=
  .next (s.sinOp i queue sb off inc)

end Sys2Proof.Machine
end

