-- ==== Sys2Proof/Machine/Scalar.lean ====
section
/-! DEFINITION. The Q slot but for the coupling operations: scalars, predicates, repeat blocks, injections,
END (03 R103-R109). -/

namespace Sys2Proof.Machine

/-- A Q slot issues; f runs where it executes (R87), and its named heads are consumed either way (R88). -/
def State.qslot (s : State) (i : Issue) (ns : List Naming) (f : Slot → State → State) : State :=
  s.issue i fun x s =>
    let ex := qExecutes i x.mask
    let s := s.nameQueues x 3 ex ns
    if ex then f x s else s

/-- All 64 bits of a scalar register land. -/
def sregTarget (r : BitVec 5) (v : BitVec 64) : Target := .sreg r.toNat (BitVec.allOnes 64) v

/-- SALU and SALUI (R82, R103): a multiply lands two beats later than the rest, and keeps its place in the
pipeline when it does not execute. -/
def State.saluOp (s : State) (i : Issue) (ns : List Naming) (fn : BitVec 4) (sd : BitVec 5)
    (a b : Slot → BitVec 64) : State :=
  let beats := if fn = 8#4 then 3 else 1
  let s := s.qslot i ns fun x s =>
    s.land x.g [⟨beats, sregTarget sd (saluResult fn.toNat (a x) (b x))⟩]
  s.issue i fun x s => s.landAll x.g beats []

/-- SLI (R103): hw 0 loads the zero-extended immediate, 1 to 3 a halfword. -/
def State.sli (s : State) (i : Issue) (sd : BitVec 5) (hw : BitVec 2) (imm : BitVec 16) : State :=
  s.qslot i [] fun x s =>
    let v : BitVec 64 := imm.setWidth 64 <<< (16 * hw.toNat)
    let mask : BitVec 64 := if hw = 0#2 then BitVec.allOnes 64 else 0xFFFF#64 <<< (16 * hw.toNat)
    s.land x.g [⟨1, .sreg sd.toNat mask v⟩]

/-- A Q-slot predicate operation writes all 16 bits (R104). -/
def State.predOp (s : State) (i : Issue) (ns : List Naming) (pd : BitVec 3) (v : Slot → BitVec 16) : State :=
  s.qslot i ns fun x s => s.land x.g [⟨1, .pred pd.toNat 0xFFFF#16 (v x)⟩]

/-- REP opens a block over the words that follow (R107). -/
def State.repOp (s : State) (i : Issue) (count : BitVec 12) (lenM1 : BitVec 8) (lp : BitVec 3) : State :=
  s.issue i fun x s =>
    let f : RepFrame :=
      { first := x.c.pc + 1, last := x.c.pc + 1 + lenM1.toNat, count := count.toNat, idx := 0, lp := lp }
    s.modCluster x.g fun c => { c with nextRep := some f }

/-- An injection of the Q slot: one entry whatever the mask, 0 where the slot does not execute (R88). -/
def State.injectOp (s : State) (i : Issue) (ns : List Naming) (net : Nat) (v : Slot → BitVec 512) : State :=
  s.issue i fun x s =>
    let ex := qExecutes i x.mask
    let s := s.nameQueues x 3 ex ns
    s.inject x.g net (if ex then v x else 0) false 1

/-- END parks the sequencer for the rest of the job once its beat is over (R106). -/
def State.endOp (s : State) (i : Issue) : State :=
  s.issue i fun x s => s.modCluster x.g fun c => { c with ending := true }

/-- QNOP (R103). -/
def execQnop (i : Issue) (s : State) : Answer := .next (s.issue i fun _ s => s)
/-- SALU (R103). -/
def execSalu (i : Issue) (fn : BitVec 4) (sd : BitVec 5) (sa sb : BitVec 6) (s : State) : Answer :=
  whenLegal (.salu i fn sd sa sb) "SALU"
    (s.saluOp i (namesS sa.toNat ++ namesS sb.toNat) fn sd (fun x => x.c.sop x.g sa.toNat)
      fun x => x.c.sop x.g sb.toNat)
/-- SALUI (R103). -/
def execSalui (i : Issue) (fn : BitVec 4) (sd : BitVec 5) (sa : BitVec 6) (imm : BitVec 8) (s : State) : Answer :=
  whenLegal (.salui i fn sd sa imm) "SALUI"
    (s.saluOp i (namesS sa.toNat) fn sd (fun x => x.c.sop x.g sa.toNat) fun _ => imm.signExtend 64)
/-- SLI (R103). -/
def execSli (i : Issue) (sd : BitVec 5) (hw : BitVec 2) (imm : BitVec 16) (s : State) : Answer :=
  .next (s.sli i sd hw imm)
/-- PCMP (R103). -/
def execPcmp (i : Issue) (pd cond : BitVec 3) (sa sb : BitVec 6) (s : State) : Answer :=
  whenLegal (.pcmp i pd cond sa sb) "PCMP"
    (s.predOp i (namesS sa.toNat ++ namesS sb.toNat) pd fun x =>
      if pcmpHolds cond.toNat (x.c.sop x.g sa.toNat) (x.c.sop x.g sb.toNat) then 0xFFFF#16 else 0#16)
/-- PLOG (R103). -/
def execPlog (i : Issue) (pd : BitVec 3) (fn : BitVec 2) (pa pb : BitVec 3) (s : State) : Answer :=
  whenLegal (.plog i pd fn pa pb) "PLOG"
    (s.predOp i [] pd fun x => plogResult fn.toNat (x.c.pred pa.toNat) (x.c.pred pb.toNat))
/-- PFROMS (R103). -/
def execPfroms (i : Issue) (pd : BitVec 3) (sa : BitVec 6) (s : State) : Answer :=
  whenLegal (.pfroms i pd sa) "PFROMS"
    (s.predOp i (namesS sa.toNat) pd fun x => (x.c.sop x.g sa.toNat).setWidth 16)
/-- PTOS (R103). -/
def execPtos (i : Issue) (sd : BitVec 5) (pa : BitVec 3) (s : State) : Answer :=
  .next (s.qslot i [] fun x s => s.land x.g [⟨1, sregTarget sd ((x.c.pred pa.toNat).setWidth 64)⟩])
/-- REP (R107). -/
def execRep (i : Issue) (count : BitVec 12) (lenM1 : BitVec 8) (lp : BitVec 3) (s : State) : Answer :=
  whenLegal (.rep i count lenM1 lp) "REP" (s.repOp i count lenM1 lp)
/-- SSEND (R103). -/
def execSsend (i : Issue) (sa : BitVec 6) (s : State) : Answer :=
  whenLegal (.ssend i sa) "SSEND"
    (s.injectOp i (namesS sa.toNat) 1 fun x => (x.c.sop x.g sa.toNat).setWidth 512)
/-- CSEND (R103). -/
def execCsend (i : Issue) (sa : BitVec 6) (s : State) : Answer :=
  whenLegal (.csend i sa) "CSEND"
    (s.injectOp i (namesS sa.toNat) 2 fun x => ((x.c.sop x.g sa.toNat).setWidth 16).setWidth 512)
/-- VSEND (R88, R103): 0 where the named lane is off. -/
def execVsend (i : Issue) (vs : BitVec 5) (lane : BitVec 4) (s : State) : Answer :=
  .next (s.injectOp i [] 0 fun x =>
    if x.mask.getLsbD lane.toNat then (x.c.lane lane.toNat).vreg vs.toNat else 0)
/-- END (R106). -/
def execEndProg (i : Issue) (s : State) : Answer := whenLegal (.endProg i) "END" (s.endOp i)

end Sys2Proof.Machine
end

