-- ==== Sys2Proof/Machine/Trace.lean ====
section
/-! DEFINITION. The Waybill probes: what each kind of probe records of a command's effect (19 R492). A probe that is
off records nothing. -/

namespace Sys2Proof.Machine

/-! ### Strips by place (R354, R220) -/

/-- The die site and edge of stack k's strip (R354). -/
def stackStrip (k : Nat) : Nat × Nat :=
  if k ≤ 6 then (k + 1, 0)
  else if k ≤ 14 then (8 * (k - 7) + 7, 1)
  else if k ≤ 22 then (78 - k, 2)
  else if k ≤ 30 then (8 * (30 - k), 3)
  else (0, 0)

/-- The stack of a strip, 0xFF where the edge is not outward (R354). -/
def stripStack (die edge : Nat) : Nat :=
  match (List.range 32).find? fun k => stackStrip k == (die, edge) with
  | some k => k
  | none => 0xFF

/-- The key of a stream slot: die, edge, slot. -/
def stripKey (die edge slot : Nat) : Nat := (die * 4 + edge) * 64 + slot

/-! ### Probes (R492, R495) -/

def State.probeKind (s : State) (j : Nat) : Nat := s.field (Reg.WAY_PROBE j) 20 4
def State.probeSource (s : State) (j : Nat) : Nat := s.field (Reg.WAY_PROBE j) 0 20
def State.probeSel (s : State) (j : Nat) : Nat := s.field (Reg.WAY_PROBE j) 24 6

/-- A probe delivers an entry, at most one in 64 ns: one beyond that is dropped, counted, and marks the next. -/
def State.wayEntry (s : State) (j src : Nat) (data : Nat) : State :=
  let w := s.way
  if s.ms < AMap.get 0 w.lastMs j then
    { s with way := { w with gap := AMap.set false w.gap j true, drops := w.drops + 1 } }.bump Reg.WAY_COUNTS 16 16 1
  else
    let e : WayEntry := {
      ms := s.ms, src := BitVec.ofNat 20 src, probe := BitVec.ofNat 4 j, kind := BitVec.ofNat 4 (s.probeKind j),
      gap := AMap.get false w.gap j, late := false, data := BitVec.ofNat 32 data }
    { s with way := { w with
      pending := w.pending ++ [e]
      lastMs := AMap.set 0 w.lastMs j (s.ms + 64)
      gap := AMap.set false w.gap j false } }

/-- A signal takes effect on a coupling (kind 3). -/
def State.probeSignal (s : State) (g cpl : Nat) (signaller : BitVec 20) (amount : Nat) : State :=
  (List.range 8).foldl (fun s j =>
    if s.probeKind j = 3 ∧ s.probeSource j = g ∧ s.probeSel j = cpl then
      s.wayEntry j g (signaller.toNat + 2 ^ 20 * (amount % 256))
    else s) s

/-! ### What a command changed -/

/-- Is issue held, by a wait or by a spill or merge (R180, R190)? -/
def Cluster.held (c : Cluster) : Bool := c.hold != .none || c.stall != .none

/-- Did an open block loop back? Frames are compared from the outermost on, so that one whose inner block has ended at the
same word counts too (R108). -/
def loopedBack (a b : List RepFrame) : Bool :=
  (a.reverse.zip b.reverse).any fun (x, y) => x.first == y.first && x.last == y.last && decide (x.idx < y.idx)

/-- Kind 1: hold start 0, hold end 1, loop-back 2, END 3. -/
def holdEntries (a b : Cluster) : List Nat :=
  let word (code : Nat) := a.pc % 2 ^ 11 + 2 ^ 11 * code + 2 ^ 13 * (a.execBeat.toNat % 2 ^ 19)
  let start : List Nat := if !a.held && b.held then [word 0] else []
  let ends : List Nat := if a.held && !b.held then [word 1] else []
  let loop : List Nat := if loopedBack a.rep b.rep then [word 2] else []
  let fin : List Nat := if !a.ended ∧ b.ended then [word 3] else []
  start ++ ends ++ loop ++ fin

/-- Kind 2: an arrival, with the poison of the entry that came; a realignment of the counters is none (R205). -/
def arrivalEntries (a b : Queue) : List Nat :=
  if b.arrivals ≠ a.arrivals + 1 then []
  else
    let p := match b.entries.getLast? with
      | some e => e.poison
      | none => false
    [b.arrivals.toNat % 2 ^ 31 + (if p then 2 ^ 31 else 0)]

/-- Kind 5: a state change of the port, and every control flit it sent. -/
def State.portEntries (a b : State) (p : Nat) : List Nat :=
  let change : List Nat := if (a.port p).st = (b.port p).st then [] else [0x80 + (b.port p).st.toNat]
  let sent := (b.sent.take (b.sent.length - a.sent.length)).reverse.filterMap fun m =>
    match m with
    | .flit q _ f => if q.toNat = p ∧ f.kind = 2#8 then some (f.payload.headD 0).toNat else none
    | _ => none
  sent ++ change

/-- Kind 8: credits that return, also where entries driven in the same beat take them, and the first underrun after a
driven entry. -/
def creditEntries (a b : StreamSlot) : List Nat :=
  (if a.credit + a.driven < b.credit + b.driven then [b.credit % 2 ^ 16] else []) ++
    (if !a.dry && b.dry then [b.credit % 2 ^ 16 + 2 ^ 16] else [])

/-- Kind 4: entries by participant and releases, with their source numbers. -/
def State.tollEntries (a b : State) : List (Nat × Nat) :=
  let n := a.toll.oldest
  let fresh (x y : List Nat) := y.filter fun k => !x.contains k
  let now : List (Nat × Nat) := if a.toll.oldest = b.toll.oldest then
      (fresh a.toll.entered b.toll.entered).map (fun k => (if k = pairUnit then srcOstler else k, n % 256)) ++
        (fresh a.toll.pending b.toll.pending).map (fun k => (k, (n + 1) % 256))
    else []
  now ++ (if a.toll.oldest < b.toll.oldest then [(srcClock, n % 256 + 2 ^ 8)] else [])

/-- The entries of probe j between two states: source and data. -/
def State.probeEntries (a b : State) (j : Nat) : List (Nat × Nat) :=
  let src := b.probeSource j
  let sel := b.probeSel j
  let tag (l : List Nat) := l.map fun d => (src, d)
  match b.probeKind j with
  | 1 => tag (holdEntries (a.cluster src) (b.cluster src))
  | 2 => tag (arrivalEntries ((a.cluster src).queue sel) ((b.cluster src).queue sel))
  | 4 => a.tollEntries b
  | 5 => tag (a.portEntries b (2 * (src - 0x10100) + sel % 2))
  | 6 =>
    let k := b.field Reg.PWR_STATUS 8 7
    if k = a.field Reg.PWR_STATUS 8 7 then [] else [(srcDrag, k + 2 ^ 7 * (b.power.envMw / 10000 % 2 ^ 16))]
  | 7 =>
    if a.ev.seq = b.ev.seq then []
    else match b.ev.log with
      | r :: _ => [(r.source.toNat % 2 ^ 20, r.cls.toNat + 2 ^ 8 * r.cause.toNat + 2 ^ 16 * (r.seq.toNat % 2 ^ 16))]
      | [] => []
  | 8 =>
    let (die, edge) := stackStrip (src - 0x10000)
    let key := stripKey die edge sel
    tag (creditEntries (a.strip key) (b.strip key))
  | _ => []

/-- The probes look at what a command did. -/
def State.traced (s t : State) : State :=
  (List.range 8).foldl (fun u j => (s.probeEntries t j).foldl (fun u (src, d) => u.wayEntry j src d) u) t

end Sys2Proof.Machine
end

