-- ==== Sys2Proof/Machine/Couple.lean ====
section
/-! DEFINITION. Couplings: the Q-slot operations, the coupling unit, messages, wakes, marks (06 R186-R196,
R205). -/

namespace Sys2Proof.Machine

/-- A control entry as a coupling unit judges it (R192). -/
inductive CplMsg where
  | null
  | signal (cpl : Nat) (amount : Nat)
  | watch (cpl : Nat) (path : BitVec 3)
  | wake
  | bad
  deriving DecidableEq, Repr

/-- Judge an entry (R192). -/
def cplMsg (m : BitVec 16) : CplMsg :=
  let k := (m.extractLsb' 2 6).toNat
  if m = 0#16 then .null
  else
    match (m.extractLsb' 0 2).toNat with
    | 0 => if m.extractLsb' 8 8 = 0#8 then .bad else .signal k (m.extractLsb' 8 8).toNat
    | 1 => if m.extractLsb' 11 5 = 0#5 ∧ (m.extractLsb' 8 3).toNat ≤ 4 then .watch k (m.extractLsb' 8 3) else .bad
    | 2 => if m.extractLsb' 2 14 = 0#14 then .wake else .bad
    | _ => .bad

/-- The message of a remote signal (R192). -/
def signalEntry (cpl : BitVec 6) (amount : BitVec 8) : BitVec 16 := amount ++ cpl ++ 0#2
/-- The message of a watch (R192). -/
def watchEntry (cpl : BitVec 6) (path : BitVec 3) : BitVec 16 := 0#5 ++ path ++ cpl ++ 1#2
/-- The wake message (R192). -/
def wakeEntry : BitVec 16 := 2#16

/-- A sync event (R209): coupling number, or 0x80 + queue code; the beat is the job beat, or the one that ran last
where `back` is 1. -/
def State.syncFault (s : State) (g cause obj : Nat) (back : Nat := 0) : State :=
  let beat := match s.slotOfCluster g with
    | some k => (s.job k).beat - back
    | none => 0
  s.clusterFault g { s.eventOf g 0x06 cause with beat := BitVec.ofNat 64 beat, p0 := BitVec.ofNat 32 obj }

/-- Does a local wait's condition hold (R188)? `z` is the count after the beat's signals. -/
def waitHolds (c : Cluster) (cpl cond val : Nat) (z : Int) : Bool :=
  match cond with
  | 0 => decide (z ≥ val)
  | 1 => z == (val : Int)
  | _ => decide ((c.queue cpl).entries.length ≥ val)

/-- What the signals of a beat do to one coupling, and the take of a wait on it (R189): the coupling, or
the cause of the sync fault. `signals` lists the change and the source of each signal in order. -/
def Coupling.apply (k : Coupling) (signals : List (Int × BitVec 20)) (ms : Nat) (take : Option Nat) :
    Except Nat Coupling :=
  let z := signals.foldl (fun z (d, _) => z + d) (k.count.toNat : Int)
  let z := match take with
    | some v => z - v
    | none => z
  if z < 0 then .error 2
  else if z > 2 ^ 32 - 1 then .error 1
  else
    let k := { k with count := BitVec.ofInt 32 z, total := k.total + BitVec.ofNat 32 signals.length }
    match signals.getLast? with
    | some (_, src) => .ok { k with lastSrc := src, lastMs := BitVec.ofNat 24 ms, lastValid := true }
    | none => .ok k

/-- Hold issue until four job beats after the current one (R190, R198). -/
def Cluster.resume (c : Cluster) : Cluster := { c with hold := .resume 3 }

/-- Does the pipeline hold in this beat (R180)? -/
def Cluster.frozen (c : Cluster) : Bool := !c.issued && c.stall != .none

/-- Is a drain with `left` beats to go complete at the end of this beat (R85, R190)? -/
def Cluster.drained (c : Cluster) (left : Nat) : Bool := decide (left ≤ if c.frozen then 0 else 1)

/-- The drain after this beat; it stands still while the pipeline does (R180). -/
def Cluster.drainOn (c : Cluster) (left : Nat) : Nat := if c.frozen then left else left - 1

/-- A wait that is satisfied at the end of this beat: met in its own beat it holds none (R190). -/
def Cluster.waitOver (c : Cluster) : Cluster := if c.issued then { c with hold := .none } else c.resume

/-- A wait on a coupling no longer shows in its waiter fields (R190). -/
def Cluster.clearWaiter (c : Cluster) (cpl cond : Nat) : Cluster :=
  if cond < 2 then
    c.setCoupling cpl { c.coupling cpl with lanes := 0, seqWaiter := false }
  else c

/-- A wait on a coupling shows in its waiter fields while it holds (R190). -/
def Cluster.showWaiter (c : Cluster) (cpl cond : Nat) (mask : BitVec 16) : Cluster :=
  if cond < 2 then
    c.setCoupling cpl { c.coupling cpl with lanes := mask, seqWaiter := true }
  else c

/-- A wake ends the pending remote wait once its drain is complete (R85); none pending is a stray wake (R194). -/
def State.wakeCluster (s : State) (g : Nat) (back : Nat := 0) : State :=
  match (s.cluster g).hold with
  | .remote _ left => s.modCluster g fun c => { c with hold := .woken left }
  | _ => s.syncFault g 0x05 0 back

/-- A woken hold whose drain is complete between two beats ends with the beat before (R85, R190). -/
def Cluster.settle (c : Cluster) : Cluster :=
  match c.hold with
  | .woken 0 => c.resume
  | _ => c

/-- A watch takes the first free remote-waiter slot (R194). -/
def State.watchCluster (s : State) (g cpl : Nat) (path : BitVec 3) (back : Nat := 0) : State :=
  let k := (s.cluster g).coupling cpl
  match (List.range 8).find? fun j => !(k.slot j).valid with
  | some j => s.modCluster g fun c => c.setCoupling cpl (k.setSlot j { valid := true, path := path })
  | none => s.syncFault g 0x04 cpl back

/-- The signals of a beat by coupling: the local CSIG first, then the message (R189). -/
def signalsOn (g cpl : Nat) (sig : Option LocalSig) (msg : Option (CplMsg × BitVec 20)) :
    List (Int × BitVec 20) :=
  let a := match sig with
    | some x => if x.cpl.toNat = cpl then [((if x.sub then -(x.amount.toNat : Int) else x.amount.toNat),
        BitVec.ofNat 20 g)] else []
    | none => []
  let b := match msg with
    | some (.signal k n, src) => if k = cpl then [((n : Int), src)] else []
    | _ => []
  a ++ b

/-- The couplings that a beat's signals name. -/
def signalled (sig : Option LocalSig) (msg : Option (CplMsg × BitVec 20)) : List Nat :=
  let a := match sig with
    | some x => [x.cpl.toNat]
    | none => []
  match msg with
  | some (.signal k _, _) => if a.contains k then a else a ++ [k]
  | _ => a

/-- Steps 1 to 3 of R189 at one coupling: the signals, then the take of a satisfied local wait. `judge`
says that the wait may be satisfied: its drain is complete in this beat; `ms` is the Milestone at which the signals
take effect, the end of the beat. -/
def State.cplSteps (s : State) (g cpl ms : Nat) (signals : List (Int × BitVec 20)) (judge : Bool)
    (back : Nat := 0) : State :=
  let c := s.cluster g
  let k := c.coupling cpl
  let z := signals.foldl (fun z (d, _) => z + d) (k.count.toNat : Int)
  let sat := match c.hold with
    | .wait w cond val take _ _ =>
      if judge && w.toNat == cpl && decide (cond.toNat < 2) && waitHolds c cpl cond.toNat val.toNat z then
        some (cond.toNat, if take then some val.toNat else none)
      else none
    | _ => none
  match k.apply signals ms (sat.bind (·.2)) with
  | .error cause => s.syncFault g cause cpl back
  | .ok k' =>
    let s := signals.foldl (fun s (d, src) => s.probeSignal g cpl src d.natAbs) s
    s.modCluster g fun c =>
      let c := c.setCoupling cpl k'
      match sat with
      | some (cond, _) =>
        let c := c.clearWaiter cpl cond
        c.waitOver
      | none => c

/-- A cluster's hold after a beat's signals and messages: the queue wait of cond 2, the drains, the wake of a wait
whose drain is complete (R85, R190). -/
def Cluster.holdBeat (c : Cluster) : Cluster :=
  match c.hold with
  | .wait w cond val take mask left =>
    if cond = 2#3 ∧ c.drained left ∧ waitHolds c w.toNat 2 val.toNat 0 then c.waitOver
    else { c with hold := .wait w cond val take mask (c.drainOn left) }.showWaiter w.toNat cond.toNat mask
  | .remote w left => { c with hold := .remote w (c.drainOn left) }
  | .toll n left => { c with hold := .toll n (c.drainOn left) }
  | .woken left => if c.drained left then c.resume else { c with hold := .woken (c.drainOn left) }
  | _ => c

/-- The coupling unit's beat (R189, R190, R192-R194): signals by coupling, the wait in hold, then the
message's watch or wake. `ms` is the end of the beat. -/
def State.cplBeat (s : State) (g ms : Nat) (sig : Option LocalSig) (msg : Option (BitVec 16 × BitVec 20)) : State :=
  let m := msg.map fun (e, src) => (cplMsg e, src)
  let hold := (s.cluster g).hold
  let (judge, waitOn) := match hold with
    | .wait w cond _ _ _ left => ((s.cluster g).drained left, if cond.toNat < 2 then [w.toNat] else [])
    | _ => (false, [])
  let names := signalled sig m
  let names := names ++ waitOn.filter fun w => !names.contains w
  let s := names.foldl (fun s k => s.cplSteps g k ms (signalsOn g k sig m) judge) s
  let s := match m with
    | some (.bad, _) =>
      let k := match msg with
        | some (e, _) => (e.extractLsb' 2 6).toNat
        | none => 0
      s.syncFault g 0x03 k
    | some (.watch k path, _) => s.watchCluster g k path
    | some (.wake, _) => s.wakeCluster g
    | _ => s
  s.modCluster g Cluster.holdBeat

/-- The wakes of one cluster at the end of a beat (R194, R195): every coupling whose count is at least its
threshold frees its slots; path 0 goes to the wake queue in the next beat, paths 1 to 4 pulse in it. -/
def Cluster.wakeWaiters (c : Cluster) : Cluster :=
  c.couplings.foldl (fun (c : Cluster) (cpl, k) =>
    if k.thresh ≤ k.count then
      (List.range 8).foldl (fun (c : Cluster) j =>
        let w := k.slot j
        if w.valid then
          let c := c.setCoupling cpl ((c.coupling cpl).setSlot j {})
          if w.path = 0#3 then { c with wakeNext := c.wakeNext ++ [wakeEntry] }
          else { c with pulseNext := c.pulseNext ++ [(w.path - 1#3).setWidth 2] }
        else c) c
    else c) c

/-- CSIG (R188, R189, R193). -/
def State.csig (s : State) (i : Issue) (cpl : BitVec 6) (rem sub : Bool) (amount : BitVec 8) : State :=
  if rem then s.injectOp i [] 2 fun _ => (signalEntry cpl amount).setWidth 512
  else s.qslot i [] fun x s =>
    let l : LocalSig := { cpl := cpl, sub := sub, amount := amount }
    s.modCluster x.g fun c => { c with sig := some l }

/-- CWAIT (R188, R190, R194). -/
def State.cwait (s : State) (i : Issue) (cpl : BitVec 6) (rem : Bool) (cond : BitVec 3) (val : BitVec 8)
    (take : Bool) (path : BitVec 3) : State :=
  if rem then
    let s := s.injectOp i [] 2 fun _ => (watchEntry cpl path).setWidth 512
    s.qslot i [] fun x s => s.modCluster x.g fun c => { c with hold := .remote cpl x.c.drain }
  else s.qslot i [] fun x s =>
    s.modCluster x.g fun c => { c with hold := .wait cpl cond val take x.mask x.c.drain }

/-- The value of a mark object as CTOLL snapshots it (R205). -/
def Cluster.markValue (c : Cluster) (obj : Nat) : BitVec 32 :=
  if obj < 0x80 then (c.coupling obj).count
  else (c.queue (obj - 0x80)).arrivals - (c.queue (obj - 0x80)).consumed

/-- The snapshot of a cluster's mark objects for a round (R205). -/
def Cluster.snapshot (c : Cluster) (round : Nat) : Mark where
  round := round
  vals := c.markObjs.map fun (o, _) => (o, c.markValue o)
  qms := (c.markObjs.filter fun (o, _) => 0x80 ≤ o).map fun (o, _) => (o - 0x80, (c.queue (o - 0x80)).consumed)

/-- CTOLL (R202, R205): the mark enters the lowest unreleased round that the cluster has not entered. -/
def State.enterMark (s : State) (x : Slot) (w : Bool) : State :=
  let n := s.toll.oldest
  match x.c.mark, x.c.pendMark with
  | none, _ =>
    s.modCluster x.g fun c => { c with mark := some (x.c.snapshot n), hold := if w then .toll n x.c.drain else c.hold }
  | some _, none =>
    s.modCluster x.g fun c =>
      { c with pendMark := some (x.c.snapshot (n + 1)), hold := if w then .toll (n + 1) x.c.drain else c.hold }
  | some _, some _ =>
    s.clusterFault x.g { s.eventOf x.g 0x07 0x01 with
      p0 := BitVec.ofNat 32 ((n + 2) % 256 + 2 ^ 8 * 2) }

/-- The Q slot of CTOLL. -/
def State.ctoll (s : State) (i : Issue) (w : Bool) : State := s.qslot i [] fun x s => s.enterMark x w

/-- BROADCAST_WAKE (R191, R196, R198, R205): on the die, holds of CTOLL on released rounds end; a cluster of
a job that does not run is parked. -/
def State.broadcastWake (s : State) (die : Nat) : State :=
  let run := match s.slotOfDie die with
    | some k => (s.job k).beating
    | none => false
  s.clusters.foldl (fun s (g, c) =>
    if gidDie g = die then
      if !run then
        if c.held then s.setCluster g { c with hold := .none, stall := .none, parked := true } else s
      else
        match c.hold with
        | .toll n left => if n < s.toll.oldest then s.setCluster g { c with hold := .woken left }.settle else s
        | _ => s
    else s) s

/-- WAIT_SATISFIED (R189, R190): a held local wait whose condition holds and whose drain is complete. -/
def State.waitSatisfied (s : State) (g : Nat) : State :=
  let c := s.cluster g
  match c.hold with
  | .wait w cond val take _ left =>
    let k := c.coupling w.toNat
    if left = 0 ∧ !c.issued ∧ waitHolds c w.toNat cond.toNat val.toNat (k.count.toNat : Int) then
      let k' := if take && decide (cond.toNat < 2) then { k with count := k.count - val.setWidth 32 } else k
      let c := if cond.toNat < 2 then c.setCoupling w.toNat k' else c
      s.setCluster g (c.clearWaiter w.toNat cond.toNat).resume
    else s
  | _ => s

/-- A wake that comes between two beats counts in the beat that ran last (R194). -/
def State.wakeBetween (s : State) (g : Nat) : State := (s.wakeCluster g 1).modCluster g Cluster.settle

/-- A message reaches the coupling unit of a cluster whose job runs, and takes effect at the end of the beat that
ran last; nothing is applied after a stop (R191). What it makes true of a threshold wakes the waiters as at the end of
that beat (R194). -/
def State.message (s : State) (g : Nat) (msg : BitVec 16) (origin : BitVec 20) : State :=
  match s.slotOfCluster g with
  | some k =>
    if (s.job k).beating then
      match cplMsg msg with
      | .null => s
      | .signal c n =>
        (s.cplSteps g c (max s.ms ((s.job k).cycleMs ((s.job k).beat + (s.job k).skipped))) [((n : Int), origin)] false
          1).modCluster g Cluster.wakeWaiters
      | .watch c path => (s.watchCluster g c path 1).modCluster g Cluster.wakeWaiters
      | .wake => s.wakeBetween g
      | .bad => s.syncFault g 0x03 (msg.extractLsb' 2 6).toNat 1
    else s
  | none => s

/-- CSIG (R188). -/
def execCsig (i : Issue) (cpl : BitVec 6) (rem sub : Bool) (amount : BitVec 8) (s : State) : Answer :=
  whenLegal (.csig i cpl rem sub amount) "CSIG" (s.csig i cpl rem sub amount)
/-- CWAIT (R190). -/
def execCwait (i : Issue) (cpl : BitVec 6) (rem : Bool) (cond : BitVec 3) (val : BitVec 8) (take : Bool)
    (path : BitVec 3) (s : State) : Answer :=
  whenLegal (.cwait i cpl rem cond val take path) "CWAIT"
    (s.traced (s.cwait i cpl rem cond val take path))
/-- CTOLL (R205). -/
def execCtoll (i : Issue) (w : Bool) (s : State) : Answer := .next (s.traced (s.ctoll i w))
/-- CREAD (R189): the count at the end of the last beat. -/
def execCread (i : Issue) (cpl : BitVec 6) (sd : BitVec 5) (s : State) : Answer :=
  .next (s.qslot i [] fun x s =>
    s.land x.g [⟨1, sregTarget sd ((x.c.coupling cpl.toNat).count.setWidth 64)⟩])
/-- WAIT_SATISFIED (R190). -/
def execWaitSatisfied (c : BitVec 16) (s : State) : Answer := .next (s.traced (s.waitSatisfied c.toNat))
/-- SIGNAL_MESSAGE (R193). -/
def execSignalMessage (c msg : BitVec 16) (origin : BitVec 20) (s : State) : Answer :=
  .next (s.message c.toNat msg origin)
/-- WATCH_MESSAGE (R194). -/
def execWatchMessage (c msg : BitVec 16) (s : State) : Answer := .next (s.message c.toNat msg 0)
/-- WAKE_MESSAGE (R194). -/
def execWakeMessage (c msg : BitVec 16) (s : State) : Answer := .next (s.traced (s.message c.toNat msg 0))
/-- WAKE_LINE_PULSE (R194, R196): from a neighbour on the same die. -/
def execWakeLinePulse (c : BitVec 16) (_dir : BitVec 2) (s : State) : Answer :=
  .next (s.traced (match s.slotOfCluster c.toNat with
    | some k => if (s.job k).beating then s.wakeBetween c.toNat else s
    | none => s))
/-- BROADCAST_WAKE (R196). -/
def execBroadcastWake (die : BitVec 6) (s : State) : Answer := .next (s.traced (s.broadcastWake die.toNat))

end Sys2Proof.Machine
end

