-- ==== Sys2Proof/Machine/Strips.lean ====
section
/-! DEFINITION. Stream slots on the fabric side: patterns, buffers, credits, drops, stream faults
(04 R135, R144, 07 R220-R231, 12 R354). -/

namespace Sys2Proof.Machine

def keyDie (k : Nat) : Nat := k / 256
def keyEdge (k : Nat) : Nat := k / 64 % 4
def keySlot (k : Nat) : Nat := k % 64

/-- The bytes of an entry on a network (R220). -/
def netBytes (net : Nat) : Nat :=
  match net with
  | 0 => 64
  | 1 => 8
  | _ => 2

def StreamDesc.size (d : StreamDesc) : Nat := netBytes d.net

/-- Entries delivered for one pattern element: 1, or a slot group's (R227). -/
def StreamDesc.perElement (d : StreamDesc) : Nat :=
  if d.ingress then 1
  else match d.conv with
    | 1 => 5
    | 2 => 9
    | _ => 1

/-- Pattern elements, and entries of the stream. -/
def StreamDesc.elements (d : StreamDesc) : Nat := d.rowLen * d.rows * d.passes
def StreamDesc.total (d : StreamDesc) : Nat := d.elements * d.perElement

/-- The window offset of pattern element n without conversion (R222). -/
def StreamDesc.offset (d : StreamDesc) (n : Nat) : Nat :=
  let k := n % d.rowLen
  let r := n / d.rowLen % d.rows
  ((d.start : Int) + r * d.stride + k * d.size).toNat

/-- How many elements from n on lie one after another in the same block of `unit` bytes, at most `limit`
(R222, R223). -/
def StreamDesc.run (d : StreamDesc) (n unit : Nat) : Nat → Nat
  | 0 => 0
  | limit + 1 =>
    let prior := d.run n unit limit
    if prior = limit ∧ n + limit < d.elements ∧ d.offset (n + limit) = d.offset n + limit * d.size ∧
        d.offset (n + limit) / unit = d.offset n / unit then limit + 1
    else prior

/-- The window base of a stream. -/
def State.streamBase (s : State) (x : StreamSlot) : Nat := ((s.job x.job.toNat).window x.desc.window).base

/-- A stream fault (R231): it stops the job that owns the slot. -/
def State.streamFault (s : State) (key cause off : Nat) : State :=
  let x := s.strip key
  let die := keyDie key
  s.slotFault x.job.toNat { s.eventOf (die * 1024) 0x09 cause with
    p0 := BitVec.ofNat 32 (die + 2 ^ 6 * keyEdge key + 2 ^ 8 * keySlot key)
    p1 := BitVec.ofNat 64 off }

/-- The cluster that an exchange unit faces (04, X strips). -/
def edgeCluster (die edge unit : Nat) : Nat :=
  match edge with
  | 0 => gidOf die 0 unit
  | 1 => gidOf die unit 31
  | 2 => gidOf die 31 unit
  | _ => gidOf die unit 0

/-- Count a drop and record the first (R157): queue code, and edge and unit of an exchange unit. -/
def State.countDrop (s : State) (g queue : Nat) (xu : Option (Nat × Nat)) (inj : Bool) : State :=
  let die := gidDie g
  let s := s.bump (if inj then Reg.FAB_INJ_DROP_COUNT die else Reg.FAB_DROP_COUNT die) 0 32 1
  if s.field (Reg.FAB_DROP_FIRST die) 31 1 = 1 then s
  else
    let place := match xu with
      | some (edge, unit) => 2 ^ 14 + 2 ^ 15 * edge + 2 ^ 17 * unit
      | none => 0
    s.setReg (Reg.FAB_DROP_FIRST die) (BitVec.ofNat 32 (g % 1024 + 2 ^ 10 * queue + place + 2 ^ 31))

/-- A fabric fault (R159). DESIGN CHOICE (log entry 18): one at an exchange unit or a transit endpoint carries the
source number of the edge cluster that it faces. -/
def State.fabricFault (s : State) (g cause queue : Nat) (xu : Option (Nat × Nat)) : State :=
  let beat := match s.slotOfCluster g with
    | some k => (s.job k).beat
    | none => 0
  let p1 := match xu with
    | some (edge, unit) => 2 ^ 7 + edge + 2 ^ 2 * unit
    | none => 0
  s.clusterFault g { s.eventOf g 0x04 cause with
    beat := BitVec.ofNat 64 beat, p0 := BitVec.ofNat 32 queue, p1 := BitVec.ofNat 64 p1 }

/-- A drop: counted, recorded, and a fabric fault. -/
def State.drop (s : State) (g cause queue : Nat) (xu : Option (Nat × Nat)) : State :=
  (s.countDrop g queue xu (cause == 2)).fabricFault g cause queue xu

/-- Count an underrun (R224). -/
def State.underrun (s : State) (key : Nat) : State :=
  (s.setStrip key { s.strip key with dry := true }).bump
    (Reg.STR_UNDERRUN_0 (keyDie key) (keySlot key) + 0x100 * keyEdge key) 0 32 1

/-- Does an egress slot have entries still to drive? A spill slot has what the hash unit waits for (R228). -/
def StreamSlot.remains (x : StreamSlot) : Bool :=
  if x.desc.conv = 3 then !x.spillAt.isEmpty else decide (x.driven < x.desc.total)

/-- A route word drives an egress slot (R223): the head entry, or an idle slot. -/
def State.driveSlot (s : State) (key : Nat) : Option Entry × State :=
  let x := s.strip key
  if !x.used || x.stopped || x.desc.ingress then (none, s)
  else
    match x.buf with
    | e :: rest =>
      if x.credit = 0 then (none, s.underrun key)
      else
        let n := x.driven + 1
        (some e, s.setStrip key { x with
          buf := rest, credit := x.credit - 1, driven := n, done := x.desc.conv != 3 && n == x.desc.total, dry := false })
    | [] => (none, if x.remains then s.underrun key else s)

/-- A route word drives the control egress of an ingress slot: its next credit message (R225). -/
def State.driveCredit (s : State) (key : Nat) : Option Entry × State :=
  let x := s.strip key
  match x.ctl with
  | m :: rest => (some { data := m.setWidth 512, poison := false }, s.setStrip key { x with ctl := rest })
  | [] => (none, s)

/-- Close the open signature block of a paired job's ingress slot (R344). -/
def State.closeBlock (s : State) (key : Nat) : State :=
  let x := s.strip key
  if x.sigCount = 0 then s
  else
    let id := 2 ^ 62 + 2 ^ 56 * x.job.toNat + 2 ^ 50 * x.desc.die + 2 ^ 48 * x.desc.edge +
      2 ^ 42 * keySlot key + x.sigBlock
    let u : SigUnit := { id := BitVec.ofNat 64 id, crc := x.sigCrc, round := 0 }
    let s := { s with pair := { s.pair with closed := s.pair.closed ++ [u] } }
    s.setStrip key { x with sigCrc := 0, sigCount := 0, sigBlock := x.sigBlock + 1 }

/-- The signature of an accepted entry of a paired job: a unit for each 4,096 entries; the rest have theirs when the
stream completes (R344). -/
def State.signEntry (s : State) (key : Nat) (e : Entry) : State :=
  let x := s.strip key
  if (s.job x.job.toNat).paired then
    let bytes := natLe e.data.toNat x.desc.size
    let s := s.setStrip key { x with sigCrc := crc64 x.sigCrc bytes, sigCount := x.sigCount + 1 }
    if x.sigCount + 1 = 4096 then s.closeBlock key else s
  else s

/-- An entry reaches an ingress slot (R135, R225, R231): `g`, `edge` and `unit` name the exchange unit. -/
def State.acceptEntry (s : State) (key : Nat) (e : Entry) (g edge unit : Nat) : State :=
  let x := s.strip key
  let d := x.desc
  if x.accepted ≥ d.total then
    (s.countDrop g 0xF (some (edge, unit)) false).streamFault key 0x02 (d.offset (d.elements - 1))
  else if x.buf.length ≥ d.depth then s.drop g 0x03 0xF (some (edge, unit))
  else (s.setStrip key { x with buf := x.buf ++ [e], accepted := x.accepted + 1 }).signEntry key e

/-- An entry reaches a slot's control input (R223): a signal adds credits to the egress slot that its
coupling field names, one of the same job (R298); `named` is the slot that the route word named, and no job owns one
that is not declared. DESIGN CHOICE (log entry 164): the event of a credit overflow carries the offset of the entry that
the slot drives next, that of a malformed credit offset 0. -/
def State.creditReturn (s : State) (named : Nat) (msg : BitVec 16) : State :=
  match cplMsg msg with
  | .null => s
  | .signal k n =>
    let key := named / 64 * 64 + k
    let x := s.strip key
    if !(s.strip named).used then s
    else if x.used && !x.desc.ingress && x.job == (s.strip named).job then
      if x.credit + n > x.desc.credits then s.streamFault key 0x04 (x.desc.offset x.driven)
      else s.setStrip key { x with credit := x.credit + n }
    else s.streamFault named 0x06 0
  | _ => if (s.strip named).used then s.streamFault named 0x06 0 else s

/-- An ingress slot's credits for its first `upto` entries (R225, R229): a message for every further batch, one
for the remainder after the last entry, and then the stream is complete. -/
def StreamSlot.queueCredits (x : StreamSlot) (upto : Nat) : StreamSlot :=
  let d := x.desc
  let cpl := BitVec.ofNat 6 d.cpl
  let n := if d.batch = 0 then 0 else (upto - x.creditedTo) / d.batch
  let x := { x with
    ctl := x.ctl ++ List.replicate n (signalEntry cpl (BitVec.ofNat 8 d.batch))
    creditedTo := x.creditedTo + n * d.batch }
  if upto = d.total ∧ !x.done ∧ d.conv ≠ 3 then
    let rest := upto - x.creditedTo
    { x with
      ctl := if rest = 0 then x.ctl else x.ctl ++ [signalEntry cpl (BitVec.ofNat 8 rest)]
      creditedTo := upto
      done := true }
  else x

/-- Acknowledged runs that follow `acked` join it (R226). -/
def StreamSlot.joinSpans (x : StreamSlot) : Nat → StreamSlot
  | 0 => x
  | n + 1 =>
    match AMap.get 0 x.spans x.acked with
    | 0 => x
    | upto => StreamSlot.joinSpans { x with spans := x.spans.erase x.acked, acked := upto } n

/-- Arrived entries that follow the buffer join it, in pattern order (R222). -/
def StreamSlot.joinEarly (x : StreamSlot) : Nat → StreamSlot
  | 0 => x
  | n + 1 =>
    match AMap.get [] x.early x.ready with
    | [] => x
    | es =>
      StreamSlot.joinEarly
        { x with early := x.early.erase x.ready, buf := x.buf ++ es, ready := x.ready + es.length } n

end Sys2Proof.Machine
end

