-- ==== Sys2Proof/Machine/Sfu.lean ====
section
/-! DEFINITION. The special functions of the F-core (R72): the special inputs and the exact results, the
rest a fixed function of the input bits that nothing constrains beyond its error bound. -/

namespace Sys2Proof.Machine

def f32PosInf : BitVec 32 := 0x7F800000#32
def f32NegInf : BitVec 32 := 0xFF800000#32
def f32Nan : BitVec 32 := 0x7FC00000#32
def f32One : BitVec 32 := 0x3F800000#32
/-- The sign of an input on a magnitude. -/
def withSign (x mag : BitVec 32) : BitVec 32 := (x &&& 0x80000000#32) ||| mag

/-! Enclosures in fixed point: a pair (lo, hi) stands for [lo, hi] × 2^-P (P = fixP). -/

/-- The fixed-point precision: its last place lies far below an ulp of any result. -/
def fixP : Nat := 192

/-- Σ x^k / k! of a fixed-point x in [0, 1) from below; the terms cut off and the roundings lose less
than 2^-180 in all. -/
def expTaylor (x : Nat) : Nat → Nat → Nat → Nat
  | 0, _, acc => acc
  | n + 1, term, acc =>
    -- terms 1, x, x²/2!, …: the k-th follows from the one before it
    let k := 60 - n
    let t := term * x / 2 ^ fixP / k
    expTaylor x n t (acc + t)

/-- e^x for a fixed-point x in [0, 1). -/
def expFix (x : Nat) : Nat := expTaylor x 60 (2 ^ fixP) (2 ^ fixP)

/-- ln 2 × 2^192. -/
def ln2Fix : Nat := 0xB17217F7D1CF79ABC9E3B39803F2F6AF40F343267298B62D

/-- What the roundings of the series can lose, in units of the last place of the fixed point. -/
def fixSlack : Nat := 2 ^ 20

/-- The magnitude that an encoding stands for, m × 2^e; that of an infinity counts as 2^128. -/
def magValue (b : Nat) : Nat × Int :=
  if b / 2 ^ 23 = 0 then (b, -149) else (2 ^ 23 + b % 2 ^ 23, (b / 2 ^ 23 : Nat) - 150)

/-- The exponent of the ulp of a magnitude m × 2^e, m above 0, at FP32's precision and range (R72). -/
def ulpExp (m : Nat) (e : Int) : Int := max ((Nat.log2 m : Int) + e - 23) (-149)

/-- Is the magnitude of an encoding within n ulp of every value from lo × 2^e to hi × 2^e (R72)? -/
def withinUlp (raw n lo hi : Nat) (e : Int) : Bool :=
  let (rm, re) := magValue raw
  let u := ulpExp lo e
  let c := min (min e re) u
  let at' (m : Nat) (k : Int) : Nat := m * 2 ^ (k - c).toNat
  decide (raw ≤ 0x7F800000) && decide (at' rm re ≤ at' lo e + at' n u) &&
    decide (at' hi e ≤ at' rm re + at' n u)

/-- A non-negative result within n ulp of a magnitude that lies between lo × 2^e and hi × 2^e: the free
result where it is within the bound, else the nearest encoding (log entry 14). -/
def nearMag (fn : Nat) (x : BitVec 32) (n lo hi : Nat) (e : Int) : BitVec 32 :=
  let raw := (Config.sfu fn x).toNat % 2 ^ 31
  BitVec.ofNat 32 (if withinUlp raw n lo hi e then raw else (roundBits fp32 0 false 0 lo e).1)

/-- A free magnitude kept between two encodings. -/
def clampBits (raw lo hi : Nat) : BitVec 32 :=
  BitVec.ofNat 32 (if raw < lo then lo else if hi < raw then hi else raw)

/-- 2^x: x = k + f with 0 ≤ f < 1, 2^f = e^(f ln 2). -/
def sfuExp2 (x : BitVec 32) : BitVec 32 :=
  match fromF32 x with
  | .nan => f32Nan
  | .inf neg => if neg then 0 else f32PosInf
  | .fin neg m e =>
    let k := floorExact neg m e
    if k ≥ 128 then f32PosInf
    else if k < -160 then clampBits ((Config.sfu 0 x).toNat % 2 ^ 31) 0 1
    else
      -- f × 2^192, from the exact x - k
      let scaled : Int := shiftNat m (e + fixP)
      let f := ((if neg then -scaled else scaled) - k * (2 ^ fixP : Nat)).toNat
      if f = 0 then nearMag 0 x 1 1 1 k
      else
        let v := expFix (f * ln2Fix / 2 ^ fixP)
        nearMag 0 x 1 (max (v - fixSlack) (2 ^ fixP)) (min (v + fixSlack) (2 ^ (fixP + 1))) (k - fixP)

/-- ln of a fixed-point y in [1, 2): 2 atanh((y-1)/(y+1)), series terms by z². -/
def atanhSeries (z2 : Nat) : Nat → Nat → Nat → Nat
  | 0, _, acc => acc
  | n + 1, p, acc =>
    let k := 2 * (70 - n) + 1
    let p := p * z2 / 2 ^ fixP
    atanhSeries z2 n p (acc + p / k)

def lnFix (y : Nat) : Nat :=
  let z := (y - 2 ^ fixP) * 2 ^ fixP / (y + 2 ^ fixP)
  2 * atanhSeries (z * z / 2 ^ fixP) 70 z z

/-- log2 of a positive finite input: exponent plus ln y / ln 2. -/
def sfuLog2 (x : BitVec 32) : BitVec 32 :=
  match fromF32 x with
  | .nan => f32Nan
  | .inf neg => if neg then f32Nan else f32PosInf
  | .fin neg m e =>
    if m = 0 then f32NegInf
    else if neg then f32Nan
    else
      let l := Nat.log2 m
      let k := (l : Int) + e
      let y := m * 2 ^ fixP / 2 ^ l
      if y = 2 ^ fixP then
        if k = 0 then 0
        else
          let r := nearMag 1 x 1 k.natAbs k.natAbs 0
          if k < 0 then r ||| 0x80000000#32 else r
      else
        -- the magnitude of the value is at least 2^-25
        let w : Int := k * (2 ^ fixP : Nat) + ((lnFix y * 2 ^ fixP / ln2Fix : Nat) : Int)
        let a := w.natAbs
        let r := nearMag 1 x 1 (a - fixSlack) (a + fixSlack) (-(fixP : Int))
        if w < 0 then r ||| 0x80000000#32 else r

/-- ⌊√n⌋ by Newton's rule, with fuel. -/
def sqrtNat (n : Nat) : Nat → Nat → Nat
  | 0, x => x
  | k + 1, x => let y := (x + n / x) / 2; if y < x then sqrtNat n k y else x

/-- 1/√x within 1 ulp. -/
def sfuRsqrt (x : BitVec 32) : BitVec 32 :=
  match fromF32 x with
  | .nan => f32Nan
  | .inf neg => if neg then f32Nan else 0
  | .fin neg m e =>
    if m = 0 then (if neg then f32NegInf else f32PosInf)
    else if neg then f32Nan
    else
      -- an even exponent: x = m' × 2^(2h)
      let (m', h) := if e % 2 = 0 then (m, e / 2) else (2 * m, (e - 1) / 2)
      let q := 2 ^ 200 / m'
      let r := sqrtNat q 120 (2 ^ 101)
      nearMag 3 x 1 r (if r * r * m' = 2 ^ 200 then r else r + 1) (-100 - h)

/-- π × 2^384. -/
def piFix : Nat :=
  0x3243F6A8885A308D313198A2E03707344A4093822299F31D0082EFA98EC4E6C89452821E638D01377BE5466CF34E90C6C

/-- Σ of an alternating series t, t x²/((k+1)(k+2)), … with fuel: the sum as an integer. -/
def trigSeries (x2 : Nat) : Nat → Nat → Nat → Int → Int → Int
  | 0, _, _, _, acc => acc
  | n + 1, k, t, sign, acc =>
    let t' := t * x2 / 2 ^ fixP / ((k + 1) * (k + 2))
    trigSeries x2 n (k + 2) t' (-sign) (acc - sign * (t' : Int))

/-- sin r × 2^192 of a fixed-point r in [0, π/2]. -/
def sinFix (r : Nat) : Int := trigSeries (r * r / 2 ^ fixP) 30 1 r 1 r

/-- cos r × 2^192 of a fixed-point r in [0, π/2]. -/
def cosFix (r : Nat) : Int := trigSeries (r * r / 2 ^ fixP) 30 0 (2 ^ fixP) 1 (2 ^ fixP)

/-- The signed encodings in order: negative magnitudes below zero. -/
def signedBits (neg : Bool) (b : Nat) : Int := if neg then -(b : Int) else b

/-- sin or cos of a finite input, within 2 ulp or 2^-24, whichever is larger. -/
def sfuTrig (fn : Nat) (x : BitVec 32) : BitVec 32 :=
  match fromF32 x with
  | .nan => f32Nan
  | .inf _ => f32Nan
  | .fin neg m e =>
    if m = 0 ∧ fn = 4 then x
    else
      -- |x| × 2^384 modulo 2π, in quarters
      let scaled := shiftNat m (e + 2 * fixP)
      let r := scaled % (2 * piFix)
      let q := r / (piFix / 2)
      let part := (r - q * (piFix / 2)) / 2 ^ fixP
      let v : Int := match (if fn = 4 then q else q + 1) % 4 with
        | 0 => sinFix part
        | 1 => cosFix part
        | 2 => -sinFix part
        | _ => -cosFix part
      let v := if fn = 4 && neg then -v else v
      let raw := Config.sfu fn x
      -- the bound in units of 2^-192: 2 ulp of the result, or 2^-24
      let ulp := if v.natAbs = 0 then 0 else 2 ^ (max (Nat.log2 v.natAbs) 23 - 23)
      let d : Int := ((max (2 * ulp) (2 ^ (fixP - 24)) - (if m = 0 then 0 else fixSlack) : Nat) : Int)
      let near := toF32 (.fin (decide (v < 0)) v.natAbs (-(fixP : Int)))
      match fromF32 raw with
      | .fin rn rm re =>
        let w : Int := shiftNat rm (re + fixP)
        let w := if rn then -w else w
        if v - d ≤ w ∧ w ≤ v + d then raw else near
      | _ => near

/-- tanh within 2 ulp: (e^2a - 1) / (e^2a + 1) of the magnitude a; a small a lies above its cube's bound. -/
def sfuTanh (x : BitVec 32) : BitVec 32 :=
  match fromF32 x with
  | .nan => f32Nan
  | .inf _ => withSign x f32One
  | .fin _ m e =>
    if m = 0 then x
    else
      let top := (Nat.log2 m : Int) + e
      if top ≥ 5 then withSign x (clampBits ((Config.sfu 6 x).toNat % 2 ^ 31) 0x3F7FFFFE 0x3F800000)
      else if top < -14 then
        -- a - a³/3 < tanh a < a, and a²/3 is below 2^-28
        withSign x (nearMag 6 x 2 (m * 2 ^ 64 - m * 2 ^ 36) (m * 2 ^ 64) (e - 64))
      else
        let a := shiftNat m (e + fixP)
        -- 2a / ln 2 = k + f
        let y := 2 * a * 2 ^ fixP / ln2Fix
        let k := y / 2 ^ fixP
        let f := y % 2 ^ fixP
        let ex := expFix (f * ln2Fix / 2 ^ fixP) * 2 ^ k
        let v := (ex - 2 ^ fixP) * 2 ^ fixP / (ex + 2 ^ fixP)
        withSign x (nearMag 6 x 2 (v - fixSlack) (min (v + fixSlack) (2 ^ fixP)) (-(fixP : Int)))

/-- The special function unit (R72). -/
def sfuResult (fn : Nat) (x : BitVec 32) : BitVec 32 :=
  match fn with
  | 0 => sfuExp2 x
  | 1 => sfuLog2 x
  | 2 => f32Recip x
  | 3 => sfuRsqrt x
  | 6 => sfuTanh x
  | n => sfuTrig n x

end Sys2Proof.Machine
end

