-- ==== Sys2Proof/Machine/Vector.lean ====
section
/-! DEFINITION. The V slot but for the sparse operations (02 R71-R74, 03 R98-R101). -/

namespace Sys2Proof.Machine

/-- The elements of a 512-bit register. -/
def elementsOf (v : BitVec 512) : List (BitVec 32) := (List.range 16).map (element v)

/-- The elements of a vector operand: 16, or 32 of a register pair on an F cluster (R75, R99). -/
def Cluster.elems (c : Cluster) (k : Kind) (lane code : Nat) : List (BitVec 32) :=
  match k with
  | .f =>
    if code < 32 then elementsOf (c.vop lane code) ++ elementsOf (c.vop lane (code + 1))
    else List.replicate 32 0#32
  | _ => elementsOf (c.vop lane code)

/-- The registers that hold a list of elements, from vd upward. -/
def vregTargets (lane vd : Nat) (xs : List (BitVec 32)) : List Target :=
  if xs.length ≤ 16 then [.vreg lane vd (ofElements xs)]
  else [.vreg lane vd (ofElements (xs.take 16)), .vreg lane (vd + 1) (ofElements (xs.drop 16))]

/-- An element operation on va, vb and the old vd (R98). -/
def State.vecOp (s : State) (i : Issue) (o : VOps) (beats : Nat)
    (f : BitVec 32 → BitVec 32 → BitVec 32 → BitVec 32) : State :=
  s.issue i fun x s =>
    let k := kindOf x.g
    let s := s.nameQueues x 1 x.acts (namesV o.va.toNat ++ namesV o.vb.toNat)
    s.landAll x.g beats (x.lanes.flatMap fun l =>
      let d := x.c.elems k l o.vd.toNat
      let ab := (x.c.elems k l o.va.toNat).zip (x.c.elems k l o.vb.toNat)
      vregTargets l o.vd.toNat ((ab.zip d).map fun (p, d) => f p.1 p.2 d))

/-- An element operation on va alone (R98). -/
def State.vecMap (s : State) (i : Issue) (vd : BitVec 5) (va : BitVec 6) (beats : Nat)
    (f : BitVec 32 → BitVec 32) : State :=
  s.issue i fun x s =>
    let s := s.nameQueues x 1 x.acts (namesV va.toNat)
    s.landAll x.g beats (x.lanes.flatMap fun l =>
      vregTargets l vd.toNat ((x.c.elems (kindOf x.g) l va.toNat).map f))

/-- An operation that writes one register of each active lane from va (R98). -/
def State.vecCopy (s : State) (i : Issue) (vd : BitVec 5) (va : BitVec 6) (beats : Nat)
    (f : Slot → Nat → BitVec 512) : State :=
  s.issue i fun x s =>
    let s := s.nameQueues x 1 x.acts (namesV va.toNat)
    s.landAll x.g beats (x.lanes.map fun l => .vreg l vd.toNat (f x l))

/-- FCMP: bit L of pd in active lanes (R98). -/
def State.fcmp (s : State) (i : Issue) (va vb : BitVec 6) (pd cond : BitVec 3) (red : BitVec 2) : State :=
  s.issue i fun x s =>
    let k := kindOf x.g
    let s := s.nameQueues x 1 x.acts (namesV va.toNat ++ namesV vb.toNat)
    let bit (l : Nat) : Bool :=
      fcmpReduce red.toNat (((x.c.elems k l va.toNat).zip (x.c.elems k l vb.toNat)).map fun (a, b) =>
        fcmpHolds cond.toNat a b)
    let v := x.lanes.foldl (fun v l => if bit l then v + 2 ^ l else v) 0
    s.landAll x.g 4 [.pred pd.toNat x.mask (BitVec.ofNat 16 v)]

/-- The source elements of a CVT in a lane (R100). -/
def cvtSource (c : Cluster) (k : Kind) (l : Nat) (va : Nat) (fmt : Nat) (blk : Bool) : List Exact :=
  if fmt = 9 then (c.elems k l va).map fromF32
  else
    let n := if k = .f then 32 else 16
    let w := formatBits fmt
    let scale :=
      if blk && k == .f && isNarrow fmt then (c.vop l (va + 1)).extractLsb' 504 8 else 127#8
    (List.range n).map fun e =>
      if scale = 0xFF#8 then .nan
      else (decodeCode fmt (regBits512 (c.vop l va) (w * e) w)).scale ((scale.toNat : Int) - 127)
where
  regBits512 (v : BitVec 512) (lo w : Nat) : Nat := (v.extractLsb' lo w).toNat

/-- The registers of a CVT's result in a lane (R100). -/
def cvtTargets (k : Kind) (l vd : Nat) (r : Rctl) (sr : Nat → Nat) (vs : List Exact) : List Target :=
  let vs := vs.map (·.scale r.shift)
  let w := formatBits r.fmt
  if r.blk && k == .f then
    let (scale, rs) := roundBlock r.fmt r.rnd sr vs
    [.vreg l vd (BitVec.ofNat 512 (packBits w (rs.map (·.bits)))),
      .vreg l (vd + 1) (BitVec.ofNat 512 (2 ^ 504 * scale))]
  else
    let bits := packBits w (vs.zipIdx.map fun (v, n) => (roundCode r.fmt r.rnd r.sat (sr n) v).bits)
    let lo := .vreg l vd (BitVec.ofNat 512 bits)
    if k = .f then [lo, .vreg l (vd + 1) (BitVec.ofNat 512 (bits / 2 ^ 512))] else [lo]

/-- CVT (R58, R88, R100). -/
def State.cvt (s : State) (i : Issue) (vd : BitVec 5) (va : BitVec 6) (idx fmt : BitVec 4) : State :=
  s.issue i fun x s =>
    let k := kindOf x.g
    let r := rctlOf (x.c.cvt.getD idx.toNat 0#20)
    let s := s.nameQueues x 1 x.acts (namesV va.toNat)
    let (g, s) := if r.rnd = 4 then s.stepSr x.g else (0#32, s)
    s.landAll x.g 3 (x.lanes.flatMap fun l =>
      let sr := fun n => (srWord g (l * 32 + n)).toNat
      cvtTargets k l vd.toNat r sr (cvtSource x.c k l va.toNat fmt.toNat r.blk))

/-- The address of entry i of a piecewise table (R73). -/
def pwtAddr (slot i : Nat) : Nat := 8192 * slot + 8 * i

/-- The entry of the piecewise table that an input selects: clamped index, and the finite offset d; none
for NaN (R73). -/
def pwtIndex (desc : BitVec 64) (x : BitVec 32) : Option (Nat × Option Exact) :=
  let k := (desc.extractLsb' 32 8).toInt
  let base := fromF32 (desc.extractLsb' 0 32)
  match fromF32 x with
  | .nan => none
  | .inf neg => some (if neg then 0 else 1023, none)
  | .fin s m e =>
    match (Exact.fin s m e).add base.negate with
    | .fin t n g =>
      let i := (min (max (floorExact t n (g + k)) 0) 1023).toNat
      some (i, some ((Exact.fin t n g).add (.fin true i (-k))))
    | _ => some (0, none)

/-- One result of the piecewise table unit (R73); a NaN input gives NaN, and otherwise a base that is not finite leaves
it open (log entry 15). -/
def pwtElement (lane : Lane) (desc : BitVec 64) (x : BitVec 32) : BitVec 32 :=
  let slot := (desc.extractLsb' 40 2).toNat
  let coef (i o : Nat) : Exact := fromF32 (BitVec.ofNat 32 (readLe lane.sram (pwtAddr slot i + o) 4))
  match fromF32 x, fromF32 (desc.extractLsb' 0 32) with
  | .nan, _ => 0x7FC00000#32
  | _, .fin _ _ _ =>
    match pwtIndex desc x with
    | none => 0x7FC00000#32
    | some (i, none) => toF32 (coef i 0)
    | some (i, some d) => toF32 ((coef i 0).add ((coef i 4).mul d))
  | _, _ => Config.pwtUnstated desc x

/-- PWT (R73, R74). DESIGN CHOICE (log entry 158): a NaN input reads entry 0 of its table, so that an error there
counts or faults (R113), though its result does not use it. -/
def State.pwt (s : State) (i : Issue) (vd : BitVec 5) (va vb : BitVec 6) : State :=
  s.issue i fun x s =>
    let desc := x.c.sop x.g vb.toNat
    let slot := (desc.extractLsb' 40 2).toNat
    let s := s.nameQueues x 1 x.acts (namesS vb.toNat)
    let s := s.sramRead x x.lanes fun l => (x.c.elems .f l va.toNat).map fun e =>
      (pwtAddr slot (match pwtIndex desc e with
        | some (i, _) => i
        | none => 0), 8)
    s.landAll x.g 5 (x.lanes.flatMap fun l =>
      vregTargets l vd.toNat ((x.c.elems .f l va.toNat).map (pwtElement (x.c.lane l) desc)))

/-- SCALE: sa takes va[63:0], sb takes va[255:0] (R98). -/
def State.scaleOp (s : State) (i : Issue) (va : BitVec 6) (sbTarget : Bool) : State :=
  s.issue i fun x s =>
    let s := s.nameQueues x 1 x.acts (namesV va.toNat)
    s.landAll x.g 1 (x.lanes.map fun l =>
      let v := x.c.vop l va.toNat
      if sbTarget then .scaleB l (v.extractLsb' 0 256) else .scaleA l (v.extractLsb' 0 64))

/-- VFROMS: the low 32 bits of a scalar operand in every element (R98). -/
def State.vfroms (s : State) (i : Issue) (vd : BitVec 5) (vb : BitVec 6) : State :=
  s.issue i fun x s =>
    let v := (x.c.sop x.g vb.toNat).setWidth 32
    let s := s.nameQueues x 1 x.acts (namesS vb.toNat)
    s.landAll x.g 1 (x.lanes.map fun l => .vreg l vd.toNat (ofElements (List.replicate 16 v)))

/-- VNOP (R98). -/
def execVnop (i : Issue) (s : State) : Answer := .next (s.issue i fun _ s => s)
/-- FADD (R71, R98). -/
def execFadd (i : Issue) (o : VOps) (s : State) : Answer :=
  whenLegal (.fadd i o) "FADD" (s.vecOp i o 4 fun a b _ => f32Add a b)
/-- FSUB (R71, R98). -/
def execFsub (i : Issue) (o : VOps) (s : State) : Answer :=
  whenLegal (.fsub i o) "FSUB" (s.vecOp i o 4 fun a b _ => f32Sub a b)
/-- FMUL (R71, R98). -/
def execFmul (i : Issue) (o : VOps) (s : State) : Answer :=
  whenLegal (.fmul i o) "FMUL" (s.vecOp i o 4 fun a b _ => f32Mul a b)
/-- FMA: va × vb + vd rounded once (R98). -/
def execFma (i : Issue) (o : VOps) (s : State) : Answer :=
  whenLegal (.fma i o) "FMA" (s.vecOp i o 4 fun a b d => f32Fma a b d)
/-- FMIN (R71, R98). -/
def execFmin (i : Issue) (o : VOps) (s : State) : Answer :=
  whenLegal (.fmin i o) "FMIN" (s.vecOp i o 4 fun a b _ => f32Min a b)
/-- FMAX (R71, R98). -/
def execFmax (i : Issue) (o : VOps) (s : State) : Answer :=
  whenLegal (.fmax i o) "FMAX" (s.vecOp i o 4 fun a b _ => f32Max a b)
/-- FCMP (R98). -/
def execFcmp (i : Issue) (va vb : BitVec 6) (pd cond : BitVec 3) (red : BitVec 2) (s : State) : Answer :=
  whenLegal (.fcmp i va vb pd cond red) "FCMP" (s.fcmp i va vb pd cond red)
/-- CVT (R100). -/
def execCvt (i : Issue) (vd : BitVec 5) (va : BitVec 6) (idx fmt : BitVec 4) (s : State) : Answer :=
  whenLegal (.cvt i vd va idx fmt) "CVT" (s.cvt i vd va idx fmt)
/-- SFU (R72). -/
def execSfu (i : Issue) (vd : BitVec 5) (va : BitVec 6) (fn : BitVec 3) (s : State) : Answer :=
  whenLegal (.sfu i vd va fn) "SFU" (s.vecMap i vd va 9 (sfuResult fn.toNat))
/-- PWT (R73). -/
def execPwt (i : Issue) (vd : BitVec 5) (va vb : BitVec 6) (s : State) : Answer :=
  whenLegal (.pwt i vd va vb) "PWT" (s.pwt i vd va vb)
/-- IADD (R98). -/
def execIadd (i : Issue) (o : VOps) (s : State) : Answer :=
  whenLegal (.iadd i o) "IADD" (s.vecOp i o 1 fun a b _ => a + b)
/-- ISUB (R98). -/
def execIsub (i : Issue) (o : VOps) (s : State) : Answer :=
  whenLegal (.isub i o) "ISUB" (s.vecOp i o 1 fun a b _ => a - b)
/-- AND (R98). -/
def execVand (i : Issue) (o : VOps) (s : State) : Answer :=
  whenLegal (.vand i o) "AND" (s.vecOp i o 1 fun a b _ => a &&& b)
/-- OR (R98). -/
def execVor (i : Issue) (o : VOps) (s : State) : Answer :=
  whenLegal (.vor i o) "OR" (s.vecOp i o 1 fun a b _ => a ||| b)
/-- XOR (R98). -/
def execVxor (i : Issue) (o : VOps) (s : State) : Answer :=
  whenLegal (.vxor i o) "XOR" (s.vecOp i o 1 fun a b _ => a ^^^ b)
/-- SHL (R98). -/
def execShl (i : Issue) (vd : BitVec 5) (va : BitVec 6) (count : BitVec 5) (s : State) : Answer :=
  whenLegal (.shl i vd va count) "SHL" (s.vecMap i vd va 1 fun a => a <<< count.toNat)
/-- SHR (R98). -/
def execShr (i : Issue) (vd : BitVec 5) (va : BitVec 6) (count : BitVec 5) (s : State) : Answer :=
  whenLegal (.shr i vd va count) "SHR" (s.vecMap i vd va 1 fun a => a >>> count.toNat)
/-- MOV (R98). -/
def execMov (i : Issue) (vd : BitVec 5) (va : BitVec 6) (s : State) : Answer :=
  whenLegal (.mov i vd va) "MOV" (s.vecCopy i vd va 1 fun x l => x.c.vop l va.toNat)
/-- BCAST (R98). -/
def execBcast (i : Issue) (vd : BitVec 5) (va : BitVec 6) (elem : BitVec 4) (s : State) : Answer :=
  whenLegal (.bcast i vd va elem) "BCAST"
    (s.vecCopy i vd va 1 fun x l =>
      ofElements (List.replicate 16 (element (x.c.vop l va.toNat) elem.toNat)))
/-- LANEX (R98): the named lane's va, active or not. -/
def execLanex (i : Issue) (vd : BitVec 5) (va : BitVec 6) (lane : BitVec 4) (s : State) : Answer :=
  whenLegal (.lanex i vd va lane) "LANEX" (s.vecCopy i vd va 2 fun x _ => x.c.vop lane.toNat va.toNat)
/-- SCALE (R98). -/
def execScale (i : Issue) (va : BitVec 6) (sbTarget : Bool) (s : State) : Answer :=
  whenLegal (.scale i va sbTarget) "SCALE" (s.scaleOp i va sbTarget)
/-- VFROMS (R98). -/
def execVfroms (i : Issue) (vd : BitVec 5) (vb : BitVec 6) (s : State) : Answer :=
  whenLegal (.vfroms i vd vb) "VFROMS" (s.vfroms i vd vb)

end Sys2Proof.Machine
end

