-- ==== Sys2Proof/Machine/Sparse.lean ====
section
/-! DEFINITION. The sparse operations and the hash accumulators of the S clusters (05 R160-R185). -/

namespace Sys2Proof.Machine

/-! ### Walks (R165-R169) -/

/-- The number of 1 bits below bit n. -/
def rankBelow (m : BitVec 64) (n : Nat) : Nat := ((List.range n).filter fun i => m.getLsbD i).length

/-- XSET's walk state: mask A, mask B, match mask (R165). -/
def xsetMasks (va vb : BitVec 512) (dense : Bool) (ha hb range : BitVec 2) :
    BitVec 64 × BitVec 64 × BitVec 64 :=
  let a := va.extractLsb' (128 * ha.toNat) 64
  let b := if dense then BitVec.allOnes 64 else vb.extractLsb' (128 * hb.toNat) 64
  let r : BitVec 64 :=
    if range = 1#2 then 0xFFFFFFFF#64 else if range = 2#2 then 0xFFFFFFFF00000000#64 else BitVec.allOnes 64
  (a, b, a &&& b &&& r)

/-- XSET (R165, R170). -/
def State.xset (s : State) (i : Issue) (o : VOps) (dense : Bool) (ha hb range : BitVec 2) : State :=
  s.issue i fun x s =>
    let s := s.nameQueues x 1 x.acts (namesV o.va.toNat ++ namesV o.vb.toNat)
    s.landAll x.g 1 (x.lanes.flatMap fun l =>
      let (a, b, m) := xsetMasks (x.c.vop l o.va.toNat) (x.c.vop l o.vb.toNat) dense ha hb range
      [.walk l a b m, .vreg l o.vd.toNat (BitVec.ofNat 512 (rankBelow m 64))])

/-- The set bits of a mask, lowest first. -/
def setBitsOf (m : BitVec 64) : List Nat := (List.range 64).filter fun i => m.getLsbD i

/-- A walk record (R166). -/
def walkRecord (a b : BitVec 64) (i : Nat) : Nat :=
  i + 2 ^ 8 * rankBelow a i + 2 ^ 16 * rankBelow b i + 2 ^ 31

/-- XWALK (R166, R170): the walk state lands a beat before vd and pd. -/
def State.xwalk (s : State) (i : Issue) (vd : BitVec 5) (pd : BitVec 3) : State :=
  s.issue i fun x s =>
    let taken (l : Nat) : List Nat := (setBitsOf (x.c.lane l).walkM).take 8
    let rest (l : Nat) : BitVec 64 :=
      (taken l).foldl (fun m i => m &&& ~~~(1#64 <<< i)) (x.c.lane l).walkM
    let s := s.land x.g (x.lanes.map fun l =>
      ⟨1, .walk l (x.c.lane l).walkA (x.c.lane l).walkB (rest l)⟩)
    let regs := x.lanes.map fun l =>
      let recs := (taken l).map (walkRecord (x.c.lane l).walkA (x.c.lane l).walkB)
      Target.vreg l vd.toNat (BitVec.ofNat 512 (packBits 64 recs))
    let v := x.lanes.foldl (fun v l => if rest l != 0#64 then v + 2 ^ l else v) 0
    s.landAll x.g 2 (regs ++ [.pred pd.toNat x.mask (BitVec.ofNat 16 v)])

/-- The element widths of XGATH and X24 (R167). -/
def sparseWidth (w : BitVec 3) : Nat :=
  match w.toNat with
  | 0 => 4
  | 1 => 6
  | 2 => 8
  | _ => 16

/-- Element n of the value area in va, or in the pair va, va + 1 for 16 bits (R167). -/
def areaElement (c : Cluster) (l : Nat) (va : BitVec 6) (w n : Nat) : Nat :=
  if w = 16 then
    regBits (c.vop l (if n < 32 then va.toNat else va.toNat + 1)) (16 * (n % 32)) 16
  else regBits (c.vop l va.toNat) (w * n) w
where
  regBits (v : BitVec 512) (lo w : Nat) : Nat := (v.extractLsb' lo w).toNat

/-- XGATH's result in a lane (R167). -/
def xgathResult (c : Cluster) (l : Nat) (o : VOps) (rankB : Bool) (w : Nat) : BitVec 512 :=
  let recs := c.vop l o.vb.toNat
  BitVec.ofNat 512 (packBits w ((List.range 8).map fun j =>
    let r := recs.extractLsb' (64 * j) 64
    if r.getLsbD 31 then areaElement c l o.va w (r.extractLsb' (if rankB then 16 else 8) 6).toNat else 0))

/-- X24's result in a lane (R168). -/
def x24Result (c : Cluster) (l : Nat) (o : VOps) (w : Nat) : BitVec 512 :=
  let idx := c.vop l o.vb.toNat
  let pos (k : Nat) : Nat := (idx.extractLsb' (2 * k) 2).toNat
  BitVec.ofNat 512 (packBits w ((List.range 16).map fun k =>
    if k % 2 = 1 ∧ pos k ≤ pos (k - 1) then 0 else areaElement c l o.va w (4 * (k / 2) + pos k)))

/-- XGATH and X24 share their timing and queues (R170). -/
def State.gather (s : State) (i : Issue) (o : VOps) (f : Cluster → Nat → BitVec 512) : State :=
  s.issue i fun x s =>
    let s := s.nameQueues x 1 x.acts (namesV o.va.toNat ++ namesV o.vb.toNat)
    s.landAll x.g 2 (x.lanes.map fun l => .vreg l o.vd.toNat (f x.c l))

/-- The CSL records of a register. -/
def cslRecords (v : BitVec 512) : List (BitVec 64) := (List.range 8).map fun j => v.extractLsb' (64 * j) 64

/-- XCSLU's keys: key words, the last key, the order errors (R169). -/
def xcsluKeys (last : BitVec 40) (recs : List (BitVec 64)) : List (BitVec 64) × BitVec 40 × Nat :=
  recs.foldl (fun (out, last, errs) r =>
    let k := r.extractLsb' 0 40
    if k < last then (out ++ [k.setWidth 64 ||| (1#64 <<< 63)], last, errs + 1)
    else (out ++ [k.setWidth 64], k, errs)) ([], last, 0)

/-- XCSLU's value of a record as FP32 (R163, R169): the conversion is exact. -/
def xcsluValue (fmt : Nat) (r : BitVec 64) : BitVec 32 :=
  toF32 (decodeCode fmt (r.extractLsb' 48 (formatBits fmt)).toNat)

/-- The key words, last key and order errors that XCSLU finds in a lane (R169). -/
def Cluster.keysOf (c : Cluster) (va : BitVec 6) (clear : Bool) (l : Nat) : List (BitVec 64) × BitVec 40 × Nat :=
  xcsluKeys (if clear then 0#40 else (c.lane l).lastKey) (cslRecords (c.vop l va.toNat))

/-- A lane's last key and count of order errors move on by what XCSLU found (R169). -/
def Cluster.keysSeen (c : Cluster) (keys : Nat → List (BitVec 64) × BitVec 40 × Nat) (l : Nat) : Cluster :=
  let n := c.lane l
  c.setLane l { n with lastKey := (keys l).2.1, orderErr := n.orderErr + BitVec.ofNat 32 (keys l).2.2 }

/-- XCSLU on keys (R169, R170). DESIGN CHOICE (log entry 167): R170 times vd alone, and the last key and the count of
order errors move in the issue beat. -/
def State.xcsluOnKeys (s : State) (i : Issue) (vd : BitVec 5) (va : BitVec 6) (clear : Bool) : State :=
  s.issue i fun x s =>
    let s := s.nameQueues x 1 x.acts (namesV va.toNat)
    let s := x.lanes.foldl (fun s l => s.modCluster x.g fun c => c.keysSeen (x.c.keysOf va clear) l) s
    s.landAll x.g 2 (x.lanes.map fun l =>
      .vreg l vd.toNat (BitVec.ofNat 512 (packBits 64 ((x.c.keysOf va clear l).1.map (·.toNat)))))

/-- XCSLU on values (R163, R169, R170). -/
def State.xcsluOnValues (s : State) (i : Issue) (vd : BitVec 5) (va : BitVec 6) (fmt : BitVec 4) : State :=
  s.issue i fun x s =>
    let s := s.nameQueues x 1 x.acts (namesV va.toNat)
    s.landAll x.g 2 (x.lanes.map fun l =>
      .vreg l vd.toNat (ofElements ((cslRecords (x.c.vop l va.toNat)).map (xcsluValue fmt.toNat))))

/-! ### Hash accumulators (R173-R178) -/

/-- ha_home of R175. -/
def haHome (key : BitVec 40) : Nat :=
  let f := key ^^^ (key >>> 20)
  let g : BitVec 32 := f.setWidth 32 ^^^ (f >>> 32).setWidth 32
  ((g * 0x9E3779B1#32) >>> 21).toNat

/-- The window exponent of a table's descriptor (R174). -/
def HashTable.w (t : HashTable) : Int := (t.desc.extractLsb' 0 10).toInt
/-- Under-SRAM spill area: start and records (R174). -/
def HashTable.ubase (t : HashTable) : Nat := (t.desc.extractLsb' 18 13).toNat * 32
def HashTable.ulen (t : HashTable) : Nat := (t.desc.extractLsb' 31 13).toNat
/-- Coachhouse spill window (R174). -/
def HashTable.cwin (t : HashTable) : Nat := (t.desc.extractLsb' 44 8).toNat

/-- A table after an HCLR with a descriptor (R174). -/
def HashTable.cleared (desc : BitVec 64) : HashTable := { status := 1, desc := desc }

def HashTable.entry (t : HashTable) (i : Nat) : HEntry := AMap.get {} t.entries i

/-- An entry seen as a window-mode Ledger under the table's status (R173). -/
def HashTable.ledger (t : HashTable) (e : HEntry) : Ledger :=
  { ({} : Ledger).setE t.w with l := e.value, residue := e.residue, status := withFlag t.status 6 e.frozen }

/-- Add a finite contribution at an index whose entry holds the key or is new (R176). -/
def HashTable.addAt (t : HashTable) (i : Nat) (key : BitVec 40) (p : Exact) (probe : Nat) : HashTable :=
  let e := t.entry i
  let y := (t.ledger e).addWindow p
  let e' : HEntry :=
    { valid := true, key := key, value := y.l, residue := y.residue, frozen := y.flag 6 }
  { t with
    entries := AMap.set {} t.entries i e'
    status := withFlag y.status 6 (t.status.getLsbD 6 || y.flag 6)
    valid := if e.valid then t.valid else t.valid + 1
    probe := if t.probe.toNat < probe then BitVec.ofNat 32 probe else t.probe }

/-- One spill record (R178). -/
def spillRecord (which : Bool) (e : HEntry) : BitVec 256 :=
  (0#72 ++ (if which then 1#8 else 0#8) ++ e.residue ++ e.key ++ e.value : BitVec 256)

/-- A record on its way out of a table, and whether its sum had left the range (R176, R178). -/
abbrev SpillRec := BitVec 256 × Bool

/-- The records of a spill, in ascending table index (R178). -/
def HashTable.spillRecords (t : HashTable) (which : Bool) : List SpillRec :=
  (t.entries.filter fun e => e.2.valid).map fun e => (spillRecord which e.2, e.2.frozen)

/-- The table after a spill (R178); the spill count grows with the records as they are written. -/
def HashTable.spilled (t : HashTable) : HashTable := { t with entries := [], valid := 0 }

/-- Records written after those that stand already: the spill count and the list of saturated ones (R178, log
entry 16). -/
def HashTable.noteSpilled (t : HashTable) (recs : List SpillRec) : HashTable :=
  let pos := t.underRecs + t.chsRecs
  { t with
    spills := t.spills + BitVec.ofNat 32 recs.length
    spilledFrozen := t.spilledFrozen ++ ((recs.zipIdx pos).filter fun r => r.1.2).map (·.2) }

/-- One contribution (R176, R177): the new table, and the records of a spill if it caused one. DESIGN CHOICE (log entry
168): a NaN or an infinity moves the flags of the status that a Ledger's product moves (R41, R50), touched and negzero_only
among them. -/
def HashTable.contribute (t : HashTable) (which : Bool) (word : BitVec 64) (p : Exact) :
    HashTable × List SpillRec :=
  if word.getLsbD 63 then (t, [])
  else
    match p with
    | .fin _ _ _ =>
      let key := word.extractLsb' 0 40
      let home := haHome key
      let at_ (k : Nat) : Nat := (home + k) % 2048
      let hit := (List.range 8).find? fun k => (t.entry (at_ k)).valid && (t.entry (at_ k)).key == key
      let free := (List.range 8).find? fun k => !(t.entry (at_ k)).valid
      match hit, free with
      | some k, _ => (t.addAt (at_ k) key p (k + 1), [])
      | none, some k =>
        if t.valid.toNat + 1 > 1792 then
          (t.spilled.addAt home key p 1, t.spillRecords which)
        else (t.addAt (at_ k) key p (k + 1), [])
      | none, none => (t.spilled.addAt home key p 1, t.spillRecords which)
    | _ =>
      let l : Ledger := { status := t.status }
      ({ t with status := (l.touch p).status }, [])

/-- An event of class sparse (R185). -/
def State.sparseEvent (s : State) (x : Slot) (cause lane : Nat) (which : Bool) : State :=
  s.clusterFault x.g { s.eventOf x.g 0x08 cause with
    lane := BitVec.ofNat 8 lane
    pcore := BitVec.ofNat 8 (x.c.core lane)
    beat := x.c.execBeat
    p0 := if which then 1 else 0 }

/-- A window of the cluster's job, where it is declared. -/
def State.clusterWindow (s : State) (g w : Nat) : Option Window :=
  match s.slotOfCluster g with
  | some k =>
    let x := (s.job k).window w
    if w < 255 ∧ x.bound then some x else none
  | none => none

/-- The segment of lane L and table t in a window of 32 segments (R179, R182): base and bytes. -/
def Window.segment (w : Window) (lane : Nat) (which : Bool) : Nat × Nat :=
  let n := w.bytes / 32
  (w.base + (2 * lane + (if which then 1 else 0)) * n, n)

/-- The slot that carries a job's spills into a window, or reads them back (R228). -/
def State.spillSlot (s : State) (g win : Nat) (ingress : Bool) : Option Nat :=
  (s.strips.find? fun (_, x) => x.used && x.desc.conv == 3 && x.desc.ingress == ingress && x.desc.window == win &&
    s.slotOfCluster g == some x.job.toNat).map (·.1)

/-- A line of a spill or of a merge's output falls on a stack that is out of service: a stream fault, charged to the
job's spill slot of the window; where none is declared, the event names the lost stack's strip and an open slot
number (R231, R241, log entry 123). -/
def State.spillLost (s : State) (g win addr off : Nat) : State :=
  match s.spillSlot g win true with
  | some key => s.streamFault key 0x05 off
  | none =>
    let (v, s) := s.fresh
    let (die, edge) := stackStrip (match s.chsDecode addr with
      | some (k, _) => k
      | none => 0xFF)
    let ev := { s.eventOf (die * 1024) 0x09 0x05 with
      p0 := BitVec.ofNat 32 (die + 2 ^ 6 * edge + 2 ^ 8 * (v % 64)), p1 := BitVec.ofNat 64 off }
    match s.slotOfCluster g with
    | some k => s.slotFault k ev
    | none => s.logEvent ev

/-- Bytes written into a window of a cluster's job by its hash unit; the first line that a lost stack takes faults
(R241). Whether every line was written. -/
def State.hashWrite (s : State) (g win base addr : Nat) (bytes : List Byte) : State × Bool :=
  let tag := s.tagOfDie (gidDie g)
  let (s, lost) := s.chsWrite addr bytes (fun _ => false) tag (s.pairedTag tag)
  match lost with
  | la :: _ => (s.spillLost g win la (la - base), false)
  | [] => (s, true)

/-- Records as vector entries, two each in record order, from a window offset (R228). -/
def spillOuts (g win off : Nat) : List SpillRec → List SpillOut
  | a :: b :: rest => { win := win, data := b.1 ++ a.1, at_ := ⟨g, off, 2⟩ } :: spillOuts g win (off + 64) rest
  | [a] => [{ win := win, data := a.1.setWidth 512, at_ := ⟨g, off, 1⟩ }]
  | [] => []

/-- Records go to a segment of the spill window: through the cluster's ingress spill slot (R228), or straight where the
image declares none (log entry 19). -/
def State.sendSpill (s : State) (g win base off : Nat) (recs : List SpillRec) : List SpillOut × State :=
  match s.spillSlot g win true with
  | some _ => (spillOuts g win off recs, s)
  | none => ([], (s.hashWrite g win base (base + off) (recs.flatMap fun r => natLe r.1.toNat 32)).1)

/-- Do entries that a cluster's hash unit has injected still move to their slot? -/
def State.spillMoves (s : State) (g : Nat) : Bool :=
  s.strips.any fun p => p.2.used && p.2.desc.ingress && p.2.spillAt.any fun r => r.cluster == g

/-- One lane's spill: the table after it, whether Coachhouse records move, what the hash unit has to inject, the bytes
written to the under-SRAM area and where. -/
structure Spill where
  t : HashTable
  chs : Bool := false
  outs : List SpillOut := []
  under : List Target := []
  s : State

/-- Write the records of one spill: the under-SRAM area, then the lane's segment of a window with the spill right
(R178, R179, R185, R218). -/
def State.writeSpill (s : State) (x : Slot) (lane : Nat) (which : Bool) (t : HashTable)
    (recs : List SpillRec) : Spill :=
  let room := t.ulen - t.underRecs
  let under := recs.take room
  let rest := recs.drop room
  let areaOk := decide (0x20000 ≤ t.ubase) && decide (t.ubase + 32 * t.ulen ≤ 0x38000)
  if !under.isEmpty && !areaOk then
    { t := t, s := s.execFault x 0x02 (some lane) t.ubase }
  else
    let wr : List Target := if under.isEmpty then []
      else [.mem lane (t.ubase + 32 * t.underRecs) (under.flatMap fun r => natLe r.1.toNat 32)]
    let t := { t.noteSpilled under with underRecs := t.underRecs + under.length }
    if rest.isEmpty then { t := t, under := wr, s := s }
    else
      match (s.clusterWindow x.g t.cwin).filter (·.has 5) with
      | some w =>
        let (base, n) := w.segment lane which
        let fit := rest.take (n / 32 - t.chsRecs)
        let (outs, s) := s.sendSpill x.g t.cwin w.base (base - w.base + 32 * t.chsRecs) fit
        let t' := { t.noteSpilled fit with chsRecs := t.chsRecs + fit.length }
        { t := t', chs := true, outs := outs, under := wr
          s := if fit.length < rest.length then s.sparseEvent x 0x02 lane which else s }
      | none => { t := t, under := wr, s := s.sparseEvent x 0x02 lane which }

/-- The contributions of an HACC in a lane: key words and exact values (R176). -/
def haccInputs (c : Cluster) (l : Nat) (o : VOps) (mul : Bool) : List (BitVec 64 × Exact) :=
  let keys := c.vop l o.va.toNat
  let b := c.vop l o.vb.toNat
  let d := c.vop l o.vd.toNat
  (List.range 8).map fun j =>
    let v := fromF32 (element b j)
    (keys.extractLsb' (64 * j) 64, if mul then v.mul (fromF32 (element d j)) else v)

/-- HACC in one lane: the table after it, the records of its spill, and the pair of elements that caused it, two
elements being processed in a beat (R176); at most one spill can happen, since eight contributions never fill an empty
table. -/
def haccLane (t : HashTable) (which : Bool) (ins : List (BitVec 64 × Exact)) :
    HashTable × List SpillRec × Nat :=
  ins.zipIdx.foldl (fun (t, recs, pair) x =>
    let (t', r) := t.contribute which x.1.1 x.1.2
    (t', recs ++ r, if r.isEmpty then pair else x.2 / 2)) (t, [], 0)

/-- The beats that a spill's under-SRAM writes take (R180). -/
def spillBeats (n : Nat) : Nat := 8 + (n + 3) / 4

/-- What HACC did in the lanes so far: what lands, the state. -/
structure HaccRun where
  lands : List Landing := []
  s : State

/-- HACC in one lane: its contributions, and the spill that they cause (R176-R180). The spill begins in the beat that
processes its pair of elements, beat n + pair, and the table lands in beat n + 3. -/
def HaccRun.lane (r : HaccRun) (x : Slot) (o : VOps) (which mul : Bool) (l : Nat) : HaccRun :=
  let t := (x.c.lane l).table which
  let (t', recs, pair) := haccLane t which (haccInputs x.c l o mul)
  if recs.isEmpty then { r with lands := r.lands ++ [⟨4, .table l which t'⟩] }
  else
    let n := min recs.length (t.ulen - t.underRecs)
    let w := r.s.writeSpill x l which { t' with underRecs := t.underRecs } recs
    let held : List Target := if n = 0 && !w.chs then []
      else [.spill (if n = 0 then 0 else spillBeats n) w.chs w.outs]
    { lands := r.lands ++ [⟨4, .table l which w.t⟩] ++ (w.under ++ held).map fun t => ⟨pair + 1, t⟩
      s := w.s }

/-- HACC (R170, R176-R180): the table lands in beat n + 3; a spill holds issue from the beat after it. -/
def State.hacc (s : State) (i : Issue) (o : VOps) (which mul : Bool) : State :=
  s.issue i fun x s =>
    let s := s.nameQueues x 1 x.acts (namesV o.va.toNat ++ namesV o.vb.toNat)
    let r := x.lanes.foldl (fun r l => r.lane x o which mul l) ({ s := s } : HaccRun)
    r.s.land x.g (drainMark 4 :: r.lands)

/-- HCLR (R170, R174). -/
def State.hclr (s : State) (i : Issue) (vb : BitVec 6) (which : Bool) : State :=
  s.issue i fun x s =>
    let desc := x.c.sop x.g vb.toNat
    let s := s.nameQueues x 1 x.acts (namesS vb.toNat)
    s.landAll x.g 1 (x.lanes.map fun l => .table l which (HashTable.cleared desc))

/-- HSTAT (R170, R183). -/
def State.hstat (s : State) (i : Issue) (vd : BitVec 5) (which : Bool) : State :=
  s.issue i fun x s =>
    s.landAll x.g 2 (x.lanes.map fun l =>
      let n := x.c.lane l
      let t := n.table which
      .vreg l vd.toNat (ofElements [t.valid, t.spills, t.probe, t.status.setWidth 32, n.orderErr]))

/-! ### Merge (R181-R184) -/

/-- The vector entries that hold a table's records in its Coachhouse segment (R228). -/
def HashTable.spillEntries (t : HashTable) : Nat := (t.chsRecs + 1) / 2

/-- The hash unit asks the cluster's egress spill slot for the records of one lane (R228). -/
def State.askSpill (s : State) (g : Nat) (c : Cluster) (lane : Nat) (which : Bool) : State :=
  let t := (c.lane lane).table which
  match s.spillSlot g t.cwin false, s.clusterWindow g t.cwin with
  | some key, some w =>
    let from_ := (w.segment lane which).1 - w.base
    let asks : List SpillAt := (List.range t.spillEntries).map fun i => ⟨g, from_ + 64 * i, min 2 (t.chsRecs - 2 * i)⟩
    s.setStrip key { s.strip key with spillAt := (s.strip key).spillAt ++ asks }
  | _, _ => s

/-- HMERGE: the output window is checked, then issue is held until HMERGE_COMPLETE (R181, R182). DESIGN CHOICE (log
entry 160): one event names the lowest active lane, lane 0 where none is active, and an undeclared window stops the job
then too. -/
def State.hmerge (s : State) (i : Issue) (vd : BitVec 5) (vb : BitVec 6) (which : Bool) : State :=
  s.issue i fun x s =>
    let v := x.c.sop x.g vb.toNat
    let owin := v.extractLsb' 0 8
    let rctl := x.c.cvt.getD (v.extractLsb' 8 4).toNat 0#20
    let s := s.nameQueues x 1 x.acts (namesS vb.toNat)
    match s.clusterWindow x.g owin.toNat with
    | some w =>
      if w.has 1 then
        (x.lanes.foldl (fun s l => s.askSpill x.g x.c l which) s).modCluster x.g fun c =>
          { c with stall := .merge which vd owin rctl x.mask x.c.pc x.c.execBeat, mergeIn := [] }
      else s.sparseEvent x 0x03 (x.lanes.headD 0) which
    | none => s.sparseEvent x 0x03 (x.lanes.headD 0) which

/-- A record in a merge: key, value, residue, and where it stood: a table index or a spill position. -/
structure MergeRec where
  key : BitVec 40
  value : BitVec 128
  residue : BitVec 8
  idx : Nat
  pos : Nat
  /-- the sum had left the range -/
  sat : Bool

/-- A spill record read back (R178). -/
def HashTable.mergeRec (t : HashTable) (r : Nat) (pos : Nat) : MergeRec where
  key := BitVec.ofNat 40 (bitsOf r 128 40)
  value := BitVec.ofNat 128 (bitsOf r 0 128)
  residue := BitVec.ofNat 8 (bitsOf r 168 8)
  idx := 0
  pos := pos
  sat := t.spilledFrozen.contains pos

/-- L mod 255 of a record (R64). -/
def mod255 (v : BitVec 128) : BitVec 8 := BitVec.ofInt 8 (v.toInt % 255)

/-- The sum of one key's records: value, residue, saturated (R181, R182). A record whose own sum had left the range
keeps its key saturated, whether it was spilled or not (R184, log entry 16). -/
def mergeSum (rs : List MergeRec) : Int × Nat × Bool :=
  rs.foldl (fun (z, r, sat) m =>
    let z' := z + m.value.toInt
    if sat then (z, r, sat)
    else if m.sat then (m.value.toInt, 127, true)
    else if inLedgerRange z' then (z', (r + m.residue.toNat) % 255, false)
    else (if z' < 0 then -(2 ^ 127) else 2 ^ 127 - 1, 127, true)) (0, 0, false)

/-- The 16 bytes of an output record (R182). -/
def mergeRecord (key : BitVec 40) (r : Rounded) : List Byte :=
  natLe key.toNat 5 ++
    [BitVec.ofNat 8 ((if r.inexact then 1 else 0) + (if r.overflow then 2 else 0) +
      (if r.invalid then 4 else 0)), 0, 0] ++ natLe r.bits 4 ++ [0, 0, 0, 0]

/-- The Coachhouse records of a lane's table: from the entries that came back through vq3, or straight from the window
where the image declares no egress spill slot (R181, R228, log entry 19); whether one was poisoned, the entries
left. -/
def State.spilledBack (s : State) (g lane : Nat) (which : Bool) (t : HashTable) (es : List Entry) :
    List Byte × Bool × List Entry × State :=
  match s.spillSlot g t.cwin false, s.clusterWindow g t.cwin with
  | some _, some _ =>
    let mine := es.take t.spillEntries
    (mine.flatMap fun e => natLe e.data.toNat 64, mine.any (·.poison), es.drop t.spillEntries, s)
  | none, some w =>
    let (bs, bad, s) := s.chsRead (w.segment lane which).1 (32 * t.chsRecs) (s.tagOfDie (gidDie g))
    (bs, !bad.isEmpty, es, s)
  | _, none => ([], false, es, s)

/-- The records of a lane's table: under-SRAM area, Coachhouse records, valid entries (R181). -/
def mergeRecs (y : Lane) (t : HashTable) (back : List Byte) : List MergeRec :=
  ((List.range t.underRecs).map fun n => t.mergeRec (readLe y.sram (t.ubase + 32 * n) 32) n) ++
    ((List.range t.chsRecs).map fun n => t.mergeRec (leNat ((back.drop (32 * n)).take 32)) (t.underRecs + n)) ++
    (t.entries.filter fun e => e.2.valid).map fun e =>
      ({ key := e.2.key, value := e.2.value, residue := e.2.residue, idx := e.1, pos := 2 ^ 64 - 1,
          sat := e.2.frozen } : MergeRec)

/-- What a merge has read: the records of each lane, the entries left, whether a spill entry was poisoned. -/
structure MergeRead where
  lanes : List (Nat × List MergeRec) := []
  left : List Entry
  bad : Bool := false
  s : State

/-- The records of one lane are read (R113, R181). -/
def MergeRead.lane (r : MergeRead) (x : Slot) (which : Bool) (l : Nat) : MergeRead :=
  let y := (r.s.cluster x.g).lane l
  let t := y.table which
  let s := r.s.sramRead x (if t.underRecs = 0 then [] else [l]) fun _ => [(t.ubase, 32 * t.underRecs)]
  let (back, bad, left, s) := s.spilledBack x.g l which t r.left
  { lanes := r.lanes ++ [(l, mergeRecs y t back)], left := left, bad := r.bad || bad, s := s }

/-- The distinct keys in ascending order. -/
def sortKeys (ks : List Nat) : List Nat :=
  (ks.foldl (fun (m : AMap Unit) k => m.insert k ()) []).map (·.1)

/-- Merge the records of one lane (R181, R182): the record count. DESIGN CHOICE (log entry 169): the residue event of a
key's sum, which stands at no table index and in no spill record, carries index 0 and a position of all ones. -/
def State.mergeLane (s : State) (x : Slot) (lane : Nat) (which : Bool) (owin : Nat) (rctl : BitVec 20)
    (recs : List MergeRec) : Nat × State :=
  let t := ((s.cluster x.g).lane lane).table which
  let slotNo := if which then 1 else 0
  let s := (recs.filter fun m => mod255 m.value != m.residue).foldl (fun s m =>
    s.residueFault x 0x05 lane slotNo m.idx true m.pos m.residue (mod255 m.value)) s
  let r := rctlOf rctl
  let keys := sortKeys (recs.map (·.key.toNat))
  let outs := keys.map fun k =>
    let (z, res, sat) := mergeSum (recs.filter fun m => m.key.toNat == k)
    let l : Ledger :=
      { ({} : Ledger).setE t.w with
        l := BitVec.ofInt 128 z, residue := BitVec.ofNat 8 res, status := withFlag t.status 6 sat }
    (k, l, sat)
  let s := (outs.filter fun (_, l, sat) => !sat && l.computedResidue != l.residue).foldl (fun s (_, l, _) =>
    s.residueFault x 0x05 lane slotNo 0 true (2 ^ 64 - 1) l.residue l.computedResidue) s
  let bytes := outs.flatMap fun (k, l, _) => mergeRecord (BitVec.ofNat 40 k) (l.readElement r 0)
  let s :=
    match s.clusterWindow x.g owin with
    | some w =>
      let (base, n) := w.segment lane which
      let fit := n / 16 * 16
      let s := (s.hashWrite x.g owin w.base base (bytes.take fit)).1
      if bytes.length > fit then s.sparseEvent x 0x03 lane which else s
    | none => s.sparseEvent x 0x03 lane which
  let s := s.modCluster x.g fun c =>
    let y := c.lane lane
    c.setLane lane (y.setTable which (HashTable.cleared t.desc))
  (keys.length, s)

/-- The slot of a merge in hand, with the word address and the executed beat of its HMERGE (R118, R185). -/
def mergeSlot (g : Nat) (c : Cluster) (mask : BitVec 16) (pc : Nat) (beat : BitVec 64) : Slot where
  g := g
  i := { cluster := BitVec.ofNat 16 g, psel := 0, sense := false, qp := false }
  c := { c with pc := pc, execBeat := beat }
  mask := mask

/-- The vector entries that a merge reads back through vq3 (R228). -/
def State.mergeNeeds (s : State) (x : Slot) (which : Bool) : Nat :=
  x.lanes.foldl (fun n l =>
    let t := (x.c.lane l).table which
    if (s.spillSlot x.g t.cwin false).isSome && (s.clusterWindow x.g t.cwin).isSome then n + t.spillEntries else n) 0

/-- The hash unit takes the head of vq3 for the merge in hand, and the egress slot has its credit back (R223, R228); a
poisoned entry is a poison fault (R464). -/
def State.hashTake (s : State) (g : Nat) : State :=
  let c := s.cluster g
  match c.stall with
  | .merge which _ _ _ mask pc beat =>
    let x := mergeSlot g c mask pc beat
    match (c.queue 3).entries with
    | e :: rest =>
      if !c.issued && decide (c.mergeIn.length < s.mergeNeeds x which) then
        let s := s.setCluster g
          { c.setQueue 3 { c.queue 3 with entries := rest, consumed := (c.queue 3).consumed + 1 } with
            mergeIn := c.mergeIn ++ [e] }
        let s := match x.lanes.findSome? fun l => s.spillSlot g ((c.lane l).table which).cwin false with
          | some key =>
            let y := s.strip key
            s.setStrip key { y with credit := min (y.credit + 1) y.desc.credits }
          | none => s
        if e.poison then s.poisonFault x 0x02 1 0x3F 3 else s
      else s
    | [] => s
  | _ => s

/-- HMERGE_COMPLETE (R181, R182): once every spill entry is back and no spill of the other table moves any more, every lane of the held merge is merged, vd takes the
count, the table is as after an HCLR, the hold ends. A poisoned spill entry faults, and no result of the merge leaves the
cluster (R464). -/
def State.mergeComplete (s : State) (g : Nat) : State :=
  let c := s.cluster g
  match c.stall with
  | .merge which vd owin rctl mask pc beat =>
    let x := mergeSlot g c mask pc beat
    if c.mergeIn.length < s.mergeNeeds x which ∨ !c.spillOut.isEmpty ∨ s.spillMoves g then s
    else
      let r := x.lanes.foldl (fun (r : MergeRead) l => r.lane x which l) { left := c.mergeIn, s := s }
      let s :=
        if r.bad then
          if c.mergeIn.any (·.poison) then r.s else r.s.poisonFault x 0x02 1 0x3F 3
        else r.lanes.foldl (fun s (l, recs) =>
          let (n, s) := State.mergeLane s x l which owin.toNat rctl recs
          s.modCluster g fun c => c.setLane l ((c.lane l).setVreg vd.toNat (BitVec.ofNat 512 n))) r.s
      s.modCluster g fun c => { c with stall := .none, mergeIn := [] }
  | _ => s

/-- SPILL_COMPLETE (R180): the last spilling lane finishes; a spill whose under-SRAM writes still take
beats, or whose entries still move to their slot, is not complete. -/
def State.spillComplete (s : State) (g : Nat) : State :=
  let c := s.cluster g
  match c.stall with
  | .spill 0 _ => if c.spillOut.isEmpty && !s.spillMoves g then s.setCluster g { c with stall := .none } else s
  | _ => s

/-- XSET (R165). -/
def execXset (i : Issue) (o : VOps) (dense : Bool) (ha hb range : BitVec 2) (s : State) : Answer :=
  whenLegal (.xset i o dense ha hb range) "XSET" (s.xset i o dense ha hb range)
/-- XWALK (R166). -/
def execXwalk (i : Issue) (vd : BitVec 5) (pd : BitVec 3) (s : State) : Answer :=
  whenLegal (.xwalk i vd pd) "XWALK" (s.xwalk i vd pd)
/-- XGATH (R167). -/
def execXgath (i : Issue) (o : VOps) (rankB : Bool) (width : BitVec 3) (s : State) : Answer :=
  whenLegal (.xgath i o rankB width) "XGATH"
    (s.gather i o fun c l => xgathResult c l o rankB (sparseWidth width))
/-- X24 (R168). -/
def execX24 (i : Issue) (o : VOps) (width : BitVec 3) (s : State) : Answer :=
  whenLegal (.x24 i o width) "X24" (s.gather i o fun c l => x24Result c l o (sparseWidth width))
/-- XCSLU (R169). -/
def execXcslu (i : Issue) (vd : BitVec 5) (va : BitVec 6) (values : Bool) (fmt : BitVec 4) (clear : Bool)
    (s : State) : Answer :=
  whenLegal (.xcslu i vd va values fmt clear) "XCSLU"
    (if values then s.xcsluOnValues i vd va fmt else s.xcsluOnKeys i vd va clear)
/-- HCLR (R174). -/
def execHclr (i : Issue) (vb : BitVec 6) (table : Bool) (s : State) : Answer :=
  whenLegal (.hclr i vb table) "HCLR" (s.hclr i vb table)
/-- HACC (R176). -/
def execHacc (i : Issue) (o : VOps) (table mul : Bool) (s : State) : Answer :=
  whenLegal (.hacc i o table mul) "HACC" (s.traced (s.hacc i o table mul))
/-- SPILL_COMPLETE (R180). -/
def execSpillComplete (c : BitVec 16) (s : State) : Answer := .next (s.traced (s.spillComplete c.toNat))
/-- HMERGE (R181). -/
def execHmerge (i : Issue) (vd : BitVec 5) (vb : BitVec 6) (table : Bool) (s : State) : Answer :=
  whenLegal (.hmerge i vd vb table) "HMERGE" (s.traced (s.hmerge i vd vb table))
/-- HMERGE_COMPLETE (R182). -/
def execHmergeComplete (c : BitVec 16) (s : State) : Answer := .next (s.traced (s.mergeComplete c.toNat))
/-- HSTAT (R183). -/
def execHstat (i : Issue) (vd : BitVec 5) (table : Bool) (s : State) : Answer :=
  whenLegal (.hstat i vd table) "HSTAT" (s.hstat i vd table)

end Sys2Proof.Machine
end

