-- ==== Sys2Proof/Machine/Streams.lean ====
section
/-! DEFINITION. Transport streams and their gates: what may be prefetched, sent, granted, committed and credited
(11 R327-R332). -/

namespace Sys2Proof.Machine

/-! ### Places (R330) -/

def TStream.bytes (t : TStream) : Nat := t.lines * 64
def TStream.ringBytes (t : TStream) : Nat := t.ring * 4096

/-- The window offset of a stream offset. -/
def TStream.winOff (t : TStream) (o : Nat) : Nat :=
  t.start * 4096 + (if t.ring = 0 then o else o % t.ringBytes)

/-- The Coachhouse address of a stream offset. -/
def State.streamAddr (s : State) (t : TStream) (o : Nat) : Nat :=
  ((s.job t.job.toNat).window t.window).base + t.winOff o

/-- Does this module receive the stream's data (kinds 1 and 4)? -/
def TStream.receives (t : TStream) : Bool := t.kind == 1 || t.kind == 4

/-! ### Gates (R331) -/

/-- The streams that a stream slot gates: records may name one slot more than once. -/
def State.gatedBy (s : State) (key : Nat) : List (Nat × TStream) := s.streams.filter fun (_, t) => t.gate == some key

/-- The stream offset of a byte of the gate slot's window: with a ring, the slot is taken to pass over the ring in
order, `done` being the bytes it has passed (log entry 30). -/
def TStream.offOf (t : TStream) (win done : Nat) : Option Nat :=
  let lo := t.start * 4096
  if win < lo then none
  else
    let w := win - lo
    let o := if t.ring = 0 then w else done / t.ringBytes * t.ringBytes + w
    if (t.ring ≠ 0 ∧ w ≥ t.ringBytes) ∨ o ≥ t.bytes then none else some o

/-- The stream offset of element n of a gate slot. -/
def TStream.elemOff (t : TStream) (d : StreamDesc) (n : Nat) : Option Nat := t.offOf (d.offset n) (n * d.size)

/-- May an egress slot fetch element n: has its line landed? -/
def State.mayFetch (s : State) (key n : Nat) : Bool :=
  (s.gatedBy key).all fun (_, t) => match t.elemOff (s.strip key).desc n with
    | some o => decide (o / 64 * 64 + 64 ≤ t.landed)
    | none => true

/-- Where a converting slot reads next: the pass of its pattern, the start of the row in the window, the byte in the
row (R222, R227). -/
def StreamSlot.nextGroup (x : StreamSlot) : Nat × Int × Nat :=
  let d := x.desc
  let e := x.fetched / d.perElement
  (e / (d.rowLen * d.rows), (d.start : Int) + (e / d.rowLen % d.rows : Nat) * d.stride,
    if e % d.rowLen = 0 then 0 else x.rowByte)

/-- The stream offset of a window offset in a pass of the gate slot over the ring (log entry 30). -/
def TStream.passOff (t : TStream) (pass win : Nat) : Option Nat := t.offOf win (pass * t.ringBytes)

/-- The stream offset at which the bytes of a pass end. -/
def TStream.passEnd (t : TStream) (pass : Nat) : Nat :=
  if t.ring = 0 then t.bytes else min t.bytes ((pass + 1) * t.ringBytes)

/-- May a converting slot read up to four blocks at a window offset in a pass: has the longest that they can be
landed? -/
def State.mayExpand (s : State) (key pass win : Nat) : Bool :=
  (s.gatedBy key).all fun (_, t) => match t.passOff pass win with
    | some o => decide (min (o + 576) (t.passEnd pass) ≤ t.landed)
    | none => true

/-- The offset below which a receiving stream's gate slot has read every line (R331). -/
def State.consumedOff (s : State) (t : TStream) : Nat :=
  match t.gate with
  | none => t.landed
  | some key =>
    let x := s.strip key
    if x.ready ≥ x.desc.total then t.bytes
    else if x.desc.conv = 0 then ((t.elemOff x.desc x.ready).getD t.landed) / 64 * 64
    else
      let (pass, row, pos) := x.nextGroup
      ((t.passOff pass (row.toNat + pos)).getD t.landed) / 64 * 64

/-- The limit that this module grants (R331). -/
def State.grantLimit (s : State) (t : TStream) : Nat :=
  if t.ring = 0 then t.bytes else min t.bytes (s.consumedOff t + t.ringBytes)

/-- A new GRANT where the limit has advanced by 64 KiB or reached the end, or where one is asked for (R331, R333). -/
def State.grant (s : State) (k : Nat) (force : Bool) : State :=
  let t := s.stream k
  let l := max t.limitOut (s.grantLimit t)
  if t.receives && t.st == .opened && (force || decide (l ≥ t.limitOut + 65536) || (l == t.bytes && l != t.limitOut)) then
    (s.sendStream t 0x04 l).setStream k { t with limitOut := l }
  else s

/-- The gate slot of streams has read more. -/
def State.gateRead (s : State) (key : Nat) : State := (s.gatedBy key).foldl (fun s p => s.grant p.1 false) s

/-! ### Sending (R327, R331, R342) -/

/-- The landed offset moves over lines that stand above it. -/
def TStream.advance (t : TStream) : Nat → TStream
  | 0 => t
  | n + 1 =>
    if t.seenLines.contains (t.landed / 64) then
      TStream.advance { t with landed := t.landed + 64, seenLines := t.seenLines.filter (· != t.landed / 64) } n
    else t

/-- Lines are there: above the landed offset each is kept until the lines below it are there too. -/
def TStream.take (t : TStream) (ls : List Nat) : TStream :=
  let new := ls.filter fun l => decide (t.landed ≤ 64 * l) && !t.seenLines.contains l
  { t with seenLines := t.seenLines ++ new }.advance (t.seenLines.length + new.length + 1)

/-- The offset below which every line of a sending stream is written and acknowledged. -/
def TStream.writtenOff (t : TStream) : Nat := if t.gate.isSome then t.landed else t.bytes

/-- The written lines of a gated sending stream at or above an offset. -/
def TStream.written (t : TStream) (off : Nat) : List Nat :=
  (List.range (t.landed / 64)).filter (fun l => decide (off ≤ 64 * l)) ++ t.seenLines.filter fun l => decide (off ≤ 64 * l)

/-- A sending stream goes back to an offset. -/
def TStream.back (t : TStream) (off : Nat) : TStream :=
  { t with sentTo := off, unsent := if t.gate.isSome then t.written off else [] }

/-- Does this module send the stream's data: not a follower's write stream (R342). -/
def State.sendsData (s : State) (t : TStream) : Bool :=
  t.st == .opened && (t.kind == 3 || (t.kind == 2 && !(t.paired && s.pairFollows)))

/-- The lines that go out next, a first line and their number: at most 64, none across 4 KiB, all below the limit; of a
gated stream only lines that its slot has written (R331). -/
def TStream.nextRun (t : TStream) : Option (Nat × Nat) :=
  let fits (l : Nat) : Bool := decide (64 * l + 64 ≤ min t.limitIn t.bytes)
  let run (l : Nat) (ready : Nat → Bool) : Nat :=
    ((List.range (64 - l % 64)).takeWhile fun i => ready (l + i) && fits (l + i)).length
  match t.gate with
  | none => if fits (t.sentTo / 64) then some (t.sentTo / 64, run (t.sentTo / 64) fun _ => true) else none
  | some _ => (t.unsent.find? fits).map fun l => (l, run l fun i => t.unsent.contains i)

/-- DATA messages up to the limit. -/
def State.pump (s : State) (k : Nat) : Nat → State
  | 0 => s
  | n + 1 =>
    let t := s.stream k
    match if s.sendsData t then t.nextRun else none with
    | some (l, count) =>
      let tag := (s.job t.job.toNat).tag
      let (body, s) := (List.range count).foldl (fun (b, s) i =>
        let (d, p, s) := State.readLine s (s.streamAddr t (64 * (l + i))) tag
        (b ++ segsOfLine { data := d, poison := p }, s)) (([] : List Seg), s)
      let s : State := s.sendMsg t.port (if t.kind = 2 then 1 else 2) 0x10 t.flags t.key.toNat (64 * l) body
      State.pump (s.setStream k { t with
        sentTo := 64 * (l + count)
        unsent := t.unsent.filter fun i => decide (i < l) || decide (l + count ≤ i) }) k n
    | none => s

/-- Send what may be sent. -/
def State.sendAll (s : State) (k : Nat) : State := s.pump k ((s.stream k).lines + (s.stream k).unsent.length + 1)

/-! ### Credits of a gated ingress slot (R331) -/

/-- Is the credit for an entry of an ingress slot held back no longer by a stream? -/
def TStream.frees (t : TStream) (d : StreamDesc) (n : Nat) : Bool :=
  t.ring == 0 || (match t.elemOff d n with
    | some o => decide (o / 64 * 64 + 64 ≤ t.committed + t.ringBytes)
    | none => true)

/-- The entries of an ingress slot whose credit messages are not held back. -/
def State.creditLimit (s : State) (key : Nat) : Nat :=
  let x := s.strip key
  match s.gatedBy key with
  | [] => x.acked
  | ts => x.creditedTo + ((List.range (x.acked - x.creditedTo)).takeWhile fun i =>
      ts.all fun p => p.2.frees x.desc (x.creditedTo + i)).length

/-- Credit what may be credited; a stream that is then complete closes its last signature block (R344). -/
def State.giveCredits (s : State) (key : Nat) : State :=
  let x := s.strip key
  if x.used then
    let y := x.queueCredits (s.creditLimit key)
    let s := s.setStrip key y
    if y.done && !x.done then s.closeBlock key else s
  else s

/-- Does row r of a pattern, from its entry k on, have an entry in the bytes from lo up to hi? -/
def StreamDesc.rowMeets (d : StreamDesc) (r k : Nat) (lo hi : Int) : Bool :=
  let a : Int := d.start + r * d.stride
  decide (k < d.rowLen) && decide (a + k * d.size < hi) && decide (lo < a + d.rowLen * d.size)

/-- Do the rows of a pattern from r on have an entry in the bytes from lo up to hi? The rows that do are those between
two bounds, since rows are in arithmetic progression. -/
def StreamDesc.rowsMeet (d : StreamDesc) (r : Nat) (lo hi : Int) : Bool :=
  if d.rows ≤ r then false
  else if d.stride = 0 then d.rowMeets r 0 lo hi
  else
    let u : Int := hi - 1 - d.start
    let v : Int := lo + 1 - (d.rowLen * d.size : Nat) - d.start
    let (first, last) := if 0 < d.stride then (-((-v) / d.stride), u / d.stride) else (-(u / (-d.stride)), (-v) / (-d.stride))
    decide (max first r ≤ min last ((d.rows : Int) - 1))

/-- Has a pass of the pattern, of which `acked` entries are written, still entries to write in the line of element n?
Only a line with all its entries written counts as written (R331). -/
def StreamDesc.lineOpen (d : StreamDesc) (acked n : Nat) : Bool :=
  let lo : Int := (d.offset n / 64 * 64 : Nat)
  let pass := d.rowLen * d.rows
  acked / pass == n / pass &&
    (d.rowMeets (acked % pass / d.rowLen) (acked % d.rowLen) lo (lo + 64) ||
      d.rowsMeet (acked % pass / d.rowLen + 1) lo (lo + 64))

/-- The lines that a slot's newly acknowledged elements have completed, by stream line. -/
def TStream.newLines (t : TStream) (d : StreamDesc) (acked : Nat) : List Nat :=
  ((List.range (acked - t.noted)).filterMap fun i =>
    if d.lineOpen acked (t.noted + i) then none else (t.elemOff d (t.noted + i)).map (· / 64)).eraseDups

/-- The gate slot of sending streams has written more: its lines can be sent, those written again once more. -/
def State.gateWrote (s : State) (key : Nat) : State :=
  let x := s.strip key
  (s.gatedBy key).foldl (fun s p =>
    let t := s.stream p.1
    let ls := t.newLines x.desc x.acked
    let u := { t with noted := x.acked, unsent := t.unsent ++ ls.filter fun l => !t.unsent.contains l }
    (s.setStream p.1 (if t.receives then t else u.take ls)).sendAll p.1) s

/-- A sending stream of a job that JOB_STOP stopped closes once every line it wrote is sent and committed (R332). -/
def State.closeIfSent (s : State) (k : Nat) : State :=
  let t := s.stream k
  let j := s.job t.job.toNat
  let ended := j.st == .stopping || j.st == .stopped || j.st == .unloading
  if ended && j.stopKind == 1 && !t.receives && t.st == .opened && t.unsent.isEmpty &&
      (t.gate.all fun key => let x := s.strip key; x.buf.isEmpty && x.acked == x.accepted) &&
      decide (t.writtenOff ≤ t.committed) then s.closeStream k 0
  else s

/-- The same of every stream of a job. -/
def State.closeSent (s : State) (slot : Nat) : State :=
  (s.streamsOf slot fun _ => true).foldl (fun s k => s.closeIfSent k) s

end Sys2Proof.Machine
end

