-- ==== Sys2Proof/Machine/Coachhouse.lean ====
section
/-! DEFINITION. The Coachhouse side of the stream engines, the CMTL links and the stacks: prefetch, line
writes, frames, replays, loss of a stack, re-centring, scrub (07 R223-R241). -/

namespace Sys2Proof.Machine

/-! ### Losing a stack (R241) -/

/-- Poisoned entries with open contents. -/
def State.poisonEntries (s : State) (n : Nat) : List Entry × State :=
  (List.range n).foldl (fun (es, s) _ =>
    let (v, s) := s.fresh
    (es ++ [{ data := BitVec.ofNat 512 v, poison := true }], s)) ([], s)

/-- Is a slot still declared by the job with a tag: neither unloaded nor reset since (R242, R297)? -/
def State.slotOf (s : State) (key : Nat) (job : BitVec 16) : Bool :=
  (s.strip key).used && (s.job (s.strip key).job.toNat).tag == job

/-- Entries of an egress slot arrive for the job that asked for them (R222); a control entry has no poison flag
(R119). -/
def State.deliverEgress (s : State) (key : Nat) (job : BitVec 16) (first : Nat) (es : List Entry) : State :=
  let x := s.strip key
  if s.slotOf key job && !x.stopped && decide (x.ready ≤ first) then
    let es := if x.desc.net = 2 then es.map fun e => { e with poison := false } else es
    (s.setStrip key ({ x with early := x.early.insert first es }.joinEarly (x.early.length + 1))).gateRead key
  else s

/-- A job that is Stopping becomes Stopped when its ingress entries are written (R294). -/
def State.finishStopping (s : State) (slot : Nat) : State :=
  if (s.job slot).st = .stopping && (s.job slot).stopKind != 0 && s.ingressDone slot then
    ((s.closeSent slot).becomeStopped slot).settleDone
  else s

/-- A line of an ingress slot is acknowledged to the job that wrote it (R225, R226). -/
def State.ackIngress (s : State) (key : Nat) (job : BitVec 16) (first upto : Nat) : State :=
  let x := s.strip key
  if s.slotOf key job then
    let y := { x with spans := x.spans.insert first upto }.joinSpans (x.spans.length + 1)
    (((s.setStrip key y).giveCredits key).gateWrote key).finishStopping x.job.toNat
  else s

/-- What a transaction meets when its stack is lost: poison for a read, a stream fault for a write, of the job that
posted it while that declares the slot (R241). -/
def State.loseTxn (s : State) (t : Txn) : State :=
  let write (key : Nat) (job : BitVec 16) (first : Nat) : State :=
    if s.slotOf key job then s.streamFault key 0x05 ((s.strip key).desc.offset first) else s
  match t with
  | .egress job key first count _ =>
    let (es, s) := s.poisonEntries count
    s.deliverEgress key job first es
  | .ingress job key first _ => write key job first
  | .partialLine job key first _ => write key job first
  | .none => s

/-- The stacks in service (R245). -/
def State.countStacks (s : State) : State :=
  s.setField Reg.CHS_STATUS 0 6 ((List.range 32).filter fun k => s.stackUp k).length

/-- Does a paired job use a stack (R346)? -/
def State.stackPaired (s : State) (k : Nat) : Bool :=
  (List.range 64).any fun j => (s.job j).paired && (s.job j).windows.any fun w => !w.2.near || s.nearStack w.2.die == k

/-- A stack leaves service with a cause (R234, R236, R241, R246); it returns only through step 6 of a cold
start. A stack already out keeps its cause. The loss of a stack that a paired job uses is local evidence (R346, R455), and
the module fails before the faults that follow from it. -/
def State.loseStack (s : State) (k cause : Nat) : State :=
  if s.stackState k = 4 then s
  else
    let x := s.stack k
    let uses := s.stackPaired k
    let s := (s.setField (Reg.CHS_STACK k) 0 3 4).setField (Reg.CHS_STACK k) 4 8 cause
    let s := s.setStack k { x with link := .trainerror, toStack := {}, toCtl := {}, answers := [], txns := [] }
    let s := (s.countStacks.leave (srcStack k)).distChanged
    let s := s.logEvent (s.asEvidence uses
      { s.eventOf (srcStack k) 0x0A 0x03 with p0 := BitVec.ofNat 32 k })
    let s := if uses then s.pairDeclareFailed 2 else s
    x.txns.foldl (fun s t => s.loseTxn t.2) s

/-! ### CMTL (R235, R236) -/

/-- A frame without its link fields. -/
def frame (kind : Nat) (granule : Bool) (tag : BitVec 12) (addr : Nat) : Frame where
  kind := BitVec.ofNat 8 kind
  granule := granule
  seq := 0
  ack := 0
  tag := tag
  addr := BitVec.ofNat 36 addr
  poison := 0
  corrected := 0
  status := 0
  data := []

/-- The 60 header bytes before the CRC (R235). -/
def Frame.header (f : Frame) : List Byte :=
  [f.kind, if f.granule then 1 else 0] ++ natLe f.seq.toNat 2 ++ natLe f.ack.toNat 2 ++ natLe f.tag.toNat 2 ++
    natLe f.addr.toNat 8 ++ natLe f.poison.toNat 8 ++ natLe f.corrected.toNat 8 ++ [f.status] ++ List.replicate 27 0

/-- The CRC-32C over bytes 0 to 59 and the data that follows (R235). -/
def Frame.check (f : Frame) : BitVec 32 := crc32c (f.header ++ f.data.flatMap fun d => natLe d.toNat 64)

/-- A frame with its CRC, as it leaves. -/
def Frame.sealed (f : Frame) : Frame := { f with crc := f.check }

/-- Put a sequenced frame on a direction; `back` is the other direction, whose last frame is acknowledged. -/
def LinkDir.post (d back : LinkDir) (f : Frame) : LinkDir :=
  let f := { f with seq := d.txSeq, ack := back.rxNext - 1 }.sealed
  { d with wire := d.wire ++ [f], unacked := d.unacked ++ [(f, 1)], txSeq := d.txSeq + 1 }

/-- Put an acknowledge-only frame or a NAK on a direction; neither takes a sequence number. -/
def LinkDir.signal (d back : LinkDir) (kind : Nat) : LinkDir :=
  { d with wire := d.wire ++ [{ frame kind false 0 0 with ack := back.rxNext - 1 }.sealed] }

/-- An ack frees the frames up to it. -/
def LinkDir.acked (d : LinkDir) (ack : BitVec 12) : LinkDir :=
  match d.unacked with
  | (f, _) :: _ =>
    let n := (ack - f.seq).toNat
    if n < 512 then { d with unacked := d.unacked.drop (n + 1) } else d
  | [] => d

/-- Room for another frame: at most 512 unacknowledged (R236). -/
def LinkDir.room (d : LinkDir) : Bool := decide (d.unacked.length < 512)

/-- Both directions of a link, the one from the sender first. -/
def Stack.dirs (x : Stack) (toStack : Bool) : LinkDir × LinkDir :=
  if toStack then (x.toStack, x.toCtl) else (x.toCtl, x.toStack)
def Stack.setDirs (x : Stack) (toStack : Bool) (d back : LinkDir) : Stack :=
  if toStack then { x with toStack := d, toCtl := back } else { x with toCtl := d, toStack := back }

/-- A free transaction tag. -/
def Stack.freeTag (x : Stack) : Option (BitVec 12) :=
  (List.range 4096).findSome? fun i =>
    let t := x.nextTag + BitVec.ofNat 12 i
    if AMap.get .none x.txns t.toNat = .none then some t else none

/-- The controller posts a transaction's frame; none where the link has no room. -/
def State.postTxn (s : State) (k : Nat) (t : Txn) (f : BitVec 12 → Frame) : Option State :=
  let x := s.stack k
  match x.freeTag with
  | some tag =>
    if x.toStack.room then
      some (s.setStack k { x with
        toStack := x.toStack.post x.toCtl (f tag)
        txns := AMap.set .none x.txns tag.toNat t
        nextTag := tag + 1 })
    else none
  | none => none

/-- A link enters PHYRETRAIN (R236): a third within one second loses the stack. -/
def State.retrain (s : State) (k : Nat) (afterReplay : Bool) : State :=
  let x := s.stack k
  let times := x.retrainTimes.filter fun t => decide (s.ms < t + 1000000000)
  if times.length ≥ 2 then s.loseStack k 0x08
  else
    let s := s.setField (Reg.CHS_STACK k) 0 3 3
    s.setStack k { x with
      link := .phyretrain, afterReplay := afterReplay, retrainTimes := times ++ [s.ms] }

/-- Go-back-N (R236): every unacknowledged frame is sent again, behind the frames without a sequence number that are
on the link; the fifth sending of one retrains the link. -/
def State.replay (s : State) (k : Nat) (toStack : Bool) : State :=
  let x := s.stack k
  let (d, back) := x.dirs toStack
  let again := d.unacked.map fun (f, n) => ({ f with ack := back.rxNext - 1 }.sealed, n + 1)
  let signals := d.wire.filter fun f => decide (f.kind.toNat ≥ 5)
  let s := s.bump (Reg.CHS_LINK k) 0 16 again.length
  let s := s.setStack k (x.setDirs toStack { d with wire := signals ++ again.map (·.1), unacked := again } back)
  if again.any fun (_, n) => n ≥ 5 then s.retrain k true else s

/-- The stack sends the answers that its link has room for (R236). -/
def Stack.sendAnswers (x : Stack) : Nat → Stack
  | 0 => x
  | n + 1 =>
    match x.answers with
    | f :: rest =>
      if x.toCtl.room then
        Stack.sendAnswers { x with toCtl := x.toCtl.post x.toStack f, answers := rest } n
      else x
    | [] => x

/-- A frame of an odd sequence or with a bad CRC is discarded, and a NAK names the last good one (R236). -/
def State.discard (s : State) (k : Nat) (toStack : Bool) (d back : LinkDir) : State :=
  s.setStack k ((s.stack k).setDirs toStack d (back.signal d 6))

/-- A sequenced frame that the receiver has answered with no frame of its own is acknowledged alone (log entry 125). -/
def State.ackAlone (s : State) (k : Nat) (toStack : Bool) (sent : BitVec 12) : State :=
  let x := s.stack k
  let (d, back) := x.dirs toStack
  if s.stackState k = 2 ∧ back.txSeq = sent then s.setStack k (x.setDirs toStack d (back.signal d 5)) else s

/-- Take the frame at the head of a direction, if it is of a kind and the link is up (R235, R236); `good` says that the
link has delivered it as it was sent. A bad CRC or a sequence number out of order discards it and sends a NAK;
otherwise its ack is taken, which makes room for answers that wait, and `act` runs. -/
def State.receive (s : State) (k : Nat) (toStack good : Bool) (kind : Nat)
    (act : Frame → State → State) : State :=
  let x := s.stack k
  let (d, back) := x.dirs toStack
  match d.wire with
  | f :: rest =>
    let intact := good && f.crc == f.check
    if s.stackState k ≠ 2 ∨ f.kind.toNat ≠ kind then s
    else if kind ≥ 5 then
      if intact then
        let y := x.setDirs toStack { d with wire := rest } (back.acked f.ack)
        act f (s.setStack k (y.sendAnswers y.answers.length))
      else s.discard k toStack { d with wire := rest } back
    else if !intact || f.seq ≠ d.rxNext then s.discard k toStack { d with wire := rest } back
    else
      let y := x.setDirs toStack { d with wire := rest, rxNext := d.rxNext + 1 } (back.acked f.ack)
      let y := y.sendAnswers y.answers.length
      (act f (s.setStack k y)).ackAlone k toStack (y.dirs toStack).2.txSeq
  | [] => s

/-- The stack answers with a frame, behind the answers that wait for room. -/
def State.answer (s : State) (k : Nat) (f : Frame) : State :=
  let x := s.stack k
  let y := { x with answers := x.answers ++ [f] }
  s.setStack k (y.sendAnswers y.answers.length)

/-- The job tag of a transaction. -/
def Txn.job : Txn → BitVec 16
  | .egress job _ _ _ _ => job
  | .ingress job _ _ _ => job
  | .partialLine job _ _ _ => job
  | .none => 0

/-- The lines of a frame. -/
def frameLines (granule : Bool) : Nat := if granule then 64 else 1

/-- Is a frame's address aligned to its line or granule (R235)? -/
def Frame.aligned (f : Frame) : Bool := f.addr.toNat % (64 * frameLines f.granule) == 0

/-- READ_REQUEST (R235): the stack reads a line or a granule and answers with data; an address that is not aligned is an
address error, and what data comes with it nothing says. -/
def State.serveRead (s : State) (k : Nat) (good : Bool) : State :=
  s.receive k true good 1 fun f s =>
    let tag := (AMap.get .none (s.stack k).txns f.tag.toNat).job
    if !f.aligned then
      let (ds, s) := (List.range (frameLines f.granule)).foldl (fun (ds, s) _ =>
        let (v, s) := State.fresh s
        (ds ++ [BitVec.ofNat 512 v], s)) (([] : List (BitVec 512)), s)
      s.answer k { frame 3 f.granule f.tag f.addr.toNat with data := ds, status := 2 }
    else
      let (ds, p, c, s) := (List.range (frameLines f.granule)).foldl (fun (ds, p, c, s) i =>
        let (d, bad, fixed, s) := State.stackRead s k (f.addr.toNat + 64 * i) tag
        (ds ++ [d], if bad then p + 2 ^ i else p, if fixed then c + 2 ^ i else c, s))
        (([] : List (BitVec 512)), 0, 0, s)
      s.answer k { frame 3 f.granule f.tag f.addr.toNat with
        data := ds, poison := BitVec.ofNat 64 p, corrected := BitVec.ofNat 64 c, status := if p = 0 then 0 else 1 }

/-- WRITE (R235): the stack writes the lines and acknowledges; an address error writes nothing. -/
def State.serveWrite (s : State) (k : Nat) (good : Bool) : State :=
  s.receive k true good 2 fun f s =>
    if !f.aligned then s.answer k { frame 4 f.granule f.tag f.addr.toNat with status := 2 }
    else
      let both := s.pairedTag (AMap.get .none (s.stack k).txns f.tag.toNat).job
      let s := f.data.zipIdx.foldl (fun s (d, i) =>
        s.stackWrite k (f.addr.toNat + 64 * i) d (f.poison.getLsbD i) both) s
      s.answer k (frame 4 f.granule f.tag f.addr.toNat)

/-- The entries of a size in the data of a frame from a byte offset, each poisoned with its line. -/
def entriesOf (f : Frame) (size off n : Nat) : List Entry :=
  (List.range n).map fun i =>
    let at_ := off + i * size
    { data := ((f.data.getD (at_ / 64) 0#512).extractLsb' (8 * (at_ % 64)) (8 * 64)) &&&
        (BitVec.ofNat 512 (2 ^ (8 * size) - 1))
      poison := f.poison.getLsbD (at_ / 64) }

/-- Ingress entries first to upto - 1 put into a line. -/
def lineWith (x : StreamSlot) (es : List Entry) (first : Nat) (base : BitVec 512) : BitVec 512 :=
  lineSet base (x.desc.offset first % 64) (es.flatMap fun e => natLe e.data.toNat x.desc.size)

/-- Send an ingress line to its stack. -/
def State.postLine (s : State) (key first upto k loc : Nat) (d : BitVec 512) (poison : Bool) : Option State :=
  s.postTxn k (.ingress (s.job (s.strip key).job.toNat).tag key first upto) fun tag =>
    { frame 2 false tag loc with data := [d], poison := if poison then 1 else 0 }

/-- READ_DATA (R235): the data of a read reaches the stream slot that asked for it; a partial line whose entries a kill
or a fault has discarded stays untouched (R295). -/
def State.takeData (s : State) (k : Nat) (good : Bool) : State :=
  s.receive k false good 3 fun f s =>
    let x := s.stack k
    let t := AMap.get .none x.txns f.tag.toNat
    let s := s.setStack k { x with txns := AMap.set .none x.txns f.tag.toNat .none }
    match t with
    | .egress job key first count off =>
      s.deliverEgress key job first (entriesOf f (s.strip key).desc.size off count)
    | .partialLine job key first upto =>
      let y := s.strip key
      if s.slotOf key job then
        let es := y.buf.take (upto - first)
        if es.length < upto - first then s.setStrip key { y with pendingWrite := false } else
        let d := lineWith y es first (f.data.headD 0#512)
        let poison := f.poison.getLsbD 0 || es.any (·.poison)
        match s.postLine key first upto k f.addr.toNat d poison with
        | some s => s.setStrip key { y with buf := y.buf.drop (upto - first), written := upto, pendingWrite := false }
        | none => s.setStrip key { y with pendingWrite := false }
      else s
    | _ => s

/-- WRITE_ACKNOWLEDGE (R235): a line of an ingress slot is in its stack. -/
def State.takeAck (s : State) (k : Nat) (good : Bool) : State :=
  s.receive k false good 4 fun f s =>
    let x := s.stack k
    let t := AMap.get .none x.txns f.tag.toNat
    let s := s.setStack k { x with txns := AMap.set .none x.txns f.tag.toNat .none }
    match t with
    | .ingress job key first upto => if f.status = 2 then s else s.ackIngress key job first upto
    | _ => s

/-! ### Prefetch and line writes (R222-R227) -/

/-- Can an egress slot ask for more? -/
def StreamSlot.egressOpen (x : StreamSlot) : Bool :=
  x.used && !x.stopped && !x.desc.ingress && decide (x.fetched < x.desc.total)

/-- The width of packed elements of a converting slot: a fact of the image and the stream, wherever they are placed
(R29, log entry 17). -/
def State.packedWidth (s : State) (key : Nat) : Nat :=
  let x := s.strip key
  let d := x.desc
  if d.conv = 2 then 16
  else match (Config.bm64Width (s.job x.job.toNat).crc ((d.die * 4 + d.edge) * 64 + d.slot)).val with
    | 0 => 4
    | 1 => 6
    | _ => 8

/-- A packed BM64 block as read (R160, R227): header bytes, value bytes, packed length, whether the header's line was
poisoned, and the addresses of the poisoned lines of the values. -/
structure Block where
  head : List Byte
  values : List Byte
  packed : Nat
  headBad : Bool
  bad : List Nat
  at_ : Nat

/-- Read one packed BM64 block, or the cause of the stream fault: the window is tested before the row (R227, R231). -/
def State.readBlock (s : State) (base bytes rowEnd off w : Nat) (tag : BitVec 16) : Except Nat Block × State :=
  if off + 16 > bytes then (.error 0x01, s)
  else
    let (h, bad, s) := s.chsRead (base + off) 16 tag
    if !bad.isEmpty then (.ok { head := h, values := [], packed := 16, headBad := true, bad := [], at_ := base + off + 16 }, s)
    else
      let mask := BitVec.ofNat 64 (leNat (h.take 8))
      let n := rankBelow mask 64
      let len := (n * w + 7) / 8
      let packed := 16 + (len + 15) / 16 * 16
      if (h.drop 10).any (· != 0) then (.error 0x03, s)
      else if off + packed > bytes then (.error 0x01, s)
      else if off + packed > rowEnd then (.error 0x03, s)
      else
        let (v, bad, s) := s.chsRead (base + off + 16) len tag
        let v := natLe (leNat v % 2 ^ (n * w)) len
        (.ok { head := h, values := v, packed := packed, headBad := false, bad := bad, at_ := base + off + 16 }, s)

/-- The entry of a value area's bytes [lo, lo + n): poisoned with the lines it is formed from
(R161, R240). -/
def Block.area (b : Block) (lo n : Nat) : Entry where
  data := BitVec.ofNat 512 (leNat ((b.values.drop lo).take n))
  poison := b.bad.any fun la =>
    decide (lo < b.values.length) && decide (la < b.at_ + min (lo + n) b.values.length) && decide (b.at_ + lo < la + 64)

/-- The blocks of a slot group; after a poisoned header nothing tells where the next block begins, and the rest of the
row is poisoned (log entry 124). -/
def State.readBlocks (s : State) (base bytes rowEnd off w : Nat) (tag : BitVec 16) :
    Nat → Except Nat (List Block) × State
  | 0 => (.ok [], s)
  | n + 1 =>
    match s.readBlock base bytes rowEnd off w tag with
    | (.error c, s) => (.error c, s)
    | (.ok b, s) =>
      if b.headBad then (.ok [b], s)
      else
        match State.readBlocks s base bytes rowEnd (off + b.packed) w tag n with
        | (.ok bs, s) => (.ok (b :: bs), s)
        | (.error c, s) => (.error c, s)

/-- The value entries of blocks in slot form (R161, R227). -/
def groupAreas (conv : Nat) (bs : List Block) : List Entry :=
  bs.flatMap fun b => if conv = 2 then [b.area 0 64, b.area 64 64] else [b.area 0 64]

/-- Expand the next slot group of a converting slot (R161, R227). DESIGN CHOICE (log entry 166): a row's values overrun it
where they pass the start of the next row, the stride being positive and rows more than one, and else never within the
window. -/
def State.expandGroup (s : State) (key : Nat) : State :=
  let x := s.strip key
  let d := x.desc
  let base := s.streamBase x
  let win := (s.job x.job.toNat).window d.window
  let tag := (s.job x.job.toNat).tag
  let (pass, start, pos) := x.nextGroup
  let row := start.toNat
  let rowEnd := if d.rows > 1 ∧ d.stride > 0 then row + d.stride.toNat else win.bytes
  let first := x.fetched / d.perElement % d.rowLen = 0
  let n := x.fetched + d.perElement
  let put (s : State) (es : List Entry) (pos : Nat) (bad : Bool) : State :=
    (s.setStrip key { x with
      fetched := n, ready := n, rowByte := pos, rowBad := bad, buf := x.buf ++ es }).gateRead key
  if x.rowBad ∧ !first then
    let (es, s) := s.poisonEntries d.perElement
    put s es pos true
  else if start < 0 then s.streamFault key 0x01 (start % 2 ^ 64).toNat
  else if !s.mayExpand key pass (row + pos) then s
  else
    match s.readBlocks base win.bytes rowEnd (row + pos) (s.packedWidth key) tag 4 with
    | (.error c, s) => s.streamFault key c (row + pos)
    | (.ok bs, s) =>
      let bad := bs.any (·.headBad)
      let pos := pos + (bs.map (·.packed)).foldl (· + ·) 0
      let areas := groupAreas d.conv (bs.filter fun b => !b.headBad)
      if bad then
        let (header, s) := s.poisonEntries 1
        let (rest, s) := s.poisonEntries (d.perElement - 1 - areas.length)
        put s (header ++ areas ++ rest) pos true
      else
        let header : Entry := { data := BitVec.ofNat 512 (leNat (bs.flatMap (·.head))), poison := false }
        put s (header :: areas) pos false

/-- A spill slot reads the next entry that the hash unit waits for (R228). -/
def State.spillPrefetch (s : State) (key : Nat) : State :=
  let x := s.strip key
  match x.spillAt with
  | r :: rest =>
    if x.used && !x.stopped && !x.desc.ingress && decide (x.buf.length < x.desc.depth) then
      let (bs, bad, s) := s.chsRead (s.streamBase x + r.off) (32 * r.n) (s.job x.job.toNat).tag
      s.setStrip key { x with
        spillAt := rest, fetched := x.fetched + 1, ready := x.ready + 1
        buf := x.buf ++ [{ data := BitVec.ofNat 512 (leNat bs), poison := !bad.isEmpty }] }
    else s
  | [] => s

/-- EGRESS_PREFETCH (R223, R227): the next granule where it fits, else the next line; a slot with a
conversion expands the next slot group; a spill slot reads what the hash unit waits for. -/
def State.egressPrefetch (s : State) (key : Nat) : State :=
  let x := s.strip key
  let d := x.desc
  let room := d.depth - (x.fetched - x.driven)
  if d.conv = 3 then s.spillPrefetch key
  else if !x.egressOpen then s
  else if d.conv != 0 then if room ≥ d.perElement then s.expandGroup key else s
  else
    let n := x.fetched
    let off := d.offset n
    let full := 4096 / d.size
    let granule := off % 4096 == 0 && decide (full ≤ room) && d.run n 4096 full == full &&
      (List.range full).all fun i => s.mayFetch key (n + i)
    let line := min room (d.run n 64 (64 / d.size))
    let count := if granule then full else ((List.range line).takeWhile fun i => s.mayFetch key (n + i)).length
    let a := s.streamBase x + off
    let job := (s.job x.job.toNat).tag
    if count = 0 then s
    else
      match s.chsDecode a with
      | some (k, loc) =>
        if s.stackUp k then
          let unit := if granule then 4096 else 64
          let t := Txn.egress job key n count (if granule then 0 else loc % 64)
          match s.postTxn k t fun tag => frame 1 granule tag (loc / unit * unit) with
          | some s => s.setStrip key { x with fetched := n + count }
          | none => s
        else
          let (es, s) := (s.setStrip key { x with fetched := n + count }).poisonEntries count
          s.deliverEgress key job n es
      | none =>
        let (es, s) := (s.setStrip key { x with fetched := n + count }).poisonEntries count
        s.deliverEgress key job n es

/-- INGRESS_LINE_WRITE (R225): the next whole line goes to its stack; a partial line is read first, once no
further entry of its run can come. -/
def State.ingressLineWrite (s : State) (key : Nat) : State :=
  let x := s.strip key
  let d := x.desc
  if !x.used || !d.ingress || x.done || x.pendingWrite then s
  else
    let n := x.written
    let run := d.run n 64 (64 / d.size)
    let ending := decide (x.buf.length < run) && x.stopped
    let m := if ending then x.buf.length else run
    if m = 0 ∨ x.buf.length < m then s
    else
      let a := s.streamBase x + d.offset n
      let es := x.buf.take m
      match s.chsDecode a with
      | some (k, loc) =>
        if s.stackUp k then
          if m * d.size = 64 then
            match s.postLine key n (n + m) k (loc / 64 * 64) (lineWith x es n 0#512) (es.any (·.poison)) with
            | some s => s.setStrip key { x with buf := x.buf.drop m, written := n + m }
            | none => s
          else
            match s.postTxn k (.partialLine (s.job x.job.toNat).tag key n (n + m)) fun tag => frame 1 false tag (loc / 64 * 64) with
            | some s => s.setStrip key { x with pendingWrite := true }
            | none => s
        else s.streamFault key 0x05 (d.offset n)
      | none => s.streamFault key 0x05 (d.offset n)

/-! ### Link upkeep and scrub (R237, R239) -/

/-- LINK_RECENTRE (R237): after 1,024 releases, or a move of more than 5 K since the last centring. Either starts the count
of releases again (DESIGN CHOICE, log entry 165). -/
def State.linkRecentre (s : State) (k temp : Nat) : State :=
  let x := s.stack k
  let moved := decide (temp > x.centreTemp + 5) || decide (x.centreTemp > temp + 5)
  if s.stackState k = 2 ∧ (x.releases ≥ 1024 ∨ moved) then
    let s := s.setField (Reg.CHS_STACK k) 0 3 3
    s.setStack k { x with link := .phyretrain, afterReplay := false, releases := 0, centreTemp := temp }
  else s

/-- PHYRETRAIN_COMPLETE (R236, R237, R246): the link is ACTIVE again and sends what is unacknowledged, or the
stack is lost. -/
def State.phyretrainComplete (s : State) (k : Nat) (ok : Bool) : State :=
  if s.stackState k = 3 then
    if ok then
      let x := s.stack k
      let s := (s.setField (Reg.CHS_STACK k) 0 3 2).bump (Reg.CHS_LINK k) 16 8 1
      let fresh (d : LinkDir) : LinkDir :=
        { d with wire := d.unacked.map (·.1), unacked := d.unacked.map fun (f, _) => (f, 1) }
      let s := s.setStack k { x with
        link := .active, afterReplay := false, toStack := fresh x.toStack, toCtl := fresh x.toCtl }
      if x.afterReplay then s.logPlain (srcStack k) 0x0A 0x04 k 0 0 else s
    else s.loseStack k 0x08
  else s

/-- PATROL_SCRUB (R239, R240): the next line is read and corrected as on a demand read; a line that is
poisoned already stays as it is and logs nothing. -/
def State.patrolScrub (s : State) (k : Nat) : State :=
  if s.field Reg.CHS_CFG 16 1 = 1 ∧ s.stackUp k then
    let x := s.stack k
    let loc := x.scrubPos * 64
    let s := s.setStack k { x with scrubPos := (x.scrubPos + 1) % 2 ^ 30 }
    if AMap.get false s.poisoned (lineKey k loc) then s
    else
      let (_, _, _, s) := s.stackRead k loc 0
      s
  else s

/-- EGRESS_PREFETCH (R223). -/
def execEgressPrefetch (die : BitVec 6) (edge : BitVec 2) (slot : BitVec 6) (s : State) : Answer :=
  .next (s.egressPrefetch (stripKey die.toNat edge.toNat slot.toNat))
/-- CREDIT_RETURN (R223). -/
def execCreditReturn (die : BitVec 6) (edge : BitVec 2) (slot : BitVec 6) (msg : BitVec 16) (s : State) : Answer :=
  .next (s.traced (s.creditReturn (stripKey die.toNat edge.toNat slot.toNat) msg))
/-- INGRESS_LINE_WRITE (R225). -/
def execIngressLineWrite (die : BitVec 6) (edge : BitVec 2) (slot : BitVec 6) (s : State) : Answer :=
  .next (s.ingressLineWrite (stripKey die.toNat edge.toNat slot.toNat))
/-- READ_REQUEST (R235). -/
def execReadRequest (stack : BitVec 5) (good : Bool) (s : State) : Answer := .next (s.serveRead stack.toNat good)
/-- WRITE (R235). -/
def execWriteFrame (stack : BitVec 5) (good : Bool) (s : State) : Answer := .next (s.serveWrite stack.toNat good)
/-- READ_DATA (R235). -/
def execReadData (stack : BitVec 5) (good : Bool) (s : State) : Answer := .next (s.takeData stack.toNat good)
/-- WRITE_ACKNOWLEDGE (R235). -/
def execWriteAcknowledge (stack : BitVec 5) (good : Bool) (s : State) : Answer :=
  .next (s.takeAck stack.toNat good)
/-- ACKNOWLEDGE_ONLY (R235). -/
def execAcknowledgeOnly (stack : BitVec 5) (toStack good : Bool) (s : State) : Answer :=
  .next (s.receive stack.toNat toStack good 5 fun _ s => s)
/-- NAK (R236): the sender goes back. -/
def execNak (stack : BitVec 5) (toStack good : Bool) (s : State) : Answer :=
  .next (s.receive stack.toNat toStack good 6 fun _ s => s.replay stack.toNat (!toStack))
/-- LINK_RECENTRE (R237). -/
def execLinkRecentre (stack : BitVec 5) (temp : Nat) (s : State) : Answer := .next (s.linkRecentre stack.toNat temp)
/-- PATROL_SCRUB (R239). -/
def execPatrolScrub (stack : BitVec 5) (s : State) : Answer := .next (s.patrolScrub stack.toNat)
/-- PHYRETRAIN_COMPLETE (R236). -/
def execPhyretrainComplete (stack : BitVec 5) (ok : Bool) (s : State) : Answer :=
  .next (s.phyretrainComplete stack.toNat ok)

end Sys2Proof.Machine
end

