-- ==== Sys2Proof/Machine/Beat.lean ====
section
/-! DEFINITION. One job beat of a rectangle: issue, routers, exchange units, crossings, queues, landings,
coupling units, the sequencer's advance; withheld beats; broken crossings (03, 04, 06, 13 R375, R376). -/

namespace Sys2Proof.Machine

/-! ### Issue -/

/-- A slot of an instruction that the sequencer fetched; admission has checked its operands. -/
def runSlot (c : Instr) (s : State) : State :=
  match c with
  | .emac i o => s.emac i o false
  | .emacc i o => s.emac i o true
  | .eclr i emask mode w => s.eclr i emask mode w
  | .erd i acc vd rctl => s.erd i acc vd rctl
  | .eslice i elast sstep a b => s.eslice i elast sstep a b
  | .fadd i o => s.vecOp i o 4 fun a b _ => f32Add a b
  | .fsub i o => s.vecOp i o 4 fun a b _ => f32Sub a b
  | .fmul i o => s.vecOp i o 4 fun a b _ => f32Mul a b
  | .fma i o => s.vecOp i o 4 fun a b d => f32Fma a b d
  | .fmin i o => s.vecOp i o 4 fun a b _ => f32Min a b
  | .fmax i o => s.vecOp i o 4 fun a b _ => f32Max a b
  | .fcmp i va vb pd cond red => s.fcmp i va vb pd cond red
  | .cvt i vd va idx fmt => s.cvt i vd va idx fmt
  | .sfu i vd va fn => s.vecMap i vd va 9 (sfuResult fn.toNat)
  | .pwt i vd va vb => s.pwt i vd va vb
  | .iadd i o => s.vecOp i o 1 fun a b _ => a + b
  | .isub i o => s.vecOp i o 1 fun a b _ => a - b
  | .vand i o => s.vecOp i o 1 fun a b _ => a &&& b
  | .vor i o => s.vecOp i o 1 fun a b _ => a ||| b
  | .vxor i o => s.vecOp i o 1 fun a b _ => a ^^^ b
  | .shl i vd va n => s.vecMap i vd va 1 fun a => a <<< n.toNat
  | .shr i vd va n => s.vecMap i vd va 1 fun a => a >>> n.toNat
  | .mov i vd va => s.vecCopy i vd va 1 fun x l => x.c.vop l va.toNat
  | .bcast i vd va e => s.vecCopy i vd va 1 fun x l =>
      ofElements (List.replicate 16 (element (x.c.vop l va.toNat) e.toNat))
  | .lanex i vd va lane => s.vecCopy i vd va 2 fun x _ => x.c.vop lane.toNat va.toNat
  | .scale i va t => s.scaleOp i va t
  | .vfroms i vd vb => s.vfroms i vd vb
  | .xset i o dense ha hb range => s.xset i o dense ha hb range
  | .xwalk i vd pd => s.xwalk i vd pd
  | .xgath i o rankB w => s.gather i o fun c l => xgathResult c l o rankB (sparseWidth w)
  | .x24 i o w => s.gather i o fun c l => x24Result c l o (sparseWidth w)
  | .xcslu i vd va values fmt clear => if values then s.xcsluOnValues i vd va fmt else s.xcsluOnKeys i vd va clear
  | .hclr i vb t => s.hclr i vb t
  | .hacc i o t mul => s.hacc i o t mul
  | .hmerge i vd vb t => s.hmerge i vd vb t
  | .hstat i vd t => s.hstat i vd t
  | .vld i o => s.vld i o
  | .vst i o => s.vst i o
  | .sld i o => s.sld i o
  | .sst i o => s.sst i o
  | .lsave i o => s.lsave i o
  | .lrest i o => s.lrest i o
  | .sout i lane sb off inc => s.sout i lane sb off inc
  | .sin i q sb off inc => s.sinOp i q sb off inc
  | .salu i fn sd sa sb => s.saluOp i (namesS sa.toNat ++ namesS sb.toNat) fn sd
      (fun x => x.c.sop x.g sa.toNat) fun x => x.c.sop x.g sb.toNat
  | .salui i fn sd sa imm => s.saluOp i (namesS sa.toNat) fn sd
      (fun x => x.c.sop x.g sa.toNat) fun _ => imm.signExtend 64
  | .sli i sd hw imm => s.sli i sd hw imm
  | .pcmp i pd cond sa sb => s.predOp i (namesS sa.toNat ++ namesS sb.toNat) pd fun x =>
      if pcmpHolds cond.toNat (x.c.sop x.g sa.toNat) (x.c.sop x.g sb.toNat) then 0xFFFF#16 else 0#16
  | .plog i pd fn pa pb => s.predOp i [] pd fun x => plogResult fn.toNat (x.c.pred pa.toNat) (x.c.pred pb.toNat)
  | .pfroms i pd sa => s.predOp i (namesS sa.toNat) pd fun x => (x.c.sop x.g sa.toNat).setWidth 16
  | .ptos i sd pa => s.qslot i [] fun x s => s.land x.g [⟨1, sregTarget sd ((x.c.pred pa.toNat).setWidth 64)⟩]
  | .rep i count lenM1 lp => s.repOp i count lenM1 lp
  | .ssend i sa => s.injectOp i (namesS sa.toNat) 1 fun x => (x.c.sop x.g sa.toNat).setWidth 512
  | .csend i sa => s.injectOp i (namesS sa.toNat) 2 fun x =>
      ((x.c.sop x.g sa.toNat).setWidth 16).setWidth 512
  | .vsend i vs lane => s.injectOp i [] 0 fun x =>
      if x.mask.getLsbD lane.toNat then (x.c.lane lane.toNat).vreg vs.toNat else 0
  | .csig i cpl rem sub amount => s.csig i cpl rem sub amount
  | .cwait i cpl rem cond val take path => s.cwait i cpl rem cond val take path
  | .ctoll i w => s.ctoll i w
  | .cread i cpl sd => s.qslot i [] fun x s =>
      s.land x.g [⟨1, sregTarget sd ((x.c.coupling cpl.toNat).count.setWidth 64)⟩]
  | .endProg i => s.endOp i
  | .enop i => s.issue i fun _ s => s
  | .vnop i => s.issue i fun _ s => s
  | .mnop i => s.issue i fun _ s => s
  | .qnop i => s.issue i fun _ s => s
  | _ => s

/-- The sequencer issues one instruction (R81); a cluster that a command has issued for in this beat, or
that cannot issue, does nothing more. -/
def State.issueWord (s : State) (g : Nat) : State :=
  let c := s.cluster g
  if c.issued || !s.canIssue g then s
  else
    match c.prog[c.pc]? with
    | some w =>
      match decodeWord (BitVec.ofNat 16 g) w with
      | some o => runSlot o.q (runSlot o.v (runSlot o.e (runSlot o.m
          (s.issue { cluster := BitVec.ofNat 16 g, psel := 0, sense := false, qp := false } fun _ s => s))))
      | none => s
    | none => s

/-! ### Routers (R119-R128) -/

/-- The bit of a network's first field in a route word; links first, then queues (R125). -/
def netBase (net : Nat) : Nat := 24 * net
/-- The number of queues on a network. -/
def netQueues (net : Nat) : Nat := if net = 2 then 2 else 4
/-- A select code of a route word. -/
def selectAt (w : BitVec 128) (bit : Nat) : Nat := (w.extractLsb' bit 3).toNat

/-- The head of an injection buffer, if it can be taken in this beat (R130). -/
def Cluster.injHead (c : Cluster) (net : Nat) : Option Entry :=
  match AMap.get [] c.inj net with
  | e :: _ => if e.wait = 0 then some e.entry else none
  | [] => none

/-- The input that a select code names (R126). -/
def Cluster.input (c : Cluster) (net sel : Nat) : Option Entry :=
  if 1 ≤ sel ∧ sel ≤ 4 then AMap.get none c.links (net * 4 + sel - 1)
  else if sel = 5 then c.injHead net
  else none

/-- What the routers of a cluster do in a beat: entries driven by network and direction, entries delivered by
queue code, the message to the coupling unit, the networks whose injection head is taken, lost inputs. -/
structure Routed where
  links : List (Nat × Nat × Entry) := []
  queues : List (Nat × Entry) := []
  cpl : Option Entry := none
  takes : List Nat := []
  lost : List (Nat × Nat) := []

/-- The select codes of one network in a route word. -/
def netSelects (w : BitVec 128) (net : Nat) : List Nat :=
  (List.range (4 + netQueues net)).map (fun i => selectAt w (netBase net + 3 * i)) ++
    (if net = 2 then [selectAt w 66] else [])

/-- One beat of a cluster's three routers. -/
def Cluster.route (c : Cluster) (w : BitVec 128) : Routed where
  links := (List.range 3).flatMap fun net => (List.range 4).filterMap fun d =>
    (c.input net (selectAt w (netBase net + 3 * d))).map fun e => (net, d, e)
  queues := (List.range 3).flatMap fun net => (List.range (netQueues net)).filterMap fun q =>
    (c.input net (selectAt w (netBase net + 12 + 3 * q))).map fun e => (4 * net + q, e)
  cpl := c.input 2 (selectAt w 66)
  takes := (List.range 3).filter fun net => (netSelects w net).contains 5 && (c.injHead net).isSome
  lost := (List.range 3).flatMap fun net => ((List.range 4).filter fun d =>
    (AMap.get none c.links (net * 4 + d)).isSome && !(netSelects w net).contains (d + 1)).map fun d => (net, d)

/-- The cluster on a side of a cluster, on the same die. -/
def innerNeighbour (g d : Nat) : Option Nat :=
  let x := gidX g
  let y := gidY g
  match d with
  | 0 => if y = 0 then none else some (g - 32)
  | 1 => if x = 31 then none else some (g + 1)
  | 2 => if y = 31 then none else some (g + 32)
  | _ => if x = 0 then none else some (g - 1)

/-- The die on a side of a die site. -/
def dieNeighbour (die d : Nat) : Option Nat :=
  match d with
  | 0 => if die < 8 then none else some (die - 8)
  | 1 => if die % 8 = 7 then none else some (die + 1)
  | 2 => if die ≥ 56 then none else some (die + 8)
  | _ => if die % 8 = 0 then none else some (die - 1)

/-- The opposite side. -/
def opposite (d : Nat) : Nat := (d + 2) % 4

/-- The mode of an edge (R134). -/
def State.edgeMode (s : State) (die e : Nat) : Nat := s.field (Reg.FAB_XING_STATUS die e) 0 2

/-- The key of an exchange unit. -/
def unitKey (die edge unit : Nat) : Nat := die * 128 + edge * 32 + unit

/-- The unit number of an edge cluster on its edge. -/
def unitOf (g d : Nat) : Nat := if d = 0 ∨ d = 2 then gidX g else gidY g

/-- An entry is on a link input of a cluster in the next beat. -/
def State.onLink (s : State) (g net d : Nat) (e : Entry) : State :=
  s.modCluster g fun c => { c with links := AMap.set none c.links (net * 4 + d) (some e) }

/-- An entry that a cluster drives (R121, R134, R139): to the neighbour, an exchange unit, or a crossing. -/
def State.driveLink (s : State) (g net d : Nat) (e : Entry) : State :=
  match innerNeighbour g d with
  | some h => s.onLink h net (opposite d) e
  | none =>
    let die := gidDie g
    let unit := unitOf g d
    match s.edgeMode die d with
    | 1 =>
      match dieNeighbour die d with
      | some dst =>
        let f : Flight :=
          { beats := 12, cluster := edgeCluster dst (opposite d) unit, net := net, dir := opposite d, entry := e }
        { s with flights := s.flights ++ [f] }
      | none => s
    | 3 => s
    | _ =>
      let k := unitKey die d unit
      let x := s.xunit k
      if x.used then s.setXunit k { x with rx := AMap.set none x.rx net (some e) } else s

/-- The crossings of a job's beat: flights towards its clusters advance; those that have crossed are on their
link inputs in the next beat (R139). -/
def State.fly (s : State) (j : Job) : State :=
  let (mine, rest) := s.flights.partition fun f => j.covers (gidDie f.cluster)
  let moved := mine.map fun f => { f with beats := f.beats - 1 }
  let (done, going) := moved.partition fun f => f.beats == 0
  done.foldl (fun s f => s.onLink f.cluster f.net f.dir f.entry) { s with flights := rest ++ going }

/-! ### Exchange units (R135, R144) -/

/-- The latency of a transit endpoint's route, in beats (R143); an attach-mode unit's strip is at hand. -/
def State.unitLatency (s : State) (k : Nat) : Nat :=
  if (s.xunit k).transit then ((s.transit.find? fun t => t.unit == k).map (·.latency)).getD 0 else 0

/-- An entry of a hash unit reaches its spill slot, which writes the records where they belong and credits as other
ingress slots do (R225, R228, R344): only for entries that are written with all before them (R226). An entry that no hash
unit has sent is beyond the slot's count (R231); its event carries offset 0, since it has none in the window (DESIGN
CHOICE, log entry 164). -/
def State.acceptSpill (s : State) (key : Nat) (e : Entry) (g edge unit : Nat) : State :=
  let x := s.strip key
  match x.spillAt with
  | r :: rest =>
    let s := s.setStrip key { x with spillAt := rest, accepted := x.accepted + 1 }
    let base := s.streamBase x
    let (s, wrote) := (s.signEntry key e).hashWrite r.cluster x.desc.window base (base + r.off)
      ((natLe e.data.toNat 64).take (32 * r.n))
    if wrote && x.written == x.accepted then
      let y := s.strip key
      (s.setStrip key { y with written := y.written + 1, acked := y.acked + 1 }).giveCredits key
    else s
  | [] => (s.countDrop g 0xF (some (edge, unit)) false).streamFault key 0x02 0

/-- An entry reaches the strip slot that a route word named: the control input of an egress slot, or the buffer of
an ingress slot (R135, R223, R225). -/
def State.stripTakes (s : State) (key net : Nat) (e : Entry) (g edge unit : Nat) : State :=
  if net = 2 && !(s.strip key).desc.ingress then s.creditReturn key (e.data.setWidth 16)
  else if (s.strip key).desc.conv = 3 then s.acceptSpill key e g edge unit
  else s.acceptEntry key e g edge unit

/-- What a strip slot drives for a network (R223, R225). -/
def State.stripDrives (s : State) (key net : Nat) : Option Entry × State :=
  if net = 2 && (s.strip key).desc.ingress then s.driveCredit key else s.driveSlot key

/-- Entries between transit endpoints and strips move one beat of their job (R143). -/
def State.transitMove (s : State) (slot : Nat) : State :=
  let (mine, rest) := s.transitIn.partition fun t => t.job.toNat == slot
  let moved := mine.map fun t => { t with beats := t.beats - 1 }
  let (done, going) := moved.partition fun t => t.beats == 0
  done.foldl (fun s t => s.stripTakes t.key t.net t.entry t.cluster t.edge t.unit) { s with transitIn := rest ++ going }

/-- Has a transit endpoint already had an entry that leaves none for this beat: on the vector network one in this beat or
the last, on the other two networks together one in this beat (R144)? -/
def transitBusy (net b : Nat) (vec sc : Option Nat) : Bool :=
  if net = 0 then b != 0 && vec == some (b - 1) else sc == some b

/-- A transit endpoint notes an entry that it sinks. -/
def XUnit.noteIn (x : XUnit) (net b : Nat) : XUnit :=
  if net = 0 then { x with lastIn := some b } else { x with scIn := some b }

/-- A transit endpoint notes an entry that it sources. -/
def XUnit.noteOut (x : XUnit) (net b : Nat) : XUnit :=
  if net = 0 then { x with lastOut := some b } else { x with scOut := some b }

/-- One network of an exchange unit in a beat: what arrived goes to its slot, what its slot holds goes to the
edge cluster. A transit endpoint's strip drives what the endpoint's word of `latency` beats later selects, so that the
endpoint drives it in that beat (R143, R144). -/
def State.unitNet (s : State) (job : BitVec 6) (k L b net : Nat) : State :=
  let x := s.xunit k
  let die := k / 128
  let edge := k / 32 % 4
  let unit := k % 32
  let g := edgeCluster die edge unit
  let late := s.unitLatency k
  let (sd, se) := if x.transit then stackStrip x.stack else (die, edge)
  let lo := 14 * net
  let w := x.words.getD (b % L) 0#128
  let wOut := x.words.getD ((b + late) % L) 0#128
  let inKey := stripKey sd se (w.extractLsb' (lo + 7) 6).toNat
  let outKey := stripKey sd se (wOut.extractLsb' lo 6).toNat
  let s := s.setXunit k { x with rx := AMap.set none x.rx net none }
  let s :=
    match AMap.get none x.rx net with
    | some e =>
      if !w.getLsbD (lo + 13) then s.drop g 0x04 0xF (some (edge, unit))
      else if x.transit && transitBusy net b x.lastIn x.scIn then
        s.drop g 0x03 0xF (some (edge, unit))
      else
        let s := s.setXunit k ((s.xunit k).noteIn net b)
        if late = 0 then s.stripTakes inKey net e g edge unit
        else
          let t : TransitIn :=
            { job := job, beats := late + 1, net := net, key := inKey, entry := e, cluster := g, edge := edge, unit := unit }
          { s with transitIn := s.transitIn ++ [t] }
    | none => s
  if wOut.getLsbD (lo + 6) then
    if x.transit && transitBusy net (b + late) x.lastOut x.scOut then s
    else
      match s.stripDrives outKey net with
      | (some e, s) =>
        let s := s.setXunit k ((s.xunit k).noteOut net (b + late))
        if late = 0 then s.onLink g net edge e
        else { s with flights := s.flights ++ [{ beats := late + 1, cluster := g, net := net, dir := edge, entry := e }] }
      | (none, s) => s
  else s

/-- One exchange unit in a beat. -/
def State.unitBeat (s : State) (job : BitVec 6) (k L b : Nat) : State :=
  (List.range 3).foldl (fun s net => s.unitNet job k L b net) s

/-! ### The end of a beat in a cluster -/

/-- Results in flight after one more beat: those that land now, and those still under way. -/
def oneBeat (ls : List Landing) : List Landing × List Landing :=
  (ls.map fun p => { p with beats := p.beats - 1 }).partition fun p => p.beats == 0

/-- The pipeline moves one beat: results whose time is up land (R82). In a beat that a wait holds, only the results of
earlier words than the wait's advance (R81, R85). -/
def Cluster.landAll (c : Cluster) : Cluster :=
  if c.frozen then c
  else
    let early := oneBeat (c.pend.take c.older)
    let own := c.pend.drop c.older
    let late := if !c.issued && c.hold != .none then ([], own) else oneBeat own
    let pend := early.2 ++ late.2
    { c.applyAll (early.1 ++ late.1) with
      pend := pend
      older := early.2.length
      drain := pend.foldl (fun n p => max n p.beats) 0 }

/-- A satisfied wait counts a beat (R190). -/
def Cluster.countHold (c : Cluster) : Cluster :=
  if c.issued then c
  else
    match c.hold with
    | .resume n => { c with hold := if n ≤ 1 then .none else .resume (n - 1) }
    | _ => c

/-- A spill counts a beat, from the beat after the HACC's (R180). -/
def Cluster.countStall (c : Cluster) : Cluster :=
  if c.issued then c
  else
    match c.stall with
    | .spill n chs => { c with stall := if n ≤ 1 ∧ !chs then .none else .spill (n - 1) chs }
    | _ => c

/-- Depths of the injection buffers (R129) and the queues (R119). -/
def injDepth (net : Nat) : Nat := if net = 1 then 8 else 4
def queueDepth (q : Nat) : Nat := if q < 4 then 16 else if q < 8 then 32 else 8

/-- The head of an injection buffer is taken. -/
def Cluster.takeInj (c : Cluster) (net : Nat) : Cluster :=
  { c with inj := AMap.set [] c.inj net ((AMap.get [] c.inj net).drop 1) }

/-- Wake messages move from the wake queue while the control buffer has room (R195). -/
def Cluster.moveWakes (c : Cluster) : Cluster :=
  let q := c.wakeQ ++ c.wakeNext
  let b := AMap.get [] c.inj 2
  let room := injDepth 2 - b.length
  let moved := (q.take room).map fun m =>
    ({ entry := { data := m.setWidth 512, poison := false }, wait := 1 } : InjEntry)
  { c with wakeQ := q.drop room, wakeNext := [], inj := AMap.set [] c.inj 2 (b ++ moved) }

/-- Entries of the injection buffers come a beat nearer to being taken (R130). -/
def Cluster.ageInj (c : Cluster) : Cluster :=
  { c with inj := c.inj.map fun (n, b) => (n, b.map fun e => { e with wait := e.wait - 1 }) }

/-- The coupling of a cluster that its spill slot credits (R225, R228): the hash unit takes one of its count for each entry
that it injects. -/
def Cluster.takeCredit (c : Cluster) (cpl : Nat) : Cluster :=
  c.setCoupling cpl { c.coupling cpl with count := (c.coupling cpl).count - 1 }

/-- The hash unit injects its next spill entry where the vector buffer has room and it has a credit of the slot (R228).
DEDUCED (log entry 19): the credited party of R225 being the hash unit, its credits are the count of the slot's credit
coupling. -/
def State.injectSpill (s : State) (g : Nat) : State :=
  let c := s.cluster g
  match c.spillOut with
  | o :: rest =>
    let b := AMap.get [] c.inj 0
    match s.spillSlot g o.win true with
    | some key =>
      let x := s.strip key
      if b.length < injDepth 0 ∧ (c.coupling x.desc.cpl).count ≠ 0#32 then
        (s.setStrip key { x with spillAt := x.spillAt ++ [o.at_] }).setCluster g
          { c.takeCredit x.desc.cpl with
            spillOut := rest
            inj := AMap.set [] c.inj 0 (b ++ [{ entry := { data := o.data, poison := false }, wait := 1 }]) }
      else s
    | none => s
  | [] => s

/-- The injection buffers at the end of a beat (R130, R131, R195). -/
def State.endInj (s : State) (g : Nat) (takes : List Nat) : State :=
  let s := s.modCluster g fun c => takes.foldl (fun c n => c.takeInj n) c
  let s := (List.range 3).foldl (fun s net =>
    let b := AMap.get [] (s.cluster g).inj net
    let extra := b.length - injDepth net
    if extra = 0 then s
    else
      let s := s.modCluster g fun c => { c with inj := AMap.set [] c.inj net (b.take (injDepth net)) }
      (List.range extra).foldl (fun s _ => s.drop g 0x02 0xF none) s) s
  (s.injectSpill g).modCluster g fun c => c.moveWakes.ageInj

/-- The queues whose poisoned heads a peek consumed and no operand took (R464). -/
def Cluster.peeked (c : Cluster) : List Nat :=
  (c.consumed.filter fun n => decide (16 ≤ n) && !c.consumed.contains (n - 16)).map (· - 16)

/-- The heads that the beat's instruction consumed leave their queues (R114, R132, R465). -/
def State.popQueues (s : State) (g : Nat) : State :=
  let c := s.cluster g
  let s := if c.peeked.isEmpty then s else s.modCluster g fun c => { c with tasted := c.peeked }
  (c.consumed.filter (· < 16)).foldl (fun s q =>
    let x := (s.cluster g).queue q
    match x.entries with
    | e :: rest =>
      let s := s.modCluster g fun c => c.setQueue q { x with entries := rest, consumed := x.consumed + 1 }
      if e.poison && !c.consumed.contains (q + 16) then s.bump Reg.EVT_POISON 16 16 1 else s
    | [] => s) s

/-- Entries are delivered into queues, or dropped where a queue is full (R128, R132, R133). -/
def State.deliver (s : State) (g : Nat) (es : List (Nat × Entry)) : State :=
  es.foldl (fun s (q, e) =>
    let x := (s.cluster g).queue q
    if x.entries.length ≥ queueDepth q then s.drop g 0x01 q none
    else s.modCluster g fun c =>
      c.setQueue q { x with entries := x.entries ++ [e], arrivals := x.arrivals + 1 }) s

/-- The repeat stack and the program counter after an instruction (R107, R108). -/
def advancePc (pc : Nat) : List RepFrame → List RepFrame × Nat
  | [] => ([], pc + 1)
  | f :: fs =>
    if pc = f.last then
      if f.idx + 1 < f.count then ({ f with idx := f.idx + 1 } :: fs, f.first) else advancePc pc fs
    else (f :: fs, pc + 1)

/-- The sequencer after its beat: executed beats, the next word, END; the beat's record is cleared (R81,
R106, R107). -/
def Cluster.advance (c : Cluster) : Cluster :=
  let c := c.countStall
  let c :=
    if c.issued then
      let (rep, pc) := match c.nextRep with
        | some f => (f :: c.rep, c.pc + 1)
        | none => advancePc c.pc c.rep
      { c with
        rep := rep
        pc := pc
        execBeat := c.execBeat + 1
        parked := c.parked || c.ending
        ended := c.ended || c.ending }
    else c
  { c with issued := false, nextRep := none, ending := false, consumed := [], sig := none }

/-- The wake lines of a cluster pulse in this beat (R194, R196). -/
def State.pulse (s : State) (g : Nat) (ds : List (BitVec 2)) : State :=
  let s := s.modCluster g fun c => { c with pulseNext := [] }
  ds.foldl (fun s d => match innerNeighbour g d.toNat with
    | some h => s.wakeCluster h
    | none => s) s

/-- The end of a beat in one cluster, up to its coupling unit. -/
def State.clusterEnd (s : State) (g : Nat) (r : Routed) : State :=
  let s := r.lost.foldl (fun s _ => s.drop g 0x04 0xF none) s
  let s := s.endInj g r.takes
  let s := ((s.popQueues g).hashTake g).deliver g r.queues
  s.modCluster g fun c => c.landAll.countHold

/-- The coupling unit of one cluster in a beat. -/
def State.clusterCpl (s : State) (g : Nat) (r : Routed) (index ms : Nat) : State :=
  let c := s.cluster g
  let msg := r.cpl.map fun e => (e.data.setWidth 16, c.origins.getD index 0#20)
  (s.cplBeat g ms c.sig msg).modCluster g Cluster.wakeWaiters

/-! ### The beat -/

/-- The clusters of a job that the state lists. -/
def State.jobClusters (s : State) (j : Job) : List Nat :=
  (s.clusters.filter fun p => j.covers (gidDie p.1)).map (·.1)

/-- The exchange units of a job that have a schedule. -/
def State.jobUnits (s : State) (j : Job) : List Nat :=
  (s.xunits.filter fun p => j.covers (p.1 / 128) && p.2.used).map (·.1)

/-- A cluster as it stands at the end of a job beat. -/
def State.shotOf (s : State) (j : Job) (g b : Nat) : Shot where
  c := s.cluster g
  beat := b
  ridx := b % max j.schedLen 1
  len := j.schedLen
  ms := j.cycleMs (b + j.skipped + 1)

/-- The pending captures that a job beat serves are taken at its end: a fabric view of a die of the job, at its target
where that had not passed (R155, R156), and the sync-object view of a cluster of the job, if the requesting function
sees it (R210). -/
def State.shoot (s : State) (slot : Nat) (j : Job) (b : Nat) : State :=
  let view (die : Nat) : FabView := AMap.get {} s.fabViews die
  let due (die : Nat) : Bool := j.covers die && s.field (Reg.FAB_VIEW_STATUS die) 0 1 == 1 && (view die).shot.isNone &&
    (view die).target.all fun t => decide (t ≤ b)
  let views := ((List.range 64).filter due).foldl (fun m die =>
    AMap.set {} m die { view die with shot := some (s.shotOf j (die * 1024 + (view die).cluster) b) }) s.fabViews
  let d := s.dbgView
  let mine := s.field Reg.DBG_STATUS 0 1 == 1 && d.shot.isNone && j.covers (gidDie d.cluster) && s.mayUse s.dbgFn slot
  { s with
    fabViews := views
    dbgView := if mine then { d with shot := some (s.shotOf j d.cluster b) } else d }

/-- One job beat (R81, R122-R137, R189-R196), the job running. -/
def State.beat (s : State) (slot : Nat) : State :=
  let j := s.job slot
  let b := j.beat
  let L := max j.schedLen 1
  let s := (s.jobClusters j).foldl (fun s g => s.issueWord g) s
  let gs := s.jobClusters j
  let routed := gs.map fun g => (g, (s.cluster g).route ((s.cluster g).routes.getD (b % L) 0#128))
  let pulses := gs.map fun g => (g, (s.cluster g).pulseNext)
  let s := routed.foldl (fun s (g, r) => s.clusterEnd g r) s
  let s := pulses.foldl (fun s (g, ds) => s.pulse g ds) s
  let s := routed.foldl (fun s (g, r) => s.clusterCpl g r (b % L) (j.cycleMs (b + j.skipped + 1))) s
  let s := gs.foldl (fun s g => s.modCluster g fun c => { c.advance with links := [] }) s
  let units := s.jobUnits j
  let s := units.foldl (fun s k => s.unitBeat (BitVec.ofNat 6 slot) k L b) s
  let s := s.transitMove slot
  let s := s.fly j
  let s := routed.foldl (fun s (g, r) => r.links.foldl (fun s (net, d, e) => s.driveLink g net d e) s) s
  let s := s.shoot slot j b
  s.modJob slot fun j => { j with beat := b + 1 }

/-- The withheld beats of R375. -/
def withheldCycle (i k : Nat) : Bool := (i + 1) * k / 64 != i * k / 64

/-- The withheld count that a window applies (R375): the last one sent 100 ns before it begins, by the standby clock. -/
def Power.kAt (p : Power) (up : Nat) : Nat :=
  match p.kSent.find? fun x => decide (x.1 + 100 ≤ up) with
  | some x => x.2
  | none => 0

/-- The withheld count that a slot's next window applies: it begins at its cycle's time, which may have passed. -/
def State.windowK (s : State) (slot : Nat) : Nat :=
  let j := s.job slot
  let begins := j.cycleMs (j.beat + j.skipped)
  s.power.kAt (s.up + begins - s.ms)

/-- The window of 64 cycles at its first cycle takes its withheld count. -/
def State.openWindow (s : State) (slot : Nat) : State :=
  let j := s.job slot
  if j.winPos = 0 then s.setJob slot { j with k := s.windowK slot } else s

/-- A cycle passes without a job beat: a swap's (R207) or one that Drag withholds (R376). Transit channels go on: what
they carry to a strip comes a beat nearer. DESIGN CHOICE (log entry 116): none of the 8 cycles of a swap counts in Drag's
skip statistics, one that Drag withholds among them neither. -/
def State.passCycle (s : State) (slot : Nat) : State :=
  let j := s.job slot
  let swap := j.swapLeft != 0
  let s := s.setJob slot { j with
    winPos := (j.winPos + 1) % 64
    skipped := j.skipped + 1
    swapLeft := j.swapLeft - 1
    withheld := if swap then j.withheld else j.withheld + 1 }
  (s.transitMove slot).advanceTo (j.cycleMs (j.beat + j.skipped + 1))

/-- Is the coming cycle without a job beat? -/
def Job.withholds (j : Job) : Bool := j.swapLeft != 0 || withheldCycle j.winPos j.k

/-- The cycles without a job beat pass; none where fuel runs out, the rectangle standing still. -/
def State.passAll (s : State) (slot : Nat) : Nat → Option State
  | 0 => none
  | n + 1 =>
    let s := s.openWindow slot
    if (s.job slot).withholds then State.passAll (s.passCycle slot) slot n else some s

/-- Has every cluster of a job reached END (R106, R292)? -/
def State.allParked (s : State) (j : Job) : Bool := (s.jobClusters j).all fun g => (s.cluster g).parked

/-- JOB_BEAT (R122, R292, R294, R296): the next job beat of a running job, after the cycles that a swap or Drag
withholds; faults of the beat stop the job at its end, and a stop accepted 4 µs ago takes effect. Once every cluster has reached END
the job is Stopping, with the routers running on; a stop that waits then takes effect in that beat. -/
def State.jobBeat (s : State) (slot : Nat) : State :=
  if (s.job slot).beating then
    match s.passAll slot 200 with
    | some s =>
      let j := s.job slot
      let s := s.advanceTo (j.cycleMs (j.beat + j.skipped))
      let s := s.beat slot
      let s := s.modJob slot fun j => { j with winPos := (j.winPos + 1) % 64 }
      let s := s.faultsAtBeatEnd slot
      let j := s.job slot
      let ended := s.allParked j
      if j.st = .running ∧ j.stopAt.isSome ∧ (s.ms ≥ j.acceptMs + 4000 ∨ ended) then ((s.stopNow slot).closeSent slot).settleDone
      else if j.st = .running ∧ ended then s.setJob slot { j with st := .stopping }
      else s
    | none => s
  else s

/-- WITHHELD_BEAT (R376): the coming cycle, where it is withheld. -/
def State.withheldBeat (s : State) (slot : Nat) : State :=
  if (s.job slot).beating then
    let t := s.openWindow slot
    if (t.job slot).withholds then t.passCycle slot else s
  else s

/-! ### Crossings (R140-R142, R157) -/

/-- The current drift of a crossing is kept with its minimum and maximum (R157). -/
def State.setDrift (s : State) (die e : Nat) (d : BitVec 8) : State :=
  let r := Reg.FAB_XING_DRIFT die e
  let v := s.reg r
  let lo := v.extractLsb' 8 8
  let hi := v.extractLsb' 16 8
  s.setReg r (0#8 ++ (if hi.slt d then d else hi) ++ (if d.slt lo then d else lo) ++ d)

/-- An event of class crossing (R142, R453): both dies and edges, the drift. -/
def State.crossingEvent (s : State) (die e cause : Nat) : EventRec :=
  let other := (dieNeighbour die e).getD die
  let d := (s.reg (Reg.FAB_XING_DRIFT die e)).extractLsb' 0 8
  { s.eventOf (die * 1024) 0x05 cause with
    p0 := BitVec.ofNat 32 (die + 2 ^ 6 * e + 2 ^ 8 * other + 2 ^ 14 * opposite e)
    p1 := d.signExtend 64 }

/-- A crossing fault (R141): both edges go down, what is on the crossing is gone, and every job on both sides
or with a transit route through it stops. -/
def State.crossingFault (s : State) (die e cause : Nat) : State :=
  match dieNeighbour die e with
  | none => s
  | some dst =>
    let mode := s.edgeMode die e
    if mode = 3 ∨ mode = 0 then s
    else
      let down (s : State) (d e : Nat) : State :=
        let r := Reg.FAB_XING_STATUS d e
        ((s.setField r 0 2 3).setField r 3 1 1).setField r 4 4 cause
      let ev := s.crossingEvent die e cause
      let s := down (down s die e) dst (opposite e)
      let s := { s with flights := s.flights.filter fun f =>
        !(gidDie f.cluster = dst && f.dir = opposite e) && !(gidDie f.cluster = die && f.dir = e) }
      let through (k : Nat) : Bool := s.transit.any fun t =>
        t.job.toNat == k && (t.hops.contains (die, e) || t.hops.contains (dst, opposite e))
      let hit := (List.range 64).filter fun k =>
        (s.job k).held && (((s.job k).covers die && (s.job k).covers dst) || through k)
      if hit.isEmpty then s.logEvent ev
      else s.slotFaults hit fun k => { ev with beat := BitVec.ofNat 64 (s.job k).beat }

/-- A new drift of a crossing (R140, R142): below 32 it is kept alone, every rise to 32 or above is counted; at 64 the
crossing stops, short of it the rise is logged at most once for a crossing in a Tollgate period. -/
def State.drifts (s : State) (die e : Nat) (d : BitVec 8) : State :=
  let mag := d.toInt.natAbs
  let was := ((s.reg (Reg.FAB_XING_DRIFT die e)).extractLsb' 0 8).toInt.natAbs
  if s.edgeMode die e = 0 ∨ s.edgeMode die e = 3 then s
  else
    let s := s.setDrift die e d
    let rises := mag ≥ 32 ∧ was < 32
    let s := if rises then s.bump (Reg.FAB_XING_COUNT die e) 0 16 1 else s
    if mag ≥ 64 then s.crossingFault die e 1
    else if ¬ rises then s
    else
      let beyond := (dieNeighbour die e).getD die
      if (s.die die).warned.contains e || (s.die beyond).warned.contains (opposite e) then s
      else (s.modDie die fun x => { x with warned := x.warned ++ [e] }).logEvent (s.crossingEvent die e 4)

/-- DRIFT_WARNING (R140): the drift that a receiving buffer reports. -/
def State.driftWarning (s : State) (die e : Nat) (d : BitVec 8) : State := s.drifts die e d

/-- DRIFT_LIMIT (R140): the drift that a receiving buffer reports. -/
def State.driftLimit (s : State) (die e : Nat) (d : BitVec 8) : State := s.drifts die e d

/-- LANE_LOSS (R142): a lane that a spare serves carries nothing, so its loss is none of the crossing. -/
def State.laneLoss (s : State) (die e lane : Nat) : State :=
  let beyond := (dieNeighbour die e).getD die
  if ((s.die die).lanePairs e ++ (s.die beyond).lanePairs (opposite e)).any fun p => p.1 == lane then s
  else s.crossingFault die e 3

/-- BEAT_CHECK_ERROR (R142, R157). -/
def State.beatCheck (s : State) (die e : Nat) : State :=
  if s.edgeMode die e = 0 ∨ s.edgeMode die e = 3 then s
  else (s.bump (Reg.FAB_XING_COUNT die e) 16 16 1).crossingFault die e 2

/-- JOB_BEAT (R122). -/
def execJobBeat (slot : BitVec 6) (s : State) : Answer := .next (s.traced (s.jobBeat slot.toNat))
/-- WITHHELD_BEAT (R376). -/
def execWithheldBeat (slot : BitVec 6) (s : State) : Answer := .next (s.traced (s.withheldBeat slot.toNat))
/-- DRIFT_WARNING (R140). -/
def execDriftWarning (die : BitVec 6) (edge : BitVec 2) (drift : BitVec 8) (s : State) : Answer :=
  .next (s.driftWarning die.toNat edge.toNat drift)
/-- DRIFT_LIMIT (R140). -/
def execDriftLimit (die : BitVec 6) (edge : BitVec 2) (drift : BitVec 8) (s : State) : Answer :=
  .next (s.driftLimit die.toNat edge.toNat drift)
/-- BEAT_CHECK_ERROR (R142). -/
def execBeatCheckError (die : BitVec 6) (edge : BitVec 2) (s : State) : Answer :=
  .next (s.beatCheck die.toNat edge.toNat)
/-- LANE_LOSS (R142). -/
def execLaneLoss (die : BitVec 6) (edge : BitVec 2) (lane : BitVec 14) (s : State) : Answer :=
  .next (s.laneLoss die.toNat edge.toNat lane.toNat)

end Sys2Proof.Machine
end

