-- ==== Sys2Proof/Machine/Crypto.lean ====
section
/-! DEFINITION. SHA-384, SHA-512 (FIPS 180-4) and the verification of Ed25519 signatures (RFC 8032), which the manual
names for firmware banks, licences, management commands and the debug port (00 R3, 16 R425, R428, 19 R480, R497). -/

namespace Sys2Proof.Machine

/-! ### SHA-512 and SHA-384 -/

/-- The round constants. -/
def shaK : List (BitVec 64) :=
  [0x428A2F98D728AE22#64, 0x7137449123EF65CD#64, 0xB5C0FBCFEC4D3B2F#64, 0xE9B5DBA58189DBBC#64,
   0x3956C25BF348B538#64, 0x59F111F1B605D019#64, 0x923F82A4AF194F9B#64, 0xAB1C5ED5DA6D8118#64,
   0xD807AA98A3030242#64, 0x12835B0145706FBE#64, 0x243185BE4EE4B28C#64, 0x550C7DC3D5FFB4E2#64,
   0x72BE5D74F27B896F#64, 0x80DEB1FE3B1696B1#64, 0x9BDC06A725C71235#64, 0xC19BF174CF692694#64] ++
  [0xE49B69C19EF14AD2#64, 0xEFBE4786384F25E3#64, 0x0FC19DC68B8CD5B5#64, 0x240CA1CC77AC9C65#64,
   0x2DE92C6F592B0275#64, 0x4A7484AA6EA6E483#64, 0x5CB0A9DCBD41FBD4#64, 0x76F988DA831153B5#64,
   0x983E5152EE66DFAB#64, 0xA831C66D2DB43210#64, 0xB00327C898FB213F#64, 0xBF597FC7BEEF0EE4#64,
   0xC6E00BF33DA88FC2#64, 0xD5A79147930AA725#64, 0x06CA6351E003826F#64, 0x142929670A0E6E70#64] ++
  [0x27B70A8546D22FFC#64, 0x2E1B21385C26C926#64, 0x4D2C6DFC5AC42AED#64, 0x53380D139D95B3DF#64,
   0x650A73548BAF63DE#64, 0x766A0ABB3C77B2A8#64, 0x81C2C92E47EDAEE6#64, 0x92722C851482353B#64,
   0xA2BFE8A14CF10364#64, 0xA81A664BBC423001#64, 0xC24B8B70D0F89791#64, 0xC76C51A30654BE30#64,
   0xD192E819D6EF5218#64, 0xD69906245565A910#64, 0xF40E35855771202A#64, 0x106AA07032BBD1B8#64] ++
  [0x19A4C116B8D2D0C8#64, 0x1E376C085141AB53#64, 0x2748774CDF8EEB99#64, 0x34B0BCB5E19B48A8#64,
   0x391C0CB3C5C95A63#64, 0x4ED8AA4AE3418ACB#64, 0x5B9CCA4F7763E373#64, 0x682E6FF3D6B2B8A3#64,
   0x748F82EE5DEFB2FC#64, 0x78A5636F43172F60#64, 0x84C87814A1F0AB72#64, 0x8CC702081A6439EC#64,
   0x90BEFFFA23631E28#64, 0xA4506CEBDE82BDE9#64, 0xBEF9A3F7B2C67915#64, 0xC67178F2E372532B#64] ++
  [0xCA273ECEEA26619C#64, 0xD186B8C721C0C207#64, 0xEADA7DD6CDE0EB1E#64, 0xF57D4F7FEE6ED178#64,
   0x06F067AA72176FBA#64, 0x0A637DC5A2C898A6#64, 0x113F9804BEF90DAE#64, 0x1B710B35131C471B#64,
   0x28DB77F523047D84#64, 0x32CAAB7B40C72493#64, 0x3C9EBE0A15C9BEBC#64, 0x431D67C49C100D4C#64,
   0x4CC5D4BECB3E42B6#64, 0x597F299CFC657E2A#64, 0x5FCB6FAB3AD6FAEC#64, 0x6C44198C4A475817#64]

/-- The eight working words. -/
structure Sha where
  a : BitVec 64
  b : BitVec 64
  c : BitVec 64
  d : BitVec 64
  e : BitVec 64
  f : BitVec 64
  g : BitVec 64
  h : BitVec 64
  deriving DecidableEq, Repr

/-- The initial hash values. -/
def sha512Init : Sha :=
  ⟨0x6A09E667F3BCC908#64, 0xBB67AE8584CAA73B#64, 0x3C6EF372FE94F82B#64, 0xA54FF53A5F1D36F1#64,
   0x510E527FADE682D1#64, 0x9B05688C2B3E6C1F#64, 0x1F83D9ABFB41BD6B#64, 0x5BE0CD19137E2179#64⟩
def sha384Init : Sha :=
  ⟨0xCBBB9D5DC1059ED8#64, 0x629A292A367CD507#64, 0x9159015A3070DD17#64, 0x152FECD8F70E5939#64,
   0x67332667FFC00B31#64, 0x8EB44A8768581511#64, 0xDB0C2E0D64F98FA7#64, 0x47B5481DBEFA4FA4#64⟩

/-- The four sums of FIPS 180-4: two rotations and a third rotation, or a shift in the message schedule. -/
def shaSum (x : BitVec 64) (i j k : Nat) : BitVec 64 := x.rotateRight i ^^^ x.rotateRight j ^^^ x.rotateRight k
def shaSigma (x : BitVec 64) (i j k : Nat) : BitVec 64 := x.rotateRight i ^^^ x.rotateRight j ^^^ (x >>> k)

/-- The message schedule, latest word first, extended by n words. -/
def shaExtend (w : List (BitVec 64)) : Nat → List (BitVec 64)
  | 0 => w
  | n + 1 =>
    let x := shaSigma (w.getD 1 0) 19 61 6 + w.getD 6 0 + shaSigma (w.getD 14 0) 1 8 7 + w.getD 15 0
    shaExtend (x :: w) n

/-- One round with its constant and schedule word. -/
def Sha.round (s : Sha) (k w : BitVec 64) : Sha :=
  let t1 := s.h + shaSum s.e 14 18 41 + ((s.e &&& s.f) ^^^ (~~~s.e &&& s.g)) + k + w
  let t2 := shaSum s.a 28 34 39 + ((s.a &&& s.b) ^^^ (s.a &&& s.c) ^^^ (s.b &&& s.c))
  ⟨t1 + t2, s.a, s.b, s.c, s.d + t1, s.e, s.f, s.g⟩

/-- One block of sixteen words. -/
def Sha.block (s : Sha) (ws : List (BitVec 64)) : Sha :=
  let t := (shaK.zip (shaExtend ws.reverse 64).reverse).foldl (fun t p => t.round p.1 p.2) s
  ⟨s.a + t.a, s.b + t.b, s.c + t.c, s.d + t.d, s.e + t.e, s.f + t.f, s.g + t.g, s.h + t.h⟩

/-- A number as n bytes, most significant first. -/
def beBytes (v n : Nat) : List Byte := (natLe v n).reverse

/-- The padded message. -/
def shaPad (m : List Byte) : List Byte :=
  m ++ 0x80#8 :: List.replicate ((239 - m.length % 128) % 128) 0 ++ beBytes (8 * m.length) 16

/-- The words of a padded message. -/
def shaWords (m : List Byte) : List (BitVec 64) :=
  (List.range (m.length / 8)).map fun i => BitVec.ofNat 64 (leNat ((m.drop (8 * i)).take 8).reverse)

/-- The hash of a message from initial values, as 64 bytes. -/
def shaHash (init : Sha) (m : List Byte) : List Byte :=
  let ws := shaWords (shaPad m)
  let s := (List.range (ws.length / 16)).foldl (fun s i => s.block ((ws.drop (16 * i)).take 16)) init
  [s.a, s.b, s.c, s.d, s.e, s.f, s.g, s.h].flatMap fun w => beBytes w.toNat 8

def sha512 (m : List Byte) : List Byte := shaHash sha512Init m

/-- SHA-384: its first byte is the least significant of the number. -/
def sha384 (m : List Byte) : BitVec 384 := BitVec.ofNat 384 (leNat ((shaHash sha384Init m).take 48))

/-! ### Ed25519 -/

/-- The prime of the field, the curve constant, the order of the base point. -/
def edP : Nat := 2 ^ 255 - 19
def edD : Nat := 37095705934669439343138083508754565189542113879843219016388785533085940283555
def edL : Nat := 2 ^ 252 + 27742317777372353535851937790883648493

/-- The bits of a number below 2 ^ 256, highest first. -/
def bitsDown (v : Nat) : List Bool := (List.range 256).reverse.map fun i => v.testBit i

/-- A power in the field. -/
def edPow (b e : Nat) : Nat := (bitsDown e).foldl (fun acc t => if t then acc * acc * b % edP else acc * acc % edP) 1

def edSub (a b : Nat) : Nat := (a + (edP - b % edP)) % edP

/-- A point of the curve in extended coordinates: x = X / Z, y = Y / Z, xy = T / Z. -/
structure EdPoint where
  x : Nat
  y : Nat
  z : Nat
  t : Nat
  deriving DecidableEq, Repr

def EdPoint.zero : EdPoint := ⟨0, 1, 1, 0⟩

/-- The base point. -/
def EdPoint.base : EdPoint :=
  let x := 15112221349535400772501151409588531511454012693041857206046113283949847762202
  let y := 46316835694926478169428394003475163141307993866256225615783033603165251855960
  ⟨x, y, 1, x * y % edP⟩

/-- Addition (RFC 8032, 5.1.4). -/
def EdPoint.add (p q : EdPoint) : EdPoint :=
  let a := edSub p.y p.x * edSub q.y q.x % edP
  let b := (p.y + p.x) * (q.y + q.x) % edP
  let c := p.t * 2 * edD * q.t % edP
  let d := p.z * 2 * q.z % edP
  let e := edSub b a
  let f := edSub d c
  let g := (d + c) % edP
  let h := (b + a) % edP
  ⟨e * f % edP, g * h % edP, f * g % edP, e * h % edP⟩

/-- A multiple of a point. -/
def EdPoint.mul (p : EdPoint) (n : Nat) : EdPoint :=
  (bitsDown n).foldl (fun acc t => if t then (acc.add acc).add p else acc.add acc) EdPoint.zero

/-- Do two triples of coordinates name one point? -/
def EdPoint.same (p q : EdPoint) : Bool :=
  p.x * q.z % edP == q.x * p.z % edP && p.y * q.z % edP == q.y * p.z % edP

/-- The point of an encoding (RFC 8032, 5.1.3), if it has one. -/
def edDecode (v : Nat) : Option EdPoint :=
  let y := v % 2 ^ 255
  let odd := v / 2 ^ 255 % 2
  if y ≥ edP then none
  else
    let u := edSub (y * y) 1
    let w := (edD * (y * y) + 1) % edP
    let x := u * edPow w 3 * edPow (u * edPow w 7) ((edP - 5) / 8) % edP
    let root :=
      if w * (x * x) % edP = u then some x
      else if w * (x * x) % edP = edSub 0 u then some (x * edPow 2 ((edP - 1) / 4) % edP)
      else none
    match root with
    | none => none
    | some x =>
      if x = 0 ∧ odd = 1 then none
      else
        let x := if x % 2 = odd then x else edP - x
        some ⟨x, y, 1, x * y % edP⟩

/-- Is a signature of a message good under a public key (RFC 8032, 5.1.7: the equation multiplied by 8)? Key and signature
are little-endian numbers of their bytes. -/
def ed25519 (key : BitVec 256) (msg : List Byte) (sig : BitVec 512) : Bool :=
  let r := sig.toNat % 2 ^ 256
  let sc := sig.toNat / 2 ^ 256
  match edDecode key.toNat, edDecode r with
  | some a, some rp =>
    let k := leNat (sha512 (natLe r 32 ++ natLe key.toNat 32 ++ msg)) % edL
    decide (sc < edL) && ((EdPoint.base.mul sc).mul 8).same ((rp.add (a.mul k)).mul 8)
  | _, _ => false

end Sys2Proof.Machine
end

