-- ==== Sys2Proof/Machine/HostRings.lean ====
section
/-! DEFINITION. Rings, doorbells, descriptors, admin commands, functions and host ports (08 R248-R272). -/

namespace Sys2Proof.Machine

/-! ### Rings of functions (R259) -/

/-- The global ring of a function's local ring. -/
def State.globalRing (s : State) (fn loc : Nat) : Nat :=
  if fn = 0 then loc else 64 * (s.fn fn).groupFirst + loc

/-- The rings in a function's range (R255). -/
def State.ringCount (s : State) (fn : Nat) : Nat := s.fnField fn Reg.HIF_FN_INFO 16 16 + 1

/-- The doorbell area of a function (R256). -/
def State.dbBase (s : State) (fn : Nat) : Nat :=
  (s.fnReg fn Reg.HIF_DB_BASE_LO).toNat + 2 ^ 32 * (s.fnReg fn Reg.HIF_DB_BASE_HI).toNat

/-- The port through which a function's doorbell area is read. -/
def State.dbPort (s : State) (fn : Nat) : Bool := s.fnField fn Reg.HIF_FN_CTRL 2 1 == 1

/-- Jobs forget the descriptors of a ring that will write no completion for them (R265, R271, R272). -/
def State.dropRefs (s : State) (rn : Nat) : State :=
  let keep (o : Option DescRef) : Option DescRef := o.filter fun r => r.ring.toNat != rn
  { s with jobs := s.jobs.map fun (k, j) => (k, { j with
      loadRef := keep j.loadRef
      liveRef := keep j.liveRef
      dead := j.dead.filter fun d => d.1.ring.toNat != rn
      startRef := keep j.startRef
      unloadRef := keep j.unloadRef
      stopRefs := j.stopRefs.filter fun r => r.ring.toNat != rn
      dmas := j.dmas.filter fun r => r.ring.toNat != rn }) }

/-- A doorbell error (R270): run cleared, vector 0 on the other port, host cause 0x04. -/
def State.doorbellError (s : State) (fn : Nat) (evidence : Bool := false) : State :=
  let port := s.dbPort fn
  let s := s.setFnField fn Reg.HIF_FN_CTRL 0 1 0
  let s := (s.setFnField fn Reg.HIF_STATUS 0 1 0).setFnField fn Reg.HIF_STATUS 1 1 1
  let s := if s.hostPortUp (!port) then s.signalVector (!port) fn 0 else s
  s.logMarked evidence (srcHostPort port) 0x0B 0x04 (2 ^ 16 * fn) 0 0

/-- A ring error (R270): the ring stops; registers, doorbell area, vector 0, event of the code. -/
def State.ringError (s : State) (rn code : Nat) (evidence : Bool := false) : State :=
  let r := s.ring rn
  let fn := r.fn.toNat
  let s := s.setRing rn { r with stopped := true }
  let s := (s.setFnField fn Reg.HIF_STATUS 2 1 1).fnBump fn Reg.HIF_ERR_COUNT 16 16 1
  let s := if s.fnField fn Reg.HIF_RING_ERR 31 1 = 0 then
      s.setFnReg fn Reg.HIF_RING_ERR (BitVec.ofNat 32 (r.loc.toNat + 2 ^ 16 * code + 2 ^ 31))
    else s
  let n := (s.fn fn).errCount + 1
  let s := s.setFn fn { s.fn fn with errCount := n }
  let base := s.dbBase fn
  let s := if s.hostPortUp (s.dbPort fn) then
      let m := writeLe s.hostMem (base + 200) 2 r.loc.toNat
      let m := writeLe m (base + 202) 2 code
      let m := writeLe m (base + 204) 4 n.toNat
      { s with hostMem := writeLe m (base + 208) 8 s.ms }
    else s
  (s.signalZero fn).logMarked evidence (srcHostPort r.port) 0x0B code (r.loc.toNat + 2 ^ 16 * fn) 0 0

/-! ### Polling (R256-R258) -/

/-- The producer index of a ring is read (R258). -/
def State.pollRing (s : State) (base rn : Nat) : State :=
  let r := s.ring rn
  let pi := readLe s.hostMem (base + 4096 + 4 * r.loc.toNat) 4
  let avail := (pi + 2 ^ 32 - r.ci % 2 ^ 32) % 2 ^ 32
  if avail > 2 ^ r.log2 then s.ringError rn 0x01 else s.setRing rn { r with piSeen := pi }

/-- One word of a function's group map (R258): swapped with 0, or every created group in scan mode. -/
def State.pollWord (s : State) (fn base w : Nat) : State :=
  let scan := s.fnField fn Reg.HIF_FN_CTRL 1 1 == 1
  let a := base + 64 + 8 * w
  let bits := readLe s.hostMem a 8
  let s := if scan then s else { s with hostMem := writeLe s.hostMem a 8 0 }
  let mine := (s.ringsWhere fun r => r.fn.toNat == fn &&
    decide (r.loc.toNat / 4096 = w) && (scan || bitAt bits (r.loc.toNat / 64 % 64)))
  mine.foldl (fun s rn => s.pollRing base rn) s

/-- poll_function of R258; the read or Swap of group-map word `fails` fails (R270). -/
def State.pollFunction (s : State) (fn : Nat) (fails : Option Nat) : State :=
  let base := s.dbBase fn
  let g := readLe s.hostMem base 8
  if g = (s.fn fn).seenGen.toNat then s
  else
    let words := ((s.ringCount fn + 63) / 64 + 63) / 64
    let bad := fails.filter fun w => decide (w < words)
    let s := (List.range (bad.getD words)).foldl (fun s w => s.pollWord fn base w) s
    if bad.isSome then s.doorbellError fn
    else
      let s := s.setFn fn { s.fn fn with seenGen := BitVec.ofNat 64 g }
      { s with hostMem := writeLe s.hostMem (base + 192) 8 g }

/-- HIF_POLL_INTERVAL in ns. -/
def State.pollInterval (s : State) : Nat := 250 * s.field Reg.HIF_POLL_INTERVAL 0 12

/-- POLL_CYCLE (R258, R270): at its time, every running function; a failed read is a doorbell error. An entry of `fails`
names a function and the access that fails: 0 the read of gen, w + 1 the read or Swap of group-map word w. -/
def State.pollCycle (s : State) (fails : List (BitVec 6 × BitVec 6)) : State :=
  let s := s.advanceTo s.pollDue
  let s := { s with pollDue := s.ms + s.pollInterval }
  (List.range 64).foldl (fun s fn =>
    let fail := (fails.find? fun p => p.1.toNat == fn).map fun p => p.2.toNat
    if s.fnField fn Reg.HIF_FN_CTRL 0 1 = 0 then s
    else if fail == some 0 || !s.hostPortUp (s.dbPort fn) then s.doorbellError fn
    else s.pollFunction fn (fail.map (· - 1))) s

/-! ### Descriptors (R260, R261, R264, R265) -/

/-- The follower of a pair that holds 4,096 completions of a function stops fetching on its paired rings
(R343). -/
def State.fetchHeld (s : State) (rn : Nat) : Bool :=
  s.pairedRing rn && s.pairFollows &&
    decide ((s.pair.held.filter fun h => h.fn == (s.ring rn).fn).length ≥ 4096)

/-- DESCRIPTOR_FETCH (R258, R261): the next descriptor of a ring whose function runs. A failed read is ring error
0x02. -/
def State.descriptorFetch (s : State) (rn : Nat) (good : Bool) : State :=
  let r := s.ring rn
  if !r.used || r.stopped || r.destroyRef.isSome || r.ci % 2 ^ 32 == r.piSeen || decide (r.descs.length ≥ 256)
      || s.fetchHeld rn || s.fnField r.fn.toNat Reg.HIF_FN_CTRL 0 1 == 0 then s
  else if !good then s.ringError rn 0x02
  else
    let raw := readLe s.hostMem (r.descBase.toNat + 64 * (r.ci % 2 ^ r.log2)) 64
    let d : Desc := { idx := r.ci, raw := BitVec.ofNat 512 raw, phase := .fetched }
    (s.setRing rn { r with ci := r.ci + 1, descs := r.descs ++ [d] }).settleRing rn

/-- The lowest offset of a list of tests that fails. -/
def firstBad : List (Nat × Bool) → Option Nat
  | [] => none
  | (o, bad) :: rest =>
    match firstBad rest with
    | none => if bad then some o else none
    | some p => if bad then some (min o p) else some p

/-- The bytes that a body table names, by opcode: offset and size (R265, R266, R268). DESIGN CHOICE (log entry 171): bytes
16 to 63 of a NOP, to which no table gives a layout, must be 0, as the bytes behind the named fields of a DMA or a job
command must. -/
def bodyBytes (op : Nat) : List (Nat × Nat) :=
  match op with
  | 0x00 => []
  | 0x01 => [(16, 8), (24, 16)]
  | 0x02 => [(16, 2)]
  | 0x03 => [(16, 2), (20, 16)]
  | 0x04 => [(16, 8)]
  | 0x10 => [(16, 5), (24, 14), (40, 8)]
  | 0x20 => [(16, 21), (38, 2)]
  | 0x21 => [(16, 21), (38, 2)]
  | _ => [(16, 2)]

/-- Tests of the reserved bits and bytes of a descriptor (R260, R265); of those behind the fields of a DMA or a job command
by log entry 171 (DESIGN CHOICE). -/
def Desc.reservedTests (d : Desc) : List (Nat × Bool) :=
  (1, decide (d.num 1 1 ≥ 4)) ::
    ((List.range 62).map (· + 2)).map fun o =>
      let named := decide (8 ≤ o) && decide (o < 16) ||
        (bodyBytes d.opcode).any fun (a, n) => decide (a ≤ o) && decide (o < a + n)
      (o, !named && d.num o 1 != 0)

/-- Is a tag that of an unloaded job whose JOB_UNLOAD has not retired (R275)? -/
def Job.late (j : Job) (tag : Nat) : Bool := j.dead.any fun d => d.2.toNat == tag

/-- Is a tag current (R275)? -/
def Job.current (j : Job) (tag : Nat) : Bool :=
  j.late tag || (j.st != .free && j.st != .loading && j.liveRef.isNone && j.tag.toNat == tag)

/-- The state of the job that a current tag names: one that is unloaded but for the retirement of its JOB_UNLOAD is in
Unloading (R275, R292). -/
def Job.stateOf (j : Job) (tag : Nat) : JobState := if j.late tag then .unloading else j.st

/-- The tag that a completion carries where a descriptor's fields are bad: the current one that it names (R276). -/
def State.descTag (s : State) (d : Desc) : BitVec 16 :=
  let op := d.opcode
  let named := if 0x11 ≤ op ∧ op ≤ 0x15 then d.num 16 2
    else if (op = 0x20 ∨ op = 0x21) ∧ d.num 36 1 ≠ 0xFF then d.num 38 2
    else 0
  if (s.job (named % 64)).current named then BitVec.ofNat 16 named else 0

/-- Run the next descriptor of a ring where its opcode is `op`: it starts; it is refused by `early`, a status, tag and
detail that come before anything else (R291); it is refused on the wrong kind of ring or for its first bad field (R264,
R265); or it acts. Reserved opcodes behind one that stays open then have their turn (R264). -/
def State.runDescAfter (s : State) (rn op : Nat) (early : State → Ring → Desc → Option (Nat × BitVec 16 × Nat))
    (tests : State → Ring → Desc → List (Nat × Bool)) (act : State → DescRef → Ring → Desc → State) : State :=
  let r := s.ring rn
  match r.next with
  | none => s
  | some d =>
    if d.opcode != op then s
    else
      let ref : DescRef := { ring := BitVec.ofNat 16 rn, idx := d.idx }
      let s := s.setRing rn { r with
        descs := r.descs.map fun x => if x.idx = d.idx then { x with phase := .started } else x }
      let admin := r.loc == 0#16
      match early s r d with
      | some (status, tag, detail) => s.complete ref status tag detail
      | none =>
        if op != 0 && admin != decide (op ≤ 4) then s.complete ref 0x02 (s.descTag d) 0
        else
          match firstBad (d.reservedTests ++ tests s r d) with
          | some o => s.complete ref 0x02 (s.descTag d) o
          | none => (act s ref r d).settleRing rn

/-- The same where nothing comes before the descriptor's own fields. -/
def State.runDesc (s : State) (rn op : Nat) (tests : State → Ring → Desc → List (Nat × Bool))
    (act : State → DescRef → Ring → Desc → State) : State :=
  s.runDescAfter rn op (fun _ _ _ => none) tests act

/-- NOP (R264). -/
def State.nopDesc (s : State) (rn : Nat) : State :=
  s.runDesc rn 0x00 (fun _ _ _ => []) fun s ref _ _ => s.complete ref 0 0 0

/-- Does a virtual function's range hold a group (R265)? -/
def State.groupOwner (s : State) (g : Nat) : Bool :=
  (List.range 64).any fun f => f != 0 && decide ((s.fn f).groupFirst ≤ g) &&
    decide (g < (s.fn f).groupFirst + (s.fn f).groupCount)

/-- CREATE_RING (R259, R263, R265). -/
def State.createRing (s : State) (rn : Nat) : State :=
  s.runDesc rn 0x01
    (fun s r d =>
      let fn := r.fn.toNat
      let loc := d.num 16 2
      let lg := d.num 18 1
      let depth := 2 ^ min (max lg 4) 16
      [(16, loc == 0 || decide (loc ≥ s.ringCount fn) || (s.ring (s.globalRing fn loc)).used),
       (18, decide (lg < 4) || decide (lg > 16)), (19, decide (d.num 19 1 > 1)),
       (20, decide (d.num 20 1 > 31) && d.num 20 1 != 0xFF), (21, d.num 21 1 == 0),
       (24, d.num 24 8 % min (64 * depth) 4096 != 0), (32, d.num 32 8 % min (32 * depth) 4096 != 0)])
    fun s ref r d =>
      let fn := r.fn.toNat
      let loc := d.num 16 2
      if fn == 0 && s.groupOwner (loc / 64) then s.complete ref 0x09 0 0
      else
        let x : Ring :=
          { used := true, fn := r.fn, loc := BitVec.ofNat 16 loc, port := d.num 19 1 == 1,
            vector := BitVec.ofNat 8 (d.num 20 1), coalCount := BitVec.ofNat 8 (d.num 21 1),
            coalTime := BitVec.ofNat 16 (d.num 22 2), descBase := BitVec.ofNat 64 (d.num 24 8),
            cplBase := BitVec.ofNat 64 (d.num 32 8), log2 := d.num 18 1 }
        (s.setRing (s.globalRing fn loc) x).complete ref 0 0 0

/-- A pending JOB_START of a ring that is destroyed completes with 0x05 while its job runs on (R265). -/
def State.abortStarts (s : State) (rn : Nat) : State :=
  s.jobs.foldl (fun s (k, j) =>
    match j.startRef with
    | some ref =>
      if ref.ring.toNat = rn then
        (s.modJob k fun j => { j with startRef := none }).markDone ref 0x05 j.tag 0
      else s
    | none => s) s

/-- DESTROY_RING (R265): started descriptors retire, the others get no completion. No function's admin ring can be destroyed
(R259), whichever number names it. -/
def State.destroyRing (s : State) (rn : Nat) : State :=
  s.runDesc rn 0x02
    (fun s r d =>
      let t := s.ring (s.globalRing r.fn.toNat (d.num 16 2))
      [(16, d.num 16 2 == 0 || t.loc == 0#16 || decide (d.num 16 2 ≥ s.ringCount r.fn.toNat) || !t.used || t.destroyRef.isSome)])
    fun s ref r d =>
      let g := s.globalRing r.fn.toNat (d.num 16 2)
      let s := s.abortStarts g
      let t := s.ring g
      let s := s.setRing g { t with destroyRef := some ref, descs := t.descs.filter fun x => x.phase != .fetched }
      (s.retireRing g t.descs.length).finishDestroy g

/-- ASSIGN_VF (R249, R265): by the physical function only (R264). The admin ring of a function that has run before goes
with its range (R259). -/
def State.assignVf (s : State) (rn : Nat) : State :=
  if (s.ring rn).fn != 0#6 then
    s.runDesc rn 0x03 (fun _ _ _ => []) fun s ref _ _ => s.complete ref 0x09 0 0
  else
    s.runDesc rn 0x03
      (fun s _ d =>
        let vf := d.num 16 1
        let slot := d.num 17 1
        let first := d.num 20 2
        let count := d.num 22 2
        let taken := (List.range 64).any fun f => f != 0 && f != vf &&
          (s.fn f).slot == some (BitVec.ofNat 6 slot)
        let clash := (List.range 64).any (fun f => f != 0 && f != vf && decide ((s.fn f).groupCount ≠ 0) &&
            decide (first < (s.fn f).groupFirst + (s.fn f).groupCount) && decide ((s.fn f).groupFirst < first + count)) ||
          (s.rings.any fun (k, r) => r.used && r.fn == 0#6 && decide (64 * first ≤ k) && decide (k < 64 * (first + count)))
        [(16, vf == 0 || decide (vf > s.numVfs) || s.fnField vf Reg.HIF_FN_CTRL 0 1 == 1 ||
            !(s.ringsWhere fun r => r.fn.toNat == vf && r.loc != 0#16).isEmpty),
         (17, decide (slot > 63) || taken), (20, decide (first > 1023)),
         (22, count == 0 || decide (first + count > 1024) || clash),
         (24, d.num 24 8 % 4096 != 0 || decide (d.num 24 8 ≥ 2 ^ 41)), (32, d.num 32 4 == 0)])
      fun s ref _ d =>
        let vf := d.num 16 1
        let f := s.fn vf
        let old := 64 * f.groupFirst
        let kept := if f.groupCount = 0 then ({} : Ring) else s.ring old
        let s := if f.groupCount = 0 then s else s.setRing old {}
        let s := s.setRing (64 * d.num 20 2) kept
        let s := s.setFn vf { f with
          slot := some (BitVec.ofNat 6 (d.num 17 1))
          groupFirst := d.num 20 2
          groupCount := d.num 22 2
          chsBase := d.num 24 8
          chsGranules := d.num 32 4 }
        let s := (s.setFnField vf Reg.HIF_FN_INFO 8 8 (d.num 17 1)).setFnField vf Reg.HIF_FN_INFO 16 16
          (64 * d.num 22 2 - 1)
        s.complete ref 0 0 0

/-- The size of a function's aperture (R252). -/
def apertureSize (fn : Nat) : Nat := if fn = 0 then 64 * 2 ^ 30 else 4 * 2 ^ 30

/-- SET_APERTURE (R252, R265). -/
def State.setAperture (s : State) (rn : Nat) : State :=
  s.runDesc rn 0x04 (fun _ r d => [(16, d.num 16 8 % apertureSize r.fn.toNat != 0)])
    fun s ref r d =>
      let fn := r.fn.toNat
      let b := d.num 16 8
      let s := (s.setFnReg fn Reg.HIF_BAR2_BASE_LO (BitVec.ofNat 32 b)).setFnReg fn Reg.HIF_BAR2_BASE_HI
        (BitVec.ofNat 32 (b / 2 ^ 32))
      s.complete ref 0 0 0

/-! ### DMA (R266, R267) -/

/-- Does a range lie in a virtual function's assigned Coachhouse range? -/
def State.inRange (s : State) (fn a n : Nat) : Bool :=
  fn == 0 || (decide ((s.fn fn).chsBase ≤ a) &&
    decide (a + n ≤ (s.fn fn).chsBase + 4096 * (s.fn fn).chsGranules))

/-- Does a range touch a window of a running job that lacks the host right (R252, R266)? -/
def State.touchesClosed (s : State) (a n : Nat) : Bool :=
  s.jobs.any fun (_, j) => j.live && j.windows.any fun (_, w) =>
    w.bound && !w.has 2 && decide (w.base < a + n) && decide (a < w.base + w.bytes)

/-- The Coachhouse address of a DMA that passes its checks, or none (R266). -/
def State.dmaAddress (s : State) (fn : Nat) (d : Desc) : Option Nat :=
  let off := d.num 24 8
  let n := d.num 32 4
  let w := d.num 36 1
  let tag := d.num 38 2
  let a :=
    if w = 0xFF then
      if s.chsPresent off n && s.inRange fn off n && !s.touchesClosed off n then some off else none
    else
      let slot := tag % 64
      let j := s.job slot
      let x := j.window w
      if s.mayUse fn slot && j.current tag && j.stateOf tag != .unloading && x.has 2 && decide (off + n ≤ x.bytes) then
        some (x.base + off)
      else none
  match a with
  | none => none
  | some a =>
    let lost := (linesOf a n).any fun (l, _) => match s.chsDecode l with
      | some (k, _) => !s.stackUp k
      | none => true
    if d.opcode = 0x20 ∧ lost then none else some a

/-- The tests of a DMA's fields (R266). -/
def dmaTests (d : Desc) : List (Nat × Bool) :=
  [(24, decide (d.num 24 8 ≥ 2 ^ 41)), (32, d.num 32 4 == 0 || decide (d.num 32 4 > 2 ^ 30)),
   (38, d.num 36 1 == 0xFF && d.num 38 2 != 0)]

/-- DMA_TO_CHS and DMA_FROM_CHS begin with their check (R266); one through a window holds it (R297). DESIGN CHOICE (log
entry 172): the completion of one that fails carries the tag that its descriptor names, current or not. -/
def State.dmaStart (s : State) (rn op : Nat) : State :=
  s.runDesc rn op (fun _ _ d => dmaTests d) fun s ref r d =>
    if s.service = 0 then s.complete ref 0x09 (BitVec.ofNat 16 (d.num 38 2)) 0
    else
    match s.dmaAddress r.fn.toNat d with
    | none => s.complete ref 0x08 (BitVec.ofNat 16 (d.num 38 2)) 0
    | some _ =>
      if d.num 36 1 = 0xFF then s
      else s.modJob (d.num 38 2 % 64) fun j => { j with dmas := j.dmas ++ [ref] }

/-- The start address of a DMA whose check has passed. -/
def State.dmaBase (s : State) (d : Desc) : Nat :=
  if d.num 36 1 = 0xFF then d.num 24 8
  else ((s.job (d.num 38 2 % 64)).window (d.num 36 1)).base + d.num 24 8

/-- DMA_COMPLETE (R241, R266, R267): the bytes move, and the status says what happened to them. -/
def State.dmaComplete (s : State) (rn idx : Nat) (host : HostReply) : State :=
  let r := s.ring rn
  match r.descs.find? fun d => d.idx == idx && d.phase == .started && (d.opcode == 0x20 || d.opcode == 0x21) with
  | none => s
  | some d =>
    let ref : DescRef := { ring := BitVec.ofNat 16 rn, idx := idx }
    let tag := BitVec.ofNat 16 (d.num 38 2)
    let a := s.dmaBase d
    let n := d.num 32 4
    let h := d.num 16 8
    let free (s : State) : State :=
      if d.num 36 1 = 0xFF then s
      else s.modJob (d.num 38 2 % 64) fun j => { j with dmas := j.dmas.filter (· != ref) }
    if d.opcode = 0x21 then
      let (bs, bad, s) := s.chsRead a n tag
      let s := { s with hostMem := writeBytes s.hostMem h bs }
      let s := if bad.isEmpty then s else s.send (.tlpPoison bad.length)
      (free s).complete ref (if bad.isEmpty then 0 else 0x07) tag bad.length
    else
      match host with
      | .error off =>
        let k := min off.toNat n
        let put := if k = n then n else (a + k) / 64 * 64 - a
        let (s, _) := s.chsWrite a (readBytes s.hostMem h put) (fun _ => false) tag (s.pairedRing rn)
        (free s).complete ref 0x06 tag k
      | .ok =>
        let (s, lost) := s.chsWrite a (readBytes s.hostMem h n) (fun _ => false) tag (s.pairedRing rn)
        (free s).complete ref (if lost.isEmpty then 0 else 0x07) tag lost.length
      | .poisoned offs =>
        let lines := ((offs.filter fun o => decide (o < n)).map fun o => (a + o) / 64 * 64).eraseDups
        let (s, lost) := s.chsWrite a (readBytes s.hostMem h n) (fun l => lines.contains l) tag (s.pairedRing rn)
        let all := (lines ++ lost).eraseDups
        (free s).complete ref (if all.isEmpty then 0 else 0x07) tag all.length

/-! ### MSI-X (R269) -/

/-- A paired ring of a follower or of a failed module sends no message (R343, R346). -/
def State.quietRing (s : State) (rn : Nat) : Bool := s.pairedRing rn && (s.pairFollows || s.pairState == 4)

/-- Is a vector one of quiet rings only? -/
def State.quietVector (s : State) (port : Bool) (fn vec : Nat) : Bool :=
  let rs := s.ringsWhere fun r => r.fn.toNat == fn && r.port == port && r.vector.toNat == vec
  !rs.isEmpty && rs.all fun rn => s.quietRing rn

/-- COALESCE_TIMER (R269): coal_time after the first completion not yet signalled. -/
def State.coalesceTimer (s : State) (rn : Nat) : State :=
  let r := s.ring rn
  if !r.used || r.unsignalled == 0 || r.coalTime == 0#16 || r.vector == 0xFF#8 || !s.hostPortUp r.port ||
      s.quietRing rn then s
  else
    let s := s.advanceTo (r.firstUnsig + 1000 * r.coalTime.toNat)
    (s.setRing rn { r with unsignalled := 0 }).signalVector r.port r.fn.toNat (r.vector.toNat % 32)

/-- VECTOR_UNMASK (R269): a pending vector sends its one message. -/
def State.vectorUnmask (s : State) (port : Bool) (fn vec : Nat) : State :=
  let k := vectorKey port fn vec
  let s := { s with msixOpen := AMap.set false s.msixOpen k true }
  if AMap.get false s.msixPend k && !s.quietVector port fn vec then
    { s with msixPend := AMap.set false s.msixPend k false }.send (.msix port (BitVec.ofNat 6 fn) (BitVec.ofNat 5 vec))
  else s

/-! ### BAR2 (R252, R253) -/

/-- Does a BAR2 access of a function succeed (R252)? -/
def State.bar2Ok (s : State) (fn off n : Nat) (write : Bool) : Option Nat :=
  let a := (s.fnReg fn Reg.HIF_BAR2_BASE_LO).toNat + 2 ^ 32 * (s.fnReg fn Reg.HIF_BAR2_BASE_HI).toNat + off
  let lost := write && (linesOf a n).any fun (l, _) => match s.chsDecode l with
    | some (k, _) => !s.stackUp k
    | none => true
  if !s.inRecovery && decide (1 ≤ s.service) && s.mapValid && decide (off + n ≤ apertureSize fn) && s.chsPresent a n && s.inRange fn a n &&
      !s.touchesClosed a n && !lost then some a
  else none

/-- The longest payload and read request of one TLP (R247). -/
def maxPayload : Nat := 512
def maxReadRequest : Nat := 4096

/-- The class code of every function, a processing accelerator (R247). -/
def pciClass : BitVec 24 := 0x120000

/-- The device ID of a function (R247). -/
def pciDevice (fn : Nat) : BitVec 16 := if fn = 0 then 0x0D64 else 0x0D65

/-- A BAR2 read (R252); one longer than a read request may be is answered as unsupported (log entry 128). -/
def State.bar2Read (s : State) (fn off len : Nat) : State :=
  match if len ≤ maxReadRequest then s.bar2Ok fn off len false else none with
  | some a =>
    let (bs, bad, s) := s.chsRead a len 0
    s.send (.bar2Data bs (!bad.isEmpty))
  | none => (s.accessError fn).send .unsupported

/-- A BAR2 write: whole lines replaced, partial lines read and written back, each atomic; a poisoned TLP
poisons every line it touches (R253). One with more than the largest payload fails (log entry 128). -/
def State.bar2Write (s : State) (fn off : Nat) (bs : List Byte) (poisoned : Bool) : State :=
  match if bs.length ≤ maxPayload then s.bar2Ok fn off bs.length true else none with
  | some a => (s.chsWrite a bs (fun _ => poisoned) 0 true).1
  | none => s.accessError fn

/-! ### Functions and ports (R249, R254, R270-R272) -/

/-- The admin ring of a function (R259): set up by the HIF_ADMIN registers when the function first runs. A virtual
function without a range of rings has none. DESIGN CHOICE (log entry 170): the registers name no coalescing, and an admin
ring signals after every completion, with no timer. -/
def State.adminRing (s : State) (fn : Nat) : State :=
  let g := s.globalRing fn 0
  if (s.ring g).used || (fn != 0 && (s.fn fn).groupCount == 0) then s
  else
    let x : Ring :=
      { used := true, fn := BitVec.ofNat 6 fn, loc := 0, port := s.fnField fn Reg.HIF_ADMIN_CFG 5 1 == 1,
        vector := BitVec.ofNat 8 (s.fnField fn Reg.HIF_ADMIN_CFG 6 5), coalCount := 1,
        descBase := s.fnReg fn Reg.HIF_ADMIN_DESC_HI ++ s.fnReg fn Reg.HIF_ADMIN_DESC_LO,
        cplBase := s.fnReg fn Reg.HIF_ADMIN_CPL_HI ++ s.fnReg fn Reg.HIF_ADMIN_CPL_LO,
        log2 := s.fnField fn Reg.HIF_ADMIN_CFG 0 5 }
    s.setRing g x

/-- A write of HIF_FN_CTRL (R8, R254): map_mode and db_port are locked while the function runs and log a
lock-write where the value differs. -/
def State.writeFnCtrl (s : State) (via : Via) (value : BitVec 32) : State :=
  let fn := viaFn via
  let r := Reg.HIF_FN_CTRL
  let running := s.fnField fn r 0 1 == 1
  let run := value.getLsbD 0
  let s := if running then
      if bitsOf value.toNat 1 2 = s.fnField fn r 1 2 then s else s.logLockWrite via r
    else s.setFnField fn r 1 2 (bitsOf value.toNat 1 2)
  let s := (s.setFnField fn r 0 1 (if run then 1 else 0)).setFnField fn Reg.HIF_STATUS 0 1 (if run then 1 else 0)
  if run && !running then s.adminRing fn else s

/-- Does a function exist on a host port: NumVFs names it, and that port's configuration space has not been reset since
NumVFs was written (R249, R402)? -/
def State.fnOnPort (s : State) (port : Bool) (fn : Nat) : Bool :=
  fn == 0 || (decide (fn ≤ s.numVfs) && !AMap.get false s.vfsGone (if port then 1 else 0))

/-- FUNCTION_RUN and FUNCTION_STOP (R254) act where the value's run bit is theirs; a virtual function exists
while NumVFs names it (R249). -/
def State.functionCtrl (s : State) (port : Bool) (fn : BitVec 6) (value : BitVec 32) (run : Bool) : State :=
  if value.getLsbD 0 == run && s.fnOnPort port fn.toNat then s.writeFnCtrl (.host port fn) value
  else s

/-- A ring loses its port (R271): every started descriptor is aborted without a completion. One that is being destroyed
has nothing left to retire, and its DESTROY_RING completes (R265). -/
def State.ringPortDown (s : State) (rn : Nat) (evidence : Bool := false) : State :=
  let s := s.dropRefs rn
  let s := s.ringError rn 0x03 evidence
  let r := s.ring rn
  (s.setRing rn { r with descs := [], unsignalled := 0 }).finishDestroy rn

/-- What the loss of a port's link or PERST# does to rings and functions (R270, R271); in pair mode it is
local evidence, as the records of those errors show, and a module failure of cause 0x03, which comes first (R346, R455). -/
def State.portLost (s : State) (p : Bool) : State :=
  let paired := s.pairActive
  let s := if paired then { s with pair := { s.pair with evidence := true } }.pairDeclareFailed 3 else s
  let s := (s.ringsWhere fun r => r.port == p).foldl (fun s rn => s.ringPortDown rn paired) s
  (List.range 64).foldl (fun s fn =>
    if s.fnField fn Reg.HIF_FN_CTRL 0 1 = 1 ∧ s.dbPort fn = p then s.doorbellError fn paired else s) s

/-- PORT_LINK_DOWN (R255, R271). -/
def State.portLinkDown (s : State) (p : Bool) : State :=
  if s.hostPortUp p then (s.setField (Reg.HIF_PORT_STATUS (if p then 1 else 0)) 0 12 0).portLost p else s

/-- PORT_LINK_UP (R247): a speed and a width that the port supports; PERST# has been released, and a reset of the port has
ended (log entry 175). -/
def State.portLinkUp (s : State) (p : Bool) (speed : BitVec 4) (width : BitVec 6) (flit : Bool) : State :=
  let r := Reg.HIF_PORT_STATUS (if p then 1 else 0)
  let okSpeed := decide (1 ≤ speed.toNat) && decide (speed.toNat ≤ 6)
  let okWidth := width == 1#6 || width == 4#6 || width == 8#6 || width == 16#6
  if okSpeed && okWidth then
    { s with portReset := AMap.set false s.portReset (if p then 1 else 0) false }.setField r 0 13
      (speed.toNat + 2 ^ 4 * width.toNat + (if flit then 2 ^ 10 else 0) + 2 ^ 11)
  else s

/-- Clear a function's HIF registers to their reset values; what the module shares stays (R255, R272). -/
def State.clearHif (s : State) (fn : Nat) : State :=
  { s with
    regs := s.regs.filter fun (k, _) =>
      !(decide (regKey fn 0 ≤ k) && decide (k < regKey fn 0x100)) || k == regKey 0 Reg.HIF_POLL_INTERVAL ||
        k == regKey fn Reg.HIF_FN_INFO
    shadow := s.shadow.filter fun (k, _) => !(decide (regKey fn 0 ≤ k) && decide (k < regKey fn 0x100)) }

/-- Destroy every ring of a function without a completion (R272). -/
def State.destroyRings (s : State) (fn : Nat) : State :=
  (s.ringsWhere fun r => r.fn.toNat == fn).foldl (fun s rn => (s.dropRefs rn).setRing rn {}) s

/-- Kill a slot's job and unload it (R272): the unload follows when the job has stopped. A load that has
written nothing yet is given up; where its ring is not destroyed with it, its JOB_LOAD completes with a status and
detail that the manual does not give. -/
def State.killUnload (s : State) (slot : Nat) : State :=
  let j := s.job slot
  if j.st = .loading then
    let (v, s') := if j.loadRef.isSome then s.fresh else (0, s)
    (((s'.releaseSlot slot).setJob slot j.bare).trackIdle s).completeOpt j.loadRef (v % 256) 0 (v / 256 % 2 ^ 32)
  else
  let s := s.modJob slot fun j => if j.st = .free ∨ j.st = .unloading then j else { j with flrUnload := true }
  s.killJob slot 2#8

/-- The vectors of a test are masked and none is pending, as PCIe resets them (R269, R272, R402); the test gets the port
and the function. -/
def State.maskVectors (s : State) (p : Bool → Nat → Bool) : State :=
  let keep (k : Nat) : Bool := !p (decide (2048 ≤ k)) (k / 32 % 64)
  { s with
    msixOpen := s.msixOpen.filter fun x => keep x.1
    msixPend := s.msixPend.filter fun x => keep x.1 }

/-- FLR (R272): of a virtual function, or of the physical function with every virtual function. -/
def State.flr (s : State) (fn : Nat) : State :=
  if fn = 0 then
    let s := ((List.range 64).foldl (fun s f => (s.destroyRings f).clearHif f) s).maskVectors fun _ _ => true
    let s := (List.range 64).foldl (fun s f =>
      let s := s.setFn f {}
      if f = 0 then s
      else (s.setFnField f Reg.HIF_FN_INFO 8 8 0xFF).setFnField f Reg.HIF_FN_INFO 16 16 0xFFFF) s
    ((List.range 64).foldl (fun s k => s.killUnload k) s).settleDone
  else
    let s := ((s.destroyRings fn).clearHif fn).maskVectors fun _ g => g == fn
    let f := s.fn fn
    let s := s.setFn fn { f with seenGen := 0, errCount := 0 }
    match f.slot with
    | some k => (s.killUnload k.toNat).settleDone
    | none => s

/-- NUMVFS_WRITE (R249): a number above the fused one is ignored; in Recovery mode there is no SR-IOV (R411). -/
def State.numvfsWrite (s : State) (n : Nat) : State :=
  if n ≤ Config.maxVfs.toNat ∧ !s.inRecovery then { s with numVfs := n, vfsGone := [] } else s

/-- POLL_CYCLE (R258). -/
def execPollCycle (fails : List (BitVec 6 × BitVec 6)) (s : State) : Answer := .next (s.pollCycle fails)
/-- DESCRIPTOR_FETCH (R258). -/
def execDescriptorFetch (ring : BitVec 16) (good : Bool) (s : State) : Answer := .next (s.descriptorFetch ring.toNat good)
/-- NOP (R264). -/
def execNop (ring : BitVec 16) (s : State) : Answer := .next (s.nopDesc ring.toNat)
/-- CREATE_RING (R265). -/
def execCreateRing (ring : BitVec 16) (s : State) : Answer := .next (s.createRing ring.toNat)
/-- DESTROY_RING (R265). -/
def execDestroyRing (ring : BitVec 16) (s : State) : Answer := .next (s.destroyRing ring.toNat)
/-- ASSIGN_VF (R265). -/
def execAssignVf (ring : BitVec 16) (s : State) : Answer := .next (s.assignVf ring.toNat)
/-- SET_APERTURE (R265). -/
def execSetAperture (ring : BitVec 16) (s : State) : Answer := .next (s.setAperture ring.toNat)
/-- DMA_TO_CHS (R266). -/
def execDmaToChs (ring : BitVec 16) (s : State) : Answer := .next (s.dmaStart ring.toNat 0x20)
/-- DMA_FROM_CHS (R266). -/
def execDmaFromChs (ring : BitVec 16) (s : State) : Answer := .next (s.dmaStart ring.toNat 0x21)
/-- DMA_COMPLETE (R267). -/
def execDmaComplete (ring : BitVec 16) (idx : Nat) (host : HostReply) (s : State) : Answer :=
  .next (s.dmaComplete ring.toNat idx host)
/-- COALESCE_TIMER (R269). -/
def execCoalesceTimer (ring : BitVec 16) (s : State) : Answer := .next (s.coalesceTimer ring.toNat)
/-- VECTOR_UNMASK (R269). -/
def execVectorUnmask (port : Bool) (fn : BitVec 6) (vec : BitVec 5) (s : State) : Answer :=
  .next (s.vectorUnmask port fn.toNat vec.toNat)
/-- BAR2_READ (R252). -/
def execBar2Read (_port : Bool) (fn : BitVec 6) (off : BitVec 36) (len : Nat) (s : State) : Answer :=
  .next (s.bar2Read fn.toNat off.toNat len)
/-- BAR2_WRITE (R253). -/
def execBar2Write (_port : Bool) (fn : BitVec 6) (off : BitVec 36) (data : List (BitVec 8)) (poisoned : Bool)
    (s : State) : Answer := .next (s.bar2Write fn.toNat off.toNat data poisoned)
/-- FUNCTION_RUN (R254). -/
def execFunctionRun (port : Bool) (fn : BitVec 6) (value : BitVec 32) (s : State) : Answer :=
  .next (s.functionCtrl port fn value true)
/-- FUNCTION_STOP (R254). -/
def execFunctionStop (port : Bool) (fn : BitVec 6) (value : BitVec 32) (s : State) : Answer :=
  .next (s.functionCtrl port fn value false)
/-- PORT_LINK_DOWN (R271). -/
def execPortLinkDown (port : Bool) (s : State) : Answer := .next (s.portLinkDown port)
/-- PORT_LINK_UP (R247). -/
def execPortLinkUp (port : Bool) (speed : BitVec 4) (width : BitVec 6) (flit : Bool) (s : State) : Answer :=
  .next (s.portLinkUp port speed width flit)
/-- FLR (R272). -/
def execFlr (fn : BitVec 6) (s : State) : Answer := .next (s.flr fn.toNat)
/-- NUMVFS_WRITE (R249). -/
def execNumvfsWrite (n : BitVec 16) (s : State) : Answer := .next (s.numvfsWrite n.toNat)

end Sys2Proof.Machine
end

