-- ==== Sys2Proof/Machine/Lantern.lean ====
section
/-! DEFINITION. Lantern ports and photonic engines: training, flits, retry, credits, width changes, lasers and
rings (10 R301-R323). -/

namespace Sys2Proof.Machine

/-! ### Registers of a port and an engine -/

def portEngine (p : Nat) : Nat := p / 2

/-- The last bring-up step and its state (R417). -/
def State.stepNow (s : State) : Nat := s.field Reg.BRU_STATUS 0 4
def State.stepState (s : State) : Nat := s.field Reg.BRU_STATUS 4 2

/-- Is the module at step 11, Ready? -/
def State.ready (s : State) : Bool := s.stepNow == 11 && s.stepState == 0

/-- May saved settings be used at all (R421)? -/
def State.useSaved (s : State) : Bool := s.field Reg.BRU_CFG 0 1 == 1
/-- May the heater settings of an engine be used, as far as their record goes (R321, R421)? -/
def State.engineSaved (s : State) (k : Nat) : Bool :=
  s.useSaved && s.field Reg.LTN_CFG 0 1 == 1 && !(s.engine k).unfit
/-- Does a port use its saved equalisation with a peer (R321, R421)? -/
def State.eqAccepted (s : State) (p peer : Nat) : Bool :=
  s.useSaved && s.field Reg.LTN_CFG 0 1 == 1 && !(s.port p).eqUnfit &&
    (s.port p).savedEq.any fun r => r.peer == peer

/-- Is a port enabled by the applied licences (R302)? -/
def State.portEnabled (s : State) (p : Nat) : Bool := s.field (Reg.LTN_PORT_EN (p / 32)) (p % 32) 1 == 1

def State.adminDown (s : State) (p : Nat) : Bool := s.field (Reg.LTN_PORT_CTRL p) 0 1 == 1

/-- The pairs that max_width permits (R322). -/
def State.maxPairs (s : State) (p : Nat) : Nat :=
  match s.field (Reg.LTN_PORT_CTRL p) 1 2 with
  | 1 => 4
  | 2 => 2
  | _ => 8

/-- Are all eight laser lines of an engine present (R304)? -/
def State.allLines (s : State) (k : Nat) : Bool := s.field (Reg.LTN_ENG_STATUS k) 0 8 == 255

/-- Does a paired job have a stream open on a port (R346)? -/
def State.portPaired (s : State) (p : Nat) : Bool :=
  s.streams.any fun (_, t) => t.port == p && t.paired && t.st.isOpen

/-- An event of class lantern (R323, R453). -/
def State.logLantern (s : State) (p cause p1 : Nat) : State :=
  s.logPlain (srcEngine (portEngine p)) 0x0C cause (p + 2 ^ 8 * portEngine p) p1 0

/-- The receive buffers of a channel (R310). -/
def chanBuffers (c : Nat) : Nat := if c = 0 then 256 else 1280

/-! ### Pair groups (R316) -/

/-- The permitted groups of a width, lowest first. -/
def pairGroups (w : Nat) : List Byte :=
  match w with
  | 8 => [0xFF]
  | 4 => [0x0F, 0xF0]
  | 2 => [0x03, 0x0C, 0x30, 0xC0]
  | _ => []

/-- The lowest group of a width without a bad pair. -/
def cleanGroup (w : Nat) (bad : Byte) : Option (Nat × Byte) :=
  ((pairGroups w).find? fun g => g &&& bad == 0).map fun g => (w, g)

/-- The group of the target width, or of the next narrower one that has a clean group. -/
def chooseGroup (target : Nat) (bad : Byte) : Option (Nat × Byte) :=
  ((([8, 4, 2].filter fun w => decide (w ≤ target)).map fun w => cleanGroup w bad).find? (·.isSome)).join

/-- The merged bad-pair map of a port. -/
def Port.bad (p : Port) : Byte := p.ownBad ||| p.permBad ||| p.peerBad

/-- The target width of both ends. -/
def State.targetWidth (s : State) (p : Nat) : Nat := min (s.maxPairs p) (s.port p).peerMax.toNat

/-- Since when a wider clean group exists (R317). -/
def State.noteWider (s : State) (p : Nat) : State :=
  let x := s.port p
  let wider := match chooseGroup (s.targetWidth p) x.bad with
    | some (w, _) => x.st == 7#4 && decide (x.width.toNat < w)
    | none => false
  let since := if wider then some (x.wideSince.getD s.ms) else none
  s.setPort p { x with wideSince := since }

/-! ### DOWN (R312, R318) -/

/-- What a port forgets when its link epoch ends (R312). -/
def Port.endEpoch (p : Port) : Port :=
  { p with
    unacked := [], replayLeft := 0, txSeq := 0, rxNext := 0, nakDue := false, nakHeldMs := none, credits := [],
    rxFill := [], rxq := [], owed := [], txq := [], ctlq := [], req := none, heldReq := none, op := none, leading := false,
    width := 0, pairs := 0, txPairs := 0, wideSince := none, helloSeen := false, locked := 0, equalised := 0,
    checked := false, calDone := false, lost := false, notBefore := 0, want := none, msOff := [], tsSent := false,
    tsSeen := false, cfgSent := false, cfgSeen := false }

/-- Every open stream on a port is suspended (R333). -/
def State.suspendStreams (s : State) (p : Nat) : State :=
  { s with streams := s.streams.map fun (k, t) =>
      if t.port = p ∧ t.st = .opened then (k, { t with st := .suspended, suspMs := s.ms }) else (k, t) }

/-- When the last ACTIVE pair port goes, the wait of R349 begins. -/
def State.notePairLink (s : State) : State :=
  if s.activePairPorts.isEmpty then
    match s.pair.linkLostMs with
    | none => { s with pair := { s.pair with linkLostMs := some s.ms } }
    | some _ => s
  else { s with pair := { s.pair with linkLostMs := none } }

/-- A port goes DOWN (R312, R318): its unacknowledged flits are discarded and counted, its streams suspended.
The manual names no reason for some failures of a first training: that code is a free value. `evidence` says that the event
is local evidence of the pair (R455). -/
def State.portDown (s : State) (p : Nat) (reason : Option Nat) (evidence : Bool := false) : State :=
  let (v, s) := match reason with
    | some r => (r, s)
    | none => s.fresh
  let r := v % 16
  let x := s.port p
  let lost := x.unacked.length
  let s := s.bump (Reg.LTN_PORT_LOST p) 0 32 lost
  let s := (s.bump (Reg.LTN_PORT_EVENTS p) 16 8 1).setField (Reg.LTN_PORT_DOWN p) 0 4 r
  let s := s.setPort p { x.endEpoch with st := 9, since := s.ms }
  let s := (s.logMarked evidence (srcEngine (portEngine p)) 0x0C 0x01 (p + 2 ^ 8 * portEngine p) (r + 2 ^ 32 * lost)
    0).suspendStreams p
  if p ≥ 120 then s.notePairLink else s

/-- DOWN leaves for DARK at once while a laser line is not present (R304, R314); held down by admin_down, it goes to
DISABLED. -/
def State.darken (s : State) (p : Nat) : State :=
  let x := s.port p
  if x.st = 9#4 ∧ !s.adminDown p ∧ !s.allLines (portEngine p) then s.setPort p { x with st := 1, since := s.ms } else s

def State.portFails (s : State) (p : Nat) (reason : Option Nat) (evidence : Bool := false) : State :=
  (s.portDown p reason evidence).darken p

/-! ### Into training (R302, R314) -/

/-- An item of a step trains fully (R421): it is counted, and the start has 180 s. -/
def State.noteFull (s : State) (lo w n : Nat) : State :=
  if n = 0 then s
  else ((s.bump Reg.BRU_SAVED lo w n).setField Reg.BRU_STATUS 7 1 1).setReg Reg.BRU_DEADLINE 180000

/-- An engine trains fully, its rings or a port's equalisation, within step 9 (R421): it counts once in a start. -/
def State.engineFull (s : State) (k : Nat) : State :=
  if s.stepNow = 9 ∧ s.stepState = 1 ∧ !(s.engine k).full then
    (s.noteFull 24 7 1).setEngine k { s.engine k with full := true }
  else s

/-- The engine's record in the Ostler flash, with the serial numbers and the temperature (R321, R420). -/
def Engine.saved (e : Engine) (temp : Byte) : Engine :=
  { e with savedHeater := true, savedTemp := temp, savedSerials := e.serials, unfit := false }

/-- Is a temperature within 8 K of the saved one (R321)? -/
def Engine.near (e : Engine) (temp : Byte) : Bool := decide (temp.toNat ≤ e.savedTemp.toNat + 8) && decide (e.savedTemp.toNat ≤ temp.toNat + 8)

/-- Does a port wait for its engine's calibration? -/
def Port.calibrating (x : Port) : Bool :=
  x.st == 2#4 || (x.st == 8#4 && !x.calDone && x.op.any fun m => m.op == 2#8)

/-- Are an engine's rings under calibration (R315, R318)? -/
def State.engineCalibrates (s : State) (k : Nat) : Bool :=
  [2 * k, 2 * k + 1].any fun p => (s.port p).calibrating

/-- The engine's re-centring is complete; rings under calibration count as re-centred (R320). -/
def State.recentred (s : State) (k : Nat) : State :=
  let e := s.engine k
  if e.recentring then s.setEngine k { e with recentring := false, late := false, recentreCount := e.recentreCount + 1 }
  else s

/-- The re-centrings under way are given up with the rounds that they belong to: an engine enters round 0 without one
(R199, R320). -/
def State.dropRecentring (s : State) : State :=
  { s with engines := (s.engines.map fun (k, e) => (k, { e with recentring := false, late := false })).filter fun p => p.2 != {} }

/-- A calibration of all the rings of an engine begins (R320, R322): none is locked. -/
def State.ringsOpen (s : State) (k : Nat) : State := (s.recentred k).setField (Reg.LTN_ENG_STATUS k) 10 1 0

/-- The light of an engine is complete: its ports in DARK that are enabled calibrate the rings, from saved settings where
they stand and the engine is within 8 K of their temperature (R321); the others are DISABLED (R314). The engine's
temperature at that moment is a free value (log entry 147). -/
def State.startRingCal (s : State) (k : Nat) : State :=
  if s.allLines k ∧ s.serves (srcEngine k) then
    let dark := [2 * k, 2 * k + 1].filter fun p => (s.port p).st == 1#4
    let ports := dark.filter fun p => s.portEnabled p && !s.adminDown p
    let s := (dark.filter fun p => !ports.contains p).foldl (fun s p =>
      s.modPort p fun x => { x with st := 0, since := s.ms }) s
    if ports.isEmpty then s
    else
      let (v, s) := s.fresh
      let e := s.engine k
      let saved := e.savedHeater && s.engineSaved k && e.near (BitVec.ofNat 8 v)
      let s := (s.setEngine k { e with usingSaved := saved }).setField (Reg.LTN_ENG_STATUS k) 16 8 (v % 256)
      let s := (if saved then s else s.engineFull k).ringsOpen k
      ports.foldl (fun s p => s.modPort p fun x => { x with st := 2, since := s.ms }) s
  else s

/-- A DISABLED port that is enabled with admin_down = 0 enters DARK, and RING_CAL with its light (R302, R314). -/
def State.enablePort (s : State) (p : Nat) : State :=
  let x := s.port p
  if x.st = 0#4 ∧ s.portEnabled p ∧ !s.adminDown p then
    (s.setPort p { x with st := 1, since := s.ms, seekTried := false }).startRingCal (portEngine p)
  else s

/-- Does a paired job have a stream open on a port of an engine (R346)? -/
def State.enginePaired (s : State) (k : Nat) : Bool := s.portPaired (2 * k) || s.portPaired (2 * k + 1)

/-- An engine leaves service: its roster place, the distance table, its ports, and the re-centring that it owed (R154, R200,
R315). A port that a paired job uses is local evidence (R346, R455). -/
def State.engineOut (s : State) (k : Nat) (reason : Option Nat) : State :=
  if s.serves (srcEngine k) then
    let paired := s.enginePaired k
    let s := ((s.leave (srcEngine k)).setEngine k { s.engine k with recentring := false, late := false }).distChanged
    let s := [2 * k, 2 * k + 1].foldl (fun s p =>
      let st := (s.port p).st.toNat
      if 2 ≤ st ∧ st ≤ 8 then s.portFails p reason (s.pairActive && s.portPaired p) else s) s
    if paired then s.pairDeclareFailed 2 else s
  else s

/-! ### Control messages (R313) -/

/-- n bytes, a little-endian number. -/
def le (v n : Nat) : List Byte := natLe v n

def State.sendCtl (s : State) (p : Nat) (m : List Byte) : State :=
  s.modPort p fun x => { x with ctlq := x.ctlq ++ [m] }

/-- The messages of R313. -/
def tsBytes (m : TsMsg) : List Byte := [0x01, m.state, m.locked, m.equalised, m.maxWidth, m.bad]
def configBytes (m : ConfigMsg) : List Byte :=
  [0x02, m.version] ++ le m.moduleId.toNat 2 ++ [m.port, if m.enabled then 1 else 0, 0, 0] ++ le m.recentre.toNat 4
def reqBytes (m : ReqMsg) : List Byte :=
  [0x03, m.reqNo, m.op, m.width, m.bad, m.reason, 0, 0] ++ le m.name.toNat 4 ++ [m.reqPort]
def grantBytes (reqNo : Byte) : List Byte := [0x04, reqNo]
def markBytes (width pairs reqNo : Byte) : List Byte := [0x05, width, pairs, reqNo]
def timeBytes (v : Nat) : List Byte := [0x06, 0, 0, 0, 0, 0, 0, 0] ++ le v 8

/-- May an end send a REQ: in ACTIVE, with none of its own and no operation under way, nor too soon after it lost a
collision (R319)? -/
def State.mayRequest (s : State) (p : Nat) : Bool :=
  let x := s.port p
  x.st == 7#4 && x.req.isNone && x.op.isNone && decide (x.notBefore ≤ s.ms)

/-- An end starts a REQ (R319). A retrain that cannot start now stays wanted while the link stands (R318, log entry
132). -/
def State.startReq (s : State) (p op width reason : Nat) : State :=
  let x := s.port p
  if s.mayRequest p then
    let m : ReqMsg :=
      { reqNo := x.reqNo + 1, op := BitVec.ofNat 8 op, width := BitVec.ofNat 8 width, bad := x.ownBad ||| x.permBad,
        reason := BitVec.ofNat 8 reason, name := s.sourceName (srcEngine (portEngine p)), reqPort := BitVec.ofNat 8 p }
    (s.setPort p { x with reqNo := m.reqNo, req := some { msg := m, sends := 1, lastMs := s.ms } }).sendCtl p (reqBytes m)
  else if op ≤ 2 ∧ x.linked ∧ x.want.all (fun w => decide (w.1 < op)) then s.setPort p { x with want := some (op, reason) }
  else s

/-- A REQ for the width that the clean pairs allow (R317). -/
def State.requestWidth (s : State) (p reason : Nat) : State :=
  match chooseGroup (s.targetWidth p) (s.port p).bad with
  | some (w, _) => s.startReq p 3 w reason
  | none => s.startReq p 3 2 reason

/-- Has a ring of a pair of the port lost lock (R320)? -/
def State.ringOut (s : State) (p pair : Nat) : Bool :=
  (s.engine (portEngine p)).ringsOut.extractLsb' (16 * (8 * (p % 2) + pair)) 16 != 0

/-- The reason of a REQ for pairs that went bad: 3 where every one of them lost ring lock, else 2 (R313). -/
def State.badReason (s : State) (p : Nat) (pairs : Byte) : Nat :=
  if (List.range 8).all fun i => !pairs.getLsbD i || s.ringOut p i then 3 else 2

/-- What this end has to ask for, once it may (R317-R319): a retrain it wants, another set of pairs, a narrower width. -/
def State.considerReq (s : State) (p : Nat) : State :=
  if s.mayRequest p then
    let x := s.port p
    let worn := (x.ownBad ||| x.permBad) &&& x.pairs
    match x.want with
    | some (op, reason) => (s.setPort p { x with want := none }).startReq p op 0 reason
    | none =>
      if worn != 0 then s.requestWidth p (s.badReason p worn)
      else if x.width.toNat > s.maxPairs p then s.requestWidth p 0
      else s
  else s

/-- Is a REQ under way that can still collide (R319)? -/
def Port.requesting (x : Port) : Bool :=
  match x.req with
  | some r => decide (r.sends < 8)
  | none => false

/-- Entry to RETRAIN (R314, R318); a third within 1 s goes DOWN with reason 2. Of the control flits that wait, a GRANT and
a TIME still leave. -/
def State.enterRetrain (s : State) (p : Nat) (op : Option ReqMsg) : State :=
  let x := s.port p
  if x.st != 7#4 then s
  else
    let times := (x.retrainTimes.filter fun t => decide (s.ms < t + 1000000000)) ++ [s.ms]
    let s := s.bump (Reg.LTN_PORT_EVENTS p) 0 8 1
    let s := s.setPort p { x with
      st := 8, since := s.ms, op := op, req := none, leading := false, locked := 0,
      checked := false, calDone := false, wideSince := none, retrainTimes := times
      tsSent := false, tsSeen := false, cfgSent := false, cfgSeen := false
      ctlq := x.ctlq.filter fun m => m.head? == some 0x04 || m.head? == some 0x06 }
    let s := if op.any fun m => m.op == 2#8 then s.ringsOpen (portEngine p) else s
    let s := s.logLantern p 0x02 0
    if times.length ≥ 3 then s.portFails p (some 2) else if p ≥ 120 then s.notePairLink else s

/-- A retrain runs: with ring recalibration both ports of the engine retrain (R318). -/
def State.runRetrain (s : State) (p : Nat) (m : ReqMsg) : State :=
  let other := if p % 2 = 0 then p + 1 else p - 1
  let s := s.enterRetrain p (some m)
  if m.op = 2#8 then s.enterRetrain other (some m) else s

/-- An operation starts at the leader on its GRANT, or at the follower with the GRANT it sends (R317-R319): the mark of a
width change names the group that the merged bad-pair maps leave, and each end transmits on it after its own mark. -/
def State.runOp (s : State) (p : Nat) (m : ReqMsg) (leading : Bool) : State :=
  if m.op = 3#8 then
    let x := s.port p
    if leading then
      match chooseGroup m.width.toNat x.bad with
      | none => s.portFails p (some 6)
      | some (w, g) =>
        (s.setPort p { x with op := some m, leading := true, req := none }).sendCtl p (markBytes (BitVec.ofNat 8 w) g m.reqNo)
    else s.setPort p { x with op := some m, leading := false }
  else s.runRetrain p m

/-- Grant a REQ as its follower. -/
def State.grantReq (s : State) (p : Nat) (m : ReqMsg) : State :=
  let s := (s.modPort p fun x => { x with peerBad := m.bad }).noteWider p
  (s.sendCtl p (grantBytes m.reqNo)).runOp p m false

/-- Has a completed operation (the code of R313, 1 for a retrain that no REQ began) already satisfied a REQ (R319)? -/
def Port.satisfied (x : Port) (done : Nat) (held : ReqMsg) : Bool :=
  if held.op = 3#8 then x.width.toNat == held.width.toNat && (x.pairs &&& held.bad == 0)
  else decide (held.op.toNat ≤ done) && decide (done ≤ 2)

/-- The end of an operation (R317, R319): a held REQ is granted or dropped, a wanted retrain that the operation was is
dropped, and an own reason that stands asks again, 10 µs later at the soonest where a collision was lost. -/
def State.finishOp (s : State) (p : Nat) : State :=
  let x := s.port p
  let done := match x.op with
    | some m => m.op.toNat
    | none => 1
  let s := s.setPort p { x with
    op := none, leading := false, heldReq := none, lost := false
    want := if done ≤ 2 then x.want.filter fun w => decide (done < w.1) else x.want
    notBefore := if x.lost then s.ms + 10000 else x.notBefore }
  let s := s.noteWider p
  match x.heldReq with
  | some h => if x.satisfied done h then s.considerReq p else s.grantReq p h
  | none => s.considerReq p

/-! ### Becoming ACTIVE (R311, R312, R314) -/

/-- The record of a port's equalisation as it stands (R321, R420). -/
def State.eqRecord (s : State) (p : Nat) : EqRec where
  peer := s.field (Reg.LTN_PORT_PEER p) 0 17
  serials := (s.engine (portEngine p)).serials
  temp := BitVec.ofNat 8 (s.field (Reg.LTN_ENG_STATUS (portEngine p)) 16 8)

/-- The body of HELLO (R325). -/
def State.helloBody (s : State) : List Byte := [1, 0] ++ le s.moduleId 2 ++ [1, 0] ++ le 0 10

/-- The link's ACTIVE state after CONFIG: a new epoch, unless it comes from RETRAIN (R311, R312). -/
def State.becomeActive (s : State) (p : Nat) : State :=
  let x := s.port p
  let s := if x.st = 8#4 then s.setPort p { x with st := 7, since := s.ms, locked := 0, checked := false, txPairs := x.pairs }
    else
      let e := s.field (Reg.LTN_PORT_STATUS p) 24 8
      let s := s.setField (Reg.LTN_PORT_STATUS p) 24 8 (e + 1)
      let s := s.setPort p { x with
        st := 7, since := s.ms, activeMs := s.ms, txSeq := 0, rxNext := 0, txPairs := x.pairs, ackMs := s.ms,
        savedEq := if x.eqSaved then x.savedEq else some (s.eqRecord p), eqUnfit := x.eqUnfit && x.eqSaved,
        credits := (List.range 4).foldl (fun m c => AMap.set 0 m c (chanBuffers c)) [] }
      s.sendMsg p 0 0x01 0 0 0 (segsOf s.helloBody)
  let s := if p ≥ 120 then s.notePairLink else s
  s.finishOp p

/-! ### Training events (R314, R316) -/

/-- SEEK_LOCK: the receiver locks on all pairs of some group; a pair without symbol lock is bad (R316). `peer` is the module
ID and port that CONFIG would show (R321). -/
def State.seekLock (s : State) (p : Nat) (pairs : Byte) (peer : Nat) : State :=
  let x := s.port p
  let y := { x with locked := pairs, ownBad := x.ownBad ||| ~~~pairs }
  let whole := ([8, 4, 2].flatMap pairGroups).any fun g => g &&& pairs == g
  if !whole then s
  else if x.st = 3#4 ∧ !x.seekPause then
    let saved := s.eqAccepted p peer
    let s := s.setPort p { y with st := 4, since := s.ms, eqSaved := saved, tsSent := false, tsSeen := false }
    if saved then s else s.engineFull (portEngine p)
  else if x.st = 8#4 ∧ (x.calDone ∨ x.op.all fun m => m.op != 2#8) then s.setPort p y
  else s

/-- EQUALISE_COMPLETE (R314). -/
def State.equaliseComplete (s : State) (p : Nat) : State :=
  let x := s.port p
  if x.st = 4#4 then s.setPort p { x with st := 5, since := s.ms, equalised := x.locked } else s

/-- The pair check (R316): the width from both ends' maps; none is DOWN with reason 6. -/
def State.pairCheck (s : State) (p : Nat) : State :=
  let x := s.port p
  match chooseGroup (s.targetWidth p) x.bad with
  | none => s.portFails p (some 6)
  | some (w, g) =>
    let x := { x with width := BitVec.ofNat 4 w, pairs := g, checked := true, cfgSent := false, cfgSeen := false }
    s.setPort p (if x.st = 5#4 then { x with st := 6, since := s.ms } else x)

/-- The exchange of TS is complete once it has gone both ways (R314): a late TS of this end, the peer's taken. -/
def State.tsExchanged (s : State) (p : Nat) : State :=
  let x := s.port p
  if x.tsSent ∧ x.tsSeen ∧ (x.st = 5#4 ∨ (x.st = 8#4 ∧ !x.checked)) then s.pairCheck p else s

/-- The exchange of CONFIG is complete once it has gone both ways (R314): ACTIVE, and the peer's identity holds (R322). -/
def State.cfgExchanged (s : State) (p : Nat) : State :=
  let x := s.port p
  if x.cfgSent ∧ x.cfgSeen ∧ (x.st = 6#4 ∨ (x.st = 8#4 ∧ x.checked)) then
    (s.setField (Reg.LTN_PORT_PEER p) 17 1 1).becomeActive p
  else s

/-- TS (R313, R314, R319): the peer's map for the pair check holds its bad pairs and those that its receiver has not
locked. A late one that comes while this end still equalises or locks is kept (log entry 148). -/
def State.takeTs (s : State) (p : Nat) (m : TsMsg) : State :=
  let x := s.port p
  let late := decide (m.state.toNat ≥ 5) && m.state != 7#8 && m.locked != 0
  let learn (s : State) : State :=
    s.setPort p { x with
      peerBad := m.bad ||| ~~~m.locked
      peerMax := if m.maxWidth = 2#8 ∨ m.maxWidth = 4#8 then m.maxWidth else 8#8
      tsSeen := true }
  if x.st = 7#4 then s.enterRetrain p none
  else if (x.st = 4#4 ∨ x.st = 5#4 ∨ (x.st = 8#4 ∧ !x.checked)) ∧ late then (learn s).tsExchanged p
  else s

/-- CONFIG (R313, R318): ACTIVE. Another peer in a retrain is DOWN with reason 4. Where saved equalisation was used and
CONFIG shows another peer, the port equalises in full (R321). -/
def State.takeConfig (s : State) (p : Nat) (m : ConfigMsg) : State :=
  let x := s.port p
  let peer := m.moduleId.toNat + 2 ^ 10 * (m.port.toNat % 128)
  let r := Reg.LTN_PORT_PEER p
  if m.version != 1#8 then s
  else if x.st = 6#4 then
    let s := s.setField r 0 17 peer
    if x.eqSaved ∧ x.savedEq.map (·.peer) ≠ some peer then
      (s.setPort p { x with
        st := 4, since := s.ms, eqSaved := false, equalised := 0, checked := false, width := 0, pairs := 0,
        tsSent := false, tsSeen := false, cfgSent := false, cfgSeen := false }).engineFull (portEngine p)
    else (s.setPort p { x with cfgSeen := true }).cfgExchanged p
  else if x.st = 8#4 ∧ x.checked then
    if s.field r 0 17 != peer then (s.setField r 0 17 peer).portFails p (some 4)
    else (s.setPort p { x with cfgSeen := true }).cfgExchanged p
  else s

/-- PAIR_MARK_CLEARED (R316): after 1 s clean; a pair with a ring that is still out keeps its mark. -/
def State.clearBad (s : State) (p pair : Nat) : State :=
  let x := s.port p
  if s.ringOut p pair then s
  else (s.setPort p { x with ownBad := x.ownBad &&& ~~~(BitVec.ofNat 8 (2 ^ pair)) }).noteWider p

/-- The engine's calibration fails: it leaves service, its ports go DOWN with reason 8 (R315). -/
def State.ringCalFails (s : State) (k : Nat) : State :=
  (s.setField (Reg.LTN_ENG_STATUS k) 8 2 3).engineOut k (some 8)

/-- Training of the rings from saved settings has failed: the ports that calibrate go on in full (R421). -/
def State.calInFull (s : State) (k : Nat) : State :=
  [2 * k, 2 * k + 1].foldl (fun s p => s.modPort p fun x => if x.calibrating then { x with since := s.ms } else x)
    ((s.setEngine k { s.engine k with usingSaved := false }).engineFull k)

/-- Every ring of an engine is locked: no ring is out, and the pairs whose rings were out are clear again (R320). -/
def State.ringsLocked (s : State) (k : Nat) : State :=
  let out := (s.engine k).ringsOut
  let s := s.setEngine k { s.engine k with ringsOut := 0 }
  ((List.range 16).filter fun i => out.extractLsb' (16 * i) 16 != 0).foldl (fun s i =>
    s.clearBad (2 * k + i / 8) (i % 8)) s

/-- RING_CAL_COMPLETE (R315, R321): saved settings hold only within 8 K. -/
def State.ringCalComplete (s : State) (k : Nat) (ok fromSaved : Bool) (temp : BitVec 8) : State :=
  let ports := [2 * k, 2 * k + 1].filter fun p => (s.port p).calibrating
  let e := s.engine k
  if ports.isEmpty ∨ (fromSaved ∧ !(e.usingSaved && e.near temp)) then s
  else if !ok ∧ fromSaved then s.calInFull k
  else if !ok then (s.setField (Reg.LTN_ENG_STATUS k) 16 8 temp.toNat).ringCalFails k
  else
    let s := if fromSaved then s else s.engineFull k
    let r := Reg.LTN_ENG_STATUS k
    let calTemp := if fromSaved then e.savedTemp else temp
    let s := (s.setField r 8 2 (if fromSaved then 1 else 2)).setField r 10 1 1
    let s := (s.setField r 16 8 temp.toNat).setField r 24 8 calTemp.toNat
    let s := s.ringsLocked k
    let e := { s.engine k with usingSaved := false }
    let s := s.setEngine k { (if fromSaved then e else e.saved temp) with calibrated := true }
    let s := if fromSaved then s
      else
        let s := s.bump (Reg.LTN_ENG_RING k) 16 8 1
        if s.ready then s.logLantern (2 * k) 0x05 0 else s
    ports.foldl (fun s p => s.modPort p fun x =>
      if x.st = 2#4 then { x with st := 3, since := s.ms, seekPause := false }
      else { x with calDone := true }) s

/-- The limit of a training state (R314). -/
def State.trainingLimit (s : State) (p : Nat) : Option Nat :=
  let x := s.port p
  match x.st.toNat with
  | 2 => some (if (s.engine (portEngine p)).usingSaved then 50000000 else 4000000000)
  | 3 => if x.seekPause then none else some 500000000
  | 4 => some (if x.eqSaved then 2000000 else 20000000)
  | 5 => some 1000000
  | 6 => some 1000000
  | 8 => some (if x.op.any fun m => m.op == 2#8 then 4002000000 else 2000000)
  | _ => none

/-- TRAINING_TIMEOUT (R314, R421): a state past its limit fails; training from saved settings goes on in full. -/
def State.trainingTimeout (s : State) (p : Nat) : State :=
  match s.trainingLimit p with
  | none => s
  | some limit =>
    let s := s.advanceTo ((s.port p).since + limit)
    let x := s.port p
    let k := portEngine p
    match x.st.toNat with
    | 2 =>
      if (s.engine k).usingSaved then s.calInFull k else s.ringCalFails k
    | 3 => s.setPort p { x with seekPause := true, seekTried := true, since := s.ms }
    | 4 =>
      if x.eqSaved then (s.setPort p { x with eqSaved := false, since := s.ms }).engineFull k else s.portFails p none
    | 8 => s.portFails p (some 1)
    | _ => s.portFails p none

/-- SEEK_PAUSE_END (R314). -/
def State.seekPauseEnd (s : State) (p : Nat) : State :=
  let x := s.port p
  if x.st = 3#4 ∧ x.seekPause then
    let s := s.advanceTo (x.since + 1000000000)
    s.setPort p { x with seekPause := false, since := s.ms }
  else s

/-- DOWN_TIMER (R314): DISABLED while admin_down, DARK without light, SEEK after 1 s. A port of an engine out
of service stays DOWN. -/
def State.downTimer (s : State) (p : Nat) : State :=
  let x := s.port p
  if x.st != 9#4 then s
  else if s.adminDown p ∨ !s.portEnabled p then s.setPort p { x with st := 0, since := s.ms }
  else if !s.allLines (portEngine p) then s.darken p
  else if !s.serves (srcEngine (portEngine p)) then s
  else
    let s := s.advanceTo (x.since + 1000000000)
    s.setPort p { x with st := 3, since := s.ms, seekPause := false }

/-! ### Lasers and rings (R304, R320, R321) -/

/-- The measured power of a line is kept in the laser registers. -/
def State.setLaser (s : State) (k line : Nat) (power : BitVec 8) : State :=
  let r := if line < 4 then Reg.LTN_ENG_LASER_LO k else Reg.LTN_ENG_LASER_HI k
  s.setField r (8 * (line % 4)) 8 power.toNat

/-- LASER_LINE_PRESENT (R304): 16 mW or more for 10 ms. -/
def State.laserPresent (s : State) (k line : Nat) (power : BitVec 8) : State :=
  if power.toNat < 64 then s
  else
    let s := (s.setLaser k line power).setField (Reg.LTN_ENG_STATUS k) line 1 1
    if s.allLines k then s.startRingCal k else s

/-- LASER_LINE_LOST (R304): below 14 mW. -/
def State.laserLost (s : State) (k line : Nat) (power : BitVec 8) : State :=
  if power.toNat ≥ 56 ∨ s.field (Reg.LTN_ENG_STATUS k) line 1 = 0 then s
  else
    let s := (s.setLaser k line power).setField (Reg.LTN_ENG_STATUS k) line 1 0
    let s := (s.logLantern (2 * k) 0x04 0).ringsOpen k
    [2 * k, 2 * k + 1].foldl (fun s p =>
      let st := (s.port p).st.toNat
      if st = 7 ∨ st = 8 then s.portFails p (some 5)
      else if 2 ≤ st ∧ st ≤ 9 then s.modPort p fun x => { x.endEpoch with st := 1, since := s.ms }
      else s) s

/-- PAIR_MARKED_BAD (R316, R317): a pair in use asks for a width change. -/
def State.markBad (s : State) (p pair : Nat) : State :=
  let x := s.port p
  let b := BitVec.ofNat 8 (2 ^ pair)
  ((s.setPort p { x with ownBad := x.ownBad ||| b }).noteWider p).considerReq p

/-- UPSHIFT_CHECK (R317): a wider clean group has existed for 1 s. -/
def State.upshiftCheck (s : State) (p : Nat) : State :=
  match (s.port p).wideSince with
  | none => s
  | some t =>
    if s.field Reg.LTN_CFG 1 1 = 1 then (s.advanceTo (t + 1000000000)).requestWidth p 4 else s

/-- RING_LOCK_LOSS (R320), in ACTIVE and RETRAIN: ring `ring` of fibre pair `pair` of the engine. -/
def State.ringLockLoss (s : State) (k pair ring : Nat) : State :=
  let p := 2 * k + pair / 8
  if !(s.port p).linked then s
  else
    let e := s.engine k
    let s := s.setEngine k { e with ringsOut := e.ringsOut ||| BitVec.twoPow 256 (16 * pair + ring) }
    let s := (s.setField (Reg.LTN_ENG_STATUS k) 10 1 0).logLantern p 0x06 0
    s.markBad p (pair % 8)

/-- RING_RELOCK (R320): the ring has locked again; its pair is cleared once no ring of it is out. -/
def State.ringRelock (s : State) (k pair ring : Nat) : State :=
  let e := s.engine k
  if !e.ringsOut.getLsbD (16 * pair + ring) then s
  else
    let out := e.ringsOut &&& ~~~(BitVec.twoPow 256 (16 * pair + ring))
    let s := (s.setEngine k { e with ringsOut := out }).bump (Reg.LTN_ENG_RING k) 0 16 1
    let s := if out = 0 ∧ !s.engineCalibrates k then s.setField (Reg.LTN_ENG_STATUS k) 10 1 1 else s
    s.clearBad (2 * k + pair / 8) (pair % 8)

/-- The re-centring that a release starts on every engine in service (R320). -/
def State.startRecentre (s : State) : State :=
  (List.range 64).foldl (fun s k =>
    if s.serves (srcEngine k) then
      let s := s.setEngine k { s.engine k with recentring := true, late := false }
      if s.engineCalibrates k then s.recentred k else s
    else s) s

/-- RING_RECENTRE_COMPLETE (R320), at an engine temperature. -/
def State.recentreComplete (s : State) (k : Nat) (temp : BitVec 8) : State :=
  if (s.engine k).recentring then (s.recentred k).setField (Reg.LTN_ENG_STATUS k) 16 8 temp.toNat else s

/-- An engine whose re-centring is not complete when the next round opens counts as late, once for a re-centring (R322). -/
def State.recentreLate (s : State) : State :=
  s.engines.foldl (fun s (k, e) =>
    if e.recentring && !e.late then (s.bump (Reg.LTN_ENG_RING k) 24 8 1).setEngine k { e with late := true } else s) s

/-- HEATER_SETTINGS_SAVE (R321): at the first release after a full hour of one of its ports in ACTIVE, with the engine's
temperature. -/
def State.heaterSave (s : State) (k : Nat) (temp : BitVec 8) : State :=
  let hour := 3600000000000
  let live := [2 * k, 2 * k + 1].filter fun p => (s.port p).st == 7#4
  let due (x : Port) : Bool := decide (x.activeMs + hour ≤ s.toll.lastRelease)
  if live.any fun p => due (s.port p) then
    let s := s.setField (Reg.LTN_ENG_STATUS k) 16 8 temp.toNat
    let s := s.setEngine k ((s.engine k).saved temp)
    live.foldl (fun s p => s.modPort p fun x => { x with
      savedEq := some (s.eqRecord p)
      eqUnfit := false
      activeMs := if due x then x.activeMs + hour else x.activeMs }) s
  else s

/-! ### Requests (R317-R319) -/

/-- What a REQ for a width says of the peer's max_width (R317, log entry 146): with reason 0 it is that width, else no
less. -/
def Port.noteMax (x : Port) (m : ReqMsg) : Port :=
  if m.op != 3#8 then x
  else if m.reason = 0#8 then { x with peerMax := m.width }
  else { x with peerMax := if x.peerMax.toNat < m.width.toNat then m.width else x.peerMax }

/-- REQ (R319). -/
def State.takeReq (s : State) (p : Nat) (m : ReqMsg) : State :=
  let x := (s.port p).noteMax m
  if m.op = 0#8 ∨ m.op.toNat > 3 ∨ !x.linked then s
  else if x.requesting then
    let own := (s.sourceName (srcEngine (portEngine p))).toNat
    let leads := decide (own < m.name.toNat) || (own == m.name.toNat && decide (p < m.reqPort.toNat))
    if leads then (s.setPort p { x with peerBad := m.bad }).noteWider p
    else
      let own := x.req.bind fun r => if r.msg.op.toNat ≤ 2 then some (r.msg.op.toNat, r.msg.reason.toNat) else none
      let s := s.setPort p { x with req := none, lost := true, want := own.or x.want }
      (s.bump (Reg.LTN_PORT_EVENTS p) 24 8 1).grantReq p m
  else if x.op.isSome ∨ x.st = 8#4 then s.setPort p { x with heldReq := some m }
  else (s.setPort p x).grantReq p m

/-- GRANT (R319): the leader's operation starts. -/
def State.takeGrant (s : State) (p : Nat) (reqNo : BitVec 8) : State :=
  let x := s.port p
  match x.req with
  | some r =>
    if r.msg.reqNo = reqNo ∧ x.st = 7#4 ∧ x.op.isNone then (s.setPort p { x with req := none }).runOp p r.msg true else s
  | none => s

/-- A width change is complete at this end (R317): counted, with an event. -/
def State.widthDone (s : State) (p : Nat) (width pairs : Byte) : State :=
  let x := s.port p
  let old := x.width.toNat + 2 ^ 4 * width.toNat + 2 ^ 8 * x.pairs.toNat + 2 ^ 16 * pairs.toNat
  let s := s.setPort p { x with width := width.setWidth 4, pairs := pairs, txPairs := pairs }
  ((s.bump (Reg.LTN_PORT_EVENTS p) 8 8 1).logLantern p 0x03 old).finishOp p

/-- WIDTH_MARK (R317): the leader is done, the follower answers with its own mark. -/
def State.takeMark (s : State) (p : Nat) (width pairs reqNo : BitVec 8) : State :=
  let x := s.port p
  match x.op with
  | some m =>
    if x.st = 7#4 ∧ m.op = 3#8 ∧ m.reqNo = reqNo ∧ (pairGroups width.toNat).contains pairs then
      if x.leading then s.widthDone p width pairs
      else s.sendCtl p (markBytes width pairs reqNo)
    else s
  | none => s

/-- A control flit has left (R317): after its own mark an end transmits on the new set, and the follower is done. -/
def State.ctlLeft (s : State) (p : Nat) (m : List Byte) : State :=
  match m, (s.port p).leading with
  | [0x05#8, _, pairs, _], true => s.modPort p fun x => { x with txPairs := pairs }
  | [0x05#8, width, pairs, _], false => s.widthDone p width pairs
  | _, _ => s

/-- REQ_RESEND (R318, R319): every 2 µs; after the eighth the end enters RETRAIN. -/
def State.reqResend (s : State) (p : Nat) : State :=
  let x := s.port p
  match x.req with
  | some r =>
    let s := s.advanceTo (r.lastMs + 2000)
    if r.sends ≥ 8 then s.enterRetrain p none
    else
      (s.setPort p { x with req := some { r with sends := r.sends + 1, lastMs := s.ms } }).sendCtl p (reqBytes r.msg)
  | none => s

/-! ### Flits (R307-R311) -/

/-- The channel whose credits the next header returns, and how many. -/
def Port.nextCredit (x : Port) : Nat × Nat :=
  match (List.range 4).find? fun c => AMap.get 0 x.owed c != 0 with
  | some c => (c, min (AMap.get 0 x.owed c) 4095)
  | none => (0, 0)

/-- The bytes 0 to 251 of a flit (R307). -/
def flitBytes (f : Flit) : List Byte :=
  [f.kind, f.chan] ++ le f.seq.toNat 2 ++ le (f.ack.toNat + (if f.nak then 2 ^ 15 else 0)) 2 ++
    le (f.credit.toNat + 2 ^ 12 * f.creditChan.toNat) 2 ++ le f.poison.toNat 2 ++ [f.len, 0] ++
    (f.payload ++ List.replicate (240 - f.payload.length) 0).take 240

/-- The flit with its CRC-32C. -/
def flitSealed (f : Flit) : Flit := { f with crc := crc32c (flitBytes f) }

/-- Does the CRC of a received flit match (R309)? -/
def flitGood (f : Flit) : Bool := f.crc == crc32c (flitBytes f)

/-- A flit leaves on a set of pairs with this end's ack, nak and credit return (R308, R309). -/
def State.emit (s : State) (p : Nat) (pairs : Byte) (f : Flit) : State :=
  let x := s.port p
  let (c, n) := x.nextCredit
  let nak := x.nakDue
  let f := { f with
    ack := x.rxNext - 1, nak := nak, credit := BitVec.ofNat 12 n, creditChan := BitVec.ofNat 2 c }
  let s := if nak then s.bump (Reg.LTN_PORT_REPLAY p) 16 16 1 else s
  let s := s.setPort p { x with
    owed := AMap.set 0 x.owed c (AMap.get 0 x.owed c - n), nakDue := false,
    nakHeldMs := if nak then some s.ms else x.nakHeldMs }
  s.send (.flit (BitVec.ofNat 7 p) pairs (flitSealed f))

/-- A flit without payload. -/
def plainFlit (kind : Byte) (payload : List Byte) : Flit where
  kind := kind
  chan := 0
  seq := 0
  ack := 0
  nak := false
  credit := 0
  creditChan := 0
  poison := 0
  len := BitVec.ofNat 8 payload.length
  payload := payload

/-- A data flit from segments (R307, R324). -/
def dataFlit (chan : Nat) (seq : BitVec 12) (segs : List Seg) : Flit :=
  { plainFlit 1 (segs.flatMap fun g => natLe g.data.toNat 16) with
    chan := BitVec.ofNat 8 chan
    seq := seq.setWidth 16
    poison := BitVec.ofNat 16 (segs.zipIdx.foldl (fun n (g, i) => if g.poison then n + 2 ^ i else n) 0) }

/-- The next channel in round-robin order with data and credit. -/
def Port.nextChan (x : Port) : Option Nat :=
  ((List.range 4).map fun i => (x.rr + i) % 4).find? fun c =>
    !(AMap.get [] x.txq c).isEmpty && AMap.get 0 x.credits c != 0

/-- TS of this end (R313). -/
def State.tsMsg (s : State) (p : Nat) : TsMsg :=
  let x := s.port p
  { state := x.st.setWidth 8, locked := x.locked, equalised := x.equalised, maxWidth := BitVec.ofNat 8 (s.maxPairs p)
    bad := x.ownBad ||| x.permBad }

/-- CONFIG of this end (R313). -/
def State.configMsg (s : State) (p : Nat) : ConfigMsg :=
  { version := 1, moduleId := BitVec.ofNat 10 s.moduleId, port := BitVec.ofNat 8 p, enabled := s.portEnabled p
    recentre := (s.engine (portEngine p)).recentreCount }

/-- The control flit at the head of the queue leaves; TIME carries the Milestone value of this moment (R308, R313). -/
def State.emitCtl (s : State) (p : Nat) (m : List Byte) (rest : List (List Byte)) : State :=
  let x := s.port p
  let m := if m.head? = some 0x06 then timeBytes s.ms else m
  ((s.setPort p { x with ctlq := rest }).emit p x.txPairs (plainFlit 2 m)).ctlLeft p m

/-- A replay: the oldest flit that is still to be sent again; at its fifth time a retrain is asked for (R309). -/
def State.emitReplay (s : State) (p : Nat) : State :=
  let x := s.port p
  let i := x.unacked.length - x.replayLeft
  match x.unacked[i]? with
  | none => s.setPort p { x with replayLeft := 0 }
  | some t =>
    let s := s.setPort p { x with
      replayLeft := x.replayLeft - 1
      unacked := x.unacked.set i { t with sends := t.sends + 1 } }
    let s := s.emit p x.txPairs t.flit
    if t.sends + 1 = 5 then s.startReq p 1 0 1 else s

/-- A data flit of a channel, sent the first time (R307, R308, R311). -/
def State.emitData (s : State) (p c : Nat) : State :=
  let x := s.port p
  let q := AMap.get [] x.txq c
  let f := dataFlit c x.txSeq (q.take 15)
  let s := s.setPort p { x with
    txq := AMap.set [] x.txq c (q.drop 15)
    credits := AMap.set 0 x.credits c (AMap.get 0 x.credits c - 1)
    txSeq := x.txSeq + 1
    rr := (c + 1) % 4
    ackMs := if x.unacked.isEmpty then s.ms else x.ackMs
    unacked := x.unacked ++ [{ flit := f, sends := 1 }] }
  let s := s.setReg64 (Reg.LTN_PORT_TX_LO p) (min (s.reg64 (Reg.LTN_PORT_TX_LO p) + 1) (2 ^ 64 - 1))
  s.emit p x.txPairs f

/-- A slot in which data waits but no channel with data has credit counts as a stall (R322). -/
def State.countStall (s : State) (p : Nat) : State :=
  let x := s.port p
  let waiting := (List.range 4).any fun c => !(AMap.get [] x.txq c).isEmpty
  if waiting && x.nextChan.isNone then s.bump (Reg.LTN_PORT_STALL p) 0 32 1 else s

/-- FLIT_SLOT (R308, R309, R311): a replay, a control flit, a data flit or an idle flit. A port in training sends TS on
all its pairs, then CONFIG; in RETRAIN a control flit that waits goes first. -/
def State.flitSlot (s : State) (p : Nat) : State :=
  let st := (s.port p).st.toNat
  if st = 7 then
    let s := (s.considerReq p).countStall p
    let x := s.port p
    if x.replayLeft ≠ 0 then s.emitReplay p
    else match x.ctlq with
      | m :: rest => s.emitCtl p m rest
      | [] => match if x.unacked.length < 2048 then x.nextChan else none with
        | some c => s.emitData p c
        | none => s.emit p x.txPairs (plainFlit 0 [])
  else
    let x := s.port p
    match if st = 8 then x.ctlq else [] with
    | m :: rest => s.emitCtl p m rest
    | [] =>
      if (st = 3 ∧ !x.seekPause) ∨ st = 4 ∨ st = 5 ∨ (st = 8 ∧ !x.checked) then
        let s := s.emit p 0xFF (plainFlit 2 (tsBytes (s.tsMsg p)))
        (s.modPort p fun y => { y with tsSent := st == 5 || (st == 8 && x.locked != 0) }).tsExchanged p
      else if st = 6 ∨ st = 8 then
        let s := s.emit p x.pairs (plainFlit 2 (configBytes (s.configMsg p)))
        (s.modPort p fun y => { y with cfgSent := true }).cfgExchanged p
      else s

/-- The ack, nak and credit of a good flit (R309, R311). -/
def State.takeHeader (s : State) (p : Nat) (f : Flit) : State :=
  let x := s.port p
  let c := f.creditChan.toNat
  let x := { x with credits := AMap.set 0 x.credits c (AMap.get 0 x.credits c + f.credit.toNat) }
  let n := match x.unacked with
    | t :: _ =>
      let k := (f.ack - t.flit.seq.setWidth 12 + 1).toNat
      if k ≤ x.unacked.length then k else 0
    | [] => 0
  let rest := x.unacked.drop n
  let x := { x with
    unacked := rest, ackMs := if n ≠ 0 then s.ms else x.ackMs, replayLeft := min x.replayLeft rest.length }
  if f.nak ∧ !rest.isEmpty then
    (s.setPort p { x with replayLeft := rest.length }).bump (Reg.LTN_PORT_REPLAY p) 0 16 1
  else s.setPort p x

/-- A flit is discarded and a nak set, unless one is held off (R309). -/
def State.discardFlit (s : State) (p : Nat) : State :=
  s.modPort p fun x => if x.nakHeldMs.isSome then x else { x with nakDue := true }

/-- A flit with a bad CRC (R309, R322), at a port whose receiver is on. -/
def State.badCrc (s : State) (p : Nat) : State :=
  let x := s.port p
  let st := x.st.toNat
  if 3 ≤ st ∧ st ≤ 8 then
    let s := s.bump (Reg.LTN_PORT_CRC p) 0 32 1
    if x.linked then s.discardFlit p else s
  else s

/-- A control flit (R308, R309, R313): with a good CRC its header counts while the link stands, then its message acts. -/
def State.onControl (s : State) (p : Nat) (h : FlitHead) (msg : List Byte) (act : State → State) : State :=
  let f := { plainFlit 2 msg with ack := h.ack, nak := h.nak, credit := h.credit, creditChan := h.creditChan, crc := h.crc }
  if flitGood f then act (if (s.port p).linked then s.takeHeader p f else s) else s.badCrc p

/-- The segments of a received data flit with their poison; a last segment that len cuts short reads 0 beyond it
(R324, log entry 131). -/
def flitSegs (f : Flit) : List Seg :=
  (segsOf (f.payload.take (min f.len.toNat 240))).zipIdx.map fun (g, i) => { g with poison := f.poison.getLsbD i }

/-- A data flit (R309-R311): one with a good CRC and the sequence number awaited goes into its channel's buffers and byte
stream, in ACTIVE and in RETRAIN. -/
def State.takeDataFlit (s : State) (p : Nat) (f : Flit) : State :=
  if !flitGood f then s.badCrc p
  else if !(s.port p).linked then s
  else
    let s := s.takeHeader p f
    let x := s.port p
    let c := f.chan.toNat % 4
    if f.kind != 1#8 then s
    else if f.seq.setWidth 12 != x.rxNext then s.discardFlit p
    else if (AMap.get [] x.rxFill c).length ≥ chanBuffers c then s.portFails p (some 3)
    else
      let s := s.setPort p { x with
        rxNext := x.rxNext + 1
        nakHeldMs := none
        rxFill := AMap.set [] x.rxFill c (AMap.get [] x.rxFill c ++ [16 * (flitSegs f).length])
        rxq := AMap.set [] x.rxq c (AMap.get [] x.rxq c ++ flitSegs f) }
      s.setReg64 (Reg.LTN_PORT_RX_LO p) (min (s.reg64 (Reg.LTN_PORT_RX_LO p) + 1) (2 ^ 64 - 1))

/-- IDLE_FLIT (R308). -/
def State.takeIdleFlit (s : State) (p : Nat) (f : Flit) : State :=
  if !flitGood f then s.badCrc p else if (s.port p).linked then s.takeHeader p f else s

/-- The transport takes n bytes of a channel (R311): every buffer that they empty returns a credit. -/
def takeBytes : List Nat → Nat → List Nat × Nat
  | [], _ => ([], 0)
  | b :: bs, n =>
    if n ≥ b then
      let (r, k) := takeBytes bs (n - b)
      (r, k + 1)
    else ((b - n) :: bs, 0)

def State.consume (s : State) (p chan n : Nat) : State :=
  let x := s.port p
  let (fill, k) := takeBytes (AMap.get [] x.rxFill chan) n
  s.setPort p { x with
    rxFill := AMap.set [] x.rxFill chan fill
    owed := AMap.set 0 x.owed chan (AMap.get 0 x.owed chan + k) }

/-- REPLAY_TIMEOUT (R309): 4 µs without an advance of ack. -/
def State.replayTimeout (s : State) (p : Nat) : State :=
  let x := s.port p
  if x.st = 7#4 ∧ !x.unacked.isEmpty then
    let s := s.advanceTo (x.ackMs + 4000)
    (s.setPort p { x with replayLeft := x.unacked.length, ackMs := s.ms }).bump (Reg.LTN_PORT_REPLAY p) 0 16 1
  else s

/-- NAK_HOLDOFF_EXPIRY (R309): 2 µs after a nak. -/
def State.nakHoldoff (s : State) (p : Nat) : State :=
  let x := s.port p
  match x.nakHeldMs with
  | some t => (s.advanceTo (t + 2000)).setPort p { x with nakHeldMs := none }
  | none => s

/-- TIME_SEND (R313): at each wrap of bits [14:0] of the Milestone; the value is set when the flit leaves. -/
def State.timeSend (s : State) (p : Nat) : State :=
  if (s.port p).st = 7#4 then
    let s := s.advanceTo ((s.ms + 32767) / 32768 * 32768)
    s.sendCtl p (timeBytes s.ms)
  else s

/-! ### Register writes (R317, R318, R322) -/

/-- A write of LTN_PORT_CTRL_p. -/
def State.writePortCtrl (s : State) (p : Nat) (value : BitVec 32) : State :=
  let r := Reg.LTN_PORT_CTRL p
  let w := bitsOf value.toNat 1 2
  let s := if w = 3 then s else (s.setField r 1 2 w).noteWider p
  let s := s.setField r 0 1 (bitsOf value.toNat 0 1)
  if value.getLsbD 0 then
    let st := (s.port p).st.toNat
    if 1 ≤ st ∧ st ≤ 8 then s.portFails p (some 7) else s
  else
    let s := (s.enablePort p).darken p
    if value.getLsbD 4 then s.startReq p 2 0 0
    else if value.getLsbD 3 then s.startReq p 1 0 0
    else s.considerReq p

/-- FLIT_SLOT (R308). -/
def execFlitSlot (port : BitVec 7) (s : State) : Answer := .next (s.traced (s.flitSlot port.toNat))
/-- IDLE_FLIT (R308). -/
def execIdleFlit (port : BitVec 7) (flit : Flit) (s : State) : Answer :=
  .next (s.traced (s.takeIdleFlit port.toNat flit))
/-- REPLAY_TIMEOUT (R309). -/
def execReplayTimeout (port : BitVec 7) (s : State) : Answer := .next (s.traced (s.replayTimeout port.toNat))
/-- NAK_HOLDOFF_EXPIRY (R309). -/
def execNakHoldoffExpiry (port : BitVec 7) (s : State) : Answer := .next (s.traced (s.nakHoldoff port.toNat))
/-- TS (R314). -/
def execTs (port : BitVec 7) (h : FlitHead) (m : TsMsg) (s : State) : Answer :=
  .next (s.traced (s.onControl port.toNat h (tsBytes m) fun s => s.takeTs port.toNat m))
/-- REQ (R319). -/
def execReq (port : BitVec 7) (h : FlitHead) (m : ReqMsg) (s : State) : Answer :=
  .next (s.traced (s.onControl port.toNat h (reqBytes m) fun s => s.takeReq port.toNat m))
/-- GRANT (R319). -/
def execGrant (port : BitVec 7) (h : FlitHead) (reqNo : BitVec 8) (s : State) : Answer :=
  .next (s.traced (s.onControl port.toNat h (grantBytes reqNo) fun s => s.takeGrant port.toNat reqNo))
/-- WIDTH_MARK (R317). -/
def execWidthMark (port : BitVec 7) (h : FlitHead) (width pairs reqNo : BitVec 8) (s : State) : Answer :=
  .next (s.traced (s.onControl port.toNat h (markBytes width pairs reqNo) fun s => s.takeMark port.toNat width pairs reqNo))
/-- TIME_SEND (R313). -/
def execTimeSend (port : BitVec 7) (s : State) : Answer := .next (s.traced (s.timeSend port.toNat))
/-- REQ_RESEND (R319). -/
def execReqResend (port : BitVec 7) (s : State) : Answer := .next (s.traced (s.reqResend port.toNat))
/-- TRAINING_TIMEOUT (R314). -/
def execTrainingTimeout (port : BitVec 7) (s : State) : Answer := .next (s.traced (s.trainingTimeout port.toNat))
/-- RING_CAL_COMPLETE (R315). -/
def execRingCalComplete (engine : BitVec 6) (ok fromSaved : Bool) (temp : BitVec 8) (s : State) : Answer :=
  .next (s.traced (s.ringCalComplete engine.toNat ok fromSaved temp))
/-- SEEK_LOCK (R314). -/
def execSeekLock (port : BitVec 7) (pairs : BitVec 8) (peer : BitVec 17) (s : State) : Answer :=
  .next (s.traced (s.seekLock port.toNat pairs peer.toNat))
/-- EQUALISE_COMPLETE (R314). -/
def execEqualiseComplete (port : BitVec 7) (s : State) : Answer := .next (s.traced (s.equaliseComplete port.toNat))
/-- DOWN_TIMER (R314). -/
def execDownTimer (port : BitVec 7) (s : State) : Answer := .next (s.traced (s.downTimer port.toNat))
/-- SEEK_PAUSE_END (R314). -/
def execSeekPauseEnd (port : BitVec 7) (s : State) : Answer := .next (s.traced (s.seekPauseEnd port.toNat))
/-- LASER_LINE_PRESENT (R304). -/
def execLaserLinePresent (engine : BitVec 6) (line : BitVec 3) (power : BitVec 8) (s : State) : Answer :=
  .next (s.traced (s.laserPresent engine.toNat line.toNat power))
/-- LASER_LINE_LOST (R304). -/
def execLaserLineLost (engine : BitVec 6) (line : BitVec 3) (power : BitVec 8) (s : State) : Answer :=
  .next (s.traced (s.laserLost engine.toNat line.toNat power))
/-- PAIR_MARKED_BAD (R316). -/
def execPairMarkedBad (port : BitVec 7) (pair : BitVec 3) (s : State) : Answer :=
  .next (s.traced (s.markBad port.toNat pair.toNat))
/-- PAIR_MARK_CLEARED (R316). -/
def execPairMarkCleared (port : BitVec 7) (pair : BitVec 3) (s : State) : Answer :=
  .next (s.traced (s.clearBad port.toNat pair.toNat))
/-- UPSHIFT_CHECK (R317). -/
def execUpshiftCheck (port : BitVec 7) (s : State) : Answer := .next (s.traced (s.upshiftCheck port.toNat))
/-- RING_LOCK_LOSS (R320). -/
def execRingLockLoss (engine : BitVec 6) (pair ring : BitVec 4) (s : State) : Answer :=
  .next (s.traced (s.ringLockLoss engine.toNat pair.toNat ring.toNat))
/-- RING_RELOCK (R320). -/
def execRingRelock (engine : BitVec 6) (pair ring : BitVec 4) (s : State) : Answer :=
  .next (s.traced (s.ringRelock engine.toNat pair.toNat ring.toNat))
/-- RING_RECENTRE_COMPLETE (R320). -/
def execRingRecentreComplete (engine : BitVec 6) (temp : BitVec 8) (s : State) : Answer :=
  .next (s.traced (s.recentreComplete engine.toNat temp))
/-- HEATER_SETTINGS_SAVE (R321). -/
def execHeaterSettingsSave (engine : BitVec 6) (temp : BitVec 8) (s : State) : Answer :=
  .next (s.traced (s.heaterSave engine.toNat temp))
/-- ADMIN_DOWN (R318): a write of LTN_PORT_CTRL. -/
def execAdminDown (via : Via) (port : BitVec 7) (value : BitVec 32) (s : State) : Answer :=
  .next (s.traced (s.gate via (Reg.LTN_PORT_CTRL port.toNat) fun s => s.writePortCtrl port.toNat value))
/-- MAX_WIDTH (R317): a write of LTN_PORT_CTRL. -/
def execMaxWidth (via : Via) (port : BitVec 7) (value : BitVec 32) (s : State) : Answer :=
  .next (s.traced (s.gate via (Reg.LTN_PORT_CTRL port.toNat) fun s => s.writePortCtrl port.toNat value))
/-- PORT_RETRAIN (R318): the retrain bit written, the other fields as they stand. -/
def execPortRetrain (via : Via) (port : BitVec 7) (s : State) : Answer :=
  .next (s.traced (s.gate via (Reg.LTN_PORT_CTRL port.toNat) fun s =>
    s.writePortCtrl port.toNat (s.reg (Reg.LTN_PORT_CTRL port.toNat) ||| 8#32)))
/-- PORT_RECAL (R318): the recal bit written, the other fields as they stand. -/
def execPortRecal (via : Via) (port : BitVec 7) (s : State) : Answer :=
  .next (s.traced (s.gate via (Reg.LTN_PORT_CTRL port.toNat) fun s =>
    s.writePortCtrl port.toNat (s.reg (Reg.LTN_PORT_CTRL port.toNat) ||| 16#32)))

end Sys2Proof.Machine
end

