-- ==== Sys2Proof/Machine/Parts.lean ====
section
/-! DEFINITION. Parts out of service and back: dies, their strips, contact groups (12 R359, R200, R397, R418). -/

namespace Sys2Proof.Machine

/-! ### Dies and strips -/

/-- An event of class bringup that names a part taken out in a step (R355, R418); the manual gives no cause. -/
def State.logPartOut (s : State) (src step : Nat) : State := s.logPlain src 0x13 0 step 0 0

/-- The stacks of a die's strips with their edges (R354). -/
def dieStacks (d : Nat) : List Nat := (List.range 32).filter fun k => (stackStrip k).1 == d

/-- A die's strips cannot be reached: its stacks, with a cause of R245, and engines leave service (R355, R418). -/
def State.stripsOut (s : State) (d cause : Nat) : State :=
  (dieStacks d).foldl (fun s k =>
    let s := s.loseStack k cause
    [2 * k, 2 * k + 1].foldl (fun s e => s.engineOut e none) s) s

/-- A die goes out of service: exclusion map, roster, distance table (R154, R200, R280). -/
def State.dieLeaves (s : State) (d : Nat) : State :=
  let s := s.setExcl d true
  if s.serves (srcDie d) then (s.leave (srcDie d)).distChanged else s

/-- A die goes out of service with an event that stops its job, if it has one (R203, R397); under a paired job it
is a failure of this module (R346). -/
def State.dieOut (s : State) (d : Nat) (ev : EventRec) : State :=
  if s.excluded d && !s.serves (srcDie d) then s
  else
    let slot := s.slotOfDie d
    let s := s.dieLeaves d
    (match slot with
    | some k => s.partFault k ev
    | none => s.logEvent ev).checkDies

/-! ### Return to service (R200) -/

/-- A participant returns: it is waited for from the first round that opens after the next release. Round 0 in
the list stands for a round not yet known. Under an armed Manifest it has been missing (R490). -/
def State.rejoin (s : State) (src : Nat) : State :=
  if s.serves src then s
  else { s with
    man := if s.field Reg.MAN_STATUS 0 3 = 2 ∧ s.man.atT = none ∧ !s.man.out.contains src ∧ !s.man.left.contains src then
        { s.man with left := s.man.left ++ [src] } else s.man
    outOf := s.outOf.filter (· != src)
    toll := { s.toll with returning := s.toll.returning.filter (·.1 != src) ++ [(src, 0)] } }

/-! ### Contact groups (R359, R384) -/

/-- The source number of a part; a host interface die has its port's. -/
def partSrc : Sys2Proof.Part → Nat
  | .die d => srcDie d.toNat
  | .stack k => srcStack k.toNat
  | .engine k => srcEngine k.toNat
  | .controller => srcOstler
  | .hostDie p => srcHostPort p

/-- An event of class power or thermal (R384, R453). -/
def State.powerEvent (s : State) (cls cause p0 p1 : Nat) : EventRec :=
  { s.eventOf srcDrag cls cause with p0 := BitVec.ofNat 32 p0, p1 := BitVec.ofNat 64 p1 }

/-- A power event with the input voltage and current as they stand. -/
def State.logPower (s : State) (cause p1 : Nat) : State :=
  s.logEvent (s.powerEvent 0x0F cause (s.reg Reg.PWR_INPUT).toNat p1)

/-- A clock event (R400, R453); `die` where it names one. -/
def State.clockEvent (s : State) (cause ref : Nat) (die : Option Nat) : EventRec :=
  { s.eventOf srcClock 0x11 cause with
    p0 := BitVec.ofNat 32 (ref + (match die with
      | some d => 2 ^ 8 * d + 2 ^ 14
      | none => 0))
    p1 := (s.reg Reg.CLK_PPM).setWidth 64 }

/-- A die clock fault (R397): counted, the die out, its job stopped. -/
def State.dieClockFault (s : State) (d : Nat) : State :=
  if s.excluded d && !s.serves (srcDie d) then s
  else
    let s := (s.bump Reg.CLK_COUNTS 24 8 1).modDie d fun x => { x with pllLost := true }
    s.dieOut d (s.clockEvent 0x06 0 (some d))

/-- The part of a source number leaves service by the rules of its chapter (R202, R203); the manual gives no
cause for a stack lost here. -/
def State.participantOut (s : State) (src : Nat) : State :=
  if src < 0x10000 then (s.dieLeaves (gidDie src)).checkDies
  else if src < 0x10100 then
    let (v, s) := s.fresh
    s.loseStack (src - 0x10000) (v % 256)
  else if src < 0x10200 then s.engineOut (src - 0x10100) none
  else if src = srcHostPort false ∨ src = srcHostPort true then
    let p := src == srcHostPort true
    let s := if s.hostPortUp p then (s.setField (Reg.HIF_PORT_STATUS (if p then 1 else 0)) 0 12 0).portLost p else s
    s.leave src
  else s.leave src

/-- CONTACT_GROUP_OPEN (R359): the part leaves service. A die without its supply loses its PLL, so its job stops
through a die clock fault, and its strips are gone. With the module controller die go the Ostler, Drag, the clock controller
and the reset controller (R403). -/
def State.contactOpen (s : State) (p : Part) : State :=
  let s := s.logPower 0x05 (partSrc p)
  match p with
  | .die d => (s.dieClockFault d.toNat).stripsOut d.toNat 0x0B
  | .stack k => s.loseStack k.toNat 0x0A
  | .engine k => s.engineOut k.toNat none
  | .controller => [srcOstler, srcDrag, srcClock, srcReset].foldl State.leave s
  | .hostDie p =>
    let s := if s.hostPortUp p then (s.setField (Reg.HIF_PORT_STATUS (if p then 1 else 0)) 0 12 0).portLost p else s
    s.leave (srcHostPort p)

/-- Do the supply contacts of a group share its current too unequally (R359): more than 10 A in all, and one contact more
than 40 % off an equal share (log entry 133)? Currents in mA. -/
def unequalShare (currents : List Nat) : Bool :=
  let n := currents.length
  let total := currents.foldl (· + ·) 0
  decide (total > 10000) && currents.any fun c => decide (10 * (n * c) > 14 * total ∨ 10 * (n * c) < 6 * total)

/-- CONTACT_IMBALANCE (R359): the measured currents of a group's supply contacts. -/
def execContactImbalance (part : Part) (currents : List Nat) (s : State) : Answer :=
  .next (if unequalShare currents then s.logPower 0x04 (partSrc part) else s)
/-- CONTACT_GROUP_OPEN (R359). -/
def execContactGroupOpen (part : Part) (s : State) : Answer := .next (s.contactOpen part)
/-- DIE_PLL_LOCK_LOSS (R397). -/
def execDiePllLockLoss (die : BitVec 6) (s : State) : Answer := .next (s.dieClockFault die.toNat)

end Sys2Proof.Machine
end

