-- ==== Sys2Proof/Machine/Distance.lean ====
section
/-! DEFINITION. The distance table: straight paths to the nearest stack and the nearest enabled port (04 R153, R154). -/

namespace Sys2Proof.Machine

/-- The hops from a position to its die's border in a direction, the hop into the exchange unit included. -/
def borderHops (x y e : Nat) : Nat :=
  match e with
  | 0 => y + 1
  | 1 => 32 - x
  | 2 => 32 - y
  | _ => x + 1

/-- A straight path to a strip: stack number of the strip, hops, crossings. -/
structure StraightPath where
  stack : Nat
  hops : Nat
  crossings : Nat
  deriving DecidableEq, Repr

def StraightPath.beats (p : StraightPath) : Nat := p.hops + 12 * p.crossings

/-- Does the exclusion map show a die: its own bit, or every die while the module is drained and flagged (R280)? -/
def State.shownOut (s : State) (d : Nat) : Bool := s.excluded d || s.flash.drained

/-- The path from a die in a direction; none through an excluded die or across a down edge (R153). -/
def State.straight (s : State) (e : Nat) : Nat → Nat → StraightPath → Option StraightPath
  | 0, _, _ => none
  | n + 1, d, p =>
    if s.shownOut d then none
    else match dieNeighbour d e with
      | none => some { p with stack := stripStack d e }
      | some d' =>
        if s.edgeMode d e = 3 then none
        else State.straight s e n d' { p with hops := p.hops + 32, crossings := p.crossings + 1 }

/-- The four straight paths of a cluster that can be counted. -/
def State.paths (s : State) (d x y : Nat) : List StraightPath :=
  (List.range 4).filterMap fun e => s.straight e 8 d ⟨0, borderHops x y e, 0⟩

/-- The path with the fewest beats, ties to the lower number under a key. -/
def bestPath (key : StraightPath → Nat) : List StraightPath → Option StraightPath
  | [] => none
  | p :: ps => match bestPath key ps with
    | none => some p
    | some q => if p.beats < q.beats ∨ (p.beats = q.beats ∧ key p ≤ key q) then some p else some q

/-- The lowest enabled port of a strip whose engine is in service. -/
def State.stripPort (s : State) (k : Nat) : Option Nat :=
  ((List.range 4).map (4 * k + ·)).find? fun p => s.portEnabled p && s.serves (srcEngine (portEngine p))

/-- The nearest stack of a cluster (R153). -/
def State.nearestStack (s : State) (d x y : Nat) : Option StraightPath :=
  bestPath (·.stack) ((s.paths d x y).filter fun p => s.stackUp p.stack)

/-- The nearest enabled port of a cluster (R153). -/
def State.nearestPort (s : State) (d x y : Nat) : Option (Nat × StraightPath) :=
  match bestPath (fun p => (s.stripPort p.stack).getD 0) ((s.paths d x y).filter fun p => (s.stripPort p.stack).isSome) with
  | some p => (s.stripPort p.stack).map fun q => (q, p)
  | none => none

/-- Three bytes of an entry: number, hops, crossings. Without a target the number is 0xFF, the rest 0 on an excluded
die and open elsewhere (R153). A path over eight dies has up to 256 hops, which the byte of the rule cannot hold: the
ninth bit goes into the byte of the crossings (DESIGN CHOICE, log entry 153). -/
def State.distPart (s : State) (d i : Nat) (isPort : Bool) (p : Option (Nat × StraightPath)) : Nat :=
  match p with
  | some (k, p) => k + 2 ^ 8 * p.hops + 2 ^ 16 * p.crossings
  | none => 0xFF + 2 ^ 8 * (if s.shownOut d then 0 else (Config.noPath (1024 * d + i) isPort).toNat)

/-- The 8 bytes of an entry as a number. -/
def State.distEntry (s : State) (d i : Nat) : Nat :=
  let stack := (s.nearestStack d (i % 32) (i / 32)).map fun p => (p.stack, p)
  s.distPart d i false stack + 2 ^ 24 * s.distPart d i true (s.nearestPort d (i % 32) (i / 32))

end Sys2Proof.Machine
end

