-- ==== Sys2Proof/Machine/Events.lean ====
section
/-! DEFINITION. The event system: delivery, commit in order, suppression, the first mark, the flash log, the suspect
list, notification (18 R453-R463, R467). -/

namespace Sys2Proof.Machine

/-! ### Tollgate periods (R199, R206, R460) -/

/-- The period in beats. -/
def Toll.beats (t : Toll) : Nat := 2 ^ t.k

/-- The time of a round by base time, base round and log2 of the period (R199, R206). -/
def openAt (ms n k round : Nat) : Nat := ms + (round - n) * 2 ^ k * 4 / 5

/-- The last round that opened at or before a time, counted from a base. -/
def roundAt (ms n k t : Nat) : Nat := n + (5 * (t - ms + 1) - 1) / (4 * 2 ^ k)

/-- The Tollgate period of a time, by its start (R460); none before round 0 and while the Tollgate is stopped. -/
def Toll.periodOf (t : Toll) (ms : Nat) : Option Nat :=
  let spans := if t.started then (t.baseMs, t.baseN, t.k) :: t.past else t.past
  match spans.find? fun p => p.1 ≤ ms with
  | some (b, n, k) => if k = 0 then none else some (openAt b n k (roundAt b n k ms))
  | none => none

/-! ### Order and delivery (R32, R457) -/

/-- The order of R32: time, then source. -/
def EventRec.before (a b : EventRec) : Bool :=
  decide (a.ms < b.ms) || (a.ms == b.ms && decide (a.source.toNat < b.source.toNat))

/-- EVENT_DELIVERY (R457): the oldest record of a source reaches the module controller; while the Ostler restarts
the reset controller holds 4,096 and counts the rest (R403). -/
def State.deliverEvent (s : State) (src : BitVec 20) : State :=
  match s.ev.atSource.find? fun r => r.source.setWidth 20 == src with
  | none => s
  | some r =>
    let ev := { s.ev with atSource := s.ev.atSource.erase r }
    if ev.ostlerDown then
      if ev.heldByReset.length + ev.beforeStep.length < 4096 then { s with ev := { ev with heldByReset := ev.heldByReset ++ [r] } }
      else { s with ev := { ev with heldLost := ev.heldLost + 1 } }
    else { s with ev := { ev with arrived := ev.arrived ++ [r] } }

/-- The arrived record that comes first in the order. -/
def firstRec : List EventRec → Option EventRec
  | [] => none
  | r :: rs => match firstRec rs with
    | none => some r
    | some x => if x.before r then some x else some r

/-! ### The suspect list (R467, R472) -/

/-- The place of a failure (R453): the bit within the row, the region, the row. -/
def bistPlace (bit : Nat) (under : Bool) (row : Nat) : Nat := bit + (if under then 2 ^ 11 else 0) + 2 ^ 12 * row

/-- An event of class bist (R453): segment and failed runs, the record, the place. -/
def State.bistEvent (s : State) (g core cause seg runs record place : Nat) : EventRec :=
  { s.eventOf g 0x16 cause with
    loc := BitVec.ofNat 16 g
    pcore := BitVec.ofNat 8 core
    p0 := BitVec.ofNat 32 (seg + 2 ^ 12 * runs)
    p1 := BitVec.ofNat 64 record
    p2 := BitVec.ofNat 64 place }

def State.logBist (s : State) (g core cause seg runs record place : Nat) : State :=
  s.logEvent (s.bistEvent g core cause seg runs record place)

/-- The list in its register (R474). -/
def State.setSuspects (s : State) (l : List Suspect) : State :=
  { s with flash := { s.flash with suspects := l } }.setField Reg.FUS_SUSPECT 0 9 l.length

/-- A suspect core is confirmed: a soft repair of origin 3 and bist cause 0x03 (R468). `row` is the row entry where
every failure lies in one row, `runs` how many of the three runs failed. -/
def State.confirmSuspect (s : State) (d pc y core : Nat) (row : Option (Bool × Nat)) (seg runs place : Nat) : State :=
  let g := gidOf d y (((s.die d).logCol y pc).getD 31)
  let soft := (s.die d).soft.length
  let s := match row with
    | some (under, r) => s.addRow d pc y core under r 3
    | none => s.addCore d pc y core 3
  let record := (((s.die d).soft.drop soft).head?.map (·.toNat)).getD 0
  s.logBist g core 0x03 seg runs record place

/-- A residue event enters its physical core in the suspect list (R467). -/
def State.suspect (s : State) (r : EventRec) : State :=
  let g := r.loc.toNat
  let d := gidDie g
  let y := gidY g
  let pc := (s.die d).physCol y (gidX g)
  let same (x : Suspect) : Bool :=
    x.die.toNat == d && x.pcol.toNat == pc && x.y.toNat == y && x.core.toNat == r.pcore.toNat
  let l := s.flash.suspects
  if l.any same then s.setSuspects (l.map fun x => if same x then { x with count := x.count + 1, due := true } else x)
  else
    let x : Suspect := {
      die := BitVec.ofNat 6 d, pcol := BitVec.ofNat 6 pc, y := BitVec.ofNat 5 y
      core := BitVec.ofNat 5 r.pcore.toNat, count := 1, due := true }
    if l.length < 256 then s.setSuspects (l ++ [x])
    else match l.find? fun x => x.count == 1 with
      | some old => s.setSuspects (l.erase old ++ [x])
      | none => s.confirmSuspect d pc y r.pcore.toNat none 0 0 0

/-! ### Commit (R458-R463) -/

/-- Records that no limit of R460 holds back. -/
def EventRec.unlimited (r : EventRec) : Bool := r.flags.getLsbD 0 || r.cls == 0x12 || r.cls == 0x0E || r.cls == 0x15

/-- Records that also go to the flash (R461). -/
def EventRec.toFlash (r : EventRec) : Bool :=
  r.flags.getLsbD 0 || r.cls == 0x11 || r.cls == 0x12 || r.cls == 0x0F || r.cls == 0x10 || r.cls == 0x0E ||
    r.cls == 0x15 || r.cls == 0x13

/-- The event vector of the physical function, on every port whose link is up. -/
def State.sendEventIrq (s : State) : State :=
  let v := s.field Reg.EVT_CFG 0 5
  let s := [false, true].foldl (fun s p => if s.hostPortUp p then s.signalVector p 0 v else s) s
  { s with ev := { s.ev with lastIrq := some s.up, deferred := false } }

/-- The MSI-X message of a commit (R463): now, or with the deferred ones. -/
def State.notifyEvent (s : State) (cls : Nat) : State :=
  if s.field Reg.EVT_CFG 5 1 = 1 ∧ 1 ≤ cls ∧ cls ≤ 0x18 ∧ s.field Reg.EVT_IRQ_MASK cls 1 = 1 then
    match s.ev.lastIrq with
    | some t => if s.up < t + 10000 then { s with ev := { s.ev with deferred := true } } else s.sendEventIrq
    | none => s.sendEventIrq
  else s

/-- The job's first stopping event: its mark and the detail of a JOB_START that retires with 0x03 (R270, R462). -/
def State.markFirst (s : State) (r : EventRec) : EventRec × State :=
  match (List.range 64).find? fun k => (s.job k).held && r.jobTag != 0 && (s.job k).tag == r.jobTag with
  | some k =>
    let j := s.job k
    if r.flags.getLsbD 0 ∧ !r.flags.getLsbD 3 ∧ j.firstStop = none then
      let s := s.setJob k { j with firstStop := some (r.cls, r.cause) }
      let s := if j.st = .faulted then
          (s.modJob k fun j => { j with startRef := none }).completeOpt j.startRef 0x03 j.tag
            (r.cause.toNat + 2 ^ 8 * r.cls.toNat)
        else s
      ({ r with flags := r.flags ||| 2#16 }, s)
    else (r, s)
  | none => (r, s)

/-- A record goes into the log under the next seq (R458-R463, R467, R484); one that a limit holds back is no commit. -/
def State.commitRec (s : State) (r : EventRec) : State :=
  let key := (s.toll.periodOf r.ms).map fun p => (p, r.source, r.cls, r.cause)
  let n := match key with
    | some k => ((s.ev.counts.find? fun c => c.1 == k).map (·.2)).getD 0
    | none => 0
  if !r.unlimited && decide (n ≥ 16) then s.bump Reg.EVT_COUNTS 16 16 1
  else
    let (r, s) := s.markFirst r
    let r := { r with seq := s.ev.seq }
    let full := decide (s.ev.log.length ≥ 65536)
    let s := { s with
      ev := { s.ev with
        log := (r :: s.ev.log).take 65536
        seq := s.ev.seq + 1
        last := if r.flags.getLsbD 3 then s.ev.last else some (r.ms, r.source)
        counts := match key with
          | some k => (s.ev.counts.filter fun c => c.1 != k) ++ [(k, n + 1)]
          | none => s.ev.counts
        collQ := s.flash.collectors.zipIdx.foldl (fun m (c, i) =>
          if c.addr ≠ 0 ∧ c.mask.getLsbD r.cls.toNat then AMap.set [] m i (AMap.get [] m i ++ [r]) else m) s.ev.collQ }
      flash := if r.toFlash then { s.flash with log := (r :: s.flash.log).take 4096 } else s.flash }
    let s : State := if full then s.bump Reg.EVT_COUNTS 0 16 1 else s
    let s := if r.cls = 0x02#8 ∧ r.pcore ≠ 0xFF#8 then s.suspect r else s
    s.notifyEvent r.cls.toNat

/-- Has a record later in the order been committed (R458)? -/
def State.lateRec (s : State) (r : EventRec) : Bool :=
  match s.ev.last with
  | some (t, src) => decide (r.ms < t) || (r.ms == t && decide (r.source.toNat < src.toNat))
  | none => false

/-- A record is committed, with the late flag where its place in the order has passed. -/
def State.commitInOrder (s : State) (r : EventRec) : State :=
  s.commitRec (if s.lateRec r then { r with flags := r.flags ||| 8#16 } else r)

/-- EVENT_COMMIT (R458): the first arrived record, 16 µs after its time; a late one on arrival. While the Ostler
restarts nothing is committed. -/
def State.eventCommit (s : State) : State :=
  if s.ev.ostlerDown then s
  else match firstRec s.ev.arrived with
    | none => s
    | some r =>
      let s := { s with ev := { s.ev with arrived := s.ev.arrived.erase r } }
      let s := if s.clock.running && !s.lateRec r then s.advanceTo (r.ms + 16000) else s
      s.commitInOrder r

/-- Everything on its way is committed in order. -/
def State.flushEvents (s : State) : Nat → State
  | 0 => s
  | n + 1 =>
    match firstRec (s.ev.arrived ++ s.ev.atSource) with
    | none => s
    | some r =>
      let s := { s with ev := { s.ev with arrived := s.ev.arrived.erase r, atSource := s.ev.atSource.erase r } }
      State.flushEvents (s.commitInOrder r) n

/-- Commit what is on its way, and the records that those commits make, where the Ostler runs: before a reset reaches the
log (R413), and before the Milestone steps or starts again (R398). -/
def State.flushAll (s : State) : State :=
  if s.ev.ostlerDown then s else s.flushEvents (2 * (s.ev.arrived.length + s.ev.atSource.length) + 1)

/-- The records made before the Milestone steps while the Ostler restarts: the reset controller holds them in the order of
the log, as many as it has room for (R398, R403). -/
def Events.holdForStep (ev : Events) : Events :=
  let all := (ev.arrived ++ ev.heldByReset ++ ev.atSource).mergeSort fun a b => !b.before a
  let room := 4096 + ev.arrived.length - ev.beforeStep.length
  { ev with
    beforeStep := ev.beforeStep ++ all.take room, heldLost := ev.heldLost + (all.length - room)
    arrived := [], heldByReset := [], atSource := [] }

/-- The same before a new count of the Milestone, on which no earlier record counts as later and no period has begun. While
the Ostler restarts the records wait for it, before every record made on the new count. -/
def State.settleEvents (s : State) : State :=
  let s := if s.ev.ostlerDown then { s with ev := s.ev.holdForStep } else s.flushAll
  { s with ev := { s.ev with last := none, counts := [] } }

/-- The Ostler writes what was held from before a step of the Milestone, before anything else (R398, R403). -/
def State.commitHeldStep (s : State) : State :=
  if s.ev.beforeStep.isEmpty then s
  else
    let s := s.ev.beforeStep.foldl (fun s r => s.commitRec r) { s with ev := { s.ev with beforeStep := [] } }
    { s with ev := { s.ev with last := none, counts := [] } }

/-- EVENT_IRQ_DEFERRED (R463): one message 10 µs after the last. -/
def State.irqDeferred (s : State) : State :=
  if s.ev.deferred then
    let s := match s.ev.lastIrq with
      | some t => s.advanceUpTo (t + 10000)
      | none => s
    s.sendEventIrq
  else s

/-- The record that a seq names: zeros where it is overwritten or not committed (R459). -/
def State.logRecord (s : State) (seq : BitVec 32) : Option EventRec :=
  s.ev.log.find? fun r => r.seq == seq

/-- The 64 bytes of a record (R454). -/
def EventRec.bytes (r : EventRec) : List Byte :=
  natLe r.ms 8 ++ natLe r.source.toNat 4 ++ [r.cls, r.cause] ++ natLe r.jobTag.toNat 2 ++ natLe r.flags.toNat 2 ++
    natLe 0 2 ++ natLe r.seq.toNat 4 ++ natLe r.loc.toNat 2 ++ [r.lane, r.pcore] ++ natLe r.beat.toNat 8 ++
    natLe r.p0.toNat 4 ++ natLe r.p1.toNat 8 ++ natLe r.p2.toNat 8 ++ natLe 0 8

/-- EVENT_DELIVERY (R457). -/
def execEventDelivery (src : BitVec 20) (s : State) : Answer := .next (s.deliverEvent src)
/-- EVENT_COMMIT (R458). -/
def execEventCommit (s : State) : Answer := .next (s.traced s.eventCommit)
/-- EVENT_IRQ_DEFERRED (R463). -/
def execEventIrqDeferred (s : State) : Answer := .next s.irqDeferred

end Sys2Proof.Machine
end

