-- ==== Sys2Proof/Machine/Reset.lean ====
section
/-! DEFINITION. Reset sources and scopes: port, Ostler, warm and cold resets, failed starts, Recovery mode
(15 R401-R413, R242, R244). Block resets are in Bringup.lean, which re-runs the steps. -/

namespace Sys2Proof.Machine

/-! ### Events and causes (R412, R413) -/

/-- The source code of a software request (R401). -/
def viaSource : Via → Nat
  | .host _ _ => 0x09
  | .mgmt => 0x0A
  | .jtag => 0x0B

def flagBit (b : Bool) (i : Nat) : Nat := if b then 2 ^ i else 0

/-- The sources that are local evidence in pair mode: brown-out, clock failure, PERST#, a lock-up of the processor of a
host interface die (R346, R393, R404). -/
def resetEvidence (src : Nat) : Bool := src == 0x02 || src == 0x06 || src == 0x07 || src == 0x0C || src == 0x0E

/-- The event of a reset (R413, R455). -/
def State.logReset (s : State) (src scope : Nat) (promoted absorbed : Bool) (mask : Nat) : State :=
  s.logEvent (s.asEvidence (resetEvidence src) { s.eventOf srcReset 0x12 src with
    p0 := BitVec.ofNat 32 (src + 2 ^ 5 * scope + flagBit promoted 8 + flagBit absorbed 9)
    p1 := BitVec.ofNat 64 mask })

/-- RST_CAUSE names the last reset of block scope or wider with the Milestone value at its acceptance. -/
def State.setCause (s : State) (src scope : Nat) (promoted : Bool) : State :=
  (s.setReg Reg.RST_CAUSE (BitVec.ofNat 32 (src + 2 ^ 5 * scope + flagBit promoted 8))).setReg64 Reg.RST_CAUSE_MS_LO s.ms

/-! ### The pair and the jobs (R405) -/

/-- What a port sends while it has something to send, for a number of flit slots. -/
def State.flushPort (s : State) (p : Nat) : Nat → State
  | 0 => s
  | n + 1 =>
    let x := s.port p
    if x.st = 7#4 ∧ (x.nextChan.isSome ∨ !x.ctlq.isEmpty ∨ x.replayLeft ≠ 0) then State.flushPort (s.flitSlot p) p n
    else s

/-- The sources whose PAIR_FAIL has cause 0x04 (R346, R405). -/
def failCause (src : Nat) : Nat := if src = 0x02 ∨ src = 0x03 ∨ src = 0x0C ∨ src = 0x0E then 4 else 1

/-- PAIR_FAIL leaves before the links stop; nothing that is done retires any more (R346, R405). -/
def State.failPair (s : State) (src : Nat) : State :=
  if s.pairActive && s.pairState != 4 then
    let ports := s.activePairPorts
    let s := s.pairFails (failCause src)
    ports.foldl (fun s p => s.flushPort p 8192) s
  else s

/-- No command of a job gets a completion any more (R405). -/
def Job.mute (j : Job) : Job :=
  { j with loadRef := none, liveRef := none, startRef := none, stopRefs := [], unloadRef := none, dmas := [] }

/-- A job is stopped as JOB_KILL stops it (R295), at once; a fault of the running beat comes first (R296). -/
def State.killNow (s : State) (slot : Nat) : State :=
  let s := s.killJob slot 2#8
  let j := s.job slot
  if j.st = .running ∨ j.st = .stopping then
    if j.faultDue then (s.faultJob slot).modJob slot fun j => { j with faultDue := false, evidenceDue := false }
    else s.stopNow slot
  else s

/-- Every job stops without a completion, its streams closed with abort, and the CLOSE messages leave before the links stop
(R332, R405). A brown-out and an overvoltage follow R381 instead: the clocks stop. -/
def State.stopForReset (s : State) (src : Nat) : State :=
  let s := { s with jobs := s.jobs.map fun (p : Nat × Job) => if p.2.held then (p.1, p.2.mute) else p }
  if src = 2 ∨ src = 3 then s
  else
    let s := (List.range 64).foldl State.killNow s
    let busy := (List.range 128).filter fun p => s.streams.any fun x => x.2.port == p && x.2.st == .closing
    busy.foldl (fun s p => s.flushPort p 8192) s

/-- Every slot is free, its generation kept; no completion is written (R405). What is left poisoned in the queues is
counted (R465). -/
def State.dropJobs (s : State) : State :=
  let s := (List.range 64).foldl (fun s k => if (s.job k).held then s.countPoison k else s) s
  { s with jobs := (s.jobs.map fun (k, j) => (k, j.bare)).filter fun p => p.2 != {} }

/-! ### Warm reset (R242, R402) -/

/-- The lines of a strip buffer that hold entries: those in order, and those that came before their turn (R220,
R242). -/
def StreamSlot.bufferLines (x : StreamSlot) : Nat :=
  ((x.buf.length + (x.early.flatMap (·.2)).length) * x.desc.size + 63) / 64

/-- A die edge after its PHY is reset: untrained, relay mode fenced; down stays down (R402, R418). -/
def State.resetEdge (s : State) (d e : Nat) : State :=
  let r := Reg.FAB_XING_STATUS d e
  let s := if s.edgeMode d e = 1 then s.setField r 0 2 2 else s
  (s.setField r 2 1 0).setField r 8 8 0

/-- The PHY of the crossings between pairs of dies of a scope is reset (R402). -/
def State.resetCrossings (s : State) (scope : Nat → Nat → Bool) : State :=
  (List.range 64).foldl (fun s d => (List.range 4).foldl (fun s e => match dieNeighbour d e with
    | some d' => if scope d d' then s.resetEdge d e else s
    | none => s) s) s

/-- The fabric views of dies after a reset of their base die (R155, R402): nothing is pending, the registers are as at
reset. -/
def State.resetViews (s : State) (inScope : Nat → Bool) : State :=
  let view (off : Nat) : Bool := decide (0x400000 ≤ off) && decide (off < 0xC00000) &&
    decide ((off - 0x400000) % 0x20000 / 0x400 = 0x20) && inScope ((off - 0x400000) / 0x20000)
  { s with
    regs := s.regs.filter fun p => !view p.1
    fabViews := s.fabViews.filter fun p => !inScope p.1 }

/-- A stopped Tollgate keeps its earlier periods, to which records on their way belong (R460). -/
def Toll.stopped (t : Toll) (ms : Nat) : Toll :=
  { k := t.k, past := if t.started then (ms, 0, 0) :: (t.baseMs, t.baseN, t.k) :: t.past else t.past }

/-- A warm reset (R402): what the table keeps stays. BRU_STATUS then shows step 2 complete (R406); the reset is in progress
until step 3 releases the dies. A cold start that has not reached step 11 goes on (R410). -/
def State.warm (s : State) : State :=
  let lines := s.strips.foldl (fun n (_, x) => n + x.bufferLines) 0
  let old := s
  let s := (s.dropJobs).setReg Reg.CHS_WARM_DISCARD (BitVec.ofNat 32 lines)
  let s := s.flr 0
  let s := (List.range 128).foldl (fun s p =>
    let st := (s.port p).st.toNat
    let s := s.setField (Reg.LTN_PORT_EN (p / 32)) (p % 32) 1 0
    if 2 ≤ st ∧ st ≤ 8 then s.portFails p none
    else if st = 1 then s.modPort p fun x => { x with st := 0, since := s.ms }
    else s) s
  let s := (s.resetCrossings fun _ _ => true).resetViews fun _ => true
  let s := s.dropRecentring.setReg Reg.LIC_ENABLED 0
  let st := s.reg Reg.BRU_STATUS
  let beforeT := s.field Reg.MAN_STATUS 0 3 == 1 || s.field Reg.MAN_STATUS 0 3 == 2
  let s := s.setReg Reg.BRU_STATUS (BitVec.ofNat 32 (2 + bitsOf st.toNat 6 1 * 2 ^ 6 + 2 ^ 18))
  let s := (s.setReg Reg.BRU_FAIL_DETAIL 0).setReg Reg.RST_BLOCK_STATUS 0
  let s := { s with
    clusters := (s.clusters.map fun (p : Nat × Cluster) =>
      (p.1, ({ whl := p.2.whl.kept } : Cluster))).filter
      fun p => p.2 != ({} : Cluster)
    dies := (s.dies.map fun (p : Nat × Die) => (p.1, { p.2 with fw := 0, pllLost := false })).filter fun p => p.2 != ({} : Die)
    xunits := [], flights := [], transitIn := [], strips := [], transit := [], streams := [], opens := []
    toll := s.toll.stopped s.ms
    man := if beforeT then {} else s.man
    way := { s.way with buf := [], post := 0, force := false, header := [] }
    pair := { s.pair with held := [] }
    bru := { startUp := s.bru.startUp, startOpen := s.bru.startOpen, step0 := true, fusesLoaded := true, resetScope := 4
             step6Done := s.bru.step6Done,
             minStacksLocked := s.bru.minStacksLocked,
             burnDie := s.bru.burnDie, burnQueue := s.bru.burnQueue, licBusy := s.bru.licBusy
             flagged := s.bru.flagged } }
  let s := s.dies.foldl (fun (s : State) (p : Nat × Die) => s.fixDie p.1) s
  let s := if beforeT then
      (s.setField Reg.MAN_STATUS 0 3 0).setField Reg.MAN_STATUS 4 10 0
    else s
  let s := (s.setField Reg.WAY_STATUS 0 2 0).setField Reg.CLK_TG_STATUS 9 1 0
  s.trackIdle old

/-! ### Cold reset (R402, R244) -/

/-- The registers that the standby domain, the fuses and the flash keep through a cold reset (R402, R412, R383). -/
def coldKeeps (off : Nat) : Bool :=
  off == Reg.RST_CAUSE || off == Reg.RST_CAUSE_MS_LO || off == Reg.RST_CAUSE_MS_HI || off == Reg.RST_FAILED_STARTS ||
    off == Reg.PWR_COUNTS || off == Reg.FUS_SUSPECT || off == Reg.LIC_SERIAL_LO || off == Reg.LIC_SERIAL_HI ||
    off == Reg.LIC_KEYS || off == Reg.LIC_FLOOR || off == Reg.PWR_INPUT || off == Reg.PWR_THERMAL

/-- What a die keeps: its fuses and repair records (R402, R448). -/
def Die.cold (x : Die) : Die :=
  { fuses := x.fuses, shifted := x.shifted, rowsPending := x.rowsPending, rowsWaiting := x.rowsWaiting, degraded := x.degraded,
    pendingShift := x.pendingShift, fields := x.fields, soft := x.soft }

/-- A burn that a cold reset cuts (R447): which record it was at, and which of its bits were burned, nothing says. The
records before it are burned and gone from the flash; its own field record is spent without valid. -/
def State.burnCut (s : State) : State :=
  match s.bru.burnDie with
  | none => s
  | some d =>
    let (v, s) := s.fresh
    let (w, s) := s.fresh
    let q := s.bru.burnQueue.take (16 - (s.die d.toNat).fields.length)
    let i := v % max q.length 1
    let cut : List (BitVec 64) := ((q.drop i).take 1).map fun r => r &&& BitVec.ofNat 64 (w % 2 ^ 63)
    let s := s.modDie d.toNat fun x => { x with
      fields := x.fields ++ q.take i ++ cut
      soft := x.soft.filter fun r => !(q.take i).contains r }
    { s with bru := { s.bru with burnDie := none, burnQueue := [] } }

/-- A debug session closes (R497, R499): nothing where none is open. -/
def State.closeDebug (s : State) : State :=
  let open_ := s.jtag.level ≠ 0
  let s : State := { s with jtag := { s.jtag with level := 0 } }
  if open_ then s.logPlain srcOstler 0x18 0x04 0 0 0 else s

/-- A cold reset (R402): only the standby domain is spared. The Milestone is at 0 until step 2 starts it (R399). -/
def State.cold (s : State) : State :=
  let s := s.burnCut
  let status := s.field Reg.PWR_STATUS 2 4
  let trip := if s.field Reg.PWR_STATUS 2 2 = 3 then 3 else 0
  let t : State :=
    { State.reset with
      pending := s.pending
      up := s.up
      freeCtr := s.freeCtr
      sent := s.sent
      hostMem := s.hostMem
      regs := s.regs.filter fun p => coldKeeps p.1
      engines := (s.engines.map fun (k, e) =>
        (k, ({ savedHeater := e.savedHeater, savedTemp := e.savedTemp, savedSerials := e.savedSerials } : Engine))).filter
          fun p => p.2 != {}
      ports := (s.ports.map fun (k, x) => (k, ({ savedEq := x.savedEq } : Port))).filter fun p => p.2 != {}
      power := { s.power with periodMs := 0, kSent := [], ballast := [] }
      bru := { resetScope := 5, licBusy := s.bru.licBusy }
      dies := (s.dies.map fun (k, x) => (k, x.cold)).filter fun p => p.2 != {}
      ev := { s.ev with counts := [] }
      flash := s.flash
      mgmt := s.mgmt }
  let t := (t.setField Reg.PWR_STATUS 4 2 (status / 4)).setField Reg.PWR_STATUS 2 2 trip
  t.setField Reg.BRU_FW 0 1 (if s.flash.fwActive then 1 else 0)

/-! ### Failed starts and Recovery (R410, R411) -/

def State.failedStarts (s : State) : Nat := s.field Reg.RST_FAILED_STARTS 0 2

/-- Set the failed-start count in its register and in the flash. -/
def State.setFailed (s : State) (n : Nat) (recovery : Bool) : State :=
  let s := s.setReg Reg.RST_FAILED_STARTS (BitVec.ofNat 32 (n + flagBit recovery 8))
  { s with flash := { s.flash with failedStarts := n, recovery := recovery } }

/-- A cold reset with a source code: the pair told, the jobs stopped, a debug session closed (R497), its event and all that
came before it on the old count of the Milestone in the log and the flash (R413), everything below the standby domain
cleared. `third` says that the reset also counts as the third failed start, which has an event of its own (R410). -/
def State.coldFrom (s : State) (src : Nat) (promoted : Bool) (third : Bool := false) : State :=
  let s := (s.logReset src 5 promoted false 0).setCause src 5 promoted
  let s := ((s.failPair src).stopForReset src).closeDebug
  let s := if third then (s.logReset 0x10 5 false false 0).setCause 0x10 5 false else s
  s.settleEvents.cold

/-- Recovery entry (R410, R411): a cold reset with source 0x10; FAULT_N goes low. -/
def State.enterRecovery (s : State) : State :=
  ((s.coldFrom 0x10 false).setFailed 3 true).send (.faultN true)

/-- A start counts as failed (R410). True of the second component: it was the third, and Recovery follows. -/
def State.countFailure (s : State) : State × Bool :=
  if s.bru.startOpen then
    let n := min 3 (s.failedStarts + 1)
    (({ s with bru := { s.bru with startOpen := false } }).setFailed n s.inRecovery, decide (n ≥ 3) && !s.inRecovery)
  else (s, false)

/-- A failed step or deadline (R410, R416): the third failed start performs the cold reset into Recovery. -/
def State.startFails (s : State) : State :=
  let (s, third) := s.countFailure
  if third then s.enterRecovery else s

/-! ### Acceptance (R405, R409) -/

/-- The scope of the widest reset in progress (R409, R412): a cold one until step 0, a warm one until step 3 releases the
dies, a block reset while it is busy, a restart of the Ostler until it returns; 0 where there is none. -/
def State.inProgress (s : State) : Nat :=
  if s.bru.resetScope ≠ 0#3 then s.bru.resetScope.toNat
  else if s.bru.blockMask ≠ 0#64 then 3
  else if s.ev.ostlerDown then 2
  else 0

/-- Does a reset in progress absorb one of a scope: the same or a narrower one (R409)? -/
def State.absorbs (s : State) (scope : Nat) : Bool := decide (scope ≤ s.inProgress)

/-- Does a reset in progress absorb one of a host port: a wider one, or a reset of that port, whose link has not come back
(R404, R409)? -/
def State.absorbsPort (s : State) (p : Bool) : Bool := s.absorbs 1 || AMap.get false s.portReset (if p then 1 else 0)

/-- A reset of a scope that one in progress covers is absorbed: an event, nothing restarts twice (R409). The reset that
RST_CAUSE names shows it if it is the one in progress (R412). -/
def State.absorbed (s : State) (src scope mask : Nat) : State :=
  let s := s.logReset src scope false true mask
  if s.inProgress ≥ 3 then s.setField Reg.RST_CAUSE 9 1 1 else s

/-- A cold reset is accepted (R405, R409, R410): one in progress absorbs it. -/
def State.acceptCold (s : State) (src : Nat) (promoted : Bool) : State :=
  if s.absorbs 5 then s.absorbed src 5 0
  else
    let (s, third) := if src = 1 ∨ src = 2 ∨ src = 3 then (s, false) else s.countFailure
    let s := { s with bru := { s.bru with startOpen := false } }
    let s := s.coldFrom src promoted third
    if third then (s.setFailed 3 true).send (.faultN true) else s

/-- A warm reset is accepted; before step 6 has completed it is promoted to cold (R409). -/
def State.acceptWarm (s : State) (src : Nat) : State :=
  if s.absorbs 4 then s.absorbed src 4 0
  else if !s.bru.step6Done then s.acceptCold src true
  else
    let s := (s.logReset src 4 false false 0).setCause src 4 false
    ((s.failPair src).stopForReset src).flushAll.warm

/-- A port reset (R402, R404): by PERST#, which the status shows, or with its processor. The port's link and its
configuration space are reset, its vectors and its NumVFs with it. It is in progress until the link comes back (log entry
175). -/
def State.acceptPort (s : State) (src : Nat) (p : Bool) : State :=
  let k := if p then 1 else 0
  let r := Reg.HIF_PORT_STATUS k
  if s.absorbsPort p then
    let s := s.absorbed src 1 0
    if src = 0x0E then s else s.setField r 12 1 1
  else
    let s := (s.logReset src 1 false false 0).maskVectors fun q _ => q == p
    let s := { s with vfsGone := AMap.set false s.vfsGone k true, portReset := AMap.set false s.portReset k true }
    (s.setReg r (BitVec.ofNat 32 (if src = 0x0E then 0 else 2 ^ 12))).portLost p

/-! ### Sources -/

/-- The reference that the root PLL follows, or the one whose frequency it keeps in holdover (R392, R400, R453). -/
def State.reference (s : State) : Nat :=
  if s.field Reg.CLK_STATUS 0 2 = 3 then s.clock.held.toNat else s.field Reg.CLK_STATUS 0 2

/-- A clock failure (R393, R400, R401): local evidence in pair mode. -/
def State.clockFailure (s : State) : State :=
  (s.logEvent (s.asEvidence true (s.clockEvent 0x08 s.reference none))).acceptCold 0x0C false

/-- POWER_ON (R401): the standby domain has power; its clock starts. -/
def State.powerOn (s : State) : State :=
  let s := { s with up := 0, power := { s.power with off := false } }
  ((s.setField Reg.PWR_STATUS 0 2 1).setFailed s.flash.failedStarts s.flash.recovery).acceptCold 0x01 false

/-- A write of RST_CTRL (R412): a wrong key is ignored and counted. -/
def State.writeRstCtrl (s : State) (via : Via) (key op : Nat) : State :=
  if key ≠ 0xA5 then s.accessError (viaFn via)
  else
    match op with
    | 1 => s.acceptWarm (viaSource via)
    | 2 => s.acceptCold (viaSource via) false
    | 3 =>
      if s.inRecovery && via != .jtag then
        (({ s with bru := { s.bru with resetScope := 0, startOpen := false } }).setFailed 0 false).coldFrom
          (viaSource via) false |>.send (.faultN s.flash.drained)
      else s
    | _ => s

/-- OSTLER_WATCHDOG (R403): the firmware restarts and the management ports drop; the rest runs on. -/
def State.ostlerWatchdog (s : State) : State :=
  if s.absorbs 2 then s.absorbed 0x08 2 0
  else
    let s := s.logReset 0x08 2 false false 0
    { s with ev := { s.ev with ostlerDown := true }, mgmt := { s.mgmt with portsDown := true } }

/-- The record that tells how many events were lost while the Ostler was away; the manual names no class for
it, so it is one of class management with a free cause. -/
def State.lostRecord (s : State) (n : Nat) : State :=
  if n = 0 then s
  else
    let (v, s) := s.fresh
    s.logPlain srcOstler 0x18 (v % 256) n 0 0

/-- OSTLER_RETURN (R403): what the reset controller held from before a step of the Milestone is written to the log, the
other records arrive for it. -/
def State.ostlerReturn (s : State) : State :=
  if s.ev.ostlerDown then
    let n := s.ev.heldLost
    let s := { s with ev := { s.ev with ostlerDown := false } }.commitHeldStep
    let s := { s with
      ev := { s.ev with arrived := s.ev.arrived ++ s.ev.heldByReset, heldByReset := [], heldLost := 0 }
      mgmt := { s.mgmt with portsDown := false } }
    s.lostRecord n
  else s

/-- POWER_ON (R401). -/
def execPowerOn (s : State) : Answer := .next s.powerOn
/-- RESET_N_SHORT (R401). -/
def execResetNShort (s : State) : Answer := .next (s.acceptWarm 0x04)
/-- RESET_N_LONG (R401). -/
def execResetNLong (s : State) : Answer := .next (s.acceptCold 0x05 false)
/-- PERST (R404). -/
def execPerst (port : Bool) (s : State) : Answer := .next (s.acceptPort (if port then 0x07 else 0x06) port)
/-- OSTLER_WATCHDOG (R403). -/
def execOstlerWatchdog (s : State) : Answer := .next s.ostlerWatchdog
/-- OSTLER_RETURN (R403). -/
def execOstlerReturn (s : State) : Answer := .next s.ostlerReturn
/-- HIF_PROCESSOR_LOCK_UP (R404): the port and that die's processor; in pair mode cause 0x04 (R346). -/
def execHifProcessorLockUp (port : Bool) (s : State) : Answer :=
  .next (if s.absorbsPort port then s.absorbed 0x0E 1 0 else (s.failPair 0x0E).settleDone.acceptPort 0x0E port)
/-- WARM_RESET (R405): RST_CTRL op 1. -/
def execWarmReset (via : Via) (key : BitVec 8) (s : State) : Answer :=
  .next (s.gate via Reg.RST_CTRL fun s => s.writeRstCtrl via key.toNat 1)
/-- COLD_RESET (R405): RST_CTRL op 2. -/
def execColdReset (via : Via) (key : BitVec 8) (s : State) : Answer :=
  .next (s.gate via Reg.RST_CTRL fun s => s.writeRstCtrl via key.toNat 2)
/-- RECOVERY_EXIT (R411): RST_CTRL op 3. -/
def execRecoveryExit (via : Via) (key : BitVec 8) (s : State) : Answer :=
  .next (s.gate via Reg.RST_CTRL fun s => s.writeRstCtrl via key.toNat 3)
/-- ROOT_PLL_LOCK_LOSS (R400, R401): a clock failure. -/
def execRootPllLockLoss (s : State) : Answer :=
  .next s.clockFailure

end Sys2Proof.Machine
end

