-- ==== Sys2Proof/Machine/Clock.lean ====
section
/-! DEFINITION. The clock controller: the reference vote, losses, moves of the root PLL, Milestone beacons
(14 R385-R400). -/

namespace Sys2Proof.Machine

/-! ### References -/

/-- The status of a reference in CLK_STATUS: 0 voter, 1 deselected, 2 lost, 3 not started. -/
def State.refStatus (s : State) (r : Nat) : Nat := s.field Reg.CLK_STATUS (2 + 2 * r) 2
def State.setRef (s : State) (r v : Nat) : State := s.setField Reg.CLK_STATUS (2 + 2 * r) 2 v
def State.isVoter (s : State) (r : Nat) : Bool := s.refStatus r == 0

/-- A reference's frequency against the fast oscillator in the last window, in ppm. -/
def Clock.ppm (c : Clock) (r : Nat) : Int := if r = 0 then c.xaFo else if r = 1 then c.xbFo else 0

/-- The root PLL's own frequency, in ppm as `Clock.ppm` has it: what a move at 1 ppm in a µs still has to go short of where
it goes (R391), the last one in holdover (R392), else its reference's. -/
def State.pllPpm (s : State) : Int :=
  let c := s.clock
  let sel := s.field Reg.CLK_STATUS 0 2
  if c.moving.isSome then
    let left := (c.moveDue - s.ms + 999) / 1000
    if c.moveFrom < c.moveTo then c.moveTo - left else c.moveTo + left
  else if sel = 3 then c.heldPpm else c.ppm sel

/-- The root PLL starts to move from its present frequency to a reference: a move across d ppm takes d microseconds
(R391). -/
def State.startMove (s : State) (new : Nat) : State :=
  let a := s.pllPpm
  let b := s.clock.ppm new
  { s with clock := { s.clock with
    moving := some (BitVec.ofNat 2 new), moveFrom := a, moveTo := b, moveDue := s.ms + 1000 * (a - b).natAbs } }

/-- Where the root PLL goes from a reference: the other crystal if it is a voter, else the fast oscillator (R391). -/
def State.moveTarget (s : State) (old : Nat) : Nat :=
  let other := if old = 0 then 1 else 0
  if s.isVoter other ∧ other ≠ old then other else 2

/-- Both crystals are lost (R393). -/
def State.crystalsLost (s : State) : Bool := s.refStatus 0 == 2 && s.refStatus 1 == 2

/-- May the pair's link carry the module without crystals (R393, R399)? -/
def State.pairTrims (s : State) : Bool :=
  s.pairActive && s.pairState != 4 && !s.activePairPorts.isEmpty && s.field Reg.CLK_CFG 2 1 == 1

/-! ### The vote (R391) -/

/-- Do two frequencies agree? -/
def agree (a b : Int) : Bool := decide ((a - b).natAbs ≤ 100)

/-- The judgement of a window over three voters: an outlier, none, or undecided. -/
inductive Verdict where
  | fine
  | outlier (r : Nat)
  | undecided
  deriving DecidableEq, Repr

/-- The judgement over the voters' frequencies (R391). Where no one voter stands alone against two that agree, and
not all agree, the window is undecided. -/
def verdict (xs : List (Nat × Int)) : Verdict :=
  match xs with
  | [(i, a), (j, b), (k, c)] =>
    if agree a b ∧ agree a c ∧ agree b c then .fine
    else if agree a b ∧ !agree a c ∧ !agree b c then .outlier k
    else if agree a c ∧ !agree a b ∧ !agree b c then .outlier j
    else if agree b c ∧ !agree a b ∧ !agree a c then .outlier i
    else .undecided
  | [(_, a), (_, b)] => if agree a b then .fine else .undecided
  | _ => .fine

/-- A deviation from the mean of two, in whole ppm, saturating at ±511; which way a half goes is free. -/
def deviation (x a b : Int) (up : Bool) : Nat :=
  let n := 2 * x - (a + b)
  let q := n / 2 + (if n % 2 = 1 ∧ up then 1 else 0)
  ofSigned 10 (max (-511) (min 511 q))

/-- A window closes with its judgement. Of the earlier ones 63 are kept: at the longest period a round is released within 63
windows of its opening (R203). -/
def Clock.closeWindow (c : Clock) (ms : Nat) (v : Verdict) : Clock :=
  let r := match v with
    | .outlier r => some (BitVec.ofNat 2 r)
    | _ => none
  { c with windows := (ms, r) :: c.windows.take 63 }

/-- VOTE_WINDOW_END (R391): the three voters are judged. Over fewer than three voters CLK_PPM is free. -/
def State.voteWindowEnd (s : State) (xaFo xbFo : Int) : State :=
  if !s.clock.running then s
  else
    let s := s.advanceTo (s.clock.judgedMs + 1000000)
    let s := { s with clock := { s.clock with
      xaFo := xaFo, xbFo := xbFo, judgedMs := s.ms } }
    let voters := ([(0, xaFo), (1, xbFo), (2, (0 : Int))]).filter fun p => s.isVoter p.1
    let (v, s) := s.fresh
    let ppm := if voters.length = 3 then
        deviation xaFo xbFo 0 (bitAt v 0) + 2 ^ 10 * deviation xbFo xaFo 0 (bitAt v 1) +
          2 ^ 20 * deviation 0 xaFo xbFo (bitAt v 2)
      else v % 2 ^ 30
    let s : State := s.setReg Reg.CLK_PPM (BitVec.ofNat 32 ppm)
    let verd := verdict voters
    let s : State := { s with clock := s.clock.closeWindow s.ms verd }
    if verd = .undecided then
      let s := (s.setField Reg.CLK_STATUS 11 1 1).bump Reg.CLK_COUNTS 16 8 1
      let period := s.toll.periodOf s.ms
      if period.isSome ∧ s.clock.undecidedPeriod = period then s
      else
        { s with clock := { s.clock with undecidedPeriod := period } }.logEvent
          (s.clockEvent 0x03 s.reference none)
    else s.setField Reg.CLK_STATUS 11 1 0

/-- The clock controller enters a round at its opening and carries the last window that closed before it (R391). -/
def Clock.carry (c : Clock) (openMs : Nat) : Clock :=
  { c with carried := ((c.windows.find? fun w => decide (w.1 < openMs)).bind (·.2)) }

/-- Step 3 of a release (R201, R391-R394): the carried outlier is deselected, a lost reference is replaced, crystals
that agreed for 1 s return, the fast oscillator is trimmed. -/
def State.clockRelease (s : State) : State :=
  let sel := s.field Reg.CLK_STATUS 0 2
  let s := match s.clock.carried with
    | none => s
    | some r =>
      if s.isVoter r.toNat then
        let s := ((s.setRef r.toNat 1).bump Reg.CLK_COUNTS 0 8 1).logEvent (s.clockEvent 0x01 r.toNat none)
        if s.clock.moving = some r ∨ (sel = r.toNat ∧ s.clock.moving = none) then
          s.startMove (s.moveTarget r.toNat)
        else s
      else s
  let s : State := { s with clock := { s.clock with carried := none, gateStaged := s.field Reg.CLK_CFG 0 1 == 1 } }
  let s : State := s.clock.returning.foldl (fun s r => s.setRef r.toNat 0) s
  let s : State := { s with clock := { s.clock with returning := [] } }
  let s : State := if s.field Reg.CLK_STATUS 12 1 = 1 ∧ s.clock.moving = none then
      let target := if s.isVoter 0 then 0 else if s.isVoter 1 then 1 else 2
      if s.refStatus target = 2 then s else s.startMove target
    else s
  let close : Bool := decide ((s.clock.xaFo - s.clock.xbFo).natAbs ≤ 20)
  if s.isVoter 0 && s.isVoter 1 && close then s.setField Reg.CLK_STATUS 8 2 1
  else if s.crystalsLost && s.pairTrims then
    let s := if s.field Reg.CLK_STATUS 8 2 = 3 then s else s.logEvent (s.clockEvent 0x04 2 none)
    s.setField Reg.CLK_STATUS 8 2 3
  else s.setField Reg.CLK_STATUS 8 2 0

/-- REFERENCE_MOVE_COMPLETE (R391): the root PLL is on its new reference. -/
def State.moveComplete (s : State) : State :=
  match s.clock.moving with
  | none => s
  | some r =>
    let s := s.advanceTo s.clock.moveDue
    let s := { s with clock := { s.clock with moving := none } }
    (s.setField Reg.CLK_STATUS 0 2 r.toNat).setField Reg.CLK_STATUS 12 1 0

/-- REFERENCE_LOSS (R392, R393): the reference leaves the vote at once; the selected one leaves the root PLL in
holdover at its last frequency until the next release; the loss of both crystals is a clock failure unless the pair's link
carries on. A lost crystal that was about to return is lost again. -/
def State.referenceLoss (s : State) (r : Nat) : State :=
  if !s.clock.running ∨ r ≥ 3 ∨ (s.refStatus r = 2 ∧ !s.clock.returning.contains (BitVec.ofNat 2 r)) then s
  else
    let ppm := s.pllPpm
    let used := decide (s.field Reg.CLK_STATUS 0 2 = r) || s.clock.moving == some (BitVec.ofNat 2 r)
    let s := ((s.setRef r 2).bump Reg.CLK_COUNTS 8 8 1).logEvent (s.clockEvent 0x02 r none)
    let s := { s with clock := { s.clock with returning := s.clock.returning.filter (·.toNat != r) } }
    let s : State := if used then
        ({ s with clock := { s.clock with moving := none, held := BitVec.ofNat 2 r, heldPpm := ppm } }.setField Reg.CLK_STATUS 0 2 3).setField Reg.CLK_STATUS 12 1 1
      else s
    if s.crystalsLost && !s.pairTrims then s.clockFailure else s

/-- CRYSTAL_RETURN (R394): back as a voter at the next release. -/
def State.crystalReturn (s : State) (r : BitVec 2) : State :=
  if r.toNat < 2 ∧ (s.refStatus r.toNat = 1 ∨ s.refStatus r.toNat = 2) then
    { s with clock := { s.clock with returning := s.clock.returning.filter (· != r) ++ [r] } }
  else s

/-! ### Beacons (R397) -/

/-- A participant's copy of the Milestone, by source number. -/
def State.copy (s : State) (src : Nat) : Copy := AMap.get {} s.clock.copies src
def State.setCopy (s : State) (src : Nat) (x : Copy) : State :=
  { s with clock := { s.clock with copies := AMap.set {} s.clock.copies src x } }

/-- What a copy shows (R397): the master's value and what is left of the error, of which one count in 1,024 ns has been
held or doubled. -/
def State.copyValue (s : State) (src : Nat) : Int :=
  let x := s.copy src
  let left := x.err.natAbs - (s.ms - x.at_) / 1024
  s.ms + (if x.err < 0 then -(left : Int) else left)

/-- Step 3 loads the copies with each path's delay added, so that no copy is wrong (R397). -/
def State.loadCopies (s : State) : State := { s with clock := { s.clock with copies := [] } }

/-- One copy at a beacon (R397): its error is corrected from now on; beyond ±8 ns it is a clock fault, the third error in a
row beyond ±4 ns is an event. -/
def State.beaconCopy (s : State) (src : Nat) (die : Option Nat) (err : Int) (fault : State → State) : State :=
  let n := if err.natAbs > 4 then (s.copy src).bad + 1 else 0
  let s := s.setCopy src { err := err, at_ := s.ms, bad := n }
  let s := if n = 3 then s.logEvent (s.clockEvent 0x05 0 die) else s
  if err.natAbs > 8 then fault s else s

/-- One die at a beacon. -/
def State.beaconDie (s : State) (d : Nat) (err : Int) : State :=
  if !s.serves (srcDie d) ∨ s.excluded d then s
  else s.beaconCopy (srcDie d) (some d) err fun s => s.dieClockFault d

/-- Is the loss of a part that is no die local evidence in pair mode (R346): a stack or an engine that a paired job uses, a
host port? -/
def State.partPaired (s : State) (src : Nat) : Bool :=
  if src < 0x10100 then s.stackPaired (src - 0x10000)
  else if src < 0x10200 then s.enginePaired (src - 0x10100)
  else s.hostPortUp (src == srcHostPort true)

/-- A part that is no die at a beacon, by the same rules: a clock fault takes it out of service (R397, R455). -/
def State.beaconPart (s : State) (src : Nat) (err : Int) : State :=
  if !s.serves src then s
  else s.beaconCopy src none err fun s =>
    (s.logEvent (s.asEvidence (s.partPaired src) (s.clockEvent 0x06 0 none))).participantOut src

/-- The parts that keep copies beside the dies: DRAM stack controllers, photonic engines, host interface dies. -/
def copyParts : List Nat :=
  (List.range 32).map srcStack ++ (List.range 64).map srcEngine ++ [srcHostPort false, srcHostPort true]

/-- The largest error of a beacon round with its site. -/
def worstErr (errs : List (Nat × Int)) : Nat × Int :=
  errs.foldl (fun w e => if e.2.natAbs > w.2.natAbs then e else w) (0, 0)

/-- When the next beacon round is due: at a multiple of 65,536 ns that is later than the last one (R397). -/
def State.beaconDue (s : State) : Nat :=
  let t := (s.ms + 65535) / 65536 * 65536
  if t ≤ s.clock.beaconMs then s.clock.beaconMs + 65536 else t

/-- MILESTONE_BEACON (R397): errors by die site, and by source number for the other parts; what is not listed has none. -/
def State.beacon (s : State) (errs : List (Nat × Int)) : State :=
  if !s.clock.running then s
  else
    let s := s.advanceTo s.beaconDue
    let s := { s with clock := { s.clock with beaconMs := s.ms } }
    let (site, e) := worstErr (errs.filter fun p => decide (p.1 < 64))
    let s := s.setReg Reg.CLK_MS_ERR (BitVec.ofNat 32 (ofSigned 8 (max (-128) (min 127 e)) + 2 ^ 8 * (site % 64)))
    let err (k : Nat) : Int := ((errs.find? fun p => p.1 == k).map (·.2)).getD 0
    let s := (List.range 64).foldl (fun s d => s.beaconDie d (err d)) s
    copyParts.foldl (fun s k => s.beaconPart k (err k)) s

/-- VOTE_WINDOW_END (R391). -/
def execVoteWindowEnd (xaFo xbFo : Int) (s : State) : Answer := .next (s.voteWindowEnd xaFo xbFo)
/-- REFERENCE_MOVE_COMPLETE (R391). -/
def execReferenceMoveComplete (s : State) : Answer := .next s.moveComplete
/-- REFERENCE_LOSS (R392). -/
def execReferenceLoss (ref : BitVec 2) (s : State) : Answer := .next (s.referenceLoss ref.toNat)
/-- CRYSTAL_RETURN (R394). -/
def execCrystalReturn (ref : BitVec 2) (s : State) : Answer := .next (s.crystalReturn ref)
/-- MILESTONE_BEACON (R397). -/
def execMilestoneBeacon (errs : List (Nat × Int)) (s : State) : Answer := .next (s.beacon errs)

end Sys2Proof.Machine
end

