-- ==== Sys2Proof/Machine/Posting.lean ====
section
/-! DEFINITION. Posting and peer streams: HELLO, OPEN, GRANT, DATA, COMMIT, RESUME, CLOSE and their timeouts
(11 R324-R337, R351, R352). -/

namespace Sys2Proof.Machine

/-! ### Failures (R325, R334, R352) -/

/-- A stream fails: its job stops as a faulted job, with an event of class posting. Where the other end still holds the
stream it gets CLOSE 1, as every stream of a job that stops so (R332). -/
def State.failStream (s : State) (k cause : Nat) (held : Bool) : State :=
  let t := s.stream k
  let slot := t.job.toNat
  let j := s.job slot
  let ev := { s.eventOf (srcEngine (portEngine t.port)) 0x0D cause with
    jobTag := j.tag, p0 := BitVec.ofNat 32 t.port, p1 := t.key.setWidth 64 }
  let s := if held then s.closeStream k 1 else s.setStream k { t with st := .failed }
  if j.st = .loaded ∨ j.st = .running ∨ j.st = .stopping then s.slotFault slot ev else s.logEvent ev

/-- The stream of a port and key that has not ended. -/
def State.streamAt (s : State) (port : Nat) (key : BitVec 32) : Option Nat :=
  (s.streams.find? fun (_, t) => t.port == port && t.key == key && (t.st.isOpen || t.st == .waitOpen)).map (·.1)

/-- A discarded message (R325): counted; a stream that it names fails. -/
def State.protocolError (s : State) (port : Nat) (key : Option (BitVec 32)) : State :=
  let s := s.bump (Reg.PST_PORT_COUNT port) 16 16 1
  match key.bind fun k => s.streamAt port k with
  | some k => if (s.stream k).st.isOpen then s.failStream k 2 true else s
  | none => s

/-- A message that arrives on a port that has a link epoch. -/
def State.onEpoch (s : State) (port : Nat) (act : State → State) : State := if (s.port port).linked then act s else s

/-! ### HELLO and resumption (R325, R333) -/

/-- A suspended stream after HELLO: resumed under the same peer, failed under another. -/
def State.resume (s : State) (k id role : Nat) : State :=
  let t := s.stream k
  let want := if t.kind = 1 ∨ t.kind = 2 then 2 else 1
  if t.st ≠ .suspended then s
  else if t.peer.toNat ≠ id ∨ want ≠ role then s.failStream k 4 false
  else
    let s := s.setStream k { t with st := .opened, limitIn := 0 }
    if t.receives then (s.sendStream t 0x06 t.landed).grant k true else s

/-- Of the OPENs that are held on a port only those of one module stay. -/
def State.keepOpens (s : State) (port id : Nat) : State :=
  { s with opens := s.opens.filter fun o => o.1 / 2 ^ 32 != port || o.2.all fun w => w.2.2 == id }

/-- HELLO (R325, R333, R335, R337); an OPEN that another module sent on the port is held no longer. -/
def State.takeHello (s : State) (port : Nat) (m : HelloMsg) : State :=
  s.onEpoch port fun s =>
    let role := m.role.toNat
    if m.version ≠ 1 ∨ m.caps.toNat ≥ 4 ∨ (role ≠ 1 ∧ role ≠ 2) ∨ (role = 1 ∧ m.id.toNat ≥ 1024) then s.protocolError port none
    else
      let info := role + 2 ^ 2 * m.id.toNat + 2 ^ 14 * m.caps.toNat
      let s := (s.setReg (Reg.PST_PORT_INFO port) (BitVec.ofNat 32 info)).modPort port fun x => { x with helloSeen := true }
      let s := s.keepOpens port m.id.toNat
      ((s.streams.filter fun (_, t) => t.port == port).map (·.1)).foldl (fun s k => s.resume k m.id.toNat role) s

/-! ### Opening (R326, R332, R335) -/

def State.openTimeoutNs (s : State) : Nat := s.field Reg.PST_CFG 16 16 * 100000000
def State.streamTimeoutNs (s : State) : Nat := s.field Reg.PST_CFG 0 16 * 1000000

/-- OPEN (R326, R335): only another module's peer stream can be opened here. -/
def State.takeOpen (s : State) (port : Nat) (key : BitVec 32) (m : OpenBody) : State :=
  s.onEpoch port fun s =>
    let partnerOk := if m.pair then decide (m.partner.toNat < 1024) else m.partner == 0
    if m.dir ≠ 2 ∨ m.mode ≠ 0 ∨ m.elem ≠ 0 ∨ m.addr ≠ 0 ∨ m.lines = 0 ∨ !partnerOk then s.protocolError port (some key)
    else if m.pair then s.sendMsg port 0 0x03 2 key.toNat 6 []
    else
      let id := s.field (Reg.PST_PORT_INFO port) 2 12
      let s := { s with opens := AMap.set none s.opens (openKey port key) (some (m, s.ms, id)) }
      match s.streams.find? fun (_, t) =>
          t.port == port && t.key == key && t.kind == 3 && t.st == .waitOpen && t.peer.toNat == id with
      | some (k, _) => s.matchOpen k
      | none => s

/-- OPEN_ACK (R326, R331, R352). -/
def State.takeOpenAck (s : State) (port : Nat) (key : BitVec 32) (status : BitVec 64) : State :=
  s.onEpoch port fun s =>
    if status.toNat > 6 then s.protocolError port (some key)
    else match s.streamAt port key with
      | some k =>
        let t := s.stream k
        if t.st ≠ .opening then s
        else if status ≠ 0 then s.failStream k 3 false
        else (s.setStream k { t with st := .opened }).grant k true
      | none => s

/-- OPEN_TIMEOUT (R335): an OPEN without a matching send record is answered with status 5. -/
def State.openTimeout (s : State) (port : Nat) (key : BitVec 32) : State :=
  match AMap.get none s.opens (openKey port key) with
  | some (_, t0, _) =>
    let s := s.advanceTo (t0 + s.openTimeoutNs)
    let s := { s with opens := AMap.set none s.opens (openKey port key) none }
    s.sendMsg port 0 0x03 0 key.toNat 5 []
  | none => s

/-- OPEN_ANSWER_TIMEOUT (R352): 1 ms for a posting stream, open_timeout for a peer stream. -/
def State.openAnswerTimeout (s : State) (port : Nat) (key : BitVec 32) : State :=
  match s.streamAt port key with
  | some k =>
    let t := s.stream k
    if t.st = .opening then
      (s.advanceTo (t.openMs + (if t.kind = 4 then s.openTimeoutNs else 1000000))).failStream k 3 true
    else s
  | none => s

/-! ### Flow (R327, R328) -/

/-- A stream that this module opened is complete: CLOSE 0 (R328). -/
def State.streamComplete (s : State) (k : Nat) : State :=
  let t := s.stream k
  let s := s.setStream k { t with complete := true }
  if t.kind = 3 then s else s.closeStream k 0

/-- GRANT (R327). -/
def State.takeGrantMsg (s : State) (port : Nat) (key : BitVec 32) (limit : Nat) : State :=
  s.onEpoch port fun s =>
    match s.streamAt port key with
    | some k =>
      let t := s.stream k
      if t.receives ∨ limit > t.bytes ∨ limit % 64 ≠ 0 then s.protocolError port (some key)
      else if t.st = .opened then (s.setStream k { t with limitIn := max t.limitIn limit }).sendAll k
      else s
    | none => s

/-- COMMIT (R328, R331); what the partner of a pair has delivered of a follower's stream is no longer unsent here (R332,
R342). -/
def State.takeCommit (s : State) (port : Nat) (key : BitVec 32) (off : Nat) : State :=
  s.onEpoch port fun s =>
    match s.streamAt port key with
    | some k =>
      let t := s.stream k
      if t.receives ∨ off > t.bytes ∨ off % 64 ≠ 0 then s.protocolError port (some key)
      else
        let s := s.setStream k { t with
          committed := max t.committed off
          unsent := if s.sendsData t then t.unsent else t.unsent.filter fun l => decide (off ≤ 64 * l) }
        let s := match t.gate with
          | some key => s.giveCredits key
          | none => s
        if max t.committed off = t.bytes ∧ !t.complete then s.streamComplete k else s.closeIfSent k
    | none => s

/-- RESUME (R333): the sender goes back to an offset. -/
def State.takeResume (s : State) (port : Nat) (key : BitVec 32) (off : Nat) : State :=
  s.onEpoch port fun s =>
    match s.streamAt port key with
    | some k =>
      let t := s.stream k
      if t.receives ∨ off > t.bytes ∨ off % 64 ≠ 0 then s.protocolError port (some key)
      else if t.st = .opened ∨ t.st = .suspended then s.setStream k { t.back off with st := .opened }
      else s
    | none => s

/-- COMMIT of what has landed: at each further MiB and at the end (R328). -/
def State.commitLanded (s : State) (k : Nat) : State :=
  let t := s.stream k
  if t.landed ≥ t.commitOut + 2 ^ 20 ∨ (t.landed = t.bytes ∧ t.commitOut ≠ t.bytes) then
    let s := (s.sendStream t 0x05 t.landed).setStream k { t with commitOut := t.landed }
    if t.landed = t.bytes then s.streamComplete k else s
  else s

/-- The lines of a DATA message are written; a line whose stack is lost does not land. -/
def State.landLines (s : State) (k off : Nat) (lines : List Line) : State :=
  lines.zipIdx.foldl (fun s (x, i) =>
    let t := s.stream k
    let o := off + 64 * i
    let (s, ok) := s.writeLine (s.streamAddr t o) x.data x.poison t.paired
    if ok then s.setStream k (t.take [o / 64]) else s) s

/-- DATA (R325, R327, R329). -/
def State.takeDataMsg (s : State) (port chan : Nat) (key : BitVec 32) (off : Nat) (lines : List Line) : State :=
  s.onEpoch port fun s =>
    match s.streamAt port key with
    | some k =>
      let t := s.stream k
      let n := lines.length
      let bad := !t.receives || chan != (if t.kind = 1 then 1 else 2) || n == 0 || decide (n > 64) ||
        off % 64 != 0 || decide (off / 4096 ≠ (off + 64 * n - 1) / 4096) || decide (off + 64 * n > t.limitOut)
      if bad then s.protocolError port (some key)
      else if t.st = .opened then
        let s := s.landLines k off lines
        let s := if (s.stream k).gate.isNone then s.grant k false else s
        s.commitLanded k
      else s
    | none => s.protocolError port none

/-! ### Closing (R332) -/

/-- CLOSE (R332): of a peer stream, or of an OPEN that still waits. R325 has the module that opened send it; a sender
whose job was killed closes its streams too (R332, log entry 129), so a receiving end answers it as well. -/
def State.takeClose (s : State) (port : Nat) (key : BitVec 32) (arg : BitVec 64) : State :=
  s.onEpoch port fun s =>
    if arg.toNat > 1 then s.protocolError port (some key)
    else match s.streamAt port key with
      | some k =>
        let t := s.stream k
        if t.kind ≠ 3 ∧ t.kind ≠ 4 then s.protocolError port (some key)
        else (s.sendStream t 0x08 0).setStream k { t with st := .closed }
      | none =>
        match AMap.get none s.opens (openKey port key) with
        | some _ =>
          ({ s with opens := AMap.set none s.opens (openKey port key) none }).sendMsg port 0 0x08 0 key.toNat 0 []
        | none => s

/-- CLOSE_ACK (R332). -/
def State.takeCloseAck (s : State) (port : Nat) (key : BitVec 32) : State :=
  s.onEpoch port fun s =>
    match s.streamAt port key with
    | some k => if (s.stream k).st = .closing then s.setStream k { s.stream k with st := .closed } else s
    | none => s

/-- STREAM_TIMEOUT (R333): a suspended stream whose port has not come back. -/
def State.streamTimeout (s : State) (port : Nat) (key : BitVec 32) : State :=
  match s.streamAt port key with
  | some k =>
    let t := s.stream k
    if t.st = .suspended then (s.advanceTo (t.suspMs + s.streamTimeoutNs)).failStream k 1 false else s
  | none => s

/-- HELLO (R325). -/
def execHello (port : BitVec 7) (m : HelloMsg) (s : State) : Answer := .next (s.takeHello port.toNat m)
/-- OPEN (R326). -/
def execOpenMsg (port : BitVec 7) (key : BitVec 32) (m : OpenBody) (s : State) : Answer :=
  .next (s.takeOpen port.toNat key m)
/-- OPEN_ACK (R326). -/
def execOpenAck (port : BitVec 7) (key : BitVec 32) (status : BitVec 64) (s : State) : Answer :=
  .next (s.takeOpenAck port.toNat key status)
/-- GRANT of a stream (R327). -/
def execStreamGrant (port : BitVec 7) (key : BitVec 32) (limit : Nat) (s : State) : Answer :=
  .next (s.takeGrantMsg port.toNat key limit)
/-- COMMIT (R328). -/
def execCommit (port : BitVec 7) (key : BitVec 32) (off : Nat) (s : State) : Answer :=
  .next (s.traced (s.takeCommit port.toNat key off))
/-- RESUME (R333). -/
def execResume (port : BitVec 7) (key : BitVec 32) (off : Nat) (s : State) : Answer :=
  .next (s.takeResume port.toNat key off)
/-- CLOSE (R332). -/
def execCloseMsg (port : BitVec 7) (key : BitVec 32) (arg : BitVec 64) (s : State) : Answer :=
  .next (s.takeClose port.toNat key arg)
/-- CLOSE_ACK (R332). -/
def execCloseAck (port : BitVec 7) (key : BitVec 32) (s : State) : Answer := .next (s.takeCloseAck port.toNat key)
/-- DATA (R327). -/
def execData (port : BitVec 7) (chan : BitVec 2) (key : BitVec 32) (off : Nat) (lines : List Line) (s : State) : Answer :=
  .next (s.takeDataMsg port.toNat chan.toNat key off lines)
/-- STREAM_TIMEOUT (R333). -/
def execStreamTimeout (port : BitVec 7) (key : BitVec 32) (s : State) : Answer := .next (s.streamTimeout port.toNat key)
/-- OPEN_TIMEOUT (R335). -/
def execOpenTimeout (port : BitVec 7) (key : BitVec 32) (s : State) : Answer := .next (s.openTimeout port.toNat key)
/-- OPEN_ANSWER_TIMEOUT (R352). -/
def execOpenAnswerTimeout (port : BitVec 7) (key : BitVec 32) (s : State) : Answer :=
  .next (s.openAnswerTimeout port.toNat key)
/-- POSTING_PORT_DRAIN (R337). -/
def execPostingPortDrain (via : Via) (port : BitVec 7) (value : BitVec 32) (s : State) : Answer :=
  .next (s.gate via (Reg.PST_PORT_CTRL port.toNat) fun s =>
    s.setField (Reg.PST_PORT_CTRL port.toNat) 0 1 (value.toNat % 2))

end Sys2Proof.Machine
end

