-- ==== Sys2Proof/Machine/Pair.lean ====
section
/-! DEFINITION. Pair mode: formation, the joined Tollgate and Milestone, held completions, signatures and evidence,
failover, re-mirroring (11 R338-R352, 14 R398). -/

namespace Sys2Proof.Machine

/-- An event of class pair (R352). -/
def State.pairEvent (s : State) (cause : Nat) : EventRec :=
  { s.eventOf srcOstler 0x0E cause with
    p0 := BitVec.ofNat 32 (s.field Reg.PST_PAIR_STATUS 5 10 + 2 ^ 10 * s.pairState) }

/-- A pair message arrives on a pair port with the partner behind it: the lowest ACTIVE one. -/
def State.onPair (s : State) (act : State → Nat → State) : State :=
  match s.activePairPorts with
  | [] => s
  | p :: _ => act s p

/-- Does any slot hold a job? -/
def State.holdsJob (s : State) : Bool := (List.range 64).any fun k => (s.job k).held

/-! ### PAIR_HELLO (R339, R340) -/

/-- The time at which a round opens. -/
def State.roundOpens (s : State) (n : Nat) : Nat := openAt s.toll.baseMs s.toll.baseN s.toll.k n

/-- The first round that opens at least two periods from now. -/
def State.nextRound (s : State) : Nat :=
  let t := s.ms + 2 * s.toll.beats * 4 / 5
  let n := roundAt s.toll.baseMs s.toll.baseN s.toll.k t
  if s.roundOpens n < t then n + 1 else n

/-- The two PAIR_HELLO bodies. -/
def State.pairHelloBody (s : State) : List Byte :=
  let n := s.nextRound
  natLe s.moduleId 2 ++ [BitVec.ofNat 8 s.pairState, BitVec.ofNat 8 s.toll.k] ++ natLe 0 4 ++
    natLe (s.reg64 Reg.LIC_SERIAL_LO) 8 ++ natLe (s.roundOpens n) 8 ++ [BitVec.ofNat 8 n] ++ natLe 0 7

def State.generationBody (s : State) : List Byte :=
  (List.range 64).flatMap fun k => natLe (s.job k).gen.toNat 2

/-- A pair port is ACTIVE with the partner behind it (R339). -/
def State.partnerPort (s : State) : Bool :=
  s.activePairPorts.any fun p =>
    s.field (Reg.LTN_PORT_PEER p) 17 1 == 1 && s.field (Reg.LTN_PORT_PEER p) 0 10 == s.field Reg.PST_PAIR_CTRL 1 10

/-- The PAIR_HELLO messages go out once the partner can be reached: from a module that forms or stands single. -/
def State.pairTry (s : State) : State :=
  if (s.pairState = 1 ∨ s.pairState = 3) ∧ !s.pair.helloSent ∧ s.partnerPort then
    let s := { s with pair := { s.pair with helloSent := true, sigFrom := s.nextRound } }
    (s.sendPair 0x20 0 0 (segsOf s.pairHelloBody)).sendPair 0x20 1 0 (segsOf s.generationBody)
  else s

/-- Formation starts (R338, R339, R423): enabled, licensed, at full service. -/
def State.pairStart (s : State) : State :=
  if s.field Reg.PST_PAIR_CTRL 0 1 = 1 ∧ s.pairState = 0 ∧ s.service = 3 ∧ s.field Reg.LIC_ENABLED 1 1 = 1 then
    (s.setPairState 1).pairTry
  else s

/-- PAIR_ENABLE (R339, R351): ignored and logged while pair mode is active. -/
def State.writePairCtrl (s : State) (via : Via) (value : BitVec 32) : State :=
  if s.pairActive then
    if bitsOf value.toNat 0 11 = s.field Reg.PST_PAIR_CTRL 0 11 then s else s.logLockWrite via Reg.PST_PAIR_CTRL
  else (s.setField Reg.PST_PAIR_CTRL 0 11 (bitsOf value.toNat 0 11)).pairStart

/-! ### Joining (R341, R398) -/

/-- A slice in progress is abandoned: it runs again from its first segment (R341). -/
def Cluster.abandonSlice (c : Cluster) : Cluster :=
  if c.whl.sliceLeft = 0 then c
  else { c with whl := { c.whl with seg := c.whl.start, sliceLeft := 0, reruns := 0, fails := 0 } }

/-- The times of a port after a step of the Milestone. -/
def Port.stepped (x : Port) (f : Nat → Nat) : Port :=
  { x with
    since := f x.since, ackMs := f x.ackMs, notBefore := f x.notBefore, nakHeldMs := x.nakHeldMs.map f
    req := x.req.map fun r => { r with lastMs := f r.lastMs }
    retrainTimes := x.retrainTimes.map f, wideSince := x.wideSince.map f, activeMs := f x.activeMs }

/-- The Milestone steps (R398): whatever is timed from a moment on the old count is as far from it on the new one. -/
def State.stepMilestone (s : State) (now : Nat) : State :=
  let old := s.ms
  let f (x : Nat) : Nat := ((x : Int) + now - old).toNat
  { s with
    ms := now
    msOff := 0
    pollDue := f s.pollDue
    rings := s.rings.map fun (k, r) => (k, if r.unsignalled = 0 then r else { r with firstUnsig := f r.firstUnsig })
    ports := s.ports.map fun (k, x) => (k, x.stepped f)
    streams := s.streams.map fun (k, t) => (k, { t with openMs := f t.openMs, suspMs := f t.suspMs })
    dstacks := s.dstacks.map fun (k, x) => (k, if x.retrainTimes.isEmpty then x else { x with retrainTimes := x.retrainTimes.map f })
    pair := { s.pair with linkLostMs := s.pair.linkLostMs.map f }
    way := if s.way.header.isEmpty then s.way else { s.way with copyDue := f s.way.copyDue }
    power := { s.power with periodMs := (now + 1023) / 1024 * 1024 - 1024 }
    clock := { s.clock with
      judgedMs := f s.clock.judgedMs, windows := s.clock.windows.map fun w => (f w.1, w.2), carried := none, copies := []
      undecidedPeriod := none, beaconMs := 0
      moveDue := if s.clock.moving.isSome then f s.clock.moveDue else s.clock.moveDue } }

/-- The joining module steps its Milestone to the leader's and takes over its rounds (R341, R398). The leader's
Milestone at that moment comes from outside: it is the value that the last TIME message showed, corrected by a
one-way delay that only both ends together can tell, so a free value. -/
def State.joinLeader (s : State) (k nextOpen nextRound : Nat) : State :=
  let s := s.settleEvents
  let old := s.ms
  let (v, s) := s.fresh
  let off := (s.activePairPorts.flatMap fun p => (s.port p).msOff).head?
  let now := match off with
    | some d => ((old : Int) - d + v).toNat
    | none => v
  let s := s.stepMilestone now
  let s := s.logEvent { s.eventOf srcClock 0x11 0x07 with p1 := BitVec.ofNat 64 old, p2 := BitVec.ofNat 64 now }
  let n := if nextOpen ≥ now then nextRound
    else
      let m := roundAt nextOpen nextRound k now
      if openAt nextOpen nextRound k m < now then m + 1 else m
  let s := { s with
    toll := { started := true, baseMs := nextOpen, baseN := nextRound, k := k, oldest := n, opened := n,
              returning := s.toll.returning.map fun (p : Nat × Nat) => (p.1, 0) }
    clusters := s.clusters.map fun (g, c) => (g, Cluster.abandonSlice c) }
  let s := s.dropRecentring
  let s := (s.setReg Reg.CLK_TG_PERIOD (BitVec.ofNat 32 k)).setField Reg.CLK_TG_STATUS 9 1 0
  if s.field Reg.MAN_STATUS 0 3 = 1 ∨ s.field Reg.MAN_STATUS 0 3 = 2 then
    { s.setField Reg.MAN_STATUS 0 3 0 with man := {} }
  else s

/-- Every slot-generation counter from a PAIR_HELLO body. -/
def State.setGenerations (s : State) (f : Nat → Nat → Nat) (body : List Byte) : State :=
  (List.range 64).foldl (fun s k =>
    s.modJob k fun j => { j with gen := BitVec.ofNat 10 (f j.gen.toNat (leNat ((body.drop (2 * k)).take 2) % 1024)) }) s

/-! ### Formation (R339) -/

/-- Formation is refused: both wait (R339, R350). -/
def State.refusePair (s : State) : State :=
  ({ s with pair := { s.pair with hello1 := none, helloSent := false } }).logEvent (s.pairEvent 0x06)

/-- The partner's two messages are judged against this module's own state. -/
def State.judgeHello (s : State) (h gens : List Byte) : State :=
  let id := leNat (h.take 2) % 1024
  let theirs := (h.getD 2 0).toNat
  let k := (h.getD 3 0).toNat
  let nextOpen := leNat ((h.drop 16).take 8)
  let nextRound := (h.getD 24 0).toNat
  let s := s.setField Reg.PST_PAIR_STATUS 5 10 id
  let mine := s.pairState
  if id ≠ s.field Reg.PST_PAIR_CTRL 1 10 then s.refusePair
  else if mine = 1 ∧ theirs = 1 ∧ !s.holdsJob ∧ k = s.toll.k then
    let leads := decide (s.moduleId < id)
    let s := s.pairTry.setGenerations max gens
    let s := if leads then s else s.joinLeader k nextOpen nextRound
    let from_ := if leads then max s.pair.sigFrom s.toll.opened else s.toll.oldest
    let s := { s with pair := { helloSent := true, sigFrom := from_ } }
    let s := (s.setField Reg.PST_PAIR_STATUS 4 1 (if leads then 1 else 0)).setPairState 2
    s.logEvent (s.pairEvent 0x01)
  else if mine = 3 ∧ theirs = 1 then
    let s := { s.pairTry with
      pair := { s.pair with hello1 := none, helloSent := true, mirrorNext := 0, dirty := [], sending := [] } }
    s.setPairState 5
  else if mine = 1 ∧ theirs = 3 ∧ !s.holdsJob then
    let s := s.pairTry.setGenerations (fun _ n => n) gens
    let s := s.joinLeader k nextOpen nextRound
    let s := { s with pair := { helloSent := true } }
    (s.setField Reg.PST_PAIR_STATUS 4 1 0).setPairState 5
  else s.refusePair

/-- Does a PAIR_HELLO body have its length, and no reserved value (R325, R339, R340)? -/
def helloOk (last : Bool) (body : List Byte) : Bool :=
  let num (off n : Nat) : Nat := leNat ((body.drop off).take n)
  if last then body.length == 128 && (List.range 64).all fun k => decide (num (2 * k) 2 < 1024)
  else body.length == 32 && decide (num 0 2 < 1024) && decide (num 2 1 ≤ 7) && decide (12 ≤ num 3 1) &&
    decide (num 3 1 ≤ 24) && num 4 4 == 0 && num 25 7 == 0

/-- The round of this module's count that an 8-bit round number names: the nearest to the oldest. -/
def State.roundNamed (s : State) (r : Nat) : Nat :=
  let n := s.toll.oldest
  let d := (r + 256 - n % 256) % 256
  if d < 128 then n + d else n + d - 256

/-- The survivor's phase reaches the replacement (R350, log entry 31): from the mirrored phase on the pair units exchange
lists, from the round that the message names. -/
def State.followPhase (s : State) (phase : Nat) (body : List Byte) : State :=
  if phase = 7 then
    ({ s with pair := { s.pair with sigFrom := s.roundNamed (body.getD 24 0).toNat } }).setPairState 7
  else if phase = 6 then s.setPairState 6
  else if phase = 2 then
    let s := s.setPairState 2
    s.logEvent (s.pairEvent 0x05)
  else s

/-- PAIR_HELLO (R339, R340). A replacement that re-mirrors learns the survivor's phase from the state field of a
further first message (log entry 31). A survivor to which a replacement says again that it is forming has been refused
(R350): it stands single again. -/
def State.takePairHello (s : State) (port : Nat) (last : Bool) (body : List Byte) : State :=
  s.onEpoch port fun s =>
    let mine := s.pairState
    if port < 120 || !helloOk last body then s.protocolError port none
    else if !last then
      if mine ≥ 5 ∧ !s.pairLeads then s.followPhase (body.getD 2 0).toNat body
      else { s with pair := { s.pair with hello1 := some body } }
    else match s.pair.hello1 with
      | none => s.protocolError port none
      | some h =>
        if mine = 1 ∨ mine = 3 then s.judgeHello h body
        else if mine ≥ 5 ∧ s.pairLeads then s.refusePair.setPairState 3
        else s.refusePair

/-! ### Failover (R343, R346, R349) -/

/-- CPL_SEEN (R343): the follower writes what it holds of the ring up to seq. -/
def State.takeCplSeen (s : State) (fn loc seq : Nat) : State :=
  let rn := s.globalRing fn loc
  let known := AMap.get 0 s.pair.cplSeen rn
  let upto := known + (seq + 1 + 2 ^ 32 - known % 2 ^ 32) % 2 ^ 32
  let mine (h : HeldCpl) : Bool := h.ring == rn && decide (h.idx < upto)
  let s := (s.pair.held.filter mine).foldl (fun s h => s.writeQuiet h.ring h.idx h.entry) s
  { s with pair := { s.pair with
    held := s.pair.held.filter fun h => !mine h
    cplSeen := AMap.set 0 s.pair.cplSeen rn upto } }

/-- Every held completion is written, with a message on each ring written (R346). -/
def State.releaseHeld (s : State) : State :=
  let held := s.pair.held
  let s := held.foldl (fun s h => s.writeQuiet h.ring h.idx h.entry) s
  let rings := (held.map (·.ring)).eraseDups
  let s := rings.foldl (fun s rn =>
    let r := s.ring rn
    if r.vector = 0xFF#8 then s
    else (s.setRing rn { r with unsignalled := 0 }).signalVector r.port r.fn.toNat (r.vector.toNat % 32)) s
  { s with pair := { s.pair with held := [] } }

/-- Write streams that the leader delivered: this module resends whatever the store has not committed (R328, R342). -/
def State.takeOverWrites (s : State) : State :=
  ((s.streams.filter fun (_, t) => t.kind == 2 && t.paired && t.st == .opened).map (·.1)).foldl (fun s k =>
    let t := s.stream k
    (s.setStream k (t.back t.committed)).sendAll k) s

/-- This module stands alone as leader (R346, R349); its jobs have no partner any more (R350). -/
def State.becomeSingle (s : State) : State :=
  let s := s.releaseHeld
  let s := (List.range 64).foldl (fun s k =>
    if (s.job k).paired then s.modJob k fun j => { j with paired := false } else s) s
  let s := (s.setField Reg.PST_PAIR_STATUS 4 1 1).setPairState 3
  ({ s with pair := { linkLostMs := s.pair.linkLostMs } }).takeOverWrites

/-- PAIR_FAIL (R346): the partner has failed. A replacement that is not yet mirrored leads nothing (R350): it waits for
another survivor. -/
def State.takePairFail (s : State) (port cause : Nat) : State :=
  let st := s.pairState
  if cause < 1 ∨ 5 < cause then s.protocolError port none
  else if st = 2 ∨ st ≥ 5 then
    let s := s.bump Reg.PST_PAIR_COUNTS 0 8 1
    let s := if (st = 5 ∨ st = 6) ∧ !s.pairLeads then { s.setPairState 1 with pair := { linkLostMs := s.pair.linkLostMs } }
      else s.becomeSingle
    s.logEvent (s.pairEvent 0x02)
  else s

/-- The pair link is lost (R349); a module without crystals loses its clock with it (R393). -/
def State.loseLink (s : State) : State :=
  let st := s.pairState
  if st = 2 ∨ st ≥ 5 then
    let s := s.logEvent (s.pairEvent 0x04)
    let s := if s.pairLeads then s.becomeSingle else s.pairDeclareFailed 1
    if s.crystalsLost then s.clockFailure else s
  else if s.crystalsLost then s.clockFailure
  else s

/-- PAIR_LINK_LOST (R349): no pair port ACTIVE for 1 ms. -/
def State.pairLinkLost (s : State) : State :=
  match s.pair.linkLostMs with
  | some t => if s.activePairPorts.isEmpty then (s.advanceTo (t + 1000000)).loseLink else s
  | none => s

/-! ### Signatures and evidence (R344, R345, R347, R348) -/

/-- The unit as 16 bytes. -/
def SigUnit.bytes (u : SigUnit) : List Byte := natLe u.id.toNat 8 ++ natLe u.crc.toNat 8

/-- PAIR_SIG messages of up to 256 units, the last one marked. -/
def State.sendSigs (s : State) (round : Nat) (us : List SigUnit) : Nat → State
  | 0 => s
  | n + 1 =>
    let rest := us.drop 256
    let s := s.sendPair 0x21 (if rest.isEmpty then 1 else 0) round (segsOf ((us.take 256).flatMap SigUnit.bytes))
    if rest.isEmpty then s else State.sendSigs s round rest n

/-- At O_n (R345): the units closed since the last list go out and wait for the partner's. -/
def State.listSigs (s : State) (n : Nat) : State :=
  if s.comparing then
    let us := s.pair.closed.map fun u => { u with round := n }
    let s := s.sendSigs (n % 256) us (us.length / 256 + 1)
    { s with pair := { s.pair with closed := [], own := s.pair.own ++ us, ownListed := true } }
  else s

/-- An undecided mismatch (R348): every paired job stops as a faulted job. -/
def State.undecided (s : State) : State :=
  let s := s.bump Reg.PST_PAIR_COUNTS 8 8 1
  let ks := (List.range 64).filter fun k => (s.job k).paired &&
    ((s.job k).st == .loaded || (s.job k).st == .running || (s.job k).st == .stopping)
  if ks.isEmpty then s.logEvent (s.pairEvent 0x03)
  else s.slotFaults ks fun _ => s.pairEvent 0x03

/-- Both sides' evidence decides a mismatch (R347). -/
def State.weighEvidence (s : State) : State :=
  match s.pair.mismatch, s.pair.peerEvidence with
  | true, some theirs =>
    let mine := s.pair.evidence
    let s := { s with pair := { s.pair with mismatch := false, peerEvidence := none } }
    if mine != theirs then
      let s := s.bump Reg.PST_PAIR_COUNTS 16 8 1
      if mine then s.pairDeclareFailed 5 else s
    else s.undecided
  | _, _ => s

/-- A mismatch: PAIR_EVIDENCE goes out (R347). -/
def State.sigMismatch (s : State) : State :=
  if s.pair.mismatch then s
  else
    let s := { s with pair := { s.pair with mismatch := true } }
    (s.sendPair 0x24 0 (if s.pair.evidence then 1 else 0) []).weighEvidence

/-- Units that both sides have listed are compared; one unmatched for 64 rounds is a mismatch (R345). -/
def State.compareSigs (s : State) (n : Nat) : State :=
  let own := s.pair.own
  let peer := s.pair.peer
  let other (us : List SigUnit) (u : SigUnit) : Option SigUnit := us.find? fun v => v.id == u.id
  let wrong := own.any fun u => match other peer u with
    | some v => v.crc != u.crc
    | none => false
  let keep (us vs : List SigUnit) : List SigUnit := us.filter fun u => (other vs u).isNone && decide (n < u.round + 64)
  let stale := (own.any fun u => (other peer u).isNone && decide (u.round + 64 ≤ n)) ||
    peer.any fun u => (other own u).isNone && decide (u.round + 64 ≤ n)
  let s := { s with pair := { s.pair with own := keep own peer, peer := keep peer own } }
  if wrong || stale then s.sigMismatch else s

/-- The pair unit's duty in the open round (R345): it sends its list, and enters once both lists have been compared; one
that exchanges no lists enters at once. -/
def State.pairDuties (s : State) : State :=
  if !s.pairActive then s
  else if s.comparing then
    let s := if s.pair.ownListed then s else s.listSigs s.toll.oldest
    if s.pair.ownListed && s.pair.peerListed then (s.compareSigs s.toll.oldest).enterPair else s
  else s.enterPair

/-- PAIR_SIG (R345): a list of the oldest round, or of the next. -/
def State.takePairSig (s : State) (port : Nat) (round : BitVec 8) (units : List (BitVec 64 × BitVec 64)) (last : Bool) :
    State :=
  if units.length > 256 then s.protocolError port none
  else if s.pairState = 2 ∨ s.pairState = 7 then
    let n := s.roundNamed round.toNat
    let us := units.map fun (i, c) => ({ id := i, crc := c, round := n } : SigUnit)
    let s := { s with pair := { s.pair with
      peer := s.pair.peer ++ us, peerListed := s.pair.peerListed || (last && n == s.toll.oldest)
      peerNext := s.pair.peerNext || (last && n == s.toll.oldest + 1) } }
    if s.pair.ownListed && s.pair.peerListed then (s.compareSigs s.toll.oldest).enterPair else s
  else s

/-- PAIR_EVIDENCE (R347). -/
def State.takeEvidence (s : State) (present : Bool) : State :=
  if s.pairState = 2 ∨ s.pairState = 7 then
    let s := { s with pair := { s.pair with peerEvidence := some present } }
    if s.pair.mismatch then s.weighEvidence else s.sigMismatch
  else s

/-! ### Re-mirroring (R350) -/

def State.mirrorBase (s : State) : Nat := s.reg64 Reg.PST_PAIR_MIRROR_LO / 4096
def State.mirrorLen (s : State) : Nat := s.field Reg.PST_PAIR_MIRROR_LEN 0 29

/-- The survivor tells its phase (log entry 31). -/
def State.mirrorPhase (s : State) (st : Nat) : State :=
  let s := if st = 7 then { s with pair := { s.pair with sigFrom := s.nextRound } } else s
  let s := s.setPairState st
  s.sendPair 0x20 0 0 (segsOf s.pairHelloBody)

/-- A granule as one MIRROR message on a port. -/
def State.sendGranule (s : State) (port g : Nat) : State :=
  let (body, s) := (List.range 64).foldl (fun (b, s) i =>
    let (d, p, s) := State.readLine s (4096 * g + 64 * i) 0
    (b ++ segsOfLine { data := d, poison := p }, s)) (([] : List Seg), s)
  s.sendMsg port 3 0x25 0 0 (4096 * g) body

/-- MIRROR_SEND (R350): the next granule of the copy, of a release's dirty set, or one written since; what was written
before the pair stood is sent in the paired phase too. -/
def State.mirrorSend (s : State) (port : Nat) : State :=
  if port < 120 ∨ (s.port port).st ≠ 7#4 ∨ !s.pairLeads then s
  else
    let p := s.pair
    match s.pairState with
    | 5 =>
      if p.mirrorNext < s.mirrorLen then
        let s := s.sendGranule port (s.mirrorBase + p.mirrorNext)
        let s := { s with pair := { s.pair with mirrorNext := p.mirrorNext + 1 } }
        if p.mirrorNext + 1 = s.mirrorLen then s.mirrorPhase 6 else s
      else s.mirrorPhase 6
    | 6 =>
      match p.sending with
      | g :: rest => ({ s with pair := { p with sending := rest } }).sendGranule port g
      | [] => s
    | 0 | 1 | 3 | 4 => s
    | _ =>
      match p.sending, p.dirty with
      | g :: rest, _ => ({ s with pair := { p with sending := rest } }).sendGranule port g
      | [], (g, _) :: rest => ({ s with pair := { p with dirty := rest } }).sendGranule port g
      | [], [] => s

/-- The bytes that the ACTIVE pair ports carry in a time in ns: 64 GB/s for each fibre pair in use (R303). -/
def State.pairBytes (s : State) (ns : Nat) : Nat :=
  s.activePairPorts.foldl (fun n p => n + 64 * (s.port p).width.toNat * ns) 0

/-- What a release does for the mirror (R350): the dirty set of the delta phase, its end, and the end of the
mirrored phase when no unpaired job is held. -/
def State.mirrorRelease (s : State) : State :=
  if !s.pairLeads then s
  else match s.pairState with
    | 5 => s.setReg Reg.PST_PAIR_DIRTY (BitVec.ofNat 32 s.pair.dirty.length)
    | 6 =>
      let gs := s.pair.dirty.map (·.1)
      let all := s.pair.sending ++ gs.filter fun g => !s.pair.sending.contains g
      let s := { s with pair := { s.pair with dirty := [], sending := all } }
      let s := s.setReg Reg.PST_PAIR_DIRTY (BitVec.ofNat 32 gs.length)
      if all.length * 4112 ≤ s.pairBytes (s.toll.beats * 4 / 10) then s.mirrorPhase 7 else s
    | 7 =>
      if (List.range 64).all fun k => !(s.job k).held || (s.job k).paired then
        let s := s.mirrorPhase 2
        s.logEvent (s.pairEvent 0x05)
      else s
    | _ => s

/-- MIRROR (R345, R350): 1 to 64 whole lines of one granule land at the same address. A range that is not present here
refuses the formation, and this module's PAIR_HELLO messages tell the survivor so. -/
def State.takeMirror (s : State) (port addr : Nat) (lines : List Line) : State :=
  let n := lines.length
  if addr % 64 ≠ 0 ∨ n = 0 ∨ addr / 4096 ≠ (addr + 64 * n - 1) / 4096 then s.protocolError port none
  else if (s.pairState ≥ 5 ∨ s.pairState = 2) ∧ !s.pairLeads then
    if !s.chsPresent addr (64 * n) then (s.setPairState 1).refusePair.pairTry
    else lines.zipIdx.foldl (fun s (x, i) => (s.writeLine (addr + 64 * i) x.data x.poison true).1) s
  else s

/-- PAIR_ENABLE (R339). -/
def execPairEnable (via : Via) (value : BitVec 32) (s : State) : Answer :=
  .next (s.gate via Reg.PST_PAIR_CTRL fun s => s.writePairCtrl via value)
/-- PAIR_HELLO (R339). -/
def execPairHello (port : BitVec 7) (last : Bool) (body : List (BitVec 8)) (s : State) : Answer :=
  .next (s.traced (s.takePairHello port.toNat last body))
/-- PAIR_SIG (R345). -/
def execPairSig (round : BitVec 8) (units : List (BitVec 64 × BitVec 64)) (last : Bool) (s : State) : Answer :=
  .next (s.traced (s.onPair fun s p => s.takePairSig p round units last))
/-- PAIR_EVIDENCE (R347). -/
def execPairEvidence (present : Bool) (s : State) : Answer := .next (s.traced (s.onPair fun s _ => s.takeEvidence present))
/-- PAIR_FAIL (R346). -/
def execPairFail (cause : BitVec 8) (s : State) : Answer :=
  .next (s.traced (s.onPair fun s p => s.takePairFail p cause.toNat))
/-- CPL_SEEN (R343). -/
def execCplSeen (fn : BitVec 6) (ring : BitVec 16) (seq : BitVec 32) (s : State) : Answer :=
  .next (s.onPair fun s _ => s.takeCplSeen fn.toNat ring.toNat seq.toNat)
/-- MIRROR (R350). -/
def execMirror (addr : BitVec 41) (lines : List Line) (s : State) : Answer :=
  .next (s.onPair fun s p => s.takeMirror p addr.toNat lines)
/-- MIRROR_SEND (R350). -/
def execMirrorSend (port : BitVec 7) (s : State) : Answer := .next (s.mirrorSend port.toNat)
/-- PAIR_LINK_LOST (R349). -/
def execPairLinkLost (s : State) : Answer := .next (s.traced s.pairLinkLost)

end Sys2Proof.Machine
end

