-- ==== Sys2Proof/Machine/Wheelwright.lean ====
section
/-! DEFINITION. The Wheelwright: the rotation of cores under test, slices, judged segments, exposed jobs
(18 R469-R474). -/

namespace Sys2Proof.Machine

/-- The segments of a slice (R470) at a segment time in ns. -/
def State.sliceSize (s : State) (t : Nat) : Nat := 6 * s.toll.beats / (10 * t)

/-- The segment time on a die: 0.5 µs, at the half grade of a job 1 µs (R469). -/
def State.segmentNs (s : State) (d : Nat) : Nat :=
  match s.slotOfDie d with
  | some k => if (s.job k).live && (s.job k).half then 1000 else 500
  | none => 500

def State.whlEnabled (s : State) : Bool := s.field Reg.FUS_WHL_CFG 0 1 == 1

/-- The cores of a cluster that the rotation passes over. -/
def State.skippedCores (s : State) (g : Nat) : List Nat :=
  (s.die (gidDie g)).outCores ((s.die (gidDie g)).physCol (gidY g) (gidX g)) (gidY g)

/-- The next core of the order after `last` (R471). -/
def nextCore (last : Nat) (skip : List Nat) : Option Nat :=
  ((List.range 18).map fun i => (last + 1 + i) % 18).find? fun k => !skip.contains k

/-- Is a core the last of the order that is tested? -/
def lastCore (k : Nat) (skip : List Nat) : Bool := (List.range 18).all fun j => j ≤ k || skip.contains j

/-- The tag of the job that runs on a cluster's die. -/
def State.liveTag (s : State) (g : Nat) : Option (BitVec 16) :=
  match s.slotOfCluster g with
  | some k => if (s.job k).live then some (s.job k).tag else none
  | none => none

/-- A core comes back from its test at a release: as a free spare that has passed, or because rotation ends
(R471). -/
def State.returnCore (s : State) (g : Nat) : State :=
  let skip := s.skippedCores g
  s.modCluster g fun c =>
    match c.whl.core with
    | none => c
    | some k =>
      if c.whl.passed then
        { c with whl := {
          last := k.toNat
          turned := c.whl.turned || lastCore k.toNat skip
          served := c.whl.served.filter fun p => p.1 != k.toNat } }
      else { c with whl := { last := c.whl.last, turned := c.whl.turned, served := c.whl.served } }

/-- The next core leaves for test, its lane moving to a free spare (R471). -/
def State.takeCore (s : State) (g : Nat) : State :=
  match nextCore (s.cluster g).whl.last (s.skippedCores g) with
  | none => s
  | some k =>
    let lane := (s.cluster g).coreMap.findIdx? (· == k)
    let served := match s.liveTag g, lane with
      | some t, some _ => [(k, t)]
      | _, _ => []
    let s := match lane with
      | some l => if (s.spares g).isEmpty then s else s.moveLane g l
      | none => s
    if (s.cluster g).coreMap.contains k then s
    else s.modCluster g fun c =>
      { c with whl := { c.whl with
        core := some (BitVec.ofNat 5 k), seg := 0, reruns := 0, fails := 0, passed := false
        served := c.whl.served ++ served } }

/-- Step 2 of a release on one cluster (R470, R471). A slice whose die entered the round ahead (R202) may stand
unfinished: its segments are still due. -/
def State.rotateCluster (s : State) (g : Nat) : State :=
  let on := s.whlEnabled && s.guarded g
  let s := match (s.cluster g).whl.core with
    | some k => if (s.cluster g).whl.passed || !on || (s.skippedCores g).contains k.toNat then s.returnCore g else s
    | none => s
  if on then
    let s := if (s.cluster g).whl.core = none then s.takeCore g else s
    let n := s.sliceSize (s.segmentNs (gidDie g))
    s.modCluster g fun c =>
      if c.whl.core = none then c
      else if c.whl.sliceLeft = 0 then { c with whl := { c.whl with sliceLeft := n, start := c.whl.seg } }
      else { c with whl := { c.whl with sliceLeft := c.whl.sliceLeft + n } }
  else s

/-- Step 2 of a release on a die: lanes off cores that are out, rotation, and a swap of 8 beats where a lane of a
job whose beats advance moved (R201, R207, R443). -/
def State.rotateDie (s : State) (d : Nat) : State :=
  if s.excluded d || !s.serves (srcDie d) then s
  else
    let maps (s : State) : List (Nat × List Nat) :=
      (s.clusters.filter fun p => gidDie p.1 == d && p.2.coreMap != List.range 16).map fun p => (p.1, p.2.coreMap)
    let old := maps s
    let s := (List.range 1024).foldl (fun s i => s.rotateCluster (1024 * d + i)) (s.fixDie d)
    if maps s = old then s
    else match (s.slotOfDie d).filter fun k => (s.job k).beating with
      | some k => s.modJob k fun j => { j with swapLeft := 8 }
      | none => s


/-- Has every guarded cluster in service tested its last core since the last counted rotation (R474)? -/
def State.allTurned (s : State) : Bool :=
  let gs := (List.range 65536).filter fun g => !s.excluded (gidDie g) && s.serves (srcDie (gidDie g)) && s.guarded g
  !gs.isEmpty && gs.all fun g => (s.cluster g).whl.turned

/-- A rotation in which every guarded cluster has tested all its cores counts, and the next one begins; the register
saturates (R474). A cluster that was out and comes back takes part from then on. -/
def State.countRotations (s : State) : State :=
  if (s.clusters.any fun p => p.2.whl.turned) && s.allTurned then
    { s.bump Reg.FUS_WHL_STATUS 16 16 1 with
      clusters := s.clusters.map fun (p : Nat × Cluster) => (p.1, { p.2 with whl := { p.2.whl with turned := false } }) }
  else s

/-- Step 2 of a release. -/
def State.whlRelease (s : State) : State := ((List.range 64).foldl State.rotateDie s).countRotations

/-! ### Segments (R472, R473) -/

/-- The exposure of a defect: the jobs that the core served since it last passed. A live one stops; the tag of the
most recent one that has ended goes with the event. -/
def State.exposed (s : State) (served : List (BitVec 16)) : Option Nat :=
  (List.range 64).find? fun k => (s.job k).live && served.contains (s.job k).tag

/-- The event of a defect, which stops an exposed job, or the job that lost the die with it (R448), or names the last that
has ended (R473). -/
def State.logDefect (s : State) (d : Nat) (served : List (BitVec 16)) (r : EventRec) : State :=
  match (s.exposed served).or (s.lostJob d), served.getLast? with
  | some k, _ => s.slotFault k r
  | none, some t => s.logEvent { r with jobTag := t, flags := r.flags ||| 16#16 }
  | none, none => s.logEvent r

/-- The jobs (by tag) that a core has served since it last passed (R473). -/
def State.servedBy (s : State) (g core : Nat) : List (BitVec 16) :=
  ((s.cluster g).whl.served.filter fun p => p.1 == core).map (·.2)

/-- The record that a repair added to a die, 0 where it made none. -/
def State.madeSince (s old : State) (d : Nat) : Nat :=
  ((((s.die d).soft.drop (old.die d).soft.length).head?).map (·.toNat)).getD 0

/-- A defect of the core under test (R472): a soft repair of origin 2 and bist cause 0x01. -/
def State.whlDefect (s : State) (g core seg runs : Nat) (loc : BistLoc) : State :=
  let d := gidDie g
  let pc := (s.die d).physCol (gidY g) (gidX g)
  let served := s.servedBy g core
  let old := s
  let s := s.bump Reg.FUS_WHL_COUNTS 0 16 1
  let turn := lastCore core (s.skippedCores g)
  let s := s.modCluster g fun c => { c with whl := { last := core, turned := c.whl.turned || turn, served := c.whl.served } }
  let s := if loc.oneRow then s.addRow d pc (gidY g) core loc.under loc.row.toNat 2
    else s.addCore d pc (gidY g) core 2
  let place := bistPlace loc.bit.toNat loc.under loc.row.toNat
  s.logDefect d served (s.bistEvent g core 0x01 seg runs (s.madeSince old d) place)

/-- A transient (R472). -/
def State.whlTransient (s : State) (g core seg : Nat) (loc : BistLoc) : State :=
  (s.bump Reg.FUS_WHL_COUNTS 16 16 1).logBist g core 0x02 seg 1 0 (bistPlace loc.bit.toNat loc.under loc.row.toNat)

/-- A segment counts as run; the last one ends the test with a pass (R469, R471). -/
def WhlState.next (w : WhlState) : WhlState :=
  if w.seg + 1 < 2400 then { w with seg := w.seg + 1, reruns := 0, fails := 0 }
  else { w with seg := 2400, reruns := 0, fails := 0, passed := true, sliceLeft := 0 }

/-- BIST_SEGMENT_END (R469, R472): a run of the segment ends; a failing one is run twice more. -/
def State.segmentEnd (s : State) (g : Nat) (pass : Bool) (loc : BistLoc) : State :=
  let w := (s.cluster g).whl
  match w.core with
  | none => s
  | some k =>
    if w.sliceLeft = 0 ∨ w.passed then s
    else
      let w := { w with sliceLeft := w.sliceLeft - 1 }
      let put (w : WhlState) : State := s.modCluster g fun c => { c with whl := w }
      if w.reruns = 0 then
        if pass then put w.next else put { w with reruns := 2, fails := 1 }
      else
        let fails := w.fails + (if pass then 0 else 1)
        if w.reruns = 2 then put { w with reruns := 1, fails := fails }
        else if fails ≥ 2 then (put w).whlDefect g k.toNat w.seg fails loc
        else (put w.next).whlTransient g k.toNat w.seg loc

/-- BIST_SEGMENT_END (R469). -/
def execBistSegmentEnd (c : BitVec 16) (pass : Bool) (loc : BistLoc) (s : State) : Answer :=
  .next (s.segmentEnd c.toNat pass loc)

end Sys2Proof.Machine
end

