-- ==== Sys2Proof/Machine/Bringup.lean ====
section
/-! DEFINITION. Bring-up: the step protocol, the eleven steps, firmware banks, licences, failed starts (16 R414-R430,
12 R354, R355, R368, R369, 14 R395, 17 R435-R438, 07 R212, R234). -/

namespace Sys2Proof.Machine

/-! ### Keys, firmware banks, licences (R424-R428) -/

/-- A vendor key: its hash is the fused one of a slot that is present and not revoked. -/
def State.vendorKey (s : State) (slot : Nat) (key : BitVec 256) : Bool :=
  decide (slot < 2) && sha384 (natLe key.toNat 32) == Config.keyHash slot &&
    s.field Reg.LIC_KEYS slot 1 == 1 && s.field Reg.LIC_KEYS (2 + slot) 1 == 0

/-- The bytes of a bank, false for A. -/
def State.bank (s : State) (b : Bool) : Mem := if b then s.flash.bankB else s.flash.bankA
def State.bankOpen (s : State) (b : Bool) : Bool := if b then s.flash.openB else s.flash.openA

/-- Are n bytes all zero? -/
def zeros (m : Mem) (a n : Nat) : Bool := (readBytes m a n).all (· == 0)

/-- The checks of R425 on a bank: 0, or the position of the first that fails. -/
def State.bankCheck (s : State) (m : Mem) : Nat :=
  let len := readLe m 16 4
  if readLe m 0 4 ≠ 0x57464456 ∨ readLe m 4 2 ≠ 1 ∨ !zeros m 6 2 ∨ !zeros m 20 12 ∨ !zeros m 81 15 ∨ len = 0 ∨
      len > 16777216 then 1
  else if !s.vendorKey (readLe m 80 1) (BitVec.ofNat 256 (readLe m 96 32)) then 2
  else if !ed25519 (BitVec.ofNat 256 (readLe m 96 32)) (readBytes m 0 128)
      (BitVec.ofNat 512 (readLe m 128 64)) then 3
  else if readLe m 12 4 < s.flash.maxRollback.toNat then 4
  else if sha384 (readBytes m 192 len) ≠ BitVec.ofNat 384 (readLe m 32 48) then 5
  else 0

/-- Is a bank valid? One written since its last FW_COMMIT is not (R483). -/
def State.bankValid (s : State) (b : Bool) : Bool := !s.bankOpen b && s.bankCheck (s.bank b) == 0

/-- A number of n bytes of a record. -/
def recLe (r : List Byte) (a n : Nat) : Nat := leNat ((r.drop a).take n)

/-- The checks of R428 on a licence: the result code. -/
def State.licenceCheck (s : State) (rec : Option (List Byte)) : Nat :=
  match rec with
  | none => 1
  | some r =>
    let key := BitVec.ofNat 256 (recLe r 32 32)
    let features := recLe r 16 4
    if recLe r 0 4 ≠ 0x43494C56 ∨ recLe r 4 2 ≠ 1 ∨ recLe r 6 1 > 1 ∨ recLe r 7 1 ≠ 0 ∨ recLe r 24 8 ≠ 0 then 2
    else if recLe r 8 8 ≠ s.reg64 Reg.LIC_SERIAL_LO then 3
    else if !s.vendorKey (recLe r 6 1) key then 4
    else if !ed25519 key (r.take 64) (BitVec.ofNat 512 (recLe r 64 64)) then 5
    else if recLe r 20 4 < (s.reg Reg.LIC_FLOOR).toNat then 6
    else if features ≠ 3 ∧ features ≠ 7 then 7
    else 0

/-! ### Parts that fail in a step (R418) -/

/-- Is a die out of the rest of a start (R418)? A degraded die keeps its base die (R448) until that fails too. -/
def State.untouched (s : State) (d : Nat) : Bool := s.excluded d && !((s.die d).degraded && !(s.die d).baseOut)

/-- A die that fails leaves service, a degraded one with its base die; `strips` is the cause its stacks carry where its
strips go with it. -/
def State.excludeDie (s : State) (step : Nat) (strips : Option Nat) (d : Nat) : State :=
  if s.untouched d then s
  else
    let s := (s.logPartOut (srcDie d) step).dieLeaves d
    let s := if (s.die d).degraded then s.modDie d fun x => { x with baseOut := true } else s
    (match strips with
    | some c => s.stripsOut d c
    | none => s).checkDies

/-- The crossings of a die are untrained and fenced, seen from both sides. -/
def State.fenceDie (s : State) (d : Nat) : State :=
  (List.range 4).foldl (fun s e => match dieNeighbour d e with
    | some d' => (s.resetEdge d e).resetEdge d' (opposite e)
    | none => s) s

/-- A die that fails in a step of a start: out of service, its crossings untrained and fenced. -/
def State.excludeAt (s : State) (step : Nat) (strips : Option Nat) (d : Nat) : State :=
  if s.untouched d then s else (s.fenceDie d).excludeDie step strips d

/-- The die sites of a mask. -/
def sitesOf (m : BitVec 64) : List Nat := (List.range 64).filter fun d => m.getLsbD d

/-- What a step did: the state, the failure code or 0, BRU_FAIL_DETAIL. -/
abbrev StepResult := State × Nat × Nat

/-! ### Step 1 -/

/-- A die's fuse shadow is loaded with its repairs; a degraded die goes out again, one whose shift was pending comes back
(R445, R446, R448). -/
def State.loadDie (s : State) (d : Nat) : State :=
  if (s.die d).degraded then s.dieLeaves d
  else
    let t := s.applyRepairs d
    if (s.die d).pendingShift then (t.setExcl d false).distChanged else t

/-- Fuse load (R419, R382): rails up, fuse shadows, soft repairs applied, degraded dies out again (R446, R448). -/
def State.step1 (s : State) (env : StepEnv) : StepResult :=
  if s.power.tripCond then (s, 0x11, 0)
  else
    let s := (s.setField Reg.PWR_STATUS 2 2 0).setField Reg.PWR_STATUS 0 2 2
    match env.svcBad with
    | some k => (s, 0x12, k.toNat)
    | none =>
      let s := { s with bru := { s.bru with fusesLoaded := true } }
      let s := (List.range 64).foldl State.loadDie s
      ((sitesOf env.dieBad).foldl (fun s d => s.excludeAt 1 (some 0x0B) d) s, 0, 0)

/-! ### Step 2 -/

/-- The Milestone master starts at 0 (R396). -/
def State.startMaster (s : State) (env : StepEnv) : State :=
  { s with
    ms := 0
    clock := { running := true, gateStaged := s.clock.gateStaged, xaFo := env.ppmXaXb }
    power := { s.power with periodMs := 0 } }

/-- Clock start (R387, R395, R396): without a crystal or without lock the master does not start. -/
def State.step2 (s : State) (env : StepEnv) : StepResult :=
  let s := if env.pllLock && (env.xaRuns || env.xbRuns) then s.startMaster env else s
  let close := decide (env.ppmXaXb.natAbs ≤ 100)
  let pref := s.field Reg.CLK_CFG 1 1
  let lost (s : State) (r : Nat) : State :=
    ((s.setRef r 2).bump Reg.CLK_COUNTS 8 8 1).logEvent (s.clockEvent 0x02 r none)
  let (s, sel) :=
    if env.xaRuns && env.xbRuns then
      if close then (s, pref)
      else
        let sel := if env.xaNearer then 0 else 1
        (((s.setRef (1 - sel) 1).bump Reg.CLK_COUNTS 0 8 1).logEvent (s.clockEvent 0x01 (1 - sel) none), sel)
    else if env.xaRuns then (lost s 1, 0)
    else if env.xbRuns then (lost s 0, 1)
    else ((s.setRef 0 2).setRef 1 2, 0)
  if !env.xaRuns && !env.xbRuns then (s, 0x21, 0)
  else
    let s := s.setField Reg.CLK_STATUS 0 2 sel
    let trim : Bool := env.xaRuns && env.xbRuns && close
    let s := s.setField Reg.CLK_STATUS 8 2 (if trim then 1 else 0)
    if !env.pllLock then (s, 0x22, 0) else (s.setField Reg.CLK_STATUS 10 1 1, 0, 0)

/-! ### Step 3 -/

/-- Does a number have an odd count of ones among n bits? -/
def oddOnes (v n : Nat) : Bool := ((List.range n).filter fun i => bitAt v i).length % 2 == 1

/-- Bit e of a die's attach pattern: edge e is outward (R354). -/
def attachBits (d : Nat) : Nat :=
  (List.range 4).foldl (fun n e => if (dieNeighbour d e).isNone then n + 2 ^ e else n) 0

/-- The die strap that R354 and R355 give a site. -/
def diePattern (d : Nat) : Nat :=
  let v := attachBits d + 2 ^ 4 * d
  if oddOnes v 10 then v else v + 2 ^ 10

/-- The die straps as read (R355, R370): a die whose strap differs goes out with its strips, also a degraded one with its
strips in service (R448). A die that an earlier step has taken out is not read (R418). -/
def State.readDieStraps (s : State) (env : StepEnv) : State :=
  ((List.range 64).filter fun d => !s.untouched d).foldl (fun s d =>
    let v := match env.dieStraps.find? fun p => p.1 == d with
      | some p => p.2.toNat
      | none => diePattern d
    let bad := v != diePattern d
    let s := s.setReg (Reg.BRU_DIE_STRAP d) (BitVec.ofNat 32 (v + flagBit bad 11 + 2 ^ 12))
    if bad then s.excludeAt 3 (some 0x09) d else s) s

/-- Do 19 straps pass the checks of R368 after the first? -/
def strapsGood (v : Nat) : Bool := oddOnes v 19 && bitsOf v 16 2 != 0 && v != 2 ^ 19 - 1

/-- The module straps (R368-R370): True where they are accepted. Of two samples that differ, the manual does not say
which the register shows. -/
def State.readStraps (s : State) (a b : Nat) : State × Bool :=
  let (v, s) := s.fresh
  let x := if a = b ∨ bitAt v 0 then a else b
  let ok := a == b && strapsGood a
  let s := s.setReg Reg.BRU_STRAPS (BitVec.ofNat 32
    (x + flagBit ok 19 + flagBit (a != b) 20 + flagBit (a == b && !strapsGood a) 21))
  let id := x % 2 ^ 10
  let s := if ok then
      match bitsOf x 16 2 with
      | 2 => (s.setField Reg.PST_PAIR_CTRL 1 10 (id ^^^ 1)).setField Reg.PST_PAIR_CTRL 0 1 0
      | 1 => (s.setField Reg.PST_PAIR_CTRL 1 10 (id ^^^ 0x200)).setField Reg.PST_PAIR_CTRL 0 1 0
      | _ => s
    else s
  (s, ok)

/-- An edge that the die's strap calls outward works in attach mode; every other one is fenced until jobs span it (R134,
R355). -/
def State.setEdgeModes (s : State) : State :=
  (List.range 64).foldl (fun s d => (List.range 4).foldl (fun s e =>
    if s.field (Reg.BRU_DIE_STRAP d) e 1 = 1 then s.setField (Reg.FAB_XING_STATUS d e) 0 2 0
    else if s.edgeMode d e = 3 then s else s.setField (Reg.FAB_XING_STATUS d e) 0 2 2) s) s

/-- Die release (R419): straps are read on a cold start only (R369). With the release a warm reset has ended, and every copy
of the Milestone is loaded (R397). -/
def State.step3 (s : State) (env : StepEnv) : StepResult :=
  let s := (sitesOf env.dieBad).foldl (fun s d => s.excludeAt 3 (some 0x0B) d) s
  if s.liveDies.isEmpty then (s, 0x32, 0)
  else
  let s := { s with bru := { s.bru with resetScope := 0 } }.loadCopies
  if s.field Reg.BRU_STATUS 18 1 = 1 then (s.setEdgeModes, 0, 0)
  else
    let s := (s.readDieStraps env).setEdgeModes
    match s.readStraps env.sample1.toNat env.sample2.toNat with
    | (s, true) => (s, 0, 0)
    | (s, false) => (s, 0x31, 0)

/-! ### Step 4 (R435-R438) -/

/-- Every crossing: die, edge 1 or 2, the die beyond. -/
def crossings : List (Nat × Nat × Nat) :=
  (List.range 64).flatMap fun d => [1, 2].filterMap fun e => (dieNeighbour d e).map fun d' => (d, e, d')

/-- A lane entry (R441). -/
def laneEntry (e lane spare : Nat) : Nat := e + 2 ^ 2 * lane + 2 ^ 16 * spare + 2 ^ 24

/-- A soft lane repair of the interconnect test. -/
def State.pushLane (s : State) (d e : Nat) (p : Nat × Nat) : State :=
  s.pushSoft d (mkRecord 3 4 (laneEntry e p.1 p.2))

/-- The first free spare of a lane (R435). -/
def freeSpare (lane : Nat) (used : List Nat) : Option Nat :=
  let g := lane / 63
  let order := [g, g + 1] ++ (if g = 0 then [] else [g - 1])
  order.find? fun k => decide (k ≤ 155) && !used.contains k

/-- Newly bad lanes take spares in ascending order; false where one finds none. -/
def assignSpares (known : List (Nat × Nat)) : List Nat → List (Nat × Nat) × Bool
  | [] => ([], true)
  | l :: ls =>
    match freeSpare l (known.map (·.2)) with
    | none =>
      let (out, _) := assignSpares known ls
      (out, false)
    | some k =>
      let (out, ok) := assignSpares (known ++ [(l, k)]) ls
      ((l, k) :: out, ok)

/-- The lanes of an edge that a test found bad, ascending. -/
def badLanesOf (bad : List BadLane) (d e : Nat) : List Nat :=
  (bad.filter fun b => b.die.toNat == d && b.edge.toNat == e).foldl (fun l b => insertNat b.lane.toNat l) []

/-- The serial number of a die, of an engine. -/
def dieSerial (env : StepEnv) (d : Nat) : BitVec 64 := ((env.dieSerials.find? fun p => p.1 == d).map (·.2)).getD 0
def engineSerial (env : StepEnv) (k : Nat) : BitVec 64 := ((env.engineSerials.find? fun p => p.1 == k).map (·.2)).getD 0

/-- A die's temperature while a step tests or trains. -/
def dieTemp (env : StepEnv) (d : Nat) : Nat := ((env.dieTemps.find? fun p => p.1 == d).map (·.2)).getD 25

/-- The serial numbers of the parts that a die edge joins (R420): two dies, or a die and the engines of its strip. -/
def edgeSerials (env : StepEnv) (d e : Nat) : List (BitVec 64) :=
  dieSerial env d :: (match dieNeighbour d e with
    | some d' => [dieSerial env d']
    | none => [engineSerial env (2 * stripStack d e), engineSerial env (2 * stripStack d e + 1)])

/-- Does an edge get the full test (R421, R436): no accepted record, other spares since it was taken, other parts, or a
lane that fails the short check? -/
def State.edgeFull (s : State) (env : StepEnv) (d e : Nat) : Bool :=
  !s.useSaved || env.edgesUnfit.contains (d * 4 + e) || !(badLanesOf env.badLanes d e).isEmpty ||
    (match AMap.get none s.flash.savedEdges (d * 4 + e) with
    | some r => r.pairs != (s.die d).lanePairs e || r.serials != edgeSerials env d e
    | none => true)

/-- An edge has been tested; the record of a start's full test waits for step 11 (R420, R421). -/
def State.edgeTested (s : State) (env : StepEnv) (d e : Nat) (full : Bool) : State :=
  if full ∧ s.field Reg.BRU_STATUS 0 4 = 4 ∧ s.field Reg.BRU_STATUS 4 2 = 1 then
    let x : EdgeRec := { pairs := (s.die d).lanePairs e, serials := edgeSerials env d e, temp := dieTemp env d }
    let r := AMap.set none s.bru.newEdges (d * 4 + e) (some x)
    { s.noteFull 0 7 1 with bru := { s.bru with newEdges := r } }
  else s

/-- One crossing at step 4: the union of both dies' entries, spares for new bad lanes, or unrepairable (R438). Every lane
found bad that finds a spare becomes a soft repair (R436); on an edge that is unrepairable only as far as the 32 entries of
the edge and the 48 soft repairs of each die go, for both dies stay in service. -/
def State.checkCrossing (s : State) (env : StepEnv) (c : Nat × Nat × Nat) : State :=
  let (d, e, d') := c
  let e' := opposite e
  let bad := env.badLanes
  let full := s.edgeFull env d e || s.edgeFull env d' e'
  let a := (s.die d).lanePairs e
  let b := (s.die d').lanePairs e'
  let known := a ++ b.filter fun p => !a.contains p
  let lanes := ((badLanesOf bad d' e').foldl (fun l x => insertNat x l) (badLanesOf bad d e)).filter fun l =>
    decide (l < 9828) && !(known.map (·.1)).contains l
  let (fresh, spared) := assignSpares known lanes
  let ok := spared && decide (known.length + fresh.length ≤ 32)
  let make (s : State) (ps : List (Nat × Nat)) (d e : Nat) : State := ps.foldl (fun s p => s.pushLane d e p) s
  let union := if known.length ≤ 32 then known else []
  let s := make (make s (union.filter fun p => !a.contains p) d e) (union.filter fun p => !b.contains p) d' e'
  let room := min (32 - known.length) (48 - max (s.die d).soft.length (s.die d').soft.length)
  let s := (if ok then fresh else fresh.take room).foldl (fun s p => (s.pushLane d e p).pushLane d' e' p) s
  let s := (s.edgeTested env d e full).edgeTested env d' e' full
  let both (s : State) (f : State → Nat → Nat → State) : State := f (f s d e) d' e'
  let s := both s fun s d e =>
    (s.setField (Reg.FAB_XING_STATUS d e) 16 6 ((s.die d).lanePairs e).length).modDie d fun x =>
      { x with edgesBad := x.edgesBad &&& ~~~(BitVec.ofNat 4 (2 ^ e)) }
  if ok then s
  else
    let s := both s fun s d e =>
      ((s.setField (Reg.FAB_XING_STATUS d e) 0 2 3).modDie d fun x =>
        { x with edgesBad := x.edgesBad ||| BitVec.ofNat 4 (2 ^ e) }).logRepair d 0x05 0
    s.distChanged

/-- One attach-mode edge at step 4: a spare serves 32 lanes; a lane whose spare is taken loses its fibre pair
(R437). -/
def State.checkAttach (s : State) (env : StepEnv) (d e : Nat) : State :=
  let full := s.edgeFull env d e
  let s := ((badLanesOf env.badLanes d e).filter fun l => decide (l < 512)).foldl (fun s l =>
    let known := (s.die d).lanePairs e
    if (known.map (·.1)).contains l then s
    else if (known.map (·.2)).contains (l / 32) then
      let pair := l % 256 / 16
      let port := 4 * stripStack d e + 2 * (l / 256) + pair / 8
      s.modPort port fun x => { x with permBad := x.permBad ||| BitVec.ofNat 8 (2 ^ (pair % 8)) }
    else s.pushLane d e (l, l / 32)) s
  (s.setField (Reg.FAB_XING_STATUS d e) 16 6 ((s.die d).lanePairs e).length).edgeTested env d e full

/-- Does a step test a die: one in service, or one that a block reset names (R408)? -/
def State.tested (s : State) (d : Nat) : Bool :=
  (!s.excluded d || s.bru.blockMask.getLsbD d) && !(s.die d).degraded

/-- Does a die's base die work: the die is tested, or is degraded and keeps its base die (R448)? -/
def State.baseWorks (s : State) (d : Nat) : Bool := s.tested d || ((s.die d).degraded && !(s.die d).baseOut)

/-- The crossings of a scope between two base dies that work: those of a degraded die carry transit entries (R143, R448,
log entry 149). -/
def State.liveCrossings (s : State) (scope : Nat → Bool) : List (Nat × Nat × Nat) :=
  crossings.filter fun (d, _, d') => scope d && scope d' && s.baseWorks d && s.baseWorks d'

/-- Step 4 over the edges of a scope of dies whose test has begun: crossings between two of them, and attach-mode edges. -/
def State.checkEdges (s : State) (scope : Nat → Bool) (begun : Nat → Nat → Bool) (env : StepEnv) : State :=
  let s := ((s.liveCrossings scope).filter fun c => begun c.1 c.2.1).foldl (fun s c => s.checkCrossing env c) s
  ((List.range 64).filter scope).foldl (fun s d => (List.range 4).foldl (fun s e =>
    if (dieNeighbour d e).isNone ∧ begun d e ∧ s.baseWorks d then s.checkAttach env d e else s) s) s

/-- Step 4 over the dies of a scope. -/
def State.interconnect (s : State) (scope : Nat → Bool) (env : StepEnv) : State :=
  s.checkEdges scope (fun _ _ => true) env

/-- Interconnect check (R419). -/
def State.step4 (s : State) (env : StepEnv) : StepResult := (s.interconnect (fun _ => true) env, 0, 0)

/-! ### Step 5 -/

/-- Is an edge unrepairable (R438)? -/
def State.edgeBad (s : State) (d e : Nat) : Bool := (s.die d).edgesBad.getLsbD e

/-- A crossing is trained to 12 beats (R139): down edges come back fenced, and the buffer's fill is the trained one
(R140). -/
def State.trainCrossing (s : State) (c : Nat × Nat × Nat) : State :=
  let (d, e, d') := c
  let one (s : State) (d e : Nat) : State :=
    let r := Reg.FAB_XING_STATUS d e
    let s := if s.edgeMode d e = 3 then s.setField r 0 2 2 else s
    (((s.setField r 2 1 1).setField r 3 5 0).setField r 8 8 12).setDrift d e 0
  one (one s d e) d' (opposite e)

/-- Are two temperatures within a number of kelvins? -/
def nearTemp (a b k : Nat) : Bool := decide (a ≤ b + k) && decide (b ≤ a + k)

/-- Is a crossing's saved training accepted (R421)? -/
def State.crossingSaved (s : State) (env : StepEnv) (c : Nat × Nat × Nat) : Bool :=
  s.useSaved && !env.crossUnfit.contains (c.1 * 4 + c.2.1) &&
    (match AMap.get none s.flash.savedCross (c.1 * 4 + c.2.1) with
    | some r => nearTemp r.temps.1 (dieTemp env c.1) 10 && nearTemp r.temps.2 (dieTemp env c.2.2) 10 &&
        r.serials == [dieSerial env c.1, dieSerial env c.2.2]
    | none => false)

/-- A crossing is trained, in a start in full where its saved settings are not accepted; the record of a full training
waits for step 11 (R420, R421). -/
def State.startCrossing (s : State) (env : StepEnv) (c : Nat × Nat × Nat) : State :=
  let t := s.trainCrossing c
  if s.crossingSaved env c ∨ s.stepState ≠ 1 then t
  else
    let x : CrossRec :=
      { temps := (dieTemp env c.1, dieTemp env c.2.2), serials := [dieSerial env c.1, dieSerial env c.2.2] }
    let r := AMap.set none t.bru.newCross (c.1 * 4 + c.2.1) (some x)
    { t.noteFull 8 7 1 with bru := { t.bru with newCross := r } }

/-- Is a crossing the one that cannot be trained? -/
def crossingBad (env : StepEnv) (c : Nat × Nat × Nat) : Bool :=
  match env.crossBad with
  | some (d, e) => (d.toNat == c.1 && e.toNat == c.2.1) || (d.toNat == c.2.2 && e.toNat == opposite c.2.1)
  | none => false

/-- The crossings that step 5 trains in a scope. -/
def State.trainable (s : State) (scope : Nat → Bool) : List (Nat × Nat × Nat) :=
  (s.liveCrossings scope).filter fun (d, e, _) => !s.edgeBad d e

/-- Step 5 over the crossings of a scope whose training has begun. -/
def State.trainEdges (s : State) (scope : Nat → Bool) (begun : Nat → Nat → Bool) (env : StepEnv) : State :=
  ((s.trainable scope).filter fun c => begun c.1 c.2.1 && !crossingBad env c).foldl (fun s c => s.startCrossing env c) s

/-- Step 5 over the crossings of a scope: the crossing between two dies in service that cannot be trained, if one
cannot. -/
def State.trainAll (s : State) (scope : Nat → Bool) (env : StepEnv) : State × Option (Nat × Nat) :=
  (s.trainEdges scope (fun _ _ => true) env,
    ((s.trainable scope).find? fun c => crossingBad env c && s.tested c.1 && s.tested c.2.2).map fun c => (c.1, c.2.1))

/-- Die-to-die train (R419). -/
def State.step5 (s : State) (env : StepEnv) : StepResult :=
  match s.trainAll (fun _ => true) env with
  | (s, some (d, e)) => (s, 0x51, d + 2 ^ 6 * e)
  | (s, none) => (s, 0, 0)

/-! ### Step 6 (R212, R215, R234) -/

/-- The answers of a stack to step 6. -/
def stackAnswers (ins : List StackIn) (k : Nat) : StackIn :=
  (ins.find? fun x => x.stack.toNat == k).getD { stack := BitVec.ofNat 5 k }

/-- The check of a parameter block (R233, R234): 0, 2 where it is not a block of this kind, 3 where a value is not the
one required (log entry 125). -/
def blockCheck (b : List Byte) : Nat :=
  if b.length ≠ 64 ∨ recLe b 0 4 ≠ 0x42504843 ∨ (b.drop 0x20).any (· != 0) then 2
  else if recLe b 4 2 ≠ 1 ∨ recLe b 6 2 ≠ 64 ∨ recLe b 8 1 < 32 ∨ recLe b 9 1 ≠ 8 ∨ recLe b 0x14 2 ≠ 4096 then 3
  else 0

/-- The serial number in a parameter block. -/
def blockSerial (b : List Byte) : BitVec 64 := BitVec.ofNat 64 (recLe b 0x18 8)

/-- The record of a stack's training (R420): the serial numbers of the stack and of the die it stands at. -/
def stackRecord (env : StepEnv) (k : Nat) (x : StackIn) : StackRec :=
  { serials := [blockSerial x.block, dieSerial env (stackStrip k).1], temp := x.temp }

/-- Are a stack's saved settings accepted (R234, R421)? -/
def State.stackSaved (s : State) (env : StepEnv) (k : Nat) (x : StackIn) : Bool :=
  s.useSaved && x.savedCrc && (match AMap.get none s.flash.savedStacks k with
    | some r => r.serials == (stackRecord env k x).serials && nearTemp r.temp x.temp 10
    | none => false)

/-- The action of R234 that fails, with its cause, and the training state in which the link stops. Full training runs only
where no saved settings are accepted or training from them fails (R421). -/
def attachCause (saved : Bool) (x : StackIn) : Option (Nat × LinkTrain) :=
  if !x.sideband then some (1, .sbinit)
  else if blockCheck x.block ≠ 0 then some (blockCheck x.block, .sbinit)
  else if x.rate ≠ 32 ∨ x.modules ≠ 8 ∨ x.version ≠ 1 then some (3, .sbinit)
  else if !x.repairOk then some (4, .mbinit)
  else if !(saved && x.savedTrains) && !x.fullTrains then some (5, .mbtrain)
  else if !x.cmtlOk then some (6, .linkinit)
  else if !x.zeroOk then some (7, .active)
  else none

/-- A stack whose link came as far as MBTRAIN without saved settings, or whose training from them failed, trains in full
(R421): counted, and its record waits for step 11. -/
def State.trainStack (s : State) (env : StepEnv) (k : Nat) (x : StackIn) : State :=
  if (!s.stackSaved env k x || !x.savedTrains) &&
      (match attachCause (s.stackSaved env k x) x with
      | some (c, _) => decide (c ≥ 5)
      | none => true) then
    let r := AMap.set none s.bru.newStacks k (some (stackRecord env k x))
    { s.noteFull 16 6 1 with bru := { s.bru with newStacks := r } }
  else s

/-- Attach a stack (R232-R234), or take it out with the cause of the action that failed. -/
def State.attachStack (s : State) (env : StepEnv) (k : Nat) : State :=
  if s.stackState k = 4 then s
  else
    let x := stackAnswers env.stackIn k
    let cause := attachCause (s.stackSaved env k x) x
    let s := s.trainStack env k x
    let s := if x.sideband then s.setStack k { s.stack k with params := x.block } else s
    match cause with
    | some (c, at_) => (s.setStack k { s.stack k with link := at_ }).loseStack k c
    | none =>
      let s := s.setStack k { s.stack k with link := .active, centreTemp := x.temp }
      (s.setField (Reg.CHS_STACK k) 0 3 2).setField (Reg.CHS_STACK k) 18 6 x.repaired.toNat

/-- The training state of a link after a number of the actions of R234 (R232). -/
def linkAfter (n : Nat) : LinkTrain :=
  if n ≤ 3 then .sbinit else if n = 4 then .mbinit else if n = 5 then .mbtrain else .linkinit

/-- A stack on which only n of the seven actions of R234 have finished (R417): one that has failed takes it out, all seven
attach it, else its link stands where it came to. -/
def State.attachPart (s : State) (env : StepEnv) (k n : Nat) : State :=
  let x := stackAnswers env.stackIn k
  let ended := match attachCause (s.stackSaved env k x) x with
    | some (c, _) => decide (c ≤ n)
    | none => decide (7 ≤ n)
  if s.stackState k = 4 then s
  else if ended then s.attachStack env k
  else (if n < 5 then s else s.trainStack env k x).setStack k { s.stack k with link := linkAfter n }

/-- The spread map: the stacks in service, ascending (R212). -/
def State.buildSpread (s : State) : State :=
  let ks := (List.range 32).filter fun k => s.stackUp k
  let s := s.setField Reg.CHS_STATUS 8 6 ks.length
  ks.zipIdx.foldl (fun s (k, i) =>
    ((s.setField (Reg.CHS_SPREAD_MAP (i / 4)) (8 * (i % 4)) 8 k).setField (Reg.CHS_STACK k) 12 5 i).setField
      (Reg.CHS_STACK k) 17 1 1) s

/-- The near map: the stack of each die's cluster (16, 16) (R215). -/
def State.buildNear (s : State) : State :=
  (List.range 64).foldl (fun s d =>
    s.setField (Reg.CHS_NEAR_MAP (d / 4)) (8 * (d % 4)) 8 (((s.nearestStack d 16 16).map (·.stack)).getD 0xFF)) s

/-- Coachhouse discover begins (R234, R242): the stacks that a cold start can attach train their links. -/
def State.attachBegins (s : State) : State :=
  if s.field Reg.BRU_STATUS 18 1 = 1 then s
  else (List.range 32).foldl (fun s k => if s.stackState k = 4 then s
    else (s.setField (Reg.CHS_STACK k) 0 3 1).setStack k { s.stack k with link := .sbinit }) s

/-- Coachhouse discover (R212, R215, R234, R242, R245): after a warm reset contents and map are kept; else contents are
zeroed and the map is built. Too few stacks fail the step in both. -/
def State.step6 (s : State) (env : StepEnv) : StepResult :=
  let warm := s.field Reg.BRU_STATUS 18 1 == 1
  let s := if warm then s
    else
      let s := (List.range 32).foldl (fun s k => s.attachStack env k) s
      { s.countStacks.distChanged with chsMem := [], poisoned := [], symErr := [] }
  let n := s.field Reg.CHS_STATUS 0 6
  if n < s.field Reg.CHS_CFG 8 6 then (s, 0x61, n)
  else if warm then ((s.setField Reg.CHS_STATUS 16 1 1).setField Reg.CHS_STATUS 17 1 0, 0, 0)
  else
    let s := (s.setField Reg.CHS_STATUS 16 1 0).setField Reg.CHS_STATUS 17 1 1
    ((s.buildSpread.buildNear).setField Reg.CHS_STATUS 18 1 1, 0, 0)

/-! ### Step 7 -/

/-- Is an edge one that a flood crosses (R148): relay or fenced, between two dies that a step tests? -/
def State.floodEdge (s : State) (d e : Nat) : Bool :=
  (s.edgeMode d e == 1 || s.edgeMode d e == 2) && (match dieNeighbour d e with
    | some d' => s.tested d'
    | none => false)

/-- The dies to which a flood goes. -/
def State.testedDies (s : State) : List Nat := (List.range 64).filter fun d => s.tested d

/-- The dies that a flood reaches: those with an X strip of their own (R28, R426), and from each the dies beyond its
flood edges; `fuel` bounds the rounds. -/
def State.floodReach (s : State) : Nat → List Nat → List Nat
  | 0, seen => seen
  | fuel + 1, seen =>
    let next := (s.testedDies.filter fun d => !seen.contains d && (List.range 4).any fun e =>
      s.floodEdge d e && (match dieNeighbour d e with
        | some d' => seen.contains d'
        | none => false))
    if next.isEmpty then seen else s.floodReach fuel (seen ++ next)

/-- The dies that no flood reaches. -/
def State.unreached (s : State) : List Nat :=
  let rim := s.testedDies.filter fun d => (List.range 4).any fun e => (dieNeighbour d e).isNone
  let seen := s.floodReach 64 rim
  s.testedDies.filter fun d => !seen.contains d

/-- What the agents of the dies of a scope hold after a flood of a payload with a hash (R426): each computes the SHA-384 of
what it wrote; one whose first flood brought something else has written what the second brought. -/
def State.floodAll (s : State) (scope : Nat → Bool) (env : StepEnv) (hash : BitVec 384) : State :=
  let out := s.unreached
  ((s.testedDies.filter fun d => scope d && !out.contains d)).foldl (fun s d =>
    let h := match env.floods.find? fun p => p.1 == d with
      | some p => if sha384 p.2.1 = hash then hash else sha384 p.2.2
      | none => hash
    s.modDie d fun x => { x with fw := h }) s

/-- The dies of a scope that fail a broadcast (R426): the flood does not reach them, their hash differs after the second
flood, or what they wrote cannot be read back. -/
def State.floodFails (s : State) (scope : Nat → Bool) (env : StepEnv) (hash : BitVec 384) : List Nat :=
  let out := s.unreached
  (s.testedDies.filter fun d => scope d && (out.contains d || (s.die d).fw != hash || env.dieBad.getLsbD d))

/-- The bank that a broadcast takes (R425): the preferred one, or else the other. -/
def State.pickBank (s : State) : Option Bool :=
  let want := s.field Reg.BRU_FW 0 1 == 1
  if s.bankValid want then some want else if s.bankValid (!want) then some (!want) else none

/-- The payload hash of a bank's header (R424). -/
def State.bankHash (s : State) (b : Bool) : BitVec 384 := BitVec.ofNat 384 (readLe (s.bank b) 32 48)

/-- Step 7 begins with the check of the banks (R425): the one it takes is in use until the step ends. -/
def State.broadcastBegins (s : State) : State :=
  let want := s.field Reg.BRU_FW 0 1 == 1
  match s.pickBank with
  | none => s
  | some b =>
    let s := (s.setField Reg.BRU_FW 1 1 (if b then 1 else 0)).setField Reg.BRU_FW 2 1 (if b = want then 0 else 1)
    let s := if b = want then s else s.logPartOut srcOstler 7
    let s := s.setReg Reg.BRU_FW_VERSION (BitVec.ofNat 32 (readLe (s.bank b) 8 4))
    let roll := max s.flash.maxRollback.toNat (readLe (s.bank b) 12 4)
    { s with flash := { s.flash with maxRollback := BitVec.ofNat 32 roll }, bru := { s.bru with bank := some b } }

/-- The flood of a bank to the dies of a scope: those that fail leave service (R418, R426). -/
def State.floodDies (s : State) (scope : Nat → Bool) (env : StepEnv) (b : Bool) : State :=
  let s := s.floodAll scope env (s.bankHash b)
  (s.floodFails scope env (s.bankHash b)).foldl (fun s d => s.excludeAt 7 (some 0x0B) d) s

/-- Firmware broadcast (R425, R426): a die that the flood does not reach fails as one whose hash differs (R148). -/
def State.step7 (s : State) (env : StepEnv) : StepResult :=
  match s.bru.bank with
  | none => (s, 0x71, 0)
  | some b => (s.floodDies (fun _ => true) env b, 0, 0)

/-! ### Step 8 (R419, R445, R468, R472) -/

/-- A shift found in step 8 is applied within it; spare rows still wait (R444, R445). A die whose shift was found before the
step is not tested, so none of its shifts gets here. A die under a block reset stays in the
exclusion map until it has passed (R408). -/
def State.shiftNow (s : State) (d : Nat) : State :=
  let x := s.die d
  if x.pendingShift ∧ !x.degraded then
    let s := s.applyRepairs d
    let s := s.modDie d fun y => { y with rowsPending := x.rowsPending, rowsWaiting := x.rowsWaiting }
    if s.bru.blockMask.getLsbD d then s.fixDie d else ((s.setExcl d false).fixDie d).distChanged
  else s

/-- The global ID by which an event names a physical cluster; column 31 where none is carried there. -/
def State.placeOf (s : State) (d e : Nat) : Nat := gidOf d (entRow e) (((s.die d).logCol (entRow e) (entCol e)).getD 31)

/-- One failure of the Wheelwright pass: a suspect is confirmed, a defect makes a repair of origin 1, one run of three
is a transient. -/
def State.bistFailure (s : State) (f : BistFail) : State :=
  let d := f.die.toNat
  let e := recEntry f.record.toNat
  let row := recKind f.record.toNat == 2
  let g := s.placeOf d e
  let core := entCore e
  let place := bistPlace f.bit.toNat f.under f.row.toNat
  if !s.tested d then s
  else
    let old := s
    let isSus (x : Suspect) : Bool := x.due && x.die.toNat == d && x.pcol.toNat == entCol e && x.y.toNat == entRow e &&
      x.core.toNat == core
    match s.flash.suspects.find? isSus with
    | some x =>
      let s := s.setSuspects (s.flash.suspects.erase x)
      (s.confirmSuspect d (entCol e) (entRow e) core (if row then some (f.under, f.row.toNat) else none) f.seg.toNat
        f.runs.toNat place).shiftNow d
    | none =>
      if f.runs.toNat ≥ 2 then
        let s := s.bump Reg.FUS_WHL_COUNTS 0 16 1
        let served := s.servedBy g core
        let s := if row then s.addRow d (entCol e) (entRow e) core f.under f.row.toNat 1
          else s.addCore d (entCol e) (entRow e) core 1
        (s.logDefect d served (s.bistEvent g core 0x01 f.seg.toNat f.runs.toNat (s.madeSince old d) place)).shiftNow d
      else
        (s.bump Reg.FUS_WHL_COUNTS 16 16 1).logBist g core 0x02 f.seg.toNat 1 0 place

/-- Suspects of a scope that were due and passed: cleared, or confirmed at a count of 2 (R468). -/
def State.settleSuspects (s : State) (scope : Nat → Bool) : State :=
  (s.flash.suspects.filter fun x => x.due && scope x.die.toNat && s.tested x.die.toNat).foldl (fun s x =>
    let d := x.die.toNat
    if x.count ≥ 2 then
      ((s.setSuspects (s.flash.suspects.erase x)).confirmSuspect d x.pcol.toNat x.y.toNat x.core.toNat none 0 0 0).shiftNow d
    else
      let s := s.setSuspects (s.flash.suspects.map fun y => if y = x then { y with due := false } else y)
      s.logBist (gidOf d x.y.toNat (((s.die d).logCol x.y.toNat x.pcol.toNat).getD 31)) x.core.toNat 0x04 0 0 0 0) s

/-- The cores of the tested dies of a scope have passed or are out: no earlier job is exposed by them any more (R473). -/
def State.coresPassed (s : State) (scope : Nat → Bool) : State :=
  { s with
    clusters := (s.clusters.map fun (g, c) =>
      if scope (gidDie g) && s.tested (gidDie g) then (g, { c with whl := { c.whl with served := [] } }) else (g, c)).filter
        fun p => p.2 != ({} : Cluster) }

/-- The quick pass over the dies of a scope. -/
def State.quickPass (s : State) (scope : Nat → Bool) (env : StepEnv) : State :=
  let s := (env.bist.filter fun f => scope f.die.toNat).foldl State.bistFailure s
  (s.settleSuspects scope).coresPassed scope

/-- The dies of a scope in step 8: their fabric, and their cores. -/
def State.checkFabric (s : State) (scope : Nat → Bool) (env : StepEnv) : State :=
  (((sitesOf env.dieBad).filter scope).foldl (fun s d => s.excludeAt 8 none d) s).quickPass scope env

/-- Fabric check and quick BIST (R419). A module that is drained and flagged goes on to step 11 with the dies it has
(R475). -/
def State.step8 (s : State) (env : StepEnv) : StepResult :=
  let s := s.checkFabric (fun _ => true) env
  if !s.bru.flagged ∧ s.dieCount < s.field Reg.BRU_CFG 8 7 then (s, 0x81, s.dieCount) else (s, 0, 0)

/-! ### Steps 9 to 11 -/

/-- Ports that the licences enable start training (R302, R315). -/
def State.enablePorts (s : State) (which : Nat → Bool) : State :=
  ((List.range 128).filter which).foldl (fun s p =>
    let s := s.setField (Reg.LTN_PORT_EN (p / 32)) (p % 32) 1 1
    let s := if (s.port p).st = 9#4 then s.modPort p fun x => { x with st := 0 } else s
    if s.serves (srcEngine (portEngine p)) then s.enablePort p else s) s

/-- The serial numbers of the engines and of the dies they stand at, and the checks of R421 on their records, the
equalisation of their ports among them. -/
def State.checkEngines (s : State) (env : StepEnv) : State :=
  (List.range 64).foldl (fun s k =>
    let e := s.engine k
    let serials := [engineSerial env k, dieSerial env (stackStrip (k / 2)).1]
    let torn := env.enginesUnfit.contains k
    let bad := e.savedHeater && (e.savedSerials != serials || torn)
    let s := s.setEngine k { e with serials := serials, unfit := bad, full := false, calibrated := false }
    [2 * k, 2 * k + 1].foldl (fun s p => s.modPort p fun x =>
      { x with eqUnfit := x.savedEq.any fun r => bad || torn || r.serials != serials }) s) s

/-- Lantern train (R315): even ports. -/
def State.step9 (s : State) (env : StepEnv) : State := (s.checkEngines env).enablePorts fun p => p % 2 == 0

/-- Has every enabled port settled (R315)? -/
def State.portsSettled (s : State) : Bool :=
  ((List.range 128).filter fun p => s.portEnabled p).all fun p =>
    let x := s.port p
    x.st == 7#4 || x.st == 9#4 || x.st == 1#4 || x.st == 0#4 || x.seekTried

/-- Has an engine completed its calibration since step 9 began (R315)? -/
def State.anyCalibrated (s : State) : Bool := (List.range 64).any fun k => (s.engine k).calibrated

/-- A licence slot that holds a record. -/
def State.licenceSlot (s : State) (k : Nat) : Option (List Byte) := AMap.get none s.flash.licences k

/-- A licence slot is checked in step 10 (R428, R430): its features join those of the slots before it. -/
def State.applySlot (s : State) (f k : Nat) : State × Nat :=
  let held := s.licenceSlot k
  let r := s.licenceCheck held
  let s := s.setField Reg.LIC_SLOT_STATUS (4 * k) 4 r
  match held with
  | none => (s, f)
  | some b =>
    if r = 0 then (s, f ||| recLe b 16 4)
    else (s.logPlain srcOstler 0x14 r (k + 2 ^ 4 * r) (recLe b 20 4) 0, f)

/-- Licence apply (R430): every slot checked; the union of the accepted features is enabled. -/
def State.step10 (s : State) (env : StepEnv) : StepResult :=
  if !env.licReadable then (s, 0xA1, 0)
  else
    let (s, features) := (List.range 8).foldl (fun (s, f) k => s.applySlot f k) (s, 0)
    let variant := if features = 7 then 2 else if features = 3 then 1 else 0
    let s := s.setReg Reg.LIC_ENABLED (BitVec.ofNat 32 (features + 2 ^ 4 * variant + 2 ^ 6))
    (if bitAt features 0 then s.enablePorts fun p => p % 2 == 1 else s, 0, 0)

/-- What a step does as soon as it is accepted: steps 6 and 9 start training, which then goes on, step 7 takes a bank. -/
def State.stepBegins (s : State) (n : Nat) (env : StepEnv) : State :=
  match n with
  | 6 => s.attachBegins
  | 7 => s.broadcastBegins
  | 9 => s.step9 env
  | _ => s

/-- The effect of a step, complete when it completes. -/
def State.stepEffect (s : State) (n : Nat) (env : StepEnv) : StepResult :=
  match n with
  | 1 => s.step1 env
  | 2 => s.step2 env
  | 3 => s.step3 env
  | 4 => s.step4 env
  | 5 => s.step5 env
  | 6 => s.step6 env
  | 7 => s.step7 env
  | 8 => s.step8 env
  | 10 => s.step10 env
  | _ => (s, 0, 0)

/-- What a step that runs has done where it ends at a limit (R417): each part whose action was in progress or done has it
finished, the rest is untouched. Which parts those are nothing says: bits of a free value, for a stack the number of its
actions (log entry 58). What a step does only once its parts are through has not been done. -/
def State.stepPartial (s : State) (n : Nat) (env : StepEnv) : State :=
  let (v, s) := s.fresh
  let die (d : Nat) : Bool := bitAt v d
  let edge (d e : Nat) : Bool := bitAt v (4 * d + e)
  let out (s : State) (cause : Nat) : State :=
    ((sitesOf env.dieBad).filter die).foldl (fun s d => s.excludeAt n (some cause) d) s
  match n with
  | 1 => out (((List.range 64).filter die).foldl State.loadDie s) 0x0B
  | 3 => out s 0x0B
  | 4 => s.checkEdges (fun _ => true) edge env
  | 5 => s.trainEdges (fun _ => true) edge env
  | 6 => if s.field Reg.BRU_STATUS 18 1 = 1 then s
    else ((List.range 32).foldl (fun s k => s.attachPart env k (bitsOf v (3 * k) 3)) s).countStacks.distChanged
  | 7 => match s.bru.bank with
    | none => s
    | some b => s.floodDies die env b
  | 8 => s.checkFabric die env
  | 10 => if env.licReadable then ((List.range 8).filter (bitAt v)).foldl (fun s k => (s.applySlot 0 k).1) s else s
  | _ => s

/-! ### The step protocol (R414-R417) -/

/-- Is a step accepted (R414)? -/
def State.stepAccepted (s : State) (n : Nat) : Bool :=
  !s.inRecovery && s.bru.step0 && s.stepState == 0 && decide (1 ≤ n) && decide (n ≤ 11) && s.stepNow + 1 == n

/-- What is known of a step's full training from its start on (R421): the mark, the counts, the deadline, as another state
has them. -/
def State.fullOf (s t : State) : State :=
  ((s.setReg Reg.BRU_SAVED (t.reg Reg.BRU_SAVED)).setField Reg.BRU_STATUS 7 1 (t.field Reg.BRU_STATUS 7 1)).setReg
    Reg.BRU_DEADLINE (t.reg Reg.BRU_DEADLINE)

/-- A step is run (R414): refused where it may not be, in Recovery mode too. Full training raises the deadline as it starts
(R421). What the step does to the parts is complete with STEP_COMPLETE, or in part at a limit (R417). -/
def State.runStep (s : State) (n : Nat) (env : StepEnv) : State :=
  if !s.stepAccepted n then s.setField Reg.BRU_STATUS 6 1 1
  else
    let s := ((s.setField Reg.BRU_STATUS 0 4 n).setField Reg.BRU_STATUS 4 2 1).stepBegins n env
    { s.fullOf (s.stepEffect n env).1 with bru := { s.bru with stepUp := s.up, running := some env } }

/-- A step, or the start, fails with a code (R416, R417). -/
def State.stepFails (s : State) (code : Nat) (detail : BitVec 32) : State :=
  let s := (s.setField Reg.BRU_STATUS 4 2 2).setField Reg.BRU_STATUS 8 8 code
  let s := { s.setReg Reg.BRU_FAIL_DETAIL detail with bru := { s.bru with running := none, bank := none } }
  (s.logPlain srcOstler 0x13 code (s.stepNow + 2 ^ 8 * code) detail.toNat 0).startFails

/-- Round 0 opens at the Milestone rounded up to a multiple of 1,024 (R199). -/
def State.openRounds (s : State) : State :=
  { s with toll := { k := s.toll.k, staged := s.toll.staged, started := true, baseMs := (s.ms + 1023) / 1024 * 1024
                     past := s.toll.past } }.dropRecentring

/-- Records of what a start has trained fully replace the saved ones. -/
def saveOver {α : Type} (old new : AMap α) : AMap α := new.foldl (fun m (k, v) => m.insert k v) old

/-- Step 11 writes the record of every item that the start trained fully (R420). -/
def State.saveSettings (s : State) : State :=
  { s with
    bru := { s.bru with newEdges := [], newCross := [], newStacks := [] }
    flash := { s.flash with
      savedSettings := true
      savedEdges := saveOver s.flash.savedEdges s.bru.newEdges
      savedCross := saveOver s.flash.savedCross s.bru.newCross
      savedStacks := saveOver s.flash.savedStacks s.bru.newStacks } }

/-- A step completes (R419, R423). A module that is drained and flagged stays at service level 1 (R475). -/
def State.stepDone (s : State) (n : Nat) : State :=
  let s := s.setField Reg.BRU_STATUS 4 2 0
  let service (s : State) (v : Nat) : State :=
    s.setField Reg.BRU_STATUS 16 2 (if s.bru.flagged then 1 else v)
  match n with
  | 6 => { service s 1 with bru := { s.bru with step6Done := true, minStacksLocked := true } }
  | 8 => (service s 2).openRounds
  | 11 =>
    let s := (service s 3).setFailed 0 false
    let s := { s with bru := { s.bru with startOpen := false } }.saveSettings
    s.pairStart
  | _ => s

/-- STEP_COMPLETE (R315, R418, R419): what the step does is done, and reported. -/
def State.stepComplete (s : State) : State :=
  match s.bru.running with
  | none => s
  | some env =>
    let n := s.stepNow
    if n = 9 ∧ !s.portsSettled then s
    else
      let (t, code, detail) := s.stepEffect n env
      let t := t.fullOf s
      let code := if n = 9 ∧ !t.anyCalibrated then 0x91 else code
      if code = 0 then { t with bru := { t.bru with running := none, bank := none } }.stepDone n
      else t.stepFails code (BitVec.ofNat 32 detail)

/-- The full budget of a step in ns (R419). -/
def stepBudget (n : Nat) : Nat :=
  match n with
  | 1 => 500000000
  | 2 => 20000000
  | 3 => 50000000
  | 4 => 40000000000
  | 5 => 60000000000
  | 6 => 200000000
  | 7 => 1000000000
  | 8 => 8000000000
  | 9 => 6000000000
  | 10 => 50000000
  | _ => 10000000

/-- The step that runs, if one does, stops where it is (R417). -/
def State.stepStops (s : State) : State :=
  match s.bru.running with
  | some env => (s.stepPartial s.stepNow env).fullOf s
  | none => s

/-- STEP_TIME_LIMIT (R417): code 0xsF. -/
def State.stepTimeLimit (s : State) : State :=
  if s.bru.running.isSome then
    let n := s.stepNow
    (s.advanceUpTo (s.bru.stepUp + stepBudget n)).stepStops.stepFails (16 * n + 15) 0
  else s

/-- START_DEADLINE (R410, R417): the start fails with code 0xF0. -/
def State.startDeadline (s : State) : State :=
  if s.bru.startOpen ∧ s.stepState ≠ 2 then
    (s.advanceUpTo (s.bru.startUp + 1000000 * (s.reg Reg.BRU_DEADLINE).toNat)).stepStops.stepFails 0xF0 0
  else s

/-- STANDBY_READY (R415, R410): step 0 after a cold reset. -/
def State.standbyReady (s : State) : State :=
  if s.bru.resetScope = 5 ∧ !s.power.recovering ∧ !s.power.off then
    let old := s
    let s := { s with bru := { s.bru with
      resetScope := 0, step0 := true, startUp := s.up, startOpen := !s.inRecovery, flagged := s.flash.drained } }
    (s.setReg Reg.BRU_DEADLINE 120000).trackIdle old
  else s

/-- A write of BRU_STEP. -/
def State.writeStep (s : State) (via : Via) (n : Nat) (env : StepEnv) : State :=
  s.gate via Reg.BRU_STEP fun s => s.runStep n env

/-- STANDBY_READY (R415). -/
def execStandbyReady (s : State) : Answer := .next s.standbyReady
/-- FUSE_LOAD (R419). -/
def execFuseLoad (via : Via) (env : StepEnv) (s : State) : Answer := .next (s.writeStep via 1 env)
/-- CLOCK_START (R395). -/
def execClockStart (via : Via) (env : StepEnv) (s : State) : Answer := .next (s.writeStep via 2 env)
/-- DIE_RELEASE (R419). -/
def execDieRelease (via : Via) (env : StepEnv) (s : State) : Answer := .next (s.writeStep via 3 env)
/-- INTERCONNECT_CHECK (R436). -/
def execInterconnectCheck (via : Via) (env : StepEnv) (s : State) : Answer := .next (s.writeStep via 4 env)
/-- DIE_TO_DIE_TRAIN (R139). -/
def execDieToDieTrain (via : Via) (env : StepEnv) (s : State) : Answer := .next (s.writeStep via 5 env)
/-- COACHHOUSE_DISCOVER (R234). -/
def execCoachhouseDiscover (via : Via) (env : StepEnv) (s : State) : Answer := .next (s.writeStep via 6 env)
/-- FIRMWARE_BROADCAST (R426). -/
def execFirmwareBroadcast (via : Via) (env : StepEnv) (s : State) : Answer := .next (s.writeStep via 7 env)
/-- FABRIC_CHECK (R419). -/
def execFabricCheck (via : Via) (env : StepEnv) (s : State) : Answer := .next (s.writeStep via 8 env)
/-- LANTERN_TRAIN (R315). -/
def execLanternTrain (via : Via) (env : StepEnv) (s : State) : Answer := .next (s.traced (s.writeStep via 9 env))
/-- LICENCE_APPLY (R430). -/
def execLicenceApply (via : Via) (env : StepEnv) (s : State) : Answer := .next (s.traced (s.writeStep via 10 env))
/-- READY (R419). -/
def execReady (via : Via) (env : StepEnv) (s : State) : Answer := .next (s.writeStep via 11 env)
/-- STEP_COMPLETE (R418). -/
def execStepComplete (s : State) : Answer := .next s.stepComplete
/-- STEP_TIME_LIMIT (R417). -/
def execStepTimeLimit (s : State) : Answer := .next s.stepTimeLimit
/-- START_DEADLINE (R410). -/
def execStartDeadline (s : State) : Answer := .next s.startDeadline

end Sys2Proof.Machine
end

