-- ==== Sys2Proof/Machine/Blocks.lean ====
section
/-! DEFINITION. Block resets, sequencer lock-up, and the licence and repair commands (15 R407-R409, 16 R429,
17 R446, R447). -/

namespace Sys2Proof.Machine

/-! ### Block reset (R407, R408) -/

/-- The code of RST_BLOCK_STATUS for a request, 0 where it is accepted. -/
def State.blockRefusal (s : State) (mask : BitVec 64) (token : Nat) : Nat :=
  if !s.ready then 2
  else if mask.toNat &&& s.idleMap ≠ mask.toNat then 3
  else if token ≠ s.field Reg.BRU_IDLE_GEN 0 16 then 4
  else if mask = 0 then 6
  else 0

/-- A block reset starts on dies (R402, R408): they are reserved and leave the roster, their compute state goes, and that of
their base dies outside the Coachhouse domain, and the die-to-die PHY of edges between two of them; transit switches run on
(R143). The firmware bank for its step 7 is chosen now (R425), and the event of the reset is in the log before (R413). -/
def State.blockStart (s : State) (mask : BitVec 64) : State :=
  let old := s
  let s := (sitesOf mask).foldl (fun s d => s.leave (srcDie d)) s.flushAll
  let s := s.resetCrossings fun d d' => mask.getLsbD d && mask.getLsbD d'
  let s := { s with
    clusters := (s.clusters.map fun (p : Nat × Cluster) =>
      if mask.getLsbD (gidDie p.1) then (p.1, ({ whl := p.2.whl.kept } : Cluster)) else p).filter
        fun p => p.2 != ({} : Cluster)
    xunits := s.xunits.filter fun p => p.2.transit || !mask.getLsbD (p.1 / 128)
    dies := (s.dies.map fun (p : Nat × Die) => if mask.getLsbD p.1 then (p.1, { p.2 with fw := 0, baseOut := false }) else p).filter
      fun p => p.2 != ({} : Die)
    flights := s.flights.filter fun f => !mask.getLsbD (gidDie f.cluster)
    bru := { s.bru with blockMask := s.bru.blockMask ||| mask, bank := if s.bru.blockMask = 0 then s.pickBank else s.bru.bank } }
  let s := s.resetViews fun d => mask.getLsbD d
  let r := Reg.RST_BLOCK_STATUS
  (((s.setField r 0 1 1).setField r 2 4 0).setField r 6 4 4).trackIdle old

/-- A request for a block reset with its mask and token (R407): ignored while one is busy. -/
def State.blockRequest (s : State) (via : Via) (mask : BitVec 64) (token : Nat) : State :=
  if s.field Reg.RST_BLOCK_STATUS 0 1 = 1 then s
  else
    let code := s.blockRefusal mask token
    if code ≠ 0 then (s.setField Reg.RST_BLOCK_STATUS 1 1 1).setField Reg.RST_BLOCK_STATUS 2 4 code
    else
      let src := viaSource via
      let s := (s.logReset src 3 false false mask.toNat).setCause src 3 false
      s.blockStart mask

/-- A named die at the end of a block reset (R408): it passes, leaves the exclusion map and rejoins, or it stays out. Its
copy of the Milestone runs on unless its PLL had lost lock. -/
def State.blockDie (s : State) (failed : List Nat) (d : Nat) : State :=
  if failed.contains d then s.excludeDie 8 none d
  else if (s.die d).degraded ∨ (s.die d).pendingShift then s
  else
    let s := if (s.die d).pllLost then (s.setCopy (srcDie d) {}).modDie d fun x => { x with pllLost := false } else s
    (s.setExcl d false).rejoin (srcDie d)

/-- Step 7 on the dies of a scope (R408, R425, R426): those that fail; all of them where no bank is valid. -/
def State.blockFirmware (s : State) (scope : Nat → Bool) (env : StepEnv) : State × List Nat :=
  match s.bru.bank with
  | none => (s, s.testedDies.filter scope)
  | some b =>
    let t := s.floodAll scope env (s.bankHash b)
    (t, t.floodFails scope env (s.bankHash b))

/-- BLOCK_RESET_COMPLETE (R408): repairs take effect, steps 4, 5, 7 and 8 have run on the named dies alone. -/
def State.blockComplete (s : State) (env : StepEnv) : State :=
  let mask := s.bru.blockMask
  if mask = 0 then s
  else
    let old := s
    let scope (d : Nat) : Bool := mask.getLsbD d
    let dies := sitesOf mask
    let was := dies.filter fun d => s.excluded d
    let s := dies.foldl (fun s d => if (s.die d).degraded then s else s.applyRepairs d) s
    let s := s.interconnect scope env
    let s := (s.trainAll scope env).1
    let (s, failed) := s.blockFirmware scope env
    let s := s.quickPass scope env
    let s := dies.foldl (fun s d => s.blockDie failed d) s
    let now := dies.filter fun d => s.excluded d
    let s := if now = was then s else s.distChanged
    let s := { s with bru := { s.bru with blockMask := 0, bank := none } }
    let r := Reg.RST_BLOCK_STATUS
    let s := ((s.setField r 0 2 2).setField r 2 4 (if now.isEmpty then 1 else 5)).setField r 6 4 0
    s.trackIdle old

/-- SEQUENCER_LOCK_UP (R401, R407): the job stops, then the die is reset by the module itself. A block reset under
way takes the die in. -/
def State.lockUp (s : State) (g : Nat) : State :=
  let d := gidDie g
  let mask : BitVec 64 := BitVec.ofNat 64 (2 ^ d)
  if s.bru.resetScope ≠ 0 ∨ s.bru.blockMask.getLsbD d then s.absorbed 0x0D 3 mask.toNat
  else
    let ev := { s.eventOf srcReset 0x12 0x0D with
      p0 := BitVec.ofNat 32 (0x0D + 2 ^ 5 * 3), p1 := mask, loc := BitVec.ofNat 16 g }
    let s := match s.slotOfDie d with
      | some k => s.stopEvent k ev
      | none => s.logEvent ev
    (s.setCause 0x0D 3 false).blockStart mask

/-! ### Licences (R429) -/

/-- The record in LIC_BUF. -/
def State.licenceBuffer (s : State) : List Byte :=
  (List.range 32).flatMap fun j => natLe (s.reg (Reg.LIC_BUF j)).toNat 4

/-- A store or an erase begins, unless one is busy. -/
def State.licenceCommand (s : State) (slot : BitVec 3) (record : Option (List Byte)) : State :=
  if s.field Reg.LIC_CMD_STATUS 0 1 = 1 then s
  else { s.setField Reg.LIC_CMD_STATUS 0 1 1 with bru := { s.bru with licBusy := some (slot, record) } }

/-- LICENCE_COMMAND_COMPLETE (R429, R432): a record that passes every check stands in its slot. -/
def State.licenceComplete (s : State) : State :=
  match s.bru.licBusy with
  | none => s
  | some (slot, record) =>
    let k := slot.toNat
    let r := match record with
      | some b => s.licenceCheck (some b)
      | none => 0
    let s := if r = 0 then { s with flash := { s.flash with licences := AMap.set none s.flash.licences k record } } else s
    let s := if record.isSome then s.setField Reg.LIC_SLOT_STATUS (4 * k) 4 r else s
    let s : State := { s with bru := { s.bru with licBusy := none } }
    (s.setField Reg.LIC_CMD_STATUS 0 2 2).setField Reg.LIC_CMD_STATUS 2 4 r

/-! ### Soft repairs by command (R446) -/

/-- The rows of a near SRAM at a physical position (R440). -/
def State.nearRows (s : State) (d pc y : Nat) : Nat :=
  match (s.die d).logCol y pc with
  | some lx => if kindOf (gidOf d y lx) = .s then 512 else 128
  | none => 512

/-- Does an entry name a position on the die? -/
def entPlace (e : Nat) : Bool := decide (entCol e ≤ 32)

/-- A core entry that may be entered: fields in range, not a duplicate, a spare free. -/
def State.coreEntryOk (s : State) (d e : Nat) : Bool :=
  let x := s.die d
  let spare := if entCore e = 31 then !(x.shiftEntries.any fun p => p.1 == entRow e) && x.spareColumn (entRow e)
    else decide ((x.outCores (entCol e) (entRow e)).length < 2)
  entPlace e && decide (e / 2 ^ 16 = 1) && (decide (entCore e ≤ 17) || entCore e == 31) && spare &&
    !(x.badCores (entCol e) (entRow e)).contains (entCore e)

/-- A row entry that may be entered. -/
def State.rowEntryOk (s : State) (d e : Nat) : Bool :=
  let x := s.die d
  let under := bitAt e 16
  let same := x.rowEntries.filter fun f => f % 2 ^ 17 == e % 2 ^ 17
  entPlace e && decide (entCore e ≤ 17) && decide (e / 2 ^ 30 = 1) &&
    decide (bitsOf e 17 10 < if under then 768 else s.nearRows d (entCol e) (entRow e)) &&
    decide (bitsOf e 27 3 < if under then 8 else 4) &&
    !(same.any fun f => bitsOf f 27 3 == bitsOf e 27 3 || bitsOf f 17 10 == bitsOf e 17 10)

/-- A lane entry that may be entered. -/
def State.laneEntryOk (s : State) (d e : Nat) : Bool :=
  let edge := e % 4
  let lane := bitsOf e 2 14
  let spare := bitsOf e 16 8
  let known := (s.die d).lanePairs edge
  let fits := if (dieNeighbour d edge).isNone then decide (lane < 512) && spare == lane / 32
    else decide (lane < 9828) && decide (spare ≤ 155) && decide (spare ≤ lane / 63 + 1) && decide (lane / 63 ≤ spare + 1)
  decide (e / 2 ^ 24 = 1) && fits && !(known.any fun p => p.1 == lane || p.2 == spare)

/-- A shift entry that may be entered: the row is not shifted, and its spare, column 32, can carry a cluster. -/
def State.shiftEntryOk (s : State) (d e : Nat) : Bool :=
  entPlace e && decide (e / 2 ^ 16 = 1) && entCore e == 0 && !((s.die d).shiftEntries.any fun p => p.1 == entRow e) &&
    (s.die d).spareColumn (entRow e)

/-- The code of FUS_CMD_STATUS for a record, 1 where it is made. -/
def State.softRefusal (s : State) (d : Nat) (r : Nat) : Nat :=
  let e := recEntry r
  let ok := match recKind r with
    | 1 => s.coreEntryOk d e
    | 2 => s.rowEntryOk d e
    | 3 => s.laneEntryOk d e
    | 4 => s.shiftEntryOk d e
    | _ => false
  if !ok ∨ bitsOf r 40 23 ≠ 0 ∨ !bitAt r 63 ∨ bitsOf r 4 4 = 0 ∨ bitsOf r 4 4 > 6 then 5
  else if (s.die d).soft.length ≥ 48 then 7
  else 1

/-- The bist event of a record entered by command that has taken the die from a running job (R448, log entry 142): it stops
that job, and counts as a defect. -/
def State.lostByCommand (s : State) (d : Nat) (r : Nat) : State :=
  match s.lostJob d with
  | none => s
  | some k =>
    let g := s.placeOf d (recEntry r)
    (s.bump Reg.FUS_WHL_COUNTS 0 16 1).slotFault k (s.bistEvent g (entCore (recEntry r)) 0x01 0 0 r 0)

/-- A record that may be made acts as its kind does (R443-R446). -/
def State.enterSoft (s : State) (d : Nat) (r : Nat) : State :=
  let e := recEntry r
  let s := s.pushSoft d r
  match recKind r with
  | 1 => (s.judgeCluster d (entCol e) (entRow e) (bitsOf r 4 4)).lostByCommand d r
  | 2 =>
    let s := s.modDie d fun x => x.addRowEntry e (x.rowSpare (entCol e) (entRow e) (entCore e))
    if s.dieRuns d then s else s.fixDie d
  | 4 =>
    let s := ((s.modDie d fun x => { x with pendingShift := true }).logRepair d 0x02 r).dieWaits d
    (s.lostByCommand d r).checkDies
  | _ => s

/-- ADD_SOFT_REPAIR (R446) with a record: its result code. -/
def State.addSoft (s : State) (d : Nat) (r : Nat) : State :=
  if s.field Reg.FUS_CMD_STATUS 0 1 = 1 then s
  else
    let code := s.softRefusal d r
    let s := if code = 1 then s.enterSoft d r else s
    (s.setField Reg.FUS_CMD_STATUS 1 1 1).setField Reg.FUS_CMD_STATUS 2 4 code

/-! ### Burning (R447) -/

/-- The code of FUS_CMD_STATUS for a burn, 0 where it is accepted. -/
def State.burnRefusal (s : State) (d token : Nat) : Nat :=
  if !s.ready then 2
  else if !bitAt s.idleMap d then 3
  else if token ≠ s.field Reg.BRU_IDLE_GEN 0 16 then 4
  else 0

/-- REPAIR_BURN (R447): the die is reserved while its soft repairs are burned. -/
def State.burn (s : State) (d : BitVec 6) (token : Nat) : State :=
  if s.field Reg.FUS_CMD_STATUS 0 1 = 1 then s
  else
    let code := s.burnRefusal d.toNat token
    if code ≠ 0 then (s.setField Reg.FUS_CMD_STATUS 1 1 1).setField Reg.FUS_CMD_STATUS 2 4 code
    else
      let old := s
      let s := { s with bru := { s.bru with burnDie := some d, burnQueue := (s.die d.toNat).soft } }
      ((s.setField Reg.FUS_CMD_STATUS 0 1 1).setField Reg.FUS_CMD_STATUS 2 9 0).trackIdle old

/-- Burn one record: with valid and deleted, or spent without valid where its verification fails. -/
def State.burnRecord (s : State) (d : Nat) (r : BitVec 64) (bad : Bool) : State :=
  if bad then
    (s.modDie d fun x => { x with fields := x.fields ++ [r &&& 0x7FFFFFFFFFFFFFFF#64] }).logRepair d 0x07 r.toNat
  else s.modDie d fun x => { x with fields := x.fields ++ [r], soft := x.soft.erase r }

/-- REPAIR_BURN_COMPLETE (R447): records by place in the queue; those in `bad` failed their verification. -/
def State.burnComplete (s : State) (bad : List Nat) : State :=
  match s.bru.burnDie with
  | none => s
  | some d =>
    let old := s
    let q := s.bru.burnQueue
    let n := min q.length (16 - (s.die d.toNat).fields.length)
    let s := (q.take n).zipIdx.foldl (fun s (r, i) => s.burnRecord d.toNat r (bad.contains i)) s
    let fails := ((List.range n).filter fun i => bad.contains i).length
    let code := if n < q.length then 6 else if fails ≠ 0 then 8 else 1
    let s := { s with bru := { s.bru with burnDie := none, burnQueue := [] } }
    let r := Reg.FUS_CMD_STATUS
    (((s.setField r 0 2 2).setField r 2 4 code).setField r 6 5 (n - fails)).trackIdle old

/-- BLOCK_RESET_REQUEST (R407): RST_BLOCK_CMD with its start bit. -/
def execBlockResetRequest (via : Via) (value : BitVec 32) (s : State) : Answer :=
  .next (s.gate via Reg.RST_BLOCK_CMD fun s =>
    if value.msb then s.blockRequest via (BitVec.ofNat 64 (s.reg64 Reg.RST_BLOCK_MASK_LO)) (bitsOf value.toNat 0 16)
    else s)
/-- BLOCK_RESET_COMPLETE (R408). -/
def execBlockResetComplete (env : StepEnv) (s : State) : Answer := .next (s.blockComplete env)
/-- SEQUENCER_LOCK_UP (R401). -/
def execSequencerLockUp (c : BitVec 16) (s : State) : Answer := .next (s.lockUp c.toNat)
/-- LICENCE_STORE (R429). -/
def execLicenceStore (via : Via) (slot : BitVec 3) (s : State) : Answer :=
  .next (s.gate via Reg.LIC_CMD fun s => s.licenceCommand slot (some s.licenceBuffer))
/-- LICENCE_ERASE (R429). -/
def execLicenceErase (via : Via) (slot : BitVec 3) (s : State) : Answer :=
  .next (s.gate via Reg.LIC_CMD fun s => s.licenceCommand slot none)
/-- LICENCE_COMMAND_COMPLETE (R432). -/
def execLicenceCommandComplete (s : State) : Answer := .next s.licenceComplete
/-- REPAIR_BURN (R447). -/
def execRepairBurn (via : Via) (die : BitVec 6) (token : BitVec 16) (s : State) : Answer :=
  .next (s.gate via Reg.FUS_CMD fun s => s.burn die token.toNat)
/-- ADD_SOFT_REPAIR (R446): the record in FUS_REC. -/
def execAddSoftRepair (via : Via) (die : BitVec 6) (s : State) : Answer :=
  .next (s.gate via Reg.FUS_CMD fun s => s.addSoft die.toNat (s.reg64 Reg.FUS_REC_LO))
/-- REPAIR_BURN_COMPLETE (R447). -/
def execRepairBurnComplete (bad : List Nat) (s : State) : Answer := .next (s.burnComplete bad)

end Sys2Proof.Machine
end

