-- ==== Sys2Proof/Machine/Sensors.lean ====
section
/-! DEFINITION. The sensors of the management plane, their thresholds, and the pins that the module drives by its state
(12 R365-R367, 19 R486, R488). -/

namespace Sys2Proof.Machine

/-- Does the Ostler take messages: powered, and not restarting (R403, R477)? -/
def State.mgmtUp (s : State) : Bool := !s.power.off && !s.ev.ostlerDown && s.serves srcOstler

/-- The value of a numeric sensor in its unit (R488). -/
def State.sensor (s : State) (id : Nat) : Nat :=
  match id with
  | 1 => s.field Reg.PWR_INPUT 0 16
  | 2 => s.field Reg.PWR_INPUT 16 16
  | 3 => s.field Reg.PWR_POWER 0 16
  | 4 => s.field Reg.PWR_POWER 16 16
  | 5 => s.field Reg.PWR_BALLAST 0 16
  | 6 => s.field Reg.PWR_THERMAL 0 8
  | 7 => s.field Reg.PWR_THERMAL 8 8
  | 8 => s.field Reg.PWR_THERMAL 16 8
  | 9 => s.power.flow
  | 10 => s.field Reg.PWR_STATUS 8 7
  | 11 => if s.flash.drained then 0 else s.dieCount
  | 12 => s.field Reg.CHS_STATUS 0 6
  | 13 => ((List.range 128).filter fun p => (s.port p).st == 7#4).length
  | 14 => (List.range 32).foldl (fun n k => n + (s.reg (Reg.CHS_UE k)).toNat) 0
  | 15 => s.field Reg.EVT_COUNTS 0 16
  | _ => 0

/-- PWR_STATUS (R380, R383): Active while a job runs or stops, or a training step runs. -/
def State.pwrStatus (s : State) : Nat :=
  let v := (s.reg Reg.PWR_STATUS).toNat
  let jobs := (List.range 64).any fun k => (s.job k).live
  let training := s.stepState == 1 && decide (4 ≤ s.stepNow) && decide (s.stepNow ≤ 9)
  if v % 4 = 2 ∧ (jobs || training) then v + 1 else v

/-- The value of a state sensor (R488): power state, thermal level, bring-up step and its state, pair state, Recovery mode
with the drain flag. -/
def State.stateSensor (s : State) (id : Nat) : Nat :=
  match id with
  | 100 => s.pwrStatus % 4
  | 101 => s.field Reg.PWR_STATUS 2 2
  | 102 => s.field Reg.BRU_STATUS 0 6
  | 103 => s.pairState
  | 104 => (if s.flash.recovery then 1 else 0) + (if s.flash.drained then 2 else 0)
  | _ => 0

/-- What PLDM reads of a sensor (R486, R488). No row of the table carries the read (log entry 177). -/
def State.pldmReading (s : State) (id : Nat) : Nat := if id < 100 then s.sensor id else s.stateSensor id

/-- How far a value is beyond a list of upper and a list of lower thresholds: the number of the worst one passed. -/
def beyond (upper lower : List (Nat × Nat)) (v : Nat) : Nat :=
  max ((upper.filter fun p => decide (v > p.2)).foldl (fun n p => max n p.1) 0)
    ((lower.filter fun p => decide (v < p.2)).foldl (fun n p => max n p.1) 0)

/-- The threshold state of a sensor (R488): 0 normal, 1 warning, 2 critical, 3 fatal. -/
def State.sensorState (s : State) (id : Nat) : Nat :=
  let v := s.sensor id
  match id with
  | 1 => beyond [(2, 5600)] [(2, 4200), (3, 4000)] v
  | 6 => beyond [(1, 35), (2, 40), (3, 45)] [] v
  | 7 => beyond [(2, 60)] [] v
  | 8 => beyond [(3, 105)] [] v
  | 9 => beyond [] [(1, 60)] v
  | 11 => beyond [] [(2, s.field Reg.BRU_CFG 8 7)] v
  | _ => 0

/-- Threshold crossings are sent (R486): one message for each sensor whose state has changed since it was last judged. -/
def State.watchSensors (s : State) : State :=
  if s.mgmtUp then
    [1, 6, 7, 8, 9, 11].foldl (fun s id =>
      let now := s.sensorState id
      let was := AMap.get 0 s.mgmt.sensed id
      if now = was then s
      else { s with mgmt := { s.mgmt with
        sensed := AMap.set 0 s.mgmt.sensed id now, alert := s.mgmt.alert || s.mgmt.smbus == some true } }.send
        (.platformEvent (BitVec.ofNat 16 id) (BitVec.ofNat 2 was) (BitVec.ofNat 2 now))) s
  else s

/-! ### Pins (R365-R367)

RST_N, PERST#, the straps and the power contacts are inputs: they are the operands and rows of their events. -/

/-- Is the standby domain powered? -/
def State.standbyOn (s : State) : Bool := !s.power.off

/-- CPRSNT# is pulled low whenever the standby domain is powered (R365). -/
def State.pinCprsnt (s : State) : Bool := !s.standbyOn

/-- TX_DISABLE of a cage is high until the Ostler enables the port (R366). -/
def State.pinTxDisable (s : State) : Bool := !s.mgmtUp || s.mgmt.portsDown

/-- Both rate-select signals of a cage are high (R366). -/
def pinRateSelect : Bool := true

/-- BB_PRES_N is tied to GND (R367). -/
def pinBbPresN : Bool := false

/-- TDO is driven in the states Shift-DR and Shift-IR of the TAP only (R367). -/
def pinTdoDriven (shiftDr shiftIr : Bool) : Bool := shiftDr || shiftIr

/-- MGMT_ALERT_N is asserted while a PlatformEventMessage is pending on SMBus (R367, R486). -/
def State.pinMgmtAlertN (s : State) : Bool := !s.mgmt.alert

/-- STBY_OK is released while the standby domain is powered (R367). -/
def State.pinStbyOk (s : State) : Bool := s.standbyOn

/-- FAULT_N is low in Recovery mode and while the module is drained and flagged (R367). -/
def State.pinFaultN (s : State) : Bool := !(s.flash.recovery || s.flash.drained)

end Sys2Proof.Machine
end

