-- ==== Sys2Proof/Machine/Power.lean ====
section
/-! DEFINITION. Drag, the 48 V input, power states and thermal levels (12 R362, 13 R371-R384). -/

namespace Sys2Proof.Machine

/-! ### The governor (R373-R377) -/

/-- The thermal level: 0 normal, 1 warning, 2 limit, 3 trip (R382, R383). -/
def State.thermal (s : State) : Nat := s.field Reg.PWR_STATUS 2 2

/-- The effective cap in mW (R373). -/
def State.capMw (s : State) : Nat :=
  let c := min (s.field Reg.PWR_CFG 8 10 * 100000) (1429 * s.power.inputMv)
  if s.thermal = 2 then min c 48000000 else c

/-- The step of one control period in mW (R373). -/
def State.stepMw (s : State) : Nat :=
  min (s.field Reg.PWR_CFG 0 8 * 100000) (250 * s.power.inputMv) * 1024 / 1000000

/-- A job's ceiling in mW: per die, for each die of its rectangle (R374); it counts from the acceptance of JOB_START. -/
def Job.ceilingMw (j : Job) : Nat := if j.live || j.st == .loaded then j.ceilW * 1000 * (j.height * j.width) else 0

/-- The ceilings of every job in Running or Stopping. -/
def State.ceilingsMw (s : State) : Nat := s.jobs.foldl (fun n (_, j) => n + j.ceilingMw) 0

/-- The lowest k at which the scaled ceilings and the idle draw fit within E (R375); 64 where none does. -/
def fitK (ceilings idle env : Nat) : Nat :=
  ((List.range 65).find? fun k => decide (ceilings * (64 - k) + 64 * idle ≤ 64 * env)).getD 64

/-- Where k is not 0, no live job's span is whole at k = 0 (R374). -/
def State.noteZeroK (s : State) : State :=
  if s.field Reg.PWR_STATUS 8 7 = 0 then s
  else { s with jobs := s.jobs.map fun (p : Nat × Job) => (p.1, if p.2.live then { p.2 with spanKZero := false } else p.2) }

/-- A value of k sent: of the earlier ones those stay that a window beginning now may still apply (R375). -/
def Power.sent (p : Power) (k up : Nat) : Power :=
  let recent := p.kSent.takeWhile fun x => decide (up < x.1 + 200)
  { p with kSent := (up, k) :: (recent ++ (p.kSent.drop recent.length).take 1) }

/-- k is fitted and sent to every die (R375). -/
def State.sendK (s : State) : State :=
  let k := fitK s.ceilingsMw s.power.idleMw s.power.envMw
  let s := if k = s.field Reg.PWR_STATUS 8 7 then s
    else { s.setField Reg.PWR_STATUS 8 7 k with power := s.power.sent k s.up }
  s.noteZeroK

/-- 1.1 times a draw, in W rounded up (R374). -/
def ceilOfMw (mw : Nat) : Nat := (11 * mw + 9999) / 10000

/-- A job's draw of a control period: above its ceiling, the ceiling rises at once (R374). -/
def Job.drew (j : Job) (mw : Nat) : Job :=
  let d := min mw 850000
  { j with
    spanMaxMw := max j.spanMaxMw d
    ceilW := if d > 1000 * j.ceilW then ceilOfMw d else j.ceilW }

/-- E moves towards W by at most a step (R373). -/
def moveEnv (env w step : Nat) : Nat :=
  if w > env then min w (env + step) else if env > step ∧ env - step > w then env - step else w

/-- What a control period measures (R373, R374): the input, the idle draw, and each live job's highest per-die draw. The
periods are aligned on the Milestone. -/
def State.dragMeasure (s : State) (mv idle : Nat) (draws : List (Nat × Nat)) : State :=
  let s := if s.clock.running then s.advanceTo (max ((s.ms + 1023) / 1024 * 1024) (s.power.periodMs + 1024)) else s
  let s := { s with power := { s.power with inputMv := mv, idleMw := idle, periodMs := s.ms } }
  draws.foldl (fun s (k, mw) => if (s.job k).live then s.modJob k fun j => j.drew mw else s) s

/-- What a base die draws without ballast, in mW: its share of the idle draw, and its job's draw of the period with the
withheld beats taken off (R377, log entry 143). -/
def State.dieDraw (s : State) (idle k : Nat) (draws : List (Nat × Nat)) (d : Nat) : Nat :=
  let job := match s.slotOfDie d with
    | some j => if (s.job j).live then ((draws.find? fun p => p.1 == j).map (·.2)).getD 0 else 0
    | none => 0
  idle / 64 + job * (64 - k) / 64

/-- The ballast that each base die can take: up to 950 W with its own draw (R377). While a brown-out or an overvoltage lasts
there is none (R381). -/
def State.ballastRoom (s : State) (idle k : Nat) (draws : List (Nat × Nat)) : List Nat :=
  (List.range 64).map fun d => if s.power.recovering then 0 else 950000 - s.dieDraw idle k draws d

/-- Drag spreads a difference over the ballast loads, each in proportion to what it can take (R377, log entry 143). -/
def spread (diff : Nat) (room : List Nat) : List Nat :=
  let sum := room.foldl (· + ·) 0
  room.map fun r => min diff sum * r / max sum 1

/-- Each base die's ballast load of a control period. -/
def State.setBallast (s : State) (loads : List Nat) : State :=
  { s with power := { s.power with
    ballast := loads.zipIdx.foldl (fun (m : AMap Nat) (x, d) => AMap.set 0 m d x) [] } }

/-- What the power registers show of a control period (R373, R378): ballast on, a full step, voltage, current, draw. -/
def State.dragShow (s : State) (mv e ballast full : Nat) : State :=
  let s := (s.setField Reg.PWR_STATUS 6 1 (if ballast ≠ 0 then 1 else 0)).setField Reg.PWR_STATUS 7 1 full
  let s := s.setReg Reg.PWR_INPUT (BitVec.ofNat 32 (min (mv / 10) 65535 + 2 ^ 16 * min (e / max mv 1) 65535))
  let s := s.setReg Reg.PWR_POWER (BitVec.ofNat 32 (e / 10000 + 2 ^ 16 * (e / 10000)))
  s.setReg Reg.PWR_BALLAST (BitVec.ofNat 32 (ballast / 10000))

/-- The envelope that a control period sets (R373). -/
def State.nextEnv (s : State) : Nat :=
  moveEnv s.power.envMw (min (s.power.idleMw + s.ceilingsMw) s.capMw) s.stepMw

/-- A full step of the envelope. -/
def fullStep (step env e : Nat) : Nat := if step ≠ 0 ∧ (e = env + step ∨ env = e + step) then 1 else 0

/-- DRAG_CONTROL_PERIOD (R373): measured voltage and idle draw, total draw, and each slot's highest per-die draw
above idle measured as if unskipped. -/
def State.dragPeriod (s : State) (mv idle measured : Nat) (draws : List (Nat × Nat)) : State :=
  if s.power.off then s
  else
    let u := s.dragMeasure mv idle draws
    let e := u.nextEnv
    let v := ({ u with power := { u.power with envMw := e } } : State).sendK
    let room := v.ballastRoom idle (v.field Reg.PWR_STATUS 8 7) draws
    let ballast := min (e - measured) (room.foldl (· + ·) 0)
    (v.setBallast (spread (e - measured) room)).dragShow mv e ballast (fullStep u.stepMw u.power.envMw e)

/-- The ceilings at a release (R374): first after a whole span at k = 0, then at every release. A new span begins. -/
def State.replaceCeilings (s : State) : State :=
  let zero := s.field Reg.PWR_STATUS 8 7 == 0
  { s with
    jobs := s.jobs.map fun (i, j) =>
      if j.live then
        let hit := j.ceilSet || (j.spanWhole && j.spanKZero)
        (i, { j with
          ceilW := if hit then ceilOfMw j.spanMaxMw else j.ceilW
          ceilSet := hit
          spanWhole := true
          spanKZero := zero
          spanMaxMw := 0 })
      else (i, j) }

/-! ### The input (R371, R380, R381) -/

/-- The measured input voltage. -/
def State.setInput (s : State) (mv : Nat) : State :=
  { s.setField Reg.PWR_INPUT 0 16 (min (mv / 10) 65535) with power := { s.power with inputMv := mv } }

/-- TURN_ON (R371): Off to Standby. -/
def State.turnOn (s : State) (mv : Nat) : State :=
  if s.power.off ∧ mv ≥ 44000 then
    let s := { s with power := { s.power with off := false } }
    (s.setInput mv).setField Reg.PWR_STATUS 0 2 1
  else s

/-- The clocks and rails of the panel go off at once (R381). -/
def State.hardOff (s : State) (src : Nat) : State :=
  let s := s.bump Reg.PWR_COUNTS 0 16 1
  let s := s.acceptCold src false
  let s := { s with power := { s.power with recovering := true, envMw := 0 } }
  s.setField Reg.PWR_STATUS 0 2 1

/-- BROWN_OUT (R381): below 40 V. -/
def State.brownOut (s : State) (mv : Nat) : State :=
  if mv < 40000 ∧ !s.power.off then
    (((s.setInput mv).logPower 0x01 0).setField Reg.PWR_STATUS 4 1 1).hardOff 0x02
  else s

/-- OVERVOLTAGE (R381): above 56 V. -/
def State.overvoltage (s : State) (mv : Nat) : State :=
  if mv > 56000 ∧ !s.power.off then
    (((s.setInput mv).logPower 0x02 0).setField Reg.PWR_STATUS 5 1 1).hardOff 0x03
  else s

/-- INPUT_RECOVERY (R381). -/
def State.inputRecovery (s : State) (mv : Nat) : State :=
  if s.power.recovering ∧ mv ≥ 44000 then
    { s.setInput mv with power := { s.power with recovering := false, inputMv := mv } }
  else s

/-- INPUT_LOW (R380): from 40 V to 42 V the module runs on under the current cap. -/
def State.inputLow (s : State) (mv : Nat) : State :=
  if 40000 ≤ mv ∧ mv < 42000 ∧ !s.power.off then (s.setInput mv).logPower 0x03 0 else s

/-- STANDBY (R380): ignored while a slot holds a job. -/
def State.standby (s : State) : State :=
  if s.jobs.any fun p => p.2.held then s else (s.acceptCold 0x0F false).setField Reg.PWR_STATUS 0 2 1

/-- STANDBY_DOMAIN_POWER_LOSS (R380, R383): Off. The flash and the fuses hold; all else is gone. -/
def State.standbyLoss (s : State) : State :=
  if s.power.inputMv ≥ 44000 then s
  else
    let t := s.cold
    let fuses (off : Nat) : Bool := off == Reg.LIC_SERIAL_LO || off == Reg.LIC_SERIAL_HI || off == Reg.LIC_KEYS ||
      off == Reg.LIC_FLOOR || off == Reg.BRU_FW || off == Reg.FUS_SUSPECT ||
      off == Reg.RST_FAILED_STARTS
    { t with
      regs := t.regs.filter fun p => fuses p.1
      up := 0
      ev := {}
      mgmt := {}
      jtag := {}
      bru := {}
      power := { off := true, inputMv := s.power.inputMv } }

/-! ### Thermal levels (R362, R382) -/

/-- The flow in L/min that a rise in K shows of an input power in W: the coolant takes 1.02 kg/L × 3.8 kJ/(kg K) (01, log
entry 134). -/
def inferredFlow (watts rise : Nat) : Nat := 60 * watts / (3876 * rise)

/-- The highest level whose condition stands, thresholds lowered by d K (R362). -/
def thermalLevel (t : ThermalIn) (flow d : Nat) : Nat :=
  let inlet := t.inlet + d
  if inlet > 45 ∨ t.junction.toNat + d > 105 then 3
  else if inlet > 40 ∨ t.outlet + d > 60 then 2
  else if inlet > 35 ∨ flow < 60 then 1
  else 0

/-- Do the conditions of a level of its own stand, thresholds lowered by d K (R362, R382)? -/
def levelStands (t : ThermalIn) (flow d level : Nat) : Bool :=
  let inlet := t.inlet + d
  match level with
  | 3 => decide (inlet > 45) || decide (t.junction.toNat + d > 105)
  | 2 => decide (inlet > 40) || decide (t.outlet + d > 60)
  | 1 => decide (inlet > 35) || decide (flow < 60)
  | _ => false

/-- A thermal event: PWR_THERMAL as it stood, and nothing else, as R453 lists it (log entry 144). -/
def State.thermalEvent (s : State) (level : Nat) : EventRec :=
  s.powerEvent 0x10 level (s.reg Reg.PWR_THERMAL).toNat 0

/-- A level is entered (R362, R382). -/
def State.enterThermal (s : State) (level : Nat) : State :=
  let s := s.setField Reg.PWR_STATUS 2 2 level
  let s := { s with power := { s.power with coolSince := none } }
  if level = 3 then
    let hit := (List.range 64).filter fun k =>
      (s.job k).live || (s.job k).st == .loaded
    let s := if hit.isEmpty then s.logEvent (s.thermalEvent 3)
      else hit.foldl (fun s k => (s.logEvent (s.stopRec k (s.thermalEvent 3))).faultJob k) s
    (s.acceptCold 0x0F false).setField Reg.PWR_STATUS 0 2 1
  else if level = 0 then s
  else
    let s := if level = 2 then s.bump Reg.PWR_COUNTS 16 16 1 else s
    s.logEvent (s.thermalEvent level)

/-- THERMAL_SAMPLE (R362, R382): a higher level is entered at once; one is left when its own conditions have stood
2 K below for 10 s; a trip holds until a cold start. Without a rise no flow can be inferred: that value is free. -/
def State.thermalSample (s : State) (t : ThermalIn) : State :=
  let s := s.advanceUpTo ((s.up / 1000000000 + 1) * 1000000000)
  let s := s.setReg Reg.PWR_THERMAL (BitVec.ofNat 32
    (t.inlet + 2 ^ 8 * t.outlet + 2 ^ 16 * t.junction.toNat + 2 ^ 24 * t.site.toNat))
  let (flow, s) := if t.outlet ≤ t.inlet then s.fresh
    else (inferredFlow (10 * s.field Reg.PWR_POWER 0 16) (t.outlet - t.inlet), s)
  let level := thermalLevel t flow 0
  let s := { s with power := { s.power with tripCond := level == 3, flow := flow } }
  let now := s.thermal
  if now = 3 then s
  else if level > now then s.enterThermal level
  else if now = 0 ∨ levelStands t flow 2 now then { s with power := { s.power with coolSince := none } }
  else
    match s.power.coolSince with
    | none => { s with power := { s.power with coolSince := some s.up } }
    | some since => if s.up ≥ since + 10000000000 then s.enterThermal level else s

/-- DRAG_CONTROL_PERIOD (R373). -/
def execDragControlPeriod (inputMv idleMw measuredMw : Nat) (draws : List (Nat × Nat)) (s : State) : Answer :=
  .next (s.traced (s.dragPeriod inputMv idleMw measuredMw draws))
/-- TURN_ON (R371). -/
def execTurnOn (inputMv : Nat) (s : State) : Answer := .next (s.turnOn inputMv).watchSensors
/-- BROWN_OUT (R381). -/
def execBrownOut (inputMv : Nat) (s : State) : Answer := .next (s.brownOut inputMv).watchSensors
/-- OVERVOLTAGE (R381). -/
def execOvervoltage (inputMv : Nat) (s : State) : Answer := .next (s.overvoltage inputMv).watchSensors
/-- INPUT_RECOVERY (R381). -/
def execInputRecovery (inputMv : Nat) (s : State) : Answer := .next (s.inputRecovery inputMv).watchSensors
/-- INPUT_LOW (R380). -/
def execInputLow (inputMv : Nat) (s : State) : Answer := .next (s.inputLow inputMv).watchSensors
/-- STANDBY (R380). -/
def execStandby (via : Via) (s : State) : Answer := .next (s.gate via Reg.PWR_CTRL State.standby)
/-- STANDBY_DOMAIN_POWER_LOSS (R380). -/
def execStandbyDomainPowerLoss (s : State) : Answer := .next s.standbyLoss
/-- THERMAL_SAMPLE (R362). -/
def execThermalSample (t : ThermalIn) (s : State) : Answer := .next (s.traced (s.thermalSample t).watchSensors)

end Sys2Proof.Machine
end

