-- ==== Sys2Proof/Machine/Tollgate.lean ====
section
/-! DEFINITION. The Tollgate: roster, rounds, entries, releases, stalls, staged periods (06 R199-R208). -/

namespace Sys2Proof.Machine

/-! ### The roster (R200) -/

/-- Every participant that can be in service. -/
def participants : List Nat :=
  (List.range 64).map srcDie ++ (List.range 32).map srcStack ++ (List.range 64).map srcEngine ++
    [srcHostPort false, srcHostPort true, srcOstler, srcDrag, srcClock, srcReset]

/-- Is a participant waited for in a round? -/
def State.waitedFor (s : State) (n src : Nat) : Bool :=
  s.serves src && !s.toll.returning.any fun p => p.1 == src && (p.2 == 0 || decide (n < p.2))

/-- The roster of the oldest round; while pair mode is active the pair unit is on it (R338). -/
def State.roster (s : State) : List Nat :=
  (participants.filter fun p => s.waitedFor s.toll.oldest p) ++ if s.pairActive then [pairUnit] else []

/-- Participants of the oldest round that have not entered it. -/
def State.missing (s : State) : List Nat := s.roster.filter fun p => !s.toll.entered.contains p

/-- Has everyone entered the oldest round? -/
def State.allEntered (s : State) : Bool := s.missing.isEmpty

/-- An event of class tollgate (R209, R453). -/
def State.tollEvent (s : State) (src cause round e : Nat) : EventRec :=
  { s.eventOf src 0x07 cause with p0 := BitVec.ofNat 32 (round % 256 + 2 ^ 8 * e) }

/-! ### Entries (R202) -/

/-- A protocol fault: the participant's job stops; one without a job leaves service. -/
def State.tollFault (s : State) (src cause round e : Nat) : State :=
  let ev := s.tollEvent src cause round e
  match if src < 0x10000 then s.slotOfDie (gidDie src) else none with
  | some k => s.slotFault k ev
  | none => (s.logEvent ev).participantOut src

/-- Has a participant a duty of the round that is not complete: an engine its re-centring (R320), a die its slice
(R470)? -/
def State.dutyOpen (s : State) (src : Nat) : Bool :=
  (s.engines.any fun (k, e) => srcEngine k == src && e.recentring) ||
    (src < 0x10000 && s.clusters.any fun (g, c) => gidDie g == gidDie src && c.whl.sliceLeft != 0)

/-- A participant enters the oldest round, now; one that has entered it already enters nothing (DEDUCED, log entry 51). -/
def State.enters (s : State) (src : Nat) : State :=
  if s.toll.entered.contains src then s
  else { s with toll := { s.toll with entered := insertNat src s.toll.entered, lastEntryMs := s.ms } }

/-- TOLLGATE_ENTRY (R202): judged by the distance from the oldest round. A participant enters the oldest
round only once its duty is complete (R201); an entry ahead defers its duty (R202). -/
def State.tollEntry (s : State) (src : Nat) (round : BitVec 8) (parityOk : Bool) : State :=
  let n := s.toll.oldest
  let e := (round.toNat + 256 - n % 256) % 256
  if !s.toll.started ∨ !participants.contains src ∨ !s.serves src then s
  else if !parityOk ∨ e ≥ 3 then s.tollFault src 0x02 round.toNat e
  else if e = 2 then s.tollFault src 0x01 round.toNat e
  else if e = 1 then { s with toll := { s.toll with pending := insertNat src s.toll.pending } }
  else if s.dutyOpen src then s
  else s.enters src

/-! ### Opening (R199) -/

/-- The duties of a round that is open and the oldest: the clock controller takes the window that closed before the
opening (R391), the pair unit lists and compares (R345). -/
def State.roundDuties (s : State) : State :=
  let n := s.toll.oldest
  if n < s.toll.opened then ({ s with clock := s.clock.carry (s.roundOpens n) } : State).pairDuties else s

/-- Drag and the clock controller enter a round at its opening, with no further duty (R379, R391). -/
def State.enterAlone (s : State) : State :=
  [srcDrag, srcClock].foldl (fun (s : State) src =>
    if s.serves src then s.enters src else s) s

/-- The same for the round after the oldest, into which they go at the release (R202). -/
def State.enterAhead (s : State) : State :=
  [srcDrag, srcClock].foldl (fun (s : State) src =>
    if s.serves src then { s with toll := { s.toll with pending := insertNat src s.toll.pending } } else s) s

/-- TOLLGATE_ROUND_OPEN (R199): the next round opens at its time; a new Tollgate period begins. -/
def State.roundOpen (s : State) : State :=
  if !s.toll.started then s
  else
    let n := s.toll.opened
    let s := s.advanceTo (s.roundOpens n)
    let s := s.recentreLate
    let s : State := { s with
      dstacks := s.dstacks.map fun (p : Nat × Stack) => (p.1, { p.2 with ceLogged := false })
      dies := s.dies.map fun (p : Nat × Die) => (p.1, { p.2 with warned := [] })
      toll := { s.toll with opened := n + 1 } }
    let s : State := { s with
      dstacks := s.dstacks.filter fun p => p.2 != ({} : Stack)
      dies := s.dies.filter fun p => p.2 != ({} : Die) }
    if n = s.toll.oldest then s.enterAlone.roundDuties else if n = s.toll.oldest + 1 then s.enterAhead else s

/-! ### Release (R201, R205-R207) -/

/-- The mark objects whose snapshot differs from the declared value (R205). -/
def Cluster.mismatches (c : Cluster) (m : Mark) : List Nat :=
  (m.vals.filter fun p => c.markObjs.any fun q => q.1 == p.1 && q.2 != p.2).map (·.1)

/-- Each queue is realigned by its snapshot of consumptions (R205). -/
def Cluster.realign (c : Cluster) (m : Mark) : Cluster :=
  m.qms.foldl (fun c p =>
    let q := c.queue p.1
    c.setQueue p.1 { q with arrivals := q.arrivals - p.2, consumed := q.consumed - p.2 }) c

/-- The mark of a cluster is checked, its queues realigned; a mark of a job that has ended is discarded (R205). -/
def State.checkMark (s : State) (g : Nat) : State :=
  let c := s.cluster g
  match c.mark with
  | none => s
  | some m =>
    if (s.liveTag g).isNone then s.setCluster g { c with mark := none, pendMark := none }
    else
      let s := s.setCluster g { (c.realign m) with mark := none }
      (c.mismatches m).foldl (fun s o => s.syncFault g 0x06 o) s

def State.checkMarks (s : State) : State := (s.clusters.map (·.1)).foldl State.checkMark s

/-- Step 5 of a release (R490): a pending Manifest is carried, or refused where its time comes too soon. -/
def State.manifestRelease (s : State) (n : Nat) : State :=
  if s.field Reg.MAN_STATUS 0 3 = 1 then
    let t := s.reg64 Reg.MAN_TARGET_LO
    let k := s.toll.staged.getD s.toll.k
    let next2 := s.roundOpens (n + 1) + 2 ^ k * 4 / 5
    let o := if s.toll.staged.isSome then next2 else s.roundOpens (n + 2)
    if t ≥ o then
      { (s.setField Reg.MAN_STATUS 0 3 2).setField Reg.MAN_STATUS 4 10 0 with man := { target := t, out := s.outOf } }
    else (s.setField Reg.MAN_STATUS 0 3 4).logPlain srcOstler 0x18 0x07 0 t o
  else s

/-- Step 6 (R206): a staged period applies; the next round keeps its time. -/
def State.applyPeriod (s : State) (n : Nat) : State :=
  match s.toll.staged with
  | none => s
  | some k =>
    let t := s.toll
    { s.setField Reg.CLK_TG_STATUS 9 1 0 with
      toll := { t with
        baseMs := s.roundOpens (n + 1), baseN := n + 1, k := k, staged := none
        past := (t.baseMs, t.baseN, t.k) :: t.past } }

/-- Step 7 (R202): pending entries and marks become those of the round now oldest. -/
def State.promote (s : State) (n r : Nat) : State :=
  let t := s.toll
  { s with
    toll := { t with
      oldest := n + 1, entered := t.pending, pending := []
      lastEntryMs := if t.pending.isEmpty then t.lastEntryMs else r }
    clusters := s.clusters.map fun (p : Nat × Cluster) =>
      match p.2.pendMark with
      | some m => (p.1, { p.2 with mark := some m, pendMark := none })
      | none => p }

/-- Participants that return are waited for from the first round that opens after a release (R200). -/
def State.admitReturning (s : State) (r : Nat) : State :=
  let t := s.toll
  let first := if r < t.baseMs then t.baseN else roundAt t.baseMs t.baseN t.k r + 1
  { s with toll := { t with
    returning := (t.returning.map fun (p : Nat × Nat) => if p.2 = 0 then (p.1, first) else p).filter
      fun p => decide (t.oldest < p.2) } }

/-- Every stack's link counts a release (R237). -/
def State.countReleases (s : State) : State :=
  (List.range 32).foldl (fun s k =>
    if s.stackUp k then s.setStack k { s.stack k with releases := (s.stack k).releases + 1 } else s) s

/-- Evidence is counted from the last release at which every compared unit matched (R347). -/
def State.pairRelease (s : State) : State :=
  let p := s.pair
  { s with pair := { p with
    ownListed := false, peerListed := p.peerNext, peerNext := false, evidence := p.evidence && p.mismatch } }

/-- The oldest round releases at a Milestone value, its changes in the order of R201. -/
def State.releaseAt (s : State) (r : Nat) : State :=
  let n := s.toll.oldest
  let s := s.advanceTo r
  let s := if r > s.roundOpens (n + 1) then s.bump Reg.CLK_TG_COUNTS 0 16 1 else s
  let s := s.checkMarks
  let s := s.whlRelease
  let s := s.clockRelease
  let s := s.startRecentre
  let s := s.manifestRelease n
  let s := s.applyPeriod n
  let s := s.promote n r
  let s := { s.setReg64 Reg.CLK_TG_RELEASE_LO r with toll := { s.toll with lastRelease := r } }
  let s := ((s.countReleases.replaceCeilings).mirrorRelease).pairRelease
  (s.admitReturning r).roundDuties

/-- R_n: the last entry rounded up to a multiple of 64, plus 256 (R201). -/
def releaseTime (last : Nat) : Nat := (last + 63) / 64 * 64 + 256

/-- TOLLGATE_RELEASE (R201): when every participant has entered. -/
def State.tollRelease (s : State) : State :=
  if s.toll.started && s.allEntered && decide (s.toll.oldest < s.toll.opened) then
    s.releaseAt (releaseTime s.toll.lastEntryMs)
  else s

/-- D_n, 1.5 periods after O_n (R203). -/
def State.stallTime (s : State) : Nat :=
  let t := s.toll
  if t.oldest < t.baseN then t.baseMs + 2 ^ t.k * 2 / 5
  else t.baseMs + (2 * (t.oldest - t.baseN) + 3) * 2 ^ t.k * 2 / 5

/-- The source that speaks for a participant: the Ostler for the pair unit, as in its own events. -/
def speaker (src : Nat) : Nat := if src = pairUnit then srcOstler else src

/-- One missing participant at D_n: an event, out of service; a die's job stops (R203). Without the partner's list the
pair link is lost (R349). -/
def State.stallOut (s : State) (src : Nat) : State :=
  let ev := s.tollEvent (speaker src) 0x03 s.toll.oldest 0
  if src = pairUnit then (s.logEvent ev).loseLink
  else if src < 0x10000 then s.dieOut (gidDie src) ev else (s.logEvent ev).participantOut src

/-- TOLLGATE_STALL (R203): the missing leave, and the round releases at once. -/
def State.tollStall (s : State) : State :=
  if !s.toll.started ∨ s.allEntered ∨ s.toll.opened ≤ s.toll.oldest then s
  else
    let s := s.advanceTo s.stallTime
    let gone := s.missing
    let s := s.bump Reg.CLK_TG_COUNTS 16 16 1
    let low := match gone.map speaker with
      | [] => srcOstler
      | x :: xs => xs.foldl min x
    let s := if s.field Reg.CLK_TG_STALL 31 1 = 1 then s
      else s.setReg Reg.CLK_TG_STALL (BitVec.ofNat 32 (low + 2 ^ 20 * (s.toll.oldest % 256) + 2 ^ 31))
    let s := gone.foldl State.stallOut s
    s.releaseAt s.ms

/-! ### The period (R206, R208) -/

/-- TG_PERIOD_WRITE (R206): staged, ignored out of range, refused in pair mode. -/
def State.writePeriod (s : State) (via : Via) (value : BitVec 32) : State :=
  let k := bitsOf value.toNat 0 5
  if s.pairActive then
    if k = s.toll.staged.getD s.toll.k then s else s.logLockWrite via Reg.CLK_TG_PERIOD
  else if k < 12 ∨ 24 < k then s
  else { s.setField Reg.CLK_TG_STATUS 9 1 1 with toll := { s.toll with staged := some k } }

/-- TOLLGATE_ROUND_OPEN (R199). -/
def execTollgateRoundOpen (s : State) : Answer := .next (s.traced s.roundOpen)
/-- TOLLGATE_ENTRY (R202). -/
def execTollgateEntry (src : BitVec 20) (round : BitVec 8) (parityOk : Bool) (s : State) : Answer :=
  .next (s.traced (s.tollEntry src.toNat round parityOk))
/-- TOLLGATE_RELEASE (R201). -/
def execTollgateRelease (s : State) : Answer := .next (s.traced s.tollRelease)
/-- TOLLGATE_STALL (R203). -/
def execTollgateStall (s : State) : Answer := .next (s.traced s.tollStall)
/-- TG_PERIOD_WRITE (R206). -/
def execTgPeriodWrite (via : Via) (value : BitVec 32) (s : State) : Answer :=
  .next (s.gate via Reg.CLK_TG_PERIOD fun s => s.writePeriod via value)

end Sys2Proof.Machine
end

