-- ==== Sys2Proof/Machine/Views.lean ====
section
/-! DEFINITION. What a read of BAR0 shows: stored registers, the fields and tables that mirror other state, and the
Manifest view (R7, R11, R153, R439, R451, R489). -/

namespace Sys2Proof.Machine

/-! ### Fields that mirror other state -/

/-- LTN_PORT_STATUS_p (R322): the epoch is stored, the rest is the port's state. -/
def State.portStatus (s : State) (p : Nat) : Nat :=
  let x := s.port p
  x.st.toNat + 2 ^ 4 * (if x.st = 7#4 then x.width.toNat else 0) + 2 ^ 8 * x.pairs.toNat + 2 ^ 16 * x.bad.toNat +
    2 ^ 24 * s.field (Reg.LTN_PORT_STATUS p) 24 8

/-- FUS_DIE_d (R451). -/
def State.fusDie (s : State) (d : Nat) : Nat :=
  let x := s.die d
  let st := if x.degraded then 2 else if x.pendingShift then 1 else if s.excluded d || s.flash.drained then 3 else 0
  let loaded := if s.bru.fusesLoaded then
      2 ^ 3 * x.coreEntries.length + 2 ^ 10 * x.fields.length + 2 ^ 21 * x.shifted.length
    else 0
  st + loaded + 2 ^ 15 * x.soft.length

/-- FUS_DIE_SPARE_d (R451). -/
def State.fusSpare (s : State) (d : Nat) : Nat :=
  let count (n : Nat) := ((List.range 1024).filter fun i => s.spareCount (1024 * d + i) == n).length
  (if s.bru.fusesLoaded then count 0 + 2 ^ 11 * count 1 else 0) + 2 ^ 22 * (s.die d).edgesBad.toNat

/-- CLK_TG_STATUS (R208): the staged bit is stored; while the Tollgate stands, before step 8, no participant is waited for
and none has entered. -/
def State.tgStatus (s : State) : Nat :=
  let t := s.toll
  let roster := if t.started then s.roster else []
  t.oldest % 256 + (if t.started ∧ t.oldest < t.opened then 2 ^ 8 else 0) + 2 ^ 9 * s.field Reg.CLK_TG_STATUS 9 1 +
    2 ^ 10 * (roster.filter fun p => t.entered.contains p).length + 2 ^ 20 * roster.length

/-- BRU_ELAPSED (R431): ms since step 0 of this start. -/
def State.elapsed (s : State) : Nat := if s.bru.step0 then (s.up - s.bru.startUp) / 1000000 else 0

/-- Open streams of a port (R351). -/
def State.portStreams (s : State) (p : Nat) : Nat :=
  (s.streams.filter fun (_, t) => t.port == p && t.st.isOpen).length

/-- The beats Drag has withheld from the slot that PWR_SKIP_SEL names (R383). -/
def State.skipCount (s : State) : Nat := (s.job (s.field Reg.PWR_SKIP_SEL 0 6)).withheld

/-- Word j of EVT_REC (R463); zeros for a record that the log does not hold (R459). -/
def State.recWord (s : State) (j : Nat) : Nat :=
  match s.logRecord (s.reg Reg.EVT_SEL) with
  | some r => leNat ((r.bytes.drop (4 * j)).take 4)
  | none => 0

/-- A word of a list of 64-bit records. -/
def wordOf64 (l : List (BitVec 64)) (byte : Nat) : Nat := (l.getD (byte / 8) 0).toNat / 2 ^ (8 * (byte % 8))

/-- The tables of a die window (R153, R439), and what stands in its registers. -/
def State.windowWord (s : State) (off : Nat) : Nat :=
  let d := windowDie off
  let o := (off - 0x400000) % 0x20000
  if 0x10000 ≤ o ∧ o < 0x12000 then s.distEntry d ((o - 0x10000) / 8) / 2 ^ (8 * (o % 8))
  else if 0x12000 ≤ o ∧ o < 0x12720 then if s.bru.fusesLoaded then (s.die d).fuseWord o else 0
  else if 0x12800 ≤ o ∧ o < 0x12880 then if s.bru.fusesLoaded then wordOf64 (s.die d).fields (o - 0x12800) else 0
  else if 0x12900 ≤ o ∧ o < 0x12A80 then wordOf64 (s.die d).soft (o - 0x12900)
  else (s.reg off).toNat

/-! ### The live value of a register -/

/-- The value that an offset shows in a function's view, before the Manifest view. -/
def State.liveWord (s : State) (fn off : Nat) : Nat :=
  let part (lo w v : Nat) : Nat := setBits (s.reg off).toNat lo w v
  let block := off / 0x10000
  if inDieWindow off then s.windowWord off
  else if block = 0 then
    if off = Reg.HIF_POLL_INTERVAL ∨ off = Reg.HIF_PORT_STATUS 0 ∨ off = Reg.HIF_PORT_STATUS 1 then (s.reg off).toNat
    else if off = Reg.HIF_FN_INFO then setBits (s.fnReg fn off).toNat 0 6 Config.maxVfs.toNat
    else (s.fnReg fn off).toNat
  else if 0x81000 ≤ off ∧ off < 0x83000 ∧ off % 0x40 = 4 then s.portStatus ((off - 0x81000) / 0x40)
  else if 0x91000 ≤ off ∧ off < 0x91800 ∧ off % 0x10 = 8 then part 0 11 (s.portStreams ((off - 0x91000) / 0x10))
  else if 0x50100 ≤ off ∧ off < 0x50200 then s.fusDie ((off - 0x50100) / 4)
  else if 0x50200 ≤ off ∧ off < 0x50300 then s.fusSpare ((off - 0x50200) / 4)
  else if 0xA0100 ≤ off ∧ off < 0xA0140 then s.recWord ((off - 0xA0100) / 4)
  else if (off = Reg.FUS_EXCL_LO ∨ off = Reg.FUS_EXCL_HI) ∧ s.flash.drained then 2 ^ 32 - 1
  else if off = Reg.BRU_IDLE_LO then s.idleMap
  else if off = Reg.BRU_IDLE_HI then s.idleMap / 2 ^ 32
  else if off = Reg.BRU_ELAPSED then s.elapsed
  else if off = Reg.PWR_STATUS then s.pwrStatus
  else if off = Reg.PWR_SKIP_LO then s.skipCount
  else if off = Reg.PWR_SKIP_HI then s.skipCount / 2 ^ 32
  else if off = Reg.EVT_HEAD then s.ev.seq.toNat
  else if off = Reg.PST_PAIR_STATUS then part 15 4 s.activePairPorts.length
  else if off = Reg.FUS_WHL_STATUS then part 0 16 (if s.toll.started then s.sliceSize 500 else 0)
  else if off = Reg.CLK_MS_LO then s.ms
  else if off = Reg.CLK_MS_HI then s.ms / 2 ^ 32
  else if off = Reg.CLK_TG_STATUS then s.tgStatus
  else if off = Reg.CLK_TG_PERIOD then s.toll.staged.getD s.toll.k
  else (s.reg off).toNat

/-! ### The Manifest set (R489) -/

/-- Bits [lo + w - 1 : lo]. -/
def maskBits (lo w : Nat) : Nat := (2 ^ w - 1) * 2 ^ lo

/-- The Manifest set of a die window: its drop counts, its crossings' counts, its streams' underruns, its
distance-table generation. -/
def windowMask (o : Nat) : Nat :=
  if o = 0x8400 ∨ o = 0x8404 ∨ o = 0x840C then maskBits 0 32
  else if o = 0x8508 ∨ o = 0x8518 ∨ o = 0x8528 ∨ o = 0x8538 then maskBits 0 32
  else if 0x13000 ≤ o ∧ o < 0x13400 then maskBits 0 32
  else 0

/-- The Manifest set of a port's registers in LTN, by port offset. -/
def portMask (o : Nat) : Nat :=
  if o = 4 then maskBits 24 8
  else if 0x0C ≤ o ∧ o ≤ 0x2C then maskBits 0 32
  else 0

/-- The offsets of the module-wide registers in the Manifest set with their bits. -/
def moduleMasks : List (Nat × Nat) := [
  (Reg.HIF_ERR_COUNT, maskBits 0 32), (Reg.RST_FAILED_STARTS, maskBits 0 2), (Reg.CLK_TG_COUNTS, maskBits 0 32),
  (Reg.CLK_PPM, maskBits 0 30), (Reg.CLK_COUNTS, maskBits 0 32), (Reg.PWR_SKIP_LO, maskBits 0 32),
  (Reg.PWR_SKIP_HI, maskBits 0 32), (Reg.PWR_COUNTS, maskBits 0 32), (Reg.BRU_SAVED, maskBits 0 31),
  (Reg.BRU_IDLE_GEN, maskBits 0 16), (Reg.FUS_EXCL_GEN, maskBits 0 16), (Reg.FUS_WHL_STATUS, maskBits 16 16),
  (Reg.FUS_WHL_COUNTS, maskBits 0 32), (Reg.PST_PAIR_COUNTS, maskBits 0 24), (Reg.EVT_HEAD, maskBits 0 32),
  (Reg.EVT_COUNTS, maskBits 0 32), (Reg.EVT_POISON, maskBits 0 32), (Reg.MAN_STATUS, maskBits 14 18),
  (Reg.WAY_MISSED, maskBits 0 16), (Reg.WAY_COUNTS, maskBits 0 32), (Reg.CHS_WARM_DISCARD, maskBits 0 32),
  (Reg.FUS_CMD_STATUS, maskBits 6 5)]

/-- The bits of a register that belong to the Manifest set: the RO fields that count, saturate or wrap, and EVT_HEAD. -/
def manifestMask (off : Nat) : Nat :=
  if inDieWindow off then windowMask ((off - 0x400000) % 0x20000)
  else if 0x81000 ≤ off ∧ off < 0x83000 then portMask (off % 0x40)
  else if 0x84000 ≤ off ∧ off < 0x84800 ∧ off % 0x20 = 0x0C then maskBits 0 32
  else if 0x91000 ≤ off ∧ off < 0x91800 ∧ off % 0x10 = 8 then maskBits 16 16
  else if 0x70400 ≤ off ∧ off < 0x70500 then maskBits 0 32
  else if 0x70500 ≤ off ∧ off < 0x70580 then maskBits 0 24
  else match moduleMasks.find? fun p => p.1 == off with
    | some p => p.2
    | none => 0

/-- The unit that latches a register of the set, by source number: the die, stack or engine that the register is
about, and for the others the controller of their block. -/
def manifestUnit (off : Nat) : Nat :=
  let block := off / 0x10000
  if inDieWindow off then srcDie (windowDie off)
  else if block = 8 then srcEngine (if off < 0x84000 then (off - 0x81000) / 0x80 else (off - 0x84000) / 0x20)
  else if 0x91000 ≤ off ∧ off < 0x91800 then srcEngine ((off - 0x91000) / 0x20)
  else if 0x70400 ≤ off ∧ off < 0x70500 then srcStack ((off - 0x70400) / 8)
  else if block = 7 then srcStack ((off - 0x70500) / 4)
  else if block = 1 then srcReset
  else if block = 2 then srcClock
  else if block = 3 then srcDrag
  else srcOstler

/-- The latched value of a register: what the snapshot holds; nothing says what a field shows that no unit latched. -/
def State.latched (s : State) (off : Nat) : Nat :=
  let u := manifestUnit off
  if s.man.gone.contains u then 0
  else if !s.man.held || s.man.out.contains u then (Config.unlatched off).toNat
  else if off = Reg.PWR_SKIP_LO then AMap.get 0 s.man.skips (s.field Reg.PWR_SKIP_SEL 0 6)
  else if off = Reg.PWR_SKIP_HI then AMap.get 0 s.man.skips (s.field Reg.PWR_SKIP_SEL 0 6) / 2 ^ 32
  else match AMap.get none s.man.snap off with
    | some w => w.toNat
    | none => (regResetValue 0 off).toNat

/-- A live value with the bits of a mask taken from another. -/
def mixBits (mask live v : Nat) : Nat := (live &&& (maskBits 0 32 ^^^ mask)) ||| (v &&& mask)

/-- The value that an offset shows, through the Manifest view or live. -/
def State.showWord (s : State) (fn off : Nat) (view : Bool) : Word :=
  let live := s.liveWord fn off % 2 ^ 32
  let mask := manifestMask off
  BitVec.ofNat 32 (if view && decide (mask ≠ 0) then mixBits mask live (s.latched off) else live)

end Sys2Proof.Machine
end

