-- ==== Sys2Proof/Machine/Capture.lean ====
section
/-! DEFINITION. The Manifest and the Waybill recorder (19 R489-R495). -/

namespace Sys2Proof.Machine

/-! ### The Manifest (R489-R491) -/

def State.manState (s : State) : Nat := s.field Reg.MAN_STATUS 0 3

/-- MAN_CTRL.arm (R490): ignored while pending or armed. -/
def State.manArm (s : State) : State :=
  if s.manState = 1 ∨ s.manState = 2 then s.setField Reg.MAN_STATUS 3 1 1 else s.setField Reg.MAN_STATUS 0 3 1

/-- MAN_CTRL.cancel (R490): acts only while pending. -/
def State.manCancel (s : State) : State := if s.manState = 1 then s.setField Reg.MAN_STATUS 0 3 0 else s

/-- A write of MAN_CTRL (R491). -/
def State.writeManCtrl (s : State) (value : BitVec 32) : State :=
  let s := s.setField Reg.MAN_CTRL 2 1 (bitsOf value.toNat 2 1)
  let s := if value.getLsbD 1 then s.manCancel else s
  if value.getLsbD 0 then s.manArm else s

/-- A write of a word of MAN_TARGET (R491). -/
def State.writeManTarget (s : State) (off : Nat) (value : BitVec 32) : State :=
  if s.manState = 1 ∨ s.manState = 2 then s else s.setReg off value

/-- The registers of the set, as a snapshot holds them; of those that are computed EVT_HEAD is one. -/
def ManCopy.snapshot (x : ManCopy) : AMap (Option Word) :=
  AMap.set none (x.regs.filter fun (p : Nat × Option Word) => decide (p.1 < 2 ^ 24) && decide (manifestMask p.1 ≠ 0))
    Reg.EVT_HEAD (if x.head = 0 then none else some (BitVec.ofNat 32 x.head))

/-- MANIFEST_LATCH (R489, R490): every unit in service latches what stood when the Milestone reached T; those that left
service since the release are missing, even where they have come back. -/
def State.manLatch (s : State) : State :=
  if s.manState = 2 then
    let s := s.advanceTo s.man.target
    let x := s.man.atT.getD {}
    let gone := s.man.left ++ x.out.filter fun u => !s.man.out.contains u && !s.man.left.contains u
    let s := { s with man := { s.man with
      held := true
      gone := gone
      snap := x.snapshot
      skips := x.skips
      left := []
      atT := none } }
    ((s.setField Reg.MAN_STATUS 0 3 3).setField Reg.MAN_STATUS 4 10 gone.length).logPlain srcOstler 0x18 0x06
      gone.length s.man.target 0
  else s

/-! ### The Waybill recorder (R492-R495) -/

def State.wayState (s : State) : Nat := s.field Reg.WAY_STATUS 0 2
/-- D (R493). -/
def State.wayPre (s : State) : Nat := s.field Reg.WAY_DEPTH 0 16
/-- A (R493). -/
def State.wayPost (s : State) : Nat := s.field Reg.WAY_DEPTH 16 16 + 1
/-- The bytes of a slot of the destination ring (R493). -/
def State.waySlot (s : State) : Nat := 64 + 16 * (s.wayPre + s.wayPost)
/-- The start of the destination ring (R495). -/
def State.wayBase (s : State) : Nat :=
  (s.reg Reg.WAY_DEST_LO).toNat / 64 * 64 + 2 ^ 32 * s.field Reg.WAY_DEST_HI 0 9
def State.waySlots (s : State) : Nat := s.field Reg.WAY_DEST_HI 9 8 + 1

/-- Is the destination set, and at present addresses (R494)? -/
def State.wayDestOk (s : State) : Bool :=
  s.field Reg.WAY_DEST_HI 31 1 == 1 && s.chsPresent s.wayBase (s.waySlots * s.waySlot)

/-- The recorder is armed with an empty buffer. -/
def State.wayFresh (s : State) : State :=
  { s.setField Reg.WAY_STATUS 0 2 1 with
    way := { s.way with buf := [], post := 0, force := false, preValid := 0, drops := 0, header := [] } }

/-- WAY_CTRL.arm (R494). -/
def State.wayArm (s : State) : State :=
  if s.wayState ≠ 0 ∨ s.wayPre + s.wayPost > 65536 ∨ !s.wayDestOk then s.setField Reg.WAY_STATUS 2 1 1
  else { s.wayFresh with way := { s.wayFresh.way with seenMs := none } }

/-- WAY_CTRL.stop (R494): the capture ends at once with no copy. -/
def State.wayStop (s : State) : State :=
  { s.setField Reg.WAY_STATUS 0 2 0 with way := { s.way with buf := [], post := 0, force := false, header := [] } }

/-- WAY_CTRL.force (R493): of an armed recorder. -/
def State.wayForce (s : State) : State :=
  if s.wayState = 1 then { s with way := { s.way with force := true } } else s

/-- A write of WAY_CTRL (R495). -/
def State.writeWayCtrl (s : State) (value : BitVec 32) : State :=
  let s := s.setField Reg.WAY_CTRL 3 1 (bitsOf value.toNat 3 1)
  let s := if value.getLsbD 1 then s.wayStop else s
  let s := if value.getLsbD 0 then s.wayArm else s
  if value.getLsbD 2 then s.wayForce else s

/-- Does an entry meet the trigger condition (R493)? Only the first entry at or after WAY_TRIG_MS meets the second. -/
def State.wayHit (s : State) (e : WayEntry) : Bool :=
  (s.field Reg.WAY_TRIG e.probe.toNat 1 == 1 && decide (e.probe.toNat < 8) &&
      (e.data &&& s.reg Reg.WAY_TRIG_MASK) == s.reg Reg.WAY_TRIG_VALUE) ||
    (s.field Reg.WAY_TRIG 8 1 == 1 && s.way.seenMs != some (s.reg64 Reg.WAY_TRIG_MS_LO) &&
      decide (s.reg64 Reg.WAY_TRIG_MS_LO ≤ e.ms))

/-- A missed trigger (R494). -/
def State.wayMiss (s : State) (e : WayEntry) : State :=
  let s := if s.field Reg.WAY_MISSED 31 1 = 1 then s
    else (s.setField Reg.WAY_MISSED 31 1 1).setReg64 Reg.WAY_MISSED_MS_LO e.ms
  s.bump Reg.WAY_MISSED 0 16 1

/-- The header of a capture (R493). -/
def State.wayHeader (s : State) : List Byte :=
  natLe s.way.capture.toNat 4 ++ natLe s.way.preValid 4 ++ natLe s.wayPost 4 ++ natLe s.way.drops 4 ++
    natLe s.way.trigMs 8 ++ natLe (s.field Reg.WAY_MISSED 0 16) 4 ++ natLe 0 4 ++ natLe (s.reg64 Reg.WAY_MISSED_MS_LO) 8 ++
    natLe 0 24

/-- The 16 bytes of an entry (R492). -/
def WayEntry.bytes (e : WayEntry) : List Byte :=
  natLe e.ms 8 ++ natLe (e.src.toNat + 2 ^ 20 * e.probe.toNat + 2 ^ 24 * e.kind.toNat +
    (if e.gap then 2 ^ 28 else 0) + (if e.late then 2 ^ 29 else 0)) 4 ++ natLe e.data.toNat 4

/-- Triggered with A entries stored: the copy starts, at 4 GB/s (R493). -/
def State.wayFull (s : State) : State :=
  if s.way.post < s.wayPost then s
  else
    let bytes := 64 + 16 * s.way.buf.length
    let s := (s.setField Reg.WAY_STATUS 0 2 3).setField Reg.WAY_STATUS 3 17 s.way.preValid
    { s with way := { s.way with header := s.wayHeader, copyDue := s.ms + bytes / 4 } }

/-- The recorder takes a committed entry (R493, R494). -/
def State.wayTake (s : State) (e : WayEntry) : State :=
  let hit := s.wayHit e
  let first := s.field Reg.WAY_TRIG 8 1 == 1 && decide (s.reg64 Reg.WAY_TRIG_MS_LO ≤ e.ms)
  let t := if first then { s with way := { s.way with seenMs := some (s.reg64 Reg.WAY_TRIG_MS_LO) } } else s
  match s.wayState with
  | 0 => s
  | 1 =>
    let pre := t.way.buf.take t.wayPre
    if hit || t.way.force then
      let t := (t.setField Reg.WAY_STATUS 0 2 2).setReg64 Reg.WAY_TRIG_HIT_LO e.ms
      { t with way := { t.way with
        buf := e :: pre, post := 1, force := false, preValid := pre.length, trigMs := e.ms } }.wayFull
    else { t with way := { t.way with buf := (e :: pre).take t.wayPre } }
  | 2 =>
    let t := if hit then t.wayMiss e else t
    { t with way := { t.way with buf := e :: t.way.buf, post := t.way.post + 1 } }.wayFull
  | _ => if hit then t.wayMiss e else t

/-- Does an entry come before another in the order of R32? -/
def WayEntry.before (a b : WayEntry) : Bool := decide (a.ms < b.ms) || (a.ms == b.ms && decide (a.src.toNat < b.src.toNat))

/-- The first entry in the order. -/
def firstEntry : List WayEntry → Option WayEntry
  | [] => none
  | e :: es => match firstEntry es with
    | none => some e
    | some x => if x.before e then some x else some e

/-- WAYBILL_ENTRY_COMMIT (R492): the first entry in the order, 16 µs after its ms; a late one at once. -/
def State.wayCommit (s : State) : State :=
  match firstEntry s.way.pending with
  | none => s
  | some e =>
    let late := match s.way.last with
      | some (t, src) => decide (e.ms < t) || (e.ms == t && decide (e.src.toNat < src.toNat))
      | none => false
    let s := { s with way := { s.way with pending := s.way.pending.erase e } }
    if late then s.wayTake { e with late := true }
    else
      let s := s.advanceTo (e.ms + 16000)
      { s with way := { s.way with last := some (e.ms, e.src) } }.wayTake e

/-- Captures copied (R495); the manual does not say what the count does beyond 16 bits. -/
def State.countCapture (s : State) : State :=
  if s.field Reg.WAY_COUNTS 0 16 = 65535 then
    let (v, s) := s.fresh
    s.setField Reg.WAY_COUNTS 0 16 v
  else s.setField Reg.WAY_COUNTS 0 16 (s.field Reg.WAY_COUNTS 0 16 + 1)

/-- Where the capture goes: slot (capture number mod slots) of the ring (R493). -/
def State.wayAddr (s : State) : Nat := s.wayBase + s.way.capture.toNat % s.waySlots * s.waySlot

/-- The capture is written to its slot and logged (R493, R494). -/
def State.wayStore (s : State) : State :=
  let bytes : List Byte := s.way.header ++ s.way.buf.reverse.flatMap WayEntry.bytes
  let missed : Nat := leNat ((s.way.header.drop 24).take 4)
  (s.chsWrite s.wayAddr bytes (fun _ => false) 0 true).1.countCapture.logPlain srcOstler 0x18 0x08 s.way.capture.toNat
    s.way.trigMs (s.way.preValid + missed * 2 ^ 32)

/-- WAYBILL_COPY_COMPLETE (R493, R494): the capture stands in its slot; the recorder re-arms or goes idle. -/
def State.wayCopied (s : State) : State :=
  if s.wayState = 3 then
    let s : State := (s.advanceTo s.way.copyDue).wayStore
    let s : State := { s with way := { s.way with capture := s.way.capture + 1 } }
    if s.field Reg.WAY_CTRL 3 1 = 1 then s.wayFresh else s.wayStop
  else s

/-- MANIFEST_ARM (R490). -/
def execManifestArm (via : Via) (s : State) : Answer := .next (s.gate via Reg.MAN_CTRL State.manArm)
/-- MANIFEST_CANCEL (R490). -/
def execManifestCancel (via : Via) (s : State) : Answer := .next (s.gate via Reg.MAN_CTRL State.manCancel)
/-- MANIFEST_LATCH (R489). -/
def execManifestLatch (s : State) : Answer := .next s.manLatch
/-- WAYBILL_ARM (R494). -/
def execWaybillArm (via : Via) (s : State) : Answer := .next (s.gate via Reg.WAY_CTRL State.wayArm)
/-- WAYBILL_STOP (R494). -/
def execWaybillStop (via : Via) (s : State) : Answer := .next (s.gate via Reg.WAY_CTRL State.wayStop)
/-- WAYBILL_FORCE (R493). -/
def execWaybillForce (via : Via) (s : State) : Answer := .next (s.gate via Reg.WAY_CTRL State.wayForce)
/-- WAYBILL_ENTRY_COMMIT (R492). -/
def execWaybillEntryCommit (s : State) : Answer := .next s.wayCommit
/-- WAYBILL_COPY_COMPLETE (R494). -/
def execWaybillCopyComplete (s : State) : Answer := .next s.wayCopied

end Sys2Proof.Machine
end

