-- ==== Sys2Proof/Machine/Image.lean ====
section
/-! DEFINITION. Load images: the header, the section directory and the records of every section (09 R281-R288,
04 R150, R151, 06 R187, 07 R217, R221, 11 R330), and the checks of the image format (R290 order 4). -/

namespace Sys2Proof.Machine

/-- A little-endian number of a byte string. -/
def bytesNum (b : List Byte) (off n : Nat) : Nat := leNat ((b.drop off).take n)

/-- A directory entry (R281); `res` is the number in the reserved bytes, as in every record below. -/
structure SecRec where
  kind : Nat
  res : Nat
  off : Nat
  len : Nat
  count : Nat
  deriving DecidableEq, Repr

/-- A program record (R284). -/
structure ProgRec where
  rel : Nat
  words : Nat
  seed : Nat
  wordsOff : Nat
  cvtOff : Nat
  deriving DecidableEq, Repr

/-- An SRAM record (R285). -/
structure SramRec where
  rel : Nat
  lanes : Nat
  addr : Nat
  len : Nat
  off : Nat
  deriving DecidableEq, Repr

/-- A cluster route-schedule record (R286). -/
structure RouteRec where
  rel : Nat
  res : Nat
  off : Nat
  deriving DecidableEq, Repr

/-- An exchange-unit record (R286). -/
structure UnitRec where
  die : Nat
  edge : Nat
  unit : Nat
  kind : Nat
  stack : Nat
  res : Nat
  off : Nat
  deriving DecidableEq, Repr

/-- A coupling record (R187). -/
structure CplRec where
  rel : Nat
  obj : Nat
  flags : Nat
  count : Nat
  thresh : Nat
  mark : Nat
  deriving DecidableEq, Repr

/-- A queue declaration (R150). -/
structure QueueRec where
  rel : Nat
  queue : Nat
  kind : Nat
  bound : Nat
  prefill : Nat
  res : Nat
  off : Nat
  deriving DecidableEq, Repr

/-- A window record (R217). -/
structure WinRec where
  window : Nat
  rights : Nat
  interleave : Nat
  die : Nat
  len : Nat
  res : Nat
  deriving DecidableEq, Repr

/-- A stream record (R221): the descriptor, its slot number, and its reserved bits. -/
structure StreamRec where
  desc : StreamDesc
  slot : Nat
  res : Nat
  deriving DecidableEq, Repr

/-- A Lantern or posting stream record (R330). -/
structure LinkRec where
  kind : Nat
  port : Nat
  loc : Nat
  window : Nat
  mode : Nat
  peer : Nat
  remote : Nat
  start : Nat
  lines : Nat
  gateDie : Nat
  gateEdge : Nat
  gateSlot : Nat
  elem : Nat
  ring : Nat
  res : Nat
  deriving DecidableEq, Repr

/-- A distance assumption (R151). -/
structure DistRec where
  rel : Nat
  maxBeats : Nat
  res : Nat
  deriving DecidableEq, Repr

/-- The sections of an image. -/
def imgSections (b : List Byte) : List SecRec :=
  (List.range (min (bytesNum b 10 2) 16)).map fun i =>
    let o := 64 + 16 * i
    { kind := bytesNum b o 2, res := bytesNum b (o + 2) 2, off := bytesNum b (o + 4) 4, len := bytesNum b (o + 8) 4,
      count := bytesNum b (o + 12) 4 }

/-- The section of a type; an absent one is empty. -/
def imgSection (b : List Byte) (k : Nat) : SecRec :=
  ((imgSections b).find? fun x => x.kind == k).getD { kind := k, res := 0, off := 0, len := 0, count := 0 }

/-- The offsets of a section's records. -/
def recordsAt (b : List Byte) (k size : Nat) : List Nat :=
  let x := imgSection b k
  (List.range (x.len / size)).map fun i => x.off + size * i

def imgProgs (b : List Byte) : List ProgRec := (recordsAt b 2 16).map fun o =>
  { rel := bytesNum b o 2, words := bytesNum b (o + 2) 2, seed := bytesNum b (o + 4) 4, wordsOff := bytesNum b (o + 8) 4,
    cvtOff := bytesNum b (o + 12) 4 }

def imgSrams (b : List Byte) : List SramRec := (recordsAt b 3 16).map fun o =>
  { rel := bytesNum b o 2, lanes := bytesNum b (o + 2) 2, addr := bytesNum b (o + 4) 4, len := bytesNum b (o + 8) 4,
    off := bytesNum b (o + 12) 4 }

def imgRoutes (b : List Byte) : List RouteRec := (recordsAt b 4 8).map fun o =>
  { rel := bytesNum b o 2, res := bytesNum b (o + 2) 2, off := bytesNum b (o + 4) 4 }

def imgUnits (b : List Byte) : List UnitRec := (recordsAt b 5 16).map fun o =>
  { die := bytesNum b o 1, edge := bytesNum b (o + 1) 1, unit := bytesNum b (o + 2) 1, kind := bytesNum b (o + 3) 1,
    stack := bytesNum b (o + 4) 1, res := bytesNum b (o + 5) 3 + bytesNum b (o + 12) 4, off := bytesNum b (o + 8) 4 }

def imgCpls (b : List Byte) : List CplRec := (recordsAt b 6 16).map fun o =>
  { rel := bytesNum b o 2, obj := bytesNum b (o + 2) 1, flags := bytesNum b (o + 3) 1, count := bytesNum b (o + 4) 4,
    thresh := bytesNum b (o + 8) 4, mark := bytesNum b (o + 12) 4 }

def imgQueues (b : List Byte) : List QueueRec := (recordsAt b 7 16).map fun o =>
  { rel := bytesNum b o 2, queue := bytesNum b (o + 2) 1, kind := bytesNum b (o + 3) 1, bound := bytesNum b (o + 4) 1,
    prefill := bytesNum b (o + 5) 1, res := bytesNum b (o + 6) 2 + bytesNum b (o + 12) 4, off := bytesNum b (o + 8) 4 }

/-- The window records stand before the stream records (R282). -/
def imgWindows (b : List Byte) : List WinRec :=
  let x := imgSection b 8
  (List.range x.count).map fun i =>
    let o := x.off + 16 * i
    { window := bytesNum b o 1, rights := bytesNum b (o + 1) 1, interleave := bytesNum b (o + 2) 1,
      die := bytesNum b (o + 3) 1, len := bytesNum b (o + 4) 4, res := bytesNum b (o + 8) 8 }

/-- One stream record (R221). -/
def streamRec (b : List Byte) (o : Nat) : StreamRec :=
  let mode := bytesNum b (o + 1) 1
  let d : StreamDesc :=
    { die := bytesNum b o 1, edge := mode % 4, ingress := bitAt mode 2, net := bitsOf mode 3 2, conv := bitsOf mode 5 2,
      slot := bytesNum b (o + 2) 1, window := bytesNum b (o + 3) 1, depth := bytesNum b (o + 4) 2, credits := bytesNum b (o + 6) 2,
      start := bytesNum b (o + 8) 8 % 2 ^ 41, rowLen := bytesNum b (o + 16) 2, passes := bytesNum b (o + 18) 2,
      rows := bytesNum b (o + 20) 4, stride := toSigned 32 (bytesNum b (o + 24) 4), cplCluster := bytesNum b (o + 28) 2,
      cpl := bytesNum b (o + 30) 1 % 64, batch := bytesNum b (o + 31) 1 }
  { desc := d, slot := d.slot,
    res := mode / 2 ^ 7 + bytesNum b (o + 8) 8 / 2 ^ 41 + bytesNum b (o + 30) 1 / 2 ^ 6 }

def imgStreams (b : List Byte) : List StreamRec :=
  let x := imgSection b 8
  (List.range ((x.len - 16 * x.count) / 32)).map fun i => streamRec b (x.off + 16 * x.count + 32 * i)

def imgLinks (b : List Byte) : List LinkRec := (recordsAt b 9 32).map fun o =>
  { kind := bytesNum b o 1, port := bytesNum b (o + 1) 1, loc := bytesNum b (o + 2) 2, window := bytesNum b (o + 4) 1,
    mode := bytesNum b (o + 5) 1, peer := bytesNum b (o + 6) 2, remote := bytesNum b (o + 8) 8, start := bytesNum b (o + 16) 4,
    lines := bytesNum b (o + 20) 4, gateDie := bytesNum b (o + 24) 1, gateEdge := bytesNum b (o + 25) 1,
    gateSlot := bytesNum b (o + 26) 1, elem := bytesNum b (o + 27) 1, ring := bytesNum b (o + 28) 2, res := bytesNum b (o + 30) 2 }

def imgDists (b : List Byte) : List DistRec := (recordsAt b 10 8).map fun o =>
  { rel := bytesNum b o 2, maxBeats := bytesNum b (o + 2) 2, res := bytesNum b (o + 4) 4 }

/-! ### Header and summary (R281, R283) -/

def imgHeight (b : List Byte) : Nat := bytesNum b 6 1
def imgWidth (b : List Byte) : Nat := bytesNum b 7 1
def imgSchedLen (b : List Byte) : Nat := bytesNum b 8 2
/-- A field of the summary. -/
def sumNum (b : List Byte) (off n : Nat) : Nat := bytesNum b ((imgSection b 1).off + off) n
def imgDieMask (b : List Byte) : Nat := sumNum b 8 8

/-! ### What the records point to -/

/-- `n` numbers of `size` bytes one after another. -/
def bytesNums (b : List Byte) (off size n : Nat) : List Nat := (List.range n).map fun i => bytesNum b (off + size * i) size

/-- The instruction words of a program. -/
def ProgRec.program (b : List Byte) (p : ProgRec) : List (BitVec 128) := (bytesNums b p.wordsOff 16 p.words).map (BitVec.ofNat 128)

/-- The entries of a conversion control table as 32-bit words (R284). -/
def ProgRec.cvtWords (b : List Byte) (p : ProgRec) : List Nat :=
  if p.cvtOff = 0 then List.replicate 16 0 else bytesNums b p.cvtOff 4 16

/-- The L route words at an offset. -/
def routeWords (b : List Byte) (off : Nat) : List (BitVec 128) :=
  (bytesNums b off 16 (imgSchedLen b)).map (BitVec.ofNat 128)

/-- The bytes of an entry of a queue (R150). -/
def queueBytes (q : Nat) : Nat := if q < 4 then 64 else if q < 8 then 8 else 2

def QueueRec.prefills (b : List Byte) (q : QueueRec) : List (BitVec 512) :=
  (bytesNums b q.off (queueBytes q.queue) q.prefill).map (BitVec.ofNat 512)

/-! ### The image format (R281-R283, R290 order 4) -/

/-- The record size of a section type. -/
def recordSize (k : Nat) : Nat :=
  match k with
  | 1 => 64
  | 4 => 8
  | 9 => 32
  | 10 => 8
  | _ => 16

/-- Does a section's count agree with its length (R281, R282)? -/
def SecRec.countOk (x : SecRec) : Bool :=
  if x.kind = 8 then decide (16 * x.count ≤ x.len) && (x.len - 16 * x.count) % 32 == 0
  else if x.kind = 11 then x.count == 0
  else x.len == recordSize x.kind * x.count && (x.kind != 1 || x.count == 1)

/-- No value occurs twice. -/
def noRepeat : List Nat → Bool
  | [] => true
  | x :: xs => !xs.contains x && noRepeat xs

/-- The CRC over the image, its own field taken as 0 (R281). -/
def imgCrc (b : List Byte) : Nat := (crc32c (b.take 16 ++ [0, 0, 0, 0] ++ b.drop 20)).toNat

/-- The header and the directory (R281, R282); a reserved byte that is not 0 is taken as a bad format. -/
def headerOk (b : List Byte) : Bool :=
  let secs := imgSections b
  decide (64 ≤ b.length) && bytesNum b 0 4 == 0x4C444C56 && bytesNum b 4 2 == 1 && bytesNum b 20 44 == 0 &&
    bytesNum b 12 4 == b.length && bytesNum b 16 4 == imgCrc b && decide (1 ≤ bytesNum b 10 2) &&
    decide (bytesNum b 10 2 ≤ 16) && decide (64 + 16 * bytesNum b 10 2 ≤ b.length) &&
    secs.all (fun x => decide (1 ≤ x.kind) && decide (x.kind ≤ 11) && x.res == 0 && x.off % 16 == 0 &&
      decide (x.off + x.len ≤ b.length) && x.countOk) &&
    noRepeat (secs.map (·.kind)) && secs.any (·.kind == 1) && secs.any (·.kind == 2)

/-- Every byte string that a record points to: offset and length. -/
def pointers (b : List Byte) : List (Nat × Nat) :=
  let l := imgSchedLen b
  (imgProgs b).flatMap (fun p => (p.wordsOff, 16 * p.words) :: if p.cvtOff = 0 then [] else [(p.cvtOff, 64)]) ++
    (imgSrams b).map (fun x => (x.off, x.len)) ++ (imgRoutes b).map (fun x => (x.off, 16 * l)) ++
    (imgUnits b).map (fun x => (x.off, 16 * l)) ++
    ((imgQueues b).filter fun q => q.prefill != 0).map fun q => (q.off, queueBytes q.queue * q.prefill)

/-- The image format as a whole. -/
def formatOk (b : List Byte) : Bool :=
  headerOk b && (sumNum b 21 1 == 0 && sumNum b 24 40 == 0) &&
    (pointers b).all (fun p => decide (p.1 + p.2 ≤ b.length)) && (imgRoutes b).all (·.res == 0) &&
    sumNum b 0 4 == (imgProgs b).length && sumNum b 4 4 == imgSchedLen b * (imgRoutes b).length

end Sys2Proof.Machine
end

