-- ==== Sys2Proof/Machine/Program.lean ====
section
/-! DEFINITION. What admission checks in a program (R290 order 7): every word by itself, the repeat blocks as they
are written, and the program as executed with its repeat blocks unrolled (02 R35, R53, R58, R66, R68, R101, 03
R82-R111, R500, R501, 05 R170, R181). -/

namespace Sys2Proof.Machine

/-! ### What a word names -/

/-- The vector operand codes of a slot (R89). -/
def vCodes (c : Instr) : List Nat :=
  match c with
  | .emac _ o => [o.srcA.toNat, o.srcB.toNat]
  | .emacc _ o => [o.srcA.toNat, o.srcB.toNat]
  | .eslice _ _ _ a b => [a.toNat, b.toNat]
  | .fadd _ o => [o.va.toNat, o.vb.toNat]
  | .fsub _ o => [o.va.toNat, o.vb.toNat]
  | .fmul _ o => [o.va.toNat, o.vb.toNat]
  | .fma _ o => [o.va.toNat, o.vb.toNat]
  | .fmin _ o => [o.va.toNat, o.vb.toNat]
  | .fmax _ o => [o.va.toNat, o.vb.toNat]
  | .fcmp _ va vb _ _ _ => [va.toNat, vb.toNat]
  | .cvt _ _ va _ _ => [va.toNat]
  | .sfu _ _ va _ => [va.toNat]
  | .pwt _ _ va _ => [va.toNat]
  | .iadd _ o => [o.va.toNat, o.vb.toNat]
  | .isub _ o => [o.va.toNat, o.vb.toNat]
  | .vand _ o => [o.va.toNat, o.vb.toNat]
  | .vor _ o => [o.va.toNat, o.vb.toNat]
  | .vxor _ o => [o.va.toNat, o.vb.toNat]
  | .shl _ _ va _ => [va.toNat]
  | .shr _ _ va _ => [va.toNat]
  | .mov _ _ va => [va.toNat]
  | .bcast _ _ va _ => [va.toNat]
  | .lanex _ _ va _ => [va.toNat]
  | .scale _ va _ => [va.toNat]
  | .xset _ o _ _ _ _ => [o.va.toNat, o.vb.toNat]
  | .xgath _ o _ _ => [o.va.toNat, o.vb.toNat]
  | .x24 _ o _ => [o.va.toNat, o.vb.toNat]
  | .xcslu _ _ va _ _ _ => [va.toNat]
  | .hacc _ o _ _ => [o.va.toNat, o.vb.toNat]
  | _ => []

/-- The scalar operand codes of a slot (R90). -/
def sCodes (c : Instr) : List Nat :=
  match c with
  | .pwt _ _ _ vb => [vb.toNat]
  | .vfroms _ _ vb => [vb.toNat]
  | .hclr _ vb _ => [vb.toNat]
  | .hmerge _ _ vb _ => [vb.toNat]
  | .salu _ _ _ sa sb => [sa.toNat, sb.toNat]
  | .salui _ _ _ sa _ => [sa.toNat]
  | .pcmp _ _ _ sa sb => [sa.toNat, sb.toNat]
  | .pfroms _ _ sa => [sa.toNat]
  | .ssend _ sa => [sa.toNat]
  | .csend _ sa => [sa.toNat]
  | _ => []

def wordSlots (o : WordSlots) : List Instr := [o.e, o.v, o.m, o.q]

/-- The queues that a word names: as operands, by SIN, by a CWAIT with cond 2 (R114, R115, R188). -/
def wordQueues (o : WordSlots) : List Nat :=
  ((wordSlots o).flatMap fun c =>
    (vCodes c).filterMap (fun x => (vectorQueue x).map (·.1)) ++ (sCodes c).filterMap fun x => (scalarQueue x).map (·.1)) ++
    (match o.m with
    | .sin _ q _ _ _ => [q.toNat]
    | _ => []) ++
    (match o.q with
    | .cwait _ cpl rem cond _ _ _ => if !rem && cond == 2#3 then [cpl.toNat] else []
    | _ => [])

/-- The networks that a word injects into: 0 vector, 1 scalar, 2 control (R129). -/
def wordInjects (o : WordSlots) : List Nat :=
  (match o.m with
    | .sout _ _ _ _ _ => [0]
    | _ => []) ++
    (match o.q with
    | .vsend _ _ _ => [0]
    | .ssend _ _ => [1]
    | .csend _ _ => [2]
    | .csig _ _ rem _ _ => if rem then [2] else []
    | .cwait _ _ rem _ _ _ _ => if rem then [2] else []
    | _ => [])

/-- Is a slot a slice-mode operation, or does it use format code 0xA (R66)? -/
def usesSlice (c : Instr) : Bool :=
  match c with
  | .emac _ o => o.fmtA == 0xA#4 || o.fmtB == 0xA#4
  | .emacc _ o => o.fmtA == 0xA#4 || o.fmtB == 0xA#4
  | .eclr _ _ mode _ => mode == 3#2
  | .erd _ _ _ rctl => rctl.extractLsb' 0 4 == 0xA#4
  | .eslice _ _ _ _ _ => true
  | .cvt _ _ _ _ fmt => fmt == 0xA#4
  | .xcslu _ _ _ values fmt _ => values && fmt == 0xA#4
  | _ => false

/-! ### Words and blocks as they are written -/

/-- One word under n active repeat blocks (R90, R100, R105). -/
def wordOk (cvt : List Nat) (n : Nat) (o : WordSlots) : Bool :=
  (wordSlots o).all legal && noRepeat (wordInjects o) &&
    ((wordSlots o).flatMap sCodes).all (fun x => !(decide (45 ≤ x) && decide (x ≤ 48)) || decide (x - 45 < n)) &&
    (match o.v with
    | .cvt _ _ _ idx fmt =>
      let f := cvt.getD idx.toNat 0 % 16
      decide (f ≤ 9) && (fmt == 9#4 || f == 9)
    | _ => true)

/-- The words from word w on; `st` holds the last words of the open blocks, innermost first (R106, R108). -/
def wordsOk (g : Nat) (cvt : List Nat) (total : Nat) : Nat → List Nat → List (BitVec 128) → Bool
  | _, _, [] => true
  | w, st, x :: xs =>
    let st := st.dropWhile (· < w)
    match decodeWord (BitVec.ofNat 16 g) x with
    | none => false
    | some o =>
      wordOk cvt st.length o &&
        (match o.q with
        | .rep _ _ lenM1 _ =>
          let last := w + lenM1.toNat + 1
          decide (st.length < 4) && decide (last < total) && decide (last ≤ st.headD last) &&
            wordsOk g cvt total (w + 1) (last :: st) xs
        | .endProg _ => st.isEmpty && wordsOk g cvt total (w + 1) st xs
        | _ => wordsOk g cvt total (w + 1) st xs)

/-- The conversion control table (R53, R100, R284). DESIGN CHOICE (log entry 157): R53 refuses blk = 1 with a fmt other
than 0x0-0x4 for these entries too, so the scaled narrow source that R100 reads under an FP32 entry never occurs. -/
def cvtOk (g : Nat) (cvt : List Nat) : Bool :=
  cvt.all fun e => decide (e < 2 ^ 20) && rctlOk true (BitVec.ofNat 20 e) && (kindOf g == .f || !bitAt e 8)

/-! ### The program as executed -/

/-- Where a result lands (R84). -/
inductive Place where
  | v (r : Nat)
  | s (r : Nat)
  | p (r : Nat)
  | sa
  | sb
  | acc (r : Nat)
  deriving DecidableEq, Repr

/-- What the loader knows at one executed beat. `lands` lists results by the first beat that can use them; `writes`
the scalar results by the same beat, with their values where they are known; `port` and `near` are the beats up to
which LSAVE or LREST holds the SRAM port and reads near SRAM; `busy0` and `busy1` those up to which HACC occupies a
table; `unknownAt` the beats at which an LREST makes a Ledger register's mode unknown (R95). -/
structure Walk where
  pc : Nat := 0
  rep : List RepFrame := []
  n : Nat := 0
  known : AMap (Option (BitVec 64)) := []
  modes : AMap (Option Nat) := []
  lands : List (Nat × Place) := []
  writes : List (Nat × Nat × Option (BitVec 64)) := []
  sfu : Option Nat := none
  enop : Bool := false
  port : Nat := 0
  near : Nat := 0
  busy0 : Nat := 0
  busy1 : Nat := 0
  unknownAt : List (Nat × Nat) := []
  deriving DecidableEq, Repr

def Walk.scalar (w : Walk) (r : Nat) : Option (BitVec 64) := AMap.get (some 0) w.known r
def Walk.setScalar (w : Walk) (r : Nat) (v : Option (BitVec 64)) : Walk :=
  { w with known := AMap.set (some 0) w.known r v }
/-- A Ledger register's tracked mode (R95). -/
def Walk.mode (w : Walk) (a : Nat) : Option Nat := AMap.get (some 0) w.modes a
def Walk.setMode (w : Walk) (a : Nat) (m : Option Nat) : Walk := { w with modes := AMap.set (some 0) w.modes a m }

/-- Scalar results that can be used from this beat on are in their registers, and Ledgers that LREST has restored by
then have an unknown mode. -/
def Walk.settle (w : Walk) (upTo : Nat) : Walk :=
  let due := (w.writes.filter fun x => decide (x.1 ≤ upTo)).mergeSort fun a b => decide (a.1 ≤ b.1)
  let w := (w.unknownAt.filter fun x => decide (x.1 ≤ upTo)).foldl (fun (w : Walk) x => w.setMode x.2 none) w
  let w := { w with
    writes := w.writes.filter fun x => decide (upTo < x.1)
    unknownAt := w.unknownAt.filter fun x => decide (upTo < x.1) }
  due.foldl (fun (w : Walk) x => w.setScalar x.2.1 x.2.2) w

/-- The value of a scalar operand that follows from the program alone (R500). -/
def Walk.operand (w : Walk) (code : Nat) : Option (BitVec 64) :=
  if code < 32 then w.scalar code
  else if 45 ≤ code ∧ code ≤ 48 then (w.rep[code - 45]?).map fun f => BitVec.ofNat 64 f.idx
  else if code = 51 then some 0
  else none

/-- Is the lane mask of a word all ones by construction (R95)? -/
def Walk.fullMask (w : Walk) (i : Issue) : Bool := i.psel == 0#3 && !i.sense && w.rep.all fun f => f.lp == 0#3

/-- The M slot's base register, offset, unit and length in bytes. -/
def memSpan (c : Instr) : Option (Nat × BitVec 10 × Nat × Nat) :=
  match c with
  | .vld _ o => some (o.sb.toNat, o.off, 64, 64 * (o.cntM1.toNat + 1))
  | .vst _ o => some (o.sb.toNat, o.off, 64, 64 * (o.cntM1.toNat + 1))
  | .sld _ o => some (o.sb.toNat, o.off, 8, 8)
  | .sst _ o => some (o.sb.toNat, o.off, 8, 8)
  | .lsave _ o => some (o.sb.toNat, o.off, 64, 1024)
  | .lrest _ o => some (o.sb.toNat, o.off, 64, 1024)
  | .sout _ _ sb off _ => some (sb.toNat, off, 64, 64)
  | .sin _ _ sb off _ => some (sb.toNat, off, 64, 64)
  | _ => none

/-- The regions that an M-slot address may lie in (R500): none where the address is known to be in no region. -/
def Walk.regions (w : Walk) (k : Kind) (c : Instr) : List Bool :=
  match memSpan c with
  | none => []
  | some (sb, off, unit, n) =>
    match w.scalar sb with
    | none => [false, true]
    | some b =>
      let a := (b + off.signExtend 64 * BitVec.ofNat 64 unit).toNat / unit * unit
      (sramSpan k a n).toList

/-- The registers that an element operation writes: a pair on F clusters (R99). -/
def elemRegs (k : Kind) (vd : BitVec 5) : List Nat := if k = .f then [vd.toNat, vd.toNat + 1] else [vd.toNat]

/-- The results of the E slot, with the beats until they can be used (R82, R84). -/
def eResults (c : Instr) : List (Nat × Place) :=
  match c with
  | .emac _ o => (List.range (o.elast.toNat + 1)).map fun a => (1, .acc a)
  | .emacc _ o => (List.range (o.elast.toNat + 1)).map fun a => (1, .acc a)
  | .eslice _ elast _ _ _ => (List.range (elast.toNat + 1)).map fun a => (1, .acc a)
  | .eclr _ emask _ _ => ((List.range 8).filter fun a => emask.getLsbD a).map fun a => (1, .acc a)
  | .erd _ acc vd rctl =>
    let f := (rctlOf rctl).fmt
    (1, .acc acc.toNat) :: (List.range (erdRegs f)).map fun k => (if f = 0xA then 8 else 4, .v (vd.toNat + k))
  | _ => []

/-- The results of the V slot (R82, R170). -/
def vResults (k : Kind) (c : Instr) : List (Nat × Place) :=
  let regs (n : Nat) (vd : BitVec 5) : List (Nat × Place) := (elemRegs k vd).map fun r => (n, .v r)
  let one (n : Nat) (vd : BitVec 5) : List (Nat × Place) := [(n, .v vd.toNat)]
  match c with
  | .fadd _ o => regs 4 o.vd
  | .fsub _ o => regs 4 o.vd
  | .fmul _ o => regs 4 o.vd
  | .fma _ o => regs 4 o.vd
  | .fmin _ o => regs 4 o.vd
  | .fmax _ o => regs 4 o.vd
  | .fcmp _ _ _ pd _ _ => [(4, .p pd.toNat)]
  | .cvt _ vd _ _ _ => regs 3 vd
  | .sfu _ vd _ _ => regs 9 vd
  | .pwt _ vd _ _ => regs 5 vd
  | .iadd _ o => regs 1 o.vd
  | .isub _ o => regs 1 o.vd
  | .vand _ o => regs 1 o.vd
  | .vor _ o => regs 1 o.vd
  | .vxor _ o => regs 1 o.vd
  | .shl _ vd _ _ => regs 1 vd
  | .shr _ vd _ _ => regs 1 vd
  | .mov _ vd _ => one 1 vd
  | .bcast _ vd _ _ => one 1 vd
  | .lanex _ vd _ _ => one 2 vd
  | .scale _ _ t => [(1, if t then .sb else .sa)]
  | .vfroms _ vd _ => one 1 vd
  | .xset _ o _ _ _ _ => one 1 o.vd
  | .xwalk _ vd pd => one 2 vd ++ if pd = 0#3 then [] else [(2, .p pd.toNat)]
  | .xgath _ o _ _ => one 2 o.vd
  | .x24 _ o _ => one 2 o.vd
  | .xcslu _ vd _ _ _ _ => one 2 vd
  | .hmerge _ vd _ _ => one 1 vd
  | .hstat _ vd _ => one 2 vd
  | _ => []

/-- The results of the M slot in a region, false near (R82). -/
def mResults (under : Bool) (c : Instr) : List (Nat × Place) :=
  match c with
  | .vld _ o => (List.range (o.cntM1.toNat + 1)).map fun k => (if under then 6 else 2, .v (o.reg.toNat + k))
  | .sld _ o => [(if under then 6 else 2, .s o.reg.toNat)]
  | .lrest _ o => [(if under then 8 else 4, .acc o.acc.toNat)]
  | _ => []

/-- The base register that the M slot post-increments, and by how much (R102). -/
def mIncrement (c : Instr) : Option (Nat × Nat) :=
  match c with
  | .vld _ o => if o.inc then some (o.sb.toNat, 64 * (o.cntM1.toNat + 1)) else none
  | .vst _ o => if o.inc then some (o.sb.toNat, 64 * (o.cntM1.toNat + 1)) else none
  | .lsave _ o => if o.inc then some (o.sb.toNat, 1024) else none
  | .lrest _ o => if o.inc then some (o.sb.toNat, 1024) else none
  | .sout _ _ sb _ inc => if inc then some (sb.toNat, 64) else none
  | .sin _ _ sb _ inc => if inc then some (sb.toNat, 64) else none
  | _ => none

/-- The scalar register that the Q slot writes: beats, register, value where it is known (R82, R500). -/
def Walk.qScalar (w : Walk) (c : Instr) : Option (Nat × Nat × Option (BitVec 64)) :=
  match c with
  | .salu _ fn sd sa sb =>
    let v := match w.operand sa.toNat, w.operand sb.toNat with
      | some a, some b => some (saluResult fn.toNat a b)
      | _, _ => none
    some (if fn = 8#4 then 3 else 1, sd.toNat, v)
  | .salui _ fn sd sa imm =>
    some (if fn = 8#4 then 3 else 1, sd.toNat, (w.operand sa.toNat).map fun a => saluResult fn.toNat a (imm.signExtend 64))
  | .sli _ sd hw imm =>
    let v := imm.setWidth 64
    let sh := 16 * hw.toNat
    some (1, sd.toNat, if hw = 0#2 then some v
      else (w.scalar sd.toNat).map fun a => (a &&& ~~~(0xFFFF#64 <<< sh)) ||| (v <<< sh))
  | .ptos _ sd _ => some (1, sd.toNat, none)
  | .cread _ _ sd => some (1, sd.toNat, none)
  | _ => none

/-- The predicate that the Q slot writes. -/
def qPred (c : Instr) : List (Nat × Place) :=
  match c with
  | .pcmp _ pd _ _ _ => [(1, .p pd.toNat)]
  | .plog _ pd _ _ _ => [(1, .p pd.toNat)]
  | .pfroms _ pd _ => [(1, .p pd.toNat)]
  | _ => []

/-- Two different results of a beat or an earlier one in the same place and beat (R84). -/
def landsOk (old : List (Nat × Place)) : List (Nat × Place) → Bool
  | [] => true
  | x :: xs => !old.contains x && landsOk (x :: old) xs

/-- Do operand formats suit a Ledger's mode (R95)? -/
def modeSuits (o : EmacOps) (m : Option Nat) : Bool :=
  match m with
  | none => true
  | some m => if o.fmtA == 7#4 && o.fmtB == 7#4 then m == 1 || m == 2 else m == 0

/-- The E slot in this beat (R68, R95, R96). -/
def Walk.eOk (w : Walk) (c : Instr) : Bool :=
  let idle := match c with
    | .enop _ => true
    | _ => false
  (!w.enop || idle) &&
    (match c with
    | .emac _ o => (List.range (o.elast.toNat + 1)).all fun a => modeSuits o (w.mode a)
    | .emacc _ o => (List.range (o.elast.toNat + 1)).all fun a => modeSuits o (w.mode a)
    | .eslice _ _ _ _ _ => w.n % 256 != 255
    | .erd _ _ _ rctl => (rctlOf rctl).fmt != 0xA || w.n % 256 == 255
    | _ => true)

/-- Is a table free (R170)? -/
def Walk.free (w : Walk) (t : Bool) : Bool := decide ((if t then w.busy1 else w.busy0) ≤ w.n)

/-- The conversion entry of an HMERGE (R181): FP32, BF16, FP16, INT32 or an 8-bit format, without a block scale or
stochastic rounding. -/
def mergeEntryOk (e : Nat) : Bool :=
  let f := e % 16
  (f == 9 || f == 7 || f == 8 || f == 0xB || f == 3 || f == 4 || f == 5) && !bitAt e 8 && bitsOf e 4 3 != 4

/-- The V slot in this beat (R101, R111, R170, R181); the M slot reads near SRAM, or an earlier LREST does. -/
def Walk.vOk (w : Walk) (cvt : List Nat) (readsNear : Bool) (c : Instr) : Bool :=
  match c with
  | .sfu _ _ _ _ => match w.sfu with
    | some k => decide (k + 3 < w.n)
    | none => true
  | .pwt _ _ _ _ => !readsNear && decide (w.near ≤ w.n)
  | .hclr _ _ t => w.free t
  | .hacc _ _ t _ => w.free t
  | .hstat _ _ t => w.free t
  | .hmerge _ _ vb t => w.free t && (match w.operand vb.toNat with
    | some v => mergeEntryOk (cvt.getD (bitsOf v.toNat 8 4) 0)
    | none => true)
  | _ => true

/-- Does an operation of the M slot read SRAM? -/
def readsSram (c : Instr) : Bool :=
  match c with
  | .vld _ _ => true
  | .sld _ _ => true
  | .lrest _ _ => true
  | .sout _ _ _ _ _ => true
  | _ => false

/-- The M slot in this beat (R111). -/
def Walk.mOk (w : Walk) (regions : List Bool) (c : Instr) : Bool :=
  match c with
  | .mnop _ => true
  | .vld _ o => decide (w.port ≤ w.n) && (decide (o.cntM1.toNat < 2) || regions != [true])
  | .vst _ o => decide (w.port ≤ w.n) && (decide (o.cntM1.toNat < 2) || regions != [true])
  | _ => decide (w.port ≤ w.n)

/-- Ledger modes, busy units and held ports after an instruction. -/
def Walk.occupy (w : Walk) (full : Bool) (regions : List Bool) (o : WordSlots) : Walk :=
  let w := match o.e with
    | .eclr _ emask mode _ => ((List.range 8).filter fun a => emask.getLsbD a).foldl
        (fun (w : Walk) a => w.setMode a (if full then some mode.toNat else none)) { w with enop := false }
    | .emac _ e => { w with enop := e.fmtA == 7#4 || e.fmtA == 8#4 }
    | .emacc _ e => { w with enop := e.fmtA == 7#4 || e.fmtA == 8#4 }
    | _ => { w with enop := false }
  let w := match o.v with
    | .sfu _ _ _ _ => { w with sfu := some w.n }
    | .hacc _ _ t _ => if t then { w with busy1 := w.n + 4 } else { w with busy0 := w.n + 4 }
    | _ => w
  let beats := if regions.contains true then 8 else if regions.contains false then 4 else 1
  match o.m with
  | .lsave _ _ => { w with port := w.n + beats }
  | .lrest _ m =>
    { w with
      unknownAt := w.unknownAt ++ regions.map fun u => (w.n + (if u then 8 else 4), m.acc.toNat)
      port := w.n + beats
      near := if regions.contains false then w.n + 4 else w.near }
  | _ => w

/-- The next word (R107). -/
def Walk.next (w : Walk) (q : Instr) : Walk :=
  match q with
  | .rep _ count lenM1 lp =>
    { w with
      rep := { first := w.pc + 1, last := w.pc + lenM1.toNat + 1, count := count.toNat, idx := 0, lp := lp } :: w.rep
      pc := w.pc + 1, n := w.n + 1 }
  | _ =>
    let (rep, pc) := advancePc w.pc w.rep
    { w with rep := rep, pc := pc, n := w.n + 1 }

/-- A wait drains what earlier instructions still have in the pipeline (R85): it lands in the held beats, so before the
beat in which a result of the wait's own word lands (R84, R190). A wait that may not execute leaves the scalar results and
the Ledger modes in flight unknown. -/
def Walk.drain (w : Walk) (full : Bool) (i : Issue) (q : Instr) : Walk :=
  let waits := match q with
    | .cwait _ _ _ _ _ _ _ => true
    | .ctoll _ hold => hold
    | _ => false
  if !waits then w
  else if !i.qp || full then { (w.settle (w.n + 8)) with lands := w.lands.filter fun p => decide (p.1 ≤ w.n + 1) }
  else
    let w := w.writes.foldl (fun (w : Walk) x => w.setScalar x.2.1 none) w
    w.unknownAt.foldl (fun (w : Walk) x => w.setMode x.2 none) w

/-- One executed beat; none where the program breaks a rule. DESIGN CHOICE (log entry 156): a Q-slot scalar write with qp
= 1 under a mask that is not all ones by construction leaves the register unknown (R500), and a slot whose mask is all
zeros by construction counts as landing its results (R84). -/
def Walk.step (w : Walk) (g : Nat) (cvt : List Nat) (x : BitVec 128) : Option (Walk × Bool) :=
  match decodeWord (BitVec.ofNat 16 g) x with
  | none => none
  | some o =>
    let k := kindOf g
    let i : Issue := { cluster := BitVec.ofNat 16 g, psel := slotField x 0 3, sense := x.getLsbD 3, qp := x.getLsbD 4 }
    let w := w.settle w.n
    let full := w.fullMask i
    let regions := w.regions k o.m
    let qs := w.qScalar o.q
    let inc := mIncrement o.m
    let results := eResults o.e ++ vResults k o.v ++ regions.flatMap (fun r => mResults r o.m) ++
      (inc.map fun p => ((1, .s p.1) : Nat × Place)).toList ++ (qs.map fun p => ((p.1, .s p.2.1) : Nat × Place)).toList ++ qPred o.q
    let due := results.map fun p => (w.n + p.1, p.2)
    let before := ({ w with lands := w.lands.filter fun p => decide (w.n < p.1) } : Walk).drain full i o.q
    if w.eOk o.e && w.vOk cvt (readsSram o.m && regions.contains false) o.v && w.mOk regions o.m && landsOk before.lands due then
      let writes :=
        (regions.flatMap fun r => (mResults r o.m).filterMap fun p => match p with
          | (b, .s r) => some (w.n + b, r, (none : Option (BitVec 64)))
          | _ => none) ++
        (inc.map fun p => (w.n + 1, p.1, (w.scalar p.1).map fun v => v + BitVec.ofNat 64 p.2)).toList ++
        (qs.map fun p => (w.n + p.1, p.2.1, if i.qp && !full then none else p.2.2)).toList
      let w := before.occupy full regions o
      let w := { w with lands := due ++ w.lands, writes := w.writes ++ writes }
      let ends := match o.q with
        | .endProg _ => true
        | _ => false
      some (w.next o.q, ends)
    else none

/-- The program as executed, up to END. -/
def walkOk (g : Nat) (cvt : List Nat) (words : List (BitVec 128)) : Nat → Walk → Bool
  | 0, _ => false
  | fuel + 1, w =>
    match words[w.pc]? with
    | none => false
    | some x => match w.step g cvt x with
      | none => false
      | some (_, true) => true
      | some (w, false) => walkOk g cvt words fuel w

/-- The most beats that a program of some words can execute (R107, R108). -/
def mostBeats (words : Nat) : Nat := words * 4096 ^ 4

/-- The instruction-level rules of one program (R290 order 7). -/
def programOk (g : Nat) (seed : Nat) (cvt : List Nat) (words : List (BitVec 128)) : Bool :=
  let last := match words.getLast? with
    | some x => match decodeWord (BitVec.ofNat 16 g) x with
      | some o => (match o.q with
        | .endProg _ => true
        | _ => false)
      | none => false
    | none => false
  seed != 0 && cvtOk g cvt && last && wordsOk g cvt words.length 0 [] words &&
    walkOk g cvt words (mostBeats words.length) {}

/-- Does a program use slice mode or format code 0xA (R66)? The E slot and the conversion entries are judged by their
fields, whatever else a word holds. -/
def programSlice (g : Nat) (cvt : List Nat) (words : List (BitVec 128)) : Bool :=
  cvt.any (fun e => e % 16 == 0xA) || words.any fun x =>
    let i : Issue := { cluster := BitVec.ofNat 16 g, psel := 0, sense := false, qp := false }
    let part (c : Option Instr) : Bool := match c with
      | some c => usesSlice c
      | none => false
    part (decodeE i (slotField x 8 32)) || part (decodeV i (slotField x 40 32))

end Sys2Proof.Machine
end

