-- ==== Sys2Proof/Machine/Routes.lean ====
section
/-! DEFINITION. What admission checks in route schedules: links, exchange units, queues, transit, distances, remote
waits and the origins of signals (04 R124-R152, 05 R180, 06 R187, R193, R197). -/

namespace Sys2Proof.Machine

/-! ### The placed fabric of an image -/

/-- The route schedules of an image on its rectangle: route words by relative cluster, exchange units with their words
by unit key of the relative die. -/
structure Fab where
  row0 : Nat
  col0 : Nat
  height : Nat
  width : Nat
  len : Nat
  words : AMap (List (BitVec 128))
  units : List (UnitRec × List (BitVec 128))
  deriving DecidableEq, Repr

def Fab.dies (f : Fab) : Nat := f.height * f.width
/-- The die site of a relative die (R149). -/
def Fab.site (f : Fab) (rel : Nat) : Nat := (f.row0 + rel / f.width) * 8 + f.col0 + rel % f.width
def Fab.gid (f : Fab) (rel : Nat) : Nat := f.site (rel / 1024) * 1024 + rel % 1024

/-- The relative die on a side of a relative die, in the rectangle. -/
def Fab.dieBeside (f : Fab) (rel d : Nat) : Option Nat :=
  let r := rel / f.width
  let c := rel % f.width
  match d with
  | 0 => if r = 0 then none else some (rel - f.width)
  | 1 => if c + 1 < f.width then some (rel + 1) else none
  | 2 => if r + 1 < f.height then some (rel + f.width) else none
  | _ => if c = 0 then none else some (rel - 1)

/-- Is a die's edge outward (R28)? -/
def outward (site d : Nat) : Bool := (dieNeighbour site d).isNone

/-- What lies on a side of a cluster: a cluster and the beats to it (R121, R139), or an exchange unit. -/
inductive Beside where
  | cluster (rel delay : Nat)
  | unit (die edge unit : Nat)
  deriving DecidableEq, Repr

def Fab.beside (f : Fab) (rel d : Nat) : Beside :=
  match innerNeighbour (rel % 1024) d with
  | some g => .cluster (rel / 1024 * 1024 + g) 1
  | none =>
    let u := unitOf rel d
    match f.dieBeside (rel / 1024) d with
    | some e => .cluster (edgeCluster e (opposite d) u) 13
    | none => .unit (rel / 1024) d u

/-- The route word that a cluster applies at an index. -/
def Fab.word (f : Fab) (rel i : Nat) : BitVec 128 := (AMap.get [] f.words rel).getD (i % max f.len 1) 0#128

/-- The record and the word of an exchange unit at an index. -/
def Fab.unitAt (f : Fab) (die edge unit : Nat) : Option (UnitRec × List (BitVec 128)) :=
  f.units.find? fun p => p.1.die == die && p.1.edge == edge && p.1.unit == unit

/-- An index some beats earlier. -/
def Fab.before (f : Fab) (i beats : Nat) : Nat := (i + 13 * f.len - beats) % max f.len 1

/-- The field of one network in an exchange unit's word: out slot, out enable, in slot, in enable (R135). -/
def unitField (w : BitVec 128) (net lo n : Nat) : Nat := bitsOf w.toNat (14 * net + lo) n

/-- Does an exchange unit drive its cluster, or receive from it, at an index? -/
def unitDrives (ws : List (BitVec 128)) (net i len : Nat) : Bool := unitField (ws.getD (i % max len 1) 0#128) net 6 1 == 1
def unitTakes (ws : List (BitVec 128)) (net i len : Nat) : Bool := unitField (ws.getD (i % max len 1) 0#128) net 13 1 == 1

def Fab.drives (f : Fab) (rel net d i : Nat) : Bool := selectAt (f.word rel i) (netBase net + 3 * d) != 0
def Fab.uses (f : Fab) (rel net d i : Nat) : Bool := (netSelects (f.word rel i) net).contains (d + 1)

/-- Every route index of every network and direction. -/
def Fab.points (f : Fab) : List (Nat × Nat × Nat) :=
  (List.range f.len).flatMap fun i => (List.range 3).flatMap fun net => (List.range 4).map fun d => (i, net, d)

/-! ### Where an entry comes from (R151, R193) -/

/-- The origin of an entry: a cluster's injection buffer or an exchange unit, at a route index. -/
inductive Origin where
  | inject (rel idx : Nat)
  | unit (die edge unit idx : Nat)
  deriving DecidableEq, Repr

/-- The route of an entry that a router selects, traced back: its origin and the beats since (R128). -/
def Fab.trace (f : Fab) (net : Nat) : Nat → Nat → Nat → Nat → Nat → Option (Origin × Nat)
  | 0, _, _, _, _ => none
  | fuel + 1, rel, i, sel, beats =>
    if sel = 5 then some (.inject rel (i % max f.len 1), beats)
    else if 1 ≤ sel ∧ sel ≤ 4 then
      match f.beside rel (sel - 1) with
      | .cluster r delay =>
        let j := f.before i delay
        f.trace net fuel r j (selectAt (f.word r j) (netBase net + 3 * opposite (sel - 1))) (beats + delay)
      | .unit die edge u =>
        let j := f.before i 1
        match f.unitAt die edge u with
        | some (_, ws) => if unitDrives ws net j f.len then some (.unit die edge u j, beats + 1) else none
        | none => none
    else none

def Fab.origin (f : Fab) (net rel i sel : Nat) : Option (Origin × Nat) :=
  f.trace net (4 * f.len * (f.words.length + 1) + 1) rel i sel 0

/-- A delivery: cluster, queue code (16 for the coupling unit), route index, origin and beats. -/
structure Delivery where
  rel : Nat
  queue : Nat
  idx : Nat
  origin : Option (Origin × Nat)
  deriving DecidableEq, Repr

/-- Every delivery of the route schedules. -/
def Fab.deliveries (f : Fab) : List Delivery :=
  f.words.flatMap fun p => (List.range f.len).flatMap fun i =>
    let w := f.word p.1 i
    ((List.range 3).flatMap fun net => (List.range (netQueues net)).filterMap fun q =>
      let sel := selectAt w (netBase net + 12 + 3 * q)
      if sel = 0 then none else some { rel := p.1, queue := 4 * net + q, idx := i, origin := f.origin net p.1 i sel }) ++
    (if selectAt w 66 = 0 then [] else [{ rel := p.1, queue := 16, idx := i, origin := f.origin 2 p.1 i (selectAt w 66) }])

/-! ### Streams on strips (R221, R286) -/

/-- The strip whose stream engine serves a stream record: its own edge's, or that of a transit endpoint on it. -/
def Fab.stripFor (f : Fab) (die edge : Nat) : Option (Nat × Nat) :=
  if outward (f.site die) edge then some (f.site die, edge)
  else ((f.units.find? fun p => p.1.kind == 1 && p.1.die == die && p.1.edge == edge)).map fun p => stackStrip p.1.stack

/-- The strip of an exchange unit. -/
def Fab.unitStrip (f : Fab) (u : UnitRec) : Nat × Nat := if u.kind = 1 then stackStrip u.stack else (f.site u.die, u.edge)

/-- The key of a stream record's slot. -/
def Fab.streamKey (f : Fab) (d : StreamDesc) : Option Nat :=
  (f.stripFor d.die d.edge).map fun p => stripKey p.1 p.2 d.slot

/-- A declared stream by the key of its slot. -/
def Fab.streamAt (f : Fab) (streams : List StreamRec) (key : Nat) : Option StreamDesc :=
  (streams.find? fun x => f.streamKey x.desc == some key).map (·.desc)

/-- Can a declared slot serve an enable bit (R152)? -/
def slotServes (d : StreamDesc) (net : Nat) (out : Bool) : Bool :=
  if net = 2 then (if out then d.ingress || d.net == 2 else !d.ingress || d.net == 2)
  else d.net == net && d.ingress == !out

/-- The enable bits of an exchange unit's words name slots that can serve them. -/
def Fab.slotsOk (f : Fab) (streams : List StreamRec) : Bool :=
  f.units.all fun (u, ws) => ws.all fun w => (List.range 3).all fun net => [false, true].all fun out =>
    let lo := if out then 0 else 7
    let (sd, se) := f.unitStrip u
    unitField w net (lo + 6) 1 == 0 || (match f.streamAt streams (stripKey sd se (unitField w net lo 6)) with
      | some d => slotServes d net out
      | none => false)

/-! ### The checks of R152 -/

/-- Exchange-unit records (R286). -/
def Fab.unitsOk (f : Fab) : Bool :=
  (f.units.all fun (u, _) => u.res == 0 && decide (u.die < f.dies) && decide (u.edge < 4) && decide (u.unit < 32) &&
    (f.dieBeside u.die u.edge).isNone &&
    (if u.kind = 0 then outward (f.site u.die) u.edge && u.stack == 0xFF
     else u.kind == 1 && !outward (f.site u.die) u.edge && decide (u.stack < 32))) &&
  noRepeat (f.units.map fun p => unitKey p.1.die p.1.edge p.1.unit)

/-- Reserved codes and bits of route words (R125, R126, R135). -/
def Fab.wordsClean (f : Fab) : Bool :=
  (f.words.all fun p => p.2.all fun w => w >>> 69 == 0#128 && (List.range 23).all fun k => decide (selectAt w (3 * k) ≤ 5)) &&
    f.units.all fun p => p.2.all fun w => w >>> 42 == 0#128

/-- One side of one cluster in one beat: what is driven is taken, what is used is driven, and nothing is driven towards
an exchange unit that takes no part (R137, R152). -/
def Fab.sideOk (f : Fab) (rel i net d : Nat) : Bool :=
  let drv := f.drives rel net d i
  let use := f.uses rel net d i
  match f.beside rel d with
  | .cluster r delay =>
    (!drv || f.uses r net (opposite d) (i + delay)) && (!use || f.drives r net (opposite d) (f.before i delay))
  | .unit die edge u =>
    match f.unitAt die edge u with
    | some (_, ws) => (!drv || unitTakes ws net (i + 1) f.len) && (!use || unitDrives ws net (f.before i 1) f.len)
    | none => !drv && !use

/-- One exchange unit in one beat. -/
def Fab.unitSideOk (f : Fab) (u : UnitRec) (ws : List (BitVec 128)) (i net : Nat) : Bool :=
  let rel := edgeCluster u.die u.edge u.unit
  (!unitDrives ws net i f.len || f.uses rel net u.edge (i + 1)) &&
    (!unitTakes ws net i f.len || f.drives rel net u.edge (f.before i 1))

def Fab.linksOk (f : Fab) : Bool :=
  (f.words.all fun p => f.points.all fun (i, net, d) => f.sideOk p.1 i net d) &&
    f.units.all fun p => (List.range f.len).all fun i => (List.range 3).all fun net => f.unitSideOk p.1 p.2 i net

/-- What a program asks of the fabric: its cluster, the networks it injects into, the queues it names, its remote
operations (coupling, and the path of a wait), whether it runs HACC or HMERGE. -/
structure ProgFacts where
  rel : Nat
  nets : List Nat
  queues : List Nat
  signals : Bool
  waits : List (Nat × Nat)
  hash : Bool
  deriving DecidableEq, Repr

/-- The facts of a program. -/
def progFacts (rel : Nat) (words : List (BitVec 128)) : ProgFacts :=
  let os := words.filterMap fun x => decodeWord 0#16 x
  { rel := rel
    nets := (os.flatMap wordInjects).eraseDups
    queues := (os.flatMap wordQueues).eraseDups
    signals := os.any fun o => match o.q with
      | .csig _ _ rem _ _ => rem
      | _ => false
    waits := (os.filterMap fun o => match o.q with
      | .cwait _ cpl true _ _ _ path => some (cpl.toNat, path.toNat)
      | _ => none).eraseDups
    hash := os.any fun o => match o.v with
      | .hacc _ _ _ _ => true
      | .hmerge _ _ _ _ => true
      | _ => false }

/-- Every network that a program injects into is taken somewhere. -/
def Fab.takesOk (f : Fab) (ps : List ProgFacts) : Bool :=
  ps.all fun p => p.nets.all fun net =>
    (List.range f.len).any fun i => (netSelects (f.word p.rel i) net).contains 5

/-- The queue record of a cluster's queue. -/
def queueRec (qs : List QueueRec) (rel q : Nat) : Option QueueRec := qs.find? fun x => x.rel == rel && x.queue == q

/-- Every queue in use is declared (R152). -/
def queuesDeclared (ds : List Delivery) (ps : List ProgFacts) (qs : List QueueRec) : Bool :=
  (ds.all fun d => d.queue == 16 || (queueRec qs d.rel d.queue).isSome) &&
    ps.all fun p => p.queues.all fun q => (queueRec qs p.rel q).isSome

/-- Queue records (R150). -/
def queueRecsOk (clusters : Nat) (qs : List QueueRec) : Bool :=
  (qs.all fun q => decide (q.rel < clusters) && decide (q.queue ≤ 9) && (q.kind == 1 || q.kind == 2) && q.res == 0 &&
    decide (1 ≤ q.bound) && decide (q.bound ≤ queueDepth q.queue) && decide (q.prefill ≤ q.bound)) &&
    noRepeat (qs.map fun q => q.rel * 256 + q.queue)

/-- Is a queue declared timed? -/
def timedQueue (qs : List QueueRec) (rel q : Nat) : Bool :=
  match queueRec qs rel q with
  | some r => r.kind == 1
  | none => false

/-- No timed queue is fed through a transit endpoint (R144). -/
def Fab.transitElastic (f : Fab) (ds : List Delivery) (qs : List QueueRec) : Bool :=
  ds.all fun d => match d.origin with
    | some (.unit die edge u _, _) => match f.unitAt die edge u with
      | some (r, _) => r.kind != 1 || !timedQueue qs d.rel d.queue
      | none => true
    | _ => true

/-- An S cluster that runs HACC or HMERGE feeds and consumes elastic queues only (R180, R228). -/
def hashElastic (ds : List Delivery) (ps : List ProgFacts) (qs : List QueueRec) : Bool :=
  (ps.filter (·.hash)).all fun p =>
    (3 :: p.queues).all (fun q => !timedQueue qs p.rel q) &&
      ds.all fun d => match d.origin with
        | some (.inject c _, _) => c != p.rel || !timedQueue qs d.rel d.queue
        | _ => true

/-- A cluster whose spills come back through vq3, an egress spill slot on the window of its ingress one being declared,
has vq3 declared elastic and names it in no word of its program (R228). -/
def spillQueueOk (ds : List StreamDesc) (ps : List ProgFacts) (qs : List QueueRec) : Bool :=
  (ps.filter (·.hash)).all fun p =>
    let back := ds.any fun i => i.conv == 3 && i.ingress && i.cplCluster == p.rel &&
      ds.any fun e => e.conv == 3 && !e.ingress && e.window == i.window
    !back || (((queueRec qs p.rel 3).any fun r => r.kind == 2) && !p.queues.contains 3)

/-! ### Transit routes (R143) -/

/-- How many transit routes pass a crossing. -/
def routesThrough (rs : List TransitRoute) (die e : Nat) : Nat :=
  (rs.filter fun r => r.hops.contains (die, e) ||
    (match dieNeighbour die e with
    | some d => r.hops.contains (d, opposite e)
    | none => false)).length

/-- Can a crossing take one more route: trained, not down, a channel free in both directions? -/
def State.crossingFree (s : State) (rs : List TransitRoute) (die e : Nat) : Bool :=
  (dieNeighbour die e).isSome && s.edgeMode die e != 3 && s.field (Reg.FAB_XING_STATUS die e) 2 1 == 1 &&
    decide (routesThrough rs die e < 2)

/-- The shortest free chain to a die, the first in the order north, east, south, west: chains by the die they reach. -/
def State.transitSearch (s : State) (rs : List TransitRoute) (target : Nat) :
    Nat → List (Nat × List (Nat × Nat)) → List Nat → Option (List (Nat × Nat))
  | 0, _, _ => none
  | fuel + 1, front, seen =>
    match front.find? fun p => p.1 == target with
    | some p => some p.2
    | none =>
      let (next, seen) := front.foldl (fun (acc : List (Nat × List (Nat × Nat)) × List Nat) p =>
        (List.range 4).foldl (fun (acc : List (Nat × List (Nat × Nat)) × List Nat) e =>
          match dieNeighbour p.1 e with
          | some d =>
            if s.crossingFree rs p.1 e && !acc.2.contains d then (acc.1 ++ [(d, p.2 ++ [(p.1, e)])], acc.2 ++ [d]) else acc
          | none => acc) acc) ([], seen)
      if next.isEmpty then none else s.transitSearch rs target fuel next seen

/-- The latency of a chain: 12 beats a crossing, 8 for each die it passes through (R143). -/
def chainLatency (hops : Nat) : Nat := 12 * hops + 8 * (hops - 1)

/-- Transit routes for the endpoints of an image, one after another; none where one has no free chain. -/
def State.transitRoutes (s : State) (f : Fab) (slot : Nat) : Option (List TransitRoute) :=
  (f.units.filter fun p => p.1.kind == 1).foldl (fun acc p =>
    match acc with
    | none => none
    | some mine =>
      let site := f.site p.1.die
      let (sd, _) := stackStrip p.1.stack
      if s.edgeMode site p.1.edge == 3 then none
      else
        match s.transitSearch (s.transit ++ mine) sd 65 [(site, [])] [site] with
        | some hops =>
          some (mine ++ [{ job := BitVec.ofNat 6 slot, unit := unitKey site p.1.edge p.1.unit, stack := p.1.stack,
                           hops := hops, latency := chainLatency hops.length }])
        | none => none) (some [])

/-! ### Distances (R151, R152) -/

/-- The largest stream distance of a cluster. -/
def Fab.streamDistance (f : Fab) (streams : List StreamRec) (ds : List Delivery) (rs : List TransitRoute) (rel : Nat) : Nat :=
  ((ds.filter fun d => d.rel == rel && d.queue != 16).filterMap fun d => match d.origin with
    | some (.unit die edge u idx, beats) =>
      match f.unitAt die edge u with
      | some (r, ws) =>
        let net := d.queue / 4
        let (sd, se) := f.unitStrip r
        match f.streamAt streams (stripKey sd se (unitField (ws.getD idx 0#128) net 0 6)) with
        | some x => if x.ingress then none else
            let extra := ((rs.find? fun t => t.unit == unitKey (f.site die) edge u).map (·.latency)).getD 0
            some (beats + extra)
        | none => none
      | none => none
    | _ => none).foldl max 0

def Fab.distancesOk (f : Fab) (streams : List StreamRec) (ds : List Delivery) (rs : List TransitRoute) (xs : List DistRec) : Bool :=
  (xs.all fun x => x.res == 0 && decide (x.rel < 1024 * f.dies) &&
    decide (f.streamDistance streams ds rs x.rel ≤ x.maxBeats)) && noRepeat (xs.map (·.rel))

/-! ### Couplings (R187, R197) -/

/-- Coupling records (R187). -/
def cplRecsOk (clusters : Nat) (xs : List CplRec) : Bool :=
  (xs.all fun x => decide (x.rel < clusters) && decide (x.flags < 4) &&
    (if x.obj < 64 then !bitAt x.flags 0 || x.thresh != 0
     else decide (0x80 ≤ x.obj) && decide (x.obj ≤ 0x89) && !bitAt x.flags 0 && x.count == 0 && x.thresh == 0)) &&
    noRepeat (xs.map fun x => x.rel * 256 + x.obj) &&
    (xs.map (·.rel)).eraseDups.all fun r => decide ((xs.filter fun x => x.rel == r && bitAt x.flags 1).length ≤ 16)

/-- The coupling units that a cluster's takes of its control buffer reach. -/
def targetsOf (ds : List Delivery) (rel : Nat) : List Nat :=
  ((ds.filter fun d => d.queue == 16).filterMap fun d => match d.origin with
    | some (.inject c _, _) => if c = rel then some d.rel else none
    | _ => none).eraseDups

/-- At every index a take reaches at most one coupling unit, and then no control queue (R197). -/
def takesSingle (ds : List Delivery) : Bool :=
  ds.all fun d => d.queue != 16 || (match d.origin with
    | some (.inject c i, _) => ds.all fun e => match e.origin with
      | some (.inject c' i', _) =>
        !(c' == c && i' == i) || (if e.queue = 16 then e.rel == d.rel else !(e.queue == 8 || e.queue == 9))
      | _ => true
    | _ => true)

/-- The remote waits of the programs: waiter, owner, coupling, path; every coupling unit that the waiter's takes
reach is taken as an owner. -/
def remoteWaits (ds : List Delivery) (ps : List ProgFacts) : List (Nat × Nat × Nat × Nat) :=
  ps.flatMap fun p => p.waits.flatMap fun (cpl, path) => (targetsOf ds p.rel).map fun o => (p.rel, o, cpl, path)

/-- The checks of R197. -/
def waitsOk (ds : List Delivery) (ps : List ProgFacts) : Bool :=
  let ws := remoteWaits ds ps
  takesSingle ds &&
    (ps.all fun p => (!p.signals && p.waits.isEmpty) || !(targetsOf ds p.rel).isEmpty) &&
    (ws.all fun (_, o, _, path) => path != 0 || !(targetsOf ds o).isEmpty) &&
    (ws.all fun (w, o, _, path) => path == 0 || innerNeighbour (o % 1024) (path - 1) == some (w % 1024) && o / 1024 == w / 1024) &&
    (ws.all fun (w, o, _, path) => path != 0 || (targetsOf ds o).contains w) &&
    (ws.all fun (_, o, k, _) =>
      decide (((ws.filter fun (_, o', k', _) => o' == o && k' == k).map (·.1)).eraseDups.length ≤ 8)) &&
    ws.all fun (_, o, _, _) =>
      decide (((ws.filter fun (_, o', _, path) => o' == o && path == 0).map (·.1)).eraseDups.length ≤ 8)

/-- The origin table of a cluster (R193): the source number of what its coupling unit receives at each route index. -/
def Fab.origins (f : Fab) (rel : Nat) : List (BitVec 20) :=
  (List.range f.len).map fun i =>
    match f.origin 2 rel i (selectAt (f.word rel i) 66) with
    | some (.inject c _, _) => BitVec.ofNat 20 (f.gid c)
    | some (.unit die edge u _, _) => match f.unitAt die edge u with
      | some (r, _) => let (sd, se) := f.unitStrip r; BitVec.ofNat 20 (srcStack (stripStack sd se))
      | none => 0
    | none => 0

end Sys2Proof.Machine
end

