-- ==== Sys2Proof/Machine/Admit.lean ====
section
/-! DEFINITION. Admission: the checks of JOB_LOAD in the order of R290 (09 R277-R291, 07 R217-R221, R230, 11 R336). -/

namespace Sys2Proof.Machine

/-- The operands of a JOB_LOAD (R268), the function and whether the job will be paired (R342). -/
structure LoadCmd where
  slot : Nat
  row0 : Nat
  col0 : Nat
  height : Nat
  width : Nat
  imgAddr : Nat
  imgLen : Nat
  bindCount : Nat
  bindAddr : Nat
  fn : Nat
  paired : Bool
  deriving DecidableEq, Repr

/-- What JOB_LOAD read: the image, its placed route schedules, its deliveries and its programs' facts, the bindings. -/
structure Staged where
  bytes : List Byte
  fab : Fab
  deliveries : List Delivery
  facts : List ProgFacts
  binds : List (Nat × Nat × Nat)
  deriving DecidableEq, Repr

/-- The placed route schedules of an image. -/
def imageFab (b : List Byte) (row0 col0 : Nat) : Fab where
  row0 := row0
  col0 := col0
  height := imgHeight b
  width := imgWidth b
  len := imgSchedLen b
  words := (imgRoutes b).map fun r => (r.rel, routeWords b r.off)
  units := (imgUnits b).map fun u => (u, routeWords b u.off)

/-- The binding table: window, reserved bits, base (R288). -/
def bindEntries (t : List Byte) (n : Nat) : List (Nat × Nat × Nat) :=
  (List.range n).map fun i => (bytesNum t (16 * i) 1, bytesNum t (16 * i + 1) 7, bytesNum t (16 * i + 8) 8)

/-- The parts of an image that the later checks and the second pass use. -/
def stage (b t : List Byte) (c : LoadCmd) : Staged :=
  let f := imageFab b c.row0 c.col0
  { bytes := b, fab := f, deliveries := f.deliveries, facts := (imgProgs b).map fun p => progFacts p.rel (p.program b),
    binds := bindEntries t c.bindCount }

def LoadCmd.dies (c : LoadCmd) : List Nat := rectDies c.row0 c.col0 c.height c.width

/-! ### Orders 1 to 3: slot, rectangle, dies -/

/-- R277 and disjointness; a die that a block reset or a burn holds is reserved, and so is one whose SRAM-row repair
waits for a reset. At a restricted service level only the service dies are open (R423). -/
def State.rectOk (s : State) (c : LoadCmd) : Bool :=
  decide (c.row0 + c.height ≤ 8) && decide (c.col0 + c.width ≤ 8) &&
    c.dies.all fun d => (s.slotOfDie d).isNone && !s.bru.blockMask.getLsbD d && s.bru.burnDie != some (BitVec.ofNat 6 d) &&
      !(s.die d).rowWaits && (s.service != 2 || [0, 7, 56, 63].contains d)

/-- The dies that an image uses: those its summary names, or all where it cannot be read. -/
def LoadCmd.usedDies (c : LoadCmd) (b : List Byte) (ok : Bool) : List Nat :=
  if ok then (c.dies.zipIdx.filter fun p => bitAt (imgDieMask b) p.2).map (·.1) else c.dies

/-- Is a die's edge trained and not down (R280)? -/
def State.edgeUsable (s : State) (d e : Nat) : Bool :=
  s.field (Reg.FAB_XING_STATUS d e) 2 1 == 1 && s.edgeMode d e != 3

/-- Used dies are in service and the edges between them are trained (R280); a drained module admits nothing (R475). -/
def State.diesOk (s : State) (used : List Nat) : Bool :=
  !s.flash.drained && used.all fun d => !s.excluded d && (List.range 4).all fun e =>
    match dieNeighbour d e with
    | some d' => !used.contains d' || s.edgeUsable d e
    | none => true

/-! ### Orders 5 and 6: licence and clusters -/

/-- Licensed features (R66, R336, R338). -/
def State.licenceOk (s : State) (c : LoadCmd) (x : Staged) : Bool :=
  let b := x.bytes
  let sliceUse := (imgProgs b).any (fun p => programSlice (x.fab.gid p.rel) (p.cvtWords b) (p.program b)) ||
    (imgLinks b).any (·.elem == 0xA)
  (!sliceUse || s.field Reg.LIC_ENABLED 2 1 == 1) && (imgLinks b).all (fun r => decide (r.port < 128) && s.portEnabled r.port) &&
    (!c.paired || s.field Reg.LIC_ENABLED 1 1 == 1)

/-- R290 order 6, with R284, R285. -/
def clustersOk (c : LoadCmd) (x : Staged) : Bool :=
  let b := x.bytes
  let inside (rel : Nat) : Bool := decide (rel < 1024 * (c.height * c.width)) && bitAt (imgDieMask b) (rel / 1024)
  imgHeight b == c.height && imgWidth b == c.width && (imgProgs b).all (fun p => inside p.rel && decide (1 ≤ p.words) && decide (p.words ≤ 2048)) &&
    noRepeat ((imgProgs b).map (·.rel)) && (imgRoutes b).all (fun r => inside r.rel) && noRepeat ((imgRoutes b).map (·.rel)) &&
    (imgSrams b).all fun r => inside r.rel && r.addr % 64 == 0 && r.len % 64 == 0 &&
      (r.len == 0 || (sramSpan (kindOf (x.fab.gid r.rel)) r.addr r.len).isSome)

/-- R290 order 7. -/
def programsOk (x : Staged) : Bool :=
  (imgProgs x.bytes).all fun p => programOk (x.fab.gid p.rel) p.seed (p.cvtWords x.bytes) (p.program x.bytes)

/-! ### Order 8: the fabric (R152) -/

/-- The first refusal code of the fabric checks, or 0. -/
def State.fabricCode (s : State) (c : LoadCmd) (x : Staged) : Nat :=
  let b := x.bytes
  let f := x.fab
  let streams := imgStreams b
  let qs := imgQueues b
  if !(decide (1 ≤ f.len) && decide (f.len ≤ 256)) then 0x08
  else if !f.unitsOk then 0x08
  else if !f.wordsClean then 0x08
  else if !f.slotsOk streams then 0x08
  else if !f.linksOk then 0x08
  else if !f.takesOk x.facts then 0x08
  else if !queuesDeclared x.deliveries x.facts qs then 0x09
  else if !queueRecsOk (1024 * f.dies) qs then 0x09
  else if !f.transitElastic x.deliveries qs then 0x09
  else
    match s.transitRoutes f c.slot with
    | none => 0x0A
    | some rs =>
      if !f.distancesOk streams x.deliveries rs (imgDists b) then 0x0B
      else if !hashElastic x.deliveries x.facts qs then 0x09
      else if !spillQueueOk (streams.map (·.desc)) x.facts qs then 0x09
      else 0

/-! ### Order 10: windows and streams (R288, R230) -/

/-- The base that the binding table gives a window. -/
def Staged.base (x : Staged) (w : Nat) : Nat := ((x.binds.find? fun e => e.1 == w).map (·.2.2)).getD 0

/-- The bound window of a record. -/
def Staged.window (x : Staged) (w : WinRec) : Window where
  rights := BitVec.ofNat 8 w.rights
  near := w.interleave == 1
  die := x.fab.site w.die
  granules := w.len
  base := x.base w.window

def winRecOk (f : Fab) (w : WinRec) : Bool :=
  w.window != 0xFF && decide (w.rights < 64) && decide (w.interleave ≤ 1) &&
    (if w.interleave = 0 then w.die == 0 else decide (w.die < f.dies)) && decide (1 ≤ w.len) && decide (w.len ≤ 2 ^ 29) && w.res == 0

/-- R288. -/
def State.bindsOk (s : State) (c : LoadCmd) (x : Staged) : Bool :=
  let ws := imgWindows x.bytes
  (x.binds.all fun e => e.2.1 == 0 && e.2.2 % 4096 == 0 && decide (e.2.2 < 2 ^ 41) && ws.any (·.window == e.1)) &&
    noRepeat (x.binds.map (·.1)) && ws.all (fun w => x.binds.any (·.1 == w.window)) &&
    ws.all fun w => s.inRange c.fn (x.base w.window) (4096 * w.len)

/-- A window lies wholly in the region that its interleave names, a near one with the near stack of its die, in
service. -/
def State.windowPlaced (s : State) (w : Window) : Bool :=
  let sp := s.spreadBytes
  let gib := s.nearGib * 2 ^ 30
  let k := s.nearStack w.die
  s.mapValid && (if w.near then
      decide (k < 32) && decide (gib ≠ 0) && decide (sp + k * gib ≤ w.base) && decide (w.base + w.bytes ≤ sp + (k + 1) * gib) &&
        s.field (Reg.CHS_STACK k) 17 1 == 1 && s.stackUp k
    else decide (w.base + w.bytes ≤ sp))

/-- The rights that forbid sharing (R219): fabric write, posting, peer, spill. -/
def Window.exclusive (w : Window) : Bool := w.has 1 || w.has 3 || w.has 4 || w.has 5

def Window.overlaps (a b : Window) : Bool :=
  a.bound && b.bound && decide (a.base < b.base + b.bytes) && decide (b.base < a.base + a.bytes)

/-- R219 against every running job, one that is Stopping counted with them (log entry 85). -/
def State.sharingOk (s : State) (w : Window) : Bool :=
  (s.jobs.filter fun p => p.2.live).all fun p =>
    p.2.windows.all fun q => !w.overlaps q.2 || (!w.exclusive && !q.2.exclusive)

/-- The declared window of a number. -/
def Staged.windowOf (x : Staged) (n : Nat) : Option WinRec := (imgWindows x.bytes).find? (·.window == n)

/-- The window that a stream names has the right its direction or conversion needs (R218). -/
def Staged.streamRight (x : Staged) (d : StreamDesc) : Bool :=
  match x.windowOf d.window with
  | some w => bitAt w.rights (if d.conv = 3 then 5 else if d.ingress then 1 else 0)
  | none => false

/-- The first and last entry of every row lie inside the window: rows are in arithmetic progression, so the first and
the last row decide. A pattern without entries is left to the check of the fields. -/
def Staged.rowsInside (x : Staged) (d : StreamDesc) : Bool :=
  match x.windowOf d.window with
  | some w =>
    let inside (r : Int) : Bool :=
      let a := (d.start : Int) + r * d.stride
      decide (0 ≤ a) && decide (a + (d.rowLen : Int) * d.size ≤ (4096 * w.len : Nat))
    d.conv != 0 || d.rows == 0 || d.rowLen == 0 || (inside 0 && inside ((d.rows : Int) - 1))
  | none => false

/-- The lines of strip buffer that a slot holds (R220). -/
def StreamDesc.lines (d : StreamDesc) : Nat := (d.depth * d.size + 63) / 64

/-- The lines that an image and the jobs before it use on a strip (R220). -/
def State.stripLines (s : State) (x : Staged) (strip : Nat × Nat) : Nat :=
  ((imgStreams x.bytes).filter fun r => x.fab.stripFor r.desc.die r.desc.edge == some strip).foldl (fun n r => n + r.desc.lines) 0 +
    (s.strips.filter fun p => p.2.used && (keyDie p.1, keyEdge p.1) == strip).foldl (fun n p => n + p.2.desc.lines) 0

/-- Every descriptor field is in range (R221), and the record names a strip. -/
def descOk (f : Fab) (r : StreamRec) : Bool :=
  let d := r.desc
  let sz := d.size
  r.res == 0 && decide (d.net ≤ 2) && decide (d.slot ≤ 63) && decide (1 ≤ d.depth) && decide (d.depth ≤ 32768) &&
    (if d.ingress then d.credits == 0 && decide (1 ≤ d.batch) && decide (d.cplCluster < 1024 * f.dies)
     else decide (1 ≤ d.credits) && decide (d.credits ≤ d.depth) && d.cplCluster == 0 && d.cpl == 0 && d.batch == 0) &&
    d.start % sz == 0 && decide (1 ≤ d.rowLen) && decide (1 ≤ d.passes) && decide (1 ≤ d.rows) && d.stride % sz == 0 &&
    (d.rows != 1 || d.stride == 0) && (d.conv == 0 || (d.net == 0 && (d.conv == 3 || !d.ingress))) &&
    decide (d.die < f.dies) && (f.stripFor d.die d.edge).isSome

/-- The bounds of the queues that an egress slot feeds hold its credits and their prefill (R230). -/
def Staged.creditsFit (x : Staged) (d : StreamDesc) : Bool :=
  let key := x.fab.streamKey d
  x.deliveries.all fun v => v.queue == 16 || (match v.origin with
    | some (.unit die edge u idx, _) =>
      match x.fab.unitAt die edge u with
      | some (r, ws) =>
        let (sd, se) := x.fab.unitStrip r
        let w := ws.getD idx 0#128
        some (stripKey sd se (unitField w (v.queue / 4) 0 6)) != key || d.net != v.queue / 4 ||
          (match queueRec (imgQueues x.bytes) v.rel v.queue with
          | some q => decide (d.credits + q.prefill ≤ q.bound)
          | none => false)
      | none => true
    | _ => true)

/-- The initial count of an ingress slot's credit coupling is at most its depth (R230). -/
def Staged.countFits (x : Staged) (d : StreamDesc) : Bool :=
  (imgCpls x.bytes).all fun r => r.rel != d.cplCluster || r.obj != d.cpl || decide (r.count ≤ d.depth)

/-- The first refusal code of R288 and R230, or 0. -/
def State.windowCode (s : State) (c : LoadCmd) (x : Staged) : Nat :=
  let ws := imgWindows x.bytes
  let rs := imgStreams x.bytes
  let ds := rs.map (·.desc)
  let keys := ds.filterMap fun d => x.fab.streamKey d
  if !s.bindsOk c x then 0x0D
  else if !(ws.all (winRecOk x.fab) && noRepeat (ws.map (·.window))) then 0x0D
  else if !ws.all (fun w => s.windowPlaced (x.window w)) then 0x0D
  else if !ws.all (fun w => s.sharingOk (x.window w)) then 0x0D
  else if !ds.all x.streamRight then 0x0D
  else if !ds.all x.rowsInside then 0x0D
  else if !ds.all (fun d => match x.fab.stripFor d.die d.edge with
      | some p => decide (s.stripLines x p ≤ 32768)
      | none => true) then 0x0D
  else if !rs.all (descOk x.fab) then 0x08
  else if !(noRepeat keys && keys.all fun k => !(s.strip k).used) then 0x08
  else if !ds.all (fun d => d.ingress || x.creditsFit d) then 0x09
  else if !ds.all (fun d => !d.ingress || x.countFits d) then 0x09
  else 0

/-! ### Order 11: Lantern and posting streams (R336) -/

def LinkRec.posting (r : LinkRec) : Bool := r.kind == 1 || r.kind == 2
/-- Does this module receive the stream's lines? -/
def LinkRec.receives (r : LinkRec) : Bool := r.kind == 1 || r.kind == 4
/-- The stream's key on the link (R330). -/
def LinkRec.key (r : LinkRec) (slot : Nat) : BitVec 32 := BitVec.ofNat 32 (if r.posting then slot * 1024 + r.loc else r.remote)
def LinkRec.gated (r : LinkRec) : Bool := bitAt r.gateEdge 7

/-- Kind, mode and reserved fields (R326, R330). -/
def LinkRec.fieldsOk (r : LinkRec) : Bool :=
  decide (1 ≤ r.kind) && decide (r.kind ≤ 4) && decide (r.loc < 1024) && decide (1 ≤ r.lines) && r.res == 0 && bitsOf r.gateEdge 2 5 == 0 &&
    (if r.posting then decide (r.mode ≤ 1) && decide (r.peer < 2 ^ 12) &&
        (if r.mode = 1 then decide (r.elem ≤ 0xC) && decide (r.remote < 2 ^ 46) else r.elem == 0 && decide (r.remote < 2 ^ 56) && r.remote % 64 == 0)
     else r.mode == 0 && r.elem == 0 && decide (r.peer < 2 ^ 10) && decide (r.remote < 2 ^ 32))

/-- The port and its peer, capabilities, drain and room; `before` counts the image's earlier streams on the port. -/
def State.linkPortOk (s : State) (c : LoadCmd) (r : LinkRec) (before : List LinkRec) : Bool :=
  let info (lo w : Nat) := s.field (Reg.PST_PORT_INFO r.port) lo w
  let live := s.streams.filter fun p => p.2.port == r.port && (p.2.st.isOpen || p.2.st == .waitOpen || p.2.st == .none)
  let mine := before.filter fun q => q.port == r.port
  (s.port r.port).st == 7#4 && !(s.pairActive && decide (120 ≤ r.port)) && (s.port r.port).helloSeen &&
    info 0 2 == (if r.posting then 2 else 1) && info 2 12 == r.peer && (r.mode != 1 || info 14 1 == 1) &&
    (!(c.paired && r.posting) || info 15 1 == 1) && s.field (Reg.PST_PORT_CTRL r.port) 0 1 == 0 &&
    decide (live.length + mine.length + 1 ≤ 1024) &&
    live.all (fun p => p.2.key != r.key c.slot) && mine.all fun q => q.key c.slot != r.key c.slot

/-- The window, its rights and the stream's extent in it. -/
def Staged.linkWindowOk (x : Staged) (r : LinkRec) : Bool :=
  match x.windowOf r.window with
  | some w =>
    bitAt w.rights (if r.posting then 3 else 4) && bitAt w.rights (if r.receives then 0 else 1) &&
      decide (4096 * r.start + (if r.ring = 0 then 64 * r.lines else 4096 * r.ring) ≤ 4096 * w.len)
  | none => false

/-- The declared stream that a gate names. -/
def Staged.gateDesc (x : Staged) (r : LinkRec) : Option StreamDesc :=
  (imgStreams x.bytes).findSome? fun q =>
    if q.desc.die = r.gateDie ∧ q.desc.edge = r.gateEdge % 4 ∧ q.desc.slot = r.gateSlot then some q.desc else none

def Staged.gateOk (x : Staged) (r : LinkRec) : Bool :=
  !r.gated || (match x.gateDesc r with
    | some d => d.ingress == !r.receives && d.window == r.window
    | none => false)

/-- Every record in order. -/
def State.linksAdmitted (s : State) (c : LoadCmd) (x : Staged) : Bool :=
  let rs := imgLinks x.bytes
  rs.zipIdx.all fun (r, i) =>
    let before := rs.take i
    r.fieldsOk && before.all (fun q => q.loc != r.loc) && s.linkPortOk c r before && x.linkWindowOk r && x.gateOk r &&
      (!c.paired || r.posting)

/-! ### Order 12: the longest sequence (R283) -/

def seqOk (x : Staged) : Bool :=
  let b := x.bytes
  let n := sumNum b 16 4
  let w := sumNum b 20 1
  decide (n ≤ 16777216) &&
    (n == 0 || match x.windowOf w with
       | some r => decide (n * sumNum b 22 2 ≤ 4096 * r.len)
       | none => false)

/-! ### The whole (R290) -/

/-- May a range be read as image or binding table? -/
def State.stagedAt (s : State) (fn a n : Nat) : Bool := s.chsPresent a n && s.inRange fn a n

/-- Orders 5 to 12. -/
def State.imageCode (s : State) (c : LoadCmd) (x : Staged) : Nat :=
  if !s.licenceOk c x then 0x05
  else if !clustersOk c x then 0x06
  else if !programsOk x then 0x07
  else
    let fc := s.fabricCode c x
    if fc ≠ 0 then fc
    else if !cplRecsOk (1024 * x.fab.dies) (imgCpls x.bytes) then 0x0C
    else if !waitsOk x.deliveries x.facts then 0x0C
    else
      let wc := s.windowCode c x
      if wc ≠ 0 then wc
      else if !s.linksAdmitted c x then 0x0E
      else if !seqOk x then 0x0F
      else 0

/-- The first pass of JOB_LOAD: the code that refuses it, or 0, what was read, and the state after reading (R238: a
read may correct a line). An image or a binding table with a poisoned line is a bad image. -/
def State.loadCheck (s : State) (c : LoadCmd) : Nat × Staged × State :=
  let none := stage [] [] c
  if (s.job c.slot).held then (0x01, none, s)
  else if !s.rectOk c then (0x02, none, s)
  else
    let present := s.stagedAt c.fn c.imgAddr c.imgLen && s.stagedAt c.fn c.bindAddr (16 * c.bindCount)
    if present then
      let (b, badB, s) := s.chsRead c.imgAddr c.imgLen 0
      let (t, badT, s) := s.chsRead c.bindAddr (16 * c.bindCount) 0
      let ok := badB.isEmpty && badT.isEmpty && formatOk b
      if !s.diesOk (c.usedDies b ok) then (0x03, none, s)
      else if !ok then (0x04, none, s)
      else
        let x := stage b t c
        (s.imageCode c x, x, s)
    else if !s.diesOk c.dies then (0x03, none, s)
    else (0x04, none, s)

end Sys2Proof.Machine
end

