-- ==== Sys2Proof/Machine/Jobs.lean ====
section
/-! DEFINITION. The job commands and the life of a job (09 R273-R297, 11 R332, 13 R375, R378, 18 R468). -/

namespace Sys2Proof.Machine

/-! ### Loading (R289) -/

/-- Is a job loaded from this ring now a paired one (R342)? A survivor in the mirrored phase pairs what comes on paired
rings. -/
def State.loadsPaired (s : State) (rn : Nat) : Bool := s.pairState == 2 || (s.pairState == 7 && s.pairedRing rn)

/-- Does this module take over as a replacement, copying memory from the survivor (R350)? -/
def State.replacing (s : State) : Bool := (s.pairState == 5 || s.pairState == 6) && !s.pairLeads

def loadCmd (s : State) (rn fn : Nat) (d : Desc) : LoadCmd where
  slot := d.num 16 1
  row0 := d.num 17 1
  col0 := d.num 18 1
  height := d.num 19 1
  width := d.num 20 1
  imgAddr := d.num 24 8
  imgLen := d.num 32 4
  bindCount := d.num 36 2
  bindAddr := d.num 40 8
  fn := fn
  paired := s.loadsPaired rn

/-- The transport stream of a record; it opens when the load completes. -/
def Staged.tstream (x : Staged) (c : LoadCmd) (r : LinkRec) : TStream where
  st := .none
  kind := r.kind
  job := BitVec.ofNat 6 c.slot
  port := r.port
  key := r.key c.slot
  loc := r.loc
  window := r.window
  mode := r.mode
  elem := r.elem
  peer := BitVec.ofNat 12 r.peer
  remote := BitVec.ofNat 64 r.remote
  start := r.start
  lines := r.lines
  gate := if r.gated then (x.gateDesc r).bind x.fab.streamKey else none
  ring := r.ring
  paired := c.paired

/-- The rectangle and everything the job shares with others are reserved at acceptance (R289). -/
def State.reserve (s : State) (c : LoadCmd) (x : Staged) (ref : DescRef) : State :=
  let b := x.bytes
  let j : Job :=
    { (s.job c.slot).bare with
      st := .loading, row0 := c.row0, col0 := c.col0, height := c.height, width := c.width
      schedLen := imgSchedLen b, imgAddr := c.imgAddr, imgLen := c.imgLen
      crc := imgCrc b, loadRef := some ref, paired := c.paired
      windows := (imgWindows b).foldl (fun m w => AMap.set {} m w.window (x.window w)) [] }
  let routes := (s.transitRoutes x.fab c.slot).getD []
  let t := { s.setJob c.slot j with transit := s.transit ++ routes }
  let t := (imgStreams b).foldl (fun t r => match x.fab.streamKey r.desc with
    | some key => t.setStrip key { used := true, job := BitVec.ofNat 6 c.slot, desc := r.desc, stopped := true }
    | none => t) t
  let t := (imgLinks b).foldl (fun t r => t.setStream (1024 * c.slot + r.loc) (x.tstream c r)) t
  t.trackIdle s

/-- The tests of JOB_LOAD's fields (R268). -/
def loadTests (d : Desc) : List (Nat × Bool) :=
  [(16, decide (d.num 16 1 > 63)), (17, decide (d.num 17 1 > 7)), (18, decide (d.num 18 1 > 7)),
   (19, d.num 19 1 == 0 || decide (d.num 19 1 > 8)), (20, d.num 20 1 == 0 || decide (d.num 20 1 > 8)),
   (24, decide (d.num 24 8 ≥ 2 ^ 41)), (40, decide (d.num 40 8 ≥ 2 ^ 41))]

/-- JOB_LOAD (R289-R291, R423): permission before anything else, then the descriptor's fields, then the first pass. -/
def State.jobLoad (s : State) (rn : Nat) : State :=
  s.runDescAfter rn 0x10
    (fun s r d => if s.service < 2 ∨ !s.mayUse r.fn.toNat (d.num 16 1) then some (0x09, 0, 0) else none)
    (fun _ _ d => loadTests d) fun s ref r d =>
    let c := loadCmd s rn r.fn.toNat d
    if s.replacing then s.complete ref 0x01 0 0x11
    else
      let (code, x, s) := s.loadCheck c
      if code = 0 then s.reserve c x ref else s.complete ref 0x01 0 code

/-- The program of a cluster of the rectangle without a program record: one END word (R284, R106). -/
def endWord : BitVec 128 := 0x10#128 <<< 100

/-- A lane at the start of a job (R80, R173). -/
def Lane.atStart : Lane where
  sa := 0x7F7F7F7F7F7F7F7F
  sb := 0x7F7F7F7F7F7F7F7F7F7F7F7F7F7F7F7F7F7F7F7F7F7F7F7F7F7F7F7F7F7F7F7F
  t0 := HashTable.cleared 0
  t1 := HashTable.cleared 0

/-- SRAM records write lanes of a cluster (R285), which stand as at the start of a job (R80). -/
def Staged.sram (x : Staged) (rel : Nat) : AMap Lane :=
  ((imgSrams x.bytes).filter fun r => r.rel == rel).foldl (fun m r =>
    (List.range 16).foldl (fun (m : AMap Lane) l =>
      if bitAt r.lanes l then
        let y : Lane := AMap.get {} m l
        AMap.set {} m l { y with sram := writeBytes y.sram r.addr ((x.bytes.drop r.off).take r.len) }
      else m) m) ((List.range 16).map fun l => (l, Lane.atStart))

/-- The queues of a cluster with their prefill (R150). -/
def Staged.queues (x : Staged) (rel : Nat) : AMap Queue :=
  ((imgQueues x.bytes).filter fun q => q.rel == rel).foldl (fun m q =>
    let es : List Entry := (q.prefills x.bytes).map fun v => { data := v, poison := false }
    AMap.set {} m q.queue { entries := es, arrivals := BitVec.ofNat 32 es.length, consumed := 0 }) []

/-- The couplings at the start of a job, with what records give them (R187). -/
def Staged.couplings (x : Staged) (rel : Nat) : AMap Coupling :=
  ((imgCpls x.bytes).filter fun r => r.rel == rel && bitAt r.flags 0 && decide (r.obj < 64)).foldl (fun m r =>
    AMap.set {} m r.obj { count := BitVec.ofNat 32 r.count, thresh := BitVec.ofNat 32 r.thresh })
    ((List.range 64).map fun k => (k, { thresh := 1 }))

/-- What a cluster keeps through loads and unloads: its cores' places, their tests, its count of corrected errors. -/
def Cluster.bare (c : Cluster) : Cluster := { coreMap := c.coreMap, whl := c.whl, corrected := c.corrected }

/-- A cluster as the second pass leaves it. -/
def Staged.cluster (x : Staged) (old : Cluster) (rel : Nat) : Cluster :=
  let b := x.bytes
  let p := (imgProgs b).find? fun p => p.rel == rel
  { old.bare with
    prog := (p.map fun p => p.program b).getD [endWord]
    cvt := (p.map fun p => (p.cvtWords b).map (BitVec.ofNat 20)).getD []
    sr := BitVec.ofNat 32 ((p.map (·.seed)).getD 0)
    lanes := x.sram rel
    queues := x.queues rel
    couplings := x.couplings rel
    routes := AMap.get [] x.fab.words rel
    origins := x.fab.origins rel
    markObjs := ((imgCpls b).filter fun r => r.rel == rel && bitAt r.flags 1).map fun r => (r.obj, BitVec.ofNat 32 r.mark) }

/-- The edges of a placed job (R279): relay inside, fenced towards the rest; attach and down edges stay. -/
def State.placeEdges (s : State) (j : Job) : State :=
  j.dies.foldl (fun s d => (List.range 4).foldl (fun s e =>
    match dieNeighbour d e with
    | some d' => if s.edgeMode d e = 3 then s else s.setField (Reg.FAB_XING_STATUS d e) 0 2 (if j.covers d' then 1 else 2)
    | none => s) s) s

/-- The edges of an unloaded job: relay becomes fenced (R279). -/
def State.fenceEdges (s : State) (j : Job) : State :=
  j.dies.foldl (fun s d => (List.range 4).foldl (fun s e =>
    if s.edgeMode d e = 1 then s.setField (Reg.FAB_XING_STATUS d e) 0 2 2 else s) s) s

/-- The second pass writes clusters, exchange units and edges. A die that the image does not use stays idle (R280). -/
def State.placeImage (s : State) (slot : Nat) (x : Staged) : State :=
  let j := s.job slot
  let rels := (List.range (1024 * x.fab.dies)).filter fun r => bitAt (imgDieMask x.bytes) (r / 1024)
  let s := rels.foldl (fun s r => s.modCluster (x.fab.gid r) fun c => x.cluster c r) s
  let s := x.fab.units.foldl (fun s (u, ws) => s.setXunit (unitKey (x.fab.site u.die) u.edge u.unit)
    { used := true, transit := u.kind == 1, stack := u.stack, words := ws }) s
  let s := (s.stripsOf slot).foldl (fun s k =>
    let y := s.strip k
    (s.setStrip k { y with stopped := false, credit := y.desc.credits }).setReg
      (Reg.STR_UNDERRUN_0 (keyDie k) (keySlot k) + 0x100 * keyEdge k) 0) s
  { s.placeEdges j with flights := s.flights.filter fun f => !j.covers (gidDie f.cluster) }

/-- The next generation of a slot (R274). -/
def nextGen (g : BitVec 10) : BitVec 10 := if g = 1023#10 then 1 else g + 1

/-- LOAD_COMPLETE (R274, R289): the second pass. A changed image is refused with the image-format code. -/
def State.loadComplete (s : State) (slot : Nat) : State :=
  let j := s.job slot
  if j.st ≠ .loading then s
  else
    let old := s
    let (b, bad, s) := s.chsRead j.imgAddr j.imgLen 0
    let same := bad.isEmpty && imgCrc b == bytesNum b 16 4 && imgCrc b == j.crc
    if !same then
      let s := (s.releaseSlot slot).setJob slot j.bare
      (s.trackIdle old).completeOpt j.loadRef 0x01 0 0x04
    else
      let c : LoadCmd := {
        slot := slot, row0 := j.row0, col0 := j.col0, height := j.height, width := j.width, imgAddr := j.imgAddr,
        imgLen := j.imgLen, bindCount := 0, bindAddr := 0, fn := 0, paired := j.paired }
      let g := nextGen j.gen
      let tag := BitVec.ofNat 16 (slot + 64 * g.toNat)
      let s := s.placeImage slot (stage b [] c)
      let s := s.setJob slot
        { j with st := .loaded, gen := g, tag := tag, loadRef := none, liveRef := j.loadRef, withheld := 0 }
      match j.loadRef with
      | some r => s.complete r 0x00 tag 0
      | none => s.openStreams slot

/-! ### Commands on a tag (R268, R291, R293) -/

/-- A job command: permission and service level, tag, state come before anything else (R291), then its fields, then its
effect on what the tag names. -/
def State.jobCmd (s : State) (rn op : Nat) (accept : Job → JobState → Bool) (act : State → DescRef → Nat → State) : State :=
  s.runDescAfter rn op
    (fun s r d =>
      let n := d.num 16 2
      let j := s.job (n % 64)
      let refuse (status code : Nat) : Option (Nat × BitVec 16 × Nat) := some (status, BitVec.ofNat 16 n, code)
      if s.service < 2 ∨ !s.mayUse r.fn.toNat (n % 64) then refuse 0x09 0
      else if !j.current n then refuse 0x01 0x10
      else if !accept j (j.stateOf n) then refuse 0x01 0x11
      else none)
    (fun _ _ _ => []) fun s ref _ d => act s ref (d.num 16 2)

/-- Has a JOB_START been accepted that has not reached job beat 0? -/
def Job.starting (j : Job) : Bool := j.st == .loaded && j.ceilW != 0

/-- JOB_START (R293, R374, R375, R378, R423): the ceiling joins W, k is fitted and sent, the grade is set. -/
def State.jobStart (s : State) (rn : Nat) : State :=
  s.jobCmd rn 0x11 (fun j x => x == .loaded && !j.starting) fun s ref tag =>
    let slot := tag % 64
    let slow := s.field (if slot < 32 then Reg.PWR_SLOT_GRADE_LO else Reg.PWR_SLOT_GRADE_HI) (slot % 32) 1 == 1
    let half := slow || s.thermal == 2 || s.service == 2
    (s.modJob slot fun j => { j with startRef := some ref, ceilW := 850, half := half, acceptMs := s.ms }).sendK

/-- The cores that carry a lane serve the job (R473). -/
def Cluster.start (c : Cluster) (tag : BitVec 16) : Cluster :=
  if c.prog.isEmpty then c
  else { c with parked := false, whl := { c.whl with served := c.whl.served ++ c.coreMap.map fun k => (k, tag) } }

/-- The module as it stands 100 ns after the last value of k was sent, by the standby clock (R375). -/
def State.afterSend (s : State) : State :=
  match s.power.kSent.head? with
  | some x => s.advanceUpTo (x.1 + 100)
  | none => s

/-- JOB_BEAT_ZERO (R293, R375): 100 ns after the start was accepted, and the fitted k sent, at the earliest. -/
def State.jobBeatZero (s : State) (slot : Nat) : State :=
  let j := s.job slot
  if !j.starting then s
  else
    let s := (s.advanceTo (j.acceptMs + 100)).afterSend
    let s := (s.jobClusters j).foldl (fun s g => s.modCluster g fun c => c.start j.tag) s
    s.setJob slot { j with st := .running, zeroMs := s.ms, beat := 0, winPos := 0 }

/-- JOB_STOP (R293, R294). A Loaded job stops at once: its receiving streams get CLOSE 0, and so do the sending ones,
which have nothing left to commit (R332). -/
def State.jobStop (s : State) (rn : Nat) : State :=
  s.jobCmd rn 0x12 (fun _ x => x == .loaded || x == .running) fun s ref tag =>
    let slot := tag % 64
    let j := s.job slot
    let kind := if j.stopKind = 0 then 1 else j.stopKind
    let j := { j with stopRefs := j.stopRefs ++ [ref], stopKind := kind }
    if j.st = .loaded then
      let s := (s.setJob slot j).stopStrips slot true
      ((s.closeStreams slot 0 fun _ => true).becomeStopped slot).settleDone
    else if j.stopAt.isSome then s.setJob slot j
    else s.setJob slot { j with stopAt := some j.beat, acceptMs := s.ms }

/-- STOP_BEAT (R294): the controller's beat s has ended. A fault detected in it comes first (R296). -/
def State.stopBeat (s : State) (slot : Nat) : State :=
  if (s.job slot).st = .running ∧ (s.job slot).stopAt.isSome then
    if (s.job slot).faultDue then s.faultsAtBeatEnd slot else ((s.stopNow slot).closeSent slot).settleDone
  else s

/-- JOB_KILL (R293, R295). -/
def State.jobKill (s : State) (rn : Nat) : State :=
  s.jobCmd rn 0x13 (fun _ x => x == .loaded || x == .running || x == .stopping) fun s ref tag =>
    let slot := tag % 64
    ((s.modJob slot fun j => { j with stopRefs := j.stopRefs ++ [ref] }).killJob slot 2#8).settleDone

/-- Has a job ended in one of the three ways? -/
def JobState.over (x : JobState) : Bool := x == .ended || x == .stopped || x == .faulted
def Job.over (j : Job) : Bool := j.st.over

/-- A sending stream that still delivers what it wrote before a JOB_STOP (R332)? -/
def Job.delivers (j : Job) (t : TStream) : Bool := j.stopKind == 1 && !t.receives && t.st.isOpen && t.st != .opening

/-- The unload begins: streams still open are closed with abort, but those that still deliver after a JOB_STOP go on,
and CLOSE_ACK is awaited (R297, R332). -/
def State.startUnload (s : State) (slot : Nat) : State :=
  let j := s.job slot
  (s.setJob slot { j with st := .unloading, acceptMs := s.ms }).closeStreams slot 1 fun t =>
    t.st != .closing && !(j.st == .stopped && j.delivers t)

/-- The streams that an unload waits for: those whose CLOSE_ACK is out, and those that still deliver. -/
def State.unloadWaits (s : State) (slot : Nat) : List Nat :=
  s.streamsOf slot fun t => t.st == .closing || (s.job slot).delivers t

/-- JOB_UNLOAD (R293, R297). -/
def State.jobUnload (s : State) (rn : Nat) : State :=
  s.jobCmd rn 0x14 (fun _ x => x.over) fun s ref tag =>
    let slot := tag % 64
    (s.modJob slot fun j => { j with unloadRef := some ref }).startUnload slot

/-- The state codes of R292. -/
def JobState.code (x : JobState) : Nat :=
  match x with
  | .free => 0
  | .loading => 1
  | .loaded => 2
  | .running => 3
  | .stopping => 4
  | .ended => 5
  | .stopped => 6
  | .faulted => 7
  | .unloading => 8

/-- JOB_QUERY (R292). -/
def State.jobQuery (s : State) (rn : Nat) : State :=
  s.jobCmd rn 0x15 (fun _ _ => true) fun s ref tag =>
    s.complete ref 0x00 (BitVec.ofNat 16 tag) ((s.job (tag % 64)).stateOf tag).code

/-! ### Ends (R229, R292, R332) -/

/-- Every ingress stream, and every posting-write and peer-send stream, of a job is complete (R229); a spill slot, whose
entries the hash unit counts, once all it has taken is written (R228). -/
def State.streamsComplete (s : State) (slot : Nat) : Bool :=
  (s.stripsOf slot).all (fun k =>
    let x := s.strip k
    !x.desc.ingress || x.done || (x.desc.conv == 3 && x.buf.isEmpty && x.acked == x.accepted)) &&
    (s.streamsOf slot fun t => (t.kind == 2 || t.kind == 3) && !t.complete).isEmpty

/-- JOB_ENDED (R292, R293, R332): the pending JOB_START retires with the last job beat. A fault detected in that beat comes
first (R296). -/
def State.jobEnded (s : State) (slot : Nat) : State :=
  let j := s.job slot
  if j.st = .stopping ∧ j.stopKind = 0 ∧ j.faultDue then s.faultsAtBeatEnd slot
  else if j.st = .stopping ∧ j.stopKind = 0 ∧ s.streamsComplete slot then
    let s := (s.stripsOf slot).foldl (fun s k => s.closeBlock k) (s.endIssue slot)
    let s := s.modJob slot fun j => { j with st := .ended, startRef := none }
    s.completeOpt j.startRef 0x00 j.tag ((j.beat - 1) % 2 ^ 32)
  else s

/-! ### Unloading (R297, R332, R468) -/

/-- CLOSE_ACK_TIMEOUT (R332): stream_timeout after the unload began, it goes on without the missing CLOSE_ACK. -/
def State.closeAckTimeout (s : State) (slot : Nat) : State :=
  if (s.job slot).st = .unloading ∧ s.unloadWaits slot ≠ [] then
    let s := s.advanceTo ((s.job slot).acceptMs + s.streamTimeoutNs)
    (s.unloadWaits slot).foldl (fun s k => s.setStream k { s.stream k with st := .closed }) s
  else s

/-- A suspect core after its three runs (R468): bit i of the first component says that run i failed. -/
def State.judgeSuspect (s : State) (x : Suspect) (runs : BitVec 3) (loc : BistLoc) : State :=
  let d := x.die.toNat
  if runs ≠ 0 ∨ x.count ≥ 2 then
    let row := if runs ≠ 0 ∧ loc.oneRow then some (loc.under, loc.row.toNat) else none
    let fails := ((List.range 3).filter fun i => runs.getLsbD i).length
    let place := if runs = 0 then 0 else bistPlace loc.bit.toNat loc.under loc.row.toNat
    (s.setSuspects (s.flash.suspects.erase x)).confirmSuspect d x.pcol.toNat x.y.toNat x.core.toNat row 0 fails place
  else
    let s := s.setSuspects (s.flash.suspects.map fun y => if y = x then { y with due := false } else y)
    s.logBist (s.placeOf d (coreEntry x.pcol.toNat x.y.toNat 0)) x.core.toNat 0x04 0 0 0 0

/-- The suspects due on a job's dies are tested; a test not given has passed. -/
def State.testSuspects (s : State) (j : Job) (tests : List (BitVec 3 × BistLoc)) : State :=
  let due := s.flash.suspects.filter fun x => x.due && j.covers x.die.toNat
  due.zipIdx.foldl (fun s (x, i) =>
    let (runs, loc) := tests.getD i (0, ⟨false, 0, 0, false⟩)
    s.judgeSuspect x runs loc) s

/-- Step 1 and 2 of R297. -/
def State.clearJob (s : State) (slot : Nat) : State :=
  let j := s.job slot
  let s := s.releaseSlot slot
  { s with
    clusters := (s.clusters.map fun (g, c) => if j.covers (gidDie g) then (g, c.bare) else (g, c)).filter fun p => p.2 != {}
    xunits := s.xunits.filter fun p => !j.covers (p.1 / 128)
    flights := s.flights.filter fun f => !j.covers (gidDie f.cluster) }

/-- JOB_UNLOAD_COMPLETE (R272, R297, R468): once no CLOSE_ACK, no windowed DMA and no completion of the job is
awaited, its parts are cleared, suspects tested, the edges fenced and the slot freed. An unload that an FLR asked for
begins here. -/
def State.unloadComplete (s : State) (slot : Nat) (tests : List (BitVec 3 × BistLoc)) : State :=
  let s := if (s.job slot).flrUnload ∧ (s.job slot).over then s.startUnload slot else s
  let j := s.job slot
  if j.st = .unloading ∧ s.unloadWaits slot = [] ∧ j.dmas = [] ∧ j.startRef = none then
    let old := s
    let s := (s.clearJob slot).testSuspects j tests
    let s := (s.fenceEdges j).setJob slot
      { j.bare with dead := j.dead ++ j.unloadRef.toList.map fun r => (r, j.tag) }
    let s := j.dies.foldl (fun s d => s.fixDie d) s
    (s.trackIdle old).completeOpt j.unloadRef 0x00 j.tag 0
  else s

/-- JOB_LOAD (R289). -/
def execJobLoad (ring : BitVec 16) (s : State) : Answer := .next (s.jobLoad ring.toNat)
/-- LOAD_COMPLETE (R289). -/
def execLoadComplete (slot : BitVec 6) (s : State) : Answer := .next (s.loadComplete slot.toNat)
/-- JOB_START (R293). -/
def execJobStart (ring : BitVec 16) (s : State) : Answer := .next (s.jobStart ring.toNat)
/-- JOB_BEAT_ZERO (R375). -/
def execJobBeatZero (slot : BitVec 6) (s : State) : Answer := .next (s.jobBeatZero slot.toNat)
/-- JOB_STOP (R294). -/
def execJobStop (ring : BitVec 16) (s : State) : Answer := .next (s.jobStop ring.toNat)
/-- STOP_BEAT (R294). -/
def execStopBeat (slot : BitVec 6) (s : State) : Answer := .next (s.stopBeat slot.toNat)
/-- JOB_KILL (R295). -/
def execJobKill (ring : BitVec 16) (s : State) : Answer := .next (s.jobKill ring.toNat)
/-- JOB_UNLOAD (R297). -/
def execJobUnload (ring : BitVec 16) (s : State) : Answer := .next (s.jobUnload ring.toNat)
/-- JOB_QUERY (R292). -/
def execJobQuery (ring : BitVec 16) (s : State) : Answer := .next (s.jobQuery ring.toNat)
/-- JOB_ENDED (R292). -/
def execJobEnded (slot : BitVec 6) (s : State) : Answer := .next (s.jobEnded slot.toNat)
/-- CLOSE_ACK_TIMEOUT (R332). -/
def execCloseAckTimeout (slot : BitVec 6) (s : State) : Answer := .next (s.closeAckTimeout slot.toNat)
/-- JOB_UNLOAD_COMPLETE (R297). -/
def execJobUnloadComplete (slot : BitVec 6) (tests : List (BitVec 3 × BistLoc)) (s : State) : Answer :=
  .next (s.unloadComplete slot.toNat tests)

end Sys2Proof.Machine
end

