-- ==== Sys2Proof/Machine/Registers.lean ====
section
/-! DEFINITION. A BAR0 access: size and alignment, reach, access codes, locks, shadows, and the registers whose writes
act (00 R7-R12, 08 R250-R255, 19 R478). -/

namespace Sys2Proof.Machine

/-! ### Access codes (R7) -/

/-- What a write makes of one field of a word. -/
def RegField.write (f : RegField) (old value : Nat) : Nat :=
  let now := bitsOf old f.lo f.w
  let v := bitsOf value f.lo f.w
  match f.acc with
  | .rw => setBits old f.lo f.w v
  | .w1c => setBits old f.lo f.w (now - (now &&& v))
  | .w1s => setBits old f.lo f.w (now ||| v)
  | _ => old

/-- A word after a write under the access codes of its fields. -/
def writeFields (fs : List RegField) (old value : Nat) : Nat := fs.foldl (fun w f => f.write w value) old

/-- The key by which a register is stored for a function: HIF has a copy for each, the rest is the module's (R255). -/
def viewFn (fn off : Nat) : Nat :=
  if off / 0x10000 = 0 ∧ off ≠ Reg.HIF_POLL_INTERVAL ∧ off ≠ Reg.HIF_PORT_STATUS 0 ∧ off ≠ Reg.HIF_PORT_STATUS 1 then fn else 0

/-- A write that only its access codes rule; a reserved offset ignores it (R11). -/
def State.plainWrite (s : State) (fn off : Nat) (value : BitVec 32) : State :=
  match regSpec off with
  | some r =>
    let f := viewFn fn off
    s.setFnReg f off (BitVec.ofNat 32 (writeFields r.fields (s.fnReg f off).toNat value.toNat))
  | none => s

/-! ### Locked fields (R8, R254, R351) -/

/-- A field that ignores writes at present: a write of another value logs a lock-write event. -/
def State.lockedWrite (s : State) (via : Via) (off lo w : Nat) (value : BitVec 32) : State :=
  if bitsOf value.toNat lo w = s.fnField (viewFn (viaFn via) off) off lo w then s else s.logLockWrite via off

/-- Has a bring-up step completed in this start? -/
def State.stepComplete? (s : State) (n : Nat) : Bool := decide (n < s.stepNow) || (s.stepNow == n && s.stepState == 0)

/-- Does a function run (R254)? -/
def State.running (s : State) (fn : Nat) : Bool := s.fnField fn Reg.HIF_FN_CTRL 0 1 == 1

/-- The registers of R254 beside HIF_FN_CTRL, with the bits a write sets. -/
def State.writeHeld (s : State) (via : Via) (off lo w : Nat) (value : BitVec 32) : State :=
  let fn := viaFn via
  if s.running fn then s.lockedWrite via off lo w value
  else s.setFnField fn off lo w (bitsOf value.toNat lo w)

/-- HIF_ADMIN_CFG (R254, R255): a depth outside 4 to 12 leaves the depth as it is. -/
def State.writeAdminCfg (s : State) (via : Via) (value : BitVec 32) : State :=
  let fn := viaFn via
  let r := Reg.HIF_ADMIN_CFG
  if s.running fn then s.lockedWrite via r 0 11 value
  else
    let depth := bitsOf value.toNat 0 5
    let s := if 4 ≤ depth ∧ depth ≤ 12 then s.setFnField fn r 0 5 depth else s
    s.setFnField fn r 5 6 (bitsOf value.toNat 5 6)

/-- HIF_POLL_INTERVAL (R255): the nearer bound; read-only in a virtual function's view. -/
def State.writePoll (s : State) (fn : Nat) (value : BitVec 32) : State :=
  if fn = 0 then s.setField Reg.HIF_POLL_INTERVAL 0 12 (max 1 (min 4000 (bitsOf value.toNat 0 12))) else s

/-- The paired registers of R351. -/
def State.writePairHeld (s : State) (via : Via) (off w : Nat) (value : BitVec 32) : State :=
  if s.pairActive then s.lockedWrite via off 0 w value else s.setField off 0 w (bitsOf value.toNat 0 w)

/-! ### Registers with rules of their own -/

/-- CLK_CFG (R399). -/
def State.writeClkCfg (s : State) (via : Via) (value : BitVec 32) : State :=
  let r := Reg.CLK_CFG
  let s := if s.stepComplete? 2 then s.lockedWrite via r 1 1 value else s.setField r 1 1 (bitsOf value.toNat 1 1)
  (s.setField r 0 1 (bitsOf value.toNat 0 1)).setField r 2 1 (bitsOf value.toNat 2 1)

/-- CHS_CFG (R245): one lock-write event for both locked fields. -/
def State.writeChsCfg (s : State) (via : Via) (value : BitVec 32) : State :=
  let r := Reg.CHS_CFG
  let v := value.toNat
  let s := if s.bru.minStacksLocked then
      if bitsOf v 0 7 = s.field r 0 7 ∧ bitsOf v 8 6 = s.field r 8 6 then s else s.logLockWrite via r
    else (s.setField r 0 7 (min 64 (bitsOf v 0 7))).setField r 8 6 (bitsOf v 8 6)
  s.setField r 16 1 (bitsOf v 16 1)

/-- BRU_CFG (R431). -/
def State.writeBruCfg (s : State) (via : Via) (value : BitVec 32) : State :=
  let r := Reg.BRU_CFG
  let s := if s.stepComplete? 8 then s.lockedWrite via r 8 7 value
    else s.setField r 8 7 (max 1 (min 64 (bitsOf value.toNat 8 7)))
  s.setField r 0 1 (bitsOf value.toNat 0 1)

/-- BRU_FW (R431): the preferred bank is kept in flash too. -/
def State.preferBank (s : State) (b : Bool) : State :=
  { s.setField Reg.BRU_FW 0 1 (if b then 1 else 0) with flash := { s.flash with fwActive := b } }

/-- PWR_CFG (R383): values outside a field's range store its bound. -/
def State.writePwrCfg (s : State) (value : BitVec 32) : State :=
  let slew := max 5 (min 120 (bitsOf value.toNat 0 8))
  let cap := max 60 (min 600 (bitsOf value.toNat 8 10))
  s.setReg Reg.PWR_CFG (BitVec.ofNat 32 (slew + 2 ^ 8 * cap))

/-- PST_CFG (R351): 0 stores 1. -/
def State.writePstCfg (s : State) (value : BitVec 32) : State :=
  s.setReg Reg.PST_CFG (BitVec.ofNat 32 (max 1 (bitsOf value.toNat 0 16) + 2 ^ 16 * max 1 (bitsOf value.toNat 16 16)))

/-- FUS_CMD (R451). -/
def State.writeFusCmd (s : State) (value : BitVec 32) : State :=
  let v := value.toNat
  if !value.msb then s
  else match bitsOf v 6 2 with
    | 1 => s.burn (BitVec.ofNat 6 v) (bitsOf v 8 16)
    | 2 => s.addSoft (bitsOf v 0 6) (s.reg64 Reg.FUS_REC_LO)
    | _ => s

/-- LIC_CMD (R432). -/
def State.writeLicCmd (s : State) (value : BitVec 32) : State :=
  match bitsOf value.toNat 3 2 with
  | 1 => s.licenceCommand (BitVec.ofNat 3 value.toNat) (some s.licenceBuffer)
  | 2 => s.licenceCommand (BitVec.ofNat 3 value.toNat) none
  | _ => s

/-- RST_BLOCK_CMD (R412). -/
def State.writeBlockCmd (s : State) (via : Via) (value : BitVec 32) : State :=
  if value.msb then s.blockRequest via (BitVec.ofNat 64 (s.reg64 Reg.RST_BLOCK_MASK_LO)) (bitsOf value.toNat 0 16) else s

/-- WAY_MISSED (R495): clearing valid clears the count. -/
def State.writeMissed (s : State) (value : BitVec 32) : State := if value.msb then s.setReg Reg.WAY_MISSED 0 else s

/-- FAB_XING_CLEAR_e (R157). -/
def State.writeXingClear (s : State) (d e : Nat) (value : BitVec 32) : State :=
  let s := if value.getLsbD 0 then s.clearMinmax d e else s
  if value.getLsbD 1 then s.clearCount d e else s

/-- A write in a die window. -/
def State.writeWindow (s : State) (off : Nat) (value : BitVec 32) : State :=
  let d := windowDie off
  let o := (off - 0x400000) % 0x20000
  if o = 0x8000 then s.fabViewCapture d value
  else if o = 0x850C ∨ o = 0x851C ∨ o = 0x852C ∨ o = 0x853C then s.writeXingClear d ((o - 0x8500) / 0x10) value
  else s.plainWrite 0 off value

/-- A write in the HIF block (R254, R255). -/
def State.writeHif (s : State) (via : Via) (off : Nat) (value : BitVec 32) : State :=
  if off = Reg.HIF_FN_CTRL then s.writeFnCtrl via value
  else if off = Reg.HIF_DB_BASE_LO ∨ off = Reg.HIF_ADMIN_DESC_LO ∨ off = Reg.HIF_ADMIN_CPL_LO then
    s.writeHeld via off 12 20 value
  else if off = Reg.HIF_DB_BASE_HI ∨ off = Reg.HIF_ADMIN_DESC_HI ∨ off = Reg.HIF_ADMIN_CPL_HI then
    s.writeHeld via off 0 32 value
  else if off = Reg.HIF_ADMIN_CFG then s.writeAdminCfg via value
  else if off = Reg.HIF_POLL_INTERVAL then s.writePoll (viaFn via) value
  else s.plainWrite (viaFn via) off value

/-- A write outside HIF and the die windows. -/
def State.writeBlock (s : State) (via : Via) (off : Nat) (value : BitVec 32) (env : StepEnv) : State :=
  let v := value.toNat
  if 0x81000 ≤ off ∧ off < 0x83000 ∧ off % 0x40 = 0 then s.writePortCtrl ((off - 0x81000) / 0x40) value
  else if off = Reg.RST_CTRL then s.writeRstCtrl via (bitsOf v 0 8) (bitsOf v 8 2)
  else if off = Reg.RST_BLOCK_CMD then s.writeBlockCmd via value
  else if off = Reg.CLK_CFG then s.writeClkCfg via value
  else if off = Reg.CLK_TG_PERIOD then s.writePeriod via value
  else if off = Reg.PWR_CFG then s.writePwrCfg value
  else if off = Reg.PWR_CTRL then if bitAt v 0 then s.standby else s
  else if off = Reg.BRU_STEP then s.runStep (bitsOf v 0 4) env
  else if off = Reg.BRU_CFG then s.writeBruCfg via value
  else if off = Reg.BRU_FW then s.preferBank (bitAt v 0)
  else if off = Reg.FUS_CMD then s.writeFusCmd value
  else if off = Reg.LIC_CMD then s.writeLicCmd value
  else if off = Reg.CHS_CFG then s.writeChsCfg via value
  else if off = Reg.PST_CFG then s.writePstCfg value
  else if off = Reg.PST_PAIR_CTRL then s.writePairCtrl via value
  else if off = Reg.PST_PAIR_RINGS then s.writePairHeld via off 21 value
  else if off = Reg.PST_PAIR_MIRROR_LO ∨ off = Reg.PST_PAIR_MIRROR_HI then s.writePairHeld via off 32 value
  else if off = Reg.PST_PAIR_MIRROR_LEN then s.writePairHeld via off 29 value
  else if off = Reg.MAN_CTRL then s.writeManCtrl value
  else if off = Reg.MAN_TARGET_LO ∨ off = Reg.MAN_TARGET_HI then s.writeManTarget off value
  else if off = Reg.WAY_CTRL then s.writeWayCtrl value
  else if off = Reg.WAY_MISSED then s.writeMissed value
  else if off = Reg.DBG_SEL then s.dbgCapture via value
  else s.plainWrite 0 off value

/-- An aligned write of 32 bits that reaches its register. -/
def State.reachedWrite (s : State) (via : Via) (off : Nat) (value : BitVec 32) (env : StepEnv) : State :=
  if inDieWindow off then s.writeWindow off value
  else if off / 0x10000 = 0 then s.writeHif via off value
  else s.writeBlock via off value env

/-- Does the accessing function exist (R249)? -/
def State.fnExists (s : State) (via : Via) : Bool :=
  match via with
  | .host port fn => s.fnOnPort port fn.toNat
  | _ => true

/-- Is the access a naturally aligned word (R10)? -/
def wordAccess (off size : Nat) : Bool := size == 4 && off % 4 == 0

/-- A BAR0 write (R7-R11). -/
def State.barWrite (s : State) (via : Via) (off size : Nat) (value : BitVec 32) (env : StepEnv) : State :=
  if !s.fnExists via then s
  else if !wordAccess off size then s.accessError (viaFn via)
  else s.gate via off fun s => s.reachedWrite via off value env

/-! ### Reads (R11, R12) -/

/-- The upper words of the wide values of a die window's data areas, by its offset: head entries of 64 B and 8 B (R156),
repair records (R439, R442). -/
def windowUpper (o : Nat) : Nat :=
  if 0x8100 ≤ o ∧ o < 0x8200 then if o % 64 = 0 then 15 else 0
  else if 0x8200 ≤ o ∧ o < 0x8220 ∨ 0x12800 ≤ o ∧ o < 0x12880 ∨ 0x12900 ≤ o ∧ o < 0x12A80 then
    if o % 8 = 0 then 1 else 0
  else 0

/-- The number of upper words that a read of this offset latches. -/
def upperWords (off : Nat) : Nat :=
  match regSpec off with
  | some r => if r.base = Reg.EVT_REC 0 ∧ off ≠ r.base then 0 else r.wide
  | none => if inDieWindow off then windowUpper ((off - 0x400000) % 0x20000) else 0

/-- The upper words of a wide value are latched into their shadows. -/
def State.latchUpper (s : State) (fn off : Nat) (view : Bool) : State :=
  (List.range (upperWords off)).foldl (fun t i =>
    let o := off + 4 * (i + 1)
    { t with shadow := AMap.set none t.shadow (regKey (viewFn fn o) o) (some (s.showWord fn o view)) }) s

/-- A read that reaches its register: the shadow of an upper word where one is latched, which it uses up; else what
the register shows, the upper words latched. -/
def State.reachedRead (s : State) (fn off : Nat) (view : Bool) : Word × State :=
  let k := regKey (viewFn fn off) off
  match AMap.get none s.shadow k with
  | some w => (w, { s with shadow := AMap.set none s.shadow k none })
  | none => (s.showWord fn off view, s.latchUpper fn off view)

/-- A BAR0 read (R10-R12, R251). -/
def State.barRead (s : State) (via : Via) (off size : Nat) (view : Bool) : Word × State :=
  if !wordAccess off size then (0xFFFFFFFF#32, s.accessError (viaFn via))
  else if s.grants via off then s.reachedRead (viaFn via) off view
  else (0, s.deny via off)

/-- The physical function reads latched values while MAN_CTRL.view is set (R491). -/
def State.hostView (s : State) (via : Via) : Bool :=
  match via with
  | .host _ fn => fn == 0#6 && s.field Reg.MAN_CTRL 2 1 == 1
  | _ => false

/-- A host read with its answer. -/
def State.hostRead (s : State) (via : Via) (off size : Nat) : State :=
  if !s.fnExists via then s
  else
    let (w, s) := s.barRead via off size (s.hostView via)
    s.send (.regRead w)

/-- REGISTER_WRITE (R7). -/
def execRegisterWrite (via : Via) (off : BitVec 24) (size : Nat) (value : BitVec 32) (env : StepEnv) (s : State) : Answer :=
  .next (s.traced (s.barWrite via off.toNat size value env))
/-- REGISTER_READ (R12). -/
def execRegisterRead (via : Via) (off : BitVec 24) (size : Nat) (s : State) : Answer :=
  .next (s.hostRead via off.toNat size)

end Sys2Proof.Machine
end

