-- ==== Sys2Proof/Machine/Mgmt.lean ====
section
/-! DEFINITION. The management plane: authenticated commands, collectors and telemetry, and authenticated JTAG debug
(19 R477-R488, R496-R499). -/

namespace Sys2Proof.Machine

/-! ### Authentication (R480-R482) -/

def State.mgmtKey (s : State) (k : Nat) : MgmtKey := AMap.get {} s.flash.keys k
def State.setMgmtKey (s : State) (k : Nat) (x : MgmtKey) : State :=
  { s with flash := { s.flash with keys := AMap.set {} s.flash.keys k x } }

/-- Rights by bit: observe 0, operate 1, maintain 2, debug observe 3, debug control 4. -/
def MgmtKey.holds (x : MgmtKey) (bit : Nat) : Bool := x.present && x.rights.getLsbD bit

/-- What a command's signature covers: header, body, serial number (R480). -/
def State.signedMessage (s : State) (m : MgmtHdr) (body : List Byte) : List Byte :=
  natLe m.magic.toNat 2 ++ [m.version, 3] ++ natLe m.len.toNat 2 ++ [m.key.setWidth 8, 0] ++ natLe m.nonce.toNat 8 ++ body ++
    natLe (s.reg64 Reg.LIC_SERIAL_LO) 8

/-- The body of a command: op, seven reserved bytes, the arguments (R483). -/
def cmdBody (op : Nat) (args : List Byte) : List Byte := natLe op 8 ++ args

/-- What a response to a command carries of it (R479, R480). -/
def replyTo (m : MgmtHdr) : Reply := { mctp := m.mctp, mport := m.mport, nonce := m.nonce }

/-- A response to an MCTP command that has no header of R480. -/
def mctpReply : Reply := { mctp := true, mport := false, nonce := 0 }

/-- The 16-byte header of a response over UDP (R480). -/
def Reply.header (dst : Reply) (len : Nat) : List Byte :=
  natLe 0x564D 2 ++ [1, 4] ++ natLe len 2 ++ [0, 0] ++ natLe dst.nonce.toNat 8

/-- A response leaves by the path of its command, on the port at which that arrived (R479, R483). -/
def State.respond (s : State) (dst : Reply) (status detail : Nat) (data : List Byte) : State :=
  s.send (.response dst (BitVec.ofNat 8 status) (BitVec.ofNat 32 detail) data)

/-- An MCTP transaction: the first decides which bus carries MCTP, and the controller that makes it has taken notice of
the alert (R486, log entry 162). -/
def State.mctpHeard (s : State) (bus : Option Bool) : State :=
  match s.mgmt.smbus, bus with
  | some _, _ => { s with mgmt := { s.mgmt with alert := false } }
  | none, some b => { s with mgmt := { s.mgmt with smbus := some b, alert := false } }
  | none, none =>
    let (v, s) := s.fresh
    { s with mgmt := { s.mgmt with smbus := some (v % 2 == 1), alert := false } }

/-- Do key, signature and nonce hold (R481)? -/
def State.authentic (s : State) (m : MgmtHdr) (body : List Byte) : Bool :=
  let k := s.mgmtKey m.key.toNat
  k.present && ed25519 k.key (s.signedMessage m body) m.sig && decide (k.nonce.toNat < m.nonce.toNat)

/-- Management cause 0x01 (R481, R499); path 0 UDP, 2 JTAG. -/
def State.authFailed (s : State) (key path : Nat) (nonce : Nat) : State :=
  s.logPlain srcOstler 0x18 0x01 (key % 8 + 2 ^ 3 * path) nonce 0

/-- The UDP port of the management messages (R479). -/
def mgmtUdp : BitVec 16 := 47210

/-- Is a message one to be discarded (R480, R481): bad magic, version or length? -/
def badFrame (m : MgmtHdr) (body : List Byte) : Bool :=
  m.magic != 0x564D || m.version != 1 || m.len.toNat != body.length || decide (1408 < m.len.toNat)

/-- A command (R479, R481-R483, R487): over UDP on any other port it is discarded; a bad message is counted; else authenticated by its key, whose nonce is kept before it acts, and run where the key
holds the right; over MCTP unsigned with every right. -/
def State.mgmtCmd (s : State) (m : MgmtHdr) (right : Nat) (body : List Byte) (act : State → State) : State :=
  if !s.mgmtUp then s
  else if m.mctp then act (s.mctpHeard (some m.smbus))
  else if m.udp ≠ mgmtUdp then s
  else if badFrame m body then s.bump Reg.MAN_STATUS 14 8 1
  else if !s.authentic m body then (s.authFailed m.key.toNat 0 m.nonce.toNat).respond (replyTo m) 1 0 []
  else
    let k := s.mgmtKey m.key.toNat
    let s := s.setMgmtKey m.key.toNat { k with nonce := m.nonce }
    if k.holds right then act s else s.respond (replyTo m) 2 0 []

/-- Status 0x03: malformed body. -/
def State.malformed (s : State) (dst : Reply) : State := s.respond dst 3 0 []

/-! ### Commands (R483) -/

/-- The words of READ_REG. -/
def State.readWords (s : State) (off : Nat) (view : Bool) : Nat → List Byte × State
  | 0 => ([], s)
  | n + 1 =>
    let (w, s) := s.barRead .mgmt off 4 view
    let (rest, s) := State.readWords s (off + 4) view n
    (natLe w.toNat 4 ++ rest, s)

/-- READ_REG. -/
def State.cmdReadReg (s : State) (dst : Reply) (off count : Nat) (view : Bool) : State :=
  if count = 0 ∨ 64 < count ∨ 2 ^ 24 < off + 4 * count then s.malformed dst
  else
    let (data, s) := s.readWords off view count
    s.respond dst 0 0 data

/-- WRITE_REG. -/
def State.cmdWriteReg (s : State) (dst : Reply) (off : Nat) (value : BitVec 32) (env : StepEnv) : State :=
  if 2 ^ 24 ≤ off then s.malformed dst else (s.traced (s.barWrite .mgmt off 4 value env)).respond dst 0 0 []

/-- STEP (R414): BRU_STEP has no code of its own. A number that BRU_STEP cannot hold is refused as a write that fails a
condition is. -/
def State.cmdStep (s : State) (dst : Reply) (n : Nat) (env : StepEnv) : State :=
  if 16 ≤ n then (s.setField Reg.BRU_STATUS 6 1 1).malformed dst
  else
    let ok := s.stepAccepted n
    (s.traced (s.runStep n env)).respond dst (if ok then 0 else 4) 0 []

/-- RESET (R412). -/
def State.cmdReset (s : State) (dst : Reply) (op : Nat) : State :=
  if op = 0 ∨ 3 < op then s.malformed dst else (s.traced (s.writeRstCtrl .mgmt 0xA5 op)).respond dst 0 0 []

/-- BLOCK_RESET (R407): busy, refused with its code, or started. -/
def State.cmdBlockReset (s : State) (dst : Reply) (mask : BitVec 64) (token : Nat) : State :=
  if s.field Reg.RST_BLOCK_STATUS 0 1 = 1 then s.respond dst 5 0 []
  else
    let code := s.blockRefusal mask token
    (s.blockRequest .mgmt mask token).respond dst (if code = 0 then 0 else 4) code []

/-- DRAIN_SLOT (R295): refused with code 0x11 where the slot's job cannot be killed, or is being killed (R27). -/
def State.cmdDrainSlot (s : State) (dst : Reply) (slot : Nat) : State :=
  if 64 ≤ slot then s.malformed dst
  else
    let j := s.job slot
    if (j.live ∨ j.st = .loaded) ∧ j.stopKind.toNat < 2 then (s.killJob slot 3#8).settleDone.respond dst 0 0 []
    else s.respond dst 4 0x11 []

/-- Is a bank in use by a step 7 that runs, of a start or of a block reset (R425, R483)? -/
def State.bankBusy (s : State) (b : Bool) : Bool := s.bru.bank == some b

/-- The bytes of a bank: its header and at most 16 MiB of payload (R424). -/
def bankBytes : Nat := 192 + 16777216

/-- Data is written into a bank, which is invalid until FW_COMMIT. -/
def State.bankWrite (s : State) (b : Bool) (off : Nat) (data : List Byte) : State :=
  let m := writeBytes (s.bank b) off data
  if b then { s with flash := { s.flash with bankB := m, openB := true } }
  else { s with flash := { s.flash with bankA := m, openA := true } }

/-- FW_WRITE. -/
def State.cmdFwWrite (s : State) (dst : Reply) (bank off : Nat) (data : List Byte) : State :=
  if 1 < bank ∨ 1024 < data.length ∨ bankBytes < off + data.length then s.malformed dst
  else if s.bankBusy (bank == 1) then s.respond dst 5 0 []
  else (s.bankWrite (bank == 1) off data).respond dst 0 0 []

/-- The bank is checked and closed: the position of the first failing check, or 0. -/
def State.commitBank (s : State) (b prefer : Bool) : Nat × State :=
  let r := s.bankCheck (s.bank b)
  let s : State := if b then { s with flash := { s.flash with openB := false } }
    else { s with flash := { s.flash with openA := false } }
  let s := if prefer && r == 0 then s.preferBank b else s
  (r, s.logPlain srcOstler 0x18 0x05 ((if b then 1 else 0) + 2 ^ 4 * r) (readLe (s.bank b) 8 4) 0)

/-- FW_COMMIT. -/
def State.cmdFwCommit (s : State) (dst : Reply) (bank prefer : Nat) : State :=
  if 1 < bank ∨ 1 < prefer then s.malformed dst
  else
    let (r, s) := s.commitBank (bank == 1) (prefer == 1)
    s.respond dst (if r = 0 then 0 else 4) r []

/-- LICENCE (R429). -/
def State.cmdLicence (s : State) (dst : Reply) (op slot : Nat) (record : List Byte) : State :=
  if (op ≠ 1 ∧ op ≠ 2) ∨ 8 ≤ slot ∨ (op = 1 ∧ record.length ≠ 128) then s.malformed dst
  else if s.field Reg.LIC_CMD_STATUS 0 1 = 1 then s.respond dst 5 0 []
  else
    let held := if op = 1 then some record else none
    let code := if op = 1 then s.licenceCheck held else 0
    (s.licenceCommand (BitVec.ofNat 3 slot) held).respond dst (if code = 0 then 0 else 4) code []

/-- REPAIR_ADD (R446). -/
def State.cmdRepairAdd (s : State) (dst : Reply) (d : Nat) (record : Nat) : State :=
  if s.field Reg.FUS_CMD_STATUS 0 1 = 1 then s.respond dst 5 0 []
  else
    let code := s.softRefusal d record
    (s.addSoft d record).respond dst (if code = 1 then 0 else 4) (if code = 1 then 0 else code) []

/-- Does some key slot hold maintain? -/
def State.someMaintain (s : State) : Bool := (List.range 8).any fun k => (s.mgmtKey k).holds 2

/-- A key slot as KEY_SET leaves it; an all-zero key erases. The last nonce of the slot stays. -/
def State.setKey (s : State) (slot : Nat) (rights : BitVec 8) (key : BitVec 256) : State :=
  let old := s.mgmtKey slot
  if key = 0 then s.setMgmtKey slot { nonce := old.nonce }
  else s.setMgmtKey slot { present := true, key := key, rights := rights &&& 0x1F#8, nonce := old.nonce }

/-- KEY_SET (R482): a signed one that would leave no slot with maintain is refused. -/
def State.cmdKeySet (s : State) (dst : Reply) (mctp : Bool) (slot : Nat) (rights : BitVec 8) (key : BitVec 256) : State :=
  if 8 ≤ slot then s.malformed dst
  else
    let t := s.setKey slot rights key
    if !mctp && !t.someMaintain then s.respond dst 4 0 []
    else (t.logPlain srcOstler 0x18 0x02 (slot + 2 ^ 8 * (rights.toNat % 32)) 0 0).respond dst 0 0 []

/-- The 64 bytes of a record of the event log or the flash log; zeros where it is not held (R459). -/
def State.recordBytes (s : State) (flash : Bool) (seq : BitVec 32) : List Byte :=
  let r := if flash then s.flash.log.find? fun r => r.seq == seq else s.logRecord seq
  match r with
  | some r => r.bytes
  | none => natLe 0 64

/-- LOG_READ. -/
def State.cmdLogRead (s : State) (dst : Reply) (log : Nat) (first : BitVec 32) (count : Nat) : State :=
  if 1 < log ∨ count = 0 ∨ 16 < count then s.malformed dst
  else s.respond dst 0 0 ((List.range count).flatMap fun i => s.recordBytes (log == 1) (first + BitVec.ofNat 32 i))

/-! ### Collectors and telemetry (R484, R485, R488) -/

/-- One event batch of at most 16 records goes to a collector, or is counted where both ports are down (R484). -/
def State.sendBatch (s : State) (coll : Nat) (up : Bool) : State :=
  let q := AMap.get [] s.ev.collQ coll
  if q.isEmpty then s
  else
    let s : State := { s with ev := { s.ev with collQ := AMap.set [] s.ev.collQ coll (q.drop 16) } }
    if up then
      { s with mgmt := { s.mgmt with sentCount := s.mgmt.sentCount + 1 } }.send
        (.eventBatch coll s.mgmt.sentCount (q.take 16))
    else s.bump Reg.MAN_STATUS 22 10 1

/-- Everything that waits for a collector goes. -/
def State.sendBatches (s : State) (coll : Nat) (up : Bool) : Nat → State
  | 0 => s
  | n + 1 => State.sendBatches (s.sendBatch coll up) coll up n

/-- COLLECTORS (R483-R485): what waits goes to the old entries first; the interval is kept within 10 ms to 10 s. -/
def State.cmdCollectors (s : State) (dst : Reply) (entries : List (BitVec 32 × BitVec 16 × BitVec 32)) (interval : Nat) : State :=
  if entries.length ≠ 4 then s.malformed dst
  else
    let s := (List.range 4).foldl (fun s k =>
      s.sendBatches k (!s.mgmt.portsDown) ((AMap.get [] s.ev.collQ k).length / 16 + 1)) s
    let l := entries.map fun (a, u, m) => ({ addr := a, udp := u, mask := m } : Collector)
    { s with flash := { s.flash with collectors := l, interval := max 1 (min 1000 interval) } }.respond dst 0 0 []

/-- The items of a telemetry datagram: sensors 1 to 15. -/
def State.telemetryItems (s : State) : List (BitVec 16 × BitVec 48) :=
  (List.range 15).map fun i => (BitVec.ofNat 16 (i + 1), BitVec.ofNat 48 (s.sensor (i + 1)))

/-- A telemetry datagram to one collector. -/
def State.sendTelemetry (s : State) (coll : Nat) : State :=
  match s.flash.collectors[coll]? with
  | some c =>
    if c.addr = 0 then s
    else { s with mgmt := { s.mgmt with sentCount := s.mgmt.sentCount + 1 } }.send
      (.telemetry coll s.mgmt.sentCount s.telemetryItems)
  | none => s

/-- TELEMETRY_INTERVAL (R485): while a management port is up. -/
def State.telemetry (s : State) : State :=
  if s.mgmtUp then
    let s := s.advanceUpTo (s.mgmt.teleUp + s.flash.interval * 10000000)
    let s : State := { s with mgmt := { s.mgmt with teleUp := s.up } }
    if s.mgmt.portsDown then s else (List.range 4).foldl State.sendTelemetry s
  else s

/-! ### MCTP and PLDM (R486, R487) -/

/-- NET_SET (R487): address, mask and gateway of a port; an address of 0 returns it to DHCP. -/
def State.netSet (s : State) (mport : Bool) (addr mask gateway : BitVec 32) : State :=
  if s.mgmtUp then
    let v : BitVec 96 := if addr = 0 then 0 else addr ++ mask ++ gateway
    let s := s.mctpHeard none
    { s with mgmt := { s.mgmt with addr := AMap.set 0 s.mgmt.addr (if mport then 1 else 0) v } }.respond mctpReply 0 0 []
  else s

/-- PLDM Firmware Update writes a bank as FW_WRITE does and commits it as FW_COMMIT does (R486). -/
def State.pldm (s : State) (b : Bool) (off : Nat) (data : List Byte) (commit : Bool) : State :=
  if s.mgmtUp then
    let s := s.mctpHeard none
    let s := if data.isEmpty ∨ 1024 < data.length ∨ bankBytes < off + data.length ∨ s.bankBusy b then s
      else s.bankWrite b off data
    if commit then (s.commitBank b false).2 else s
  else s

/-! ### Authenticated JTAG debug (R496-R498) -/

/-- What an AUTH_RESPONSE signs: nonce, serial, requested level, key slot (R497). -/
def State.debugMessage (s : State) (nonce : BitVec 256) (level slot : BitVec 8) : List Byte :=
  natLe nonce.toNat 32 ++ natLe (s.reg64 Reg.LIC_SERIAL_LO) 8 ++ [level, slot]

/-- The key that a level asks for: a management key with the right, or a vendor key (R497). -/
def State.debugKey (s : State) (level slot : Nat) (key : BitVec 256) : Option (BitVec 256) :=
  match level with
  | 1 => if slot < 8 ∧ (s.mgmtKey slot).holds 3 then some (s.mgmtKey slot).key else none
  | 2 => if slot < 8 ∧ (s.mgmtKey slot).holds 4 then some (s.mgmtKey slot).key else none
  | 3 => if s.vendorKey slot key then some key else none
  | _ => none

/-- The fused debug ceiling as a level. -/
def ceilingLevel : Nat := Config.debugCeiling.toNat

/-- Does a response hold for a nonce? -/
def State.debugAuth (s : State) (nonce : BitVec 256) (level slot : BitVec 8) (key : BitVec 256) (sig : BitVec 512) : Bool :=
  match s.debugKey level.toNat slot.toNat key with
  | some k => ed25519 k (s.debugMessage nonce level slot) sig
  | none => false

/-- A session opens at a granted level (R497); at level 0 nothing is granted. -/
def State.openDebug (s : State) (level : Nat) : State :=
  let s := s.closeDebug
  if level = 0 then s
  else { s with jtag := { s.jtag with level := level } }.logPlain srcOstler 0x18 0x03 level 0 0

/-- AUTH_RESPONSE (R497): each nonce accepts one response; a failed one grants 0. -/
def State.authResponse (s : State) (level slot : BitVec 8) (key : BitVec 256) (sig : BitVec 512) : State :=
  let t : State := { s with jtag := { s.jtag with nonce := none } }
  match s.jtag.nonce with
  | some n =>
    if s.debugAuth n level slot key sig then t.openDebug (min level.toNat ceilingLevel)
    else t.closeDebug.authFailed slot.toNat 2 (n.toNat % 2 ^ 64)
  | none => t.closeDebug.authFailed slot.toNat 2 0

/-- AUTH_CHALLENGE (R496): nonce, serial number, debug ceiling. -/
def State.authChallenge (s : State) (nonce : BitVec 256) : State :=
  { s with jtag := { s.jtag with nonce := some nonce } }.send
    (.jtag 328 (nonce.toNat + 2 ^ 256 * s.reg64 Reg.LIC_SERIAL_LO + 2 ^ 320 * ceilingLevel))

/-- MEM (R498): reads from level 1, writes at level 2. -/
def State.jtagMem (s : State) (off : Nat) (write view : Bool) (data : BitVec 32) (env : StepEnv) : State :=
  if write then
    if s.jtag.level ≥ 2 then s.traced (s.barWrite .jtag off 4 data env) else s
  else if s.jtag.level ≥ 1 then
    let (w, s) := s.barRead .jtag off 4 view
    s.send (.jtag 64 (off + (if view then 2 ^ 25 else 0) + 2 ^ 32 * w.toNat))
  else s

/-- CLEAR_FLAG (R498): level 3 clears the drain flag and releases FAULT_N, which Recovery mode still holds low. -/
def State.clearFlag (s : State) : State :=
  if s.jtag.level ≥ 3 ∧ s.flash.drained then
    ((s.setDrained false).logPlain srcOstler 0x18 0x09 0 0 0).send (.faultN s.inRecovery)
  else s

/-- The codes of the instruction register that have an instruction of their own (R496). -/
def jtagCodes : List Byte := [0x01, 0x02, 0x10, 0x11, 0x12, 0x20, 0x30]

/-- Does the TAP act as BYPASS: code 0xFF, or any code that R496 does not list? No row of the table loads one of those (log
entry 176). -/
def Jtag.bypasses (x : Jtag) : Bool := !jtagCodes.contains x.ir

/-- A JTAG instruction by its code, which acts unless the code is one of BYPASS; it needs the standby domain's power
(R496). -/
def State.tap (s : State) (code : Byte) (act : State → State) : State :=
  if s.power.off then s
  else
    let s : State := { s with jtag := { s.jtag with ir := code } }
    if s.jtag.bypasses then s else act s

/-- COLLECTOR_SEND (R484). -/
def execCollectorSend (coll : BitVec 2) (portsUp : Bool) (s : State) : Answer :=
  .next (s.sendBatch coll.toNat (portsUp && !s.mgmt.portsDown))
/-- TELEMETRY_INTERVAL (R485). -/
def execTelemetryInterval (s : State) : Answer := .next s.telemetry
/-- READ_REG (R483). -/
def execReadReg (m : MgmtHdr) (off : BitVec 32) (count : BitVec 16) (view : Bool) (s : State) : Answer :=
  .next (s.mgmtCmd m 0 (cmdBody 0x01 (natLe off.toNat 4 ++ natLe count.toNat 2 ++ [if view then 1 else 0])) fun s =>
    s.cmdReadReg (replyTo m) off.toNat count.toNat view)
/-- WRITE_REG (R483). -/
def execWriteReg (m : MgmtHdr) (off : BitVec 32) (value : BitVec 32) (env : StepEnv) (s : State) : Answer :=
  .next (s.mgmtCmd m 1 (cmdBody 0x02 (natLe off.toNat 4 ++ natLe value.toNat 4)) fun s =>
    s.cmdWriteReg (replyTo m) off.toNat value env)
/-- STEP (R483). -/
def execStepCmd (m : MgmtHdr) (n : BitVec 8) (env : StepEnv) (s : State) : Answer :=
  .next (s.mgmtCmd m 1 (cmdBody 0x03 [n]) fun s => s.cmdStep (replyTo m) n.toNat env)
/-- RESET (R483). -/
def execResetCmd (m : MgmtHdr) (op : BitVec 8) (s : State) : Answer :=
  .next (s.mgmtCmd m 1 (cmdBody 0x04 [op]) fun s => s.cmdReset (replyTo m) op.toNat)
/-- BLOCK_RESET (R483). -/
def execBlockReset (m : MgmtHdr) (mask : BitVec 64) (token : BitVec 16) (s : State) : Answer :=
  .next (s.mgmtCmd m 1 (cmdBody 0x05 (natLe mask.toNat 8 ++ natLe token.toNat 2)) fun s =>
    s.cmdBlockReset (replyTo m) mask token.toNat)
/-- DRAIN_SLOT (R483). -/
def execDrainSlot (m : MgmtHdr) (slot : BitVec 8) (s : State) : Answer :=
  .next (s.mgmtCmd m 1 (cmdBody 0x06 [slot]) fun s => s.cmdDrainSlot (replyTo m) slot.toNat)
/-- DRAIN_MODULE (R475, R483). -/
def execDrainModule (m : MgmtHdr) (s : State) : Answer :=
  .next (s.mgmtCmd m 1 (cmdBody 0x07 []) fun s => s.drainModule.respond (replyTo m) 0 0 [])
/-- FW_WRITE (R483). -/
def execFwWrite (m : MgmtHdr) (bank : BitVec 8) (off : BitVec 32) (data : List (BitVec 8)) (s : State) : Answer :=
  .next (s.mgmtCmd m 2 (cmdBody 0x08 ([bank] ++ natLe off.toNat 4 ++ data)) fun s =>
    s.cmdFwWrite (replyTo m) bank.toNat off.toNat data)
/-- FW_COMMIT (R425, R483). -/
def execFwCommit (m : MgmtHdr) (bank : BitVec 8) (prefer : BitVec 8) (s : State) : Answer :=
  .next (s.mgmtCmd m 2 (cmdBody 0x09 [bank, prefer]) fun s => s.cmdFwCommit (replyTo m) bank.toNat prefer.toNat)
/-- LICENCE (R429, R483). -/
def execLicence (m : MgmtHdr) (op : BitVec 8) (slot : BitVec 8) (record : List (BitVec 8)) (s : State) : Answer :=
  .next (s.mgmtCmd m 2 (cmdBody 0x0A ([op, slot] ++ record)) fun s => s.cmdLicence (replyTo m) op.toNat slot.toNat record)
/-- REPAIR_ADD (R446, R483). The body carries the record alone. -/
def execRepairAdd (m : MgmtHdr) (die : BitVec 6) (record : BitVec 64) (s : State) : Answer :=
  .next (s.mgmtCmd m 2 (cmdBody 0x0B (natLe record.toNat 8)) fun s => s.cmdRepairAdd (replyTo m) die.toNat record.toNat)
/-- KEY_SET (R482). -/
def execKeySet (m : MgmtHdr) (slot : BitVec 8) (rights : BitVec 8) (key : BitVec 256) (s : State) : Answer :=
  .next (s.mgmtCmd m 2 (cmdBody 0x0C ([slot, rights] ++ natLe key.toNat 32)) fun s =>
    s.cmdKeySet (replyTo m) m.mctp slot.toNat rights key)
/-- LOG_READ (R483). -/
def execLogRead (m : MgmtHdr) (log : BitVec 8) (first : BitVec 32) (count : BitVec 8) (s : State) : Answer :=
  .next (s.mgmtCmd m 0 (cmdBody 0x0D ([log] ++ natLe first.toNat 4 ++ [count])) fun s =>
    s.cmdLogRead (replyTo m) log.toNat first count.toNat)
/-- COLLECTORS (R483). -/
def execCollectors (m : MgmtHdr) (entries : List (BitVec 32 × BitVec 16 × BitVec 32)) (interval : BitVec 16) (s : State) :
    Answer :=
  .next (s.mgmtCmd m 1 (cmdBody 0x0E ((entries.flatMap fun (a, u, c) =>
    natLe a.toNat 4 ++ natLe u.toNat 2 ++ natLe c.toNat 4) ++ natLe interval.toNat 2)) fun s =>
      s.cmdCollectors (replyTo m) entries interval.toNat)
/-- NET_SET (R487). -/
def execNetSet (mport : Bool) (addr : BitVec 32) (mask : BitVec 32) (gateway : BitVec 32) (s : State) : Answer :=
  .next (s.netSet mport addr mask gateway)
/-- SET_ENDPOINT_ID (R486). -/
def execSetEndpointId (eid : BitVec 8) (s : State) : Answer :=
  .next (if s.mgmtUp then
    let s := s.mctpHeard none
    { s with mgmt := { s.mgmt with eid := eid } }
  else s)
/-- PLDM_FIRMWARE_UPDATE (R486). -/
def execPldmFirmwareUpdate (bank : Bool) (off : BitVec 32) (data : List (BitVec 8)) (commit : Bool) (s : State) : Answer :=
  .next (s.pldm bank off.toNat data commit)
/-- BYPASS (R496): nothing of the module acts. -/
def execBypass (s : State) : Answer := .next (s.tap 0xFF fun s => s)
/-- IDCODE (R496). -/
def execIdcode (s : State) : Answer := .next (s.tap 0x01 fun s => s.send (.jtag 32 0x1D640A2F))
/-- SAMPLE/PRELOAD (R496): nothing of the module acts. -/
def execSamplePreload (s : State) : Answer := .next (s.tap 0x02 fun s => s)
/-- AUTH_CHALLENGE (R496). -/
def execAuthChallenge (nonce : BitVec 256) (s : State) : Answer := .next (s.tap 0x10 fun s => s.authChallenge nonce)
/-- AUTH_RESPONSE (R497). -/
def execAuthResponse (level : BitVec 8) (slot : BitVec 8) (key : BitVec 256) (sig : BitVec 512) (s : State) : Answer :=
  .next (s.tap 0x11 fun s => s.authResponse level slot key sig)
/-- AUTH_STATUS (R496). -/
def execAuthStatus (s : State) : Answer := .next (s.tap 0x12 fun s => s.send (.jtag 8 s.jtag.level))
/-- MEM (R498). -/
def execMem (off : BitVec 24) (write : Bool) (view : Bool) (data : BitVec 32) (env : StepEnv) (s : State) : Answer :=
  .next (s.tap 0x20 fun s => s.jtagMem off.toNat write view data env)
/-- CLEAR_FLAG (R498). -/
def execClearFlag (s : State) : Answer := .next (s.tap 0x30 State.clearFlag)
/-- DEBUG_SESSION_CLOSE (R497). -/
def execDebugSessionClose (s : State) : Answer := .next s.closeDebug

end Sys2Proof.Machine
end

