-- ==== Sys2Proof/Machine/Receive.lean ====
section
/-! DEFINITION. The receiving side of the transport: a channel's byte stream is cut into messages, each judged and taken
(11 R324, R325, R345); the flits that can carry one, and CONFIG and TIME, which the pair unit uses (14 R398). -/

namespace Sys2Proof.Machine

/-! ### The fields of a message (R324) -/

/-- A field of a message header: w bits from bit lo. -/
def Seg.bits (g : Seg) (lo w : Nat) : Nat := (g.data.extractLsb' lo w).toNat

def Seg.kind (g : Seg) : Nat := g.bits 0 8
def Seg.last (g : Seg) : Bool := g.bits 8 1 == 1
def Seg.pair (g : Seg) : Bool := g.bits 9 1 == 1
def Seg.bodyLen (g : Seg) : Nat := g.bits 16 16
def Seg.key (g : Seg) : BitVec 32 := g.data.extractLsb' 32 32
def Seg.arg (g : Seg) : Nat := g.bits 64 64

/-- The bytes of segments. -/
def segBytes (gs : List Seg) : List Byte := gs.flatMap fun g => natLe g.data.toNat 16

/-- Four segments make a line, poisoned with any of them (R324). -/
def lineOfSegs (gs : List Seg) : Line :=
  { data := BitVec.ofNat 512 (gs.zipIdx.foldl (fun n (g, i) => n + g.data.toNat * 2 ^ (128 * i)) 0)
    poison := gs.any (·.poison) }

/-- The whole lines of a body. -/
def segLines (gs : List Seg) : List Line :=
  (List.range (gs.length / 4)).map fun i => lineOfSegs ((gs.drop (4 * i)).take 4)

/-- The unit identifiers and CRCs of a PAIR_SIG body (R345). -/
def unitsOf (gs : List Seg) : List (BitVec 64 × BitVec 64) :=
  gs.map fun g => (g.data.extractLsb' 0 64, g.data.extractLsb' 64 64)

/-! ### Bodies (R325, R326) -/

/-- The HELLO body; none where a reserved byte or bit is not 0. -/
def helloOf (b : List Byte) : Option HelloMsg :=
  let id := leNat ((b.drop 2).take 2)
  if b.length = 16 ∧ b.getD 1 0 = 0 ∧ id < 4096 ∧ (b.drop 6).all (· == 0) then
    some { role := b.getD 0 0, id := BitVec.ofNat 12 id, version := b.getD 4 0, caps := b.getD 5 0 }
  else none

/-- The OPEN body; none where a reserved byte is not 0. -/
def openOf (pair : Bool) (b : List Byte) : Option OpenBody :=
  if b.length = 32 ∧ b.getD 3 0 = 0 ∧ leNat ((b.drop 6).take 2) = 0 ∧ (b.drop 20).all (· == 0) then
    some { pair := pair, dir := b.getD 0 0, mode := b.getD 1 0, elem := b.getD 2 0
           partner := BitVec.ofNat 16 (leNat ((b.drop 4).take 2)), addr := BitVec.ofNat 64 (leNat ((b.drop 8).take 8))
           lines := BitVec.ofNat 32 (leNat ((b.drop 16).take 4)) }
  else none

/-! ### Messages (R325, R345) -/

/-- The channel, the body length and whether a stream is named, as R325 and R345 give them for a type. -/
def messageOk (chan : Nat) (h : Seg) : Bool :=
  let n := h.bodyLen
  let named := h.key != 0
  h.bits 10 6 == 0 && match h.kind with
  | 0x01 => chan == 0 && n == 16 && !named && h.arg == 0
  | 0x02 => chan == 0 && n == 32 && h.arg == 0
  | 0x03 | 0x04 | 0x05 | 0x06 | 0x07 => chan == 0 && n == 0
  | 0x08 => chan == 0 && n == 0 && h.arg == 0
  | 0x10 => n % 64 == 0
  | 0x20 => chan == 0 && !named && h.arg == 0
  | 0x21 => chan == 0 && !named && decide (h.arg < 256)
  | 0x22 => chan == 0 && !named && n == 0
  | 0x23 => chan == 0 && !named && n == 0 && decide (h.arg < 2 ^ 54)
  | 0x24 => chan == 0 && !named && n == 0 && decide (h.arg < 2)
  | 0x25 => chan == 3 && !named && n % 64 == 0
  | _ => false

/-- A pair message, on a port of the pair link (R338). -/
def State.takePairMessage (s : State) (port : Nat) (h : Seg) (body : List Seg) : State :=
  match h.kind with
  | 0x20 => s.takePairHello port h.last (segBytes body)
  | 0x21 => s.takePairSig port (BitVec.ofNat 8 h.arg) (unitsOf body) h.last
  | 0x22 => s.takePairFail port h.arg
  | 0x23 => s.takeCplSeen (h.bits 112 6) (h.bits 96 16) (h.bits 64 32)
  | 0x24 => s.takeEvidence (h.arg == 1)
  | _ => s.takeMirror port h.arg (segLines body)

/-- A whole message is taken; one that R325 does not allow is discarded and counted. -/
def State.takeMessage (s : State) (port chan : Nat) (h : Seg) (body : List Seg) : State :=
  let refuse (s : State) : State := s.protocolError port (if h.key = 0 then none else some h.key)
  if !messageOk chan h then refuse s
  else if h.kind ≥ 0x20 then if port < 120 then refuse s else s.takePairMessage port h body
  else match h.kind with
  | 0x01 => match helloOf (segBytes body) with
    | some m => s.takeHello port m
    | none => refuse s
  | 0x02 => match openOf h.pair (segBytes body) with
    | some m => s.takeOpen port h.key m
    | none => refuse s
  | 0x03 => s.takeOpenAck port h.key (BitVec.ofNat 64 h.arg)
  | 0x04 => s.takeGrantMsg port h.key h.arg
  | 0x05 => s.takeCommit port h.key h.arg
  | 0x06 => s.takeResume port h.key h.arg
  | 0x07 => s.takeClose port h.key (BitVec.ofNat 64 h.arg)
  | 0x08 => s.takeCloseAck port h.key
  | _ => s.takeDataMsg port chan h.key h.arg (segLines body)

/-- The whole messages at the front of a channel's byte stream are taken out of the buffers (R311, R324). After a header
with a length that R324 does not allow the next message is taken to begin behind the header (log entry 131). -/
def State.takeMessages (s : State) (port chan : Nat) : Nat → State
  | 0 => s
  | n + 1 =>
    let x := s.port port
    match AMap.get [] x.rxq chan with
    | [] => s
    | h :: rest =>
      let len := h.bodyLen
      let left (gs : List Seg) : State := s.setPort port { x with rxq := AMap.set [] x.rxq chan gs }
      if len % 16 ≠ 0 ∨ len > 4096 then
        State.takeMessages (((left rest).consume port chan 16).protocolError port
          (if h.key = 0 then none else some h.key)) port chan n
      else if rest.length < len / 16 then s
      else
        let s := (left (rest.drop (len / 16))).consume port chan (16 + len)
        State.takeMessages (s.takeMessage port chan h (rest.take (len / 16))) port chan n

/-- DATA_FLIT (R309-R311, R324): the flit is received, and every message that it completes is taken. -/
def State.dataFlit (s : State) (port : Nat) (f : Flit) : State :=
  let s := s.takeDataFlit port f
  let c := f.chan.toNat % 4
  s.takeMessages port c (AMap.get [] (s.port port).rxq c).length

/-- TIME (R398): what the arrival shows of the offset is kept. A follower's offset is half the difference between its own
result and the leader's, which no message carries, so it is a free value within the ±20 ns that the rule keeps; it is
corrected from now on by a count in 1,024 ns (log entry 145). -/
def State.takeTime (s : State) (port : Nat) (value : BitVec 64) (arrival : Nat) : State :=
  if (s.port port).linked then
    let s := s.modPort port fun x => { x with msOff := [(arrival : Int) - value.toNat] }
    if s.pairFollows && decide (120 ≤ port) then
      let (v, s) := s.fresh
      { s with msOff := ((v % 41 : Nat) : Int) - 20 }
    else s
  else s

/-- DATA_FLIT (R309). -/
def execDataFlit (port : BitVec 7) (flit : Flit) (s : State) : Answer :=
  .next (s.traced (s.dataFlit port.toNat flit))
/-- CONFIG (R313): a pair port that becomes ACTIVE may let a pair form (R339). -/
def execConfig (port : BitVec 7) (h : FlitHead) (m : ConfigMsg) (s : State) : Answer :=
  .next (s.traced (s.onControl port.toNat h (configBytes m) fun s => (s.takeConfig port.toNat m).pairTry))
/-- TIME (R398). -/
def execTime (port : BitVec 7) (h : FlitHead) (value : BitVec 64) (arrival : Nat) (s : State) : Answer :=
  .next (s.onControl port.toNat h (timeBytes value.toNat) fun s => s.takeTime port.toNat value arrival)

end Sys2Proof.Machine
end

