-- ==== Sys2Proof/Machine/Dispatch.lean ====
section
/-! DEFINITION. The meaning of every command: one arm per constructor. -/

namespace Sys2Proof.Machine

def exec (i : Instr) (s : State) : Host.Outcome State Fault Refusal :=
  match i with
  | .enop x => Sys2Proof.Machine.execEnop x s
  | .emac x o => Sys2Proof.Machine.execEmac x o s
  | .emacc x o => Sys2Proof.Machine.execEmacc x o s
  | .eclr x emask mode w => Sys2Proof.Machine.execEclr x emask mode w s
  | .erd x acc vd rctl => Sys2Proof.Machine.execErd x acc vd rctl s
  | .eslice x elast sstep srcA srcB => Sys2Proof.Machine.execEslice x elast sstep srcA srcB s
  | .vnop x => Sys2Proof.Machine.execVnop x s
  | .fadd x o => Sys2Proof.Machine.execFadd x o s
  | .fsub x o => Sys2Proof.Machine.execFsub x o s
  | .fmul x o => Sys2Proof.Machine.execFmul x o s
  | .fma x o => Sys2Proof.Machine.execFma x o s
  | .fmin x o => Sys2Proof.Machine.execFmin x o s
  | .fmax x o => Sys2Proof.Machine.execFmax x o s
  | .fcmp x va vb pd cond red => Sys2Proof.Machine.execFcmp x va vb pd cond red s
  | .cvt x vd va idx fmt => Sys2Proof.Machine.execCvt x vd va idx fmt s
  | .sfu x vd va fn => Sys2Proof.Machine.execSfu x vd va fn s
  | .pwt x vd va vb => Sys2Proof.Machine.execPwt x vd va vb s
  | .iadd x o => Sys2Proof.Machine.execIadd x o s
  | .isub x o => Sys2Proof.Machine.execIsub x o s
  | .vand x o => Sys2Proof.Machine.execVand x o s
  | .vor x o => Sys2Proof.Machine.execVor x o s
  | .vxor x o => Sys2Proof.Machine.execVxor x o s
  | .shl x vd va count => Sys2Proof.Machine.execShl x vd va count s
  | .shr x vd va count => Sys2Proof.Machine.execShr x vd va count s
  | .mov x vd va => Sys2Proof.Machine.execMov x vd va s
  | .bcast x vd va elem => Sys2Proof.Machine.execBcast x vd va elem s
  | .lanex x vd va lane => Sys2Proof.Machine.execLanex x vd va lane s
  | .scale x va sbTarget => Sys2Proof.Machine.execScale x va sbTarget s
  | .vfroms x vd vb => Sys2Proof.Machine.execVfroms x vd vb s
  | .xset x o dense ha hb range => Sys2Proof.Machine.execXset x o dense ha hb range s
  | .xwalk x vd pd => Sys2Proof.Machine.execXwalk x vd pd s
  | .xgath x o rankB width => Sys2Proof.Machine.execXgath x o rankB width s
  | .x24 x o width => Sys2Proof.Machine.execX24 x o width s
  | .xcslu x vd va values fmt clear => Sys2Proof.Machine.execXcslu x vd va values fmt clear s
  | .hclr x vb table => Sys2Proof.Machine.execHclr x vb table s
  | .hacc x o table mul => Sys2Proof.Machine.execHacc x o table mul s
  | .spillComplete c => Sys2Proof.Machine.execSpillComplete c s
  | .hmerge x vd vb table => Sys2Proof.Machine.execHmerge x vd vb table s
  | .hmergeComplete c => Sys2Proof.Machine.execHmergeComplete c s
  | .hstat x vd table => Sys2Proof.Machine.execHstat x vd table s
  | .mnop x => Sys2Proof.Machine.execMnop x s
  | .vld x o => Sys2Proof.Machine.execVld x o s
  | .vst x o => Sys2Proof.Machine.execVst x o s
  | .sld x o => Sys2Proof.Machine.execSld x o s
  | .sst x o => Sys2Proof.Machine.execSst x o s
  | .lsave x o => Sys2Proof.Machine.execLsave x o s
  | .lrest x o => Sys2Proof.Machine.execLrest x o s
  | .sout x lane sb off inc => Sys2Proof.Machine.execSout x lane sb off inc s
  | .sin x queue sb off inc => Sys2Proof.Machine.execSin x queue sb off inc s
  | .qnop x => Sys2Proof.Machine.execQnop x s
  | .salu x fn sd sa sb => Sys2Proof.Machine.execSalu x fn sd sa sb s
  | .salui x fn sd sa imm => Sys2Proof.Machine.execSalui x fn sd sa imm s
  | .sli x sd hw imm => Sys2Proof.Machine.execSli x sd hw imm s
  | .pcmp x pd cond sa sb => Sys2Proof.Machine.execPcmp x pd cond sa sb s
  | .plog x pd fn pa pb => Sys2Proof.Machine.execPlog x pd fn pa pb s
  | .pfroms x pd sa => Sys2Proof.Machine.execPfroms x pd sa s
  | .ptos x sd pa => Sys2Proof.Machine.execPtos x sd pa s
  | .rep x count lenM1 lp => Sys2Proof.Machine.execRep x count lenM1 lp s
  | .ssend x sa => Sys2Proof.Machine.execSsend x sa s
  | .csend x sa => Sys2Proof.Machine.execCsend x sa s
  | .vsend x vs lane => Sys2Proof.Machine.execVsend x vs lane s
  | .csig x cpl rem sub amount => Sys2Proof.Machine.execCsig x cpl rem sub amount s
  | .cwait x cpl rem cond val take path => Sys2Proof.Machine.execCwait x cpl rem cond val take path s
  | .ctoll x w => Sys2Proof.Machine.execCtoll x w s
  | .cread x cpl sd => Sys2Proof.Machine.execCread x cpl sd s
  | .endProg x => Sys2Proof.Machine.execEndProg x s
  | .waitSatisfied c => Sys2Proof.Machine.execWaitSatisfied c s
  | .jobBeat slot => Sys2Proof.Machine.execJobBeat slot s
  | .withheldBeat slot => Sys2Proof.Machine.execWithheldBeat slot s
  | .signalMessage c msg origin => Sys2Proof.Machine.execSignalMessage c msg origin s
  | .watchMessage c msg => Sys2Proof.Machine.execWatchMessage c msg s
  | .wakeMessage c msg => Sys2Proof.Machine.execWakeMessage c msg s
  | .wakeLinePulse c dir => Sys2Proof.Machine.execWakeLinePulse c dir s
  | .broadcastWake die => Sys2Proof.Machine.execBroadcastWake die s
  | .driftWarning die edge drift => Sys2Proof.Machine.execDriftWarning die edge drift s
  | .driftLimit die edge drift => Sys2Proof.Machine.execDriftLimit die edge drift s
  | .beatCheckError die edge => Sys2Proof.Machine.execBeatCheckError die edge s
  | .laneLoss die edge lane => Sys2Proof.Machine.execLaneLoss die edge lane s
  | .fabViewCapture via die value => Sys2Proof.Machine.execFabViewCapture via die value s
  | .fabViewCaptureTaken die => Sys2Proof.Machine.execFabViewCaptureTaken die s
  | .clearMinmax via die edge => Sys2Proof.Machine.execClearMinmax via die edge s
  | .clearCount via die edge => Sys2Proof.Machine.execClearCount via die edge s
  | .dbgCapture via value => Sys2Proof.Machine.execDbgCapture via value s
  | .dbgCaptureTaken => Sys2Proof.Machine.execDbgCaptureTaken s
  | .tollgateRoundOpen => Sys2Proof.Machine.execTollgateRoundOpen s
  | .tollgateEntry src round parityOk => Sys2Proof.Machine.execTollgateEntry src round parityOk s
  | .tollgateRelease => Sys2Proof.Machine.execTollgateRelease s
  | .tollgateStall => Sys2Proof.Machine.execTollgateStall s
  | .tgPeriodWrite via value => Sys2Proof.Machine.execTgPeriodWrite via value s
  | .bistSegmentEnd c pass loc => Sys2Proof.Machine.execBistSegmentEnd c pass loc s
  | .dragControlPeriod inputMv idleMw measuredMw draws => Sys2Proof.Machine.execDragControlPeriod inputMv idleMw measuredMw draws s
  | .egressPrefetch die edge slot => Sys2Proof.Machine.execEgressPrefetch die edge slot s
  | .creditReturn die edge slot msg => Sys2Proof.Machine.execCreditReturn die edge slot msg s
  | .ingressLineWrite die edge slot => Sys2Proof.Machine.execIngressLineWrite die edge slot s
  | .readRequest stack good => Sys2Proof.Machine.execReadRequest stack good s
  | .writeFrame stack good => Sys2Proof.Machine.execWriteFrame stack good s
  | .readData stack good => Sys2Proof.Machine.execReadData stack good s
  | .writeAcknowledge stack good => Sys2Proof.Machine.execWriteAcknowledge stack good s
  | .acknowledgeOnly stack toStack good => Sys2Proof.Machine.execAcknowledgeOnly stack toStack good s
  | .nak stack toStack good => Sys2Proof.Machine.execNak stack toStack good s
  | .linkRecentre stack temp => Sys2Proof.Machine.execLinkRecentre stack temp s
  | .patrolScrub stack => Sys2Proof.Machine.execPatrolScrub stack s
  | .pollCycle fails => Sys2Proof.Machine.execPollCycle fails s
  | .descriptorFetch ring good => Sys2Proof.Machine.execDescriptorFetch ring good s
  | .nop ring => Sys2Proof.Machine.execNop ring s
  | .createRing ring => Sys2Proof.Machine.execCreateRing ring s
  | .destroyRing ring => Sys2Proof.Machine.execDestroyRing ring s
  | .assignVf ring => Sys2Proof.Machine.execAssignVf ring s
  | .setAperture ring => Sys2Proof.Machine.execSetAperture ring s
  | .jobLoad ring => Sys2Proof.Machine.execJobLoad ring s
  | .loadComplete slot => Sys2Proof.Machine.execLoadComplete slot s
  | .jobStart ring => Sys2Proof.Machine.execJobStart ring s
  | .jobBeatZero slot => Sys2Proof.Machine.execJobBeatZero slot s
  | .jobStop ring => Sys2Proof.Machine.execJobStop ring s
  | .stopBeat slot => Sys2Proof.Machine.execStopBeat slot s
  | .jobKill ring => Sys2Proof.Machine.execJobKill ring s
  | .jobUnload ring => Sys2Proof.Machine.execJobUnload ring s
  | .jobQuery ring => Sys2Proof.Machine.execJobQuery ring s
  | .jobEnded slot => Sys2Proof.Machine.execJobEnded slot s
  | .dmaToChs ring => Sys2Proof.Machine.execDmaToChs ring s
  | .dmaFromChs ring => Sys2Proof.Machine.execDmaFromChs ring s
  | .dmaComplete ring idx host => Sys2Proof.Machine.execDmaComplete ring idx host s
  | .coalesceTimer ring => Sys2Proof.Machine.execCoalesceTimer ring s
  | .vectorUnmask port fn vec => Sys2Proof.Machine.execVectorUnmask port fn vec s
  | .bar2Read port fn off len => Sys2Proof.Machine.execBar2Read port fn off len s
  | .bar2Write port fn off data poisoned => Sys2Proof.Machine.execBar2Write port fn off data poisoned s
  | .registerWrite via off size value env => Sys2Proof.Machine.execRegisterWrite via off size value env s
  | .functionRun port fn value => Sys2Proof.Machine.execFunctionRun port fn value s
  | .functionStop port fn value => Sys2Proof.Machine.execFunctionStop port fn value s
  | .portLinkDown port => Sys2Proof.Machine.execPortLinkDown port s
  | .portLinkUp port speed width flit => Sys2Proof.Machine.execPortLinkUp port speed width flit s
  | .flr fn => Sys2Proof.Machine.execFlr fn s
  | .flitSlot port => Sys2Proof.Machine.execFlitSlot port s
  | .dataFlit port flit => Sys2Proof.Machine.execDataFlit port flit s
  | .idleFlit port flit => Sys2Proof.Machine.execIdleFlit port flit s
  | .replayTimeout port => Sys2Proof.Machine.execReplayTimeout port s
  | .nakHoldoffExpiry port => Sys2Proof.Machine.execNakHoldoffExpiry port s
  | .ts port h m => Sys2Proof.Machine.execTs port h m s
  | .config port h m => Sys2Proof.Machine.execConfig port h m s
  | .req port h m => Sys2Proof.Machine.execReq port h m s
  | .grant port h reqNo => Sys2Proof.Machine.execGrant port h reqNo s
  | .widthMark port h width pairs reqNo => Sys2Proof.Machine.execWidthMark port h width pairs reqNo s
  | .time port h value arrival => Sys2Proof.Machine.execTime port h value arrival s
  | .timeSend port => Sys2Proof.Machine.execTimeSend port s
  | .reqResend port => Sys2Proof.Machine.execReqResend port s
  | .trainingTimeout port => Sys2Proof.Machine.execTrainingTimeout port s
  | .ringCalComplete engine ok fromSaved temp => Sys2Proof.Machine.execRingCalComplete engine ok fromSaved temp s
  | .seekLock port pairs peer => Sys2Proof.Machine.execSeekLock port pairs peer s
  | .equaliseComplete port => Sys2Proof.Machine.execEqualiseComplete port s
  | .downTimer port => Sys2Proof.Machine.execDownTimer port s
  | .laserLinePresent engine line power => Sys2Proof.Machine.execLaserLinePresent engine line power s
  | .laserLineLost engine line power => Sys2Proof.Machine.execLaserLineLost engine line power s
  | .pairMarkedBad port pair => Sys2Proof.Machine.execPairMarkedBad port pair s
  | .pairMarkCleared port pair => Sys2Proof.Machine.execPairMarkCleared port pair s
  | .upshiftCheck port => Sys2Proof.Machine.execUpshiftCheck port s
  | .ringLockLoss engine pair ring => Sys2Proof.Machine.execRingLockLoss engine pair ring s
  | .ringRelock engine pair ring => Sys2Proof.Machine.execRingRelock engine pair ring s
  | .ringRecentreComplete engine temp => Sys2Proof.Machine.execRingRecentreComplete engine temp s
  | .heaterSettingsSave engine temp => Sys2Proof.Machine.execHeaterSettingsSave engine temp s
  | .adminDown via port value => Sys2Proof.Machine.execAdminDown via port value s
  | .maxWidth via port value => Sys2Proof.Machine.execMaxWidth via port value s
  | .portRetrain via port => Sys2Proof.Machine.execPortRetrain via port s
  | .portRecal via port => Sys2Proof.Machine.execPortRecal via port s
  | .hello port m => Sys2Proof.Machine.execHello port m s
  | .openMsg port key m => Sys2Proof.Machine.execOpenMsg port key m s
  | .openAck port key status => Sys2Proof.Machine.execOpenAck port key status s
  | .streamGrant port key limit => Sys2Proof.Machine.execStreamGrant port key limit s
  | .commit port key off => Sys2Proof.Machine.execCommit port key off s
  | .resume port key off => Sys2Proof.Machine.execResume port key off s
  | .closeMsg port key arg => Sys2Proof.Machine.execCloseMsg port key arg s
  | .closeAck port key => Sys2Proof.Machine.execCloseAck port key s
  | .data port chan key off lines => Sys2Proof.Machine.execData port chan key off lines s
  | .streamTimeout port key => Sys2Proof.Machine.execStreamTimeout port key s
  | .openTimeout port key => Sys2Proof.Machine.execOpenTimeout port key s
  | .openAnswerTimeout port key => Sys2Proof.Machine.execOpenAnswerTimeout port key s
  | .postingPortDrain via port value => Sys2Proof.Machine.execPostingPortDrain via port value s
  | .pairEnable via value => Sys2Proof.Machine.execPairEnable via value s
  | .pairHello port last body => Sys2Proof.Machine.execPairHello port last body s
  | .pairSig round units last => Sys2Proof.Machine.execPairSig round units last s
  | .pairEvidence present => Sys2Proof.Machine.execPairEvidence present s
  | .pairFail cause => Sys2Proof.Machine.execPairFail cause s
  | .cplSeen fn ring seq => Sys2Proof.Machine.execCplSeen fn ring seq s
  | .mirror addr lines => Sys2Proof.Machine.execMirror addr lines s
  | .mirrorSend port => Sys2Proof.Machine.execMirrorSend port s
  | .pairLinkLost => Sys2Proof.Machine.execPairLinkLost s
  | .turnOn inputMv => Sys2Proof.Machine.execTurnOn inputMv s
  | .brownOut inputMv => Sys2Proof.Machine.execBrownOut inputMv s
  | .overvoltage inputMv => Sys2Proof.Machine.execOvervoltage inputMv s
  | .inputRecovery inputMv => Sys2Proof.Machine.execInputRecovery inputMv s
  | .inputLow inputMv => Sys2Proof.Machine.execInputLow inputMv s
  | .standby via => Sys2Proof.Machine.execStandby via s
  | .thermalSample t => Sys2Proof.Machine.execThermalSample t s
  | .contactImbalance part currents => Sys2Proof.Machine.execContactImbalance part currents s
  | .contactGroupOpen part => Sys2Proof.Machine.execContactGroupOpen part s
  | .voteWindowEnd xaFo xbFo => Sys2Proof.Machine.execVoteWindowEnd xaFo xbFo s
  | .referenceMoveComplete => Sys2Proof.Machine.execReferenceMoveComplete s
  | .referenceLoss ref => Sys2Proof.Machine.execReferenceLoss ref s
  | .crystalReturn ref => Sys2Proof.Machine.execCrystalReturn ref s
  | .milestoneBeacon errs => Sys2Proof.Machine.execMilestoneBeacon errs s
  | .diePllLockLoss die => Sys2Proof.Machine.execDiePllLockLoss die s
  | .rootPllLockLoss => Sys2Proof.Machine.execRootPllLockLoss s
  | .powerOn => Sys2Proof.Machine.execPowerOn s
  | .resetNShort => Sys2Proof.Machine.execResetNShort s
  | .resetNLong => Sys2Proof.Machine.execResetNLong s
  | .perst port => Sys2Proof.Machine.execPerst port s
  | .ostlerWatchdog => Sys2Proof.Machine.execOstlerWatchdog s
  | .ostlerReturn => Sys2Proof.Machine.execOstlerReturn s
  | .sequencerLockUp c => Sys2Proof.Machine.execSequencerLockUp c s
  | .hifProcessorLockUp port => Sys2Proof.Machine.execHifProcessorLockUp port s
  | .warmReset via key => Sys2Proof.Machine.execWarmReset via key s
  | .coldReset via key => Sys2Proof.Machine.execColdReset via key s
  | .recoveryExit via key => Sys2Proof.Machine.execRecoveryExit via key s
  | .blockResetRequest via value => Sys2Proof.Machine.execBlockResetRequest via value s
  | .blockResetComplete env => Sys2Proof.Machine.execBlockResetComplete env s
  | .standbyReady => Sys2Proof.Machine.execStandbyReady s
  | .fuseLoad via env => Sys2Proof.Machine.execFuseLoad via env s
  | .clockStart via env => Sys2Proof.Machine.execClockStart via env s
  | .dieRelease via env => Sys2Proof.Machine.execDieRelease via env s
  | .interconnectCheck via env => Sys2Proof.Machine.execInterconnectCheck via env s
  | .dieToDieTrain via env => Sys2Proof.Machine.execDieToDieTrain via env s
  | .coachhouseDiscover via env => Sys2Proof.Machine.execCoachhouseDiscover via env s
  | .firmwareBroadcast via env => Sys2Proof.Machine.execFirmwareBroadcast via env s
  | .fabricCheck via env => Sys2Proof.Machine.execFabricCheck via env s
  | .lanternTrain via env => Sys2Proof.Machine.execLanternTrain via env s
  | .licenceApply via env => Sys2Proof.Machine.execLicenceApply via env s
  | .ready via env => Sys2Proof.Machine.execReady via env s
  | .stepComplete => Sys2Proof.Machine.execStepComplete s
  | .stepTimeLimit => Sys2Proof.Machine.execStepTimeLimit s
  | .startDeadline => Sys2Proof.Machine.execStartDeadline s
  | .licenceStore via slot => Sys2Proof.Machine.execLicenceStore via slot s
  | .licenceErase via slot => Sys2Proof.Machine.execLicenceErase via slot s
  | .repairBurn via die token => Sys2Proof.Machine.execRepairBurn via die token s
  | .addSoftRepair via die => Sys2Proof.Machine.execAddSoftRepair via die s
  | .eventDelivery src => Sys2Proof.Machine.execEventDelivery src s
  | .eventCommit => Sys2Proof.Machine.execEventCommit s
  | .eventIrqDeferred => Sys2Proof.Machine.execEventIrqDeferred s
  | .collectorSend coll portsUp => Sys2Proof.Machine.execCollectorSend coll portsUp s
  | .telemetryInterval => Sys2Proof.Machine.execTelemetryInterval s
  | .readReg m off count view => Sys2Proof.Machine.execReadReg m off count view s
  | .writeReg m off value env => Sys2Proof.Machine.execWriteReg m off value env s
  | .stepCmd m n env => Sys2Proof.Machine.execStepCmd m n env s
  | .resetCmd m op => Sys2Proof.Machine.execResetCmd m op s
  | .blockReset m mask token => Sys2Proof.Machine.execBlockReset m mask token s
  | .drainSlot m slot => Sys2Proof.Machine.execDrainSlot m slot s
  | .drainModule m => Sys2Proof.Machine.execDrainModule m s
  | .fwWrite m bank off data => Sys2Proof.Machine.execFwWrite m bank off data s
  | .fwCommit m bank prefer => Sys2Proof.Machine.execFwCommit m bank prefer s
  | .licence m op slot record => Sys2Proof.Machine.execLicence m op slot record s
  | .repairAdd m die record => Sys2Proof.Machine.execRepairAdd m die record s
  | .keySet m slot rights key => Sys2Proof.Machine.execKeySet m slot rights key s
  | .logRead m log first count => Sys2Proof.Machine.execLogRead m log first count s
  | .collectors m entries interval => Sys2Proof.Machine.execCollectors m entries interval s
  | .netSet mport addr mask gateway => Sys2Proof.Machine.execNetSet mport addr mask gateway s
  | .setEndpointId eid => Sys2Proof.Machine.execSetEndpointId eid s
  | .pldmFirmwareUpdate bank off data commit => Sys2Proof.Machine.execPldmFirmwareUpdate bank off data commit s
  | .bypass => Sys2Proof.Machine.execBypass s
  | .idcode => Sys2Proof.Machine.execIdcode s
  | .samplePreload => Sys2Proof.Machine.execSamplePreload s
  | .authChallenge nonce => Sys2Proof.Machine.execAuthChallenge nonce s
  | .authResponse level slot key sig => Sys2Proof.Machine.execAuthResponse level slot key sig s
  | .authStatus => Sys2Proof.Machine.execAuthStatus s
  | .mem off write view data env => Sys2Proof.Machine.execMem off write view data env s
  | .clearFlag => Sys2Proof.Machine.execClearFlag s
  | .debugSessionClose => Sys2Proof.Machine.execDebugSessionClose s
  | .manifestArm via => Sys2Proof.Machine.execManifestArm via s
  | .manifestCancel via => Sys2Proof.Machine.execManifestCancel via s
  | .manifestLatch => Sys2Proof.Machine.execManifestLatch s
  | .waybillArm via => Sys2Proof.Machine.execWaybillArm via s
  | .waybillStop via => Sys2Proof.Machine.execWaybillStop via s
  | .waybillForce via => Sys2Proof.Machine.execWaybillForce via s
  | .waybillEntryCommit => Sys2Proof.Machine.execWaybillEntryCommit s
  | .waybillCopyComplete => Sys2Proof.Machine.execWaybillCopyComplete s
  | .standbyDomainPowerLoss => Sys2Proof.Machine.execStandbyDomainPowerLoss s
  | .closeAckTimeout slot => Sys2Proof.Machine.execCloseAckTimeout slot s
  | .jobUnloadComplete slot tests => Sys2Proof.Machine.execJobUnloadComplete slot tests s
  | .seekPauseEnd port => Sys2Proof.Machine.execSeekPauseEnd port s
  | .phyretrainComplete stack ok => Sys2Proof.Machine.execPhyretrainComplete stack ok s
  | .repairBurnComplete bad => Sys2Proof.Machine.execRepairBurnComplete bad s
  | .licenceCommandComplete => Sys2Proof.Machine.execLicenceCommandComplete s
  | .registerRead via off size => Sys2Proof.Machine.execRegisterRead via off size s
  | .numvfsWrite n => Sys2Proof.Machine.execNumvfsWrite n s

end Sys2Proof.Machine
end

