-- ==== Sys2Proof/Safety.lean ====
section
/-! DEFINITION. What claims call a safe state: every byte memory and every keyed part of the state that
claims speak of is in canonical form, so that equal contents are equal data. -/

namespace Sys2Proof

/-- A byte memory is in canonical form: addresses strictly rising, no listed byte equal to 0, what an
unlisted address reads as (log entry 5). -/
abbrev Memory.wf (m : Machine.Mem) : Prop := AMap.wf (0 : Byte) m = true

/-- The module's two large memories are in canonical form: the Coachhouse and the host's memory. -/
def MemSafe (s : Machine.State) : Prop := Memory.wf s.chsMem ∧ Memory.wf s.hostMem

/-- The keys of a map rise strictly, so that no key is listed twice. -/
abbrev KeysRise {α : Type} (m : AMap α) : Prop := (m.map fun p => p.1).Pairwise (· < ·)

/-- What every step keeps: both memories are in canonical form, and no cluster is listed twice. -/
structure Sound (s : Machine.State) : Prop where
  mem : MemSafe s
  clusters : KeysRise s.clusters

/-- Every lane SRAM of a cluster is in canonical form. -/
def ClusterSafe (c : Machine.Cluster) : Prop := ∀ l, Memory.wf (c.lane l).sram

/-- A step goes on: it ends in a next state. -/
def Goes (s : Machine.State) : Prop := ∃ t, Machine.step s = .next t

/-! ### What statements about commands speak of -/

/-- The command answers a next state of which P holds. -/
def Answers (c : Instr) (s : Machine.State) (P : Machine.State → Prop) : Prop :=
  ∃ t, Machine.exec c s = .next t ∧ P t

/-- A keyed part of the state takes a value at one key, and no other key's value changes. -/
def Sets {α : Type} (f g : Nat → α) (k : Nat) (v : α) : Prop := g k = v ∧ ∀ j, j ≠ k → g j = f j

/-- The cluster of a slot can issue (R81, R106): its job is Running, END has not parked it, nothing holds issue. -/
def Issues (s : Machine.State) (i : Issue) : Prop := s.canIssue i.cluster.toNat = true

/-- What a slot sees when it issues: its cluster, the cluster's number and the lane mask (R87). -/
def slotOf (s : Machine.State) (i : Issue) : Machine.Slot where
  g := i.cluster.toNat
  i := i
  c := s.cluster i.cluster.toNat
  mask := (s.cluster i.cluster.toNat).laneMask i

/-- No field of the state but the clusters, the jobs, the events, the pair's note of evidence and the poison counters
differs: what a slot leaves alone. -/
structure SlotOnly (s t : Machine.State) : Prop where
  rest : t = { s with clusters := t.clusters, jobs := t.jobs, ev := t.ev, pair := t.pair, regs := t.regs }
  regs : ∀ a, a ≠ Machine.Reg.EVT_POISON → t.reg a = s.reg a

/-- The heads that a slot names, each queue once (R114): two operands on one queue consume its head where either does. -/
def namedOnce : List Machine.Naming → List Machine.Naming
  | [a, b] => if a.q = b.q then [{ a with take := a.take || b.take }] else [a, b]
  | ns => ns

/-- The head of a queue is poisoned. -/
def headPoisoned (c : Machine.Cluster) (q : Nat) : Bool :=
  match (c.queue q).entries with
  | [] => false
  | e :: _ => e.poison

/-- What a naming adds to the record of consumed heads (R88, R114, R464): the queue's code plus 16 where an acting slot
finds poison at the head in h, and the queue's code where the naming consumes. -/
def noteHead (h : Machine.Cluster) (acts : Bool) (c : Machine.Cluster) (n : Machine.Naming) : Machine.Cluster :=
  let c := if acts && headPoisoned h n.q then c.note (n.q + 16) else c
  if n.take then c.note n.q else c

/-- What a slot that issues in a cluster leaves of it before its own effect: its issue, and the heads it names, in the
record of consumption. -/
def namedBy (acts : Bool) (ns : List Machine.Naming) (c : Machine.Cluster) : Machine.Cluster :=
  (namedOnce ns).foldl (noteHead c acts) c.begun

/-- Every queue that a slot names holds an entry, and an acting slot finds no poison there. -/
def HeadsReady (c : Machine.Cluster) (acts : Bool) (ns : List Machine.Naming) : Prop :=
  ∀ n ∈ ns, (c.queue n.q).entries ≠ [] ∧ (acts = true → headPoisoned c n.q = false)

/-- No field of the state but the clusters differs. -/
def ClustersOnly (s t : Machine.State) : Prop := t = { s with clusters := t.clusters }

/-- A slot that changes its cluster by f, once the heads `ns` that it names stand in the record of consumption; `acts` is
whether it acts on them. Every other cluster and the rest of the state are as before; a slot that finds its heads ready
and meets no fault of its own (`calm`) leaves jobs, events and the pair alone too. -/
structure SlotChanges (g : Nat) (s t : Machine.State) (acts : Bool) (ns : List Machine.Naming)
    (f : Machine.Cluster → Machine.Cluster) (calm : Prop := True) : Prop where
  cluster : t.cluster g = f (namedBy acts ns (s.cluster g))
  others : ∀ h, h ≠ g → t.cluster h = s.cluster h
  only : SlotOnly s t
  quiet : calm → HeadsReady (s.cluster g) acts ns → ClustersOnly s t

/-- A cluster into whose pipeline results enter. -/
def entered (ls : List Machine.Landing) (c : Machine.Cluster) : Machine.Cluster := { c with pend := c.pend ++ ls }

/-- A slot that only enters results into the pipeline of cluster g. -/
abbrev SlotLands (g : Nat) (s t : Machine.State) (acts : Bool) (ns : List Machine.Naming) (ls : List Machine.Landing)
    (calm : Prop := True) : Prop :=
  SlotChanges g s t acts ns (entered ls) calm

/-- No field of the state but the Waybill and its counters differs: what the probes may note of a command (R492). -/
structure ProbesOnly (s t : Machine.State) : Prop where
  rest : t = { s with way := t.way, regs := t.regs }
  regs : ∀ a, a ≠ Machine.Reg.WAY_COUNTS → t.reg a = s.reg a

/-- One more event waits at its source, of a class and a cause (R453, R454). -/
def Logged (s t : Machine.State) (cls cause : Nat) : Prop :=
  ∃ r, t.ev.atSource = s.ev.atSource ++ [r] ∧ r.cls.toNat = cls ∧ r.cause.toNat = cause

/-- A counter field of a register is one higher, saturating at its width. -/
def Counts (s t : Machine.State) (reg lo w : Nat) : Prop :=
  t.field reg lo w = min (s.field reg lo w + 1) (2 ^ w - 1)

/-- No field of the state but the module's registers differs. -/
structure RegsOnly (s t : Machine.State) : Prop where
  rest : t = { s with regs := t.regs }

/-- P holds of the state but for what the probes noted. -/
def Noted (P : Machine.State → Prop) (t : Machine.State) : Prop := ∃ u, P u ∧ ProbesOnly u t

/-- P holds of the state but for the messages of sensors that crossed a threshold (R486). -/
def Watched (P : Machine.State → Prop) (t : Machine.State) : Prop :=
  ∃ u, P u ∧ t = { u with sent := t.sent, mgmt := t.mgmt }

/-- What a cold reset leaves (R402, R405, R412): RST_CAUSE names its source and scope 5, and nothing runs. -/
structure ColdBy (t : Machine.State) (source : Nat) : Prop where
  cause : t.field Machine.Reg.RST_CAUSE 0 8 = source + 2 ^ 5 * 5
  scope : t.bru.resetScope = 5#3
  jobs : t.jobs = []
  clusters : t.clusters = []
  rings : t.rings = []
  streams : t.streams = []
  lines : t.chsMem = []
  master : t.ms = 0

/-- What a warm reset leaves (R402, R405, R406, R412): RST_CAUSE names its source and scope 4, every slot is free with its
generation kept, nothing of a job runs, and BRU_STATUS shows step 2 complete. -/
structure WarmBy (s t : Machine.State) (source : Nat) : Prop where
  cause : t.field Machine.Reg.RST_CAUSE 0 8 = source + 2 ^ 5 * 4
  jobs : ∀ k, (t.job k).st = .free ∧ (t.job k).gen = (s.job k).gen
  clusters : ∀ g, (t.cluster g).prog = [] ∧ (t.cluster g).queues = []
  strips : t.strips = []
  streams : t.streams = []
  step : t.field Machine.Reg.BRU_STATUS 0 4 = 2 ∧ t.field Machine.Reg.BRU_STATUS 18 1 = 1
  lines : s.pairActive = false → t.chsMem = s.chsMem

/-- A cold reset is accepted here and completes alone: none is in progress, and no start is open that it would fail
(R409, R410). -/
def ColdFree (s : Machine.State) : Prop := s.absorbs 5 = false ∧ s.bru.startOpen = false

/-- Where the Ostler runs, nothing is on its way to the log, no limit has begun to count and no pair is told, a reset has put
a record of a class and cause into the log before it took effect (R413). -/
def Told (s t : Machine.State) (cls cause : Nat) : Prop :=
  s.ev.ostlerDown = false → s.ev.arrived = [] → s.ev.atSource = [] → s.ev.counts = [] → s.pairActive = false →
    ∃ r ∈ t.ev.log, r.cls.toNat = cls ∧ r.cause.toNat = cause

/-- A slot command that holds no reserved operand and nothing its cluster's kind lacks (R86-R104), in a cluster that can
issue, answers a next state of which P holds. -/
def SlotRuns (c : Instr) (i : Issue) (s : Machine.State) (P : Machine.State → Prop) : Prop :=
  Machine.legal c = true → Issues s i → Answers c s P

/-- Results that land together after some beats, behind the mark that keeps the slot's place for the drain (R85). -/
def together (beats : Nat) (ts : List Machine.Target) : List Machine.Landing :=
  Machine.drainMark beats :: ts.map fun t => ⟨beats, t⟩

/-- What an element operation on va, vb and the old vd writes in the active lanes (R98, R99). -/
def elementTargets (x : Machine.Slot) (o : VOps) (f : BitVec 32 → BitVec 32 → BitVec 32 → BitVec 32) :
    List Machine.Target :=
  x.lanes.flatMap fun l =>
    Machine.vregTargets l o.vd.toNat
      ((((x.c.elems (Machine.kindOf x.g) l o.va.toNat).zip (x.c.elems (Machine.kindOf x.g) l o.vb.toNat)).zip
        (x.c.elems (Machine.kindOf x.g) l o.vd.toNat)).map fun p => f p.1.1 p.1.2 p.2)

/-- What an element operation on va alone writes in the active lanes (R98, R99). -/
def elementTargets1 (x : Machine.Slot) (vd : BitVec 5) (va : BitVec 6) (f : BitVec 32 → BitVec 32) : List Machine.Target :=
  x.lanes.flatMap fun l =>
    Machine.vregTargets l vd.toNat ((x.c.elems (Machine.kindOf x.g) l va.toNat).map f)

/-- One register of each active lane. -/
def laneTargets (x : Machine.Slot) (vd : BitVec 5) (f : Nat → BitVec 512) : List Machine.Target :=
  x.lanes.map fun l => .vreg l vd.toNat (f l)

/-- No word that some reads of lane SRAM touch holds an error that the code cannot correct (R113). -/
def Readable (x : Machine.Slot) (lanes : List Nat) (spans : Nat → List (Nat × Nat)) : Prop :=
  ∀ l ∈ lanes, ∀ p ∈ spans l, ((x.c.lane l).errors p.1 p.2).2 = 0

/-- The errors that some reads of lane SRAM correct (R113). -/
def correctedIn (x : Machine.Slot) (lanes : List Nat) (spans : Nat → List (Nat × Nat)) : Nat :=
  (lanes.map fun l => ((spans l).map fun p => ((x.c.lane l).errors p.1 p.2).1).sum).sum

/-- A cluster that reads SRAM and enters results: the corrected errors are counted. -/
def readLands (ones : Nat) (ls : List Machine.Landing) (c : Machine.Cluster) : Machine.Cluster :=
  { c with corrected := c.corrected + BitVec.ofNat 32 ones, pend := c.pend ++ ls }

/-- A transfer of n bytes that every acting lane may make (R110, R111). -/
def TransferOk (x : Machine.Slot) (lanes : List Nat) (a n maxUnder : Nat) : Prop :=
  ∃ u, Machine.sramSpan (Machine.kindOf x.g) a n = some u ∧ (u = true → n ≤ maxUnder ∨ lanes = [])

/-- The post-increment of a base register, where the slot asks for it (R102). -/
def postLanding (x : Machine.Slot) (inc : Bool) (sb : BitVec 5) (n : Nat) : List Machine.Landing :=
  if inc then [⟨1, .sreg sb.toNat (BitVec.allOnes 64) (x.c.sreg sb.toNat + BitVec.ofNat 64 n)⟩] else []

/-- A cluster with one more entry in an injection buffer (R129). -/
def injected (net : Nat) (data : BitVec 512) (wait : Nat) (c : Machine.Cluster) : Machine.Cluster :=
  let b := AMap.get [] c.inj net
  { c with inj := AMap.set [] c.inj net (b ++ [{ entry := { data := data, poison := false }, wait := wait }]) }

/-- Results of a Q slot, where it executes (R87). -/
def whenExecutes (x : Machine.Slot) (ls : List Machine.Landing) : List Machine.Landing :=
  if Machine.qExecutes x.i x.mask then ls else []

/-! ### Descriptors -/

/-- The state in which a descriptor of a ring has started (R261). -/
def started (s : Machine.State) (rn : Nat) (d : Machine.Desc) : Machine.State :=
  s.setRing rn { s.ring rn with
    descs := (s.ring rn).descs.map fun x => if x.idx = d.idx then { x with phase := .started } else x }

/-- A descriptor by its ring and index. -/
def refOf (rn : Nat) (d : Machine.Desc) : Machine.DescRef := { ring := BitVec.ofNat 16 rn, idx := d.idx }

/-- P holds of a state after which the ring retires what is done and passes over the reserved opcodes that come next
(R261, R264): what a descriptor's end leaves of its own ring. -/
def Settled (rn : Nat) (P : Machine.State → Prop) (t : Machine.State) : Prop := ∃ v, P v ∧ t = v.settleRing rn

/-- The ring starts this descriptor next, its opcode is `op` and is one for the ring's kind, and no reserved bit is set
(R260, R261, R264, R265). -/
structure Starts (s : Machine.State) (rn op : Nat) (d : Machine.Desc) : Prop where
  next : (s.ring rn).next = some d
  opcode : d.opcode = op
  kind : op = 0 ∨ ((s.ring rn).loc = 0 ↔ op ≤ 4)
  clean : ∀ p ∈ d.reservedTests, p.2 = false

/-- A job command of a ring starts, by a function that may use the slot its current tag names, with the module in service
(R268, R273, R275, R291). -/
structure Commands (s : Machine.State) (rn op : Nat) (d : Machine.Desc) : Prop where
  starts : Starts s rn op d
  service : 2 ≤ s.service
  may : s.mayUse (s.ring rn).fn.toNat (d.num 16 2 % 64) = true
  current : (s.job (d.num 16 2 % 64)).current (d.num 16 2) = true

end Sys2Proof
end

