-- ==== Sys2Proof/Certificates/Slice0/Obligations.lean ====
section
/-! DEFINITION. The statements for the provers, chapter by chapter: what each command does where the manual says
that it acts, and what every step keeps. Decoding, the encoder and the program counter of a processor have no
counterpart in this block. -/

open Sys2Proof Sys2Proof.Machine

/-- A step runs the command at the front of the queue with the queue's rest. -/
def Obligations.StepRunsFront : Prop :=
  ∀ (c : Instr) (rest : List Instr) (s : State), step { s with pending := c :: rest } = exec c { s with pending := rest }

/-- A step on an empty queue idles for a nanosecond (log entry 2, the model's choice): the standby clock counts one, and
the Milestone one while the clock runs; once in 1,024 ns a follower that is ahead of its leader holds the count and one
that is behind doubles it (R397, R398). -/
def Obligations.EmptyQueueIdles : Prop :=
  ∀ s : State, s.pending = [] → step s = .next s.idle ∧ s.idle.up = s.up + 1 ∧
    (s.clock.running = false → s.idle.ms = s.ms ∧ s.idle.msOff = s.msOff) ∧
    (s.clock.running = true →
      s.idle.ms = s.ms + (if s.up % 1024 = 0 ∧ 0 < s.msOff then 0 else if s.up % 1024 = 0 ∧ s.msOff < 0 then 2 else 1) ∧
      s.idle.msOff + s.ms + 1 = s.msOff + s.idle.ms)

/-- Element operations on three registers (R71, R82, R87, R88, R98, R99, R114): in every cluster that can issue, the
results of the operation on va, vb and the old vd land in vd of the active lanes after the beats of R82; the record of
consumption takes the heads that va and vb name and no other; and nothing else changes, but that a named queue that is
empty, or poison at a head on which the slot acts, faults. -/
def Obligations.VectorArithmetic : Prop :=
  ∀ (i : Issue) (o : VOps) (s : State),
    let lands (c : Instr) (beats : Nat) (f : BitVec 32 → BitVec 32 → BitVec 32 → BitVec 32) : Prop :=
      SlotRuns c i s fun t =>
        SlotLands i.cluster.toNat s t (slotOf s i).acts (namesV o.va.toNat ++ namesV o.vb.toNat)
          (together beats (elementTargets (slotOf s i) o f))
    lands (.fadd i o) 4 (fun a b _ => f32Add a b) ∧
    lands (.fsub i o) 4 (fun a b _ => f32Sub a b) ∧
    lands (.fmul i o) 4 (fun a b _ => f32Mul a b) ∧
    lands (.fma i o) 4 (fun a b d => f32Fma a b d) ∧
    lands (.fmin i o) 4 (fun a b _ => f32Min a b) ∧
    lands (.fmax i o) 4 (fun a b _ => f32Max a b) ∧
    lands (.iadd i o) 1 (fun a b _ => a + b) ∧
    lands (.isub i o) 1 (fun a b _ => a - b) ∧
    lands (.vand i o) 1 (fun a b _ => a &&& b) ∧
    lands (.vor i o) 1 (fun a b _ => a ||| b) ∧
    lands (.vxor i o) 1 (fun a b _ => a ^^^ b)

/-- Vector operations on one source, moves, and the empty V slot (R72, R82, R88, R98, R114): what lands, and when, and the
heads that each names. -/
def Obligations.VectorMoves : Prop :=
  ∀ (i : Issue) (vd : BitVec 5) (va vb : BitVec 6) (n5 : BitVec 5) (n4 : BitVec 4) (fn : BitVec 3) (sb : Bool) (s : State),
    let x := slotOf s i
    let lands (c : Instr) (ns : List Naming) (ls : List Landing) : Prop :=
      SlotRuns c i s fun t => SlotLands i.cluster.toNat s t x.acts ns ls
    let na := namesV va.toNat
    lands (.vnop i) [] [] ∧
    lands (.shl i vd va n5) na (together 1 (elementTargets1 x vd va fun a => a <<< n5.toNat)) ∧
    lands (.shr i vd va n5) na (together 1 (elementTargets1 x vd va fun a => a >>> n5.toNat)) ∧
    lands (.sfu i vd va fn) na (together 9 (elementTargets1 x vd va (sfuResult fn.toNat))) ∧
    lands (.mov i vd va) na (together 1 (laneTargets x vd fun l => x.c.vop l va.toNat)) ∧
    lands (.bcast i vd va n4) na (together 1 (laneTargets x vd fun l =>
      ofElements (List.replicate 16 (element (x.c.vop l va.toNat) n4.toNat)))) ∧
    lands (.lanex i vd va n4) na (together 2 (laneTargets x vd fun _ => x.c.vop n4.toNat va.toNat)) ∧
    lands (.vfroms i vd vb) (namesS vb.toNat) (together 1 (laneTargets x vd fun _ =>
      ofElements (List.replicate 16 ((x.c.sop x.g vb.toNat).setWidth 32)))) ∧
    lands (.scale i va sb) na (together 1 (x.lanes.map fun l =>
      if sb then .scaleB l ((x.c.vop l va.toNat).extractLsb' 0 256)
      else .scaleA l ((x.c.vop l va.toNat).extractLsb' 0 64)))

/-- FCMP (R98): bit l of pd, in the active lanes only, is the reduction of the comparisons of lane l's elements. -/
def Obligations.VectorCompare : Prop :=
  ∀ (i : Issue) (va vb : BitVec 6) (pd cond : BitVec 3) (red : BitVec 2) (s : State),
    let x := slotOf s i
    SlotRuns (.fcmp i va vb pd cond red) i s fun t =>
      ∃ v : BitVec 16, SlotLands i.cluster.toNat s t x.acts (namesV va.toNat ++ namesV vb.toNat) (together 4 [.pred pd.toNat x.mask v]) ∧
        ∀ l, v.getLsbD l = (x.mask.getLsbD l && fcmpReduce red.toNat
          (((x.c.elems (kindOf x.g) l va.toNat).zip (x.c.elems (kindOf x.g) l vb.toNat)).map fun p =>
            fcmpHolds cond.toNat p.1 p.2))

/-- CVT (R58, R88, R100): the elements of va in a format, rounded under entry idx of the conversion table; the
stochastic-rounding generator steps once where the entry asks for stochastic rounding, whatever the lane mask. -/
def Obligations.VectorConvert : Prop :=
  ∀ (i : Issue) (vd : BitVec 5) (va : BitVec 6) (idx fmt : BitVec 4) (s : State),
    let x := slotOf s i
    let r := rctlOf (x.c.cvt.getD idx.toNat 0#20)
    let g := if r.rnd = 4 then srStep x.c.sr else 0#32
    SlotRuns (.cvt i vd va idx fmt) i s fun t =>
      SlotChanges i.cluster.toNat s t x.acts (namesV va.toNat) fun c =>
        { c with
          sr := if r.rnd = 4 then srStep c.sr else c.sr
          pend := c.pend ++ together 3 (x.lanes.flatMap fun l =>
            cvtTargets (kindOf x.g) l vd.toNat r (fun n => (srWord g (l * 32 + n)).toNat)
              (cvtSource x.c (kindOf x.g) l va.toNat fmt.toNat r.blk)) }

/-- PWT (R73, R74): where the table's words hold no uncorrectable error, each element takes the piece that its input
selects, and the corrected errors are counted (R113). That a NaN input reads entry 0, and that the count wraps at 32
bits, are the model's choices (log entry 158). -/
def Obligations.VectorTable : Prop :=
  ∀ (i : Issue) (vd : BitVec 5) (va vb : BitVec 6) (s : State),
    let x := slotOf s i
    let desc := x.c.sop x.g vb.toNat
    let spans (l : Nat) : List (Nat × Nat) := (x.c.elems .f l va.toNat).map fun e =>
      (pwtAddr (desc.extractLsb' 40 2).toNat (match pwtIndex desc e with
        | some (n, _) => n
        | none => 0), 8)
    Readable x x.lanes spans →
    SlotRuns (.pwt i vd va vb) i s fun t =>
      SlotChanges i.cluster.toNat s t x.acts (namesS vb.toNat) (readLands (correctedIn x x.lanes spans)
        (together 5 (x.lanes.flatMap fun l =>
          vregTargets l vd.toNat ((x.c.elems .f l va.toNat).map (pwtElement (x.c.lane l) desc)))))

/-- A product that enters a Ledger's sum (R44): finite and not zero. -/
def nonZero (p : Exact × Int) : Prop := ∃ neg m e, p.1 = .fin neg m e ∧ m ≠ 0

/-- The least combined scale of the products that enter the sum (R44, R47). -/
def leastScale (ps : List (Exact × Int)) (S : Int) : Prop :=
  (∃ p ∈ ps, nonZero p ∧ p.2 = S) ∧ ∀ p ∈ ps, nonZero p → S ≤ p.2

/-- A product in units of 2^(S - 64), exactly, with its combined scale (R44). -/
def exactTerm (S : Int) (p : Exact × Int) : Int :=
  match p.1 with
  | .fin neg m e => (if neg then (-1 : Int) else 1) * (m * 2 ^ (64 + e + (p.2 - S)).toNat : Nat)
  | _ => 0

/-- A product in units of 2^(W - 64), its magnitude truncated (R48). -/
def windowTerm (W : Int) (p : Exact × Int) : Int :=
  match p.1 with
  | .fin neg m e => (if neg then (-1 : Int) else 1) * (m * 2 ^ (64 + e - W).toNat / 2 ^ (W - 64 - e).toNat : Nat)
  | _ => 0

/-- The engine's empty slot, products, clears and slices (R42, R43, R67, R91-R97): the Ledgers of the named engines in
the active lanes take their new values at the end of the beat. The sum itself (R44-R48, R62): while range is clear, an
exact Ledger holds the exact sum of its products at their least scale, a window Ledger the sum of its truncated products,
whatever their order; and the residue always agrees. An ESLICE leaves a Ledger that is not in slice mode as it is, which
is the model's choice (log entry 121). -/
def Obligations.EngineAccumulate : Prop :=
  ∀ (i : Issue) (o : EmacOps) (emask : BitVec 8) (mode : BitVec 2) (w : BitVec 10) (elast sstep : BitVec 3)
      (srcA srcB : BitVec 6) (s : State),
    let x := slotOf s i
    let lands (c : Instr) (ns : List Naming) (ls : List Landing) (calm : Prop) : Prop :=
      SlotRuns c i s fun t => SlotLands i.cluster.toNat s t x.acts ns ls calm
    let nab := namesV o.srcA.toNat ++ namesV o.srcB.toNat
    let all (last : Nat) (p : Ledger → Prop) : Prop := ∀ l ∈ x.lanes, ∀ e ≤ last, ∀ r ∈ (x.c.lane l).ledgers e, p r
    let fits : Prop := all o.elast.toNat fun r => r.modeFits (o.fmtA == 7#4) = true
    lands (.enop i) [] [] True ∧
    lands (.emac i o) nab (x.lanes.flatMap fun l => (List.range (o.elast.toNat + 1)).map fun e =>
      ⟨1, .ledgers l e (((x.c.lane l).ledgers e).zipIdx.map fun p =>
        emacLedger o (x.c.lane l) (x.c.vop l o.srcA.toNat) (x.c.vop l o.srcB.toNat) e p.2 p.1)⟩) fits ∧
    lands (.emacc i o) nab (x.lanes.flatMap fun l => (List.range (o.elast.toNat + 1)).map fun e =>
      ⟨1, .ledgers l e (((x.c.lane l).ledgers e).zipIdx.map fun p =>
        emacLedger o (x.c.lane l) (x.c.vop l o.srcA.toNat) (x.c.vop l o.srcB.toNat) e p.2 p.1.clearHeld)⟩) fits ∧
    lands (.eclr i emask mode w) [] (x.lanes.flatMap fun l =>
      ((List.range 8).filter fun e => emask.getLsbD e).map fun e =>
        ⟨1, .ledgers l e (((x.c.lane l).ledgers e).map (·.clear mode.toNat w.toInt))⟩) True ∧
    lands (.eslice i elast sstep srcA srcB) (namesV srcA.toNat ++ namesV srcB.toNat) (x.lanes.flatMap fun l => (List.range (elast.toNat + 1)).map fun e =>
      ⟨1, .ledgers l e (((x.c.lane l).ledgers e).zipIdx.map fun p =>
        if p.1.mode = 3 then
          p.1.sliceStep (p.2 % 4) sstep.toNat ((x.c.vop l srcA.toNat).extractLsb' (64 * e) 64)
            ((x.c.vop l srcB.toNat).extractLsb' (64 * (p.2 / 4)) 64)
        else p.1)⟩) (all elast.toNat fun r => r.mode = 3) ∧
    (∀ (r : Ledger) (ps qs : List (Exact × Int)) (m : Nat) (E : Int), m < 2 →
      (∀ p ∈ ps, ∃ neg n e, p.1 = .fin neg n e ∧ (m = 0 → -64 ≤ e)) →
      let sum (ps : List (Exact × Int)) : Ledger := ps.foldl (fun y p => y.addProduct p.1 p.2) (r.clear m E)
      (sum ps).residueOk = true ∧
      ((sum ps).flag 6 = false → m = 0 → ∀ S, leastScale ps S → (sum ps).e = S ∧ (sum ps).value = (ps.map (exactTerm S)).sum) ∧
      ((sum ps).flag 6 = false → m = 1 → (sum ps).e = E ∧ (sum ps).value = (ps.map (windowTerm E)).sum) ∧
      (ps.Perm qs → (sum ps).flag 6 = false → (sum qs).flag 6 = false →
        (sum qs).l = (sum ps).l ∧ (sum qs).e = (sum ps).e ∧ (sum qs).residue = (sum ps).residue))

/-- ERD (R43, R53-R59, R63, R65, R82): the readout of one Ledger register in the active lanes lands after 4 beats, 8 in
format 0xA; the Ledgers change at the end of the beat; the generator steps for stochastic rounding. What a readout of an
exact Ledger rounds is the exact sum of its products (R47, R51, R54); and the four Ledgers of a slice group, each step of
each term issued once, recombine to the exact sum of the products of the significands (R66, R67, R69). -/
def Obligations.EngineRead : Prop :=
  ∀ (i : Issue) (acc : BitVec 3) (vd : BitVec 5) (rctl : BitVec 20) (s : State),
    let x := slotOf s i
    let r := rctlOf rctl
    let g := if r.rnd = 4 then srStep x.c.sr else 0#32
    let beats := if r.fmt = 0xA then 8 else 4
    let out (l : Nat) := readLane r (fun j => (srWord g (l * 32 + j)).toNat) (x.c.badRounders l acc.toNat)
      ((x.c.lane l).ledgers acc.toNat)
    (SlotRuns (.erd i acc vd rctl) i s fun t =>
      SlotChanges i.cluster.toNat s t x.acts [] (fun c =>
        { c with
          sr := if r.rnd = 4 then srStep c.sr else c.sr
          pend := c.pend ++ drainMark beats :: x.lanes.flatMap fun l =>
            ⟨1, .ledgers l acc.toNat (out l).1⟩ :: (out l).2.1.zipIdx.map fun p => ⟨beats, .vreg l (vd.toNat + p.2) p.1⟩ })
        (∀ l ∈ x.lanes, (out l).2.2 = [])) ∧
    (∀ (y : Ledger) (ps : List (Exact × Int)) (S : Int) (sr : Nat), (∀ p ∈ ps, ∃ neg n e, p.1 = .fin neg n e ∧ -64 ≤ e) →
      leastScale ps S →
      let held := ps.foldl (fun y p => y.addProduct p.1 p.2) (y.clear 0 0)
      let sum := (ps.map (exactTerm S)).sum
      held.flag 6 = false → sum ≠ 0 →
        held.readElement r sr = roundCode r.fmt r.rnd r.sat sr ((Exact.fin (decide (sum < 0)) sum.natAbs (S - 64)).scale r.shift)) ∧
    (∀ (y : Ledger) (ts : List (BitVec 64 × BitVec 64)) (u : Int),
      (∀ p ∈ ts, p.1.extractLsb' 52 11 ≠ 0x7FF#11 ∧ p.2.extractLsb' 52 11 ≠ 0x7FF#11) →
      let held (q : Nat) : Ledger :=
        ts.foldl (fun x p => (List.range 7).foldl (fun x n => x.sliceStep q n p.1 p.2) x) (y.clear 3 0)
      (∀ q < 4, (held q).flag 6 = false) → sliceExp (held 0) (held 1) (held 2) (held 3) = some u →
        sliceSum (held 0) (held 1) (held 2) (held 3) u = (ts.map fun p =>
          (if p.1.msb = p.2.msb then (1 : Int) else -1) * ((sliceOperand p.1).1 * (sliceOperand p.2).1 : Nat) *
            (2 ^ ((sliceOperand p.1).2 + (sliceOperand p.2).2 - u).toNat : Nat)).sum)

/-- Loads and stores of vector and scalar registers (R82, R88, R102, R110, R111, R113): a transfer that the active lanes
may make, of words that hold no uncorrectable error, reads or writes lane SRAM at the address that the base register
and the offset give; the base steps where asked whatever the lane mask. A load with no active lane still holds its place
for the drain (log entry 24, the model's choice), and the count of corrected errors wraps at 32 bits (log entry 158). -/
def Obligations.MemoryTransfers : Prop :=
  ∀ (i : Issue) (o : MemOps) (q : SMemOps) (s : State),
    let x := slotOf s i
    let cnt := o.cntM1.toNat + 1
    let a := x.c.ea o.sb o.off 64
    let b := x.c.ea q.sb q.off 8
    let ls := if x.mask.getLsbD q.lane.toNat then [q.lane.toNat] else []
    (SlotRuns (.mnop i) i s fun t => SlotLands i.cluster.toNat s t x.acts [] []) ∧
    (TransferOk x x.lanes a (64 * cnt) 128 → Readable x x.lanes (fun _ => [(a, 64 * cnt)]) →
      SlotRuns (.vld i o) i s fun t =>
        SlotChanges i.cluster.toNat s t x.acts [] (readLands (correctedIn x x.lanes fun _ => [(a, 64 * cnt)])
          (postLanding x o.inc o.sb (64 * cnt) ++
            together (if isUnder (kindOf x.g) a then 6 else 2) (x.lanes.flatMap fun l => (List.range cnt).map fun k =>
              .vreg l (o.reg.toNat + k) (BitVec.ofNat 512 (readLe (x.c.lane l).sram (a + 64 * k) 64)))))) ∧
    (TransferOk x x.lanes a (64 * cnt) 128 →
      SlotRuns (.vst i o) i s fun t =>
        SlotLands i.cluster.toNat s t x.acts [] (postLanding x o.inc o.sb (64 * cnt) ++ x.lanes.map fun l =>
          ⟨1, .mem l a ((List.range cnt).flatMap fun k => regBytes ((x.c.lane l).vreg (o.reg.toNat + k)))⟩)) ∧
    (TransferOk x ls b 8 8 → Readable x ls (fun _ => [(b, 8)]) →
      SlotRuns (.sld i q) i s fun t =>
        SlotChanges i.cluster.toNat s t x.acts [] (readLands (correctedIn x ls fun _ => [(b, 8)])
          (together (if isUnder (kindOf x.g) b then 6 else 2) (ls.map fun l =>
            .sreg q.reg.toNat (BitVec.allOnes 64) (BitVec.ofNat 64 (readLe (x.c.lane l).sram b 8)))))) ∧
    (TransferOk x ls b 8 8 →
      SlotRuns (.sst i q) i s fun t =>
        SlotLands i.cluster.toNat s t x.acts [] (ls.map fun l => ⟨1, .mem l b (natLe (x.c.sreg q.reg.toNat).toNat 8)⟩))

/-- A transfer that some active lane may not make (R110, R111, R118): no lane loads or stores, the execution fault 0x02
names the lowest active lane and the address, and the base still steps where asked. That one record names the lowest
lane, where R500 has every active lane raise the fault, is the model's choice (log entry 159), as is the place that the
load keeps for the drain (log entry 24). -/
def Obligations.MemoryAddressFault : Prop :=
  ∀ (i : Issue) (o : MemOps) (s : State),
    let x := slotOf s i
    let n := 64 * (o.cntM1.toNat + 1)
    let a := x.c.ea o.sb o.off 64
    let faults (t : State) : Prop := ∃ r, t.ev.atSource = s.ev.atSource ++ [r] ∧ r.cls = 0x01#8 ∧ r.cause = 0x02#8 ∧
      r.lane = BitVec.ofNat 8 (x.lanes.headD 0) ∧ r.p1 = BitVec.ofNat 64 a
    (sramSpan (kindOf x.g) a n = none ∨ (sramSpan (kindOf x.g) a n = some true ∧ 128 < n)) → x.mask ≠ 0#16 →
    SlotRuns (.vld i o) i s (fun t => faults t ∧ SlotLands i.cluster.toNat s t x.acts []
      (postLanding x o.inc o.sb n ++ together (if isUnder (kindOf x.g) a then 6 else 2) []) False) ∧
    SlotRuns (.vst i o) i s (fun t => faults t ∧ SlotLands i.cluster.toNat s t x.acts [] (postLanding x o.inc o.sb n) False)

/-- LSAVE and LREST (R60, R61, R63, R82): the 32 records of a Ledger register go to and come from lane SRAM; a Ledger
whose residue fails is marked, and its record stored so, which is the model's choice (log entry 155), as are the place
that an LREST with no active lane keeps for the drain (log entry 24) and the wrap of the corrected-error count at 32 bits
(log entry 158). -/
def Obligations.LedgerTransfers : Prop :=
  ∀ (i : Issue) (o : LMemOps) (s : State),
    let x := slotOf s i
    let a := x.c.ea o.sb o.off 64
    let beats := if isUnder (kindOf x.g) a then 8 else 4
    let marked (l : Nat) : List Ledger := ((x.c.lane l).ledgers o.acc.toNat).map fun r =>
      if r.residueOk then r else r.setFlag 13 true
    let bad (l : Nat) : List Nat := ((((x.c.lane l).ledgers o.acc.toNat).zipIdx.filter fun p => !p.1.residueOk).map (·.2))
    let stored (l j : Nat) : Ledger := Ledger.ofRecord (BitVec.ofNat 256 (readLe (x.c.lane l).sram (a + 32 * j) 32))
    TransferOk x x.lanes a 1024 1024 →
    (SlotRuns (.lsave i o) i s fun t =>
      SlotLands i.cluster.toNat s t x.acts [] (postLanding x o.inc o.sb 1024 ++
        together beats (x.lanes.map fun l => .mem l a ((marked l).flatMap fun r => natLe r.record.toNat 32)) ++
        (x.lanes.filter fun l => !(bad l).isEmpty).map fun l => ⟨1, .ledgerFault l o.acc.toNat (bad l)⟩)
        (∀ l ∈ x.lanes, bad l = []) ∧
      ∀ l ∈ x.lanes, (x.c.apply (.ledgerFault l o.acc.toNat (bad l))).lane l = (x.c.lane l).setLedgers o.acc.toNat (marked l)) ∧
    (Readable x x.lanes (fun _ => [(a, 1024)]) → SlotRuns (.lrest i o) i s fun t =>
      SlotChanges i.cluster.toNat s t x.acts [] (readLands (correctedIn x x.lanes fun _ => [(a, 1024)])
        (postLanding x o.inc o.sb 1024 ++ together beats (x.lanes.map fun l =>
          .ledgers l o.acc.toNat ((List.range 32).map (stored l)))))
        (∀ l ∈ x.lanes, ∀ j < 32, (stored l j).residueOk = true))

/-- SOUT and SIN (R88, R102, R113, R114, R130): SOUT injects 64 bytes of the named lane, 0 where that lane is off, its
corrected errors counted modulo 2^32 (log entry 158, the model's choice), and SIN stores the head of a vector queue,
which it consumes, in every active lane. -/
def Obligations.MemoryStreams : Prop :=
  ∀ (i : Issue) (lane : BitVec 4) (queue : BitVec 2) (sb : BitVec 5) (off : BitVec 10) (inc : Bool) (s : State),
    let x := slotOf s i
    let a := x.c.ea sb off 64
    let ls := if x.mask.getLsbD lane.toNat then [lane.toNat] else []
    (TransferOk x ls a 64 64 → Readable x ls (fun _ => [(a, 64)]) →
      SlotRuns (.sout i lane sb off inc) i s fun t =>
        SlotChanges i.cluster.toNat s t x.acts [] fun c =>
          injected 0 (if x.mask.getLsbD lane.toNat then BitVec.ofNat 512 (readLe (x.c.lane lane.toNat).sram a 64) else 0)
            (if isUnder (kindOf x.g) a then 6 else 2)
            (readLands (correctedIn x ls fun _ => [(a, 64)]) (postLanding x inc sb 64) c)) ∧
    (TransferOk x x.lanes a 64 64 →
      SlotRuns (.sin i queue sb off inc) i s fun t =>
        SlotLands i.cluster.toNat s t x.acts [⟨queue.toNat, 0x3F, true⟩] (postLanding x inc sb 64 ++ x.lanes.map fun l =>
          ⟨1, .mem l a (regBytes (x.c.head queue.toNat))⟩))

/-- Scalar and predicate operations of the Q slot (R82, R87, R88, R103, R104, R189): where the slot executes the result
lands after its beats, a multiply two beats later than the rest; where it does not, nothing lands. The heads that the
operands name are consumed either way (R88, R114). -/
def Obligations.ScalarOps : Prop :=
  ∀ (i : Issue) (fn : BitVec 4) (sd : BitVec 5) (sa sb cpl : BitVec 6) (imm8 : BitVec 8) (imm : BitVec 16) (hw pfn : BitVec 2)
      (pd pa pb cond : BitVec 3) (s : State),
    let x := slotOf s i
    let a := x.c.sop x.g sa.toNat
    let b := x.c.sop x.g sb.toNat
    let beats := if fn = 8#4 then 3 else 1
    let lands (c : Instr) (ns : List Naming) (ls : List Landing) : Prop :=
      SlotRuns c i s fun t => SlotLands i.cluster.toNat s t (qExecutes i x.mask) ns ls
    let preds (v : BitVec 16) : List Landing := whenExecutes x [⟨1, .pred pd.toNat 0xFFFF#16 v⟩]
    let na := namesS sa.toNat
    lands (.qnop i) [] [] ∧
    lands (.salu i fn sd sa sb) (na ++ namesS sb.toNat)
      (whenExecutes x [⟨beats, sregTarget sd (saluResult fn.toNat a b)⟩] ++ together beats []) ∧
    lands (.salui i fn sd sa imm8) na
      (whenExecutes x [⟨beats, sregTarget sd (saluResult fn.toNat a (imm8.signExtend 64))⟩] ++ together beats []) ∧
    lands (.sli i sd hw imm) [] (whenExecutes x [⟨1, .sreg sd.toNat
      (if hw = 0#2 then BitVec.allOnes 64 else 0xFFFF#64 <<< (16 * hw.toNat)) (imm.setWidth 64 <<< (16 * hw.toNat))⟩]) ∧
    lands (.pcmp i pd cond sa sb) (na ++ namesS sb.toNat) (preds (if pcmpHolds cond.toNat a b then 0xFFFF#16 else 0#16)) ∧
    lands (.plog i pd pfn pa pb) [] (preds (plogResult pfn.toNat (x.c.pred pa.toNat) (x.c.pred pb.toNat))) ∧
    lands (.pfroms i pd sa) na (preds (a.setWidth 16)) ∧
    lands (.ptos i sd pa) [] (whenExecutes x [⟨1, sregTarget sd ((x.c.pred pa.toNat).setWidth 64)⟩]) ∧
    lands (.cread i cpl sd) [] (whenExecutes x [⟨1, sregTarget sd ((x.c.coupling cpl.toNat).count.setWidth 64)⟩])

/-- Injections of the Q slot, repeat blocks and the end of a program (R88, R103, R106, R107, R192, R193): an injection
enters exactly one entry whatever the lane mask, 0 where the slot does not execute, and consumes what it names. -/
def Obligations.SequencerOps : Prop :=
  ∀ (i : Issue) (sa : BitVec 6) (vs : BitVec 5) (lane : BitVec 4) (count : BitVec 12) (lenM1 : BitVec 8) (lp : BitVec 3)
      (cpl : BitVec 6) (sub : Bool) (amount : BitVec 8) (s : State),
    let x := slotOf s i
    let a := x.c.sop x.g sa.toNat
    let sent (v : BitVec 512) : BitVec 512 := if qExecutes i x.mask then v else 0
    let changes (c : Instr) (ns : List Naming) (f : Cluster → Cluster) : Prop :=
      SlotRuns c i s fun t => SlotChanges i.cluster.toNat s t (qExecutes i x.mask) ns f
    changes (.rep i count lenM1 lp) [] (fun c => { c with
      nextRep := some { first := x.c.pc + 1, last := x.c.pc + 1 + lenM1.toNat, count := count.toNat, idx := 0, lp := lp } }) ∧
    changes (.ssend i sa) (namesS sa.toNat) (injected 1 (sent (a.setWidth 512)) 1) ∧
    changes (.csend i sa) (namesS sa.toNat) (injected 2 (sent ((a.setWidth 16).setWidth 512)) 1) ∧
    changes (.vsend i vs lane) [] (injected 0
      (sent (if x.mask.getLsbD lane.toNat then (x.c.lane lane.toNat).vreg vs.toNat else 0)) 1) ∧
    changes (.csig i cpl true sub amount) [] (injected 2 (sent ((amount ++ cpl ++ 0#2).setWidth 512)) 1) ∧
    changes (.csig i cpl false sub amount) [] (fun c => if qExecutes i x.mask then
      { c with sig := some { cpl := cpl, sub := sub, amount := amount } } else c) ∧
    changes (.endProg i) [] (fun c => { c with ending := true })

/-- CWAIT and CTOLL (R85, R188, R190, R194, R205): where the slot executes, a local wait holds issue until its condition
holds and its drain is over; a wait on another cluster sends a watch and holds until a wake and the end of its drain; CTOLL snapshots the mark
objects for the lowest round that the cluster has not entered, and faults where it has entered two. -/
def Obligations.WaitsAndMarks : Prop :=
  ∀ (i : Issue) (cpl : BitVec 6) (cond : BitVec 3) (val : BitVec 8) (take w : Bool) (path : BitVec 3) (s : State),
    let x := slotOf s i
    let n := s.toll.oldest
    let ex := qExecutes i x.mask
    let changes (c : Instr) (f : Cluster → Cluster) : Prop :=
      SlotRuns c i s (Noted fun t => SlotChanges i.cluster.toNat s t ex [] f)
    changes (.cwait i cpl false cond val take path) (fun c =>
      if ex then { c with hold := .wait cpl cond val take x.mask x.c.drain } else c) ∧
    changes (.cwait i cpl true cond val take path) (fun c =>
      let c := injected 2 (if ex then (0#5 ++ path ++ cpl ++ 1#2 : BitVec 16).setWidth 512 else 0) 1 c
      if ex then { c with hold := .remote cpl x.c.drain } else c) ∧
    (x.c.mark = none → changes (.ctoll i w) (fun c =>
      if ex then { c with mark := some (x.c.snapshot n), hold := if w then .toll n x.c.drain else c.hold } else c)) ∧
    ((∃ m, x.c.mark = some m) → x.c.pendMark = none → changes (.ctoll i w) (fun c =>
      if ex then { c with pendMark := some (x.c.snapshot (n + 1)), hold := if w then .toll (n + 1) x.c.drain else c.hold } else c)) ∧
    ((∃ m, x.c.mark = some m) → (∃ m, x.c.pendMark = some m) → ex = true →
      SlotRuns (.ctoll i w) i s (Noted fun t => SlotChanges i.cluster.toNat s t ex [] id False) ∧
      SlotRuns (.ctoll i w) i s fun t => ∃ r, t.ev.atSource = s.ev.atSource ++ [r] ∧ r.cls = 0x07#8 ∧ r.cause = 0x01#8)

/-- Sparse operations and hash tables of the S clusters (R163, R165-R170, R173, R174, R183): what lands in the active
lanes, and when. -/
def Obligations.SparseOps : Prop :=
  ∀ (i : Issue) (o : VOps) (vd : BitVec 5) (va vb : BitVec 6) (width : BitVec 3) (ha hb range : BitVec 2)
      (fmt : BitVec 4) (dense rankB which clear : Bool) (s : State),
    let x := slotOf s i
    let lands (c : Instr) (ns : List Naming) (ls : List Landing) : Prop :=
      SlotRuns c i s fun t => SlotLands i.cluster.toNat s t x.acts ns ls
    let nab := namesV o.va.toNat ++ namesV o.vb.toNat
    lands (.xset i o dense ha hb range) nab (together 1 (x.lanes.flatMap fun l =>
      let m := xsetMasks (x.c.vop l o.va.toNat) (x.c.vop l o.vb.toNat) dense ha hb range
      [.walk l m.1 m.2.1 m.2.2, .vreg l o.vd.toNat (BitVec.ofNat 512 (rankBelow m.2.2 64))])) ∧
    lands (.xgath i o rankB width) nab (together 2 (laneTargets x o.vd fun l => xgathResult x.c l o rankB (sparseWidth width))) ∧
    lands (.x24 i o width) nab (together 2 (laneTargets x o.vd fun l => x24Result x.c l o (sparseWidth width))) ∧
    lands (.xcslu i vd va true fmt clear) (namesV va.toNat) (together 2 (laneTargets x vd fun l =>
      ofElements ((cslRecords (x.c.vop l va.toNat)).map (xcsluValue fmt.toNat)))) ∧
    lands (.hclr i vb which) (namesS vb.toNat)
      (together 1 (x.lanes.map fun l => .table l which { status := 1#16, desc := x.c.sop x.g vb.toNat })) ∧
    lands (.hstat i vd which) [] (together 2 (laneTargets x vd fun l =>
      let t := (x.c.lane l).table which
      ofElements [t.valid, t.spills, t.probe, t.status.setWidth 32, (x.c.lane l).orderErr]))

/-- XWALK (R166, R170): the eight lowest set bits leave the match mask, the record of each goes to vd, and bit l of pd
says, in the active lanes only, that lane l's mask still holds a bit. -/
def Obligations.SparseWalk : Prop :=
  ∀ (i : Issue) (vd : BitVec 5) (pd : BitVec 3) (s : State),
    let x := slotOf s i
    let taken (l : Nat) : List Nat := (setBitsOf (x.c.lane l).walkM).take 8
    SlotRuns (.xwalk i vd pd) i s fun t =>
      ∃ (rest : Nat → BitVec 64) (v : BitVec 16),
        (∀ l n, (rest l).getLsbD n = ((x.c.lane l).walkM.getLsbD n && !(taken l).contains n)) ∧
        (∀ l, v.getLsbD l = (x.mask.getLsbD l && rest l != 0#64)) ∧
        SlotLands i.cluster.toNat s t x.acts []
          ((x.lanes.map fun l => ⟨1, .walk l (x.c.lane l).walkA (x.c.lane l).walkB (rest l)⟩) ++
            together 2 ((laneTargets x vd fun l => BitVec.ofNat 512 (packBits 64
              ((taken l).map (walkRecord (x.c.lane l).walkA (x.c.lane l).walkB)))) ++ [.pred pd.toNat x.mask v]))

/-- XCSLU on keys (R169, R170): each active lane's key words land, and its last key and its count of order errors move
on at once, in the issue beat, which is the model's choice (log entry 167). -/
def Obligations.SparseKeys : Prop :=
  ∀ (i : Issue) (vd : BitVec 5) (va : BitVec 6) (fmt : BitVec 4) (clear : Bool) (s : State),
    let x := slotOf s i
    let keys := x.c.keysOf va clear
    SlotRuns (.xcslu i vd va false fmt clear) i s fun t =>
      SlotChanges i.cluster.toNat s t x.acts (namesV va.toNat) fun c =>
        entered (together 2 (laneTargets x vd fun l => BitVec.ofNat 512 (packBits 64 ((keys l).1.map (·.toNat)))))
          (x.lanes.foldl (fun c l => c.keysSeen keys l) c)

/-- HACC, HMERGE and the ends of a spill and of a merge (R170, R176-R182, R228): contributions that spill nothing land in
the tables after 4 beats; those that spill write the records to the under-SRAM area first and then, through the window's
spill slot, to the lane's segment, and hold issue after the beat of the pair of elements that caused it; HMERGE to a
window that may be written holds issue until its merge is complete; a spill whose writes are over and whose entries have
reached their slot ends its hold, and so does a merge that has read back all its spill entries; before that they hold on.
A merge of a lane without spill records writes one record a key, in ascending order, to the lane's segment, leaves the
table as after an HCLR, and its count in vd. -/
def Obligations.HashTables : Prop :=
  ∀ (i : Issue) (o : VOps) (vd : BitVec 5) (vb : BitVec 6) (which mul : Bool) (c : BitVec 16) (s : State),
    let x := slotOf s i
    let word := x.c.sop x.g vb.toNat
    let old (l : Nat) : HashTable := (x.c.lane l).table which
    let out (l : Nat) := haccLane (old l) which (haccInputs x.c l o mul)
    let near (l : Nat) : List SpillRec := (out l).2.1.take ((old l).ulen - (old l).underRecs)
    let far (l : Nat) : List SpillRec := (out l).2.1.drop ((old l).ulen - (old l).underRecs)
    let win (l : Nat) : Window := (s.clusterWindow x.g (old l).cwin).getD {}
    let nab := namesV o.va.toNat ++ namesV o.vb.toNat
    ((∀ l ∈ x.lanes, (out l).2.1 = []) → SlotRuns (.hacc i o which mul) i s (Noted fun t =>
      SlotLands i.cluster.toNat s t x.acts nab (together 4 (x.lanes.map fun l => .table l which (out l).1)))) ∧
    ((∀ l ∈ x.lanes, (near l ≠ [] → 0x20000 ≤ (old l).ubase ∧ (old l).ubase + 32 * (old l).ulen ≤ 0x38000) ∧
        (far l ≠ [] → s.clusterWindow x.g (old l).cwin = some (win l) ∧ (win l).has 5 = true ∧
          (∃ key, s.spillSlot x.g (old l).cwin true = some key) ∧
          (old l).chsRecs + (far l).length ≤ (win l).bytes / 32 / 32)) →
      SlotRuns (.hacc i o which mul) i s (Noted fun t =>
        SlotLands i.cluster.toNat s t x.acts nab (drainMark 4 :: x.lanes.flatMap fun l =>
          ⟨4, .table l which { (out l).1.noteSpilled (out l).2.1 with
            underRecs := (old l).underRecs + (near l).length, chsRecs := (old l).chsRecs + (far l).length }⟩ ::
          ((if near l = [] then [] else
              [Target.mem l ((old l).ubase + 32 * (old l).underRecs) ((near l).flatMap fun r => natLe r.1.toNat 32)]) ++
            (if (out l).2.1 = [] then [] else
              [Target.spill (if near l = [] then 0 else spillBeats (near l).length) (!(far l).isEmpty)
                (spillOuts x.g (old l).cwin
                  ((2 * l + if which then 1 else 0) * ((win l).bytes / 32) + 32 * (old l).chsRecs) (far l))])).map
            fun t => ⟨(out l).2.2 + 1, t⟩))) ∧
    ((∃ w, s.clusterWindow x.g (word.extractLsb' 0 8).toNat = some w ∧ w.has 1 = true) →
      SlotRuns (.hmerge i vd vb which) i s (Noted fun t =>
        SlotChanges i.cluster.toNat s { t with strips := s.strips } x.acts (namesS vb.toNat) fun c =>
          { c with
            stall := .merge which vd (word.extractLsb' 0 8) (x.c.cvt.getD (word.extractLsb' 8 4).toNat 0#20) x.mask x.c.pc
              x.c.execBeat
            mergeIn := [] })) ∧
    (∀ chs, (s.cluster c.toNat).stall = .spill 0 chs → (s.cluster c.toNat).spillOut = [] → s.spillMoves c.toNat = false →
      Answers (.spillComplete c) s fun t =>
        t.cluster c.toNat = { s.cluster c.toNat with stall := .none } ∧ ∀ g, g ≠ c.toNat → t.cluster g = s.cluster g) ∧
    (∀ chs, (s.cluster c.toNat).stall = .spill 0 chs →
      (s.cluster c.toNat).spillOut ≠ [] ∨ s.spillMoves c.toNat = true →
      Answers (.spillComplete c) s fun t => ∀ g, t.cluster g = s.cluster g) ∧
    (∀ w d ow r m pc beat, (s.cluster c.toNat).stall = .merge w d ow r m pc beat →
      let need := s.mergeNeeds (mergeSlot c.toNat (s.cluster c.toNat) m pc beat) w
      let still : Prop := (s.cluster c.toNat).spillOut = [] ∧ s.spillMoves c.toNat = false
      (need ≤ (s.cluster c.toNat).mergeIn.length → still → Answers (.hmergeComplete c) s fun t =>
        (t.cluster c.toNat).stall = .none ∧ (t.cluster c.toNat).mergeIn = []) ∧
      ((s.cluster c.toNat).mergeIn.length < need ∨ ¬still → Answers (.hmergeComplete c) s fun t =>
        ∀ g, t.cluster g = s.cluster g) ∧
      (∀ (l : Nat) (W : Window) (es : List HEntry), activeLanes m = [l] → still →
        let t0 := ((s.cluster c.toNat).lane l).table w
        let base := W.base + (2 * l + if w then 1 else 0) * (W.bytes / 32)
        let bytes := es.flatMap fun e => mergeRecord e.key ((t0.ledger e).readElement (rctlOf r) 0)
        let tag := s.tagOfDie (gidDie c.toNat)
        let written := s.chsWrite base bytes (fun _ => false) tag (s.pairedTag tag)
        t0.underRecs = 0 → t0.chsRecs = 0 → es.Perm ((t0.entries.filter fun p => p.2.valid).map (·.2)) →
        es.Pairwise (fun a b => a.key < b.key) → (∀ e ∈ es, e.frozen = false ∧ mod255 e.value = e.residue) →
        s.clusterWindow c.toNat ow.toNat = some W → 16 * es.length ≤ W.bytes / 32 → written.2 = [] →
        Answers (.hmergeComplete c) s fun t =>
          t.cluster c.toNat = { (s.cluster c.toNat).setLane l ((((s.cluster c.toNat).lane l).setTable w
            { status := 1#16, desc := t0.desc }).setVreg d.toNat (BitVec.ofNat 512 es.length)) with
              stall := .none, mergeIn := [] } ∧
          (∀ g, g ≠ c.toNat → t.cluster g = s.cluster g) ∧ t.chsMem = written.1.chsMem))

/-- WAIT_SATISFIED and the messages of couplings (R85, R189-R196): a held local wait whose condition holds takes its
value and resumes after four beats; a signal adds to the count and names its source and the end of the beat; a watch
takes the first free slot; after either, waiters on a coupling that has reached its threshold wake; a wake, as a message or on a wake line, ends a remote wait once its drain is complete. -/
def Obligations.CouplingEvents : Prop :=
  ∀ (c : BitVec 16) (s : State),
    let g := c.toNat
    let runs : Prop := ∃ k, s.slotOfCluster g = some k ∧ (s.job k).beating = true
    (∀ w cond val take mask, (s.cluster g).hold = .wait w cond val take mask 0 → (s.cluster g).issued = false →
      waitHolds (s.cluster g) w.toNat cond.toNat val.toNat (((s.cluster g).coupling w.toNat).count.toNat : Int) = true →
      Answers (.waitSatisfied c) s fun t =>
        (t.cluster g).hold = .resume 3 ∧
        ((t.cluster g).coupling w.toNat).count = ((s.cluster g).coupling w.toNat).count -
          (if take = true ∧ cond.toNat < 2 then val.setWidth 32 else 0) ∧
        ∀ h, h ≠ g → t.cluster h = s.cluster h) ∧
    (∀ (m : Nat) (k : BitVec 6) (n : BitVec 8) (origin : BitVec 20),
      s.slotOfCluster g = some m → (s.job m).beating = true → n ≠ 0#8 →
      ((s.cluster g).coupling k.toNat).count.toNat + n.toNat < 2 ^ 32 →
      Answers (.signalMessage c (n ++ k ++ 0#2) origin) s fun t =>
        t.cluster g = ((s.cluster g).setCoupling k.toNat { (s.cluster g).coupling k.toNat with
          count := ((s.cluster g).coupling k.toNat).count + n.setWidth 32
          total := ((s.cluster g).coupling k.toNat).total + 1
          lastSrc := origin
          lastMs := BitVec.ofNat 24 (max s.ms ((s.job m).cycleMs ((s.job m).beat + (s.job m).skipped)))
          lastValid := true }).wakeWaiters ∧ ∀ h, h ≠ g → t.cluster h = s.cluster h) ∧
    (∀ (k : BitVec 6) (path : BitVec 3) (j : Nat), runs → path.toNat ≤ 4 →
      (List.range 8).find? (fun j => !(((s.cluster g).coupling k.toNat).slot j).valid) = some j →
      Answers (.watchMessage c (0#5 ++ path ++ k ++ 1#2)) s fun t =>
        t.cluster g = ((s.cluster g).setCoupling k.toNat
          (((s.cluster g).coupling k.toNat).setSlot j { valid := true, path := path })).wakeWaiters ∧
        ∀ h, h ≠ g → t.cluster h = s.cluster h) ∧
    (∀ k left, runs → (s.cluster g).hold = .remote k left → Answers (.wakeMessage c 2#16) s fun t =>
      t.cluster g = { s.cluster g with hold := if left = 0 then .resume 3 else .woken left } ∧
      ∀ h, h ≠ g → t.cluster h = s.cluster h) ∧
    (∀ k left dir, runs → (s.cluster g).hold = .remote k left → Answers (.wakeLinePulse c dir) s fun t =>
      t.cluster g = { s.cluster g with hold := if left = 0 then .resume 3 else .woken left } ∧
      ∀ h, h ≠ g → t.cluster h = s.cluster h)

/-- BROADCAST_WAKE (R85, R191, R196, R198): on a die whose job runs, a CTOLL hold on a released round ends once its drain
is complete, and every other cluster is as before; where no job runs, every held cluster of the die is parked; the
clusters of other dies are untouched. -/
def Obligations.BroadcastWake : Prop :=
  ∀ (die : BitVec 6) (s : State), KeysRise s.clusters →
    (∀ k, s.slotOfDie die.toNat = some k → (s.job k).beating = true → Answers (.broadcastWake die) s fun t =>
      (∀ g n left, gidDie g = die.toNat → (s.cluster g).hold = .toll n left → n < s.toll.oldest →
        t.cluster g = { s.cluster g with hold := if left = 0 then .resume 3 else .woken left }) ∧
      (∀ g, gidDie g ≠ die.toNat → t.cluster g = s.cluster g) ∧
      (∀ g n left, (s.cluster g).hold = .toll n left → s.toll.oldest ≤ n → t.cluster g = s.cluster g) ∧
      (∀ g, (∀ n left, (s.cluster g).hold ≠ .toll n left) → t.cluster g = s.cluster g)) ∧
    ((∀ k, s.slotOfDie die.toNat = some k → (s.job k).beating = false) → Answers (.broadcastWake die) s fun t =>
      (∀ g, gidDie g = die.toNat → (s.cluster g).held = true →
        t.cluster g = { s.cluster g with hold := .none, stall := .none, parked := true }) ∧
      (∀ g, gidDie g ≠ die.toNat ∨ (s.cluster g).held = false → t.cluster g = s.cluster g))

/-- JOB_BEAT (R81, R82, R106, R107, R119-R137, R139, R189, R292): the next cycle of a running or self-stopping job, where
no cycle before it is withheld, is a job beat: the job's beat counter rises by one, and where no fault and no stop is due
the state is the one that the steps of the beat leave, in their order: issue, the routes of that beat, injections,
consumption, deliveries and landings, wake lines, coupling units, the sequencers, exchange units, transit routes,
crossings, the links, and the captures. What each step does: a
cluster that can issue runs the four slots of the word at its pc, each as its command does, and goes to the next word, or
round its repeat block; results come a beat nearer and land; a route word moves an input to the outputs and queues that
select it, and a queue that is full, or an input that nothing selects, drops the entry with a fabric fault; an arrival and
a consumption count; a crossing takes 12 beats; and the coupling unit adds the signals of the beat to the count, or faults
where the sum leaves its range. That the slots of a word run in the order M, E, V, Q, their results landing later, is the
model's reading (log entry 117). -/
def Obligations.JobBeat : Prop :=
  (∀ (slot : BitVec 6) (s : State), (s.job slot.toNat).beating = true →
    ((s.openWindow slot.toNat).job slot.toNat).withholds = false →
    let w := s.openWindow slot.toNat
    let u := (w.advanceTo ((w.job slot.toNat).cycleMs ((s.job slot.toNat).beat + (s.job slot.toNat).skipped))).beat slot.toNat
    Answers (.jobBeat slot) s (Noted fun t =>
      (t.job slot.toNat).beat = (s.job slot.toNat).beat + 1 ∧
      ((u.job slot.toNat).faultDue = false → (u.job slot.toNat).stopAt = none →
        t = { u with jobs := t.jobs } ∧ (∀ k, k ≠ slot.toNat → t.job k = u.job k) ∧
        t.job slot.toNat = { u.job slot.toNat with
          winPos := ((u.job slot.toNat).winPos + 1) % 64
          st := if (u.job slot.toNat).st = .running ∧ ∀ g ∈ u.jobClusters (u.job slot.toNat), (u.cluster g).parked = true
            then .stopping else (u.job slot.toNat).st }))) ∧
  (∀ (k : Nat) (s : State),
    let j := s.job k
    let L := max j.schedLen 1
    let gs := s.jobClusters j
    let issued := gs.foldl (fun s g => s.issueWord g) s
    let routed := (issued.jobClusters j).map fun g =>
      (g, (issued.cluster g).route ((issued.cluster g).routes.getD (j.beat % L) 0#128))
    let pulses := (issued.jobClusters j).map fun g => (g, (issued.cluster g).pulseNext)
    let landed := routed.foldl (fun s p =>
      let s := p.2.lost.foldl (fun s _ => s.drop p.1 0x04 0xF none) s
      let s := (((s.endInj p.1 p.2.takes).popQueues p.1).hashTake p.1).deliver p.1 p.2.queues
      s.modCluster p.1 fun c => c.landAll.countHold) issued
    let pulsed := pulses.foldl (fun s p => s.pulse p.1 p.2) landed
    let signalled := routed.foldl (fun s p =>
      let msg := p.2.cpl.map fun e => (e.data.setWidth 16, (s.cluster p.1).origins.getD (j.beat % L) 0#20)
      (s.cplBeat p.1 (j.cycleMs (j.beat + j.skipped + 1)) (s.cluster p.1).sig msg).modCluster p.1 Cluster.wakeWaiters) pulsed
    let advanced := (issued.jobClusters j).foldl (fun s g => s.modCluster g fun c => { c.advance with links := [] }) signalled
    let moved := (((advanced.jobUnits j).foldl (fun s n => s.unitBeat (BitVec.ofNat 6 k) n L j.beat) advanced).transitMove k).fly j
    let driven := routed.foldl (fun s p => p.2.links.foldl (fun s q => s.driveLink p.1 q.1 q.2.1 q.2.2) s) moved
    s.beat k = (driven.shoot k j j.beat).modJob k fun y => { y with beat := j.beat + 1 }) ∧
  (∀ (g : BitVec 16) (w : BitVec 128) (o : WordSlots) (s : State),
    let c := s.cluster g.toNat
    (c.issued = false → s.canIssue g.toNat = true → c.prog[c.pc]? = some w → decodeWord g w = some o →
      s.issueWord g.toNat = runSlot o.q (runSlot o.v (runSlot o.e (runSlot o.m (s.setCluster g.toNat c.begun))))) ∧
    (c.issued = true ∨ s.canIssue g.toNat = false → s.issueWord g.toNat = s)) ∧
  (∀ (c : Instr) (s : State),
    (encodeE c).isSome = true ∨ (encodeV c).isSome = true ∨ (encodeM c).isSome = true ∨ (encodeQ c).isSome = true →
    Machine.legal c = true → Answers c s fun t => ProbesOnly (runSlot c s) t) ∧
  (∀ (c : Cluster) (f : RepFrame) (fs : List RepFrame),
    (c.issued = true → c.advance.execBeat = c.execBeat + 1 ∧ c.advance.parked = (c.parked || c.ending)) ∧
    (c.issued = true → c.nextRep = none → c.rep = [] → c.advance.pc = c.pc + 1 ∧ c.advance.rep = []) ∧
    (c.issued = true → c.nextRep = some f → c.advance.pc = c.pc + 1 ∧ c.advance.rep = f :: c.rep) ∧
    (c.issued = true → c.nextRep = none → c.rep = f :: fs → c.pc ≠ f.last → c.advance.pc = c.pc + 1 ∧ c.advance.rep = c.rep) ∧
    (c.issued = true → c.nextRep = none → c.rep = f :: fs → c.pc = f.last → f.idx + 1 < f.count →
      c.advance.pc = f.first ∧ c.advance.rep = { f with idx := f.idx + 1 } :: fs) ∧
    (c.issued = true → c.nextRep = none → c.rep = [f] → c.pc = f.last → f.count ≤ f.idx + 1 →
      c.advance.pc = c.pc + 1 ∧ c.advance.rep = []) ∧
    (c.issued = false → c.advance.pc = c.pc ∧ c.advance.rep = c.rep ∧ c.advance.execBeat = c.execBeat ∧
      c.advance.parked = c.parked)) ∧
  (∀ c : Cluster,
    let due := c.pend.filter fun p => decide (p.beats ≤ 1)
    let rest := (c.pend.filter fun p => decide (1 < p.beats)).map fun p => { p with beats := p.beats - 1 }
    (c.frozen = true → c.landAll = c) ∧
    (c.frozen = false → c.issued = true ∨ c.hold = .none → ∃ n, c.landAll =
      { c.applyAll due with pend := rest, older := n, drain := rest.foldl (fun n p => max n p.beats) 0 }) ∧
    (c.frozen = false → c.issued = false → c.hold ≠ .none → ∀ p ∈ c.pend.drop c.older, p ∈ c.landAll.pend)) ∧
  (∀ (c : Cluster) (w : BitVec 128) (net k : Nat) (e : Entry), net < 3 →
    (k < netQueues net →
      ((4 * net + k, e) ∈ (c.route w).queues ↔ c.input net (selectAt w (netBase net + 12 + 3 * k)) = some e)) ∧
    (k < 4 → ((net, k, e) ∈ (c.route w).links ↔ c.input net (selectAt w (netBase net + 3 * k)) = some e)) ∧
    (k < 4 → ((net, k) ∈ (c.route w).lost ↔
      (AMap.get none c.links (net * 4 + k)).isSome = true ∧ k + 1 ∉ netSelects w net))) ∧
  (∀ (g q : Nat) (e : Entry) (s : State),
    let x := (s.cluster g).queue q
    let runs : Prop := ∃ k, s.slotOfCluster g = some k ∧ (s.job k).beating = true
    let dropped (t : State) (cause : Nat) : Prop :=
      (∀ h, t.cluster h = s.cluster h) ∧ Logged s t 4 cause ∧ Counts s t (Reg.FAB_DROP_COUNT (gidDie g)) 0 32
    (x.entries.length < queueDepth q → s.deliver g [(q, e)] =
      s.setCluster g ((s.cluster g).setQueue q { x with entries := x.entries ++ [e], arrivals := x.arrivals + 1 })) ∧
    (runs → queueDepth q ≤ x.entries.length → dropped (s.deliver g [(q, e)]) 1) ∧
    (runs → dropped (s.drop g 0x04 0xF none) 4) ∧
    (∀ rest, (s.cluster g).consumed = [q] → q < 16 → x.entries = e :: rest → e.poison = false →
      s.popQueues g = s.setCluster g ((s.cluster g).setQueue q { x with entries := rest, consumed := x.consumed + 1 }))) ∧
  (∀ (g net d : Nat) (e : Entry) (s : State),
    (∀ h, innerNeighbour g d = some h → s.driveLink g net d e =
      s.setCluster h { s.cluster h with links := AMap.set none (s.cluster h).links (net * 4 + opposite d) (some e) }) ∧
    (∀ dst, innerNeighbour g d = none → s.edgeMode (gidDie g) d = 1 → dieNeighbour (gidDie g) d = some dst →
      s.driveLink g net d e = { s with
        flights := s.flights ++ [{
          beats := 12, cluster := edgeCluster dst (opposite d) (unitOf g d), net := net, dir := opposite d, entry := e }] })) ∧
  (∀ (j : Job) (f : Flight) (s : State),
    (f ∈ s.flights → j.covers (gidDie f.cluster) = false → f ∈ (s.fly j).flights) ∧
    (f ∈ s.flights → j.covers (gidDie f.cluster) = true → 1 < f.beats →
      { f with beats := f.beats - 1 } ∈ (s.fly j).flights) ∧
    (s.flights = [f] → j.covers (gidDie f.cluster) = true → f.beats = 1 →
      (s.fly j).flights = [] ∧
        AMap.get none ((s.fly j).cluster f.cluster).links (f.net * 4 + f.dir) = some f.entry)) ∧
  (∀ (g k ms : Nat) (signals : List (Int × BitVec 20)) (d : Int) (src : BitVec 20) (s : State),
    let x := (s.cluster g).coupling k
    let z := signals.foldl (fun z p => z + p.1) (x.count.toNat : Int)
    let faults (t : State) (cause : Nat) : Prop := (∀ h, t.cluster h = s.cluster h) ∧ Logged s t 6 cause
    signals.getLast? = some (d, src) →
    (0 ≤ z → z < 2 ^ 32 → Noted (fun t => t = s.setCluster g ((s.cluster g).setCoupling k { x with
        count := BitVec.ofInt 32 z
        total := x.total + BitVec.ofNat 32 signals.length
        lastSrc := src
        lastMs := BitVec.ofNat 24 ms
        lastValid := true })) (s.cplSteps g k ms signals false)) ∧
    ((∃ m, s.slotOfCluster g = some m ∧ (s.job m).beating = true) →
      (z < 0 → faults (s.cplSteps g k ms signals false) 2) ∧ (2 ^ 32 ≤ z → faults (s.cplSteps g k ms signals false) 1)))

/-- WITHHELD_BEAT (R207, R375, R376): a withheld cycle passes without a job beat: nothing but the job's cycle counts, what
its transit routes carry to the strips, and the time change. -/
def Obligations.WithheldBeat : Prop :=
  ∀ (slot : BitVec 6) (s : State),
    let u := s.openWindow slot.toNat
    let j := u.job slot.toNat
    (s.job slot.toNat).beating = true → j.withholds = true →
    Answers (.withheldBeat slot) s (Noted fun t =>
      t = ((u.setJob slot.toNat { j with
        winPos := (j.winPos + 1) % 64
        skipped := j.skipped + 1
        swapLeft := j.swapLeft - 1
        withheld := if j.swapLeft != 0 then j.withheld else j.withheld + 1 }).transitMove slot.toNat).advanceTo
          (j.zeroMs + (j.beat + j.skipped + 1) * (if j.half then 8 else 4) / 5) ∧
      ((∀ p ∈ s.transitIn, p.job.toNat ≠ slot.toNat) →
        ∀ g, t.cluster g = s.cluster g) ∧
      (t.job slot.toNat).beat = (s.job slot.toNat).beat)

/-- Crossings (R140-R142, R157): a drift of 32 to 63 on a trained crossing is stored, widens the extremes and counts one
warning where it begins, and one below 32 is stored alone; a drift of 64 or more, an error of the beat check and the loss
of a lane without a spare take a trained crossing down on both sides, with the cause, a rise straight to 64 counted too; the loss of a lane that a spare
serves changes nothing. -/
def Obligations.CrossingEvents : Prop :=
  ∀ (die : BitVec 6) (edge : BitVec 2) (d : BitVec 8) (lane : BitVec 14) (dst : Nat) (s : State),
    let x := Reg.FAB_XING_DRIFT die.toNat edge.toNat
    let count := Reg.FAB_XING_COUNT die.toNat edge.toNat
    let mode := s.edgeMode die.toNat edge.toNat
    let was := ((s.reg x).extractLsb' 0 8).toInt.natAbs
    let spared : Prop := ∃ p ∈ (s.die die.toNat).lanePairs edge.toNat ++ (s.die dst).lanePairs (opposite edge.toNat),
      p.1 = lane.toNat
    let down (cause : Nat) (t : State) : Prop :=
      t.edgeMode die.toNat edge.toNat = 3 ∧ t.edgeMode dst (opposite edge.toNat) = 3 ∧
      t.field (Reg.FAB_XING_STATUS die.toNat edge.toNat) 4 4 = cause ∧
      t.field (Reg.FAB_XING_STATUS dst (opposite edge.toNat)) 4 4 = cause ∧ t.chsMem = s.chsMem
    mode = 1 ∨ mode = 2 →
    (d.toInt.natAbs < 64 → Answers (.driftWarning die edge d) s fun t =>
      (t.reg x).extractLsb' 0 8 = d ∧
      (t.reg x).extractLsb' 8 8 = (if d.slt ((s.reg x).extractLsb' 8 8) then d else (s.reg x).extractLsb' 8 8) ∧
      (t.reg x).extractLsb' 16 8 = (if ((s.reg x).extractLsb' 16 8).slt d then d else (s.reg x).extractLsb' 16 8) ∧
      t.field count 0 16 =
        (if 32 ≤ was ∨ d.toInt.natAbs < 32 then s.field count 0 16 else min (s.field count 0 16 + 1) 65535)) ∧
    (dieNeighbour die.toNat edge.toNat = some dst → 64 ≤ d.toInt.natAbs →
      Answers (.driftLimit die edge d) s fun t => down 1 t ∧
        t.field count 0 16 = if 32 ≤ was then s.field count 0 16 else min (s.field count 0 16 + 1) 65535) ∧
    (dieNeighbour die.toNat edge.toNat = some dst →
      Answers (.beatCheckError die edge) s fun t => down 2 t ∧
        t.field count 16 16 = min (s.field count 16 16 + 1) 65535) ∧
    (dieNeighbour die.toNat edge.toNat = some dst → ¬spared →
      Answers (.laneLoss die edge lane) s (down 3)) ∧
    (dieNeighbour die.toNat edge.toNat = some dst → spared → Answers (.laneLoss die edge lane) s fun t => t = s)

/-- The commands of the crossing counters (R157): where the access reaches its register, CLEAR_MINMAX sets both extremes
to the drift that stands, CLEAR_COUNT clears both counts, and no other register changes. -/
def Obligations.CrossingClears : Prop :=
  ∀ (via : Via) (die : BitVec 6) (edge : BitVec 2) (s : State),
    let x := Reg.FAB_XING_DRIFT die.toNat edge.toNat
    let count := Reg.FAB_XING_COUNT die.toNat edge.toNat
    s.grants via (Reg.FAB_XING_CLEAR die.toNat edge.toNat) = true →
    (Answers (.clearMinmax via die edge) s fun t =>
      t.field x 0 8 = s.field x 0 8 ∧ t.field x 8 8 = s.field x 0 8 ∧ t.field x 16 8 = s.field x 0 8 ∧
      (∀ a, a ≠ x → t.reg a = s.reg a) ∧ RegsOnly s t) ∧
    (Answers (.clearCount via die edge) s fun t =>
      t.reg count = 0 ∧ (∀ a, a ≠ count → t.reg a = s.reg a) ∧ RegsOnly s t)

/-- The words of a die's fabric view (R155, R156), which its capture writes and nothing else does. -/
def inFabView (die a : Nat) : Prop :=
  0x400000 + 0x20000 * die + 0x800C ≤ a ∧ a < 0x400000 + 0x20000 * die + 0x8350

/-- The fabric view (R132, R155, R156): a start write stores its selection and makes the capture pending; the capture
shows the cluster as the job beat left it, with the beat and its Milestone value, and ends; on a die without a running
job it sets no_job; no other register changes. That the beat itself stores what the capture shows later, the first beat
from the target on, and that lateness is judged when the command arrives, are the model's reading (log entry 35). -/
def Obligations.Captures : Prop :=
  ∀ (via : Via) (die : BitVec 6) (value : BitVec 32) (s : State),
    let st := Reg.FAB_VIEW_STATUS die.toNat
    let base := 0x400000 + 0x20000 * die.toNat
    let v := AMap.get {} s.fabViews die.toNat
    let done (noJob : Nat) (t : State) : Prop :=
      t.field st 0 1 = 0 ∧ t.field st 1 1 = 1 ∧ t.field st 2 1 = noJob ∧
      (∀ a, ¬inFabView die.toNat a → t.reg a = s.reg a) ∧
      t = { s with regs := t.regs, fabViews := AMap.set {} s.fabViews die.toNat {} }
    (s.grants via (Reg.FAB_VIEW_CTRL die.toNat) = true → value.msb = true → s.field st 0 1 = 0 →
      Answers (.fabViewCapture via die value) s fun t =>
        t.field (Reg.FAB_VIEW_CTRL die.toNat) 0 10 = value.toNat % 1024 ∧ t.field st 0 1 = 1 ∧
        (∀ a, a ≠ st → a ≠ Reg.FAB_VIEW_CTRL die.toNat → t.reg a = s.reg a) ∧
        t = { s with regs := t.regs, fabViews := t.fabViews } ∧
        (AMap.get {} t.fabViews die.toNat).cluster = value.toNat % 1024 ∧
        (value.getLsbD 12 = false → (AMap.get {} t.fabViews die.toNat).target = none) ∧
        (∀ k, value.getLsbD 12 = true → s.slotOfDie die.toNat = some k → (s.job k).beating = true →
          (AMap.get {} t.fabViews die.toNat).late =
            decide (s.reg64 (Reg.FAB_VIEW_TARGET_LO die.toNat) < (s.job k).beat))) ∧
    (∀ k b, s.field st 0 1 = 1 → v.shot = none → (s.job k).covers die.toNat = true →
      let shown := AMap.get {} (s.shoot k (s.job k) b).fabViews die.toNat
      ((∀ x, v.target = some x → x ≤ b) →
        shown = { v with shot := some (s.shotOf (s.job k) (1024 * die.toNat + v.cluster) b) }) ∧
      (∀ x, v.target = some x → b < x → shown = v)) ∧
    (∀ x, s.field st 0 1 = 1 → v.shot = some x → Answers (.fabViewCaptureTaken die) s fun t =>
      done 0 t ∧
      t.reg64 (Reg.FAB_VIEW_BEAT_LO die.toNat) = x.beat % 2 ^ 64 ∧ t.reg64 (Reg.FAB_VIEW_MS_LO die.toNat) = x.ms % 2 ^ 64 ∧
      (∀ q j, q < 4 → j < 8 →
        t.reg64 (base + 0x8100 + 64 * q + 8 * j) = ((x.c.headData q).extractLsb' (64 * j) 64).toNat) ∧
      (∀ q, q < 10 → t.reg64 (base + 0x8300 + 8 * q) =
        (x.c.queue q).arrivals.toNat + 2 ^ 32 * (x.c.queue q).consumed.toNat)) ∧
    (s.field st 0 1 = 1 → v.shot = none → (∀ k, s.slotOfDie die.toNat = some k → (s.job k).beating = false) →
      Answers (.fabViewCaptureTaken die) s (done 1))

/-- The sync-object view (R210): a start write stores its selection, the requesting function, and makes the capture
pending; the capture shows the coupling as the job beat left it, with the beat and its Milestone value, and ends; where
no job that the function may see runs on the cluster it sets no_job, and the data read 0. Only the view's registers
change. That the job's beat stores what the capture shows later is the model's reading (log entry 35). -/
def Obligations.SyncViews : Prop :=
  ∀ (via : Via) (value : BitVec 32) (s : State),
    let v := s.dbgView
    let done (noJob : Nat) (t : State) : Prop :=
      t.field Reg.DBG_STATUS 0 1 = 0 ∧ t.field Reg.DBG_STATUS 1 1 = 1 ∧ t.field Reg.DBG_STATUS 2 1 = noJob ∧
      (∀ a, a < Reg.DBG_STATUS ∨ Reg.DBG_MS_HI < a → t.reg a = s.reg a) ∧
      t = { s with regs := t.regs, dbgView := {} }
    (s.grants via Reg.DBG_SEL = true → value.msb = true → s.field Reg.DBG_STATUS 0 1 = 0 →
      Answers (.dbgCapture via value) s fun t =>
        t.field Reg.DBG_SEL 0 22 = value.toNat % 2 ^ 22 ∧ t.field Reg.DBG_STATUS 0 1 = 1 ∧
        t = { s with regs := t.regs, dbgFn := viaFn via, dbgView := t.dbgView } ∧
        t.dbgView.cluster = value.toNat % 2 ^ 16 ∧ t.dbgView.cpl = value.toNat / 2 ^ 16 % 64 ∧ t.dbgView.shot = none) ∧
    (∀ k b, s.field Reg.DBG_STATUS 0 1 = 1 → v.shot = none →
      (s.shoot k (s.job k) b).dbgView =
        if (s.job k).covers (gidDie v.cluster) = true ∧ s.mayUse s.dbgFn k = true then
          { v with shot := some (s.shotOf (s.job k) v.cluster b) }
        else v) ∧
    (∀ x, s.field Reg.DBG_STATUS 0 1 = 1 → v.shot = some x → Answers .dbgCaptureTaken s fun t =>
      let k := x.c.coupling v.cpl
      done 0 t ∧ t.reg Reg.DBG_COUNT = k.count ∧ t.reg Reg.DBG_THRESH = k.thresh ∧ t.reg Reg.DBG_SIG_TOTAL = k.total ∧
      t.field Reg.DBG_WAITERS 0 16 = k.lanes.toNat ∧ t.field Reg.DBG_LAST 0 20 = k.lastSrc.toNat ∧
      t.reg Reg.DBG_LAST_MS = k.lastMs.setWidth 32 ∧
      t.reg64 Reg.DBG_BEAT_LO = x.beat % 2 ^ 64 ∧ t.reg64 Reg.DBG_MS_LO = x.ms % 2 ^ 64) ∧
    (s.field Reg.DBG_STATUS 0 1 = 1 → v.shot = none →
      (∀ k, s.slotOfCluster v.cluster = some k → (s.job k).beating = false ∨ s.mayUse s.dbgFn k = false) →
      Answers .dbgCaptureTaken s fun t => done 1 t ∧
        ∀ a, Reg.DBG_COUNT ≤ a → a ≤ Reg.DBG_MS_HI → a % 4 = 0 → t.reg a = 0)

/-- The Tollgate (R199, R201, R202, R379, R391): a round opens at its time, and Drag and the clock controller enter the
oldest one at its opening; an entry of the oldest round is recorded with its time, but not while a duty of its participant
is open (log entry 163), and a second entry of one participant changes nothing (log entry 51, the model's choice); one of the
next round waits; a bad parity or a round too far away logs a protocol fault of the participant. A re-centring that is not
complete at the opening of a round counts as late, once (R322). -/
def Obligations.TollgateEntries : Prop :=
  ∀ (s : State) (src : BitVec 20) (round : BitVec 8) (ok : Bool),
    let n := s.toll.oldest
    let e := (round.toNat + 256 - n % 256) % 256
    let in_ : Prop := s.toll.started = true ∧ src.toNat ∈ participants ∧ src.toNat ∉ s.outOf
    (s.toll.started = true → Answers .tollgateRoundOpen s fun t =>
      t.toll.opened = s.toll.opened + 1 ∧ t.toll.oldest = n ∧ t.toll.k = s.toll.k ∧
      s.roundOpens s.toll.opened ≤ t.ms ∧
      (s.pairActive = false → KeysRise s.engines → ∀ k, k < 64 → (s.engine k).recentring = true →
        (t.engine k).late = true ∧
        ((s.engine k).late = true → t.field (Reg.LTN_ENG_RING k) 24 8 = s.field (Reg.LTN_ENG_RING k) 24 8) ∧
        ((s.engine k).late = false → Counts s t (Reg.LTN_ENG_RING k) 24 8)) ∧
      (s.toll.opened = n → ∀ p ∈ [srcDrag, srcClock], s.serves p = true → p ∈ t.toll.entered)) ∧
    (in_ → ok = true → e = 0 → s.dutyOpen src.toNat = true → Answers (.tollgateEntry src round ok) s (Noted fun t => t = s)) ∧
    (in_ → ok = true → e = 0 → src.toNat ∈ s.toll.entered → Answers (.tollgateEntry src round ok) s (Noted fun t => t = s)) ∧
    (in_ → ok = true → e = 0 → s.dutyOpen src.toNat = false → src.toNat ∉ s.toll.entered → Answers (.tollgateEntry src round ok) s (Noted fun t =>
      t = { s with toll := { s.toll with entered := insertNat src.toNat s.toll.entered, lastEntryMs := s.ms } })) ∧
    (in_ → ok = true → e = 1 → Answers (.tollgateEntry src round ok) s (Noted fun t =>
      t = { s with toll := { s.toll with pending := insertNat src.toNat s.toll.pending } })) ∧
    (in_ → ok = false ∨ 2 ≤ e → Answers (.tollgateEntry src round ok) s fun t =>
      ∃ r ∈ t.ev.atSource, r.cls = 0x07 ∧ r.cause = (if ok = true ∧ e = 2 then 0x01 else 0x02) ∧
        r.p0.toNat = round.toNat + 256 * e)

/-- A release (R201-R203, R206, R338): when every participant has entered the oldest round, it releases 256 after the last
entry rounded up to a multiple of 64; the entries that waited are those of the next round, into which the pair unit may
go at once, and a staged period applies. A stall releases the round at its deadline; where the pair unit is missing and
this module has lost both its crystals, the loss of the link is a clock failure instead (R393). -/
def Obligations.TollgateReleases : Prop :=
  ∀ (s : State), s.toll.started = true → s.toll.oldest < s.toll.opened →
    let released (r : Nat) (t : State) : Prop :=
      t.toll.oldest = s.toll.oldest + 1 ∧ t.toll.opened = s.toll.opened ∧ t.toll.lastRelease = r ∧
      (∀ p, p ≠ pairUnit → (p ∈ t.toll.entered ↔ p ∈ s.toll.pending)) ∧
      (s.pairActive = false → t.toll.entered = s.toll.pending) ∧ t.toll.pending = [] ∧
      t.toll.k = s.toll.staged.getD s.toll.k ∧ t.toll.staged = none
    (s.allEntered = true → Answers .tollgateRelease s (released (releaseTime s.toll.lastEntryMs))) ∧
    (s.missing ≠ [] → pairUnit ∉ s.missing ∨ s.crystalsLost = false →
      Answers .tollgateStall s (released (max s.ms s.stallTime)))

/-- TG_PERIOD_WRITE (R206): a period of 12 to 24 written while no pair is active is staged and shown as waiting; one out of
range changes nothing; in pair mode the write changes nothing of the Tollgate. -/
def Obligations.PeriodWrites : Prop :=
  ∀ (via : Via) (value : BitVec 32) (s : State),
    let k := value.toNat % 32
    s.grants via Reg.CLK_TG_PERIOD = true →
    (s.pairActive = false → 12 ≤ k → k ≤ 24 → Answers (.tgPeriodWrite via value) s fun t =>
      t.toll = { s.toll with staged := some k } ∧ t.field Reg.CLK_TG_STATUS 9 1 = 1 ∧ RegsOnly { s with toll := t.toll } t) ∧
    (s.pairActive = false → k < 12 ∨ 24 < k → Answers (.tgPeriodWrite via value) s fun t => t = s) ∧
    (s.pairActive = true → Answers (.tgPeriodWrite via value) s fun t => t.toll = s.toll ∧ t.regs = s.regs)

/-- BIST_SEGMENT_END (R469, R471, R472): the first run of a segment uses up one of the slice; a pass goes on to the next
segment, after the last one the core has passed; a failure asks for two more runs, of which the second is followed by the
third. A third run with which the segment has failed once in three is a transient, counted and logged, and the test goes
on; one with which it has failed twice is a defect, counted and logged, and the core's test is over. -/
def Obligations.TestSegments : Prop :=
  ∀ (c : BitVec 16) (loc : BistLoc) (s : State),
    let g := c.toNat
    let w := (s.cluster g).whl
    let only (v : WhlState) (t : State) : Prop :=
      t.cluster g = { s.cluster g with whl := v } ∧ (∀ h, h ≠ g → t.cluster h = s.cluster h) ∧
      t = { s with clusters := t.clusters }
    let fails (pass : Bool) : Nat := w.fails + if pass then 0 else 1
    let next : WhlState := if w.seg + 1 < 2400
      then { w with sliceLeft := w.sliceLeft - 1, seg := w.seg + 1, reruns := 0, fails := 0 }
      else { w with sliceLeft := 0, seg := 2400, reruns := 0, fails := 0, passed := true }
    (∃ k, w.core = some k) → w.sliceLeft ≠ 0 → w.passed = false →
    (∀ pass, w.reruns = 2 → Answers (.bistSegmentEnd c pass loc) s
      (only { w with sliceLeft := w.sliceLeft - 1, reruns := 1, fails := fails pass })) ∧
    (∀ pass, w.reruns = 1 → fails pass < 2 → Answers (.bistSegmentEnd c pass loc) s fun t =>
      t.cluster g = { s.cluster g with whl := next } ∧ (∀ h, h ≠ g → t.cluster h = s.cluster h) ∧
      Counts s t Reg.FUS_WHL_COUNTS 16 16 ∧ Logged s t 0x16 0x02) ∧
    (∀ pass, w.reruns = 1 → 2 ≤ fails pass → Answers (.bistSegmentEnd c pass loc) s fun t =>
      (t.cluster g).whl.core = none ∧ Counts s t Reg.FUS_WHL_COUNTS 0 16 ∧
      ∃ r ∈ t.ev.atSource, r.cls = 0x16 ∧ r.cause = 0x01) ∧
    (w.reruns = 0 →
    (w.seg + 1 < 2400 → Answers (.bistSegmentEnd c true loc) s
      (only { w with sliceLeft := w.sliceLeft - 1, seg := w.seg + 1, fails := 0 })) ∧
    (2400 ≤ w.seg + 1 → Answers (.bistSegmentEnd c true loc) s
      (only { w with sliceLeft := 0, seg := 2400, fails := 0, passed := true })) ∧
    Answers (.bistSegmentEnd c false loc) s
      (only { w with sliceLeft := w.sliceLeft - 1, reruns := 2, fails := 1 }))

/-- DRAG_CONTROL_PERIOD (R373, R375, R377): the envelope moves by at most a step; the k sent to every die is the least at
which the scaled ceilings and the idle draw fit within it, 64 where none does; no base die's ballast takes it above 950 W
(its own draw by log entry 143). -/
def Obligations.DragPeriod : Prop :=
  ∀ (mv idle measured : Nat) (draws : List (Nat × Nat)) (s : State), s.power.off = false →
    let step := min (s.field Reg.PWR_CFG 0 8 * 100000) (250 * mv) * 1024 / 1000000
    Answers (.dragControlPeriod mv idle measured draws) s fun t =>
      t.power.inputMv = mv ∧ t.power.idleMw = idle ∧
      t.power.envMw ≤ s.power.envMw + step ∧ s.power.envMw ≤ t.power.envMw + step ∧
      t.field Reg.PWR_STATUS 8 7 ≤ 64 ∧
      (t.ceilingsMw * (64 - t.field Reg.PWR_STATUS 8 7) + 64 * idle ≤ 64 * t.power.envMw ∨ t.field Reg.PWR_STATUS 8 7 = 64) ∧
      (∀ k, k < t.field Reg.PWR_STATUS 8 7 → 64 * t.power.envMw < t.ceilingsMw * (64 - k) + 64 * idle) ∧
      (∀ d, d < 64 → AMap.get 0 t.power.ballast d ≤
        950000 - t.dieDraw idle (t.field Reg.PWR_STATUS 8 7) draws d) ∧
      t.chsMem = s.chsMem

/-- The 16-bit cluster number (R16): every die, row and column gives one, and it gives them back. -/
def Obligations.ClusterNumbers : Prop :=
  ∀ die y x : Nat, die < 64 → y < 32 → x < 32 →
    gidOf die y x = die * 1024 + y * 32 + x ∧ gidOf die y x < 65536 ∧
    gidDie (gidOf die y x) = die ∧ gidY (gidOf die y x) = y ∧ gidX (gidOf die y x) = x

/-- The kind of a cluster is fixed by its place in its 4 by 4 block (R15). -/
def Obligations.ClusterKinds : Prop :=
  ∀ die y x : Nat, die < 64 → y < 32 → x < 32 →
    kindOf (gidOf die y x) =
      if (x % 4, y % 4) = (1, 1) ∨ (x % 4, y % 4) = (3, 3) then .f
      else if (x % 4, y % 4) = (3, 1) ∨ (x % 4, y % 4) = (1, 3) then .s else .m

/-- The home index of a key, in the arithmetic of numbers (R175): exclusive ors, a product modulo 2^32, and the top 11 bits. -/
def Obligations.HashHome : Prop :=
  ∀ key : BitVec 40,
    let f := key.toNat ^^^ (key.toNat / 2 ^ 20)
    let g := f % 2 ^ 32 ^^^ f / 2 ^ 32
    haHome key = g * 0x9E3779B1 % 2 ^ 32 / 2 ^ 21 ∧ haHome key < 2048

/-- Without conversion, entry k of row r of any pass lies at start + r × stride + k × size of its window, and the entries
go in the order k, then r, then pass (R222). -/
def Obligations.PatternOrder : Prop :=
  ∀ (d : StreamDesc) (k r pass : Nat), k < d.rowLen → r < d.rows →
    d.offset (k + d.rowLen * (r + d.rows * pass)) = ((d.start : Int) + r * d.stride + k * d.size).toNat

/-- Stream engines (R222-R227, R231, R240, R331): an egress slot asks its stack for the next granule where 4 KiB in order
fit its room and have landed, else for what has landed of the next line; a converting one expands the next slot group, which it reads
from the Coachhouse in the same step (log entry 20), the width of packed elements being free (log entry 17), both the
model's choices; credits return to the egress slot that the message's coupling field names;
a whole ingress line goes to its stack, a partial one is read first. Nothing but the slot and the stack's link changes. -/
def Obligations.StreamEngines : Prop :=
  ∀ (die : BitVec 6) (edge : BitVec 2) (slot cpl : BitVec 6) (n : BitVec 8) (s : State),
    let key := stripKey die.toNat edge.toNat slot.toNat
    let x := s.strip key
    let d := x.desc
    let tag := (s.job x.job.toNat).tag
    let room := d.depth - (x.fetched - x.driven)
    let dst := stripKey die.toNat edge.toNat cpl.toNat
    let run := d.run x.written 64 (64 / d.size)
    let element := x.fetched / d.perElement
    let first : Prop := element % d.rowLen = 0
    let pos := if first then 0 else x.rowByte
    let row := ((d.start : Int) + (element / d.rowLen % d.rows : Nat) * d.stride).toNat
    let win := (s.job x.job.toNat).window d.window
    let full := 4096 / d.size
    let lands (i : Nat) : Bool := s.mayFetch key (x.fetched + i)
    let granule : Bool := decide (d.offset x.fetched % 4096 = 0) && decide (full ≤ room) &&
      decide (d.run x.fetched 4096 full = full) && (List.range full).all lands
    let count := if granule then full
      else ((List.range (min room (d.run x.fetched 64 (64 / d.size)))).takeWhile lands).length
    let posts (k : Nat) (tx : BitVec 12) (t : State) (txn : Txn) (f : Frame) : Prop :=
      t = { s with strips := t.strips, dstacks := t.dstacks } ∧
      Sets s.stack t.stack k { s.stack k with
        toStack := (s.stack k).toStack.post (s.stack k).toCtl f
        txns := AMap.set .none (s.stack k).txns tx.toNat txn
        nextTag := tx + 1 }
    let writes : Prop := x.used = true ∧ d.ingress = true ∧ x.done = false ∧ x.pendingWrite = false ∧ 0 < run ∧ run ≤ x.buf.length
    (∀ k loc tx, x.egressOpen = true → d.conv = 0 → 0 < count →
      s.chsDecode (s.streamBase x + d.offset x.fetched) = some (k, loc) → s.stackUp k = true →
      (s.stack k).freeTag = some tx → (s.stack k).toStack.room = true →
      Answers (.egressPrefetch die edge slot) s fun t =>
        Sets s.strip t.strip key { x with fetched := x.fetched + count } ∧
        posts k tx t (.egress tag key x.fetched count (if granule then 0 else loc % 64))
          (frame 1 granule tx (loc / (64 * frameLines granule) * (64 * frameLines granule)))) ∧
    (∀ bs u, x.egressOpen = true → d.conv = 1 ∨ d.conv = 2 → d.perElement ≤ room → s.gatedBy key = [] →
      x.rowBad = false ∨ first → 0 ≤ (d.start : Int) + (element / d.rowLen % d.rows : Nat) * d.stride →
      s.readBlocks (s.streamBase x) win.bytes (if 1 < d.rows ∧ 0 < d.stride then row + d.stride.toNat else win.bytes)
        (row + pos) (s.packedWidth key) tag 4 = (.ok bs, u) → (∀ b ∈ bs, b.headBad = false) →
      Answers (.egressPrefetch die edge slot) s fun t =>
        t = { u with strips := t.strips } ∧
        Sets u.strip t.strip key { x with
          fetched := x.fetched + d.perElement
          ready := x.fetched + d.perElement
          rowByte := pos + (bs.map (·.packed)).sum
          rowBad := false
          buf := x.buf ++ { data := BitVec.ofNat 512 (leNat (bs.flatMap (·.head))), poison := false } ::
            groupAreas d.conv bs }) ∧
    (n ≠ 0#8 → x.used = true → (s.strip dst).used = true → (s.strip dst).desc.ingress = false → (s.strip dst).job = x.job →
      (s.strip dst).credit + n.toNat ≤ (s.strip dst).desc.credits →
      Answers (.creditReturn die edge slot (n ++ cpl ++ 0#2)) s (Noted fun t =>
        Sets s.strip t.strip dst { s.strip dst with credit := (s.strip dst).credit + n.toNat } ∧
        t = { s with strips := t.strips })) ∧
    (∀ k loc tx, writes → s.chsDecode (s.streamBase x + d.offset x.written) = some (k, loc) → s.stackUp k = true →
      (s.stack k).freeTag = some tx → (s.stack k).toStack.room = true →
      (run * d.size = 64 → Answers (.ingressLineWrite die edge slot) s fun t =>
        Sets s.strip t.strip key { x with buf := x.buf.drop run, written := x.written + run } ∧
        posts k tx t (.ingress tag key x.written (x.written + run))
          { frame 2 false tx (loc / 64 * 64) with
            data := [lineWith x (x.buf.take run) x.written 0#512]
            poison := if (x.buf.take run).any (·.poison) then 1 else 0 }) ∧
      (run * d.size ≠ 64 → Answers (.ingressLineWrite die edge slot) s fun t =>
        Sets s.strip t.strip key { x with pendingWrite := true } ∧
        posts k tx t (.partialLine tag key x.written (x.written + run)) (frame 1 false tx (loc / 64 * 64))))

/-- The frames of a stack's link (R235, R236): a frame in order and intact is taken, its ack frees what it covers, and an
answer acknowledges it. A read of lines without errors answers with the lines and their poison; a write puts its lines
into the stack and acknowledges them; the data of a read reaches the egress slot that asked; an acknowledged line counts
as written; an ack alone only frees frames; a NAK sends every unacknowledged frame again, while none has gone out four
times. That a sequenced frame which nothing answers is acknowledged alone (log entry 125), and that an ACK and a NAK take
no number (log entry 21), are the model's reading. -/
def Obligations.LinkFrames : Prop :=
  ∀ (stack : BitVec 5) (s : State) (f : Frame) (rest : List Frame),
    let k := stack.toNat
    let x := s.stack k
    let n := frameLines f.granule
    let line (i : Nat) := lineKey k (f.addr.toNat + 64 * i)
    let heads (toStack : Bool) (kind : Nat) : Prop :=
      s.stackState k = 2 ∧ f.kind.toNat = kind ∧ f.crc = f.check ∧ x.answers = [] ∧ (x.dirs toStack).1.wire = f :: rest
    let took : Stack := { x with
      toStack := { x.toStack with wire := rest, rxNext := x.toStack.rxNext + 1 }, toCtl := x.toCtl.acked f.ack }
    let answers (t : State) (g : Frame) : Prop :=
      Sets s.stack t.stack k { took with toCtl := took.toCtl.post took.toStack g }
    let atCtl : LinkDir := { x.toCtl with wire := rest, rxNext := x.toCtl.rxNext + 1 }
    let freed (t : State) : Prop := Sets s.stack t.stack k { x with
      toCtl := atCtl, toStack := (x.toStack.acked f.ack).signal atCtl 5
      txns := AMap.set .none x.txns f.tag.toNat .none }
    (heads true 1 → f.seq = x.toStack.rxNext → f.aligned = true → (x.toCtl.acked f.ack).room = true →
      (∀ i, i < n → AMap.get 0 s.symErr (line i) = 0) →
      Answers (.readRequest stack true) s fun t => t = { s with dstacks := t.dstacks } ∧ ∃ p : BitVec 64,
        (∀ i, i < n → p.getLsbD i = AMap.get false s.poisoned (line i)) ∧
        answers t { frame 3 f.granule f.tag f.addr.toNat with
          data := (List.range n).map fun i => BitVec.ofNat 512 (readLe s.chsMem (64 * line i) 64)
          poison := p
          status := if p = 0 then 0 else 1 }) ∧
    (heads true 2 → f.seq = x.toStack.rxNext → f.aligned = true → f.data.length = n → (x.toCtl.acked f.ack).room = true →
      Answers (.writeFrame stack true) s fun t =>
        t = { s with dstacks := t.dstacks, chsMem := t.chsMem, poisoned := t.poisoned, symErr := t.symErr, pair := t.pair } ∧
        answers t (frame 4 f.granule f.tag f.addr.toNat) ∧
        (∀ i d, f.data[i]? = some d → readLe t.chsMem (64 * line i) 64 = d.toNat ∧
          AMap.get false t.poisoned (line i) = f.poison.getLsbD i ∧ AMap.get 0 t.symErr (line i) = 0) ∧
        ∀ a, (∀ i, i < n → a < 64 * line i ∨ 64 * line i + 64 ≤ a) → AMap.get 0 t.chsMem a = AMap.get 0 s.chsMem a) ∧
    (∀ job key count off, heads false 3 → f.seq = x.toCtl.rxNext →
      AMap.get .none x.txns f.tag.toNat = .egress job key (s.strip key).ready count off → 0 < count →
      s.slotOf key job = true → (s.strip key).stopped = false → (s.strip key).early = [] → s.gatedBy key = [] →
      Answers (.readData stack true) s fun t =>
        t = { s with dstacks := t.dstacks, strips := t.strips } ∧ freed t ∧
        Sets s.strip t.strip key { s.strip key with
          buf := (s.strip key).buf ++ (entriesOf f (s.strip key).desc.size off count).map fun e =>
            if (s.strip key).desc.net = 2 then { e with poison := false } else e
          ready := (s.strip key).ready + count }) ∧
    (∀ job key upto, heads false 4 → f.seq = x.toCtl.rxNext → f.status ≠ 2 →
      AMap.get .none x.txns f.tag.toNat = .ingress job key (s.strip key).acked upto → 0 < upto →
      s.slotOf key job = true → (s.strip key).spans = [] → (s.strip key).sigCount = 0 → s.gatedBy key = [] →
      (s.job (s.strip key).job.toNat).st ≠ .stopping →
      Answers (.writeAcknowledge stack true) s fun t =>
        t = { s with dstacks := t.dstacks, strips := t.strips } ∧ freed t ∧
        Sets s.strip t.strip key ({ s.strip key with acked := upto }.queueCredits upto)) ∧
    (∀ toStack, heads toStack 5 → Answers (.acknowledgeOnly stack toStack true) s fun t =>
      t = { s with dstacks := t.dstacks } ∧
      Sets s.stack t.stack k
        (x.setDirs toStack { (x.dirs toStack).1 with wire := rest } ((x.dirs toStack).2.acked f.ack))) ∧
    (∀ toStack, heads toStack 6 →
      let back := (x.dirs toStack).2.acked f.ack
      (∀ p ∈ back.unacked, p.2 < 4) → Answers (.nak stack toStack true) s fun t =>
        let again := back.unacked.map fun p => ({ p.1 with ack := (x.dirs toStack).1.rxNext - 1 }.sealed, p.2 + 1)
        t = { s with dstacks := t.dstacks, regs := t.regs } ∧
        t.field (Reg.CHS_LINK k) 0 16 = min (s.field (Reg.CHS_LINK k) 0 16 + back.unacked.length) 65535 ∧
        (∀ a, a ≠ Reg.CHS_LINK k → t.reg a = s.reg a) ∧
        Sets s.stack t.stack k (x.setDirs toStack { (x.dirs toStack).1 with wire := rest } { back with
          wire := back.wire.filter (fun g => decide (5 ≤ g.kind.toNat)) ++ again.map (·.1), unacked := again }))

/-- The upkeep of a stack (R236, R237, R239, R240, R246): after 1,024 releases, or a move of more than 5 K, the link
re-centres; a retraining that ends well is counted and sends what is unacknowledged again, one that fails takes the stack
out of service with cause 0x08, and its event carries the stack alone (R453); the patrol scrub goes on to the next line,
clears what it corrects, and changes nothing else where the line holds no error or is poisoned. That either re-centring
starts the count of releases again is the model's choice (log entry 165). -/
def Obligations.StackUpkeep : Prop :=
  ∀ (stack : BitVec 5) (temp : Nat) (s : State),
    let k := stack.toNat
    let x := s.stack k
    let r := Reg.CHS_STACK k
    let key := lineKey k (x.scrubPos * 64)
    let again (d : LinkDir) : LinkDir :=
      { d with wire := d.unacked.map (·.1), unacked := d.unacked.map fun p => (p.1, 1) }
    (s.stackState k = 2 → 1024 ≤ x.releases ∨ x.centreTemp + 5 < temp ∨ temp + 5 < x.centreTemp →
      Answers (.linkRecentre stack temp) s fun t =>
        t.stackState k = 3 ∧ (∀ a, a ≠ r → t.reg a = s.reg a) ∧ t = { s with regs := t.regs, dstacks := t.dstacks } ∧
        Sets s.stack t.stack k
          { x with link := .phyretrain, afterReplay := false, releases := 0, centreTemp := temp }) ∧
    (s.stackState k = 3 → Answers (.phyretrainComplete stack true) s fun t =>
      t.stackState k = 2 ∧ t.field (Reg.CHS_LINK k) 16 8 = min (s.field (Reg.CHS_LINK k) 16 8 + 1) 255 ∧
      (∀ a, a ≠ r → a ≠ Reg.CHS_LINK k → t.reg a = s.reg a) ∧
      t = { s with regs := t.regs, dstacks := t.dstacks, ev := t.ev, pair := t.pair } ∧
      Sets s.stack t.stack k
        { x with link := .active, afterReplay := false, toStack := again x.toStack, toCtl := again x.toCtl }) ∧
    (s.stackState k = 3 → Answers (.phyretrainComplete stack false) s fun t =>
      t.stackState k = 4 ∧ t.field r 4 8 = 0x08 ∧ srcStack k ∈ t.outOf ∧ (t.stack k).link = .trainerror ∧
      ∃ e ∈ t.ev.atSource, e.cls = 0x0A ∧ e.cause = 0x03 ∧ e.p0.toNat = k) ∧
    (s.field Reg.CHS_CFG 16 1 = 1 → s.stackUp k = true → Answers (.patrolScrub stack) s fun t =>
      (t.stack k).scrubPos = (x.scrubPos + 1) % 2 ^ 30 ∧ (∀ j, j ≠ k → t.stack j = s.stack j) ∧
      (AMap.get 0 s.symErr key = 0 ∨ AMap.get false s.poisoned key = true → t = { s with dstacks := t.dstacks }) ∧
      (∀ w, AMap.get 0 s.symErr key ≠ 0 → AMap.get false s.poisoned key = false →
        rsDecode (codeword (BitVec.ofNat 512 (readLe s.chsMem (64 * key) 64)) (AMap.get false s.poisoned key) ^^^
          AMap.get 0 s.symErr key) = some (w, true) →
        AMap.get 0 t.symErr key = 0 ∧ readLe t.chsMem (64 * key) 64 = (w.extractLsb' 0 512).toNat ∧
        AMap.get false t.poisoned key = w.getLsbD 512 ∧
        t.field (Reg.CHS_CE k) 0 32 = min (s.field (Reg.CHS_CE k) 0 32 + 1) (2 ^ 32 - 1)))

/-- Registers, apertures, functions and host ports (R7-R12, R247, R249, R252-R255, R271, R272, R383, R463): a write that
is no aligned word only counts; one that reaches its register stores what its fields take; a read answers what the
register shows, or the word that an earlier read of the low word latched; the aperture reads and writes the Coachhouse;
a function runs and stops, a port's link comes up and goes down, a function-level reset takes a function's rings and
registers back to their reset and masks its vectors, NumVFs changes up to the fused number. One shadow a wide register
(log entry 92), the vectors masked after a reset and the 4,096 bytes of a BAR2 read (log entry 128) are the model's
choices. -/
def Obligations.HostAccess : Prop :=
  ∀ (via : Via) (off : BitVec 24) (size : Nat) (value : BitVec 32) (env : StepEnv) (port : Bool) (fn : BitVec 6)
      (far : BitVec 36) (len : Nat) (data : List Byte) (poisoned : Bool) (speed : BitVec 4) (width : BitVec 6)
      (flit : Bool) (n : BitVec 16) (s : State),
    let f := viaFn via
    let v := value.toNat
    let key := regKey (viewFn f off.toNat) off.toNat
    let shows (o : Nat) : Word := s.showWord f o (s.hostView via)
    let wordy : Prop := s.fnExists via = true ∧ wordAccess off.toNat size = true
    let stat := Reg.HIF_PORT_STATUS (if port then 1 else 0)
    let running : Prop := s.fnField fn.toNat Reg.HIF_FN_CTRL 0 1 = 1
    let exists_ : Prop := s.fnOnPort port fn.toNat = true
    let admin := s.globalRing fn.toNat 0
    (s.fnExists via = true → wordAccess off.toNat size = false → Answers (.registerWrite via off size value env) s (Noted fun t =>
      t.fnField f Reg.HIF_ERR_COUNT 0 16 = min (s.fnField f Reg.HIF_ERR_COUNT 0 16 + 1) 65535 ∧ RegsOnly s t)) ∧
    (s.fnExists via = true → s.grants via Reg.PWR_CFG = true →
      Answers (.registerWrite via (BitVec.ofNat 24 Reg.PWR_CFG) 4 value env) s (Noted fun t =>
        t.field Reg.PWR_CFG 0 8 = max 5 (min 120 (v % 2 ^ 8)) ∧
        t.field Reg.PWR_CFG 8 10 = max 60 (min 600 (v / 2 ^ 8 % 2 ^ 10)) ∧
        (∀ a, a ≠ Reg.PWR_CFG → t.reg a = s.reg a) ∧ RegsOnly s t)) ∧
    (s.fnExists via = true → s.grants via Reg.EVT_SEL = true →
      Answers (.registerWrite via (BitVec.ofNat 24 Reg.EVT_SEL) 4 value env) s (Noted fun t =>
        t.reg Reg.EVT_SEL = value ∧ (∀ a, a ≠ Reg.EVT_SEL → t.reg a = s.reg a) ∧ RegsOnly s t)) ∧
    (wordy → s.grants via off.toNat = true → AMap.get none s.shadow key = none →
      Answers (.registerRead via off size) s fun t =>
        t = { s with sent := .regRead (shows off.toNat) :: s.sent, shadow := t.shadow } ∧
        ∀ i, i < upperWords off.toNat → viewFn f (off.toNat + 4 * (i + 1)) = 0 →
          AMap.get none t.shadow (off.toNat + 4 * (i + 1)) = some (shows (off.toNat + 4 * (i + 1)))) ∧
    (∀ w, wordy → s.grants via off.toNat = true → AMap.get none s.shadow key = some w →
      Answers (.registerRead via off size) s fun t =>
        t = { s with sent := .regRead w :: s.sent, shadow := AMap.set none s.shadow key none }) ∧
    (∀ a bs bad u, len ≤ 4096 → s.bar2Ok fn.toNat far.toNat len false = some a → s.chsRead a len 0 = (bs, bad, u) →
      Answers (.bar2Read port fn far len) s fun t => t = { u with sent := .bar2Data bs (!bad.isEmpty) :: u.sent }) ∧
    (∀ a k loc, data.length = 64 → s.bar2Ok fn.toNat far.toNat 64 true = some a → a % 64 = 0 →
      s.chsDecode a = some (k, loc) → s.stackUp k = true →
      Answers (.bar2Write port fn far data poisoned) s fun t =>
        readBytes t.chsMem (64 * lineKey k loc) 64 = data ∧ AMap.get false t.poisoned (lineKey k loc) = poisoned ∧
        (∀ b, b < 64 * lineKey k loc ∨ 64 * lineKey k loc + 64 ≤ b → AMap.get 0 t.chsMem b = AMap.get 0 s.chsMem b) ∧
        t = { s with chsMem := t.chsMem, poisoned := t.poisoned, symErr := t.symErr, pair := t.pair }) ∧
    (exists_ → ¬running → value.getLsbD 0 = true → Answers (.functionRun port fn value) s fun t =>
      t.fnField fn.toNat Reg.HIF_FN_CTRL 0 1 = 1 ∧ t.fnField fn.toNat Reg.HIF_FN_CTRL 1 2 = v / 2 % 4 ∧
      t.fnField fn.toNat Reg.HIF_STATUS 0 1 = 1 ∧ t = { s with regs := t.regs, rings := t.rings } ∧
      (∀ r, r ≠ admin → t.ring r = s.ring r) ∧
      ((s.ring admin).used = false → fn = 0#6 ∨ (s.fn fn.toNat).groupCount ≠ 0 →
        (t.ring admin).used = true ∧ (t.ring admin).fn = fn ∧ (t.ring admin).loc = 0#16)) ∧
    (exists_ → running → value.getLsbD 0 = false → v / 2 % 4 = s.fnField fn.toNat Reg.HIF_FN_CTRL 1 2 →
      Answers (.functionStop port fn value) s fun t =>
        t.fnField fn.toNat Reg.HIF_FN_CTRL 0 1 = 0 ∧ t.fnField fn.toNat Reg.HIF_STATUS 0 1 = 0 ∧ RegsOnly s t) ∧
    (1 ≤ speed.toNat → speed.toNat ≤ 6 → width ∈ [1#6, 4#6, 8#6, 16#6] →
      Answers (.portLinkUp port speed width flit) s fun t =>
        t.field stat 0 4 = speed.toNat ∧ t.field stat 4 6 = width.toNat ∧ t.field stat 10 1 = (if flit then 1 else 0) ∧
        t.field stat 11 1 = 1 ∧ (∀ a, a ≠ stat → t.reg a = s.reg a) ∧
        t = { s with regs := t.regs, portReset := AMap.set false s.portReset (if port then 1 else 0) false }) ∧
    (s.hostPortUp port = true → s.pairActive = false → Answers (.portLinkDown port) s fun t =>
      t.hostPortUp port = false ∧ (∀ p ∈ s.rings, p.2.used = true → p.2.port = port → KeysRise s.rings →
        (t.ring p.1).descs = [])) ∧
    (fn ≠ 0#6 → (∀ k, (s.fn fn.toNat).slot = some k → (s.job k.toNat).st = .free) → KeysRise s.rings →
      Answers (.flr fn) s fun t => ∃ u : State, t = (if (s.fn fn.toNat).slot = none then u else u.settleDone) ∧
        (∀ r, (s.ring r).used = true → (s.ring r).fn = fn → u.ring r = {}) ∧
        (∀ r, (s.ring r).fn ≠ fn → u.ring r = s.ring r) ∧
        (∀ o, o < 0x100 → o ≠ Reg.HIF_FN_INFO → u.fnReg fn.toNat o = regResetValue fn.toNat o) ∧
        Sets s.fn u.fn fn.toNat { s.fn fn.toNat with seenGen := 0, errCount := 0 } ∧
        (∀ p v, AMap.get false u.msixOpen (vectorKey p fn.toNat (v % 32)) = false ∧
          AMap.get false u.msixPend (vectorKey p fn.toNat (v % 32)) = false) ∧
        u = { s with rings := u.rings, regs := u.regs, shadow := u.shadow, fns := u.fns, jobs := u.jobs,
                     msixOpen := u.msixOpen, msixPend := u.msixPend }) ∧
    (n.toNat ≤ Config.maxVfs.toNat → s.inRecovery = false → Answers (.numvfsWrite n) s fun t =>
      t = { s with numVfs := n.toNat, vfsGone := [] })

/-- What one ring's producer index shows of new descriptors (R258). -/
def ringNew (s : State) (base : Nat) (r : Ring) : Nat :=
  (readLe s.hostMem (base + 4096 + 4 * r.loc.toNat) 4 + 2 ^ 32 - r.ci % 2 ^ 32) % 2 ^ 32

/-- Polling, fetching and the completion of a descriptor (R256-R258, R261-R264, R269): at its time a poll cycle takes the
generation and the producer indices of the one function that runs; the next descriptor of a ring with new ones is fetched;
NOP completes; a completion of a ring's only descriptor is written to its slot of the completion ring; a coalesced message
is sent at its time; an unmasked vector sends what was pending. That a command takes its time on the Milestone is the
model's choice (log entry 8). -/
def Obligations.RingService : Prop :=
  ∀ (ring : BitVec 16) (fn : BitVec 6) (vec : BitVec 5) (port : Bool) (d : Desc) (s : State),
    let rn := ring.toNat
    let r := s.ring rn
    let f := fn.toNat
    let base := s.dbBase f
    let g := readLe s.hostMem base 8
    let fetches : Prop := r.used = true ∧ r.stopped = false ∧ r.destroyRef = none ∧ r.ci % 2 ^ 32 ≠ r.piSeen ∧
      r.descs.length < 256 ∧ s.fetchHeld rn = false ∧ s.fnField r.fn.toNat Reg.HIF_FN_CTRL 0 1 = 1
    let got : Desc := { idx := r.ci, phase := .fetched,
                        raw := BitVec.ofNat 512 (readLe s.hostMem (r.descBase.toNat + 64 * (r.ci % 2 ^ r.log2)) 64) }
    let vkey := vectorKey port f vec.toNat
    let rkey := vectorKey r.port r.fn.toNat (r.vector.toNat % 32)
    (KeysRise s.rings → (∀ h, h < 64 → (s.fnField h Reg.HIF_FN_CTRL 0 1 = 1 ↔ h = f)) → s.hostPortUp (s.dbPort f) = true →
      g ≠ (s.fn f).seenGen.toNat → Answers (.pollCycle []) s fun t =>
        t.ms = max s.ms s.pollDue ∧ t.pollDue = max s.ms s.pollDue + 250 * s.field Reg.HIF_POLL_INTERVAL 0 12 ∧
        (t.fn f).seenGen.toNat = g ∧ readLe t.hostMem (base + 192) 8 = g ∧
        ∀ p ∈ s.rings, p.2.used = true → p.2.fn = fn → p.2.loc.toNat < s.ringCount f →
          s.fnField f Reg.HIF_FN_CTRL 1 1 = 1 ∨
            bitAt (readLe s.hostMem (base + 64 + 8 * (p.2.loc.toNat / 4096)) 8) (p.2.loc.toNat / 64 % 64) = true →
          ringNew s base p.2 ≤ 2 ^ p.2.log2 →
          (t.ring p.1).piSeen = readLe s.hostMem (base + 4096 + 4 * p.2.loc.toNat) 4) ∧
    (fetches → (∀ x ∈ r.descs, x.phase = .fetched ∨ x.phase = .started) →
      (∀ x ∈ r.descs ++ [got], opcodeKnown x.opcode = true) → Answers (.descriptorFetch ring true) s fun t =>
        t = s.setRing rn { r with ci := r.ci + 1, descs := r.descs ++ [got] }) ∧
    (fetches → Answers (.descriptorFetch ring false) s fun t =>
      (t.ring rn).stopped = true ∧ (t.ring rn).ci = r.ci ∧ (t.ring rn).descs = r.descs) ∧
    (Starts s rn 0 d → Answers (.nop ring) s (Settled rn fun t => t = (started s rn d).complete (refOf rn d) 0 0 0)) ∧
    (Starts s rn 0 d → r.descs = [d] → s.pairedRing rn = false → Answers (.nop ring) s fun t =>
      (t.ring rn).descs = [] ∧ (t.ring rn).retired = r.retired + 1 ∧
      readLe t.hostMem (r.cplBase.toNat + 32 * (d.idx % 2 ^ r.log2)) 32 =
        (completionEntry (d.raw.extractLsb' 64 64).toNat d.idx 0 0 0 s.ms r.log2).toNat) ∧
    (r.used = true → r.unsignalled ≠ 0 → r.coalTime ≠ 0#16 → r.vector ≠ 0xFF#8 → s.hostPortUp r.port = true →
      s.quietRing rn = false → Answers (.coalesceTimer ring) s fun t =>
        t.ms = max s.ms (r.firstUnsig + 1000 * r.coalTime.toNat) ∧ Sets s.ring t.ring rn { r with unsignalled := 0 } ∧
        t = { s with ms := t.ms, msOff := t.msOff, up := t.up, man := t.man, rings := t.rings, sent := t.sent, msixPend := t.msixPend } ∧
        (if AMap.get false s.msixOpen rkey then
          t.sent = .msix r.port r.fn (BitVec.ofNat 5 (r.vector.toNat % 32)) :: s.sent ∧ t.msixPend = s.msixPend
        else AMap.get false t.msixPend rkey = true ∧ t.sent = s.sent)) ∧
    (s.quietVector port f vec.toNat = false → Answers (.vectorUnmask port fn vec) s fun t =>
      AMap.get false t.msixOpen vkey = true ∧
      t = { s with msixOpen := t.msixOpen, msixPend := t.msixPend, sent := t.sent } ∧
      (AMap.get false s.msixPend vkey = true → t.sent = .msix port fn vec :: s.sent ∧ AMap.get false t.msixPend vkey = false) ∧
      (AMap.get false s.msixPend vkey = false → t.sent = s.sent ∧ t.msixPend = s.msixPend))

/-- The admin commands and the DMAs of the host (R252, R259, R263-R267, R297): a command whose fields are in range has its
effect and completes with status 0; no admin ring can be destroyed; a DMA whose range may be reached starts and holds its
job, and its end moves the bytes and completes. -/
def Obligations.HostCommands : Prop :=
  ∀ (ring : BitVec 16) (d : Desc) (s : State),
    let rn := ring.toNat
    let fn := (s.ring rn).fn.toNat
    let u := started s rn d
    let ref := refOf rn d
    let loc := d.num 16 2
    let g := s.globalRing fn loc
    let vf := d.num 16 1
    let first := d.num 20 2
    let count := d.num 22 2
    let lg := d.num 18 1
    let slot := d.num 38 2 % 64
    let tag := BitVec.ofNat 16 (d.num 38 2)
    let clean (op : Nat) : Prop := Starts s rn op d ∧ s.service ≠ 0 ∧ d.num 24 8 < 2 ^ 41 ∧ 0 < d.num 32 4 ∧
      d.num 32 4 ≤ 2 ^ 30 ∧ (d.num 36 1 = 0xFF → d.num 38 2 = 0)
    let held (t : State) : Prop := t = if d.num 36 1 = 0xFF then u else
      u.modJob slot fun j => { j with dmas := j.dmas ++ [ref] }
    let freed (x : State) : State := if d.num 36 1 = 0xFF then x else
      x.modJob slot fun j => { j with dmas := j.dmas.filter (· != ref) }
    let moving (op : Nat) : Prop := (s.ring rn).descs.find? (fun x => x.idx == d.idx && x.phase == .started &&
      (x.opcode == 0x20 || x.opcode == 0x21)) = some d ∧ d.opcode = op
    (Starts s rn 1 d → loc ≠ 0 → loc < s.ringCount fn → (s.ring g).used = false → 4 ≤ lg → lg ≤ 16 → d.num 19 1 ≤ 1 →
      d.num 20 1 ≤ 31 ∨ d.num 20 1 = 0xFF → d.num 21 1 ≠ 0 → d.num 24 8 % min (64 * 2 ^ lg) 4096 = 0 →
      d.num 32 8 % min (32 * 2 ^ lg) 4096 = 0 → fn ≠ 0 ∨ s.groupOwner (loc / 64) = false →
      Answers (.createRing ring) s (Settled rn fun t => t = (u.setRing g
        { used := true, fn := (s.ring rn).fn, loc := BitVec.ofNat 16 loc, port := d.num 19 1 == 1,
          vector := BitVec.ofNat 8 (d.num 20 1), coalCount := BitVec.ofNat 8 (d.num 21 1),
          coalTime := BitVec.ofNat 16 (d.num 22 2), descBase := BitVec.ofNat 64 (d.num 24 8),
          cplBase := BitVec.ofNat 64 (d.num 32 8), log2 := lg }).complete ref 0 0 0)) ∧
    (Starts s rn 2 d → (s.ring g).used = true → (s.ring g).loc = 0#16 → Answers (.destroyRing ring) s fun t =>
      (t.ring g).used = true) ∧
    (Starts s rn 2 d → loc ≠ 0 → loc < s.ringCount fn → g ≠ rn → (s.ring g).used = true → (s.ring g).loc ≠ 0#16 →
      (s.ring g).destroyRef = none →
      (∀ x ∈ (s.ring g).descs, x.phase = .fetched) → (∀ p ∈ s.jobs, ∀ x, p.2.startRef = some x → x.ring.toNat ≠ g) →
      Answers (.destroyRing ring) s (Settled rn fun t => t.ring g = {} ∧
        t = { s with rings := t.rings, hostMem := t.hostMem, sent := t.sent, msixPend := t.msixPend, pair := t.pair,
                     ports := t.ports, jobs := t.jobs, streams := t.streams, opens := t.opens })) ∧
    (Starts s rn 3 d → fn = 0 → vf ≠ 0 → vf ≤ s.numVfs → vf < 64 → s.fnField vf Reg.HIF_FN_CTRL 0 1 = 0 →
      (∀ p ∈ s.rings, p.2.used = true → p.2.fn.toNat = vf → p.2.loc = 0#16) → d.num 17 1 ≤ 63 →
      (∀ f, f ≠ 0 → f ≠ vf → f < 64 → (s.fn f).slot ≠ some (BitVec.ofNat 6 (d.num 17 1)) ∧
        ((s.fn f).groupCount = 0 ∨ (s.fn f).groupFirst + (s.fn f).groupCount ≤ first ∨ first + count ≤ (s.fn f).groupFirst)) →
      (∀ p ∈ s.rings, p.2.used = true → p.2.fn = 0#6 → p.1 < 64 * first ∨ 64 * (first + count) ≤ p.1) →
      first ≤ 1023 → count ≠ 0 → first + count ≤ 1024 → d.num 24 8 % 4096 = 0 → d.num 24 8 < 2 ^ 41 → d.num 32 4 ≠ 0 →
      Answers (.assignVf ring) s (Settled rn fun t =>
        Sets s.fn t.fn vf { s.fn vf with
          slot := some (BitVec.ofNat 6 (d.num 17 1))
          groupFirst := first
          groupCount := count
          chsBase := d.num 24 8
          chsGranules := d.num 32 4 } ∧
        t.fnField vf Reg.HIF_FN_INFO 8 8 = d.num 17 1 ∧ t.fnField vf Reg.HIF_FN_INFO 16 16 = 64 * count - 1)) ∧
    (Starts s rn 4 d → d.num 16 8 % apertureSize fn = 0 → Answers (.setAperture ring) s (Settled rn fun t =>
      (t.fnReg fn Reg.HIF_BAR2_BASE_LO).toNat + 2 ^ 32 * (t.fnReg fn Reg.HIF_BAR2_BASE_HI).toNat = d.num 16 8 ∧
      ∀ a, a ≠ Reg.HIF_BAR2_BASE_LO → a ≠ Reg.HIF_BAR2_BASE_HI → a < 2 ^ 24 → t.fnReg fn a = s.fnReg fn a)) ∧
    (clean 0x20 → s.dmaAddress fn d ≠ none → Answers (.dmaToChs ring) s (Settled rn held)) ∧
    (clean 0x21 → s.dmaAddress fn d ≠ none → Answers (.dmaFromChs ring) s (Settled rn held)) ∧
    (∀ v, moving 0x20 → s.chsWrite (s.dmaBase d) (readBytes s.hostMem (d.num 16 8) (d.num 32 4)) (fun _ => false) tag
        (s.pairedRing rn) = (v, []) →
      Answers (.dmaComplete ring d.idx .ok) s fun t => t = (freed v).complete ref 0 tag 0) ∧
    (∀ bs v, moving 0x21 → s.chsRead (s.dmaBase d) (d.num 32 4) tag = (bs, [], v) →
      Answers (.dmaComplete ring d.idx .ok) s fun t =>
        t = (freed { v with hostMem := writeBytes v.hostMem (d.num 16 8) bs }).complete ref 0 tag 0)

/-- The commands of a job's life (R273-R276, R289-R297, R332, R374, R375, R378): each from the state that takes it, by a
function that may use the slot and with a current tag. The time of beat 0 and of the close timeout (log entry 8), a job
that stays Loaded until JOB_BEAT_ZERO (log entry 88), the closing of its streams at its end (log entry 76) and JOB_QUERY of
an unloading tag (log entry 140) are the model's choices. -/
def Obligations.JobLife : Prop :=
  ∀ (ring : BitVec 16) (slot : BitVec 6) (tests : List (BitVec 3 × BistLoc)) (d : Desc) (s : State),
    let rn := ring.toNat
    let fn := (s.ring rn).fn.toNat
    let u := started s rn d
    let ref := refOf rn d
    let k := d.num 16 2 % 64
    let j := s.job k
    let st := j.stateOf (d.num 16 2)
    let m := slot.toNat
    let i := s.job m
    let c := loadCmd u rn fn d
    let slow := s.field (if k < 32 then Reg.PWR_SLOT_GRADE_LO else Reg.PWR_SLOT_GRADE_HI) (k % 32) 1
    (∀ x v, Starts s rn 0x10 d → (∀ p ∈ loadTests d, p.2 = false) → 2 ≤ s.service → s.mayUse fn c.slot = true →
      s.replacing = false → u.loadCheck c = (0, x, v) → Answers (.jobLoad ring) s (Settled rn fun t =>
        t = v.reserve c x ref ∧ (t.job c.slot).st = .loading ∧ (t.job c.slot).loadRef = some ref)) ∧
    (∀ b v, i.st = .loading → s.chsRead i.imgAddr i.imgLen 0 = (b, [], v) → imgCrc b = bytesNum b 16 4 → imgCrc b = i.crc →
      Answers (.loadComplete slot) s fun t =>
        (t.job m).st = .loaded ∧ (t.job m).gen = nextGen i.gen ∧
        (t.job m).tag = BitVec.ofNat 16 (m + 64 * (nextGen i.gen).toNat) ∧ (t.job m).withheld = 0) ∧
    (Commands s rn 0x11 d → st = .loaded → j.ceilW = 0 → Answers (.jobStart ring) s (Settled rn fun t =>
      Sets u.job t.job k { j with
        startRef := some ref
        ceilW := 850
        half := slow == 1 || s.thermal == 2 || s.service == 2
        acceptMs := s.ms } ∧
      t = { u with jobs := t.jobs, power := t.power, regs := t.regs })) ∧
    (i.st = .loaded → i.ceilW ≠ 0 → Answers (.jobBeatZero slot) s fun t =>
      t.ms = ((s.advanceTo (i.acceptMs + 100)).afterSend).ms ∧ i.acceptMs + 100 ≤ t.ms ∧
      (∀ x, s.power.kSent.head? = some x → x.1 + 100 ≤ t.up) ∧
      Sets s.job t.job m { i with st := .running, zeroMs := t.ms, beat := 0, winPos := 0 } ∧
      (∀ g, i.covers (gidDie g) = true → (s.cluster g).prog ≠ [] → (t.cluster g).parked = false) ∧
      t = { s with ms := t.ms, msOff := t.msOff, up := t.up, man := t.man, jobs := t.jobs, clusters := t.clusters }) ∧
    (Commands s rn 0x12 d → st = .running → j.stopAt = none → Answers (.jobStop ring) s (Settled rn fun t =>
      t = u.setJob k { j with
        stopRefs := j.stopRefs ++ [ref], stopKind := if j.stopKind = 0 then 1 else j.stopKind
        stopAt := some j.beat, acceptMs := s.ms })) ∧
    (Commands s rn 0x12 d → st = .loaded → Answers (.jobStop ring) s (Settled rn fun t => (t.job k).st = .stopped)) ∧
    (i.st = .running → i.stopAt ≠ none → i.faultDue = false → Answers (.stopBeat slot) s fun t =>
      ((t.job m).st = .stopped ∨ (t.job m).st = .stopping) ∧ (i.stopKind ≠ 1 → (t.job m).st = .stopped)) ∧
    (Commands s rn 0x13 d → st = .running → Answers (.jobKill ring) s (Settled rn fun t =>
      t = (u.setJob k { j with
        stopRefs := j.stopRefs ++ [ref], stopKind := if 2 ≤ j.stopKind.toNat then j.stopKind else 2
        stopAt := some (j.stopAt.getD j.beat)
        acceptMs := if j.stopAt.isSome then j.acceptMs else s.ms }).settleDone)) ∧
    (Commands s rn 0x13 d → st = .loaded → Answers (.jobKill ring) s (Settled rn fun t => (t.job k).st = .stopped)) ∧
    (Commands s rn 0x14 d → st.over = true → Answers (.jobUnload ring) s (Settled rn fun t =>
      Sets u.job t.job k { j with st := .unloading, unloadRef := some ref, acceptMs := s.ms } ∧
      t = { u with jobs := t.jobs, streams := t.streams, ports := t.ports })) ∧
    (i.st = .unloading → i.flrUnload = false → s.unloadWaits m = [] → i.dmas = [] → i.startRef = none →
      (∀ x ∈ s.flash.suspects, x.due = true → i.covers x.die.toNat = false) →
      Answers (.jobUnloadComplete slot tests) s fun t =>
        (t.job m).st = .free ∧ (t.job m).gen = i.gen ∧
        (∀ key, (t.strip key).used = true → (t.strip key).job ≠ slot) ∧ ∀ r ∈ t.transit, r.job ≠ slot) ∧
    (Commands s rn 0x15 d → Answers (.jobQuery ring) s (Settled rn fun t =>
      t = u.complete ref 0 (BitVec.ofNat 16 (d.num 16 2)) st.code)) ∧
    (i.st = .stopping → i.stopKind = 0 → i.faultDue = false → s.streamsComplete m = true →
      Answers (.jobEnded slot) s fun t =>
        t = (((s.stripsOf m).foldl (fun s k => s.closeBlock k) (s.endIssue m)).modJob m fun j =>
          { j with st := .ended, startRef := none }).completeOpt i.startRef 0 i.tag
          ((i.beat - 1) % 2 ^ 32)) ∧
    (i.st = .unloading → s.unloadWaits m ≠ [] → Answers (.closeAckTimeout slot) s fun t =>
      t.ms = max s.ms (i.acceptMs + s.streamTimeoutNs) ∧
      (∀ x, t.stream x = if x ∈ s.unloadWaits m then { s.stream x with st := .closed } else s.stream x) ∧
      t = { s with ms := t.ms, msOff := t.msOff, up := t.up, man := t.man, streams := t.streams })

/-- How many of the unacknowledged flits an ack frees (R309). -/
def ackFrees (x : Port) (ack : BitVec 12) : Nat :=
  match x.unacked with
  | t :: _ =>
    let n := (ack - t.flit.seq.setWidth 12 + 1).toNat
    if n ≤ x.unacked.length then n else 0
  | [] => 0

/-- A port after the ack and the credit of a good flit that carries no nak (R309, R311). -/
def headed (s : State) (x : Port) (ack credit : BitVec 12) (chan : BitVec 2) : Port :=
  let n := ackFrees x ack
  { x with
    credits := AMap.set 0 x.credits chan.toNat (AMap.get 0 x.credits chan.toNat + credit.toNat)
    unacked := x.unacked.drop n
    ackMs := if n = 0 then x.ackMs else s.ms
    replayLeft := min x.replayLeft (x.unacked.length - n) }

/-- Flits of an ACTIVE or training port (R307-R311, R313, R314, R324): what leaves in a flit slot, what a received flit
does in ACTIVE and in RETRAIN, and the two timers of the retry, which take their time on the Milestone (log entry 8, the
model's choice). A training port goes on once TS, then CONFIG, has gone both ways. -/
def Obligations.LanternFlits : Prop :=
  ∀ (port : BitVec 7) (f : Flit) (s : State),
    let p := port.toNat
    let x := s.port p
    let c := f.chan.toNat % 4
    let y := headed s x f.ack f.credit f.creditChan
    let calm : Prop := f.nak = false ∨ y.unacked = []
    let settled : Prop := x.want = none ∧ (x.ownBad ||| x.permBad) &&& x.pairs = 0#8 ∧ x.width.toNat ≤ s.maxPairs p
    let others (t : State) : Prop := ∀ q, q ≠ p → t.port q = s.port q
    let leaves (P : Flit → State → Prop) : Prop := Answers (.flitSlot port) s (Noted fun t =>
      others t ∧ t = { s with ports := t.ports, sent := t.sent, regs := t.regs } ∧ ∃ g,
        flitGood g = true ∧ g.ack = x.rxNext - 1 ∧ g.nak = x.nakDue ∧ g.creditChan.toNat = x.nextCredit.1 ∧
        g.credit.toNat = x.nextCredit.2 ∧ (t.port p).nakDue = false ∧ P g t)
    let on (pairs : Byte) (g : Flit) (t : State) : Prop := t.sent = .flit port pairs g :: s.sent
    let segs := AMap.get [] x.rxq c ++ flitSegs f
    (∀ k, x.st = 7#4 → settled → x.replayLeft = 0 → x.ctlq = [] → x.unacked.length < 2048 → x.nextChan = some k →
      leaves fun g t =>
        let out := AMap.get [] x.txq k
        on x.txPairs g t ∧ g.kind = 1#8 ∧ g.chan.toNat = k ∧ g.seq = x.txSeq.setWidth 16 ∧
        g.payload = (out.take 15).flatMap (fun d => natLe d.data.toNat 16) ∧
        (∀ i d, (out.take 15)[i]? = some d → g.poison.getLsbD i = d.poison) ∧
        AMap.get [] (t.port p).txq k = out.drop 15 ∧ AMap.get 0 (t.port p).credits k + 1 = AMap.get 0 x.credits k ∧
        (t.port p).txSeq = x.txSeq + 1 ∧ (t.port p).rr = (k + 1) % 4 ∧
        (t.port p).unacked = x.unacked ++ [{ flit := dataFlit k x.txSeq (out.take 15), sends := 1 }] ∧
        t.reg64 (Reg.LTN_PORT_TX_LO p) = min (s.reg64 (Reg.LTN_PORT_TX_LO p) + 1) (2 ^ 64 - 1)) ∧
    (x.st = 7#4 → settled → x.replayLeft = 0 → x.ctlq = [] → 2048 ≤ x.unacked.length ∨ x.nextChan = none →
      leaves fun g t => on x.txPairs g t ∧ g.kind = 0#8 ∧ g.payload = [] ∧ (t.port p).unacked = x.unacked ∧
        (t.port p).txq = x.txq) ∧
    (∀ m rest, x.st = 7#4 → settled → x.replayLeft = 0 → x.ctlq = m :: rest → m.head? ≠ some 0x05#8 → m.head? ≠ some 0x06#8 →
      leaves fun g t => on x.txPairs g t ∧ g.kind = 2#8 ∧ g.payload = m ∧ (t.port p).ctlq = rest ∧
        (t.port p).unacked = x.unacked) ∧
    (∀ o, x.st = 7#4 → settled → x.replayLeft ≠ 0 → x.unacked[x.unacked.length - x.replayLeft]? = some o → o.sends ≠ 4 →
      leaves fun g t => on x.txPairs g t ∧ g.kind = o.flit.kind ∧ g.seq = o.flit.seq ∧ g.payload = o.flit.payload ∧
        (t.port p).replayLeft + 1 = x.replayLeft ∧
        (t.port p).unacked = x.unacked.set (x.unacked.length - x.replayLeft) { o with sends := o.sends + 1 }) ∧
    ((x.st = 3#4 ∧ x.seekPause = false) ∨ x.st = 4#4 ∨ (x.st = 5#4 ∧ x.tsSeen = false) → leaves fun g t =>
      on 0xFF#8 g t ∧ g.kind = 2#8 ∧ g.payload = tsBytes (s.tsMsg p) ∧ (t.port p).st = x.st ∧
      ((t.port p).tsSent = true ↔ x.st = 5#4)) ∧
    (∀ w group, x.st = 5#4 → x.tsSeen = true → chooseGroup (s.targetWidth p) x.bad = some (w, group) → leaves fun g t =>
      on 0xFF#8 g t ∧ g.kind = 2#8 ∧ g.payload = tsBytes (s.tsMsg p) ∧ (t.port p).st = 6#4 ∧
      (t.port p).width = BitVec.ofNat 4 w ∧ (t.port p).pairs = group) ∧
    (x.st = 6#4 → x.cfgSeen = false → leaves fun g t =>
      on x.pairs g t ∧ g.kind = 2#8 ∧ g.payload = configBytes (s.configMsg p) ∧ (t.port p).st = 6#4 ∧
      (t.port p).cfgSent = true) ∧
    (x.st = 6#4 → x.cfgSeen = true → x.heldReq = none → Answers (.flitSlot port) s (Noted fun t => ∃ g,
      on x.pairs g t ∧ g.kind = 2#8 ∧ g.payload = configBytes (s.configMsg p) ∧ (t.port p).st = 7#4 ∧
      t.field (Reg.LTN_PORT_PEER p) 17 1 = 1)) ∧
    (∀ h rest, x.linked = true → flitGood f = true → calm → f.kind = 1#8 → f.seq.setWidth 12 = x.rxNext →
      (AMap.get [] x.rxFill c).length < chanBuffers c → segs = h :: rest → h.bodyLen % 16 = 0 → h.bodyLen ≤ 4096 →
      rest.length < h.bodyLen / 16 → Answers (.dataFlit port f) s (Noted fun t =>
        Sets s.port t.port p { y with
          rxNext := x.rxNext + 1
          nakHeldMs := none
          rxFill := AMap.set [] x.rxFill c (AMap.get [] x.rxFill c ++ [16 * (flitSegs f).length])
          rxq := AMap.set [] x.rxq c segs } ∧
        t.reg64 (Reg.LTN_PORT_RX_LO p) = min (s.reg64 (Reg.LTN_PORT_RX_LO p) + 1) (2 ^ 64 - 1) ∧
        t = { s with ports := t.ports, regs := t.regs })) ∧
    (x.linked = true → flitGood f = false → AMap.get [] x.rxq c = [] → Answers (.dataFlit port f) s (Noted fun t =>
      Sets s.port t.port p (if x.nakHeldMs.isSome then x else { x with nakDue := true }) ∧
      Counts s t (Reg.LTN_PORT_CRC p) 0 32 ∧ t = { s with ports := t.ports, regs := t.regs })) ∧
    (x.linked = true → flitGood f = true → calm → Answers (.idleFlit port f) s (Noted fun t =>
      Sets s.port t.port p y ∧ t = { s with ports := t.ports })) ∧
    (x.linked = true → flitGood f = true → f.nak = true → y.unacked ≠ [] → Answers (.idleFlit port f) s (Noted fun t =>
      Sets s.port t.port p { y with replayLeft := y.unacked.length } ∧
      Counts s t (Reg.LTN_PORT_REPLAY p) 0 16 ∧ t = { s with ports := t.ports, regs := t.regs })) ∧
    (x.st = 7#4 → x.unacked ≠ [] → Answers (.replayTimeout port) s (Noted fun t =>
      t.ms = max s.ms (x.ackMs + 4000) ∧ Sets s.port t.port p { x with replayLeft := x.unacked.length, ackMs := t.ms } ∧
      Counts s t (Reg.LTN_PORT_REPLAY p) 0 16 ∧
      t = { s with ports := t.ports, regs := t.regs, ms := t.ms, msOff := t.msOff, up := t.up, man := t.man })) ∧
    (∀ w, x.nakHeldMs = some w → Answers (.nakHoldoffExpiry port) s (Noted fun t =>
      t.ms = max s.ms (w + 2000) ∧ Sets s.port t.port p { x with nakHeldMs := none } ∧
      t = { s with ports := t.ports, ms := t.ms, msOff := t.msOff, up := t.up, man := t.man }))

/-- The control flits (R309, R313-R319, R398): a damaged one counts and asks for a replay; TS shows the peer's pairs and
starts a retrain; CONFIG makes the link ACTIVE once it has gone both ways; REQ, GRANT and WIDTH_MARK carry an operation
through; TIME is noted and sent, and shows a follower an offset of at most 20 ns (log entry 145); a REQ goes out again
every 2 µs. A late TS that counts as the peer's before this end has sent its own (log entry 148), the peer's width learnt
from a REQ (log entry 146), a retrain that stays wanted while an operation runs (log entry 132) and the times of the
timers (log entry 8) are the model's choices. -/
def Obligations.LanternControl : Prop :=
  ∀ (port : BitVec 7) (h : FlitHead) (m : TsMsg) (cm : ConfigMsg) (rm : ReqMsg) (width pairs no : Byte)
      (value : BitVec 64) (arrival : Nat) (s : State),
    let p := port.toNat
    let x := s.port p
    let y := if x.linked then headed s x h.ack h.credit h.creditChan else x
    let good (msg : List Byte) : Bool := flitGood
      { plainFlit 2 msg with ack := h.ack, nak := h.nak, credit := h.credit, creditChan := h.creditChan, crc := h.crc }
    let intact (msg : List Byte) : Prop := good msg = true ∧ (h.nak = false ∨ y.unacked = [])
    let ports (t : State) : Prop := t = { s with ports := t.ports }
    let damaged (c : Instr) (msg : List Byte) : Prop := 3 ≤ x.st.toNat → x.st.toNat ≤ 8 → good msg = false →
      Answers c s (Noted fun t => Counts s t (Reg.LTN_PORT_CRC p) 0 32 ∧ t = { s with ports := t.ports, regs := t.regs } ∧
        Sets s.port t.port p (if x.linked = true ∧ x.nakHeldMs = none then { x with nakDue := true } else x))
    let retrains (t : State) : Prop := (t.port p).st = 8#4 ∧ (t.port p).since = s.ms ∧ (t.port p).unacked = y.unacked ∧
      (t.port p).txq = x.txq ∧ (t.port p).req = none ∧ (t.port p).checked = false ∧ (∀ q, q ≠ p → t.port q = s.port q) ∧
      Counts s t (Reg.LTN_PORT_EVENTS p) 0 8 ∧ Logged s t 0x0C 0x02 ∧
      t = { s with ports := t.ports, regs := t.regs, ev := t.ev, pair := t.pair }
    let seldom : Prop := (x.retrainTimes.filter fun t => decide (s.ms < t + 1000000000)).length < 2
    let lowest := chooseGroup (min (s.maxPairs p) (if m.maxWidth = 2#8 ∨ m.maxWidth = 4#8 then m.maxWidth.toNat else 8))
      (x.ownBad ||| x.permBad ||| (m.bad ||| ~~~m.locked))
    let late : Prop := 5 ≤ m.state.toNat ∧ m.state ≠ 7#8 ∧ m.locked ≠ 0#8
    let learnt : Port := { x with
      peerBad := m.bad ||| ~~~m.locked
      peerMax := if m.maxWidth = 2#8 ∨ m.maxWidth = 4#8 then m.maxWidth else 8#8
      tsSeen := true }
    let peer := cm.moduleId.toNat + 2 ^ 10 * (cm.port.toNat % 128) + 2 ^ 17
    let own := (s.sourceName (srcEngine (p / 2))).toNat
    let told (z : Port) : Port :=
      let wider := match chooseGroup (min (s.maxPairs p) z.peerMax.toNat) (z.ownBad ||| z.permBad ||| rm.bad) with
        | some (w, _) => decide (z.width.toNat < w)
        | none => false
      { z with peerBad := rm.bad, wideSince := if wider then some (z.wideSince.getD s.ms) else none }
    let grants (z : Port) : Port :=
      { told z with ctlq := x.ctlq ++ [grantBytes rm.reqNo], op := some rm, leading := false }
    damaged (.ts port h m) (tsBytes m) ∧ damaged (.req port h rm) (reqBytes rm) ∧
    damaged (.grant port h no) (grantBytes no) ∧ damaged (.widthMark port h width pairs no) (markBytes width pairs no) ∧
    (∀ w g, intact (tsBytes m) → x.st = 5#4 → late → x.tsSent = true → lowest = some (w, g) →
      Answers (.ts port h m) s (Noted fun t => ports t ∧ Sets s.port t.port p { learnt with
        width := BitVec.ofNat 4 w, pairs := g, checked := true, cfgSent := false, cfgSeen := false
        st := 6#4, since := s.ms })) ∧
    (intact (tsBytes m) → x.st = 4#4 ∨ (x.st = 5#4 ∧ x.tsSent = false) → late →
      Answers (.ts port h m) s (Noted fun t => ports t ∧ Sets s.port t.port p learnt)) ∧
    (intact (tsBytes m) → x.st = 7#4 → seldom → Answers (.ts port h m) s (Noted retrains)) ∧
    (intact (configBytes cm) → x.st = 6#4 → cm.version = 1#8 → x.eqSaved = false ∨ x.savedEq.map (·.peer) = some (peer % 2 ^ 17) →
      x.cfgSent = false → Answers (.config port h cm) s (Noted fun t =>
        (t.port p).st = 6#4 ∧ (t.port p).cfgSeen = true ∧ t.field (Reg.LTN_PORT_PEER p) 0 17 = peer % 2 ^ 17)) ∧
    (intact (configBytes cm) → x.st = 6#4 → cm.version = 1#8 → x.eqSaved = false ∨ x.savedEq.map (·.peer) = some (peer % 2 ^ 17) →
      x.cfgSent = true → x.heldReq = none → Answers (.config port h cm) s (Noted fun t =>
        (t.port p).st = 7#4 ∧ (t.port p).txSeq = 0#12 ∧ (t.port p).rxNext = 0#12 ∧ (t.port p).txPairs = x.pairs ∧
        (∀ c, c < 4 → AMap.get 0 (t.port p).credits c = chanBuffers c) ∧
        t.field (Reg.LTN_PORT_PEER p) 0 18 = peer ∧
        t.field (Reg.LTN_PORT_STATUS p) 24 8 = (s.field (Reg.LTN_PORT_STATUS p) 24 8 + 1) % 256)) ∧
    (intact (reqBytes rm) → x.st = 7#4 → rm.op = 3#8 → x.requesting = false → x.op = none →
      Answers (.req port h rm) s (Noted fun t => ports t ∧ Sets s.port t.port p (grants (y.noteMax rm)))) ∧
    (intact (reqBytes rm) → x.st = 7#4 → rm.op = 3#8 → x.requesting = true → own < rm.name.toNat →
      Answers (.req port h rm) s (Noted fun t => ports t ∧ Sets s.port t.port p (told (y.noteMax rm)))) ∧
    (∀ r, intact (reqBytes rm) → x.st = 7#4 → rm.op = 3#8 → x.req = some r → r.sends < 8 → r.msg.op = 3#8 →
      rm.name.toNat < own → Answers (.req port h rm) s (Noted fun t =>
        t = { s with ports := t.ports, regs := t.regs } ∧ Counts s t (Reg.LTN_PORT_EVENTS p) 24 8 ∧
        Sets s.port t.port p (grants { y.noteMax rm with req := none, lost := true }))) ∧
    (∀ r w g, intact (grantBytes no) → x.st = 7#4 → x.req = some r → r.msg.reqNo = no → r.msg.op = 3#8 → x.op = none →
      chooseGroup r.msg.width.toNat x.bad = some (w, g) → Answers (.grant port h no) s (Noted fun t => ports t ∧
        Sets s.port t.port p { y with
          op := some r.msg, leading := true, req := none
          ctlq := x.ctlq ++ [markBytes (BitVec.ofNat 8 w) g no] })) ∧
    (∀ r, intact (grantBytes no) → x.st = 7#4 → x.req = some r → r.msg.reqNo = no → r.msg.op = 1#8 → x.op = none → seldom →
      Answers (.grant port h no) s (Noted retrains)) ∧
    (∀ o, intact (markBytes width pairs no) → x.st = 7#4 → x.op = some o → o.op = 3#8 → o.reqNo = no →
      pairs ∈ pairGroups width.toNat → x.leading = true → x.heldReq = none →
      Answers (.widthMark port h width pairs no) s (Noted fun t =>
        (t.port p).width = width.setWidth 4 ∧ (t.port p).pairs = pairs ∧ (t.port p).txPairs = pairs ∧
        (t.port p).op = none ∧ (∀ q, q ≠ p → t.port q = s.port q) ∧ Counts s t (Reg.LTN_PORT_EVENTS p) 8 8 ∧
        Logged s t 0x0C 0x03 ∧ t = { s with ports := t.ports, regs := t.regs, ev := t.ev, pair := t.pair })) ∧
    (∀ o, intact (markBytes width pairs no) → x.st = 7#4 → x.op = some o → o.op = 3#8 → o.reqNo = no →
      pairs ∈ pairGroups width.toNat → x.leading = false → Answers (.widthMark port h width pairs no) s (Noted fun t =>
        ports t ∧ Sets s.port t.port p { y with ctlq := x.ctlq ++ [markBytes width pairs no] })) ∧
    (intact (timeBytes value.toNat) → x.linked = true → Answers (.time port h value arrival) s fun t =>
      t = { s with ports := t.ports, msOff := t.msOff, freeCtr := t.freeCtr } ∧
      (if s.pairFollows = true ∧ 120 ≤ p then -20 ≤ t.msOff ∧ t.msOff ≤ 20
        else t.msOff = s.msOff ∧ t.freeCtr = s.freeCtr) ∧
      Sets s.port t.port p { y with msOff := [(arrival : Int) - value.toNat] }) ∧
    (x.st = 7#4 → Answers (.timeSend port) s (Noted fun t =>
      t.ms = max s.ms ((s.ms + 32767) / 32768 * 32768) ∧ t = { s with ports := t.ports, ms := t.ms, msOff := t.msOff, up := t.up, man := t.man } ∧
      Sets s.port t.port p { x with ctlq := x.ctlq ++ [timeBytes t.ms] })) ∧
    (∀ r, x.req = some r → r.sends < 8 → Answers (.reqResend port) s (Noted fun t =>
      t.ms = max s.ms (r.lastMs + 2000) ∧ t = { s with ports := t.ports, ms := t.ms, msOff := t.msOff, up := t.up, man := t.man } ∧
      Sets s.port t.port p { x with
        req := some { r with sends := r.sends + 1, lastMs := t.ms }, ctlq := x.ctlq ++ [reqBytes r.msg] })) ∧
    (∀ r, x.req = some r → 8 ≤ r.sends → x.st = 7#4 →
      (x.retrainTimes.filter fun t => decide (max s.ms (r.lastMs + 2000) < t + 1000000000)).length < 2 →
      Answers (.reqResend port) s (Noted fun t => (t.port p).st = 8#4 ∧ (t.port p).unacked = x.unacked ∧
        Counts s t (Reg.LTN_PORT_EVENTS p) 0 8 ∧ Logged s t 0x0C 0x02))

/-- The messages of posting and peer streams (R325-R335, R337, R352), on a port with a link epoch: HELLO shows the peer,
whose OPENs alone stay; an OPEN that a loaded send record matches is acknowledged, another waits; an accepted stream
grants; a GRANT raises the limit; a COMMIT is kept; RESUME takes the sender back to an offset; landed lines stand in the
Coachhouse; CLOSE and CLOSE_ACK end a stream; each timeout fails a stream or answers an OPEN at its time. Times are those of
log entry 8; what answers a CLOSE in either direction, or of a stream that is unknown or ends, is log entries 75, 129, 131. -/
def Obligations.PostingMessages : Prop :=
  ∀ (port : BitVec 7) (key : BitVec 32) (m : HelloMsg) (b : OpenBody) (arg : BitVec 64) (v : Nat) (chan : BitVec 2)
      (lines : List Line) (via : Via) (value : BitVec 32) (k : Nat) (s : State),
    let p := port.toNat
    let x := s.port p
    let q := s.stream k
    let n := lines.length
    let at_ : Prop := s.streamAt p key = some k ∧ q.port = p ∧ q.key = key
    let wanted (r : TStream) : Bool :=
      r.port == p && r.key == key && r.kind == 3 && r.st == .waitOpen && r.peer.toNat == s.field (Reg.PST_PORT_INFO p) 2 12
    let told (t : State) (kind flags a : Nat) : Prop := Sets s.port t.port p
      { x with txq := AMap.set [] x.txq 0 (AMap.get [] x.txq 0 ++ [msgHeader kind flags 0 key.toNat a]) }
    let opens : Prop := b.dir = 2#8 ∧ b.mode = 0#8 ∧ b.elem = 0#8 ∧ b.addr = 0#64 ∧ b.lines ≠ 0#32 ∧ b.pair = false ∧
      b.partner = 0#16
    let aligned (o : Nat) : Prop := o ≤ q.bytes ∧ o % 64 = 0
    let place (i : Nat) : Option Nat := (s.chsDecode (s.streamAddr q (v + 64 * i))).map fun a => lineKey a.1 a.2
    let fails (c : Instr) (w cause : Nat) (st : StreamState) : Prop := Answers c s fun t => t.ms = max s.ms w ∧
      (t.stream k).st = st ∧ ∃ r ∈ t.ev.atSource, r.cls = 0x0D#8 ∧ r.cause.toNat = cause ∧ r.p1 = key.setWidth 64
    (x.linked = true → m.version = 1#8 → m.caps.toNat < 4 → m.role = 1#8 ∧ m.id.toNat < 1024 ∨ m.role = 2#8 →
      KeysRise s.streams → (∀ r, (s.stream r).port = p → (s.stream r).st ≠ .suspended) →
      Answers (.hello port m) s fun t =>
        t.reg (Reg.PST_PORT_INFO p) = BitVec.ofNat 32 (m.role.toNat + 2 ^ 2 * m.id.toNat + 2 ^ 14 * m.caps.toNat) ∧
        (∀ a, a ≠ Reg.PST_PORT_INFO p → t.reg a = s.reg a) ∧ Sets s.port t.port p { x with helloSeen := true } ∧
        t = { s with regs := t.regs, ports := t.ports, opens := (s.keepOpens p m.id.toNat).opens }) ∧
    (x.linked = true → opens → (∀ r ∈ s.streams, wanted r.2 = false) → Answers (.openMsg port key b) s fun t =>
      t = { s with opens := AMap.set none s.opens (openKey p key) (some (b, s.ms, s.field (Reg.PST_PORT_INFO p) 2 12)) }) ∧
    (x.linked = true → opens → s.streams.find? (fun r => wanted r.2) = some (k, q) →
      Answers (.openMsg port key b) s fun t => told t 0x03 q.flags 0 ∧
        Sets s.stream t.stream k { q with st := .opened, openMs := s.ms } ∧ AMap.get none t.opens (openKey p key) = none ∧
        t = { s with ports := t.ports, streams := t.streams, opens := t.opens }) ∧
    (x.linked = true → at_ → q.st = .opening → q.receives = true → Answers (.openAck port key 0#64) s fun t =>
      let l := max q.limitOut (s.grantLimit q)
      told t 0x04 q.flags l ∧ Sets s.stream t.stream k { q with st := .opened, limitOut := l } ∧
      t = { s with ports := t.ports, streams := t.streams }) ∧
    (x.linked = true → at_ → q.st = .opening → q.receives = false → Answers (.openAck port key 0#64) s fun t =>
      Sets s.stream t.stream k { q with st := .opened } ∧ t = { s with streams := t.streams }) ∧
    (x.linked = true → at_ → q.receives = false → aligned v → q.st = .opened → Answers (.streamGrant port key v) s fun t =>
      (t.stream k).limitIn = max q.limitIn v ∧ (t.stream k).st = .opened ∧ (∀ r, r ≠ k → t.stream r = s.stream r) ∧
      (q.gate ≠ none → q.unsent = [] → t = { s with streams := t.streams })) ∧
    (x.linked = true → at_ → q.receives = false → aligned v → q.gate = none → max q.committed v ≠ q.bytes →
      (s.job q.job.toNat).stopKind ≠ 1#8 → Answers (.commit port key v) s (Noted fun t =>
        Sets s.stream t.stream k { q with
          committed := max q.committed v
          unsent := if s.sendsData q then q.unsent else q.unsent.filter fun l => decide (v ≤ 64 * l) } ∧
        t = { s with streams := t.streams })) ∧
    (x.linked = true → at_ → q.receives = false → aligned v → q.st = .opened ∨ q.st = .suspended →
      Answers (.resume port key v) s fun t =>
        Sets s.stream t.stream k { q.back v with st := .opened } ∧ t = { s with streams := t.streams }) ∧
    (x.linked = true → arg.toNat ≤ 1 → at_ → q.kind = 3 ∨ q.kind = 4 → Answers (.closeMsg port key arg) s fun t =>
      told t 0x08 q.flags 0 ∧ Sets s.stream t.stream k { q with st := .closed } ∧
      t = { s with ports := t.ports, streams := t.streams }) ∧
    (∀ w, x.linked = true → arg.toNat ≤ 1 → s.streamAt p key = none → AMap.get none s.opens (openKey p key) = some w →
      Answers (.closeMsg port key arg) s fun t =>
        told t 0x08 0 0 ∧ t = { s with ports := t.ports, opens := AMap.set none s.opens (openKey p key) none }) ∧
    (x.linked = true → at_ → q.st = .closing → Answers (.closeAck port key) s fun t =>
      Sets s.stream t.stream k { q with st := .closed } ∧ t = { s with streams := t.streams }) ∧
    (x.linked = true → at_ → q.st = .opened → q.receives = true → chan.toNat = (if q.kind = 1 then 1 else 2) →
      1 ≤ n → n ≤ 64 → v % 64 = 0 → v / 4096 = (v + 64 * n - 1) / 4096 → v + 64 * n ≤ q.limitOut →
      (∀ i, i < n → ∃ a, s.chsDecode (s.streamAddr q (v + 64 * i)) = some a ∧ s.stackUp a.1 = true) →
      (∀ i j, i < n → j < n → place i = place j → i = j) → Answers (.data port chan key v lines) s fun t =>
        (∀ i d a, lines[i]? = some d → place i = some a →
          readLe t.chsMem (64 * a) 64 = d.data.toNat ∧ AMap.get false t.poisoned a = d.poison) ∧
        (∀ o, (∀ i a, i < n → place i = some a → o < 64 * a ∨ 64 * a + 64 ≤ o) →
          AMap.get 0 t.chsMem o = AMap.get 0 s.chsMem o) ∧
        (q.landed = v → v + 64 * n ≤ (t.stream k).landed) ∧ (∀ r, r ≠ k → t.stream r = s.stream r) ∧
        t = { s with ports := t.ports, streams := t.streams, chsMem := t.chsMem, poisoned := t.poisoned, symErr := t.symErr,
                     pair := t.pair }) ∧
    (at_ → q.st = .suspended → fails (.streamTimeout port key) (q.suspMs + s.field Reg.PST_CFG 0 16 * 1000000) 1 .failed) ∧
    (at_ → q.st = .opening → fails (.openAnswerTimeout port key)
      (q.openMs + (if q.kind = 4 then s.field Reg.PST_CFG 16 16 * 100000000 else 1000000)) 3 .closing) ∧
    (∀ w, x.linked = true → AMap.get none s.opens (openKey p key) = some w → Answers (.openTimeout port key) s fun t =>
      t.ms = max s.ms (w.2.1 + s.field Reg.PST_CFG 16 16 * 100000000) ∧ told t 0x03 0 5 ∧
      t = { s with ms := t.ms, msOff := t.msOff, up := t.up, man := t.man, ports := t.ports, opens := AMap.set none s.opens (openKey p key) none }) ∧
    (s.grants via (Reg.PST_PORT_CTRL p) = true → Answers (.postingPortDrain via port value) s fun t =>
      t.field (Reg.PST_PORT_CTRL p) 0 1 = value.toNat % 2 ∧ (∀ a, a ≠ Reg.PST_PORT_CTRL p → t.reg a = s.reg a) ∧ RegsOnly s t)

/-- Pair mode (R338-R350): enabling while none is active writes the register, and starts formation at full service with the
licence; the leader forms with a partner in the same state and takes the greater of the generations; a survivor that
forms with a replacement copies; a message on no pair link's port is a protocol error (log entry 27); the lists are kept
and compared, an unequal pair of evidence decides, PAIR_FAIL leaves the survivor alone as leader, CPL_SEEN writes what the
follower held, MIRROR lands its lines, a granule goes out, and the loss of the link makes the follower fail. When lists are
compared, and the entry of the pair unit, are log entry 127; the survivor's phases log entry 31, times log entry 8. -/
def Obligations.PairMode : Prop :=
  ∀ (via : Via) (value : BitVec 32) (port : BitVec 7) (body hi : List Byte) (round : BitVec 8)
      (units : List (BitVec 64 × BitVec 64)) (last : Bool) (cause : BitVec 8) (fn : BitVec 6) (ring : BitVec 16)
      (seq : BitVec 32) (addr : BitVec 41) (lines : List Line) (s : State),
    let st := Reg.PST_PAIR_STATUS
    let x := s.port port.toNat
    let linked : Prop := s.activePairPorts ≠ []
    let now := s.roundNamed round.toNat
    let us : List SigUnit := units.map fun u => { id := u.1, crc := u.2, round := now }
    let comparing : Prop := s.pairState = 2 ∨ s.pairState = 7
    let starts : Prop := value.getLsbD 0 = true ∧ s.service = 3 ∧ s.field Reg.LIC_ENABLED 1 1 = 1
    let id := leNat (hi.take 2) % 1024
    let gen (k : Nat) := leNat ((body.drop (2 * k)).take 2) % 1024
    let pairs : Prop := x.linked = true ∧ 120 ≤ port.toNat
    let judged : Prop := pairs ∧ helloOk true body = true ∧ s.pair.hello1 = some hi ∧
      id = s.field Reg.PST_PAIR_CTRL 1 10 ∧ hi.getD 2 0#8 = 1#8
    let rn := s.globalRing fn.toNat ring.toNat
    let known := AMap.get 0 s.pair.cplSeen rn
    let upto := known + (seq.toNat + 1 + 2 ^ 32 - known % 2 ^ 32) % 2 ^ 32
    let due (h : HeldCpl) : Bool := h.ring == rn && decide (h.idx < upto)
    let n := lines.length
    let place (i : Nat) : Option Nat := (s.chsDecode (addr.toNat + 64 * i)).map fun a => lineKey a.1 a.2
    (s.grants via Reg.PST_PAIR_CTRL = true → s.pairState = 0 → ¬starts → Answers (.pairEnable via value) s fun t =>
      t.field Reg.PST_PAIR_CTRL 0 11 = value.toNat % 2 ^ 11 ∧
      (∀ a, a ≠ Reg.PST_PAIR_CTRL → t.reg a = s.reg a) ∧ RegsOnly s t) ∧
    (s.grants via Reg.PST_PAIR_CTRL = true → s.pairState = 0 → starts → Answers (.pairEnable via value) s fun t =>
      t.field Reg.PST_PAIR_CTRL 0 11 = value.toNat % 2 ^ 11 ∧ t.field st 0 4 = 1) ∧
    (s.grants via Reg.PST_PAIR_CTRL = true → s.pairState ≠ 0 → value.toNat % 2 ^ 11 ≠ s.field Reg.PST_PAIR_CTRL 0 11 →
      Answers (.pairEnable via value) s fun t => Logged s t 0x17 0x01 ∧ t = { s with ev := t.ev, pair := t.pair }) ∧
    (x.linked = true → port.toNat < 120 → Answers (.pairHello port last body) s (Noted fun t =>
      Counts s t (Reg.PST_PORT_COUNT port.toNat) 16 16 ∧ t = { s with regs := t.regs })) ∧
    (pairs → helloOk false body = true → s.pairState < 5 ∨ s.pairLeads = true →
      Answers (.pairHello port false body) s (Noted fun t => t = { s with pair := { s.pair with hello1 := some body } })) ∧
    (judged → s.pairState = 1 → s.holdsJob = false → (hi.getD 3 0#8).toNat = s.toll.k → s.moduleId < id →
      Answers (.pairHello port true body) s (Noted fun t =>
        t.field st 0 4 = 2 ∧ t.field st 4 1 = 1 ∧ t.field st 5 10 = id ∧ Logged s t 0x0E 0x01 ∧ t.pair.hello1 = none ∧
        ∀ k, k < 64 → (t.job k).gen.toNat = max (s.job k).gen.toNat (gen k))) ∧
    (judged → s.pairState = 3 → Answers (.pairHello port true body) s (Noted fun t =>
      t.field st 0 4 = 5 ∧ t.pair.mirrorNext = 0 ∧ t.pair.dirty = [] ∧ t.jobs = s.jobs)) ∧
    (pairs → helloOk true body = true → s.pair.hello1 = some hi → s.pairState ∈ [0, 2, 4] →
      Answers (.pairHello port true body) s (Noted fun t => Logged s t 0x0E 0x06 ∧ t.field st 0 4 = s.pairState ∧
        t = { s with ev := t.ev, pair := { s.pair with
          hello1 := none, helloSent := false, evidence := t.pair.evidence } })) ∧
    (linked → comparing → units.length ≤ 256 → s.pair.ownListed = false → Answers (.pairSig round units last) s (Noted fun t =>
      t = { s with pair := { s.pair with
        peer := s.pair.peer ++ us
        peerListed := s.pair.peerListed || (last && now == s.toll.oldest)
        peerNext := s.pair.peerNext || (last && now == s.toll.oldest + 1) } })) ∧
    (linked → comparing → units.length ≤ 256 → s.pair.ownListed = true → now = s.toll.oldest → s.pair.peer = [] →
      s.pair.own = us → (us.map (·.id)).Pairwise (· ≠ ·) → s.toll.started = true → s.toll.oldest < s.toll.opened →
      pairUnit ∉ s.toll.entered → Answers (.pairSig round units true) s (Noted fun t =>
        t.pair.own = [] ∧ t.pair.peer = [] ∧ t.pair.mismatch = s.pair.mismatch ∧
        t.toll = { s.toll with entered := s.toll.entered ++ [pairUnit], lastEntryMs := s.ms } ∧
        t = { s with pair := t.pair, toll := t.toll })) ∧
    (linked → comparing → s.pair.mismatch = true → s.pair.evidence = false → Answers (.pairEvidence true) s (Noted fun t =>
      t.pair.mismatch = false ∧ Counts s t Reg.PST_PAIR_COUNTS 16 8 ∧ t = { s with pair := t.pair, regs := t.regs })) ∧
    (linked → 1 ≤ cause.toNat → cause.toNat ≤ 5 → s.pairState = 2 → Answers (.pairFail cause) s (Noted fun t =>
      t.field st 0 4 = 3 ∧ t.field st 4 1 = 1 ∧ Counts s t Reg.PST_PAIR_COUNTS 0 8 ∧ t.pair.held = [] ∧
      (∃ r ∈ t.ev.atSource, r.cls = 0x0E#8 ∧ r.cause = 0x02#8) ∧ ∀ k, k < 64 → (t.job k).paired = false)) ∧
    (linked → Answers (.cplSeen fn ring seq) s fun t =>
      t.pair = { s.pair with held := s.pair.held.filter (fun h => !due h), cplSeen := AMap.set 0 s.pair.cplSeen rn upto } ∧
      (∀ h, s.pair.held.filter due = [h] →
        readLe t.hostMem ((s.ring rn).cplBase.toNat + 32 * (h.idx % 2 ^ (s.ring rn).log2)) 32 = h.entry.toNat) ∧
      t = { s with pair := t.pair, hostMem := t.hostMem }) ∧
    (linked → s.pairState = 2 ∨ 5 ≤ s.pairState → s.pairLeads = false → addr.toNat % 64 = 0 → n ≠ 0 →
      addr.toNat / 4096 = (addr.toNat + 64 * n - 1) / 4096 → s.chsPresent addr.toNat (64 * n) = true →
      (∀ i, i < n → ∃ a, s.chsDecode (addr.toNat + 64 * i) = some a ∧ s.stackUp a.1 = true) →
      (∀ i j, i < n → j < n → place i = place j → i = j) → Answers (.mirror addr lines) s fun t =>
        (∀ i d a, lines[i]? = some d → place i = some a →
          readLe t.chsMem (64 * a) 64 = d.data.toNat ∧ AMap.get false t.poisoned a = d.poison) ∧
        (∀ o, (∀ i a, i < n → place i = some a → o < 64 * a ∨ 64 * a + 64 ≤ o) →
          AMap.get 0 t.chsMem o = AMap.get 0 s.chsMem o) ∧
        t = { s with chsMem := t.chsMem, poisoned := t.poisoned, symErr := t.symErr }) ∧
    (∀ g w rest, 120 ≤ port.toNat → x.st = 7#4 → s.pairLeads = true → s.pairState = 7 → s.pair.sending = [] →
      s.pair.dirty = (g, w) :: rest → Answers (.mirrorSend port) s fun t => t.pair.dirty = rest ∧
        ∃ segs, segs.length = 256 ∧ AMap.get [] (t.port port.toNat).txq 3 =
          AMap.get [] x.txq 3 ++ msgHeader 0x25 0 4096 0 (4096 * g) :: segs) ∧
    (∀ w, s.pair.linkLostMs = some w → s.activePairPorts = [] → s.crystalsLost = false → s.pairState < 2 →
      Answers .pairLinkLost s (Noted fun t => t.ms = max s.ms (w + 1000000) ∧ t = { s with ms := t.ms, msOff := t.msOff, up := t.up, man := t.man })) ∧
    (∀ w, s.pair.linkLostMs = some w → s.activePairPorts = [] → s.crystalsLost = false → s.pairState = 2 →
      s.pairLeads = false → Answers .pairLinkLost s (Noted fun t => t.field st 0 4 = 4 ∧
        Counts s t Reg.PST_PAIR_COUNTS 0 8))

/-- The input and the thermal levels (R362, R371, R380-R384): turn-on, a brown-out and an overvoltage, the return of the
input, a low input; standby only without a job; the loss of the standby domain; the levels of a thermal sample; unequal
and open contact groups. The flow of a sample is log entry 134, the descent of levels log entry 60, the payload of a thermal
event log entry 144, the 40 % of imbalance log entry 133, the messages of sensors log entry 137, times log entry 8. -/
def Obligations.PowerStates : Prop :=
  ∀ (mv : Nat) (via : Via) (m : ThermalIn) (part : Part) (currents : List Nat) (s : State),
    let ps := Reg.PWR_STATUS
    let volts : Nat := min (mv / 10) 65535
    let flow := 60 * (10 * s.field Reg.PWR_POWER 0 16) / (3876 * (m.outlet - m.inlet))
    let level := thermalLevel m flow 0
    let now := s.field ps 2 2
    let sampled (P : State → Prop) : Prop := m.inlet < m.outlet → now ≠ 3 →
      Answers (.thermalSample m) s (Noted (Watched fun t =>
        t.up = max s.up ((s.up / 1000000000 + 1) * 1000000000) ∧ t.power.flow = flow ∧ P t))
    let shown (t : State) : Prop := t.reg Reg.PWR_THERMAL =
      BitVec.ofNat 32 (m.inlet + 2 ^ 8 * m.outlet + 2 ^ 16 * m.junction.toNat + 2 ^ 24 * m.site.toNat)
    let calm (t : State) : Prop :=
      t = { s with regs := t.regs, power := t.power, ev := t.ev, pair := t.pair, ms := t.ms, msOff := t.msOff, up := t.up, man := t.man }
    let total := currents.foldl (· + ·) 0
    let share (c : Nat) := 10 * (currents.length * c)
    let opened (t : State) : Prop := ∃ r ∈ t.ev.atSource, r.cls = 0x0F#8 ∧ r.cause = 0x05#8
    (s.power.off = true → 44000 ≤ mv → Answers (.turnOn mv) s (Watched fun t =>
      t.power = { s.power with off := false, inputMv := mv } ∧ t.field ps 0 2 = 1 ∧ t.field Reg.PWR_INPUT 0 16 = volts ∧
      t = { s with regs := t.regs, power := t.power })) ∧
    (s.power.off = false → mv < 40000 → s.absorbs 5 = false → Answers (.brownOut mv) s (Watched fun t =>
      ColdBy t 0x02 ∧ t.field ps 0 2 = 1 ∧ t.field ps 4 1 = 1 ∧ Counts s t Reg.PWR_COUNTS 0 16 ∧ t.power.recovering = true)) ∧
    (s.power.off = false → 56000 < mv → s.absorbs 5 = false → Answers (.overvoltage mv) s (Watched fun t =>
      ColdBy t 0x03 ∧ t.field ps 0 2 = 1 ∧ t.field ps 5 1 = 1 ∧ Counts s t Reg.PWR_COUNTS 0 16 ∧ t.power.recovering = true)) ∧
    (s.power.recovering = true → 44000 ≤ mv → Answers (.inputRecovery mv) s (Watched fun t =>
      t.power = { s.power with recovering := false, inputMv := mv } ∧ t.field Reg.PWR_INPUT 0 16 = volts ∧
      t = { s with regs := t.regs, power := t.power })) ∧
    (s.power.off = false → 40000 ≤ mv → mv < 42000 → Answers (.inputLow mv) s (Watched fun t =>
      Logged s t 0x0F 0x03 ∧ t.power.inputMv = mv ∧ t.field Reg.PWR_INPUT 0 16 = volts ∧
      t = { s with regs := t.regs, power := t.power, ev := t.ev, pair := t.pair })) ∧
    (s.grants via Reg.PWR_CTRL = true → (∀ p ∈ s.jobs, p.2.held = false) → ColdFree s → Answers (.standby via) s fun t =>
      ColdBy t 0x0F ∧ t.field ps 0 2 = 1 ∧ t.hostMem = s.hostMem) ∧
    (s.grants via Reg.PWR_CTRL = true → (∃ p ∈ s.jobs, p.2.held = true) → Answers (.standby via) s fun t => t = s) ∧
    (s.power.inputMv < 44000 → Answers .standbyDomainPowerLoss s fun t =>
      t.power = { off := true, inputMv := s.power.inputMv } ∧ t.flash = s.flash ∧ t.up = 0 ∧ t.jobs = [] ∧ t.clusters = [] ∧
      t.chsMem = [] ∧ t.ev = {} ∧ t.hostMem = s.hostMem) ∧
    sampled (fun t => now < level → level < 3 → t.field ps 2 2 = level ∧ shown t ∧ calm t ∧
      (∃ r, t.ev.atSource = s.ev.atSource ++ [r] ∧ r.cls = 0x10#8 ∧ r.cause.toNat = level ∧ r.p0 = t.reg Reg.PWR_THERMAL ∧
        r.p1 = 0#64) ∧ (level = 2 → Counts s t Reg.PWR_COUNTS 16 16)) ∧
    sampled (fun t => level = 3 → ColdFree s → ColdBy t 0x0F ∧ t.field ps 2 2 = 3 ∧ t.field ps 0 2 = 1 ∧
      Told s t 0x10 0x03) ∧
    sampled (fun t => level ≤ now → now = 0 ∨ levelStands m flow 2 now = true → t.field ps 2 2 = now ∧ shown t ∧
      t.power.coolSince = none ∧ calm t ∧ t.ev = s.ev) ∧
    sampled (fun t => level < now → levelStands m flow 2 now = false → s.power.coolSince = none → t.field ps 2 2 = now ∧ shown t ∧
      t.power.coolSince = some t.up ∧ calm t ∧ t.ev = s.ev) ∧
    (∀ w, s.power.coolSince = some w → sampled fun t => level < now → levelStands m flow 2 now = false →
      w + 10000000000 ≤ t.up → t.field ps 2 2 = level ∧ shown t ∧ t.power.coolSince = none ∧ calm t) ∧
    (10000 < total → (∃ c ∈ currents, 14 * total < share c ∨ share c < 6 * total) →
      Answers (.contactImbalance part currents) s fun t => Logged s t 0x0F 0x04 ∧ t = { s with ev := t.ev, pair := t.pair }) ∧
    (total ≤ 10000 ∨ (∀ c ∈ currents, share c ≤ 14 * total ∧ 6 * total ≤ share c) →
      Answers (.contactImbalance part currents) s fun t => t = s) ∧
    Answers (.contactGroupOpen part) s opened ∧
    (part = .controller → Answers (.contactGroupOpen part) s fun t => (∀ p ∈ [srcOstler, srcDrag, srcClock, srcReset], p ∈ t.outOf) ∧ Logged s t 0x0F 0x05 ∧
      t = { s with outOf := t.outOf, ev := t.ev, pair := t.pair }) ∧
    (∀ k, part = .stack k → s.stackState k.toNat ≠ 4 → Answers (.contactGroupOpen part) s fun t =>
      t.stackState k.toNat = 4 ∧ t.field (Reg.CHS_STACK k.toNat) 4 8 = 0x0A ∧ srcStack k.toNat ∈ t.outOf) ∧
    (∀ d, part = .die d → s.excluded d.toNat = false → Answers (.contactGroupOpen part) s fun t =>
      t.excluded d.toNat = true ∧ srcDie d.toNat ∈ t.outOf ∧ Counts s t Reg.CLK_COUNTS 24 8)

/-- The clock controller (R391-R400): a voting window judges three voters, a move of the root PLL ends, a reference is
lost, a crystal waits to return, a beacon judges the copies of the dies and of the other parts; a die's PLL takes the die
out, the root PLL or the loss of both crystals is a clock failure. How a copy is held is log entry 64, the change of `sel` at
the end of a move log entry 63, due times log entry 8. -/
def Obligations.ClockControl : Prop :=
  ∀ (xa xb : Int) (ref : BitVec 2) (errs : List (Nat × Int)) (die : BitVec 6) (s : State),
    let cs := Reg.CLK_STATUS
    let r := ref.toNat
    let d := die.toNat
    let near (a b : Int) : Prop := (a - b).natAbs ≤ 100
    let window (j : Option (BitVec 2)) (P : State → Prop) : Prop := Answers (.voteWindowEnd xa xb) s fun t =>
      t.ms = max s.ms (s.clock.judgedMs + 1000000) ∧ t.clock.judgedMs = t.ms ∧
      (t.up : Int) + t.msOff + s.ms = s.up + s.msOff + t.ms ∧
      t.clock.windows = (t.ms, j) :: s.clock.windows.take 63 ∧ t.clock.xaFo = xa ∧ t.clock.xbFo = xb ∧ P t
    let three : Prop := s.clock.running = true ∧ s.refStatus 0 = 0 ∧ s.refStatus 1 = 0 ∧ s.refStatus 2 = 0
    let decided (t : State) : Prop := t.field cs 11 1 = 0 ∧
      t = { s with ms := t.ms, msOff := t.msOff, up := t.up, man := t.man, freeCtr := t.freeCtr, regs := t.regs, clock := t.clock }
    let used : Prop := s.field cs 0 2 = r ∨ s.clock.moving = some ref
    let here (k : Nat) : Prop := s.serves (srcDie k) = true ∧ s.excluded k = false
    (three → near xa xb → near xa 0 → near xb 0 → window none decided) ∧
    (three → near xa xb → ¬near xa 0 → ¬near xb 0 → window (some 2#2) decided) ∧
    (three → near xa 0 → ¬near xa xb → ¬near xb 0 → window (some 1#2) decided) ∧
    (three → near xb 0 → ¬near xa xb → ¬near xa 0 → window (some 0#2) decided) ∧
    (three → ¬near xa xb → ¬near xa 0 → ¬near xb 0 → window none fun t =>
      t.field cs 11 1 = 1 ∧ Counts s t Reg.CLK_COUNTS 16 8 ∧
      (s.toll.periodOf t.ms = none ∨ s.clock.undecidedPeriod ≠ s.toll.periodOf t.ms → Logged s t 0x11 0x03 ∧
        t.clock.undecidedPeriod = s.toll.periodOf t.ms) ∧
      (∀ w, s.toll.periodOf t.ms = some w → s.clock.undecidedPeriod = some w → t.ev = s.ev)) ∧
    (∀ n, s.clock.moving = some n → Answers .referenceMoveComplete s fun t =>
      t.ms = max s.ms s.clock.moveDue ∧ t.field cs 0 2 = n.toNat ∧ t.field cs 12 1 = 0 ∧
      t.clock = { s.clock with moving := none } ∧ (∀ a, a ≠ cs → t.reg a = s.reg a) ∧
      t = { s with ms := t.ms, msOff := t.msOff, up := t.up, man := t.man, regs := t.regs, clock := t.clock }) ∧
    (s.clock.running = true → r < 3 → s.refStatus r ≠ 2 ∨ ref ∈ s.clock.returning → (∃ o, o < 2 ∧ o ≠ r ∧ s.refStatus o ≠ 2) →
      Answers (.referenceLoss ref) s fun t =>
        t.refStatus r = 2 ∧ Counts s t Reg.CLK_COUNTS 8 8 ∧ Logged s t 0x11 0x02 ∧ ref ∉ t.clock.returning ∧
        (used → t.field cs 0 2 = 3 ∧ t.field cs 12 1 = 1 ∧ t.clock.moving = none ∧ t.clock.held = ref ∧
          t.clock.heldPpm = s.pllPpm) ∧
        (¬used → t.field cs 0 2 = s.field cs 0 2 ∧ t.clock.moving = s.clock.moving) ∧
        t = { s with regs := t.regs, clock := t.clock, ev := t.ev, pair := t.pair }) ∧
    (s.clock.running = true → r < 2 → s.refStatus r ≠ 2 → s.refStatus (1 - r) = 2 → s.pairActive = false → ColdFree s →
      Answers (.referenceLoss ref) s fun t => ColdBy t 0x0C ∧ Told s t 0x11 0x08) ∧
    (r < 2 → s.refStatus r = 1 ∨ s.refStatus r = 2 → Answers (.crystalReturn ref) s fun t =>
      t = { s with clock := { s.clock with returning := s.clock.returning.filter (· != ref) ++ [ref] } }) ∧
    (s.clock.running = true → (∀ e ∈ errs, e.2.natAbs ≤ 4) → Answers (.milestoneBeacon errs) s fun t =>
      t.ms = max s.ms s.beaconDue ∧ (s.clock.beaconMs % 65536 = 0 → t.ms % 65536 = 0) ∧
      s.clock.beaconMs < t.ms ∧ (∀ k, k < 64 → here k → (t.copy (srcDie k)).bad = 0) ∧
      (errs = [] → t.reg Reg.CLK_MS_ERR = 0#32) ∧ (∀ a, a ≠ Reg.CLK_MS_ERR → t.reg a = s.reg a) ∧
      t = { s with ms := t.ms, msOff := t.msOff, up := t.up, man := t.man, regs := t.regs, clock := { s.clock with
        copies := t.clock.copies, beaconMs := t.ms } }) ∧
    (∀ e, s.clock.running = true → errs = [(d, e)] → 4 < e.natAbs → e.natAbs ≤ 8 → here d →
      Answers (.milestoneBeacon errs) s fun t => (t.copy (srcDie d)).bad = (s.copy (srcDie d)).bad + 1 ∧
        t.copyValue (srcDie d) = t.ms + e ∧ ((s.copy (srcDie d)).bad = 2 → Logged s t 0x11 0x05) ∧ t.field Reg.CLK_MS_ERR 0 8 = ofSigned 8 e ∧
        t.field Reg.CLK_MS_ERR 8 6 = d) ∧
    (∀ e, s.clock.running = true → errs = [(d, e)] → 8 < e.natAbs → here d → Answers (.milestoneBeacon errs) s fun t =>
      ((s.copy (srcDie d)).bad = 2 → ∃ r ∈ t.ev.atSource, r.cls = 0x11#8 ∧ r.cause = 0x05#8) ∧ t.excluded d = true ∧ srcDie d ∈ t.outOf ∧ Counts s t Reg.CLK_COUNTS 24 8) ∧
    (∀ e n, s.clock.running = true → n < 64 → errs = [(srcEngine n, e)] → 8 < e.natAbs → s.serves (srcEngine n) = true →
      Answers (.milestoneBeacon errs) s fun t => srcEngine n ∈ t.outOf ∧
        ∃ e ∈ t.ev.atSource, e.cls = 0x11#8 ∧ e.cause = 0x06#8) ∧
    (here d → Answers (.diePllLockLoss die) s fun t => t.excluded d = true ∧ srcDie d ∈ t.outOf ∧
      Counts s t Reg.CLK_COUNTS 24 8 ∧ ∃ e ∈ t.ev.atSource, e.cls = 0x11#8 ∧ e.cause = 0x06#8) ∧
    (s.excluded d = true → s.serves (srcDie d) = false → Answers (.diePllLockLoss die) s fun t => t = s) ∧
    (ColdFree s → Answers .rootPllLockLoss s fun t => ColdBy t 0x0C ∧ Told s t 0x11 0x08)

/-- Resets (R401-R413): each source with the scope its row gives; a reset that a running one covers is absorbed; before
step 6 a warm reset is promoted; the watchdog and the return of the Ostler; a sequencer and a host processor that lock up;
RST_CTRL by key; the way out of Recovery mode; a block reset from its request to its end. What tells of lost events is log
entry 53, the functions and vectors of a port after its reset log entries 128 and 152, and how long that reset is in progress
log entry 175. -/
def Obligations.Resets : Prop :=
  ∀ (port : Bool) (via : Via) (key : BitVec 8) (c : BitVec 16) (value : BitVec 32) (env : StepEnv) (s : State),
    let src := viaSource via
    let idle (scope : Nat) : Prop := s.absorbs scope = false
    let turned (source : Nat) (t : State) : Prop := Logged s t 0x12 source ∧
      (3 ≤ s.inProgress → t.field Reg.RST_CAUSE 9 1 = 1) ∧ (s.inProgress < 3 → t.reg Reg.RST_CAUSE = s.reg Reg.RST_CAUSE) ∧
      t = { s with regs := t.regs, ev := t.ev, pair := t.pair }
    let absorbed (c : Instr) (scope source : Nat) : Prop := s.absorbs scope = true → Answers c s (turned source)
    let idlePort : Prop := s.absorbsPort port = false
    let resets (t : State) : Prop := AMap.get false t.portReset (if port then 1 else 0) = true
    let cause (t : State) (v : Nat) : Prop := t.field Reg.RST_CAUSE 0 8 = v
    let logged (t : State) (v : Nat) : Prop := ∃ r ∈ t.ev.atSource, r.cls = 0x12#8 ∧ r.cause.toNat = v
    let stat := Reg.HIF_PORT_STATUS (if port then 1 else 0)
    let down (t : State) : Prop := t.hostPortUp port = false ∧
      (KeysRise s.rings → s.pairActive = false → ∀ p ∈ s.rings, p.2.used = true → p.2.port = port → (t.ring p.1).descs = [])
    let ctrl : Prop := s.grants via Reg.RST_CTRL = true
    let bs := Reg.RST_BLOCK_STATUS
    let mask := BitVec.ofNat 64 (s.reg64 Reg.RST_BLOCK_MASK_LO)
    let asked : Prop := s.grants via Reg.RST_BLOCK_CMD = true ∧ value.msb = true ∧ s.field bs 0 1 = 0
    let d := gidDie c.toNat
    let taken (m : BitVec 64) (t : State) : Prop := t.field bs 0 1 = 1 ∧ t.bru.blockMask = s.bru.blockMask ||| m ∧
      (∀ k, m.getLsbD k = true → srcDie k ∈ t.outOf) ∧
      ∀ g, m.getLsbD (gidDie g) = true → (t.cluster g).prog = [] ∧ (t.cluster g).queues = []
    (idle 5 → Answers .powerOn s fun t => ColdBy t 0x01 ∧ t.power.off = false ∧ t.up = 0 ∧ t.field Reg.PWR_STATUS 0 2 = 1) ∧
    (idle 4 → s.bru.step6Done = true → Answers .resetNShort s fun t => WarmBy s t 0x04 ∧ Told s t 0x12 0x04) ∧
    (idle 4 → s.bru.startOpen = false → s.bru.step6Done = false → Answers .resetNShort s fun t =>
      ColdBy t 0x04 ∧ t.field Reg.RST_CAUSE 8 1 = 1 ∧ Told s t 0x12 0x04) ∧
    (ColdFree s → Answers .resetNLong s fun t => ColdBy t 0x05 ∧ t.field Reg.RST_CAUSE 8 1 = 0 ∧ Told s t 0x12 0x05) ∧
    absorbed .resetNLong 5 0x05 ∧ absorbed .resetNShort 4 0x04 ∧ absorbed .ostlerWatchdog 2 0x08 ∧
    (¬idlePort → Answers (.perst port) s (fun t => turned (if port then 0x07 else 0x06) t ∧ t.field stat 12 1 = 1) ∧
      Answers (.hifProcessorLockUp port) s (turned 0x0E)) ∧
    (idlePort → Answers (.perst port) s fun t =>
      down t ∧ resets t ∧ t.field stat 12 1 = 1 ∧ logged t (if port then 0x07 else 0x06) ∧
      (∀ f vec, f < 64 → vec < 32 → AMap.get false t.msixOpen (vectorKey port f vec) = false) ∧
      (∀ f, f ≠ 0 → t.fnOnPort port f = false) ∧ (s.pairActive = false → t.chsMem = s.chsMem ∧ t.clusters = s.clusters)) ∧
    (idle 2 → Answers .ostlerWatchdog s fun t => Logged s t 0x12 0x08 ∧ t.ev.ostlerDown = true ∧ t.mgmt.portsDown = true ∧
      t = { s with ev := t.ev, pair := t.pair, mgmt := { s.mgmt with portsDown := true } }) ∧
    (s.ev.ostlerDown = true → s.ev.beforeStep = [] → s.ev.heldLost = 0 → Answers .ostlerReturn s fun t =>
      t.ev = { s.ev with arrived := s.ev.arrived ++ s.ev.heldByReset, heldByReset := [], ostlerDown := false } ∧
      t = { s with ev := t.ev, mgmt := { s.mgmt with portsDown := false } }) ∧
    (s.ev.ostlerDown = true → s.ev.beforeStep = [] → s.ev.heldLost ≠ 0 → Answers .ostlerReturn s fun t =>
      t.ev.ostlerDown = false ∧ t.ev.arrived = s.ev.arrived ++ s.ev.heldByReset ∧ t.ev.heldLost = 0 ∧
      ∃ r, t.ev.atSource = s.ev.atSource ++ [r] ∧ r.cls = 0x18#8 ∧ r.p0 = BitVec.ofNat 32 s.ev.heldLost) ∧
    (∀ r, s.ev.ostlerDown = true → s.ev.beforeStep = [r] → r.unlimited = true → s.ev.heldLost = 0 →
      Answers .ostlerReturn s fun t => t.ev.beforeStep = [] ∧ t.ev.arrived = s.ev.arrived ++ s.ev.heldByReset ∧
        t.ev.last = none ∧ ∃ x, t.ev.log = (x :: s.ev.log).take 65536 ∧ x.ms = r.ms ∧ x.source = r.source ∧ x.cls = r.cls ∧
          x.cause = r.cause ∧ x.seq = s.ev.seq) ∧
    (s.bru.resetScope = 0#3 → s.bru.blockMask.getLsbD d = false → Answers (.sequencerLockUp c) s fun t =>
      cause t (0x0D + 2 ^ 5 * 3) ∧ Told s t 0x12 0x0D ∧ taken (BitVec.ofNat 64 (2 ^ d)) t) ∧
    (s.bru.resetScope ≠ 0#3 ∨ s.bru.blockMask.getLsbD d = true → Answers (.sequencerLockUp c) s (turned 0x0D)) ∧
    (idlePort → Answers (.hifProcessorLockUp port) s fun t => down t ∧ resets t ∧ logged t 0x0E) ∧
    (ctrl → key = 0xA5#8 → idle 4 → s.bru.step6Done = true → Answers (.warmReset via key) s fun t => WarmBy s t src) ∧
    (ctrl → key = 0xA5#8 → ColdFree s → Answers (.coldReset via key) s fun t => ColdBy t src) ∧
    (ctrl → key = 0xA5#8 → s.inRecovery = true → via ≠ .jtag → Answers (.recoveryExit via key) s fun t =>
      ColdBy t src ∧ t.inRecovery = false ∧ t.flash.recovery = false ∧ t.flash.failedStarts = 0 ∧
      ∃ l, t.sent = .faultN s.flash.drained :: l) ∧
    (ctrl → key ≠ 0xA5#8 → ∀ i ∈ [Instr.warmReset via key, .coldReset via key, .recoveryExit via key], Answers i s fun t =>
      t.fnField (viaFn via) Reg.HIF_ERR_COUNT 0 16 = min (s.fnField (viaFn via) Reg.HIF_ERR_COUNT 0 16 + 1) 65535 ∧
      RegsOnly s t) ∧
    (asked → s.blockRefusal mask (value.toNat % 2 ^ 16) = 0 → Answers (.blockResetRequest via value) s fun t =>
      cause t (src + 2 ^ 5 * 3) ∧ Told s t 0x12 src ∧ taken mask t) ∧
    (asked → s.ready = false → Answers (.blockResetRequest via value) s fun t =>
      t.field bs 0 2 = 2 ∧ t.field bs 2 4 = 2 ∧ (∀ a, a ≠ bs → t.reg a = s.reg a) ∧ RegsOnly s t) ∧
    (s.bru.blockMask ≠ 0 → Answers (.blockResetComplete env) s fun t =>
      t.field bs 0 2 = 2 ∧ t.bru.blockMask = 0 ∧
      ∀ k, s.bru.blockMask.getLsbD k = true → env.dieBad.getLsbD k = true → (s.die k).degraded = false →
        t.excluded k = true)

/-- Bring-up (R410, R414-R430): a step that may not run is refused and shown, in Recovery mode too (log entry 151); one
that may runs, and touches nothing yet but what it trains and the firmware bank that it takes; its completion has done what
its row gives, and shows it or its failure; the limits and the deadline fail it where it is. What a step that ends at a limit
has done is log entry 58, the configuration that a start locks log entry 69, failed starts log entry 57, the times log
entry 8. -/
def Obligations.BringUp : Prop :=
  ∀ (via : Via) (env : StepEnv) (s : State),
    let bs := Reg.BRU_STATUS
    let granted : Prop := s.admits via Reg.BRU_STEP = true
    let may (n : Nat) : Prop := granted ∧ s.inRecovery = false ∧ s.bru.step0 = true ∧ s.stepState = 0 ∧ s.stepNow + 1 = n
    let cmds : List (Nat × Instr) := [(1, .fuseLoad via env), (2, .clockStart via env), (3, .dieRelease via env),
      (4, .interconnectCheck via env), (5, .dieToDieTrain via env), (6, .coachhouseDiscover via env),
      (7, .firmwareBroadcast via env), (8, .fabricCheck via env), (9, .lanternTrain via env), (10, .licenceApply via env),
      (11, .ready via env)]
    let want := s.field Reg.BRU_FW 0 1 == 1
    let close : Prop := env.ppmXaXb.natAbs ≤ 100
    let warm : Prop := s.field bs 18 1 = 1
    let minStacks := s.field Reg.CHS_CFG 8 6
    let good (n : Nat) (t : State) : Prop := t.field bs 0 4 = n ∧ t.field bs 4 2 = 0 ∧ t.bru.running = none
    let bad (n code detail : Nat) (t : State) : Prop := t.field bs 0 4 = n ∧ t.field bs 4 2 = 2 ∧ t.field bs 8 8 = code ∧
      t.reg Reg.BRU_FAIL_DETAIL = BitVec.ofNat 32 detail ∧ t.bru.running = none ∧
      ∃ r ∈ t.ev.atSource, r.cls = 0x13#8 ∧ r.cause.toNat = code
    let ends (n : Nat) (P : State → Prop) : Prop := s.bru.running = some env → s.stepNow = n → s.bru.startOpen = false →
      Answers .stepComplete s P
    let level (v : Nat) (t : State) : Prop := t.field bs 16 2 = if t.bru.flagged then 1 else v
    let pick := if s.bankValid want then some want else if s.bankValid (!want) then some (!want) else none
    let failed (code : Nat) (t : State) : Prop := t.field bs 4 2 = 2 ∧ t.field bs 8 8 = code ∧
      t.field bs 0 4 = s.stepNow ∧ t.bru.running = none ∧ t.bru.bank = none ∧
      (∃ r ∈ t.ev.atSource, r.cls = 0x13#8 ∧ r.cause.toNat = code) ∧
      (s.bru.running = none ∨ s.stepNow ∈ [2, 9, 11] → Logged s t 0x13 code ∧ t = { s with
        regs := t.regs, ev := t.ev, pair := t.pair, bru := t.bru, flash := t.flash, up := t.up, ms := t.ms, msOff := t.msOff
        man := t.man, freeCtr := t.freeCtr }) ∧
      (s.stepNow = 3 → ∀ d, d < 64 → env.dieBad.getLsbD d = false → t.excluded d = s.excluded d) ∧
      (s.stepNow = 5 → ∀ c ∈ crossings, t.reg (Reg.FAB_XING_STATUS c.1 c.2.1) = s.reg (Reg.FAB_XING_STATUS c.1 c.2.1) ∨
        t.field (Reg.FAB_XING_STATUS c.1 c.2.1) 2 1 = 1 ∧ t.field (Reg.FAB_XING_STATUS c.1 c.2.1) 8 8 = 12) ∧
      (s.stepNow = 6 → t.chsMem = s.chsMem)
    (∀ p ∈ cmds, granted → ¬may p.1 → Answers p.2 s (Noted fun t =>
      t.field bs 6 1 = 1 ∧ (∀ a, a ≠ bs → t.reg a = s.reg a) ∧ RegsOnly s t)) ∧
    (∀ p ∈ cmds, may p.1 → Answers p.2 s (Noted fun t =>
      t.field bs 0 4 = p.1 ∧ t.field bs 4 2 = 1 ∧ t.bru.stepUp = s.up ∧ t.bru.running = some env ∧
      (p.1 = 7 → t.bru.bank = pick ∧ ∀ b, pick = some b → t.field Reg.BRU_FW 1 1 = (if b then 1 else 0) ∧
        t.field Reg.BRU_FW 2 1 = (if b = want then 0 else 1)) ∧
      (p.1 ≠ 6 → p.1 ≠ 7 → p.1 ≠ 9 → (∀ a, a ≠ bs → a ≠ Reg.BRU_SAVED → a ≠ Reg.BRU_DEADLINE → t.reg a = s.reg a) ∧
        t = { s with regs := t.regs, bru := { s.bru with stepUp := s.up, running := some env } }) ∧
      (p.1 = 6 → t.chsMem = s.chsMem ∧ (¬warm → ∀ k, k < 32 → s.stackState k ≠ 4 →
        t.stackState k = 1 ∧ (t.stack k).link = .sbinit)) ∧
      (p.1 = 9 → ∀ q, q < 128 → q % 2 = 0 → t.portEnabled q = true))) ∧
    (s.power.tripCond = true → ends 1 (bad 1 0x11 0)) ∧
    (∀ k, s.power.tripCond = false → env.svcBad = some k → ends 1 (bad 1 0x12 k.toNat)) ∧
    (s.power.tripCond = false → env.svcBad = none → ends 1 fun t => good 1 t ∧ t.bru.fusesLoaded = true ∧
      t.field Reg.PWR_STATUS 0 2 = 2 ∧ t.field Reg.PWR_STATUS 2 2 = 0 ∧
      ∀ d, env.dieBad.getLsbD d = true → t.excluded d = true) ∧
    (env.xaRuns = true → env.xbRuns = true → close → env.pllLock = true → ends 2 fun t => good 2 t ∧ t.ms = 0 ∧
      t.clock.running = true ∧ t.field Reg.CLK_STATUS 0 2 = s.field Reg.CLK_CFG 1 1 ∧ t.field Reg.CLK_STATUS 8 2 = 1 ∧
      t.field Reg.CLK_STATUS 10 1 = 1) ∧
    (env.xaRuns = true → env.xbRuns = false → env.pllLock = true → ends 2 fun t => good 2 t ∧ t.ms = 0 ∧
      t.clock.running = true ∧ t.field Reg.CLK_STATUS 0 2 = 0 ∧ t.refStatus 1 = 2) ∧
    (env.xaRuns = false → env.xbRuns = false → ends 2 fun t => bad 2 0x21 0 t ∧ t.ms = s.ms ∧
      t.clock.running = s.clock.running) ∧
    (env.xaRuns = true → env.pllLock = false → ends 2 fun t => bad 2 0x22 0 t ∧ t.ms = s.ms ∧
      t.clock.running = s.clock.running) ∧
    (env.dieBad = 0#64 → s.liveDies ≠ [] → warm → ends 3 fun t => good 3 t ∧ t.bru.resetScope = 0#3 ∧
      t.clock.copies = [] ∧ t.reg Reg.BRU_STRAPS = s.reg Reg.BRU_STRAPS) ∧
    (env.dieBad = 0#64 → s.liveDies ≠ [] → ¬warm → env.sample1 = env.sample2 → strapsGood env.sample1.toNat = true →
      ends 3 fun t => good 3 t ∧ t.clock.copies = [] ∧ t.field Reg.BRU_STRAPS 0 19 = env.sample1.toNat) ∧
    (env.dieBad = 0#64 → s.liveDies ≠ [] → ¬warm → env.sample1 ≠ env.sample2 → ends 3 (bad 3 0x31 0)) ∧
    ends 4 (good 4) ∧
    (env.crossBad = none → ends 5 fun t => good 5 t ∧ ∀ c ∈ s.liveCrossings (fun _ => true), s.edgeBad c.1 c.2.1 = false →
      t.field (Reg.FAB_XING_STATUS c.1 c.2.1) 2 1 = 1 ∧ t.field (Reg.FAB_XING_STATUS c.1 c.2.1) 8 8 = 12) ∧
    (warm → minStacks ≤ s.field Reg.CHS_STATUS 0 6 → ends 6 fun t => good 6 t ∧ level 1 t ∧ t.bru.step6Done = true ∧
      t.bru.minStacksLocked = true ∧ t.field Reg.CHS_STATUS 16 1 = 1 ∧ t.field Reg.CHS_STATUS 17 1 = 0 ∧ t.chsMem = s.chsMem) ∧
    (warm → s.field Reg.CHS_STATUS 0 6 < minStacks → ends 6 (bad 6 0x61 (s.field Reg.CHS_STATUS 0 6))) ∧
    (¬warm → ends 6 fun t => t.chsMem = [] ∧
      (t.field Reg.CHS_STATUS 0 6 < minStacks → bad 6 0x61 (t.field Reg.CHS_STATUS 0 6) t) ∧
      (minStacks ≤ t.field Reg.CHS_STATUS 0 6 → good 6 t ∧ level 1 t ∧ t.bru.step6Done = true ∧
        t.field Reg.CHS_STATUS 17 1 = 1 ∧ t.mapValid = true)) ∧
    (s.bru.bank ≠ none → ends 7 fun t => good 7 t ∧ t.field Reg.BRU_FW 0 3 = s.field Reg.BRU_FW 0 3 ∧
      ∀ d, d < 64 → env.dieBad.getLsbD d = true → s.tested d = true → t.excluded d = true) ∧
    (s.bru.bank = none → ends 7 (bad 7 0x71 0)) ∧
    (ends 8 fun t => (t.bru.flagged = false → t.dieCount < t.field Reg.BRU_CFG 8 7 → bad 8 0x81 t.dieCount t) ∧
      (t.bru.flagged = true ∨ t.field Reg.BRU_CFG 8 7 ≤ t.dieCount → good 8 t ∧ level 2 t ∧ t.toll.started = true ∧
        t.toll.baseMs = (s.ms + 1023) / 1024 * 1024)) ∧
    (s.portsSettled = true → s.anyCalibrated = true → ends 9 (good 9)) ∧
    (s.portsSettled = true → s.anyCalibrated = false → ends 9 (bad 9 0x91 0)) ∧
    (s.portsSettled = false → ends 9 fun t => t = s) ∧
    (env.licReadable = true → ends 10 fun t => good 10 t ∧ t.field Reg.LIC_ENABLED 6 1 = 1) ∧
    (env.licReadable = false → ends 10 (bad 10 0xA1 0)) ∧
    (ends 11 fun t => good 11 t ∧ level 3 t ∧ t.failedStarts = 0 ∧ t.flash.savedSettings = true) ∧
    (s.bru.running = some env → s.bru.startOpen = false → Answers .stepTimeLimit s fun t =>
      failed (16 * s.stepNow + 15) t ∧ t.up = max s.up (s.bru.stepUp + stepBudget s.stepNow)) ∧
    (s.bru.startOpen = true → s.bru.running = none ∨ s.bru.running = some env → s.stepState ≠ 2 → s.failedStarts < 2 →
      Answers .startDeadline s fun t =>
      failed 0xF0 t ∧ t.failedStarts = s.failedStarts + 1 ∧ t.bru.startOpen = false ∧
      t.up = max s.up (s.bru.startUp + 1000000 * (s.reg Reg.BRU_DEADLINE).toNat)) ∧
    (s.bru.startOpen = true → s.stepState ≠ 2 → 2 ≤ s.failedStarts → s.inRecovery = false → Answers .startDeadline s fun t =>
      ColdBy t 0x10 ∧ t.inRecovery = true ∧ t.flash.recovery = true ∧ ∃ l, t.sent = .faultN true :: l) ∧
    (s.bru.resetScope = 5#3 → s.power.recovering = false → s.power.off = false → Answers .standbyReady s fun t =>
      t.bru = { s.bru with
        resetScope := 0#3, step0 := true, startUp := s.up, startOpen := !s.inRecovery, flagged := s.flash.drained } ∧
      t.reg Reg.BRU_DEADLINE = 120000#32 ∧
      (∀ a, a ≠ Reg.BRU_DEADLINE → a ≠ Reg.BRU_IDLE_GEN → t.reg a = s.reg a) ∧
      t = { s with regs := t.regs, bru := t.bru })

/-- Events on their way to the log and to the collectors (R403, R457-R463, R484, R485): delivery moves the oldest record of
a source, or the reset controller holds or counts it; commit logs the first one that arrived under the next number, or
counts one past its limit; deferred messages, batches and telemetry leave at their time. The time of a commit is log entries
33 and 8; the 15 sensors of telemetry, and none while the ports are down, log entry 102. -/
def Obligations.EventFlow : Prop :=
  ∀ (src : BitVec 20) (coll : BitVec 2) (up : Bool) (r : EventRec) (s : State),
    let e := s.ev
    let oldest : Prop := e.atSource.find? (fun x => x.source.setWidth 20 == src) = some r
    let k := coll.toNat
    let q := AMap.get [] e.collQ k
    let inOrder : Prop := ∀ w, e.last = some w → w.1 < r.ms ∨ w.1 = r.ms ∧ w.2.toNat ≤ r.source.toNat
    let first : Prop := e.ostlerDown = false ∧ firstRec e.arrived = some r
    let committed (late : Bool) (t : State) : Prop := t.ev.seq = e.seq + 1 ∧ t.ev.arrived = e.arrived.erase r ∧
      ∃ x, t.ev.log = (x :: e.log).take 65536 ∧ x.seq = e.seq ∧ x.ms = r.ms ∧ x.source = r.source ∧ x.cls = r.cls ∧
        x.cause = r.cause ∧ x.jobTag = r.jobTag ∧ x.p0 = r.p0 ∧ x.p1 = r.p1 ∧ x.p2 = r.p2 ∧ (late = true → x.flags.getLsbD 3 = true)
    let batch (t : State) : Prop := t.ev = { e with collQ := AMap.set [] e.collQ k (q.drop 16) }
    (oldest → e.ostlerDown = false → Answers (.eventDelivery src) s fun t => t = { s with ev := { e with
      atSource := e.atSource.erase r, arrived := e.arrived ++ [r] } }) ∧
    (oldest → e.ostlerDown = true → e.heldByReset.length + e.beforeStep.length < 4096 → Answers (.eventDelivery src) s fun t =>
      t = { s with ev := { e with atSource := e.atSource.erase r, heldByReset := e.heldByReset ++ [r] } }) ∧
    (oldest → e.ostlerDown = true → 4096 ≤ e.heldByReset.length + e.beforeStep.length → Answers (.eventDelivery src) s fun t =>
      t = { s with ev := { e with atSource := e.atSource.erase r, heldLost := e.heldLost + 1 } }) ∧
    (first → inOrder → r.flags.getLsbD 3 = false → r.unlimited = true ∨ (∀ c ∈ e.counts, c.2 < 16) → Answers .eventCommit s (Noted fun t =>
      committed false t ∧ t.ev.last = some (r.ms, r.source) ∧
      (s.clock.running = true → t.ms = max s.ms (r.ms + 16000)) ∧
      (r.toFlash = true → ∃ x, t.flash.log = (x :: s.flash.log).take 4096 ∧ x.seq = e.seq ∧ x.cls = r.cls))) ∧
    (first → ¬inOrder → r.unlimited = true ∨ (∀ c ∈ e.counts, c.2 < 16) → Answers .eventCommit s (Noted fun t =>
      committed true t ∧ t.ev.last = e.last ∧ t.ms = s.ms)) ∧
    (∀ n p, first → inOrder → r.unlimited = false → s.toll.periodOf r.ms = some p → 16 ≤ n →
      e.counts.find? (fun c => c.1 == (p, r.source, r.cls, r.cause)) = some ((p, r.source, r.cls, r.cause), n) →
      Answers .eventCommit s (Noted fun t => t.ev.log = e.log ∧ t.ev.seq = e.seq ∧ t.ev.arrived = e.arrived.erase r ∧
        Counts s t Reg.EVT_COUNTS 16 16 ∧ t.jobs = s.jobs)) ∧
    (∀ w, e.deferred = true → e.lastIrq = some w → Answers .eventIrqDeferred s fun t =>
      t.up = max s.up (w + 10000) ∧ t.ev = { e with lastIrq := some t.up, deferred := false } ∧
      t = { s with ms := t.ms, msOff := t.msOff, up := t.up, man := t.man, ev := t.ev, sent := t.sent, msixPend := t.msixPend }) ∧
    (q ≠ [] → up = true → s.mgmt.portsDown = false → Answers (.collectorSend coll up) s fun t =>
      batch t ∧ t.sent = .eventBatch k s.mgmt.sentCount (q.take 16) :: s.sent ∧
      t = { s with ev := t.ev, sent := t.sent, mgmt := { s.mgmt with sentCount := s.mgmt.sentCount + 1 } }) ∧
    (q ≠ [] → up = false ∨ s.mgmt.portsDown = true → Answers (.collectorSend coll up) s fun t =>
      batch t ∧ Counts s t Reg.MAN_STATUS 22 10 ∧ t = { s with ev := t.ev, regs := t.regs }) ∧
    (s.mgmtUp = true → Answers .telemetryInterval s fun t =>
      t.up = max s.up (s.mgmt.teleUp + s.flash.interval * 10000000) ∧ t.mgmt.teleUp = t.up ∧
      (s.mgmt.portsDown = true → t.sent = s.sent) ∧
      (s.mgmt.portsDown = false → ∀ i c, i < 4 → s.flash.collectors[i]? = some c → c.addr ≠ 0#32 →
        ∃ n items, Msg.telemetry i n items ∈ t.sent ∧ items.length = 15) ∧
      t = { s with up := t.up, ms := t.ms, msOff := t.msOff, man := t.man, mgmt := t.mgmt, sent := t.sent })

/-- The Manifest and the Waybill recorder (R489-R495): arming, cancelling and latching at the target, where the units that
have left since the release are missing even if they are back; arming, stopping and forcing a capture, the entries that it
takes in order, and the copy that ends it. FORCE only while armed, what is counted from the arm, and the header at the start
of the copy are log entry 97; the times log entry 8. -/
def Obligations.ManifestAndWaybill : Prop :=
  ∀ (via : Via) (e : WayEntry) (s : State),
    let ms := Reg.MAN_STATUS
    let ws := Reg.WAY_STATUS
    let man : Prop := s.grants via Reg.MAN_CTRL = true
    let way : Prop := s.grants via Reg.WAY_CTRL = true
    let w := s.way
    let only (a : Nat) (t : State) : Prop := ∀ b, b ≠ a → t.reg b = s.reg b
    let goneBy (x : ManCopy) := s.man.left ++ x.out.filter fun u => !s.man.out.contains u && !s.man.left.contains u
    let latched (x : ManCopy) (t : State) : Prop := t.manState = 3 ∧ t.field ms 4 10 = (goneBy x).length % 1024 ∧
      t.ms = max s.ms s.man.target ∧ t.man = { s.man with
        held := true, gone := goneBy x, snap := x.snapshot, skips := x.skips, left := [], atT := none } ∧ only ms t ∧
      Logged s t 0x18 0x06 ∧ t = { s with ms := t.ms, msOff := t.msOff, up := t.up, man := t.man, regs := t.regs, ev := t.ev, pair := t.pair }
    let pre := s.field Reg.WAY_DEPTH 0 16
    let post := s.field Reg.WAY_DEPTH 16 16 + 1
    let fits : Prop := pre + post ≤ 65536 ∧ s.wayDestOk = true
    let inOrder : Prop := ∀ x, w.last = some x → x.1 < e.ms ∨ x.1 = e.ms ∧ x.2.toNat ≤ e.src.toNat
    let commits (P : State → Prop) : Prop := firstEntry w.pending = some e → inOrder → Answers .waybillEntryCommit s fun t =>
      t.way.pending = w.pending.erase e ∧ t.way.last = some (e.ms, e.src) ∧ t.ms = max s.ms (e.ms + 16000) ∧
      t = { s with ms := t.ms, msOff := t.msOff, up := t.up, man := t.man, way := t.way, regs := t.regs } ∧ P t
    let quiet : Prop := s.field Reg.WAY_TRIG 0 9 = 0
    (man → s.manState ≠ 1 → s.manState ≠ 2 → Answers (.manifestArm via) s fun t => t.manState = 1 ∧ only ms t ∧ RegsOnly s t) ∧
    (man → s.manState = 1 ∨ s.manState = 2 → Answers (.manifestArm via) s fun t =>
      t.manState = s.manState ∧ t.field ms 3 1 = 1 ∧ only ms t ∧ RegsOnly s t) ∧
    (man → s.manState = 1 → Answers (.manifestCancel via) s fun t => t.manState = 0 ∧ only ms t ∧ RegsOnly s t) ∧
    (man → s.manState ≠ 1 → Answers (.manifestCancel via) s fun t => t = s) ∧
    (∀ x, s.manState = 2 → s.man.atT = some x → Answers .manifestLatch s (latched x)) ∧
    (s.manState = 2 → s.man.atT = none → s.ms < s.man.target → Answers .manifestLatch s (latched
      { regs := s.regs, skips := (s.jobs.map fun p => (p.1, p.2.withheld)).filter fun p => p.2 != 0,
        head := s.ev.seq.toNat, out := s.outOf })) ∧
    (s.manState ≠ 2 → Answers .manifestLatch s fun t => t = s) ∧
    (way → s.wayState = 0 → fits → Answers (.waybillArm via) s fun t => t.wayState = 1 ∧ only ws t ∧
      t.way = { w with buf := [], post := 0, force := false, preValid := 0, drops := 0, header := [], seenMs := none } ∧
      t = { s with way := t.way, regs := t.regs }) ∧
    (way → s.wayState ≠ 0 ∨ ¬fits → Answers (.waybillArm via) s fun t =>
      t.wayState = s.wayState ∧ t.field ws 2 1 = 1 ∧ only ws t ∧ RegsOnly s t) ∧
    (way → Answers (.waybillStop via) s fun t => t.wayState = 0 ∧ only ws t ∧
      t.way = { w with buf := [], post := 0, force := false, header := [] } ∧ t = { s with way := t.way, regs := t.regs }) ∧
    (way → s.wayState = 1 → Answers (.waybillForce via) s fun t => t = { s with way := { w with force := true } }) ∧
    (way → s.wayState ≠ 1 → Answers (.waybillForce via) s fun t => t = s) ∧
    commits (fun t => s.wayState = 0 → t.way.buf = w.buf ∧ t.regs = s.regs) ∧
    commits (fun t => s.wayState = 1 → quiet → w.force = false → t.wayState = 1 ∧ t.way.buf = (e :: w.buf.take pre).take pre) ∧
    commits (fun t => s.wayState = 1 → w.force = true → 1 < post → t.wayState = 2 ∧ t.way.buf = e :: w.buf.take pre ∧
      t.way.post = 1 ∧ t.way.preValid = min pre w.buf.length ∧ t.way.trigMs = e.ms ∧ t.way.force = false) ∧
    commits (fun t => s.wayState = 2 → quiet → w.post + 1 < post → t.wayState = 2 ∧ t.way.buf = e :: w.buf ∧
      t.way.post = w.post + 1) ∧
    commits (fun t => s.wayState = 2 → quiet → post ≤ w.post + 1 → t.wayState = 3 ∧ t.way.buf = e :: w.buf ∧
      t.way.header.length = 64 ∧ t.way.copyDue = t.ms + (64 + 16 * (w.buf.length + 1)) / 4) ∧
    (s.wayState = 3 → Answers .waybillCopyComplete s fun t =>
      t.wayState = (if s.field Reg.WAY_CTRL 3 1 = 1 then 1 else 0) ∧ t.way.capture = w.capture + 1 ∧ t.way.buf = [] ∧
      t.ms = max s.ms w.copyDue ∧
      (s.field Reg.WAY_COUNTS 0 16 ≠ 65535 → t.field Reg.WAY_COUNTS 0 16 = s.field Reg.WAY_COUNTS 0 16 + 1) ∧
      ∃ r ∈ t.ev.atSource, r.cls = 0x18#8 ∧ r.cause = 0x08#8)

/-- The management commands (R475, R477-R487): each discards a bad frame, or one for another UDP port, answers 1 where key,
signature or nonce fail and 2 where the key lacks the right, and otherwise, unsigned over MCTP too, does what its row says
and answers on the path by which it came, with the command's nonce. The statuses and details that no row gives are log entry
101, the bus of MCTP and the alert log entry 162, PLDM and a restart of the Ostler log entries 103 and 104. -/
def Obligations.ManagementCommands : Prop :=
  ∀ (m : MgmtHdr) (off first : BitVec 32) (count : BitVec 16) (view : Bool) (value : BitVec 32) (env : StepEnv)
      (n op slot bank prefer rights log num : BitVec 8) (mask : BitVec 64) (token : BitVec 16) (data record : List Byte)
      (die : BitVec 6) (r64 : BitVec 64) (key : BitVec 256) (entries : List (BitVec 32 × BitVec 16 × BitVec 32))
      (interval : BitVec 16) (mport commit : Bool) (addr sub gate : BitVec 32) (s : State),
    let k := s.mgmtKey m.key.toNat
    let u : State := if m.mctp then s.mctpHeard (some m.smbus) else s.setMgmtKey m.key.toNat { k with nonce := m.nonce }
    let dst := replyTo m
    let udp : Prop := s.mgmtUp = true ∧ m.mctp = false ∧ m.udp = 47210#16
    let ok (right : Nat) (body : List Byte) : Prop := s.mgmtUp = true ∧
      (m.mctp = true ∨ m.udp = 47210#16 ∧ badFrame m body = false ∧ s.authentic m body = true ∧ k.holds right = true)
    let runs (c : Instr) (right : Nat) (body : List Byte) (P : State → Prop) : Prop :=
      (ok right body → Answers c s P) ∧
      (s.mgmtUp = false ∨ m.mctp = false ∧ m.udp ≠ 47210#16 → Answers c s fun t => t = s) ∧
      (udp → badFrame m body = true → Answers c s fun t =>
        Counts s t Reg.MAN_STATUS 14 8 ∧ RegsOnly s t) ∧
      (udp → badFrame m body = false → s.authentic m body = false → Answers c s fun t =>
        Logged s t 0x18 0x01 ∧ t = { s with ev := t.ev, pair := t.pair, sent := .response dst 1#8 0#32 [] :: s.sent }) ∧
      (udp → badFrame m body = false → s.authentic m body = true → k.holds right = false →
        Answers c s fun t => t = { u with sent := .response dst 2#8 0#32 [] :: s.sent })
    let gives (status detail : Nat) (bytes : List Byte) (t : State) : Prop :=
      ∃ l, t.sent = .response dst (BitVec.ofNat 8 status) (BitVec.ofNat 32 detail) bytes :: l
    let b := bank == 1#8
    let fits : Prop := data.length ≤ 1024 ∧ off.toNat + data.length ≤ 192 + 2 ^ 24
    let shut := u.bankCheck (u.bank b)
    let code := u.blockRefusal mask token.toNat
    let fix := u.softRefusal die.toNat r64.toNat
    let j := u.job slot.toNat
    let h := s.mctpHeard none
    let heard (t : State) : Prop := t.mgmt.alert = false ∧ t.mgmt.smbus ≠ none ∧
      ∀ b, s.mgmt.smbus = some b → t.mgmt.smbus = some b ∧ t.freeCtr = s.freeCtr
    runs (.readReg m off count view) 0 (cmdBody 1 (natLe off.toNat 4 ++ natLe count.toNat 2 ++ [if view then 1 else 0]))
      (fun t => 1 ≤ count.toNat → count.toNat ≤ 64 → off.toNat + 4 * count.toNat ≤ 2 ^ 24 →
        (∃ bytes, bytes.length = 4 * count.toNat ∧ gives 0 0 bytes t) ∧
        (count = 1#16 → off.toNat % 4 = 0 → u.grants .mgmt off.toNat = true →
          AMap.get none u.shadow (regKey (viewFn 0 off.toNat) off.toNat) = none →
          gives 0 0 (natLe (u.showWord 0 off.toNat view).toNat 4) t)) ∧
    runs (.writeReg m off value env) 1 (cmdBody 2 (natLe off.toNat 4 ++ natLe value.toNat 4))
      (fun t => (off.toNat < 2 ^ 24 → gives 0 0 [] t) ∧
        (off.toNat = Reg.EVT_SEL → u.grants .mgmt Reg.EVT_SEL = true → t.reg Reg.EVT_SEL = value)) ∧
    runs (.stepCmd m n env) 1 (cmdBody 3 [n]) (fun t =>
      (16 ≤ n.toNat → gives 3 0 [] t ∧ t.field Reg.BRU_STATUS 6 1 = 1) ∧
      (n.toNat < 16 → u.stepAccepted n.toNat = true → gives 0 0 [] t ∧ t.field Reg.BRU_STATUS 0 4 = n.toNat ∧ t.field Reg.BRU_STATUS 4 2 = 1) ∧
      (n.toNat < 16 → u.stepAccepted n.toNat = false → gives 4 0 [] t ∧ t.field Reg.BRU_STATUS 6 1 = 1)) ∧
    runs (.resetCmd m op) 1 (cmdBody 4 [op]) (fun t =>
      (op = 1#8 → u.absorbs 4 = false → u.bru.step6Done = true → gives 0 0 [] t ∧ WarmBy u t 0x0A) ∧
      (op = 2#8 → ColdFree u → gives 0 0 [] t ∧ ColdBy t 0x0A) ∧ (op = 0#8 ∨ 3 < op.toNat → gives 3 0 [] t)) ∧
    runs (.blockReset m mask token) 1 (cmdBody 5 (natLe mask.toNat 8 ++ natLe token.toNat 2)) (fun t =>
      (u.field Reg.RST_BLOCK_STATUS 0 1 = 1 → t = u.respond dst 5 0 []) ∧
      (u.field Reg.RST_BLOCK_STATUS 0 1 = 0 → code = 0 → gives 0 0 [] t ∧ t.field Reg.RST_BLOCK_STATUS 0 1 = 1 ∧
        t.bru.blockMask = u.bru.blockMask ||| mask) ∧
      (u.field Reg.RST_BLOCK_STATUS 0 1 = 0 → code ≠ 0 → gives 4 code [] t ∧
        t.field Reg.RST_BLOCK_STATUS 2 4 = code)) ∧
    runs (.drainSlot m slot) 1 (cmdBody 6 [slot]) (fun t => slot.toNat < 64 →
      (j.st = .running → j.stopKind.toNat < 2 → gives 0 0 [] t ∧ (t.job slot.toNat).stopKind = 3#8 ∧
        (t.job slot.toNat).stopAt = some (j.stopAt.getD j.beat)) ∧
      (j.st = .loaded → j.stopKind.toNat < 2 → gives 0 0 [] t ∧ (t.job slot.toNat).st = .stopped) ∧
      (j.live = false ∧ j.st ≠ .loaded ∨ 2 ≤ j.stopKind.toNat → t = u.respond dst 4 0x11 [])) ∧
    runs (.drainModule m) 1 (cmdBody 7 []) (fun t => gives 0 0 [] t ∧ t.flash.drained = true ∧ .faultN true ∈ t.sent) ∧
    runs (.fwWrite m bank off data) 2 (cmdBody 8 ([bank] ++ natLe off.toNat 4 ++ data)) (fun t =>
      bank.toNat ≤ 1 → fits → u.bankBusy b = false →
        readBytes (t.bank b) off.toNat data.length = data ∧ t.bankOpen b = true ∧ t.bank (!b) = u.bank (!b) ∧
        (∀ a, a < off.toNat ∨ off.toNat + data.length ≤ a → AMap.get 0 (t.bank b) a = AMap.get 0 (u.bank b) a) ∧
        t = { u with flash := t.flash, sent := .response dst 0#8 0#32 [] :: s.sent }) ∧
    runs (.fwCommit m bank prefer) 2 (cmdBody 9 [bank, prefer]) (fun t => bank.toNat ≤ 1 → prefer.toNat ≤ 1 →
      gives (if shut = 0 then 0 else 4) shut [] t ∧ t.bankOpen b = false ∧ Logged u t 0x18 0x05 ∧
      (shut = 0 → prefer = 1#8 → t.flash.fwActive = b ∧ t.field Reg.BRU_FW 0 1 = (if b then 1 else 0)) ∧
      (shut ≠ 0 ∨ prefer = 0#8 → t.flash.fwActive = u.flash.fwActive)) ∧
    runs (.licence m op slot record) 2 (cmdBody 10 ([op, slot] ++ record)) (fun t =>
      slot.toNat < 8 → u.field Reg.LIC_CMD_STATUS 0 1 = 0 →
      (op = 1#8 → record.length = 128 → t.field Reg.LIC_CMD_STATUS 0 1 = 1 ∧
        t.bru.licBusy = some (BitVec.ofNat 3 slot.toNat, some record) ∧
        gives (if u.licenceCheck (some record) = 0 then 0 else 4) (u.licenceCheck (some record)) [] t) ∧
      (op = 2#8 → gives 0 0 [] t ∧ t.bru.licBusy = some (BitVec.ofNat 3 slot.toNat, none))) ∧
    runs (.repairAdd m die r64) 2 (cmdBody 11 (natLe r64.toNat 8)) (fun t =>
      (u.field Reg.FUS_CMD_STATUS 0 1 = 1 → t = u.respond dst 5 0 []) ∧
      (u.field Reg.FUS_CMD_STATUS 0 1 = 0 → t.field Reg.FUS_CMD_STATUS 2 4 = fix ∧
        gives (if fix = 1 then 0 else 4) (if fix = 1 then 0 else fix) [] t ∧ (fix ≠ 1 → t.dies = u.dies))) ∧
    runs (.keySet m slot rights key) 2 (cmdBody 12 ([slot, rights] ++ natLe key.toNat 32)) (fun t => slot.toNat < 8 →
      (m.mctp = true ∨ (u.setKey slot.toNat rights key).someMaintain = true → gives 0 0 [] t ∧ Logged u t 0x18 0x02 ∧
        (key = 0#256 → t.mgmtKey slot.toNat = { nonce := (u.mgmtKey slot.toNat).nonce }) ∧
        (key ≠ 0#256 → t.mgmtKey slot.toNat =
          { present := true, key := key, rights := rights &&& 0x1F#8, nonce := (u.mgmtKey slot.toNat).nonce }) ∧
        ∀ i, i ≠ slot.toNat → t.mgmtKey i = u.mgmtKey i) ∧
      (m.mctp = false → (u.setKey slot.toNat rights key).someMaintain = false → t = u.respond dst 4 0 [])) ∧
    runs (.logRead m log first num) 0 (cmdBody 13 ([log] ++ natLe first.toNat 4 ++ [num])) (fun t =>
      log.toNat ≤ 1 → 1 ≤ num.toNat → num.toNat ≤ 16 → t = u.respond dst 0 0
        ((List.range num.toNat).flatMap fun i => u.recordBytes (log == 1#8) (first + BitVec.ofNat 32 i))) ∧
    runs (.collectors m entries interval) 1 (cmdBody 14 ((entries.flatMap fun e =>
        natLe e.1.toNat 4 ++ natLe e.2.1.toNat 2 ++ natLe e.2.2.toNat 4) ++ natLe interval.toNat 2)) (fun t =>
      (entries.length = 4 → gives 0 0 [] t ∧ t.flash.interval = max 1 (min 1000 interval.toNat) ∧
        t.flash.collectors = entries.map fun e => { addr := e.1, udp := e.2.1, mask := e.2.2 }) ∧
      (entries.length ≠ 4 → t = u.respond dst 3 0 [])) ∧
    (s.mgmtUp = true → Answers (.netSet mport addr sub gate) s fun t => heard t ∧
      t.sent = .response mctpReply 0#8 0#32 [] :: s.sent ∧
      AMap.get 0 t.mgmt.addr (if mport then 1 else 0) = (if addr = 0#32 then 0 else addr ++ sub ++ gate : BitVec 96) ∧
      t = { h with mgmt := { h.mgmt with addr := t.mgmt.addr }, sent := t.sent }) ∧
    (s.mgmtUp = true → Answers (.setEndpointId n) s fun t => heard t ∧
      t = { h with mgmt := { h.mgmt with eid := n } }) ∧
    (s.mgmtUp = true → data ≠ [] → fits → s.bankBusy commit = false →
      Answers (.pldmFirmwareUpdate commit off data false) s fun t =>
        readBytes (t.bank commit) off.toNat data.length = data ∧ t.bankOpen commit = true ∧
        t.bank (!commit) = s.bank (!commit) ∧ t = { h with flash := t.flash }) ∧
    (s.mgmtUp = true → Answers (.pldmFirmwareUpdate commit off [] true) s fun t =>
      t.bankOpen commit = false ∧ t.bank commit = s.bank commit ∧ Logged s t 0x18 0x05 ∧
      t = { h with flash := t.flash, ev := t.ev, pair := t.pair })

/-- Licences, repairs by command, and JTAG debug (R429, R432, R446, R447, R496-R499); each JTAG row leaves its code in the
instruction register. A response without a challenge, the 8 bits of AUTH_STATUS and a level of 0 are log entry 105,
CLEAR_FLAG log entry 106, BYPASS and SAMPLE log entry 107. -/
def Obligations.StoresAndDebug : Prop :=
  ∀ (via : Via) (slot : BitVec 3) (die : BitVec 6) (token : BitVec 16) (bad : List Nat) (nonce key : BitVec 256)
      (level ks : BitVec 8) (sig : BitVec 512) (off : BitVec 24) (view : Bool) (data : BitVec 32) (env : StepEnv) (s : State),
    let ls := Reg.LIC_CMD_STATUS
    let fs := Reg.FUS_CMD_STATUS
    let d := die.toNat
    let buf := (List.range 32).flatMap fun i => natLe (s.reg (Reg.LIC_BUF i)).toNat 4
    let lic : Prop := s.grants via Reg.LIC_CMD = true
    let fus : Prop := s.grants via Reg.FUS_CMD = true
    let begins (c : Instr) (r : Option (List Byte)) : Prop :=
      (lic → s.field ls 0 1 = 0 → Answers c s fun t => t.field ls 0 1 = 1 ∧ (∀ a, a ≠ ls → t.reg a = s.reg a) ∧
        t = { s with regs := t.regs, bru := { s.bru with licBusy := some (slot, r) } }) ∧
      (lic → s.field ls 0 1 = 1 → Answers c s fun t => t = s)
    let ended (r : Nat) (t : State) : Prop := t.field ls 0 2 = 2 ∧ t.field ls 2 4 = r ∧ t.bru.licBusy = none ∧
      t = { s with regs := t.regs, bru := t.bru, flash := t.flash }
    let stored (k : Nat) (s : State) : Option (List Byte) := AMap.get none s.flash.licences k
    let r64 := s.reg64 Reg.FUS_REC_LO
    let code := s.softRefusal d r64
    let free : Prop := fus ∧ s.field fs 0 1 = 0
    let on : Prop := s.power.off = false
    let held (ir : Byte) : State := { s with jtag := { s.jtag with ir := ir } }
    let gives (ir : Byte) (w v : Nat) (t : State) : Prop := t = { held ir with sent := .jtag w v :: s.sent }
    let serial := s.reg64 Reg.LIC_SERIAL_LO
    let granted := min level.toNat Config.debugCeiling.toNat
    begins (.licenceStore via slot) (some buf) ∧ begins (.licenceErase via slot) none ∧
    (∀ k, s.bru.licBusy = some (k, none) → Answers .licenceCommandComplete s fun t => ended 0 t ∧ stored k.toNat t = none ∧
      ∀ i, i ≠ k.toNat → stored i t = stored i s) ∧
    (∀ k b, s.bru.licBusy = some (k, some b) → Answers .licenceCommandComplete s fun t =>
      let r := s.licenceCheck (some b)
      ended r t ∧ t.field Reg.LIC_SLOT_STATUS (4 * k.toNat) 4 = r ∧
      stored k.toNat t = (if r = 0 then some b else stored k.toNat s) ∧ ∀ i, i ≠ k.toNat → stored i t = stored i s) ∧
    (free → s.burnRefusal d token.toNat = 0 → Answers (.repairBurn via die token) s fun t => t.field fs 0 1 = 1 ∧
      t.bru = { s.bru with burnDie := some die, burnQueue := (s.die d).soft } ∧ t = { s with regs := t.regs, bru := t.bru }) ∧
    (free → s.ready = false → Answers (.repairBurn via die token) s fun t => t.field fs 0 2 = 2 ∧ t.field fs 2 4 = 2 ∧
      (∀ a, a ≠ fs → t.reg a = s.reg a) ∧ RegsOnly s t) ∧
    (free → code ≠ 1 → Answers (.addSoftRepair via die) s fun t => t.field fs 0 2 = 2 ∧ t.field fs 2 4 = code ∧
      (∀ a, a ≠ fs → t.reg a = s.reg a) ∧ RegsOnly s t) ∧
    (free → code = 1 → recKind r64 = 3 → Answers (.addSoftRepair via die) s fun t => t.field fs 0 2 = 2 ∧
      t.field fs 2 4 = 1 ∧ Sets s.die t.die d { s.die d with soft := (s.die d).soft ++ [BitVec.ofNat 64 r64] } ∧
      Logged s t 0x15 0x01) ∧
    (s.bru.burnDie = some die → s.bru.burnQueue.length + (s.die d).fields.length ≤ 16 → bad = [] →
      Answers (.repairBurnComplete bad) s fun t => t.field fs 0 2 = 2 ∧ t.field fs 2 4 = 1 ∧
        t.field fs 6 5 = s.bru.burnQueue.length ∧ t.bru.burnDie = none ∧ t.bru.burnQueue = [] ∧
        (t.die d).fields = (s.die d).fields ++ s.bru.burnQueue ∧ ∀ i, i ≠ d → t.die i = s.die i) ∧
    (on → Answers .bypass s (fun t => t = held 0xFF#8) ∧ Answers .samplePreload s (fun t => t = held 0x02#8)) ∧
    (¬on → ∀ c ∈ [Instr.bypass, .samplePreload, .idcode, .authStatus, .clearFlag, .authChallenge nonce, .authResponse level ks key sig,
      .mem off false view data env, .mem off true view data env], Answers c s fun t => t = s) ∧
    (on → Answers .idcode s (gives 0x01#8 32 0x1D640A2F)) ∧
    (on → Answers .authStatus s (gives 0x12#8 8 s.jtag.level)) ∧
    (on → Answers (.authChallenge nonce) s fun t => t = { s with
      jtag := { s.jtag with nonce := some nonce, ir := 0x10#8 }
      sent := .jtag 328 (nonce.toNat + 2 ^ 256 * serial + 2 ^ 320 * Config.debugCeiling.toNat) :: s.sent }) ∧
    (∀ n k, on → s.jtag.nonce = some n → s.debugKey level.toNat ks.toNat key = some k →
      ed25519 k (natLe n.toNat 32 ++ natLe serial 8 ++ [level, ks]) sig = true → granted ≠ 0 →
      Answers (.authResponse level ks key sig) s fun t => t.jtag = { nonce := none, level := granted, ir := 0x11#8 } ∧
        (∃ r ∈ t.ev.atSource, r.cls = 0x18#8 ∧ r.cause = 0x03#8) ∧
        t = { s with jtag := t.jtag, ev := t.ev, pair := t.pair }) ∧
    (on → s.jtag.nonce = none ∨ s.debugKey level.toNat ks.toNat key = none →
      Answers (.authResponse level ks key sig) s fun t => t.jtag = { nonce := none, level := 0, ir := 0x11#8 } ∧
        (∃ r ∈ t.ev.atSource, r.cls = 0x18#8 ∧ r.cause = 0x01#8) ∧
        t = { s with jtag := t.jtag, ev := t.ev, pair := t.pair }) ∧
    (on → 1 ≤ s.jtag.level → off.toNat % 4 = 0 → s.grants .jtag off.toNat = true →
      AMap.get none s.shadow (regKey (viewFn 0 off.toNat) off.toNat) = none →
      Answers (.mem off false view data env) s fun t =>
        gives 0x20#8 64 (off.toNat + (if view then 2 ^ 25 else 0) + 2 ^ 32 * ((held 0x20#8).showWord 0 off.toNat view).toNat)
          { t with shadow := s.shadow }) ∧
    (on → 2 ≤ s.jtag.level → off.toNat = Reg.EVT_SEL → s.grants .jtag Reg.EVT_SEL = true →
      Answers (.mem off true view data env) s (Noted fun t =>
        t.reg Reg.EVT_SEL = data ∧ (∀ a, a ≠ Reg.EVT_SEL → t.reg a = s.reg a) ∧ RegsOnly (held 0x20#8) t)) ∧
    (on → s.jtag.level = 0 → Answers (.mem off false view data env) s fun t => t = held 0x20#8) ∧
    (on → s.jtag.level < 2 → Answers (.mem off true view data env) s fun t => t = held 0x20#8) ∧
    (on → 3 ≤ s.jtag.level → s.flash.drained = true → Answers .clearFlag s fun t => t.flash = { s.flash with drained := false } ∧
      t.sent = .faultN s.inRecovery :: s.sent ∧ Logged s t 0x18 0x09 ∧
      t = { held 0x30#8 with flash := t.flash, regs := t.regs, ev := t.ev, pair := t.pair, sent := t.sent }) ∧
    (on → s.jtag.level < 3 ∨ s.flash.drained = false → Answers .clearFlag s fun t => t = held 0x30#8) ∧
    (s.jtag.level ≠ 0 → Answers .debugSessionClose s fun t => t.jtag = { s.jtag with level := 0 } ∧ Logged s t 0x18 0x04 ∧
      t = { s with jtag := t.jtag, ev := t.ev, pair := t.pair }) ∧
    (s.jtag.level = 0 → Answers .debugSessionClose s fun t => t = s)

/-- Training, lasers, rings and the register writes of a port (R304, R313-R322): each event of training moves the port on
as R314 says; a line comes or goes; rings lose lock, calibrate and re-centre; a pair turns bad or clean; a write of
LTN_PORT_CTRL takes a port down or up, narrows it, or asks for a retrain. What follows a failed calibration is log entry 41,
the reason of a REQ log entry 42, one event for an engine log entry 46, a port taken down in DARK log entry 136, the
temperature of an engine log entry 147, due times log entry 8. -/
def Obligations.LanternTraining : Prop :=
  ∀ (port : BitVec 7) (engine : BitVec 6) (pairs power temp : Byte) (peer : BitVec 17) (line bad : BitVec 3)
      (pair ring : BitVec 4) (fromSaved : Bool) (via : Via) (value : BitVec 32) (s : State),
    let p := port.toNat
    let x := s.port p
    let k := engine.toNat
    let e := s.engine k
    let es := Reg.LTN_ENG_STATUS k
    let both := [2 * k, 2 * k + 1]
    let hour := 3600000000000
    let due (q : Nat) : Prop := (s.port q).activeMs + hour ≤ s.toll.lastRelease
    let runs (c : Instr) (P : State → Prop) : Prop := Answers c s (Noted P)
    let same (c : Instr) : Prop := runs c fun t => t = s
    let only (t : State) : Prop := t = { s with ports := t.ports }
    let timed (t : State) : Prop := t = { s with ports := t.ports, ms := t.ms, msOff := t.msOff, up := t.up, man := t.man }
    let downs (q reason : Nat) (t : State) : Prop := t.field (Reg.LTN_PORT_DOWN q) 0 4 = reason ∧
      (t.port q).st = (if t.adminDown q || t.allLines (q / 2) then 9#4 else 1#4)
    let asks (op width reason : Nat) (t : State) : Prop := ∃ r, (t.port p).req = some r ∧
      r.msg.op = BitVec.ofNat 8 op ∧ r.msg.width = BitVec.ofNat 8 width ∧ r.msg.reason = BitVec.ofNat 8 reason ∧
      r.sends = 1 ∧ r.lastMs = t.ms ∧ (t.port p).ctlq = x.ctlq ++ [reqBytes r.msg]
    let calls : Prop := ∃ q ∈ both, (s.port q).st = 2#4
    let filled (t : State) : Engine := { e with full := (t.engine k).full }
    let near : Prop := e.usingSaved = true ∧ temp.toNat ≤ e.savedTemp.toNat + 8 ∧ e.savedTemp.toNat ≤ temp.toNat + 8
    let seeks (t : State) : Prop := ∀ q ∈ both, (s.port q).st = 2#4 →
      t.port q = { s.port q with
        st := 3, since := s.ms, seekPause := false, ownBad := (t.port q).ownBad, wideSince := (t.port q).wideSince } ∧
      ∀ i, i < 8 → (t.port q).ownBad.getLsbD i = ((s.port q).ownBad.getLsbD i && !s.ringOut q i)
    let calibrated (how cal : Nat) (t : State) : Prop := seeks t ∧ t.field es 8 2 = how ∧ t.field es 10 1 = 1 ∧
      t.field es 16 8 = temp.toNat ∧ t.field es 24 8 = cal
    let whole : Prop := ∃ g ∈ [8, 4, 2].flatMap pairGroups, g &&& pairs = g
    let laser := if line.toNat < 4 then Reg.LTN_ENG_LASER_LO k else Reg.LTN_ENG_LASER_HI k
    let measured (b : Nat) (t : State) : Prop := t.field es line.toNat 1 = b ∧ t.field laser (8 * (line.toNat % 4)) 8 = power.toNat
    let b := BitVec.ofNat 8 (2 ^ bad.toNat)
    let w := 2 * k + pair.toNat / 8
    let mark := BitVec.ofNat 8 (2 ^ (pair.toNat % 8))
    let bit := BitVec.twoPow 256 (16 * pair.toNat + ring.toNat)
    let grants : Prop := s.grants via (Reg.LTN_PORT_CTRL p) = true
    let ctrl := Reg.LTN_PORT_CTRL p
    let cap := if value.toNat / 2 % 4 = 1 then 4 else if value.toNat / 2 % 4 = 2 then 2 else 8
    (calls → runs (.ringCalComplete engine true false temp) fun t => calibrated 2 temp.toNat t ∧
      Sets s.engine t.engine k { filled t with
        ringsOut := 0, usingSaved := false, savedHeater := true, savedTemp := temp, savedSerials := e.serials, unfit := false
        calibrated := true } ∧
      Counts s t (Reg.LTN_ENG_RING k) 16 8) ∧
    (calls → near → runs (.ringCalComplete engine true true temp) fun t => calibrated 1 e.savedTemp.toNat t ∧
      Sets s.engine t.engine k { e with ringsOut := 0, usingSaved := false, calibrated := true }) ∧
    (calls → near → runs (.ringCalComplete engine false true temp) fun t =>
      Sets s.engine t.engine k { filled t with usingSaved := false } ∧
      ∀ q ∈ both, (s.port q).st = 2#4 → t.port q = { s.port q with since := s.ms }) ∧
    (calls → s.serves (srcEngine k) = true → s.pairActive = false → runs (.ringCalComplete engine false false temp) fun t =>
      t.field es 8 2 = 3 ∧ t.field es 16 8 = temp.toNat ∧ srcEngine k ∈ t.outOf ∧
      (t.engine k).recentring = false ∧ ∀ q ∈ both, 2 ≤ (s.port q).st.toNat → (s.port q).st.toNat ≤ 8 → downs q 8 t) ∧
    ((∀ q ∈ both, (s.port q).calibrating = false) → same (.ringCalComplete engine true fromSaved temp)) ∧
    (x.st = 3#4 → x.seekPause = false → whole → runs (.seekLock port pairs peer) fun t =>
      t = { s with ports := t.ports, regs := t.regs, engines := t.engines } ∧
      ((t.port p).eqSaved = true ∨ s.stepNow ≠ 9 → only t) ∧
      Sets s.port t.port p { x with
        st := 4, since := s.ms, locked := pairs, ownBad := x.ownBad ||| ~~~pairs, tsSent := false, tsSeen := false
        eqSaved := s.eqAccepted p peer.toNat }) ∧
    (¬whole → same (.seekLock port pairs peer)) ∧
    (x.st = 4#4 → runs (.equaliseComplete port) fun t => only t ∧
      Sets s.port t.port p { x with st := 5, since := s.ms, equalised := x.locked }) ∧
    (x.st = 3#4 → x.seekPause = false → runs (.trainingTimeout port) fun t => timed t ∧ t.ms = max s.ms (x.since + 500000000) ∧
      Sets s.port t.port p { x with seekPause := true, seekTried := true, since := t.ms }) ∧
    (x.st = 2#4 → (s.engine (p / 2)).usingSaved = true → runs (.trainingTimeout port) fun t =>
      t.ms = max s.ms (x.since + 50000000) ∧ (t.engine (p / 2)).usingSaved = false ∧
      t.port p = { x with since := t.ms }) ∧
    (x.st = 4#4 → x.eqSaved = true → runs (.trainingTimeout port) fun t =>
      t = { s with ports := t.ports, ms := t.ms, msOff := t.msOff, up := t.up, man := t.man, regs := t.regs, engines := t.engines } ∧
      (s.stepNow = 9 → s.stepState = 1 → t.field Reg.BRU_STATUS 7 1 = 1 ∨ (s.engine (p / 2)).full = true) ∧ t.ms = max s.ms (x.since + 2000000) ∧
      Sets s.port t.port p { x with eqSaved := false, since := t.ms }) ∧
    (x.st = 8#4 → runs (.trainingTimeout port) fun t => downs p 1 t ∧
      t.ms = max s.ms (x.since + if x.op.any fun m => m.op == 2#8 then 4002000000 else 2000000)) ∧
    (x.st = 0#4 ∨ x.st = 1#4 ∨ x.st = 7#4 ∨ x.st = 9#4 → same (.trainingTimeout port)) ∧
    (x.st = 3#4 → x.seekPause = true → runs (.seekPauseEnd port) fun t => timed t ∧ t.ms = max s.ms (x.since + 1000000000) ∧
      Sets s.port t.port p { x with seekPause := false, since := t.ms }) ∧
    (x.st = 9#4 → s.adminDown p = true ∨ s.portEnabled p = false → runs (.downTimer port) fun t => only t ∧
      Sets s.port t.port p { x with st := 0, since := s.ms }) ∧
    (x.st = 9#4 → s.adminDown p = false → s.portEnabled p = true → s.allLines (p / 2) = false → runs (.downTimer port) fun t =>
      only t ∧ Sets s.port t.port p { x with st := 1, since := s.ms }) ∧
    (x.st = 9#4 → s.adminDown p = false → s.portEnabled p = true → s.allLines (p / 2) = true →
      s.serves (srcEngine (p / 2)) = true → runs (.downTimer port) fun t => timed t ∧
        t.ms = max s.ms (x.since + 1000000000) ∧ Sets s.port t.port p { x with st := 3, since := t.ms, seekPause := false }) ∧
    (64 ≤ power.toNat → (∃ l, l < 8 ∧ l ≠ line.toNat ∧ s.field es l 1 = 0) → runs (.laserLinePresent engine line power) fun t =>
      measured 1 t ∧ RegsOnly s t) ∧
    (64 ≤ power.toNat → (∀ l, l < 8 → l ≠ line.toNat → s.field es l 1 = 1) → s.serves (srcEngine k) = true →
      runs (.laserLinePresent engine line power) fun t => measured 1 t ∧
        ((∃ q ∈ both, (s.port q).st = 1#4 ∧ s.portEnabled q = true ∧ s.adminDown q = false) → t.field es 10 1 = 0 ∧
          (t.engine k).recentring = false ∧ (t.engine k).usingSaved =
            (e.savedHeater && s.engineSaved k && e.near (BitVec.ofNat 8 (t.field es 16 8)))) ∧ ∀ q ∈ both, (s.port q).st = 1#4 →
        t.port q = { s.port q with since := s.ms, st := if s.portEnabled q && !s.adminDown q then 2 else 0 }) ∧
    (power.toNat < 64 → same (.laserLinePresent engine line power)) ∧
    (power.toNat < 56 → s.field es line.toNat 1 = 1 → runs (.laserLineLost engine line power) fun t => measured 0 t ∧
      (∃ r ∈ t.ev.atSource, r.cls = 0x0C#8 ∧ r.cause = 0x04#8) ∧
      ∀ q ∈ both, ((s.port q).st = 7#4 ∨ (s.port q).st = 8#4 → downs q 5 t) ∧
        (2 ≤ (s.port q).st.toNat → (s.port q).st.toNat ≤ 6 → (t.port q).st = 1#4 ∧ (t.port q).since = s.ms) ∧
        ((s.port q).st.toNat ≤ 1 → t.port q = s.port q)) ∧
    (56 ≤ power.toNat ∨ s.field es line.toNat 1 = 0 → same (.laserLineLost engine line power)) ∧
    (∀ n g, s.mayRequest p = true → x.want = none → x.pairs &&& b ≠ 0#8 →
      chooseGroup (s.targetWidth p) (x.bad ||| b) = some (n, g) → runs (.pairMarkedBad port bad) fun t =>
        only t ∧ (t.port p).ownBad = x.ownBad ||| b ∧ (asks 3 n 2 t ∨ asks 3 n 3 t) ∧ ∀ q, q ≠ p → t.port q = s.port q) ∧
    (s.mayRequest p = false → runs (.pairMarkedBad port bad) fun t => only t ∧ (t.port p).req = x.req ∧
      (t.port p).ownBad = x.ownBad ||| b ∧ ∀ q, q ≠ p → t.port q = s.port q) ∧
    (s.ringOut p bad.toNat = false → runs (.pairMarkCleared port bad) fun t => only t ∧
      (t.port p).ownBad = x.ownBad &&& ~~~b ∧ (t.port p).req = x.req ∧ ∀ q, q ≠ p → t.port q = s.port q) ∧
    (s.ringOut p bad.toNat = true → same (.pairMarkCleared port bad)) ∧
    (∀ t0 n g, x.wideSince = some t0 → s.field Reg.LTN_CFG 1 1 = 1 → x.st = 7#4 → x.req = none → x.op = none →
      x.notBefore ≤ max s.ms (t0 + 1000000000) → chooseGroup (s.targetWidth p) x.bad = some (n, g) →
      runs (.upshiftCheck port) fun t => timed t ∧ t.ms = max s.ms (t0 + 1000000000) ∧ asks 3 n 4 t) ∧
    (x.wideSince = none ∨ s.field Reg.LTN_CFG 1 1 = 0 → same (.upshiftCheck port)) ∧
    ((s.port w).linked = true → runs (.ringLockLoss engine pair ring) fun t => Logged s t 0x0C 0x06 ∧ t.field es 10 1 = 0 ∧
      Sets s.engine t.engine k { e with ringsOut := e.ringsOut ||| bit } ∧ (t.port w).ownBad = (s.port w).ownBad ||| mark) ∧
    ((s.port w).linked = false → same (.ringLockLoss engine pair ring)) ∧
    (e.ringsOut &&& bit ≠ 0 → runs (.ringRelock engine pair ring) fun t => Counts s t (Reg.LTN_ENG_RING k) 0 16 ∧
      Sets s.engine t.engine k { e with ringsOut := e.ringsOut &&& ~~~bit } ∧
      (e.ringsOut &&& ~~~bit = 0 → s.engineCalibrates k = false → t.field es 10 1 = 1) ∧
      (t.ringOut w (pair.toNat % 8) = false → (t.port w).ownBad = (s.port w).ownBad &&& ~~~mark)) ∧
    (e.ringsOut &&& bit = 0 → same (.ringRelock engine pair ring)) ∧
    (e.recentring = true → runs (.ringRecentreComplete engine temp) fun t => t.field es 16 8 = temp.toNat ∧
      Sets s.engine t.engine k { e with recentring := false, late := false, recentreCount := e.recentreCount + 1 } ∧
      t = { s with regs := t.regs, engines := t.engines }) ∧
    (e.recentring = false → same (.ringRecentreComplete engine temp)) ∧
    ((∃ q ∈ both, (s.port q).st = 7#4 ∧ due q) →
      runs (.heaterSettingsSave engine temp) fun t => t = { s with regs := t.regs, engines := t.engines, ports := t.ports } ∧
        t.field es 16 8 = temp.toNat ∧
        Sets s.engine t.engine k { e with savedHeater := true, savedTemp := temp, savedSerials := e.serials, unfit := false } ∧
        ∀ q ∈ both, (s.port q).st = 7#4 → (t.port q).eqUnfit = false ∧
          (t.port q).savedEq = some { peer := s.field (Reg.LTN_PORT_PEER q) 0 17, serials := e.serials, temp := temp } ∧
          (due q → (t.port q).activeMs = (s.port q).activeMs + hour) ∧
          (¬due q → (t.port q).activeMs = (s.port q).activeMs)) ∧
    ((∀ q ∈ both, (s.port q).st = 7#4 → ¬due q) → same (.heaterSettingsSave engine temp)) ∧
    (grants → value.getLsbD 0 = true → 1 ≤ x.st.toNat → x.st.toNat ≤ 8 → runs (.adminDown via port value) fun t =>
      t.field ctrl 0 1 = 1 ∧ downs p 7 t ∧ (t.port p).st = 9#4) ∧
    (grants → value.getLsbD 0 = false → x.st = 0#4 → s.portEnabled p = true → runs (.adminDown via port value) fun t =>
      t.field ctrl 0 1 = 0 ∧
      (s.allLines (p / 2) = false → (t.port p).st = 1#4) ∧
      (s.allLines (p / 2) = true → s.serves (srcEngine (p / 2)) = true → (t.port p).st = 2#4)) ∧
    (grants → value.toNat % 2 = 0 → value.toNat / 8 % 4 = 0 → x.st = 7#4 → runs (.maxWidth via port value) fun t =>
      t.field ctrl 1 2 = (if value.toNat / 2 % 4 = 3 then s.field ctrl 1 2 else value.toNat / 2 % 4) ∧
      t = { s with regs := t.regs, ports := t.ports } ∧ (∀ q, q ≠ p → t.port q = s.port q) ∧
      ∀ n g, s.mayRequest p = true → x.want = none → (x.ownBad ||| x.permBad) &&& x.pairs = 0#8 → value.toNat / 2 % 4 ≠ 3 →
        cap < x.width.toNat → chooseGroup (min cap x.peerMax.toNat) x.bad = some (n, g) → asks 3 n 0 t) ∧
    (grants → s.adminDown p = false → s.field ctrl 4 1 = 0 → s.mayRequest p = true → runs (.portRetrain via port) (asks 1 0 0)) ∧
    (grants → s.adminDown p = false → s.mayRequest p = true → runs (.portRecal via port) (asks 2 0 0))

/-- Every command keeps what a sound state is, whatever its operands: both memories stay in canonical form and no cluster
is listed twice; and a command leaves the queue of commands alone. -/
def Obligations.EveryCommandKeeps : Prop :=
  ∀ (c : Instr) (s t : State), Sound s → exec c s = .next t → Sound t ∧ t.pending = s.pending

/-- Every step keeps what a sound state is and takes exactly the command at the front of the queue (log entry 2: an empty
queue idles). -/
def Obligations.EveryStepKeeps : Prop :=
  ∀ (s t : State), Sound s → step s = .next t → Sound t ∧ t.pending = s.pending.tail

/-- The state after reset is sound: no byte and no cluster is listed twice. -/
def Obligations.ResetIsSound : Prop := Sound State.reset
end

