-- ==== Sys2Proof/Laws/AMap.lean ====
section
/-! SUPPORT. The sparse map: what a key reads after a write, and the canonical form. -/

namespace Sys2Proof

variable {α : Type}

/-- A removed key reads as the default, every other key as before. -/
theorem AMap.get_erase (d : α) (m : AMap α) (k n : Nat) :
    AMap.get d (AMap.erase m k) n = if n = k then d else AMap.get d m n := by
  induction m with
  | nil => simp [AMap.erase, AMap.get]
  | cons p m ih =>
    obtain ⟨a, v⟩ := p
    by_cases h : a = k
    · subst h
      simp only [AMap.erase, if_true, ih, AMap.get]
      by_cases h2 : n = a
      · simp [h2]
      · simp [h2, Ne.symm h2]
    · simp only [AMap.erase, h, if_false, AMap.get, ih]
      by_cases h2 : a = n
      · subst h2; simp [h]
      · simp [h2]

/-- An inserted key reads as its value, every other key as before. -/
theorem AMap.get_insert (d : α) (m : AMap α) (k n : Nat) (w : α) :
    AMap.get d (AMap.insert m k w) n = if n = k then w else AMap.get d m n := by
  induction m with
  | nil =>
    simp only [AMap.insert, AMap.get]
    by_cases h : n = k
    · simp [h]
    · simp [h, Ne.symm h]
  | cons p m ih =>
    obtain ⟨a, v⟩ := p
    by_cases h1 : k < a
    · simp only [AMap.insert, h1, if_true, AMap.get]
      by_cases h2 : n = k
      · simp [h2]
      · simp [h2, Ne.symm h2]
    · by_cases h3 : k = a
      · subst h3
        simp only [AMap.insert, h1, if_true, if_false, AMap.get]
        by_cases h2 : n = k
        · simp [h2]
        · simp [h2, Ne.symm h2]
      · simp only [AMap.insert, h1, h3, if_false, AMap.get, ih]
        by_cases h2 : n = a
        · subst h2; simp [Ne.symm h3]
        · simp [Ne.symm h2]

variable [DecidableEq α]

/-- What a key reads after a write. -/
theorem AMap.get_set (d : α) (m : AMap α) (k n : Nat) (w : α) :
    AMap.get d (AMap.set d m k w) n = if n = k then w else AMap.get d m n := by
  by_cases h : w = d
  · simp [AMap.set, h, AMap.get_erase]
  · simp [AMap.set, h, AMap.get_insert]

/-- The written key reads as the value written. -/
@[simp] theorem AMap.get_set_same (d : α) (m : AMap α) (k : Nat) (w : α) :
    AMap.get d (AMap.set d m k w) k = w := by
  simp [AMap.get_set]

/-- Every other key reads as before. -/
theorem AMap.get_set_other (d : α) (m : AMap α) (k n : Nat) (w : α) (h : n ≠ k) :
    AMap.get d (AMap.set d m k w) n = AMap.get d m n := by
  simp [AMap.get_set, h]

/-- A canonical list starts no lower than its bound. -/
theorem AMap.wfFrom_mono (d : α) (m : AMap α) (a b : Nat) (h : a ≤ b) (hb : AMap.wfFrom d b m = true) :
    AMap.wfFrom d a m = true := by
  cases m with
  | nil => rfl
  | cons p m =>
    obtain ⟨k, v⟩ := p
    simp only [AMap.wfFrom, Bool.and_eq_true, decide_eq_true_eq] at hb ⊢
    exact ⟨⟨by omega, hb.1.2⟩, hb.2⟩

/-- Nothing to remove below the bound. -/
theorem AMap.erase_below (d : α) (m : AMap α) (b k : Nat) (h : k < b) (hw : AMap.wfFrom d b m = true) :
    AMap.erase m k = m := by
  induction m generalizing b with
  | nil => rfl
  | cons p m ih =>
    obtain ⟨a, v⟩ := p
    simp only [AMap.wfFrom, Bool.and_eq_true, decide_eq_true_eq] at hw
    have hne : a ≠ k := by omega
    simp only [AMap.erase, hne, if_false]
    rw [ih (a + 1) (by omega) hw.2]

/-- Removing keeps the canonical form. -/
theorem AMap.wfFrom_erase (d : α) (m : AMap α) (b k : Nat) (hw : AMap.wfFrom d b m = true) :
    AMap.wfFrom d b (AMap.erase m k) = true := by
  induction m generalizing b with
  | nil => rfl
  | cons p m ih =>
    obtain ⟨a, v⟩ := p
    have hw' := hw
    simp only [AMap.wfFrom, Bool.and_eq_true, decide_eq_true_eq] at hw
    by_cases h : a = k
    · simp only [AMap.erase, h, if_true]
      exact AMap.wfFrom_mono d _ b (a + 1) (by omega) (by simpa [h] using ih (a + 1) hw.2)
    · simp only [AMap.erase, h, if_false, AMap.wfFrom, Bool.and_eq_true, decide_eq_true_eq]
      exact ⟨hw.1, ih (a + 1) hw.2⟩

/-- Inserting a value other than the default keeps the canonical form. -/
theorem AMap.wfFrom_insert (d : α) (m : AMap α) (b k : Nat) (w : α) (hk : b ≤ k) (hd : w ≠ d)
    (hw : AMap.wfFrom d b m = true) : AMap.wfFrom d b (AMap.insert m k w) = true := by
  induction m generalizing b with
  | nil => simp [AMap.insert, AMap.wfFrom, hk, hd]
  | cons p m ih =>
    obtain ⟨a, v⟩ := p
    simp only [AMap.wfFrom, Bool.and_eq_true, decide_eq_true_eq] at hw
    by_cases h1 : k < a
    · simp only [AMap.insert, h1, if_true, AMap.wfFrom, Bool.and_eq_true, decide_eq_true_eq]
      exact ⟨⟨hk, hd⟩, ⟨by omega, hw.1.2⟩, hw.2⟩
    · by_cases h3 : k = a
      · simp only [AMap.insert, h3, if_true, lt_irrefl, if_false, AMap.wfFrom, Bool.and_eq_true, decide_eq_true_eq]
        exact ⟨⟨by omega, hd⟩, by simpa [h3] using hw.2⟩
      · simp only [AMap.insert, h1, h3, if_false, AMap.wfFrom, Bool.and_eq_true, decide_eq_true_eq]
        exact ⟨hw.1, ih (a + 1) (by omega) hw.2⟩

/-- A write keeps the canonical form. -/
theorem AMap.wf_set (d : α) (m : AMap α) (k : Nat) (w : α) (hw : AMap.wf d m = true) :
    AMap.wf d (AMap.set d m k w) = true := by
  unfold AMap.set
  split
  · exact AMap.wfFrom_erase d m 0 k hw
  · exact AMap.wfFrom_insert d m 0 k w (Nat.zero_le k) ‹_› hw

/-- The empty map is canonical. -/
@[simp] theorem AMap.wf_nil (d : α) : AMap.wf d ([] : AMap α) = true := rfl

end Sys2Proof
end

