-- ==== Sys2Proof/Laws/Bits.lean ====
section
/-! SUPPORT. Fields of concatenations and concatenations of fields. -/

namespace Sys2Proof

/-- A field that lies in the low part of a concatenation. -/
theorem slotField_append_low {n m lo w : Nat} (x : BitVec n) (y : BitVec m) (h : lo + w ≤ m) :
    (x ++ y).extractLsb' lo w = y.extractLsb' lo w := by
  apply BitVec.eq_of_getLsbD_eq
  intro i hi
  simp only [BitVec.getLsbD_extractLsb', BitVec.getLsbD_append, hi, decide_true, Bool.true_and]
  have h2 : lo + i < m := by omega
  simp [h2]

/-- A field that lies in the high part of a concatenation. -/
theorem slotField_append_high {n m lo w : Nat} (x : BitVec n) (y : BitVec m) (h : m ≤ lo) :
    (x ++ y).extractLsb' lo w = x.extractLsb' (lo - m) w := by
  apply BitVec.eq_of_getLsbD_eq
  intro i hi
  simp only [BitVec.getLsbD_extractLsb', BitVec.getLsbD_append, hi, decide_true, Bool.true_and]
  have h2 : ¬ lo + i < m := by omega
  have h3 : lo + i - m = lo - m + i := by omega
  simp [h2, h3]

/-- The field that is the whole. -/
theorem slotField_whole {n : Nat} (x : BitVec n) : x.extractLsb' 0 n = x := by
  apply BitVec.eq_of_getLsbD_eq
  intro i hi
  simp [hi]

/-- A bit in the low part of a concatenation. -/
theorem getLsbD_append_low {n m i : Nat} (x : BitVec n) (y : BitVec m) (h : i < m) :
    (x ++ y).getLsbD i = y.getLsbD i := by
  simp [BitVec.getLsbD_append, h]

/-- A bit in the high part of a concatenation. -/
theorem getLsbD_append_high {n m i : Nat} (x : BitVec n) (y : BitVec m) (h : m ≤ i) :
    (x ++ y).getLsbD i = x.getLsbD (i - m) := by
  have h2 : ¬ i < m := by omega
  simp [BitVec.getLsbD_append, h2]

/-- A flag bit read back. -/
theorem getLsbD_flagBit (b : Bool) : (flagBit b).getLsbD 0 = b := by cases b <;> decide

/-- Two fields side by side are one field. -/
theorem slotField_join {n lo a b : Nat} (x : BitVec n) :
    x.extractLsb' (lo + b) a ++ x.extractLsb' lo b = x.extractLsb' lo (a + b) := by
  apply BitVec.eq_of_getLsbD_eq
  intro i hi
  simp only [BitVec.getLsbD_extractLsb', BitVec.getLsbD_append, hi, decide_true, Bool.true_and]
  by_cases h : i < b
  · simp [h]
  · have h1 : i - b < a := by omega
    have h2 : lo + b + (i - b) = lo + i := by omega
    simp [h, h1, h2]

/-- A flag that is a bit of a word is the field of width 1. -/
theorem flagBit_getLsbD {n : Nat} (x : BitVec n) (i : Nat) : flagBit (x.getLsbD i) = x.extractLsb' i 1 := by
  apply BitVec.eq_of_getLsbD_eq
  intro j hj
  have : j = 0 := by omega
  subst this
  simp [flagBit]

/-- A shift to the right is the field from there on. -/
theorem ushiftRight_eq_slotField {n : Nat} (x : BitVec n) (k : Nat) : x >>> k = x.extractLsb' k n := by
  apply BitVec.eq_of_getLsbD_eq
  intro i hi
  simp [hi]

/-- Every field of zero is zero. -/
theorem slotField_zero (n lo w : Nat) : (0#n).extractLsb' lo w = 0#w := by
  apply BitVec.eq_of_getLsbD_eq
  intro i hi
  simp

/-- A sum of 2 to the power of chosen lanes, bit by bit. -/
theorem testBit_laneSum (m : BitVec 16) (p : Nat → Bool) : ∀ n,
    ((List.range n).filter fun l => m.getLsbD l).foldl (fun v l => if p l then v + 2 ^ l else v) 0 < 2 ^ n ∧
    ∀ l, (((List.range n).filter fun l => m.getLsbD l).foldl (fun v l => if p l then v + 2 ^ l else v) 0).testBit l =
      (decide (l < n) && m.getLsbD l && p l) := by
  intro n
  induction n with
  | zero => simp
  | succ n ih =>
    obtain ⟨h1, h2⟩ := ih
    rw [List.range_succ, List.filter_append, List.foldl_append]
    generalize hv : ((List.range n).filter fun l => m.getLsbD l).foldl (fun v l => if p l then v + 2 ^ l else v) 0 = v at *
    have hp : 2 ^ (n + 1) = 2 ^ n + 2 ^ n := by omega
    by_cases hm : m.getLsbD n
    · by_cases hq : p n
      · simp only [List.filter_cons, hm, if_true, List.filter_nil, List.foldl_cons, hq, List.foldl_nil]
        refine ⟨by omega, fun l => ?_⟩
        rw [Nat.add_comm]
        by_cases hl : l = n
        · subst hl
          rw [Nat.testBit_two_pow_add_eq, h2]
          simp [hm, hq]
        · by_cases hlt : l < n
          · rw [Nat.testBit_two_pow_add_gt hlt, h2]
            have h' : l < n + 1 := by omega
            simp [hlt, h']
          · have h' : ¬ l < n + 1 := by omega
            simp only [h', decide_false, Bool.false_and]
            apply Nat.testBit_lt_two_pow
            calc _ < 2 ^ (n + 1) := by omega
              _ ≤ 2 ^ l := Nat.pow_le_pow_right (by omega) (by omega)
      · simp only [List.filter_cons, hm, if_true, List.filter_nil, List.foldl_cons, hq, List.foldl_nil, if_false, Bool.false_eq_true]
        refine ⟨by omega, fun l => ?_⟩
        rw [h2]
        by_cases hl : l = n
        · subst hl; simp [hq]
        · have : decide (l < n) = decide (l < n + 1) := by congr 1; apply propext; omega
          rw [this]
    · simp only [List.filter_cons, hm, List.filter_nil, List.foldl_nil, if_false, Bool.false_eq_true]
      refine ⟨by omega, fun l => ?_⟩
      rw [h2]
      by_cases hl : l = n
      · subst hl; simp [hm]
      · have : decide (l < n) = decide (l < n + 1) := by congr 1; apply propext; omega
        rw [this]

end Sys2Proof
end

