-- ==== Sys2Proof/Laws/Regs.lean ====
section
/-! SUPPORT. Registers: what a register and a field of it read after a write. -/

namespace Sys2Proof.Machine

/-- Registers of functions below 2^24 bytes of offset have keys of their own. -/
theorem regKey_inj {f g a b : Nat} (ha : a < 2 ^ 24) (hb : b < 2 ^ 24) (h : regKey f a = regKey g b) : f = g ∧ a = b := by
  unfold regKey at h
  constructor <;> omega

/-- What a register reads after a write of one. -/
theorem fnReg_setFnReg (s : State) (f g a b : Nat) (w : Word) (h : regKey g b = regKey f a → g = f ∧ b = a) :
    (s.setFnReg f a w).fnReg g b = if g = f ∧ b = a then w else s.fnReg g b := by
  unfold State.setFnReg State.fnReg
  simp only [AMap.get_set]
  by_cases hk : regKey g b = regKey f a
  · obtain ⟨rfl, rfl⟩ := h hk
    by_cases hw : w = regResetValue g b <;> simp [hw]
  · have : ¬ (g = f ∧ b = a) := by rintro ⟨rfl, rfl⟩; exact hk rfl
    simp [hk, this]

/-- A register of the module reads what was written to it. -/
@[simp] theorem reg_setReg_same (s : State) (a : Nat) (w : Word) : (s.setReg a w).reg a = w := by
  unfold State.setReg State.reg
  rw [fnReg_setFnReg _ _ _ _ _ _ (fun _ => ⟨rfl, rfl⟩)]
  simp

/-- Every other register of the module reads as before. -/
theorem reg_setReg_other (s : State) (a b : Nat) (w : Word) (h : b ≠ a) : (s.setReg a w).reg b = s.reg b := by
  unfold State.setReg State.reg
  rw [fnReg_setFnReg]
  · simp [h]
  · intro hk; unfold regKey at hk; exact ⟨rfl, by omega⟩

/-- A number with a field replaced, by its parts above, in and below the field. -/
theorem setBits_eq (v lo w x : Nat) :
    setBits v lo w x = 2 ^ lo * (2 ^ w * (v / 2 ^ lo / 2 ^ w) + x % 2 ^ w) + v % 2 ^ lo := by
  unfold setBits bitsOf
  have hq : v = 2 ^ lo * (v / 2 ^ lo) + v % 2 ^ lo := (Nat.div_add_mod v (2 ^ lo)).symm
  generalize v / 2 ^ lo = q at *
  generalize v % 2 ^ lo = r at *
  have hqm : q = 2 ^ w * (q / 2 ^ w) + q % 2 ^ w := (Nat.div_add_mod q (2 ^ w)).symm
  have h2 : v = 2 ^ lo * (2 ^ w * (q / 2 ^ w)) + 2 ^ lo * (q % 2 ^ w) + r := by
    rw [hq]; conv_lhs => rw [hqm]
    ring
  have h3 : q % 2 ^ w * 2 ^ lo = 2 ^ lo * (q % 2 ^ w) := Nat.mul_comm _ _
  have h4 : x % 2 ^ w * 2 ^ lo = 2 ^ lo * (x % 2 ^ w) := Nat.mul_comm _ _
  rw [h3, h4, Nat.mul_add, h2]
  omega

/-- A field of a number with the field replaced. -/
theorem bitsOf_setBits_same (v lo w x : Nat) : bitsOf (setBits v lo w x) lo w = x % 2 ^ w := by
  have hp : 0 < 2 ^ lo := Nat.pos_of_ne_zero (by simp)
  rw [setBits_eq, bitsOf, Nat.mul_add_div hp, Nat.div_eq_of_lt (Nat.mod_lt _ hp), Nat.add_zero, Nat.mul_add_mod,
    Nat.mod_mod]

/-- A field above the replaced one keeps its value. -/
theorem bitsOf_setBits_above (v lo w x lo' w' : Nat) (h : lo + w ≤ lo') :
    bitsOf (setBits v lo w x) lo' w' = bitsOf v lo' w' := by
  have hp : 0 < 2 ^ lo := Nat.pos_of_ne_zero (by simp)
  have hw : 0 < 2 ^ w := Nat.pos_of_ne_zero (by simp)
  have hs : 2 ^ lo' = 2 ^ lo * (2 ^ w * 2 ^ (lo' - lo - w)) := by
    rw [← Nat.pow_add, ← Nat.pow_add]; congr 1; omega
  unfold bitsOf
  rw [setBits_eq, hs, ← Nat.div_div_eq_div_mul, Nat.mul_add_div hp, Nat.div_eq_of_lt (Nat.mod_lt _ hp), Nat.add_zero,
    ← Nat.div_div_eq_div_mul, Nat.mul_add_div hw, Nat.div_eq_of_lt (Nat.mod_lt _ hw), Nat.add_zero,
    ← Nat.div_div_eq_div_mul, ← Nat.div_div_eq_div_mul]

/-- A field below a multiple of a power of two does not see it. -/
theorem bitsOf_mul_add (a r lo lo' w' : Nat) (h : lo' + w' ≤ lo) : bitsOf (2 ^ lo * a + r) lo' w' = bitsOf r lo' w' := by
  have hp : 0 < 2 ^ lo' := Nat.pos_of_ne_zero (by simp)
  have hs : 2 ^ lo = 2 ^ lo' * (2 ^ w' * 2 ^ (lo - lo' - w')) := by
    rw [← Nat.pow_add, ← Nat.pow_add]; congr 1; omega
  unfold bitsOf
  rw [hs, Nat.mul_assoc, Nat.mul_add_div hp, Nat.mul_assoc, Nat.mul_add_mod]

/-- A field below the replaced one keeps its value. -/
theorem bitsOf_setBits_below (v lo w x lo' w' : Nat) (h : lo' + w' ≤ lo) :
    bitsOf (setBits v lo w x) lo' w' = bitsOf v lo' w' := by
  rw [setBits_eq, bitsOf_mul_add _ _ _ _ _ h]
  conv_rhs => rw [← Nat.div_add_mod v (2 ^ lo), bitsOf_mul_add _ _ _ _ _ h]

/-- A number with a field replaced stays below a bound that both keep. -/
theorem setBits_lt (v lo w x n : Nat) (hv : v < 2 ^ n) (h : lo + w ≤ n) : setBits v lo w x < 2 ^ n := by
  have hp : 0 < 2 ^ lo := Nat.pos_of_ne_zero (by simp)
  have hw : 0 < 2 ^ w := Nat.pos_of_ne_zero (by simp)
  have hx : x % 2 ^ w < 2 ^ w := Nat.mod_lt _ hw
  have hr : v % 2 ^ lo < 2 ^ lo := Nat.mod_lt _ hp
  have hh : v / 2 ^ lo / 2 ^ w < 2 ^ (n - lo - w) := by
    rw [Nat.div_lt_iff_lt_mul hw, Nat.div_lt_iff_lt_mul hp, ← Nat.pow_add, ← Nat.pow_add]
    have : n - lo - w + w + lo = n := by omega
    rwa [this]
  rw [setBits_eq]
  have hsplit : 2 ^ n = 2 ^ lo * (2 ^ w * 2 ^ (n - lo - w)) := by
    rw [← Nat.pow_add, ← Nat.pow_add]; congr 1; omega
  rw [hsplit]
  have h5 : 2 ^ w * (v / 2 ^ lo / 2 ^ w) + x % 2 ^ w + 1 ≤ 2 ^ w * 2 ^ (n - lo - w) := by
    have := Nat.mul_le_mul_left (2 ^ w) (Nat.succ_le_of_lt hh)
    rw [Nat.mul_succ] at this
    omega
  have h6 := Nat.mul_le_mul_left (2 ^ lo) h5
  rw [Nat.mul_add, Nat.mul_one] at h6
  omega

/-- A field of a register reads what was written to it. -/
theorem field_setField_same (s : State) (a lo w v : Nat) (h : lo + w ≤ 32) :
    (s.setField a lo w v).field a lo w = v % 2 ^ w := by
  unfold State.setField State.setFnField State.field State.fnField
  have := reg_setReg_same s a (BitVec.ofNat 32 (setBits (s.fnReg 0 a).toNat lo w v))
  unfold State.setReg State.reg at this
  rw [this, BitVec.toNat_ofNat, Nat.mod_eq_of_lt (setBits_lt _ _ _ _ 32 (s.fnReg 0 a).isLt h), bitsOf_setBits_same]

/-- A field of the same register outside the written one reads as before. -/
theorem field_setField_apart (s : State) (a lo w v lo' w' : Nat) (h : lo + w ≤ 32) (ha : lo + w ≤ lo' ∨ lo' + w' ≤ lo) :
    (s.setField a lo w v).field a lo' w' = s.field a lo' w' := by
  unfold State.setField State.setFnField State.field State.fnField
  have := reg_setReg_same s a (BitVec.ofNat 32 (setBits (s.fnReg 0 a).toNat lo w v))
  unfold State.setReg State.reg at this
  rw [this, BitVec.toNat_ofNat, Nat.mod_eq_of_lt (setBits_lt _ _ _ _ 32 (s.fnReg 0 a).isLt h)]
  rcases ha with ha | ha
  · exact bitsOf_setBits_above _ _ _ _ _ _ ha
  · exact bitsOf_setBits_below _ _ _ _ _ _ ha

/-- Every other register reads as before a field was written. -/
theorem reg_setField_other (s : State) (a b lo w v : Nat) (h : b ≠ a) : (s.setField a lo w v).reg b = s.reg b :=
  reg_setReg_other s a b _ h

/-- A field of another register reads as before. -/
theorem field_setField_other (s : State) (a b lo w v lo' w' : Nat) (h : b ≠ a) :
    (s.setField a lo w v).field b lo' w' = s.field b lo' w' := by
  have := reg_setField_other s a b lo w v h
  unfold State.reg at this
  unfold State.field State.fnField
  rw [this]

/-- A field of a register that was written. -/
theorem field_setReg_same (s : State) (a lo w : Nat) (x : Word) : (s.setReg a x).field a lo w = bitsOf x.toNat lo w := by
  have := reg_setReg_same s a x
  unfold State.reg at this
  unfold State.field State.fnField
  rw [this]

/-- A field of another register than the one written. -/
theorem field_setReg_other (s : State) (a b lo w : Nat) (x : Word) (h : b ≠ a) :
    (s.setReg a x).field b lo w = s.field b lo w := by
  have := reg_setReg_other s a b x h
  unfold State.reg at this
  unfold State.field State.fnField
  rw [this]

/-- A counter after an addition. -/
theorem field_bump_same (s : State) (a lo w n : Nat) (h : lo + w ≤ 32) :
    (s.bump a lo w n).field a lo w = min (s.field a lo w + n) (2 ^ w - 1) := by
  have h1 := field_setField_same s a lo w (min (s.field a lo w + n) (2 ^ w - 1)) h
  have hp : 0 < 2 ^ w := Nat.pos_of_ne_zero (by simp)
  rw [Nat.mod_eq_of_lt (by omega)] at h1
  exact h1

/-- Every other register reads as before a counter moved. -/
theorem reg_bump_other (s : State) (a b lo w n : Nat) (h : b ≠ a) : (s.bump a lo w n).reg b = s.reg b :=
  reg_setReg_other s a b _ h

end Sys2Proof.Machine
end

