-- ==== Sys2Proof/Laws/State.lean ====
section
/-! SUPPORT. The state after each named update, field by field and by every reader of a keyed part. -/

namespace Sys2Proof.Machine

variable (s : State)

/-! ### setCluster -/

@[simp] theorem State.setCluster_pending (g : Nat) (x : Cluster) : (s.setCluster g x).pending = s.pending := rfl
@[simp] theorem State.setCluster_ms (g : Nat) (x : Cluster) : (s.setCluster g x).ms = s.ms := rfl
@[simp] theorem State.setCluster_up (g : Nat) (x : Cluster) : (s.setCluster g x).up = s.up := rfl
@[simp] theorem State.setCluster_freeCtr (g : Nat) (x : Cluster) : (s.setCluster g x).freeCtr = s.freeCtr := rfl
@[simp] theorem State.setCluster_sent (g : Nat) (x : Cluster) : (s.setCluster g x).sent = s.sent := rfl
@[simp] theorem State.setCluster_hostMem (g : Nat) (x : Cluster) : (s.setCluster g x).hostMem = s.hostMem := rfl
@[simp] theorem State.setCluster_regs (g : Nat) (x : Cluster) : (s.setCluster g x).regs = s.regs := rfl
@[simp] theorem State.setCluster_shadow (g : Nat) (x : Cluster) : (s.setCluster g x).shadow = s.shadow := rfl
@[simp] theorem State.setCluster_xunits (g : Nat) (x : Cluster) : (s.setCluster g x).xunits = s.xunits := rfl
@[simp] theorem State.setCluster_flights (g : Nat) (x : Cluster) : (s.setCluster g x).flights = s.flights := rfl
@[simp] theorem State.setCluster_strips (g : Nat) (x : Cluster) : (s.setCluster g x).strips = s.strips := rfl
@[simp] theorem State.setCluster_transit (g : Nat) (x : Cluster) : (s.setCluster g x).transit = s.transit := rfl
@[simp] theorem State.setCluster_chsMem (g : Nat) (x : Cluster) : (s.setCluster g x).chsMem = s.chsMem := rfl
@[simp] theorem State.setCluster_poisoned (g : Nat) (x : Cluster) : (s.setCluster g x).poisoned = s.poisoned := rfl
@[simp] theorem State.setCluster_symErr (g : Nat) (x : Cluster) : (s.setCluster g x).symErr = s.symErr := rfl
@[simp] theorem State.setCluster_dstacks (g : Nat) (x : Cluster) : (s.setCluster g x).dstacks = s.dstacks := rfl
@[simp] theorem State.setCluster_fns (g : Nat) (x : Cluster) : (s.setCluster g x).fns = s.fns := rfl
@[simp] theorem State.setCluster_numVfs (g : Nat) (x : Cluster) : (s.setCluster g x).numVfs = s.numVfs := rfl
@[simp] theorem State.setCluster_vfsGone (g : Nat) (x : Cluster) : (s.setCluster g x).vfsGone = s.vfsGone := rfl
@[simp] theorem State.setCluster_msOff (g : Nat) (x : Cluster) : (s.setCluster g x).msOff = s.msOff := rfl
@[simp] theorem State.setCluster_portReset (g : Nat) (x : Cluster) : (s.setCluster g x).portReset = s.portReset := rfl
@[simp] theorem State.setCluster_rings (g : Nat) (x : Cluster) : (s.setCluster g x).rings = s.rings := rfl
@[simp] theorem State.setCluster_msixOpen (g : Nat) (x : Cluster) : (s.setCluster g x).msixOpen = s.msixOpen := rfl
@[simp] theorem State.setCluster_msixPend (g : Nat) (x : Cluster) : (s.setCluster g x).msixPend = s.msixPend := rfl
@[simp] theorem State.setCluster_jobs (g : Nat) (x : Cluster) : (s.setCluster g x).jobs = s.jobs := rfl
@[simp] theorem State.setCluster_ports (g : Nat) (x : Cluster) : (s.setCluster g x).ports = s.ports := rfl
@[simp] theorem State.setCluster_engines (g : Nat) (x : Cluster) : (s.setCluster g x).engines = s.engines := rfl
@[simp] theorem State.setCluster_streams (g : Nat) (x : Cluster) : (s.setCluster g x).streams = s.streams := rfl
@[simp] theorem State.setCluster_opens (g : Nat) (x : Cluster) : (s.setCluster g x).opens = s.opens := rfl
@[simp] theorem State.setCluster_pair (g : Nat) (x : Cluster) : (s.setCluster g x).pair = s.pair := rfl
@[simp] theorem State.setCluster_power (g : Nat) (x : Cluster) : (s.setCluster g x).power = s.power := rfl
@[simp] theorem State.setCluster_clock (g : Nat) (x : Cluster) : (s.setCluster g x).clock = s.clock := rfl
@[simp] theorem State.setCluster_toll (g : Nat) (x : Cluster) : (s.setCluster g x).toll = s.toll := rfl
@[simp] theorem State.setCluster_bru (g : Nat) (x : Cluster) : (s.setCluster g x).bru = s.bru := rfl
@[simp] theorem State.setCluster_dies (g : Nat) (x : Cluster) : (s.setCluster g x).dies = s.dies := rfl
@[simp] theorem State.setCluster_outOf (g : Nat) (x : Cluster) : (s.setCluster g x).outOf = s.outOf := rfl
@[simp] theorem State.setCluster_ev (g : Nat) (x : Cluster) : (s.setCluster g x).ev = s.ev := rfl
@[simp] theorem State.setCluster_flash (g : Nat) (x : Cluster) : (s.setCluster g x).flash = s.flash := rfl
@[simp] theorem State.setCluster_man (g : Nat) (x : Cluster) : (s.setCluster g x).man = s.man := rfl
@[simp] theorem State.setCluster_way (g : Nat) (x : Cluster) : (s.setCluster g x).way = s.way := rfl
@[simp] theorem State.setCluster_mgmt (g : Nat) (x : Cluster) : (s.setCluster g x).mgmt = s.mgmt := rfl
@[simp] theorem State.setCluster_jtag (g : Nat) (x : Cluster) : (s.setCluster g x).jtag = s.jtag := rfl
@[simp] theorem State.setCluster_dbgFn (g : Nat) (x : Cluster) : (s.setCluster g x).dbgFn = s.dbgFn := rfl
@[simp] theorem State.setCluster_transitIn (g : Nat) (x : Cluster) : (s.setCluster g x).transitIn = s.transitIn := rfl
@[simp] theorem State.setCluster_pollDue (g : Nat) (x : Cluster) : (s.setCluster g x).pollDue = s.pollDue := rfl
@[simp] theorem State.setCluster_fabViews (g : Nat) (x : Cluster) : (s.setCluster g x).fabViews = s.fabViews := rfl
@[simp] theorem State.setCluster_dbgView (g : Nat) (x : Cluster) : (s.setCluster g x).dbgView = s.dbgView := rfl
@[simp] theorem State.setCluster_xunitAt (g : Nat) (x : Cluster) (i : Nat) : (s.setCluster g x).xunit i = s.xunit i := rfl
@[simp] theorem State.setCluster_stripAt (g : Nat) (x : Cluster) (i : Nat) : (s.setCluster g x).strip i = s.strip i := rfl
@[simp] theorem State.setCluster_stackAt (g : Nat) (x : Cluster) (i : Nat) : (s.setCluster g x).stack i = s.stack i := rfl
@[simp] theorem State.setCluster_fnAt (g : Nat) (x : Cluster) (i : Nat) : (s.setCluster g x).fn i = s.fn i := rfl
@[simp] theorem State.setCluster_ringAt (g : Nat) (x : Cluster) (i : Nat) : (s.setCluster g x).ring i = s.ring i := rfl
@[simp] theorem State.setCluster_jobAt (g : Nat) (x : Cluster) (i : Nat) : (s.setCluster g x).job i = s.job i := rfl
@[simp] theorem State.setCluster_portAt (g : Nat) (x : Cluster) (i : Nat) : (s.setCluster g x).port i = s.port i := rfl
@[simp] theorem State.setCluster_engineAt (g : Nat) (x : Cluster) (i : Nat) : (s.setCluster g x).engine i = s.engine i := rfl
@[simp] theorem State.setCluster_streamAt (g : Nat) (x : Cluster) (i : Nat) : (s.setCluster g x).stream i = s.stream i := rfl
@[simp] theorem State.setCluster_dieAt (g : Nat) (x : Cluster) (i : Nat) : (s.setCluster g x).die i = s.die i := rfl
@[simp] theorem State.setCluster_fnReg (g : Nat) (x : Cluster) (m b : Nat) : (s.setCluster g x).fnReg m b = s.fnReg m b := rfl
@[simp] theorem State.setCluster_reg (g : Nat) (x : Cluster) (b : Nat) : (s.setCluster g x).reg b = s.reg b := rfl
@[simp] theorem State.setCluster_fieldAt (g : Nat) (x : Cluster) (b l n : Nat) : (s.setCluster g x).field b l n = s.field b l n := rfl
@[simp] theorem State.setCluster_same (g : Nat) (x : Cluster) : (s.setCluster g x).cluster g = x := AMap.get_set_same _ _ _ _
theorem State.setCluster_other (g : Nat) (x : Cluster) (i : Nat) (h : i ≠ g) : (s.setCluster g x).cluster i = s.cluster i :=
  AMap.get_set_other _ _ _ _ _ h

/-! ### modCluster -/

@[simp] theorem State.modCluster_pending (g : Nat) (f : Cluster → Cluster) : (s.modCluster g f).pending = s.pending := rfl
@[simp] theorem State.modCluster_ms (g : Nat) (f : Cluster → Cluster) : (s.modCluster g f).ms = s.ms := rfl
@[simp] theorem State.modCluster_up (g : Nat) (f : Cluster → Cluster) : (s.modCluster g f).up = s.up := rfl
@[simp] theorem State.modCluster_freeCtr (g : Nat) (f : Cluster → Cluster) : (s.modCluster g f).freeCtr = s.freeCtr := rfl
@[simp] theorem State.modCluster_sent (g : Nat) (f : Cluster → Cluster) : (s.modCluster g f).sent = s.sent := rfl
@[simp] theorem State.modCluster_hostMem (g : Nat) (f : Cluster → Cluster) : (s.modCluster g f).hostMem = s.hostMem := rfl
@[simp] theorem State.modCluster_regs (g : Nat) (f : Cluster → Cluster) : (s.modCluster g f).regs = s.regs := rfl
@[simp] theorem State.modCluster_shadow (g : Nat) (f : Cluster → Cluster) : (s.modCluster g f).shadow = s.shadow := rfl
@[simp] theorem State.modCluster_xunits (g : Nat) (f : Cluster → Cluster) : (s.modCluster g f).xunits = s.xunits := rfl
@[simp] theorem State.modCluster_flights (g : Nat) (f : Cluster → Cluster) : (s.modCluster g f).flights = s.flights := rfl
@[simp] theorem State.modCluster_strips (g : Nat) (f : Cluster → Cluster) : (s.modCluster g f).strips = s.strips := rfl
@[simp] theorem State.modCluster_transit (g : Nat) (f : Cluster → Cluster) : (s.modCluster g f).transit = s.transit := rfl
@[simp] theorem State.modCluster_chsMem (g : Nat) (f : Cluster → Cluster) : (s.modCluster g f).chsMem = s.chsMem := rfl
@[simp] theorem State.modCluster_poisoned (g : Nat) (f : Cluster → Cluster) : (s.modCluster g f).poisoned = s.poisoned := rfl
@[simp] theorem State.modCluster_symErr (g : Nat) (f : Cluster → Cluster) : (s.modCluster g f).symErr = s.symErr := rfl
@[simp] theorem State.modCluster_dstacks (g : Nat) (f : Cluster → Cluster) : (s.modCluster g f).dstacks = s.dstacks := rfl
@[simp] theorem State.modCluster_fns (g : Nat) (f : Cluster → Cluster) : (s.modCluster g f).fns = s.fns := rfl
@[simp] theorem State.modCluster_numVfs (g : Nat) (f : Cluster → Cluster) : (s.modCluster g f).numVfs = s.numVfs := rfl
@[simp] theorem State.modCluster_vfsGone (g : Nat) (f : Cluster → Cluster) : (s.modCluster g f).vfsGone = s.vfsGone := rfl
@[simp] theorem State.modCluster_msOff (g : Nat) (f : Cluster → Cluster) : (s.modCluster g f).msOff = s.msOff := rfl
@[simp] theorem State.modCluster_portReset (g : Nat) (f : Cluster → Cluster) : (s.modCluster g f).portReset = s.portReset := rfl
@[simp] theorem State.modCluster_rings (g : Nat) (f : Cluster → Cluster) : (s.modCluster g f).rings = s.rings := rfl
@[simp] theorem State.modCluster_msixOpen (g : Nat) (f : Cluster → Cluster) : (s.modCluster g f).msixOpen = s.msixOpen := rfl
@[simp] theorem State.modCluster_msixPend (g : Nat) (f : Cluster → Cluster) : (s.modCluster g f).msixPend = s.msixPend := rfl
@[simp] theorem State.modCluster_jobs (g : Nat) (f : Cluster → Cluster) : (s.modCluster g f).jobs = s.jobs := rfl
@[simp] theorem State.modCluster_ports (g : Nat) (f : Cluster → Cluster) : (s.modCluster g f).ports = s.ports := rfl
@[simp] theorem State.modCluster_engines (g : Nat) (f : Cluster → Cluster) : (s.modCluster g f).engines = s.engines := rfl
@[simp] theorem State.modCluster_streams (g : Nat) (f : Cluster → Cluster) : (s.modCluster g f).streams = s.streams := rfl
@[simp] theorem State.modCluster_opens (g : Nat) (f : Cluster → Cluster) : (s.modCluster g f).opens = s.opens := rfl
@[simp] theorem State.modCluster_pair (g : Nat) (f : Cluster → Cluster) : (s.modCluster g f).pair = s.pair := rfl
@[simp] theorem State.modCluster_power (g : Nat) (f : Cluster → Cluster) : (s.modCluster g f).power = s.power := rfl
@[simp] theorem State.modCluster_clock (g : Nat) (f : Cluster → Cluster) : (s.modCluster g f).clock = s.clock := rfl
@[simp] theorem State.modCluster_toll (g : Nat) (f : Cluster → Cluster) : (s.modCluster g f).toll = s.toll := rfl
@[simp] theorem State.modCluster_bru (g : Nat) (f : Cluster → Cluster) : (s.modCluster g f).bru = s.bru := rfl
@[simp] theorem State.modCluster_dies (g : Nat) (f : Cluster → Cluster) : (s.modCluster g f).dies = s.dies := rfl
@[simp] theorem State.modCluster_outOf (g : Nat) (f : Cluster → Cluster) : (s.modCluster g f).outOf = s.outOf := rfl
@[simp] theorem State.modCluster_ev (g : Nat) (f : Cluster → Cluster) : (s.modCluster g f).ev = s.ev := rfl
@[simp] theorem State.modCluster_flash (g : Nat) (f : Cluster → Cluster) : (s.modCluster g f).flash = s.flash := rfl
@[simp] theorem State.modCluster_man (g : Nat) (f : Cluster → Cluster) : (s.modCluster g f).man = s.man := rfl
@[simp] theorem State.modCluster_way (g : Nat) (f : Cluster → Cluster) : (s.modCluster g f).way = s.way := rfl
@[simp] theorem State.modCluster_mgmt (g : Nat) (f : Cluster → Cluster) : (s.modCluster g f).mgmt = s.mgmt := rfl
@[simp] theorem State.modCluster_jtag (g : Nat) (f : Cluster → Cluster) : (s.modCluster g f).jtag = s.jtag := rfl
@[simp] theorem State.modCluster_dbgFn (g : Nat) (f : Cluster → Cluster) : (s.modCluster g f).dbgFn = s.dbgFn := rfl
@[simp] theorem State.modCluster_transitIn (g : Nat) (f : Cluster → Cluster) : (s.modCluster g f).transitIn = s.transitIn := rfl
@[simp] theorem State.modCluster_pollDue (g : Nat) (f : Cluster → Cluster) : (s.modCluster g f).pollDue = s.pollDue := rfl
@[simp] theorem State.modCluster_fabViews (g : Nat) (f : Cluster → Cluster) : (s.modCluster g f).fabViews = s.fabViews := rfl
@[simp] theorem State.modCluster_dbgView (g : Nat) (f : Cluster → Cluster) : (s.modCluster g f).dbgView = s.dbgView := rfl
@[simp] theorem State.modCluster_xunitAt (g : Nat) (f : Cluster → Cluster) (i : Nat) : (s.modCluster g f).xunit i = s.xunit i := rfl
@[simp] theorem State.modCluster_stripAt (g : Nat) (f : Cluster → Cluster) (i : Nat) : (s.modCluster g f).strip i = s.strip i := rfl
@[simp] theorem State.modCluster_stackAt (g : Nat) (f : Cluster → Cluster) (i : Nat) : (s.modCluster g f).stack i = s.stack i := rfl
@[simp] theorem State.modCluster_fnAt (g : Nat) (f : Cluster → Cluster) (i : Nat) : (s.modCluster g f).fn i = s.fn i := rfl
@[simp] theorem State.modCluster_ringAt (g : Nat) (f : Cluster → Cluster) (i : Nat) : (s.modCluster g f).ring i = s.ring i := rfl
@[simp] theorem State.modCluster_jobAt (g : Nat) (f : Cluster → Cluster) (i : Nat) : (s.modCluster g f).job i = s.job i := rfl
@[simp] theorem State.modCluster_portAt (g : Nat) (f : Cluster → Cluster) (i : Nat) : (s.modCluster g f).port i = s.port i := rfl
@[simp] theorem State.modCluster_engineAt (g : Nat) (f : Cluster → Cluster) (i : Nat) : (s.modCluster g f).engine i = s.engine i := rfl
@[simp] theorem State.modCluster_streamAt (g : Nat) (f : Cluster → Cluster) (i : Nat) : (s.modCluster g f).stream i = s.stream i := rfl
@[simp] theorem State.modCluster_dieAt (g : Nat) (f : Cluster → Cluster) (i : Nat) : (s.modCluster g f).die i = s.die i := rfl
@[simp] theorem State.modCluster_fnReg (g : Nat) (f : Cluster → Cluster) (m b : Nat) : (s.modCluster g f).fnReg m b = s.fnReg m b := rfl
@[simp] theorem State.modCluster_reg (g : Nat) (f : Cluster → Cluster) (b : Nat) : (s.modCluster g f).reg b = s.reg b := rfl
@[simp] theorem State.modCluster_fieldAt (g : Nat) (f : Cluster → Cluster) (b l n : Nat) : (s.modCluster g f).field b l n = s.field b l n := rfl

/-! ### setXunit -/

@[simp] theorem State.setXunit_pending (k : Nat) (x : XUnit) : (s.setXunit k x).pending = s.pending := rfl
@[simp] theorem State.setXunit_ms (k : Nat) (x : XUnit) : (s.setXunit k x).ms = s.ms := rfl
@[simp] theorem State.setXunit_up (k : Nat) (x : XUnit) : (s.setXunit k x).up = s.up := rfl
@[simp] theorem State.setXunit_freeCtr (k : Nat) (x : XUnit) : (s.setXunit k x).freeCtr = s.freeCtr := rfl
@[simp] theorem State.setXunit_sent (k : Nat) (x : XUnit) : (s.setXunit k x).sent = s.sent := rfl
@[simp] theorem State.setXunit_hostMem (k : Nat) (x : XUnit) : (s.setXunit k x).hostMem = s.hostMem := rfl
@[simp] theorem State.setXunit_regs (k : Nat) (x : XUnit) : (s.setXunit k x).regs = s.regs := rfl
@[simp] theorem State.setXunit_shadow (k : Nat) (x : XUnit) : (s.setXunit k x).shadow = s.shadow := rfl
@[simp] theorem State.setXunit_clusters (k : Nat) (x : XUnit) : (s.setXunit k x).clusters = s.clusters := rfl
@[simp] theorem State.setXunit_flights (k : Nat) (x : XUnit) : (s.setXunit k x).flights = s.flights := rfl
@[simp] theorem State.setXunit_strips (k : Nat) (x : XUnit) : (s.setXunit k x).strips = s.strips := rfl
@[simp] theorem State.setXunit_transit (k : Nat) (x : XUnit) : (s.setXunit k x).transit = s.transit := rfl
@[simp] theorem State.setXunit_chsMem (k : Nat) (x : XUnit) : (s.setXunit k x).chsMem = s.chsMem := rfl
@[simp] theorem State.setXunit_poisoned (k : Nat) (x : XUnit) : (s.setXunit k x).poisoned = s.poisoned := rfl
@[simp] theorem State.setXunit_symErr (k : Nat) (x : XUnit) : (s.setXunit k x).symErr = s.symErr := rfl
@[simp] theorem State.setXunit_dstacks (k : Nat) (x : XUnit) : (s.setXunit k x).dstacks = s.dstacks := rfl
@[simp] theorem State.setXunit_fns (k : Nat) (x : XUnit) : (s.setXunit k x).fns = s.fns := rfl
@[simp] theorem State.setXunit_numVfs (k : Nat) (x : XUnit) : (s.setXunit k x).numVfs = s.numVfs := rfl
@[simp] theorem State.setXunit_vfsGone (k : Nat) (x : XUnit) : (s.setXunit k x).vfsGone = s.vfsGone := rfl
@[simp] theorem State.setXunit_msOff (k : Nat) (x : XUnit) : (s.setXunit k x).msOff = s.msOff := rfl
@[simp] theorem State.setXunit_portReset (k : Nat) (x : XUnit) : (s.setXunit k x).portReset = s.portReset := rfl
@[simp] theorem State.setXunit_rings (k : Nat) (x : XUnit) : (s.setXunit k x).rings = s.rings := rfl
@[simp] theorem State.setXunit_msixOpen (k : Nat) (x : XUnit) : (s.setXunit k x).msixOpen = s.msixOpen := rfl
@[simp] theorem State.setXunit_msixPend (k : Nat) (x : XUnit) : (s.setXunit k x).msixPend = s.msixPend := rfl
@[simp] theorem State.setXunit_jobs (k : Nat) (x : XUnit) : (s.setXunit k x).jobs = s.jobs := rfl
@[simp] theorem State.setXunit_ports (k : Nat) (x : XUnit) : (s.setXunit k x).ports = s.ports := rfl
@[simp] theorem State.setXunit_engines (k : Nat) (x : XUnit) : (s.setXunit k x).engines = s.engines := rfl
@[simp] theorem State.setXunit_streams (k : Nat) (x : XUnit) : (s.setXunit k x).streams = s.streams := rfl
@[simp] theorem State.setXunit_opens (k : Nat) (x : XUnit) : (s.setXunit k x).opens = s.opens := rfl
@[simp] theorem State.setXunit_pair (k : Nat) (x : XUnit) : (s.setXunit k x).pair = s.pair := rfl
@[simp] theorem State.setXunit_power (k : Nat) (x : XUnit) : (s.setXunit k x).power = s.power := rfl
@[simp] theorem State.setXunit_clock (k : Nat) (x : XUnit) : (s.setXunit k x).clock = s.clock := rfl
@[simp] theorem State.setXunit_toll (k : Nat) (x : XUnit) : (s.setXunit k x).toll = s.toll := rfl
@[simp] theorem State.setXunit_bru (k : Nat) (x : XUnit) : (s.setXunit k x).bru = s.bru := rfl
@[simp] theorem State.setXunit_dies (k : Nat) (x : XUnit) : (s.setXunit k x).dies = s.dies := rfl
@[simp] theorem State.setXunit_outOf (k : Nat) (x : XUnit) : (s.setXunit k x).outOf = s.outOf := rfl
@[simp] theorem State.setXunit_ev (k : Nat) (x : XUnit) : (s.setXunit k x).ev = s.ev := rfl
@[simp] theorem State.setXunit_flash (k : Nat) (x : XUnit) : (s.setXunit k x).flash = s.flash := rfl
@[simp] theorem State.setXunit_man (k : Nat) (x : XUnit) : (s.setXunit k x).man = s.man := rfl
@[simp] theorem State.setXunit_way (k : Nat) (x : XUnit) : (s.setXunit k x).way = s.way := rfl
@[simp] theorem State.setXunit_mgmt (k : Nat) (x : XUnit) : (s.setXunit k x).mgmt = s.mgmt := rfl
@[simp] theorem State.setXunit_jtag (k : Nat) (x : XUnit) : (s.setXunit k x).jtag = s.jtag := rfl
@[simp] theorem State.setXunit_dbgFn (k : Nat) (x : XUnit) : (s.setXunit k x).dbgFn = s.dbgFn := rfl
@[simp] theorem State.setXunit_transitIn (k : Nat) (x : XUnit) : (s.setXunit k x).transitIn = s.transitIn := rfl
@[simp] theorem State.setXunit_pollDue (k : Nat) (x : XUnit) : (s.setXunit k x).pollDue = s.pollDue := rfl
@[simp] theorem State.setXunit_fabViews (k : Nat) (x : XUnit) : (s.setXunit k x).fabViews = s.fabViews := rfl
@[simp] theorem State.setXunit_dbgView (k : Nat) (x : XUnit) : (s.setXunit k x).dbgView = s.dbgView := rfl
@[simp] theorem State.setXunit_clusterAt (k : Nat) (x : XUnit) (i : Nat) : (s.setXunit k x).cluster i = s.cluster i := rfl
@[simp] theorem State.setXunit_stripAt (k : Nat) (x : XUnit) (i : Nat) : (s.setXunit k x).strip i = s.strip i := rfl
@[simp] theorem State.setXunit_stackAt (k : Nat) (x : XUnit) (i : Nat) : (s.setXunit k x).stack i = s.stack i := rfl
@[simp] theorem State.setXunit_fnAt (k : Nat) (x : XUnit) (i : Nat) : (s.setXunit k x).fn i = s.fn i := rfl
@[simp] theorem State.setXunit_ringAt (k : Nat) (x : XUnit) (i : Nat) : (s.setXunit k x).ring i = s.ring i := rfl
@[simp] theorem State.setXunit_jobAt (k : Nat) (x : XUnit) (i : Nat) : (s.setXunit k x).job i = s.job i := rfl
@[simp] theorem State.setXunit_portAt (k : Nat) (x : XUnit) (i : Nat) : (s.setXunit k x).port i = s.port i := rfl
@[simp] theorem State.setXunit_engineAt (k : Nat) (x : XUnit) (i : Nat) : (s.setXunit k x).engine i = s.engine i := rfl
@[simp] theorem State.setXunit_streamAt (k : Nat) (x : XUnit) (i : Nat) : (s.setXunit k x).stream i = s.stream i := rfl
@[simp] theorem State.setXunit_dieAt (k : Nat) (x : XUnit) (i : Nat) : (s.setXunit k x).die i = s.die i := rfl
@[simp] theorem State.setXunit_fnReg (k : Nat) (x : XUnit) (m b : Nat) : (s.setXunit k x).fnReg m b = s.fnReg m b := rfl
@[simp] theorem State.setXunit_reg (k : Nat) (x : XUnit) (b : Nat) : (s.setXunit k x).reg b = s.reg b := rfl
@[simp] theorem State.setXunit_fieldAt (k : Nat) (x : XUnit) (b l n : Nat) : (s.setXunit k x).field b l n = s.field b l n := rfl
@[simp] theorem State.setXunit_same (k : Nat) (x : XUnit) : (s.setXunit k x).xunit k = x := AMap.get_set_same _ _ _ _
theorem State.setXunit_other (k : Nat) (x : XUnit) (i : Nat) (h : i ≠ k) : (s.setXunit k x).xunit i = s.xunit i :=
  AMap.get_set_other _ _ _ _ _ h

/-! ### setStrip -/

@[simp] theorem State.setStrip_pending (k : Nat) (x : StreamSlot) : (s.setStrip k x).pending = s.pending := rfl
@[simp] theorem State.setStrip_ms (k : Nat) (x : StreamSlot) : (s.setStrip k x).ms = s.ms := rfl
@[simp] theorem State.setStrip_up (k : Nat) (x : StreamSlot) : (s.setStrip k x).up = s.up := rfl
@[simp] theorem State.setStrip_freeCtr (k : Nat) (x : StreamSlot) : (s.setStrip k x).freeCtr = s.freeCtr := rfl
@[simp] theorem State.setStrip_sent (k : Nat) (x : StreamSlot) : (s.setStrip k x).sent = s.sent := rfl
@[simp] theorem State.setStrip_hostMem (k : Nat) (x : StreamSlot) : (s.setStrip k x).hostMem = s.hostMem := rfl
@[simp] theorem State.setStrip_regs (k : Nat) (x : StreamSlot) : (s.setStrip k x).regs = s.regs := rfl
@[simp] theorem State.setStrip_shadow (k : Nat) (x : StreamSlot) : (s.setStrip k x).shadow = s.shadow := rfl
@[simp] theorem State.setStrip_clusters (k : Nat) (x : StreamSlot) : (s.setStrip k x).clusters = s.clusters := rfl
@[simp] theorem State.setStrip_xunits (k : Nat) (x : StreamSlot) : (s.setStrip k x).xunits = s.xunits := rfl
@[simp] theorem State.setStrip_flights (k : Nat) (x : StreamSlot) : (s.setStrip k x).flights = s.flights := rfl
@[simp] theorem State.setStrip_transit (k : Nat) (x : StreamSlot) : (s.setStrip k x).transit = s.transit := rfl
@[simp] theorem State.setStrip_chsMem (k : Nat) (x : StreamSlot) : (s.setStrip k x).chsMem = s.chsMem := rfl
@[simp] theorem State.setStrip_poisoned (k : Nat) (x : StreamSlot) : (s.setStrip k x).poisoned = s.poisoned := rfl
@[simp] theorem State.setStrip_symErr (k : Nat) (x : StreamSlot) : (s.setStrip k x).symErr = s.symErr := rfl
@[simp] theorem State.setStrip_dstacks (k : Nat) (x : StreamSlot) : (s.setStrip k x).dstacks = s.dstacks := rfl
@[simp] theorem State.setStrip_fns (k : Nat) (x : StreamSlot) : (s.setStrip k x).fns = s.fns := rfl
@[simp] theorem State.setStrip_numVfs (k : Nat) (x : StreamSlot) : (s.setStrip k x).numVfs = s.numVfs := rfl
@[simp] theorem State.setStrip_vfsGone (k : Nat) (x : StreamSlot) : (s.setStrip k x).vfsGone = s.vfsGone := rfl
@[simp] theorem State.setStrip_msOff (k : Nat) (x : StreamSlot) : (s.setStrip k x).msOff = s.msOff := rfl
@[simp] theorem State.setStrip_portReset (k : Nat) (x : StreamSlot) : (s.setStrip k x).portReset = s.portReset := rfl
@[simp] theorem State.setStrip_rings (k : Nat) (x : StreamSlot) : (s.setStrip k x).rings = s.rings := rfl
@[simp] theorem State.setStrip_msixOpen (k : Nat) (x : StreamSlot) : (s.setStrip k x).msixOpen = s.msixOpen := rfl
@[simp] theorem State.setStrip_msixPend (k : Nat) (x : StreamSlot) : (s.setStrip k x).msixPend = s.msixPend := rfl
@[simp] theorem State.setStrip_jobs (k : Nat) (x : StreamSlot) : (s.setStrip k x).jobs = s.jobs := rfl
@[simp] theorem State.setStrip_ports (k : Nat) (x : StreamSlot) : (s.setStrip k x).ports = s.ports := rfl
@[simp] theorem State.setStrip_engines (k : Nat) (x : StreamSlot) : (s.setStrip k x).engines = s.engines := rfl
@[simp] theorem State.setStrip_streams (k : Nat) (x : StreamSlot) : (s.setStrip k x).streams = s.streams := rfl
@[simp] theorem State.setStrip_opens (k : Nat) (x : StreamSlot) : (s.setStrip k x).opens = s.opens := rfl
@[simp] theorem State.setStrip_pair (k : Nat) (x : StreamSlot) : (s.setStrip k x).pair = s.pair := rfl
@[simp] theorem State.setStrip_power (k : Nat) (x : StreamSlot) : (s.setStrip k x).power = s.power := rfl
@[simp] theorem State.setStrip_clock (k : Nat) (x : StreamSlot) : (s.setStrip k x).clock = s.clock := rfl
@[simp] theorem State.setStrip_toll (k : Nat) (x : StreamSlot) : (s.setStrip k x).toll = s.toll := rfl
@[simp] theorem State.setStrip_bru (k : Nat) (x : StreamSlot) : (s.setStrip k x).bru = s.bru := rfl
@[simp] theorem State.setStrip_dies (k : Nat) (x : StreamSlot) : (s.setStrip k x).dies = s.dies := rfl
@[simp] theorem State.setStrip_outOf (k : Nat) (x : StreamSlot) : (s.setStrip k x).outOf = s.outOf := rfl
@[simp] theorem State.setStrip_ev (k : Nat) (x : StreamSlot) : (s.setStrip k x).ev = s.ev := rfl
@[simp] theorem State.setStrip_flash (k : Nat) (x : StreamSlot) : (s.setStrip k x).flash = s.flash := rfl
@[simp] theorem State.setStrip_man (k : Nat) (x : StreamSlot) : (s.setStrip k x).man = s.man := rfl
@[simp] theorem State.setStrip_way (k : Nat) (x : StreamSlot) : (s.setStrip k x).way = s.way := rfl
@[simp] theorem State.setStrip_mgmt (k : Nat) (x : StreamSlot) : (s.setStrip k x).mgmt = s.mgmt := rfl
@[simp] theorem State.setStrip_jtag (k : Nat) (x : StreamSlot) : (s.setStrip k x).jtag = s.jtag := rfl
@[simp] theorem State.setStrip_dbgFn (k : Nat) (x : StreamSlot) : (s.setStrip k x).dbgFn = s.dbgFn := rfl
@[simp] theorem State.setStrip_transitIn (k : Nat) (x : StreamSlot) : (s.setStrip k x).transitIn = s.transitIn := rfl
@[simp] theorem State.setStrip_pollDue (k : Nat) (x : StreamSlot) : (s.setStrip k x).pollDue = s.pollDue := rfl
@[simp] theorem State.setStrip_fabViews (k : Nat) (x : StreamSlot) : (s.setStrip k x).fabViews = s.fabViews := rfl
@[simp] theorem State.setStrip_dbgView (k : Nat) (x : StreamSlot) : (s.setStrip k x).dbgView = s.dbgView := rfl
@[simp] theorem State.setStrip_clusterAt (k : Nat) (x : StreamSlot) (i : Nat) : (s.setStrip k x).cluster i = s.cluster i := rfl
@[simp] theorem State.setStrip_xunitAt (k : Nat) (x : StreamSlot) (i : Nat) : (s.setStrip k x).xunit i = s.xunit i := rfl
@[simp] theorem State.setStrip_stackAt (k : Nat) (x : StreamSlot) (i : Nat) : (s.setStrip k x).stack i = s.stack i := rfl
@[simp] theorem State.setStrip_fnAt (k : Nat) (x : StreamSlot) (i : Nat) : (s.setStrip k x).fn i = s.fn i := rfl
@[simp] theorem State.setStrip_ringAt (k : Nat) (x : StreamSlot) (i : Nat) : (s.setStrip k x).ring i = s.ring i := rfl
@[simp] theorem State.setStrip_jobAt (k : Nat) (x : StreamSlot) (i : Nat) : (s.setStrip k x).job i = s.job i := rfl
@[simp] theorem State.setStrip_portAt (k : Nat) (x : StreamSlot) (i : Nat) : (s.setStrip k x).port i = s.port i := rfl
@[simp] theorem State.setStrip_engineAt (k : Nat) (x : StreamSlot) (i : Nat) : (s.setStrip k x).engine i = s.engine i := rfl
@[simp] theorem State.setStrip_streamAt (k : Nat) (x : StreamSlot) (i : Nat) : (s.setStrip k x).stream i = s.stream i := rfl
@[simp] theorem State.setStrip_dieAt (k : Nat) (x : StreamSlot) (i : Nat) : (s.setStrip k x).die i = s.die i := rfl
@[simp] theorem State.setStrip_fnReg (k : Nat) (x : StreamSlot) (m b : Nat) : (s.setStrip k x).fnReg m b = s.fnReg m b := rfl
@[simp] theorem State.setStrip_reg (k : Nat) (x : StreamSlot) (b : Nat) : (s.setStrip k x).reg b = s.reg b := rfl
@[simp] theorem State.setStrip_fieldAt (k : Nat) (x : StreamSlot) (b l n : Nat) : (s.setStrip k x).field b l n = s.field b l n := rfl
@[simp] theorem State.setStrip_same (k : Nat) (x : StreamSlot) : (s.setStrip k x).strip k = x := AMap.get_set_same _ _ _ _
theorem State.setStrip_other (k : Nat) (x : StreamSlot) (i : Nat) (h : i ≠ k) : (s.setStrip k x).strip i = s.strip i :=
  AMap.get_set_other _ _ _ _ _ h

/-! ### setStack -/

@[simp] theorem State.setStack_pending (k : Nat) (x : Stack) : (s.setStack k x).pending = s.pending := rfl
@[simp] theorem State.setStack_ms (k : Nat) (x : Stack) : (s.setStack k x).ms = s.ms := rfl
@[simp] theorem State.setStack_up (k : Nat) (x : Stack) : (s.setStack k x).up = s.up := rfl
@[simp] theorem State.setStack_freeCtr (k : Nat) (x : Stack) : (s.setStack k x).freeCtr = s.freeCtr := rfl
@[simp] theorem State.setStack_sent (k : Nat) (x : Stack) : (s.setStack k x).sent = s.sent := rfl
@[simp] theorem State.setStack_hostMem (k : Nat) (x : Stack) : (s.setStack k x).hostMem = s.hostMem := rfl
@[simp] theorem State.setStack_regs (k : Nat) (x : Stack) : (s.setStack k x).regs = s.regs := rfl
@[simp] theorem State.setStack_shadow (k : Nat) (x : Stack) : (s.setStack k x).shadow = s.shadow := rfl
@[simp] theorem State.setStack_clusters (k : Nat) (x : Stack) : (s.setStack k x).clusters = s.clusters := rfl
@[simp] theorem State.setStack_xunits (k : Nat) (x : Stack) : (s.setStack k x).xunits = s.xunits := rfl
@[simp] theorem State.setStack_flights (k : Nat) (x : Stack) : (s.setStack k x).flights = s.flights := rfl
@[simp] theorem State.setStack_strips (k : Nat) (x : Stack) : (s.setStack k x).strips = s.strips := rfl
@[simp] theorem State.setStack_transit (k : Nat) (x : Stack) : (s.setStack k x).transit = s.transit := rfl
@[simp] theorem State.setStack_chsMem (k : Nat) (x : Stack) : (s.setStack k x).chsMem = s.chsMem := rfl
@[simp] theorem State.setStack_poisoned (k : Nat) (x : Stack) : (s.setStack k x).poisoned = s.poisoned := rfl
@[simp] theorem State.setStack_symErr (k : Nat) (x : Stack) : (s.setStack k x).symErr = s.symErr := rfl
@[simp] theorem State.setStack_fns (k : Nat) (x : Stack) : (s.setStack k x).fns = s.fns := rfl
@[simp] theorem State.setStack_numVfs (k : Nat) (x : Stack) : (s.setStack k x).numVfs = s.numVfs := rfl
@[simp] theorem State.setStack_vfsGone (k : Nat) (x : Stack) : (s.setStack k x).vfsGone = s.vfsGone := rfl
@[simp] theorem State.setStack_msOff (k : Nat) (x : Stack) : (s.setStack k x).msOff = s.msOff := rfl
@[simp] theorem State.setStack_portReset (k : Nat) (x : Stack) : (s.setStack k x).portReset = s.portReset := rfl
@[simp] theorem State.setStack_rings (k : Nat) (x : Stack) : (s.setStack k x).rings = s.rings := rfl
@[simp] theorem State.setStack_msixOpen (k : Nat) (x : Stack) : (s.setStack k x).msixOpen = s.msixOpen := rfl
@[simp] theorem State.setStack_msixPend (k : Nat) (x : Stack) : (s.setStack k x).msixPend = s.msixPend := rfl
@[simp] theorem State.setStack_jobs (k : Nat) (x : Stack) : (s.setStack k x).jobs = s.jobs := rfl
@[simp] theorem State.setStack_ports (k : Nat) (x : Stack) : (s.setStack k x).ports = s.ports := rfl
@[simp] theorem State.setStack_engines (k : Nat) (x : Stack) : (s.setStack k x).engines = s.engines := rfl
@[simp] theorem State.setStack_streams (k : Nat) (x : Stack) : (s.setStack k x).streams = s.streams := rfl
@[simp] theorem State.setStack_opens (k : Nat) (x : Stack) : (s.setStack k x).opens = s.opens := rfl
@[simp] theorem State.setStack_pair (k : Nat) (x : Stack) : (s.setStack k x).pair = s.pair := rfl
@[simp] theorem State.setStack_power (k : Nat) (x : Stack) : (s.setStack k x).power = s.power := rfl
@[simp] theorem State.setStack_clock (k : Nat) (x : Stack) : (s.setStack k x).clock = s.clock := rfl
@[simp] theorem State.setStack_toll (k : Nat) (x : Stack) : (s.setStack k x).toll = s.toll := rfl
@[simp] theorem State.setStack_bru (k : Nat) (x : Stack) : (s.setStack k x).bru = s.bru := rfl
@[simp] theorem State.setStack_dies (k : Nat) (x : Stack) : (s.setStack k x).dies = s.dies := rfl
@[simp] theorem State.setStack_outOf (k : Nat) (x : Stack) : (s.setStack k x).outOf = s.outOf := rfl
@[simp] theorem State.setStack_ev (k : Nat) (x : Stack) : (s.setStack k x).ev = s.ev := rfl
@[simp] theorem State.setStack_flash (k : Nat) (x : Stack) : (s.setStack k x).flash = s.flash := rfl
@[simp] theorem State.setStack_man (k : Nat) (x : Stack) : (s.setStack k x).man = s.man := rfl
@[simp] theorem State.setStack_way (k : Nat) (x : Stack) : (s.setStack k x).way = s.way := rfl
@[simp] theorem State.setStack_mgmt (k : Nat) (x : Stack) : (s.setStack k x).mgmt = s.mgmt := rfl
@[simp] theorem State.setStack_jtag (k : Nat) (x : Stack) : (s.setStack k x).jtag = s.jtag := rfl
@[simp] theorem State.setStack_dbgFn (k : Nat) (x : Stack) : (s.setStack k x).dbgFn = s.dbgFn := rfl
@[simp] theorem State.setStack_transitIn (k : Nat) (x : Stack) : (s.setStack k x).transitIn = s.transitIn := rfl
@[simp] theorem State.setStack_pollDue (k : Nat) (x : Stack) : (s.setStack k x).pollDue = s.pollDue := rfl
@[simp] theorem State.setStack_fabViews (k : Nat) (x : Stack) : (s.setStack k x).fabViews = s.fabViews := rfl
@[simp] theorem State.setStack_dbgView (k : Nat) (x : Stack) : (s.setStack k x).dbgView = s.dbgView := rfl
@[simp] theorem State.setStack_clusterAt (k : Nat) (x : Stack) (i : Nat) : (s.setStack k x).cluster i = s.cluster i := rfl
@[simp] theorem State.setStack_xunitAt (k : Nat) (x : Stack) (i : Nat) : (s.setStack k x).xunit i = s.xunit i := rfl
@[simp] theorem State.setStack_stripAt (k : Nat) (x : Stack) (i : Nat) : (s.setStack k x).strip i = s.strip i := rfl
@[simp] theorem State.setStack_fnAt (k : Nat) (x : Stack) (i : Nat) : (s.setStack k x).fn i = s.fn i := rfl
@[simp] theorem State.setStack_ringAt (k : Nat) (x : Stack) (i : Nat) : (s.setStack k x).ring i = s.ring i := rfl
@[simp] theorem State.setStack_jobAt (k : Nat) (x : Stack) (i : Nat) : (s.setStack k x).job i = s.job i := rfl
@[simp] theorem State.setStack_portAt (k : Nat) (x : Stack) (i : Nat) : (s.setStack k x).port i = s.port i := rfl
@[simp] theorem State.setStack_engineAt (k : Nat) (x : Stack) (i : Nat) : (s.setStack k x).engine i = s.engine i := rfl
@[simp] theorem State.setStack_streamAt (k : Nat) (x : Stack) (i : Nat) : (s.setStack k x).stream i = s.stream i := rfl
@[simp] theorem State.setStack_dieAt (k : Nat) (x : Stack) (i : Nat) : (s.setStack k x).die i = s.die i := rfl
@[simp] theorem State.setStack_fnReg (k : Nat) (x : Stack) (m b : Nat) : (s.setStack k x).fnReg m b = s.fnReg m b := rfl
@[simp] theorem State.setStack_reg (k : Nat) (x : Stack) (b : Nat) : (s.setStack k x).reg b = s.reg b := rfl
@[simp] theorem State.setStack_fieldAt (k : Nat) (x : Stack) (b l n : Nat) : (s.setStack k x).field b l n = s.field b l n := rfl
@[simp] theorem State.setStack_same (k : Nat) (x : Stack) : (s.setStack k x).stack k = x := AMap.get_set_same _ _ _ _
theorem State.setStack_other (k : Nat) (x : Stack) (i : Nat) (h : i ≠ k) : (s.setStack k x).stack i = s.stack i :=
  AMap.get_set_other _ _ _ _ _ h

/-! ### setFn -/

@[simp] theorem State.setFn_pending (k : Nat) (x : FnState) : (s.setFn k x).pending = s.pending := rfl
@[simp] theorem State.setFn_ms (k : Nat) (x : FnState) : (s.setFn k x).ms = s.ms := rfl
@[simp] theorem State.setFn_up (k : Nat) (x : FnState) : (s.setFn k x).up = s.up := rfl
@[simp] theorem State.setFn_freeCtr (k : Nat) (x : FnState) : (s.setFn k x).freeCtr = s.freeCtr := rfl
@[simp] theorem State.setFn_sent (k : Nat) (x : FnState) : (s.setFn k x).sent = s.sent := rfl
@[simp] theorem State.setFn_hostMem (k : Nat) (x : FnState) : (s.setFn k x).hostMem = s.hostMem := rfl
@[simp] theorem State.setFn_regs (k : Nat) (x : FnState) : (s.setFn k x).regs = s.regs := rfl
@[simp] theorem State.setFn_shadow (k : Nat) (x : FnState) : (s.setFn k x).shadow = s.shadow := rfl
@[simp] theorem State.setFn_clusters (k : Nat) (x : FnState) : (s.setFn k x).clusters = s.clusters := rfl
@[simp] theorem State.setFn_xunits (k : Nat) (x : FnState) : (s.setFn k x).xunits = s.xunits := rfl
@[simp] theorem State.setFn_flights (k : Nat) (x : FnState) : (s.setFn k x).flights = s.flights := rfl
@[simp] theorem State.setFn_strips (k : Nat) (x : FnState) : (s.setFn k x).strips = s.strips := rfl
@[simp] theorem State.setFn_transit (k : Nat) (x : FnState) : (s.setFn k x).transit = s.transit := rfl
@[simp] theorem State.setFn_chsMem (k : Nat) (x : FnState) : (s.setFn k x).chsMem = s.chsMem := rfl
@[simp] theorem State.setFn_poisoned (k : Nat) (x : FnState) : (s.setFn k x).poisoned = s.poisoned := rfl
@[simp] theorem State.setFn_symErr (k : Nat) (x : FnState) : (s.setFn k x).symErr = s.symErr := rfl
@[simp] theorem State.setFn_dstacks (k : Nat) (x : FnState) : (s.setFn k x).dstacks = s.dstacks := rfl
@[simp] theorem State.setFn_numVfs (k : Nat) (x : FnState) : (s.setFn k x).numVfs = s.numVfs := rfl
@[simp] theorem State.setFn_vfsGone (k : Nat) (x : FnState) : (s.setFn k x).vfsGone = s.vfsGone := rfl
@[simp] theorem State.setFn_msOff (k : Nat) (x : FnState) : (s.setFn k x).msOff = s.msOff := rfl
@[simp] theorem State.setFn_portReset (k : Nat) (x : FnState) : (s.setFn k x).portReset = s.portReset := rfl
@[simp] theorem State.setFn_rings (k : Nat) (x : FnState) : (s.setFn k x).rings = s.rings := rfl
@[simp] theorem State.setFn_msixOpen (k : Nat) (x : FnState) : (s.setFn k x).msixOpen = s.msixOpen := rfl
@[simp] theorem State.setFn_msixPend (k : Nat) (x : FnState) : (s.setFn k x).msixPend = s.msixPend := rfl
@[simp] theorem State.setFn_jobs (k : Nat) (x : FnState) : (s.setFn k x).jobs = s.jobs := rfl
@[simp] theorem State.setFn_ports (k : Nat) (x : FnState) : (s.setFn k x).ports = s.ports := rfl
@[simp] theorem State.setFn_engines (k : Nat) (x : FnState) : (s.setFn k x).engines = s.engines := rfl
@[simp] theorem State.setFn_streams (k : Nat) (x : FnState) : (s.setFn k x).streams = s.streams := rfl
@[simp] theorem State.setFn_opens (k : Nat) (x : FnState) : (s.setFn k x).opens = s.opens := rfl
@[simp] theorem State.setFn_pair (k : Nat) (x : FnState) : (s.setFn k x).pair = s.pair := rfl
@[simp] theorem State.setFn_power (k : Nat) (x : FnState) : (s.setFn k x).power = s.power := rfl
@[simp] theorem State.setFn_clock (k : Nat) (x : FnState) : (s.setFn k x).clock = s.clock := rfl
@[simp] theorem State.setFn_toll (k : Nat) (x : FnState) : (s.setFn k x).toll = s.toll := rfl
@[simp] theorem State.setFn_bru (k : Nat) (x : FnState) : (s.setFn k x).bru = s.bru := rfl
@[simp] theorem State.setFn_dies (k : Nat) (x : FnState) : (s.setFn k x).dies = s.dies := rfl
@[simp] theorem State.setFn_outOf (k : Nat) (x : FnState) : (s.setFn k x).outOf = s.outOf := rfl
@[simp] theorem State.setFn_ev (k : Nat) (x : FnState) : (s.setFn k x).ev = s.ev := rfl
@[simp] theorem State.setFn_flash (k : Nat) (x : FnState) : (s.setFn k x).flash = s.flash := rfl
@[simp] theorem State.setFn_man (k : Nat) (x : FnState) : (s.setFn k x).man = s.man := rfl
@[simp] theorem State.setFn_way (k : Nat) (x : FnState) : (s.setFn k x).way = s.way := rfl
@[simp] theorem State.setFn_mgmt (k : Nat) (x : FnState) : (s.setFn k x).mgmt = s.mgmt := rfl
@[simp] theorem State.setFn_jtag (k : Nat) (x : FnState) : (s.setFn k x).jtag = s.jtag := rfl
@[simp] theorem State.setFn_dbgFn (k : Nat) (x : FnState) : (s.setFn k x).dbgFn = s.dbgFn := rfl
@[simp] theorem State.setFn_transitIn (k : Nat) (x : FnState) : (s.setFn k x).transitIn = s.transitIn := rfl
@[simp] theorem State.setFn_pollDue (k : Nat) (x : FnState) : (s.setFn k x).pollDue = s.pollDue := rfl
@[simp] theorem State.setFn_fabViews (k : Nat) (x : FnState) : (s.setFn k x).fabViews = s.fabViews := rfl
@[simp] theorem State.setFn_dbgView (k : Nat) (x : FnState) : (s.setFn k x).dbgView = s.dbgView := rfl
@[simp] theorem State.setFn_clusterAt (k : Nat) (x : FnState) (i : Nat) : (s.setFn k x).cluster i = s.cluster i := rfl
@[simp] theorem State.setFn_xunitAt (k : Nat) (x : FnState) (i : Nat) : (s.setFn k x).xunit i = s.xunit i := rfl
@[simp] theorem State.setFn_stripAt (k : Nat) (x : FnState) (i : Nat) : (s.setFn k x).strip i = s.strip i := rfl
@[simp] theorem State.setFn_stackAt (k : Nat) (x : FnState) (i : Nat) : (s.setFn k x).stack i = s.stack i := rfl
@[simp] theorem State.setFn_ringAt (k : Nat) (x : FnState) (i : Nat) : (s.setFn k x).ring i = s.ring i := rfl
@[simp] theorem State.setFn_jobAt (k : Nat) (x : FnState) (i : Nat) : (s.setFn k x).job i = s.job i := rfl
@[simp] theorem State.setFn_portAt (k : Nat) (x : FnState) (i : Nat) : (s.setFn k x).port i = s.port i := rfl
@[simp] theorem State.setFn_engineAt (k : Nat) (x : FnState) (i : Nat) : (s.setFn k x).engine i = s.engine i := rfl
@[simp] theorem State.setFn_streamAt (k : Nat) (x : FnState) (i : Nat) : (s.setFn k x).stream i = s.stream i := rfl
@[simp] theorem State.setFn_dieAt (k : Nat) (x : FnState) (i : Nat) : (s.setFn k x).die i = s.die i := rfl
@[simp] theorem State.setFn_fnReg (k : Nat) (x : FnState) (m b : Nat) : (s.setFn k x).fnReg m b = s.fnReg m b := rfl
@[simp] theorem State.setFn_reg (k : Nat) (x : FnState) (b : Nat) : (s.setFn k x).reg b = s.reg b := rfl
@[simp] theorem State.setFn_fieldAt (k : Nat) (x : FnState) (b l n : Nat) : (s.setFn k x).field b l n = s.field b l n := rfl
@[simp] theorem State.setFn_same (k : Nat) (x : FnState) : (s.setFn k x).fn k = x := AMap.get_set_same _ _ _ _
theorem State.setFn_other (k : Nat) (x : FnState) (i : Nat) (h : i ≠ k) : (s.setFn k x).fn i = s.fn i :=
  AMap.get_set_other _ _ _ _ _ h

/-! ### setRing -/

@[simp] theorem State.setRing_pending (k : Nat) (x : Ring) : (s.setRing k x).pending = s.pending := rfl
@[simp] theorem State.setRing_ms (k : Nat) (x : Ring) : (s.setRing k x).ms = s.ms := rfl
@[simp] theorem State.setRing_up (k : Nat) (x : Ring) : (s.setRing k x).up = s.up := rfl
@[simp] theorem State.setRing_freeCtr (k : Nat) (x : Ring) : (s.setRing k x).freeCtr = s.freeCtr := rfl
@[simp] theorem State.setRing_sent (k : Nat) (x : Ring) : (s.setRing k x).sent = s.sent := rfl
@[simp] theorem State.setRing_hostMem (k : Nat) (x : Ring) : (s.setRing k x).hostMem = s.hostMem := rfl
@[simp] theorem State.setRing_regs (k : Nat) (x : Ring) : (s.setRing k x).regs = s.regs := rfl
@[simp] theorem State.setRing_shadow (k : Nat) (x : Ring) : (s.setRing k x).shadow = s.shadow := rfl
@[simp] theorem State.setRing_clusters (k : Nat) (x : Ring) : (s.setRing k x).clusters = s.clusters := rfl
@[simp] theorem State.setRing_xunits (k : Nat) (x : Ring) : (s.setRing k x).xunits = s.xunits := rfl
@[simp] theorem State.setRing_flights (k : Nat) (x : Ring) : (s.setRing k x).flights = s.flights := rfl
@[simp] theorem State.setRing_strips (k : Nat) (x : Ring) : (s.setRing k x).strips = s.strips := rfl
@[simp] theorem State.setRing_transit (k : Nat) (x : Ring) : (s.setRing k x).transit = s.transit := rfl
@[simp] theorem State.setRing_chsMem (k : Nat) (x : Ring) : (s.setRing k x).chsMem = s.chsMem := rfl
@[simp] theorem State.setRing_poisoned (k : Nat) (x : Ring) : (s.setRing k x).poisoned = s.poisoned := rfl
@[simp] theorem State.setRing_symErr (k : Nat) (x : Ring) : (s.setRing k x).symErr = s.symErr := rfl
@[simp] theorem State.setRing_dstacks (k : Nat) (x : Ring) : (s.setRing k x).dstacks = s.dstacks := rfl
@[simp] theorem State.setRing_fns (k : Nat) (x : Ring) : (s.setRing k x).fns = s.fns := rfl
@[simp] theorem State.setRing_numVfs (k : Nat) (x : Ring) : (s.setRing k x).numVfs = s.numVfs := rfl
@[simp] theorem State.setRing_vfsGone (k : Nat) (x : Ring) : (s.setRing k x).vfsGone = s.vfsGone := rfl
@[simp] theorem State.setRing_msOff (k : Nat) (x : Ring) : (s.setRing k x).msOff = s.msOff := rfl
@[simp] theorem State.setRing_portReset (k : Nat) (x : Ring) : (s.setRing k x).portReset = s.portReset := rfl
@[simp] theorem State.setRing_msixOpen (k : Nat) (x : Ring) : (s.setRing k x).msixOpen = s.msixOpen := rfl
@[simp] theorem State.setRing_msixPend (k : Nat) (x : Ring) : (s.setRing k x).msixPend = s.msixPend := rfl
@[simp] theorem State.setRing_jobs (k : Nat) (x : Ring) : (s.setRing k x).jobs = s.jobs := rfl
@[simp] theorem State.setRing_ports (k : Nat) (x : Ring) : (s.setRing k x).ports = s.ports := rfl
@[simp] theorem State.setRing_engines (k : Nat) (x : Ring) : (s.setRing k x).engines = s.engines := rfl
@[simp] theorem State.setRing_streams (k : Nat) (x : Ring) : (s.setRing k x).streams = s.streams := rfl
@[simp] theorem State.setRing_opens (k : Nat) (x : Ring) : (s.setRing k x).opens = s.opens := rfl
@[simp] theorem State.setRing_pair (k : Nat) (x : Ring) : (s.setRing k x).pair = s.pair := rfl
@[simp] theorem State.setRing_power (k : Nat) (x : Ring) : (s.setRing k x).power = s.power := rfl
@[simp] theorem State.setRing_clock (k : Nat) (x : Ring) : (s.setRing k x).clock = s.clock := rfl
@[simp] theorem State.setRing_toll (k : Nat) (x : Ring) : (s.setRing k x).toll = s.toll := rfl
@[simp] theorem State.setRing_bru (k : Nat) (x : Ring) : (s.setRing k x).bru = s.bru := rfl
@[simp] theorem State.setRing_dies (k : Nat) (x : Ring) : (s.setRing k x).dies = s.dies := rfl
@[simp] theorem State.setRing_outOf (k : Nat) (x : Ring) : (s.setRing k x).outOf = s.outOf := rfl
@[simp] theorem State.setRing_ev (k : Nat) (x : Ring) : (s.setRing k x).ev = s.ev := rfl
@[simp] theorem State.setRing_flash (k : Nat) (x : Ring) : (s.setRing k x).flash = s.flash := rfl
@[simp] theorem State.setRing_man (k : Nat) (x : Ring) : (s.setRing k x).man = s.man := rfl
@[simp] theorem State.setRing_way (k : Nat) (x : Ring) : (s.setRing k x).way = s.way := rfl
@[simp] theorem State.setRing_mgmt (k : Nat) (x : Ring) : (s.setRing k x).mgmt = s.mgmt := rfl
@[simp] theorem State.setRing_jtag (k : Nat) (x : Ring) : (s.setRing k x).jtag = s.jtag := rfl
@[simp] theorem State.setRing_dbgFn (k : Nat) (x : Ring) : (s.setRing k x).dbgFn = s.dbgFn := rfl
@[simp] theorem State.setRing_transitIn (k : Nat) (x : Ring) : (s.setRing k x).transitIn = s.transitIn := rfl
@[simp] theorem State.setRing_pollDue (k : Nat) (x : Ring) : (s.setRing k x).pollDue = s.pollDue := rfl
@[simp] theorem State.setRing_fabViews (k : Nat) (x : Ring) : (s.setRing k x).fabViews = s.fabViews := rfl
@[simp] theorem State.setRing_dbgView (k : Nat) (x : Ring) : (s.setRing k x).dbgView = s.dbgView := rfl
@[simp] theorem State.setRing_clusterAt (k : Nat) (x : Ring) (i : Nat) : (s.setRing k x).cluster i = s.cluster i := rfl
@[simp] theorem State.setRing_xunitAt (k : Nat) (x : Ring) (i : Nat) : (s.setRing k x).xunit i = s.xunit i := rfl
@[simp] theorem State.setRing_stripAt (k : Nat) (x : Ring) (i : Nat) : (s.setRing k x).strip i = s.strip i := rfl
@[simp] theorem State.setRing_stackAt (k : Nat) (x : Ring) (i : Nat) : (s.setRing k x).stack i = s.stack i := rfl
@[simp] theorem State.setRing_fnAt (k : Nat) (x : Ring) (i : Nat) : (s.setRing k x).fn i = s.fn i := rfl
@[simp] theorem State.setRing_jobAt (k : Nat) (x : Ring) (i : Nat) : (s.setRing k x).job i = s.job i := rfl
@[simp] theorem State.setRing_portAt (k : Nat) (x : Ring) (i : Nat) : (s.setRing k x).port i = s.port i := rfl
@[simp] theorem State.setRing_engineAt (k : Nat) (x : Ring) (i : Nat) : (s.setRing k x).engine i = s.engine i := rfl
@[simp] theorem State.setRing_streamAt (k : Nat) (x : Ring) (i : Nat) : (s.setRing k x).stream i = s.stream i := rfl
@[simp] theorem State.setRing_dieAt (k : Nat) (x : Ring) (i : Nat) : (s.setRing k x).die i = s.die i := rfl
@[simp] theorem State.setRing_fnReg (k : Nat) (x : Ring) (m b : Nat) : (s.setRing k x).fnReg m b = s.fnReg m b := rfl
@[simp] theorem State.setRing_reg (k : Nat) (x : Ring) (b : Nat) : (s.setRing k x).reg b = s.reg b := rfl
@[simp] theorem State.setRing_fieldAt (k : Nat) (x : Ring) (b l n : Nat) : (s.setRing k x).field b l n = s.field b l n := rfl
@[simp] theorem State.setRing_same (k : Nat) (x : Ring) : (s.setRing k x).ring k = x := AMap.get_set_same _ _ _ _
theorem State.setRing_other (k : Nat) (x : Ring) (i : Nat) (h : i ≠ k) : (s.setRing k x).ring i = s.ring i :=
  AMap.get_set_other _ _ _ _ _ h

/-! ### setJob -/

@[simp] theorem State.setJob_pending (k : Nat) (x : Job) : (s.setJob k x).pending = s.pending := rfl
@[simp] theorem State.setJob_ms (k : Nat) (x : Job) : (s.setJob k x).ms = s.ms := rfl
@[simp] theorem State.setJob_up (k : Nat) (x : Job) : (s.setJob k x).up = s.up := rfl
@[simp] theorem State.setJob_freeCtr (k : Nat) (x : Job) : (s.setJob k x).freeCtr = s.freeCtr := rfl
@[simp] theorem State.setJob_sent (k : Nat) (x : Job) : (s.setJob k x).sent = s.sent := rfl
@[simp] theorem State.setJob_hostMem (k : Nat) (x : Job) : (s.setJob k x).hostMem = s.hostMem := rfl
@[simp] theorem State.setJob_regs (k : Nat) (x : Job) : (s.setJob k x).regs = s.regs := rfl
@[simp] theorem State.setJob_shadow (k : Nat) (x : Job) : (s.setJob k x).shadow = s.shadow := rfl
@[simp] theorem State.setJob_clusters (k : Nat) (x : Job) : (s.setJob k x).clusters = s.clusters := rfl
@[simp] theorem State.setJob_xunits (k : Nat) (x : Job) : (s.setJob k x).xunits = s.xunits := rfl
@[simp] theorem State.setJob_flights (k : Nat) (x : Job) : (s.setJob k x).flights = s.flights := rfl
@[simp] theorem State.setJob_strips (k : Nat) (x : Job) : (s.setJob k x).strips = s.strips := rfl
@[simp] theorem State.setJob_transit (k : Nat) (x : Job) : (s.setJob k x).transit = s.transit := rfl
@[simp] theorem State.setJob_chsMem (k : Nat) (x : Job) : (s.setJob k x).chsMem = s.chsMem := rfl
@[simp] theorem State.setJob_poisoned (k : Nat) (x : Job) : (s.setJob k x).poisoned = s.poisoned := rfl
@[simp] theorem State.setJob_symErr (k : Nat) (x : Job) : (s.setJob k x).symErr = s.symErr := rfl
@[simp] theorem State.setJob_dstacks (k : Nat) (x : Job) : (s.setJob k x).dstacks = s.dstacks := rfl
@[simp] theorem State.setJob_fns (k : Nat) (x : Job) : (s.setJob k x).fns = s.fns := rfl
@[simp] theorem State.setJob_numVfs (k : Nat) (x : Job) : (s.setJob k x).numVfs = s.numVfs := rfl
@[simp] theorem State.setJob_vfsGone (k : Nat) (x : Job) : (s.setJob k x).vfsGone = s.vfsGone := rfl
@[simp] theorem State.setJob_msOff (k : Nat) (x : Job) : (s.setJob k x).msOff = s.msOff := rfl
@[simp] theorem State.setJob_portReset (k : Nat) (x : Job) : (s.setJob k x).portReset = s.portReset := rfl
@[simp] theorem State.setJob_rings (k : Nat) (x : Job) : (s.setJob k x).rings = s.rings := rfl
@[simp] theorem State.setJob_msixOpen (k : Nat) (x : Job) : (s.setJob k x).msixOpen = s.msixOpen := rfl
@[simp] theorem State.setJob_msixPend (k : Nat) (x : Job) : (s.setJob k x).msixPend = s.msixPend := rfl
@[simp] theorem State.setJob_ports (k : Nat) (x : Job) : (s.setJob k x).ports = s.ports := rfl
@[simp] theorem State.setJob_engines (k : Nat) (x : Job) : (s.setJob k x).engines = s.engines := rfl
@[simp] theorem State.setJob_streams (k : Nat) (x : Job) : (s.setJob k x).streams = s.streams := rfl
@[simp] theorem State.setJob_opens (k : Nat) (x : Job) : (s.setJob k x).opens = s.opens := rfl
@[simp] theorem State.setJob_pair (k : Nat) (x : Job) : (s.setJob k x).pair = s.pair := rfl
@[simp] theorem State.setJob_power (k : Nat) (x : Job) : (s.setJob k x).power = s.power := rfl
@[simp] theorem State.setJob_clock (k : Nat) (x : Job) : (s.setJob k x).clock = s.clock := rfl
@[simp] theorem State.setJob_toll (k : Nat) (x : Job) : (s.setJob k x).toll = s.toll := rfl
@[simp] theorem State.setJob_bru (k : Nat) (x : Job) : (s.setJob k x).bru = s.bru := rfl
@[simp] theorem State.setJob_dies (k : Nat) (x : Job) : (s.setJob k x).dies = s.dies := rfl
@[simp] theorem State.setJob_outOf (k : Nat) (x : Job) : (s.setJob k x).outOf = s.outOf := rfl
@[simp] theorem State.setJob_ev (k : Nat) (x : Job) : (s.setJob k x).ev = s.ev := rfl
@[simp] theorem State.setJob_flash (k : Nat) (x : Job) : (s.setJob k x).flash = s.flash := rfl
@[simp] theorem State.setJob_man (k : Nat) (x : Job) : (s.setJob k x).man = s.man := rfl
@[simp] theorem State.setJob_way (k : Nat) (x : Job) : (s.setJob k x).way = s.way := rfl
@[simp] theorem State.setJob_mgmt (k : Nat) (x : Job) : (s.setJob k x).mgmt = s.mgmt := rfl
@[simp] theorem State.setJob_jtag (k : Nat) (x : Job) : (s.setJob k x).jtag = s.jtag := rfl
@[simp] theorem State.setJob_dbgFn (k : Nat) (x : Job) : (s.setJob k x).dbgFn = s.dbgFn := rfl
@[simp] theorem State.setJob_transitIn (k : Nat) (x : Job) : (s.setJob k x).transitIn = s.transitIn := rfl
@[simp] theorem State.setJob_pollDue (k : Nat) (x : Job) : (s.setJob k x).pollDue = s.pollDue := rfl
@[simp] theorem State.setJob_fabViews (k : Nat) (x : Job) : (s.setJob k x).fabViews = s.fabViews := rfl
@[simp] theorem State.setJob_dbgView (k : Nat) (x : Job) : (s.setJob k x).dbgView = s.dbgView := rfl
@[simp] theorem State.setJob_clusterAt (k : Nat) (x : Job) (i : Nat) : (s.setJob k x).cluster i = s.cluster i := rfl
@[simp] theorem State.setJob_xunitAt (k : Nat) (x : Job) (i : Nat) : (s.setJob k x).xunit i = s.xunit i := rfl
@[simp] theorem State.setJob_stripAt (k : Nat) (x : Job) (i : Nat) : (s.setJob k x).strip i = s.strip i := rfl
@[simp] theorem State.setJob_stackAt (k : Nat) (x : Job) (i : Nat) : (s.setJob k x).stack i = s.stack i := rfl
@[simp] theorem State.setJob_fnAt (k : Nat) (x : Job) (i : Nat) : (s.setJob k x).fn i = s.fn i := rfl
@[simp] theorem State.setJob_ringAt (k : Nat) (x : Job) (i : Nat) : (s.setJob k x).ring i = s.ring i := rfl
@[simp] theorem State.setJob_portAt (k : Nat) (x : Job) (i : Nat) : (s.setJob k x).port i = s.port i := rfl
@[simp] theorem State.setJob_engineAt (k : Nat) (x : Job) (i : Nat) : (s.setJob k x).engine i = s.engine i := rfl
@[simp] theorem State.setJob_streamAt (k : Nat) (x : Job) (i : Nat) : (s.setJob k x).stream i = s.stream i := rfl
@[simp] theorem State.setJob_dieAt (k : Nat) (x : Job) (i : Nat) : (s.setJob k x).die i = s.die i := rfl
@[simp] theorem State.setJob_fnReg (k : Nat) (x : Job) (m b : Nat) : (s.setJob k x).fnReg m b = s.fnReg m b := rfl
@[simp] theorem State.setJob_reg (k : Nat) (x : Job) (b : Nat) : (s.setJob k x).reg b = s.reg b := rfl
@[simp] theorem State.setJob_fieldAt (k : Nat) (x : Job) (b l n : Nat) : (s.setJob k x).field b l n = s.field b l n := rfl
@[simp] theorem State.setJob_same (k : Nat) (x : Job) : (s.setJob k x).job k = x := AMap.get_set_same _ _ _ _
theorem State.setJob_other (k : Nat) (x : Job) (i : Nat) (h : i ≠ k) : (s.setJob k x).job i = s.job i :=
  AMap.get_set_other _ _ _ _ _ h

/-! ### modJob -/

@[simp] theorem State.modJob_pending (k : Nat) (f : Job → Job) : (s.modJob k f).pending = s.pending := rfl
@[simp] theorem State.modJob_ms (k : Nat) (f : Job → Job) : (s.modJob k f).ms = s.ms := rfl
@[simp] theorem State.modJob_up (k : Nat) (f : Job → Job) : (s.modJob k f).up = s.up := rfl
@[simp] theorem State.modJob_freeCtr (k : Nat) (f : Job → Job) : (s.modJob k f).freeCtr = s.freeCtr := rfl
@[simp] theorem State.modJob_sent (k : Nat) (f : Job → Job) : (s.modJob k f).sent = s.sent := rfl
@[simp] theorem State.modJob_hostMem (k : Nat) (f : Job → Job) : (s.modJob k f).hostMem = s.hostMem := rfl
@[simp] theorem State.modJob_regs (k : Nat) (f : Job → Job) : (s.modJob k f).regs = s.regs := rfl
@[simp] theorem State.modJob_shadow (k : Nat) (f : Job → Job) : (s.modJob k f).shadow = s.shadow := rfl
@[simp] theorem State.modJob_clusters (k : Nat) (f : Job → Job) : (s.modJob k f).clusters = s.clusters := rfl
@[simp] theorem State.modJob_xunits (k : Nat) (f : Job → Job) : (s.modJob k f).xunits = s.xunits := rfl
@[simp] theorem State.modJob_flights (k : Nat) (f : Job → Job) : (s.modJob k f).flights = s.flights := rfl
@[simp] theorem State.modJob_strips (k : Nat) (f : Job → Job) : (s.modJob k f).strips = s.strips := rfl
@[simp] theorem State.modJob_transit (k : Nat) (f : Job → Job) : (s.modJob k f).transit = s.transit := rfl
@[simp] theorem State.modJob_chsMem (k : Nat) (f : Job → Job) : (s.modJob k f).chsMem = s.chsMem := rfl
@[simp] theorem State.modJob_poisoned (k : Nat) (f : Job → Job) : (s.modJob k f).poisoned = s.poisoned := rfl
@[simp] theorem State.modJob_symErr (k : Nat) (f : Job → Job) : (s.modJob k f).symErr = s.symErr := rfl
@[simp] theorem State.modJob_dstacks (k : Nat) (f : Job → Job) : (s.modJob k f).dstacks = s.dstacks := rfl
@[simp] theorem State.modJob_fns (k : Nat) (f : Job → Job) : (s.modJob k f).fns = s.fns := rfl
@[simp] theorem State.modJob_numVfs (k : Nat) (f : Job → Job) : (s.modJob k f).numVfs = s.numVfs := rfl
@[simp] theorem State.modJob_vfsGone (k : Nat) (f : Job → Job) : (s.modJob k f).vfsGone = s.vfsGone := rfl
@[simp] theorem State.modJob_msOff (k : Nat) (f : Job → Job) : (s.modJob k f).msOff = s.msOff := rfl
@[simp] theorem State.modJob_portReset (k : Nat) (f : Job → Job) : (s.modJob k f).portReset = s.portReset := rfl
@[simp] theorem State.modJob_rings (k : Nat) (f : Job → Job) : (s.modJob k f).rings = s.rings := rfl
@[simp] theorem State.modJob_msixOpen (k : Nat) (f : Job → Job) : (s.modJob k f).msixOpen = s.msixOpen := rfl
@[simp] theorem State.modJob_msixPend (k : Nat) (f : Job → Job) : (s.modJob k f).msixPend = s.msixPend := rfl
@[simp] theorem State.modJob_ports (k : Nat) (f : Job → Job) : (s.modJob k f).ports = s.ports := rfl
@[simp] theorem State.modJob_engines (k : Nat) (f : Job → Job) : (s.modJob k f).engines = s.engines := rfl
@[simp] theorem State.modJob_streams (k : Nat) (f : Job → Job) : (s.modJob k f).streams = s.streams := rfl
@[simp] theorem State.modJob_opens (k : Nat) (f : Job → Job) : (s.modJob k f).opens = s.opens := rfl
@[simp] theorem State.modJob_pair (k : Nat) (f : Job → Job) : (s.modJob k f).pair = s.pair := rfl
@[simp] theorem State.modJob_power (k : Nat) (f : Job → Job) : (s.modJob k f).power = s.power := rfl
@[simp] theorem State.modJob_clock (k : Nat) (f : Job → Job) : (s.modJob k f).clock = s.clock := rfl
@[simp] theorem State.modJob_toll (k : Nat) (f : Job → Job) : (s.modJob k f).toll = s.toll := rfl
@[simp] theorem State.modJob_bru (k : Nat) (f : Job → Job) : (s.modJob k f).bru = s.bru := rfl
@[simp] theorem State.modJob_dies (k : Nat) (f : Job → Job) : (s.modJob k f).dies = s.dies := rfl
@[simp] theorem State.modJob_outOf (k : Nat) (f : Job → Job) : (s.modJob k f).outOf = s.outOf := rfl
@[simp] theorem State.modJob_ev (k : Nat) (f : Job → Job) : (s.modJob k f).ev = s.ev := rfl
@[simp] theorem State.modJob_flash (k : Nat) (f : Job → Job) : (s.modJob k f).flash = s.flash := rfl
@[simp] theorem State.modJob_man (k : Nat) (f : Job → Job) : (s.modJob k f).man = s.man := rfl
@[simp] theorem State.modJob_way (k : Nat) (f : Job → Job) : (s.modJob k f).way = s.way := rfl
@[simp] theorem State.modJob_mgmt (k : Nat) (f : Job → Job) : (s.modJob k f).mgmt = s.mgmt := rfl
@[simp] theorem State.modJob_jtag (k : Nat) (f : Job → Job) : (s.modJob k f).jtag = s.jtag := rfl
@[simp] theorem State.modJob_dbgFn (k : Nat) (f : Job → Job) : (s.modJob k f).dbgFn = s.dbgFn := rfl
@[simp] theorem State.modJob_transitIn (k : Nat) (f : Job → Job) : (s.modJob k f).transitIn = s.transitIn := rfl
@[simp] theorem State.modJob_pollDue (k : Nat) (f : Job → Job) : (s.modJob k f).pollDue = s.pollDue := rfl
@[simp] theorem State.modJob_fabViews (k : Nat) (f : Job → Job) : (s.modJob k f).fabViews = s.fabViews := rfl
@[simp] theorem State.modJob_dbgView (k : Nat) (f : Job → Job) : (s.modJob k f).dbgView = s.dbgView := rfl
@[simp] theorem State.modJob_clusterAt (k : Nat) (f : Job → Job) (i : Nat) : (s.modJob k f).cluster i = s.cluster i := rfl
@[simp] theorem State.modJob_xunitAt (k : Nat) (f : Job → Job) (i : Nat) : (s.modJob k f).xunit i = s.xunit i := rfl
@[simp] theorem State.modJob_stripAt (k : Nat) (f : Job → Job) (i : Nat) : (s.modJob k f).strip i = s.strip i := rfl
@[simp] theorem State.modJob_stackAt (k : Nat) (f : Job → Job) (i : Nat) : (s.modJob k f).stack i = s.stack i := rfl
@[simp] theorem State.modJob_fnAt (k : Nat) (f : Job → Job) (i : Nat) : (s.modJob k f).fn i = s.fn i := rfl
@[simp] theorem State.modJob_ringAt (k : Nat) (f : Job → Job) (i : Nat) : (s.modJob k f).ring i = s.ring i := rfl
@[simp] theorem State.modJob_portAt (k : Nat) (f : Job → Job) (i : Nat) : (s.modJob k f).port i = s.port i := rfl
@[simp] theorem State.modJob_engineAt (k : Nat) (f : Job → Job) (i : Nat) : (s.modJob k f).engine i = s.engine i := rfl
@[simp] theorem State.modJob_streamAt (k : Nat) (f : Job → Job) (i : Nat) : (s.modJob k f).stream i = s.stream i := rfl
@[simp] theorem State.modJob_dieAt (k : Nat) (f : Job → Job) (i : Nat) : (s.modJob k f).die i = s.die i := rfl
@[simp] theorem State.modJob_fnReg (k : Nat) (f : Job → Job) (m b : Nat) : (s.modJob k f).fnReg m b = s.fnReg m b := rfl
@[simp] theorem State.modJob_reg (k : Nat) (f : Job → Job) (b : Nat) : (s.modJob k f).reg b = s.reg b := rfl
@[simp] theorem State.modJob_fieldAt (k : Nat) (f : Job → Job) (b l n : Nat) : (s.modJob k f).field b l n = s.field b l n := rfl

/-! ### setPort -/

@[simp] theorem State.setPort_pending (k : Nat) (x : Port) : (s.setPort k x).pending = s.pending := rfl
@[simp] theorem State.setPort_ms (k : Nat) (x : Port) : (s.setPort k x).ms = s.ms := rfl
@[simp] theorem State.setPort_up (k : Nat) (x : Port) : (s.setPort k x).up = s.up := rfl
@[simp] theorem State.setPort_freeCtr (k : Nat) (x : Port) : (s.setPort k x).freeCtr = s.freeCtr := rfl
@[simp] theorem State.setPort_sent (k : Nat) (x : Port) : (s.setPort k x).sent = s.sent := rfl
@[simp] theorem State.setPort_hostMem (k : Nat) (x : Port) : (s.setPort k x).hostMem = s.hostMem := rfl
@[simp] theorem State.setPort_regs (k : Nat) (x : Port) : (s.setPort k x).regs = s.regs := rfl
@[simp] theorem State.setPort_shadow (k : Nat) (x : Port) : (s.setPort k x).shadow = s.shadow := rfl
@[simp] theorem State.setPort_clusters (k : Nat) (x : Port) : (s.setPort k x).clusters = s.clusters := rfl
@[simp] theorem State.setPort_xunits (k : Nat) (x : Port) : (s.setPort k x).xunits = s.xunits := rfl
@[simp] theorem State.setPort_flights (k : Nat) (x : Port) : (s.setPort k x).flights = s.flights := rfl
@[simp] theorem State.setPort_strips (k : Nat) (x : Port) : (s.setPort k x).strips = s.strips := rfl
@[simp] theorem State.setPort_transit (k : Nat) (x : Port) : (s.setPort k x).transit = s.transit := rfl
@[simp] theorem State.setPort_chsMem (k : Nat) (x : Port) : (s.setPort k x).chsMem = s.chsMem := rfl
@[simp] theorem State.setPort_poisoned (k : Nat) (x : Port) : (s.setPort k x).poisoned = s.poisoned := rfl
@[simp] theorem State.setPort_symErr (k : Nat) (x : Port) : (s.setPort k x).symErr = s.symErr := rfl
@[simp] theorem State.setPort_dstacks (k : Nat) (x : Port) : (s.setPort k x).dstacks = s.dstacks := rfl
@[simp] theorem State.setPort_fns (k : Nat) (x : Port) : (s.setPort k x).fns = s.fns := rfl
@[simp] theorem State.setPort_numVfs (k : Nat) (x : Port) : (s.setPort k x).numVfs = s.numVfs := rfl
@[simp] theorem State.setPort_vfsGone (k : Nat) (x : Port) : (s.setPort k x).vfsGone = s.vfsGone := rfl
@[simp] theorem State.setPort_msOff (k : Nat) (x : Port) : (s.setPort k x).msOff = s.msOff := rfl
@[simp] theorem State.setPort_portReset (k : Nat) (x : Port) : (s.setPort k x).portReset = s.portReset := rfl
@[simp] theorem State.setPort_rings (k : Nat) (x : Port) : (s.setPort k x).rings = s.rings := rfl
@[simp] theorem State.setPort_msixOpen (k : Nat) (x : Port) : (s.setPort k x).msixOpen = s.msixOpen := rfl
@[simp] theorem State.setPort_msixPend (k : Nat) (x : Port) : (s.setPort k x).msixPend = s.msixPend := rfl
@[simp] theorem State.setPort_jobs (k : Nat) (x : Port) : (s.setPort k x).jobs = s.jobs := rfl
@[simp] theorem State.setPort_engines (k : Nat) (x : Port) : (s.setPort k x).engines = s.engines := rfl
@[simp] theorem State.setPort_streams (k : Nat) (x : Port) : (s.setPort k x).streams = s.streams := rfl
@[simp] theorem State.setPort_opens (k : Nat) (x : Port) : (s.setPort k x).opens = s.opens := rfl
@[simp] theorem State.setPort_pair (k : Nat) (x : Port) : (s.setPort k x).pair = s.pair := rfl
@[simp] theorem State.setPort_power (k : Nat) (x : Port) : (s.setPort k x).power = s.power := rfl
@[simp] theorem State.setPort_clock (k : Nat) (x : Port) : (s.setPort k x).clock = s.clock := rfl
@[simp] theorem State.setPort_toll (k : Nat) (x : Port) : (s.setPort k x).toll = s.toll := rfl
@[simp] theorem State.setPort_bru (k : Nat) (x : Port) : (s.setPort k x).bru = s.bru := rfl
@[simp] theorem State.setPort_dies (k : Nat) (x : Port) : (s.setPort k x).dies = s.dies := rfl
@[simp] theorem State.setPort_outOf (k : Nat) (x : Port) : (s.setPort k x).outOf = s.outOf := rfl
@[simp] theorem State.setPort_ev (k : Nat) (x : Port) : (s.setPort k x).ev = s.ev := rfl
@[simp] theorem State.setPort_flash (k : Nat) (x : Port) : (s.setPort k x).flash = s.flash := rfl
@[simp] theorem State.setPort_man (k : Nat) (x : Port) : (s.setPort k x).man = s.man := rfl
@[simp] theorem State.setPort_way (k : Nat) (x : Port) : (s.setPort k x).way = s.way := rfl
@[simp] theorem State.setPort_mgmt (k : Nat) (x : Port) : (s.setPort k x).mgmt = s.mgmt := rfl
@[simp] theorem State.setPort_jtag (k : Nat) (x : Port) : (s.setPort k x).jtag = s.jtag := rfl
@[simp] theorem State.setPort_dbgFn (k : Nat) (x : Port) : (s.setPort k x).dbgFn = s.dbgFn := rfl
@[simp] theorem State.setPort_transitIn (k : Nat) (x : Port) : (s.setPort k x).transitIn = s.transitIn := rfl
@[simp] theorem State.setPort_pollDue (k : Nat) (x : Port) : (s.setPort k x).pollDue = s.pollDue := rfl
@[simp] theorem State.setPort_fabViews (k : Nat) (x : Port) : (s.setPort k x).fabViews = s.fabViews := rfl
@[simp] theorem State.setPort_dbgView (k : Nat) (x : Port) : (s.setPort k x).dbgView = s.dbgView := rfl
@[simp] theorem State.setPort_clusterAt (k : Nat) (x : Port) (i : Nat) : (s.setPort k x).cluster i = s.cluster i := rfl
@[simp] theorem State.setPort_xunitAt (k : Nat) (x : Port) (i : Nat) : (s.setPort k x).xunit i = s.xunit i := rfl
@[simp] theorem State.setPort_stripAt (k : Nat) (x : Port) (i : Nat) : (s.setPort k x).strip i = s.strip i := rfl
@[simp] theorem State.setPort_stackAt (k : Nat) (x : Port) (i : Nat) : (s.setPort k x).stack i = s.stack i := rfl
@[simp] theorem State.setPort_fnAt (k : Nat) (x : Port) (i : Nat) : (s.setPort k x).fn i = s.fn i := rfl
@[simp] theorem State.setPort_ringAt (k : Nat) (x : Port) (i : Nat) : (s.setPort k x).ring i = s.ring i := rfl
@[simp] theorem State.setPort_jobAt (k : Nat) (x : Port) (i : Nat) : (s.setPort k x).job i = s.job i := rfl
@[simp] theorem State.setPort_engineAt (k : Nat) (x : Port) (i : Nat) : (s.setPort k x).engine i = s.engine i := rfl
@[simp] theorem State.setPort_streamAt (k : Nat) (x : Port) (i : Nat) : (s.setPort k x).stream i = s.stream i := rfl
@[simp] theorem State.setPort_dieAt (k : Nat) (x : Port) (i : Nat) : (s.setPort k x).die i = s.die i := rfl
@[simp] theorem State.setPort_fnReg (k : Nat) (x : Port) (m b : Nat) : (s.setPort k x).fnReg m b = s.fnReg m b := rfl
@[simp] theorem State.setPort_reg (k : Nat) (x : Port) (b : Nat) : (s.setPort k x).reg b = s.reg b := rfl
@[simp] theorem State.setPort_fieldAt (k : Nat) (x : Port) (b l n : Nat) : (s.setPort k x).field b l n = s.field b l n := rfl
@[simp] theorem State.setPort_same (k : Nat) (x : Port) : (s.setPort k x).port k = x := AMap.get_set_same _ _ _ _
theorem State.setPort_other (k : Nat) (x : Port) (i : Nat) (h : i ≠ k) : (s.setPort k x).port i = s.port i :=
  AMap.get_set_other _ _ _ _ _ h

/-! ### modPort -/

@[simp] theorem State.modPort_pending (k : Nat) (f : Port → Port) : (s.modPort k f).pending = s.pending := rfl
@[simp] theorem State.modPort_ms (k : Nat) (f : Port → Port) : (s.modPort k f).ms = s.ms := rfl
@[simp] theorem State.modPort_up (k : Nat) (f : Port → Port) : (s.modPort k f).up = s.up := rfl
@[simp] theorem State.modPort_freeCtr (k : Nat) (f : Port → Port) : (s.modPort k f).freeCtr = s.freeCtr := rfl
@[simp] theorem State.modPort_sent (k : Nat) (f : Port → Port) : (s.modPort k f).sent = s.sent := rfl
@[simp] theorem State.modPort_hostMem (k : Nat) (f : Port → Port) : (s.modPort k f).hostMem = s.hostMem := rfl
@[simp] theorem State.modPort_regs (k : Nat) (f : Port → Port) : (s.modPort k f).regs = s.regs := rfl
@[simp] theorem State.modPort_shadow (k : Nat) (f : Port → Port) : (s.modPort k f).shadow = s.shadow := rfl
@[simp] theorem State.modPort_clusters (k : Nat) (f : Port → Port) : (s.modPort k f).clusters = s.clusters := rfl
@[simp] theorem State.modPort_xunits (k : Nat) (f : Port → Port) : (s.modPort k f).xunits = s.xunits := rfl
@[simp] theorem State.modPort_flights (k : Nat) (f : Port → Port) : (s.modPort k f).flights = s.flights := rfl
@[simp] theorem State.modPort_strips (k : Nat) (f : Port → Port) : (s.modPort k f).strips = s.strips := rfl
@[simp] theorem State.modPort_transit (k : Nat) (f : Port → Port) : (s.modPort k f).transit = s.transit := rfl
@[simp] theorem State.modPort_chsMem (k : Nat) (f : Port → Port) : (s.modPort k f).chsMem = s.chsMem := rfl
@[simp] theorem State.modPort_poisoned (k : Nat) (f : Port → Port) : (s.modPort k f).poisoned = s.poisoned := rfl
@[simp] theorem State.modPort_symErr (k : Nat) (f : Port → Port) : (s.modPort k f).symErr = s.symErr := rfl
@[simp] theorem State.modPort_dstacks (k : Nat) (f : Port → Port) : (s.modPort k f).dstacks = s.dstacks := rfl
@[simp] theorem State.modPort_fns (k : Nat) (f : Port → Port) : (s.modPort k f).fns = s.fns := rfl
@[simp] theorem State.modPort_numVfs (k : Nat) (f : Port → Port) : (s.modPort k f).numVfs = s.numVfs := rfl
@[simp] theorem State.modPort_vfsGone (k : Nat) (f : Port → Port) : (s.modPort k f).vfsGone = s.vfsGone := rfl
@[simp] theorem State.modPort_msOff (k : Nat) (f : Port → Port) : (s.modPort k f).msOff = s.msOff := rfl
@[simp] theorem State.modPort_portReset (k : Nat) (f : Port → Port) : (s.modPort k f).portReset = s.portReset := rfl
@[simp] theorem State.modPort_rings (k : Nat) (f : Port → Port) : (s.modPort k f).rings = s.rings := rfl
@[simp] theorem State.modPort_msixOpen (k : Nat) (f : Port → Port) : (s.modPort k f).msixOpen = s.msixOpen := rfl
@[simp] theorem State.modPort_msixPend (k : Nat) (f : Port → Port) : (s.modPort k f).msixPend = s.msixPend := rfl
@[simp] theorem State.modPort_jobs (k : Nat) (f : Port → Port) : (s.modPort k f).jobs = s.jobs := rfl
@[simp] theorem State.modPort_engines (k : Nat) (f : Port → Port) : (s.modPort k f).engines = s.engines := rfl
@[simp] theorem State.modPort_streams (k : Nat) (f : Port → Port) : (s.modPort k f).streams = s.streams := rfl
@[simp] theorem State.modPort_opens (k : Nat) (f : Port → Port) : (s.modPort k f).opens = s.opens := rfl
@[simp] theorem State.modPort_pair (k : Nat) (f : Port → Port) : (s.modPort k f).pair = s.pair := rfl
@[simp] theorem State.modPort_power (k : Nat) (f : Port → Port) : (s.modPort k f).power = s.power := rfl
@[simp] theorem State.modPort_clock (k : Nat) (f : Port → Port) : (s.modPort k f).clock = s.clock := rfl
@[simp] theorem State.modPort_toll (k : Nat) (f : Port → Port) : (s.modPort k f).toll = s.toll := rfl
@[simp] theorem State.modPort_bru (k : Nat) (f : Port → Port) : (s.modPort k f).bru = s.bru := rfl
@[simp] theorem State.modPort_dies (k : Nat) (f : Port → Port) : (s.modPort k f).dies = s.dies := rfl
@[simp] theorem State.modPort_outOf (k : Nat) (f : Port → Port) : (s.modPort k f).outOf = s.outOf := rfl
@[simp] theorem State.modPort_ev (k : Nat) (f : Port → Port) : (s.modPort k f).ev = s.ev := rfl
@[simp] theorem State.modPort_flash (k : Nat) (f : Port → Port) : (s.modPort k f).flash = s.flash := rfl
@[simp] theorem State.modPort_man (k : Nat) (f : Port → Port) : (s.modPort k f).man = s.man := rfl
@[simp] theorem State.modPort_way (k : Nat) (f : Port → Port) : (s.modPort k f).way = s.way := rfl
@[simp] theorem State.modPort_mgmt (k : Nat) (f : Port → Port) : (s.modPort k f).mgmt = s.mgmt := rfl
@[simp] theorem State.modPort_jtag (k : Nat) (f : Port → Port) : (s.modPort k f).jtag = s.jtag := rfl
@[simp] theorem State.modPort_dbgFn (k : Nat) (f : Port → Port) : (s.modPort k f).dbgFn = s.dbgFn := rfl
@[simp] theorem State.modPort_transitIn (k : Nat) (f : Port → Port) : (s.modPort k f).transitIn = s.transitIn := rfl
@[simp] theorem State.modPort_pollDue (k : Nat) (f : Port → Port) : (s.modPort k f).pollDue = s.pollDue := rfl
@[simp] theorem State.modPort_fabViews (k : Nat) (f : Port → Port) : (s.modPort k f).fabViews = s.fabViews := rfl
@[simp] theorem State.modPort_dbgView (k : Nat) (f : Port → Port) : (s.modPort k f).dbgView = s.dbgView := rfl
@[simp] theorem State.modPort_clusterAt (k : Nat) (f : Port → Port) (i : Nat) : (s.modPort k f).cluster i = s.cluster i := rfl
@[simp] theorem State.modPort_xunitAt (k : Nat) (f : Port → Port) (i : Nat) : (s.modPort k f).xunit i = s.xunit i := rfl
@[simp] theorem State.modPort_stripAt (k : Nat) (f : Port → Port) (i : Nat) : (s.modPort k f).strip i = s.strip i := rfl
@[simp] theorem State.modPort_stackAt (k : Nat) (f : Port → Port) (i : Nat) : (s.modPort k f).stack i = s.stack i := rfl
@[simp] theorem State.modPort_fnAt (k : Nat) (f : Port → Port) (i : Nat) : (s.modPort k f).fn i = s.fn i := rfl
@[simp] theorem State.modPort_ringAt (k : Nat) (f : Port → Port) (i : Nat) : (s.modPort k f).ring i = s.ring i := rfl
@[simp] theorem State.modPort_jobAt (k : Nat) (f : Port → Port) (i : Nat) : (s.modPort k f).job i = s.job i := rfl
@[simp] theorem State.modPort_engineAt (k : Nat) (f : Port → Port) (i : Nat) : (s.modPort k f).engine i = s.engine i := rfl
@[simp] theorem State.modPort_streamAt (k : Nat) (f : Port → Port) (i : Nat) : (s.modPort k f).stream i = s.stream i := rfl
@[simp] theorem State.modPort_dieAt (k : Nat) (f : Port → Port) (i : Nat) : (s.modPort k f).die i = s.die i := rfl
@[simp] theorem State.modPort_fnReg (k : Nat) (f : Port → Port) (m b : Nat) : (s.modPort k f).fnReg m b = s.fnReg m b := rfl
@[simp] theorem State.modPort_reg (k : Nat) (f : Port → Port) (b : Nat) : (s.modPort k f).reg b = s.reg b := rfl
@[simp] theorem State.modPort_fieldAt (k : Nat) (f : Port → Port) (b l n : Nat) : (s.modPort k f).field b l n = s.field b l n := rfl

/-! ### setEngine -/

@[simp] theorem State.setEngine_pending (k : Nat) (x : Engine) : (s.setEngine k x).pending = s.pending := rfl
@[simp] theorem State.setEngine_ms (k : Nat) (x : Engine) : (s.setEngine k x).ms = s.ms := rfl
@[simp] theorem State.setEngine_up (k : Nat) (x : Engine) : (s.setEngine k x).up = s.up := rfl
@[simp] theorem State.setEngine_freeCtr (k : Nat) (x : Engine) : (s.setEngine k x).freeCtr = s.freeCtr := rfl
@[simp] theorem State.setEngine_sent (k : Nat) (x : Engine) : (s.setEngine k x).sent = s.sent := rfl
@[simp] theorem State.setEngine_hostMem (k : Nat) (x : Engine) : (s.setEngine k x).hostMem = s.hostMem := rfl
@[simp] theorem State.setEngine_regs (k : Nat) (x : Engine) : (s.setEngine k x).regs = s.regs := rfl
@[simp] theorem State.setEngine_shadow (k : Nat) (x : Engine) : (s.setEngine k x).shadow = s.shadow := rfl
@[simp] theorem State.setEngine_clusters (k : Nat) (x : Engine) : (s.setEngine k x).clusters = s.clusters := rfl
@[simp] theorem State.setEngine_xunits (k : Nat) (x : Engine) : (s.setEngine k x).xunits = s.xunits := rfl
@[simp] theorem State.setEngine_flights (k : Nat) (x : Engine) : (s.setEngine k x).flights = s.flights := rfl
@[simp] theorem State.setEngine_strips (k : Nat) (x : Engine) : (s.setEngine k x).strips = s.strips := rfl
@[simp] theorem State.setEngine_transit (k : Nat) (x : Engine) : (s.setEngine k x).transit = s.transit := rfl
@[simp] theorem State.setEngine_chsMem (k : Nat) (x : Engine) : (s.setEngine k x).chsMem = s.chsMem := rfl
@[simp] theorem State.setEngine_poisoned (k : Nat) (x : Engine) : (s.setEngine k x).poisoned = s.poisoned := rfl
@[simp] theorem State.setEngine_symErr (k : Nat) (x : Engine) : (s.setEngine k x).symErr = s.symErr := rfl
@[simp] theorem State.setEngine_dstacks (k : Nat) (x : Engine) : (s.setEngine k x).dstacks = s.dstacks := rfl
@[simp] theorem State.setEngine_fns (k : Nat) (x : Engine) : (s.setEngine k x).fns = s.fns := rfl
@[simp] theorem State.setEngine_numVfs (k : Nat) (x : Engine) : (s.setEngine k x).numVfs = s.numVfs := rfl
@[simp] theorem State.setEngine_vfsGone (k : Nat) (x : Engine) : (s.setEngine k x).vfsGone = s.vfsGone := rfl
@[simp] theorem State.setEngine_msOff (k : Nat) (x : Engine) : (s.setEngine k x).msOff = s.msOff := rfl
@[simp] theorem State.setEngine_portReset (k : Nat) (x : Engine) : (s.setEngine k x).portReset = s.portReset := rfl
@[simp] theorem State.setEngine_rings (k : Nat) (x : Engine) : (s.setEngine k x).rings = s.rings := rfl
@[simp] theorem State.setEngine_msixOpen (k : Nat) (x : Engine) : (s.setEngine k x).msixOpen = s.msixOpen := rfl
@[simp] theorem State.setEngine_msixPend (k : Nat) (x : Engine) : (s.setEngine k x).msixPend = s.msixPend := rfl
@[simp] theorem State.setEngine_jobs (k : Nat) (x : Engine) : (s.setEngine k x).jobs = s.jobs := rfl
@[simp] theorem State.setEngine_ports (k : Nat) (x : Engine) : (s.setEngine k x).ports = s.ports := rfl
@[simp] theorem State.setEngine_streams (k : Nat) (x : Engine) : (s.setEngine k x).streams = s.streams := rfl
@[simp] theorem State.setEngine_opens (k : Nat) (x : Engine) : (s.setEngine k x).opens = s.opens := rfl
@[simp] theorem State.setEngine_pair (k : Nat) (x : Engine) : (s.setEngine k x).pair = s.pair := rfl
@[simp] theorem State.setEngine_power (k : Nat) (x : Engine) : (s.setEngine k x).power = s.power := rfl
@[simp] theorem State.setEngine_clock (k : Nat) (x : Engine) : (s.setEngine k x).clock = s.clock := rfl
@[simp] theorem State.setEngine_toll (k : Nat) (x : Engine) : (s.setEngine k x).toll = s.toll := rfl
@[simp] theorem State.setEngine_bru (k : Nat) (x : Engine) : (s.setEngine k x).bru = s.bru := rfl
@[simp] theorem State.setEngine_dies (k : Nat) (x : Engine) : (s.setEngine k x).dies = s.dies := rfl
@[simp] theorem State.setEngine_outOf (k : Nat) (x : Engine) : (s.setEngine k x).outOf = s.outOf := rfl
@[simp] theorem State.setEngine_ev (k : Nat) (x : Engine) : (s.setEngine k x).ev = s.ev := rfl
@[simp] theorem State.setEngine_flash (k : Nat) (x : Engine) : (s.setEngine k x).flash = s.flash := rfl
@[simp] theorem State.setEngine_man (k : Nat) (x : Engine) : (s.setEngine k x).man = s.man := rfl
@[simp] theorem State.setEngine_way (k : Nat) (x : Engine) : (s.setEngine k x).way = s.way := rfl
@[simp] theorem State.setEngine_mgmt (k : Nat) (x : Engine) : (s.setEngine k x).mgmt = s.mgmt := rfl
@[simp] theorem State.setEngine_jtag (k : Nat) (x : Engine) : (s.setEngine k x).jtag = s.jtag := rfl
@[simp] theorem State.setEngine_dbgFn (k : Nat) (x : Engine) : (s.setEngine k x).dbgFn = s.dbgFn := rfl
@[simp] theorem State.setEngine_transitIn (k : Nat) (x : Engine) : (s.setEngine k x).transitIn = s.transitIn := rfl
@[simp] theorem State.setEngine_pollDue (k : Nat) (x : Engine) : (s.setEngine k x).pollDue = s.pollDue := rfl
@[simp] theorem State.setEngine_fabViews (k : Nat) (x : Engine) : (s.setEngine k x).fabViews = s.fabViews := rfl
@[simp] theorem State.setEngine_dbgView (k : Nat) (x : Engine) : (s.setEngine k x).dbgView = s.dbgView := rfl
@[simp] theorem State.setEngine_clusterAt (k : Nat) (x : Engine) (i : Nat) : (s.setEngine k x).cluster i = s.cluster i := rfl
@[simp] theorem State.setEngine_xunitAt (k : Nat) (x : Engine) (i : Nat) : (s.setEngine k x).xunit i = s.xunit i := rfl
@[simp] theorem State.setEngine_stripAt (k : Nat) (x : Engine) (i : Nat) : (s.setEngine k x).strip i = s.strip i := rfl
@[simp] theorem State.setEngine_stackAt (k : Nat) (x : Engine) (i : Nat) : (s.setEngine k x).stack i = s.stack i := rfl
@[simp] theorem State.setEngine_fnAt (k : Nat) (x : Engine) (i : Nat) : (s.setEngine k x).fn i = s.fn i := rfl
@[simp] theorem State.setEngine_ringAt (k : Nat) (x : Engine) (i : Nat) : (s.setEngine k x).ring i = s.ring i := rfl
@[simp] theorem State.setEngine_jobAt (k : Nat) (x : Engine) (i : Nat) : (s.setEngine k x).job i = s.job i := rfl
@[simp] theorem State.setEngine_portAt (k : Nat) (x : Engine) (i : Nat) : (s.setEngine k x).port i = s.port i := rfl
@[simp] theorem State.setEngine_streamAt (k : Nat) (x : Engine) (i : Nat) : (s.setEngine k x).stream i = s.stream i := rfl
@[simp] theorem State.setEngine_dieAt (k : Nat) (x : Engine) (i : Nat) : (s.setEngine k x).die i = s.die i := rfl
@[simp] theorem State.setEngine_fnReg (k : Nat) (x : Engine) (m b : Nat) : (s.setEngine k x).fnReg m b = s.fnReg m b := rfl
@[simp] theorem State.setEngine_reg (k : Nat) (x : Engine) (b : Nat) : (s.setEngine k x).reg b = s.reg b := rfl
@[simp] theorem State.setEngine_fieldAt (k : Nat) (x : Engine) (b l n : Nat) : (s.setEngine k x).field b l n = s.field b l n := rfl
@[simp] theorem State.setEngine_same (k : Nat) (x : Engine) : (s.setEngine k x).engine k = x := AMap.get_set_same _ _ _ _
theorem State.setEngine_other (k : Nat) (x : Engine) (i : Nat) (h : i ≠ k) : (s.setEngine k x).engine i = s.engine i :=
  AMap.get_set_other _ _ _ _ _ h

/-! ### setStream -/

@[simp] theorem State.setStream_pending (k : Nat) (x : TStream) : (s.setStream k x).pending = s.pending := rfl
@[simp] theorem State.setStream_ms (k : Nat) (x : TStream) : (s.setStream k x).ms = s.ms := rfl
@[simp] theorem State.setStream_up (k : Nat) (x : TStream) : (s.setStream k x).up = s.up := rfl
@[simp] theorem State.setStream_freeCtr (k : Nat) (x : TStream) : (s.setStream k x).freeCtr = s.freeCtr := rfl
@[simp] theorem State.setStream_sent (k : Nat) (x : TStream) : (s.setStream k x).sent = s.sent := rfl
@[simp] theorem State.setStream_hostMem (k : Nat) (x : TStream) : (s.setStream k x).hostMem = s.hostMem := rfl
@[simp] theorem State.setStream_regs (k : Nat) (x : TStream) : (s.setStream k x).regs = s.regs := rfl
@[simp] theorem State.setStream_shadow (k : Nat) (x : TStream) : (s.setStream k x).shadow = s.shadow := rfl
@[simp] theorem State.setStream_clusters (k : Nat) (x : TStream) : (s.setStream k x).clusters = s.clusters := rfl
@[simp] theorem State.setStream_xunits (k : Nat) (x : TStream) : (s.setStream k x).xunits = s.xunits := rfl
@[simp] theorem State.setStream_flights (k : Nat) (x : TStream) : (s.setStream k x).flights = s.flights := rfl
@[simp] theorem State.setStream_strips (k : Nat) (x : TStream) : (s.setStream k x).strips = s.strips := rfl
@[simp] theorem State.setStream_transit (k : Nat) (x : TStream) : (s.setStream k x).transit = s.transit := rfl
@[simp] theorem State.setStream_chsMem (k : Nat) (x : TStream) : (s.setStream k x).chsMem = s.chsMem := rfl
@[simp] theorem State.setStream_poisoned (k : Nat) (x : TStream) : (s.setStream k x).poisoned = s.poisoned := rfl
@[simp] theorem State.setStream_symErr (k : Nat) (x : TStream) : (s.setStream k x).symErr = s.symErr := rfl
@[simp] theorem State.setStream_dstacks (k : Nat) (x : TStream) : (s.setStream k x).dstacks = s.dstacks := rfl
@[simp] theorem State.setStream_fns (k : Nat) (x : TStream) : (s.setStream k x).fns = s.fns := rfl
@[simp] theorem State.setStream_numVfs (k : Nat) (x : TStream) : (s.setStream k x).numVfs = s.numVfs := rfl
@[simp] theorem State.setStream_vfsGone (k : Nat) (x : TStream) : (s.setStream k x).vfsGone = s.vfsGone := rfl
@[simp] theorem State.setStream_msOff (k : Nat) (x : TStream) : (s.setStream k x).msOff = s.msOff := rfl
@[simp] theorem State.setStream_portReset (k : Nat) (x : TStream) : (s.setStream k x).portReset = s.portReset := rfl
@[simp] theorem State.setStream_rings (k : Nat) (x : TStream) : (s.setStream k x).rings = s.rings := rfl
@[simp] theorem State.setStream_msixOpen (k : Nat) (x : TStream) : (s.setStream k x).msixOpen = s.msixOpen := rfl
@[simp] theorem State.setStream_msixPend (k : Nat) (x : TStream) : (s.setStream k x).msixPend = s.msixPend := rfl
@[simp] theorem State.setStream_jobs (k : Nat) (x : TStream) : (s.setStream k x).jobs = s.jobs := rfl
@[simp] theorem State.setStream_ports (k : Nat) (x : TStream) : (s.setStream k x).ports = s.ports := rfl
@[simp] theorem State.setStream_engines (k : Nat) (x : TStream) : (s.setStream k x).engines = s.engines := rfl
@[simp] theorem State.setStream_opens (k : Nat) (x : TStream) : (s.setStream k x).opens = s.opens := rfl
@[simp] theorem State.setStream_pair (k : Nat) (x : TStream) : (s.setStream k x).pair = s.pair := rfl
@[simp] theorem State.setStream_power (k : Nat) (x : TStream) : (s.setStream k x).power = s.power := rfl
@[simp] theorem State.setStream_clock (k : Nat) (x : TStream) : (s.setStream k x).clock = s.clock := rfl
@[simp] theorem State.setStream_toll (k : Nat) (x : TStream) : (s.setStream k x).toll = s.toll := rfl
@[simp] theorem State.setStream_bru (k : Nat) (x : TStream) : (s.setStream k x).bru = s.bru := rfl
@[simp] theorem State.setStream_dies (k : Nat) (x : TStream) : (s.setStream k x).dies = s.dies := rfl
@[simp] theorem State.setStream_outOf (k : Nat) (x : TStream) : (s.setStream k x).outOf = s.outOf := rfl
@[simp] theorem State.setStream_ev (k : Nat) (x : TStream) : (s.setStream k x).ev = s.ev := rfl
@[simp] theorem State.setStream_flash (k : Nat) (x : TStream) : (s.setStream k x).flash = s.flash := rfl
@[simp] theorem State.setStream_man (k : Nat) (x : TStream) : (s.setStream k x).man = s.man := rfl
@[simp] theorem State.setStream_way (k : Nat) (x : TStream) : (s.setStream k x).way = s.way := rfl
@[simp] theorem State.setStream_mgmt (k : Nat) (x : TStream) : (s.setStream k x).mgmt = s.mgmt := rfl
@[simp] theorem State.setStream_jtag (k : Nat) (x : TStream) : (s.setStream k x).jtag = s.jtag := rfl
@[simp] theorem State.setStream_dbgFn (k : Nat) (x : TStream) : (s.setStream k x).dbgFn = s.dbgFn := rfl
@[simp] theorem State.setStream_transitIn (k : Nat) (x : TStream) : (s.setStream k x).transitIn = s.transitIn := rfl
@[simp] theorem State.setStream_pollDue (k : Nat) (x : TStream) : (s.setStream k x).pollDue = s.pollDue := rfl
@[simp] theorem State.setStream_fabViews (k : Nat) (x : TStream) : (s.setStream k x).fabViews = s.fabViews := rfl
@[simp] theorem State.setStream_dbgView (k : Nat) (x : TStream) : (s.setStream k x).dbgView = s.dbgView := rfl
@[simp] theorem State.setStream_clusterAt (k : Nat) (x : TStream) (i : Nat) : (s.setStream k x).cluster i = s.cluster i := rfl
@[simp] theorem State.setStream_xunitAt (k : Nat) (x : TStream) (i : Nat) : (s.setStream k x).xunit i = s.xunit i := rfl
@[simp] theorem State.setStream_stripAt (k : Nat) (x : TStream) (i : Nat) : (s.setStream k x).strip i = s.strip i := rfl
@[simp] theorem State.setStream_stackAt (k : Nat) (x : TStream) (i : Nat) : (s.setStream k x).stack i = s.stack i := rfl
@[simp] theorem State.setStream_fnAt (k : Nat) (x : TStream) (i : Nat) : (s.setStream k x).fn i = s.fn i := rfl
@[simp] theorem State.setStream_ringAt (k : Nat) (x : TStream) (i : Nat) : (s.setStream k x).ring i = s.ring i := rfl
@[simp] theorem State.setStream_jobAt (k : Nat) (x : TStream) (i : Nat) : (s.setStream k x).job i = s.job i := rfl
@[simp] theorem State.setStream_portAt (k : Nat) (x : TStream) (i : Nat) : (s.setStream k x).port i = s.port i := rfl
@[simp] theorem State.setStream_engineAt (k : Nat) (x : TStream) (i : Nat) : (s.setStream k x).engine i = s.engine i := rfl
@[simp] theorem State.setStream_dieAt (k : Nat) (x : TStream) (i : Nat) : (s.setStream k x).die i = s.die i := rfl
@[simp] theorem State.setStream_fnReg (k : Nat) (x : TStream) (m b : Nat) : (s.setStream k x).fnReg m b = s.fnReg m b := rfl
@[simp] theorem State.setStream_reg (k : Nat) (x : TStream) (b : Nat) : (s.setStream k x).reg b = s.reg b := rfl
@[simp] theorem State.setStream_fieldAt (k : Nat) (x : TStream) (b l n : Nat) : (s.setStream k x).field b l n = s.field b l n := rfl
@[simp] theorem State.setStream_same (k : Nat) (x : TStream) : (s.setStream k x).stream k = x := AMap.get_set_same _ _ _ _
theorem State.setStream_other (k : Nat) (x : TStream) (i : Nat) (h : i ≠ k) : (s.setStream k x).stream i = s.stream i :=
  AMap.get_set_other _ _ _ _ _ h

/-! ### setDie -/

@[simp] theorem State.setDie_pending (k : Nat) (x : Die) : (s.setDie k x).pending = s.pending := rfl
@[simp] theorem State.setDie_ms (k : Nat) (x : Die) : (s.setDie k x).ms = s.ms := rfl
@[simp] theorem State.setDie_up (k : Nat) (x : Die) : (s.setDie k x).up = s.up := rfl
@[simp] theorem State.setDie_freeCtr (k : Nat) (x : Die) : (s.setDie k x).freeCtr = s.freeCtr := rfl
@[simp] theorem State.setDie_sent (k : Nat) (x : Die) : (s.setDie k x).sent = s.sent := rfl
@[simp] theorem State.setDie_hostMem (k : Nat) (x : Die) : (s.setDie k x).hostMem = s.hostMem := rfl
@[simp] theorem State.setDie_regs (k : Nat) (x : Die) : (s.setDie k x).regs = s.regs := rfl
@[simp] theorem State.setDie_shadow (k : Nat) (x : Die) : (s.setDie k x).shadow = s.shadow := rfl
@[simp] theorem State.setDie_clusters (k : Nat) (x : Die) : (s.setDie k x).clusters = s.clusters := rfl
@[simp] theorem State.setDie_xunits (k : Nat) (x : Die) : (s.setDie k x).xunits = s.xunits := rfl
@[simp] theorem State.setDie_flights (k : Nat) (x : Die) : (s.setDie k x).flights = s.flights := rfl
@[simp] theorem State.setDie_strips (k : Nat) (x : Die) : (s.setDie k x).strips = s.strips := rfl
@[simp] theorem State.setDie_transit (k : Nat) (x : Die) : (s.setDie k x).transit = s.transit := rfl
@[simp] theorem State.setDie_chsMem (k : Nat) (x : Die) : (s.setDie k x).chsMem = s.chsMem := rfl
@[simp] theorem State.setDie_poisoned (k : Nat) (x : Die) : (s.setDie k x).poisoned = s.poisoned := rfl
@[simp] theorem State.setDie_symErr (k : Nat) (x : Die) : (s.setDie k x).symErr = s.symErr := rfl
@[simp] theorem State.setDie_dstacks (k : Nat) (x : Die) : (s.setDie k x).dstacks = s.dstacks := rfl
@[simp] theorem State.setDie_fns (k : Nat) (x : Die) : (s.setDie k x).fns = s.fns := rfl
@[simp] theorem State.setDie_numVfs (k : Nat) (x : Die) : (s.setDie k x).numVfs = s.numVfs := rfl
@[simp] theorem State.setDie_vfsGone (k : Nat) (x : Die) : (s.setDie k x).vfsGone = s.vfsGone := rfl
@[simp] theorem State.setDie_msOff (k : Nat) (x : Die) : (s.setDie k x).msOff = s.msOff := rfl
@[simp] theorem State.setDie_portReset (k : Nat) (x : Die) : (s.setDie k x).portReset = s.portReset := rfl
@[simp] theorem State.setDie_rings (k : Nat) (x : Die) : (s.setDie k x).rings = s.rings := rfl
@[simp] theorem State.setDie_msixOpen (k : Nat) (x : Die) : (s.setDie k x).msixOpen = s.msixOpen := rfl
@[simp] theorem State.setDie_msixPend (k : Nat) (x : Die) : (s.setDie k x).msixPend = s.msixPend := rfl
@[simp] theorem State.setDie_jobs (k : Nat) (x : Die) : (s.setDie k x).jobs = s.jobs := rfl
@[simp] theorem State.setDie_ports (k : Nat) (x : Die) : (s.setDie k x).ports = s.ports := rfl
@[simp] theorem State.setDie_engines (k : Nat) (x : Die) : (s.setDie k x).engines = s.engines := rfl
@[simp] theorem State.setDie_streams (k : Nat) (x : Die) : (s.setDie k x).streams = s.streams := rfl
@[simp] theorem State.setDie_opens (k : Nat) (x : Die) : (s.setDie k x).opens = s.opens := rfl
@[simp] theorem State.setDie_pair (k : Nat) (x : Die) : (s.setDie k x).pair = s.pair := rfl
@[simp] theorem State.setDie_power (k : Nat) (x : Die) : (s.setDie k x).power = s.power := rfl
@[simp] theorem State.setDie_clock (k : Nat) (x : Die) : (s.setDie k x).clock = s.clock := rfl
@[simp] theorem State.setDie_toll (k : Nat) (x : Die) : (s.setDie k x).toll = s.toll := rfl
@[simp] theorem State.setDie_bru (k : Nat) (x : Die) : (s.setDie k x).bru = s.bru := rfl
@[simp] theorem State.setDie_outOf (k : Nat) (x : Die) : (s.setDie k x).outOf = s.outOf := rfl
@[simp] theorem State.setDie_ev (k : Nat) (x : Die) : (s.setDie k x).ev = s.ev := rfl
@[simp] theorem State.setDie_flash (k : Nat) (x : Die) : (s.setDie k x).flash = s.flash := rfl
@[simp] theorem State.setDie_man (k : Nat) (x : Die) : (s.setDie k x).man = s.man := rfl
@[simp] theorem State.setDie_way (k : Nat) (x : Die) : (s.setDie k x).way = s.way := rfl
@[simp] theorem State.setDie_mgmt (k : Nat) (x : Die) : (s.setDie k x).mgmt = s.mgmt := rfl
@[simp] theorem State.setDie_jtag (k : Nat) (x : Die) : (s.setDie k x).jtag = s.jtag := rfl
@[simp] theorem State.setDie_dbgFn (k : Nat) (x : Die) : (s.setDie k x).dbgFn = s.dbgFn := rfl
@[simp] theorem State.setDie_transitIn (k : Nat) (x : Die) : (s.setDie k x).transitIn = s.transitIn := rfl
@[simp] theorem State.setDie_pollDue (k : Nat) (x : Die) : (s.setDie k x).pollDue = s.pollDue := rfl
@[simp] theorem State.setDie_fabViews (k : Nat) (x : Die) : (s.setDie k x).fabViews = s.fabViews := rfl
@[simp] theorem State.setDie_dbgView (k : Nat) (x : Die) : (s.setDie k x).dbgView = s.dbgView := rfl
@[simp] theorem State.setDie_clusterAt (k : Nat) (x : Die) (i : Nat) : (s.setDie k x).cluster i = s.cluster i := rfl
@[simp] theorem State.setDie_xunitAt (k : Nat) (x : Die) (i : Nat) : (s.setDie k x).xunit i = s.xunit i := rfl
@[simp] theorem State.setDie_stripAt (k : Nat) (x : Die) (i : Nat) : (s.setDie k x).strip i = s.strip i := rfl
@[simp] theorem State.setDie_stackAt (k : Nat) (x : Die) (i : Nat) : (s.setDie k x).stack i = s.stack i := rfl
@[simp] theorem State.setDie_fnAt (k : Nat) (x : Die) (i : Nat) : (s.setDie k x).fn i = s.fn i := rfl
@[simp] theorem State.setDie_ringAt (k : Nat) (x : Die) (i : Nat) : (s.setDie k x).ring i = s.ring i := rfl
@[simp] theorem State.setDie_jobAt (k : Nat) (x : Die) (i : Nat) : (s.setDie k x).job i = s.job i := rfl
@[simp] theorem State.setDie_portAt (k : Nat) (x : Die) (i : Nat) : (s.setDie k x).port i = s.port i := rfl
@[simp] theorem State.setDie_engineAt (k : Nat) (x : Die) (i : Nat) : (s.setDie k x).engine i = s.engine i := rfl
@[simp] theorem State.setDie_streamAt (k : Nat) (x : Die) (i : Nat) : (s.setDie k x).stream i = s.stream i := rfl
@[simp] theorem State.setDie_fnReg (k : Nat) (x : Die) (m b : Nat) : (s.setDie k x).fnReg m b = s.fnReg m b := rfl
@[simp] theorem State.setDie_reg (k : Nat) (x : Die) (b : Nat) : (s.setDie k x).reg b = s.reg b := rfl
@[simp] theorem State.setDie_fieldAt (k : Nat) (x : Die) (b l n : Nat) : (s.setDie k x).field b l n = s.field b l n := rfl
@[simp] theorem State.setDie_same (k : Nat) (x : Die) : (s.setDie k x).die k = x := AMap.get_set_same _ _ _ _
theorem State.setDie_other (k : Nat) (x : Die) (i : Nat) (h : i ≠ k) : (s.setDie k x).die i = s.die i :=
  AMap.get_set_other _ _ _ _ _ h

/-! ### modDie -/

@[simp] theorem State.modDie_pending (k : Nat) (f : Die → Die) : (s.modDie k f).pending = s.pending := rfl
@[simp] theorem State.modDie_ms (k : Nat) (f : Die → Die) : (s.modDie k f).ms = s.ms := rfl
@[simp] theorem State.modDie_up (k : Nat) (f : Die → Die) : (s.modDie k f).up = s.up := rfl
@[simp] theorem State.modDie_freeCtr (k : Nat) (f : Die → Die) : (s.modDie k f).freeCtr = s.freeCtr := rfl
@[simp] theorem State.modDie_sent (k : Nat) (f : Die → Die) : (s.modDie k f).sent = s.sent := rfl
@[simp] theorem State.modDie_hostMem (k : Nat) (f : Die → Die) : (s.modDie k f).hostMem = s.hostMem := rfl
@[simp] theorem State.modDie_regs (k : Nat) (f : Die → Die) : (s.modDie k f).regs = s.regs := rfl
@[simp] theorem State.modDie_shadow (k : Nat) (f : Die → Die) : (s.modDie k f).shadow = s.shadow := rfl
@[simp] theorem State.modDie_clusters (k : Nat) (f : Die → Die) : (s.modDie k f).clusters = s.clusters := rfl
@[simp] theorem State.modDie_xunits (k : Nat) (f : Die → Die) : (s.modDie k f).xunits = s.xunits := rfl
@[simp] theorem State.modDie_flights (k : Nat) (f : Die → Die) : (s.modDie k f).flights = s.flights := rfl
@[simp] theorem State.modDie_strips (k : Nat) (f : Die → Die) : (s.modDie k f).strips = s.strips := rfl
@[simp] theorem State.modDie_transit (k : Nat) (f : Die → Die) : (s.modDie k f).transit = s.transit := rfl
@[simp] theorem State.modDie_chsMem (k : Nat) (f : Die → Die) : (s.modDie k f).chsMem = s.chsMem := rfl
@[simp] theorem State.modDie_poisoned (k : Nat) (f : Die → Die) : (s.modDie k f).poisoned = s.poisoned := rfl
@[simp] theorem State.modDie_symErr (k : Nat) (f : Die → Die) : (s.modDie k f).symErr = s.symErr := rfl
@[simp] theorem State.modDie_dstacks (k : Nat) (f : Die → Die) : (s.modDie k f).dstacks = s.dstacks := rfl
@[simp] theorem State.modDie_fns (k : Nat) (f : Die → Die) : (s.modDie k f).fns = s.fns := rfl
@[simp] theorem State.modDie_numVfs (k : Nat) (f : Die → Die) : (s.modDie k f).numVfs = s.numVfs := rfl
@[simp] theorem State.modDie_vfsGone (k : Nat) (f : Die → Die) : (s.modDie k f).vfsGone = s.vfsGone := rfl
@[simp] theorem State.modDie_msOff (k : Nat) (f : Die → Die) : (s.modDie k f).msOff = s.msOff := rfl
@[simp] theorem State.modDie_portReset (k : Nat) (f : Die → Die) : (s.modDie k f).portReset = s.portReset := rfl
@[simp] theorem State.modDie_rings (k : Nat) (f : Die → Die) : (s.modDie k f).rings = s.rings := rfl
@[simp] theorem State.modDie_msixOpen (k : Nat) (f : Die → Die) : (s.modDie k f).msixOpen = s.msixOpen := rfl
@[simp] theorem State.modDie_msixPend (k : Nat) (f : Die → Die) : (s.modDie k f).msixPend = s.msixPend := rfl
@[simp] theorem State.modDie_jobs (k : Nat) (f : Die → Die) : (s.modDie k f).jobs = s.jobs := rfl
@[simp] theorem State.modDie_ports (k : Nat) (f : Die → Die) : (s.modDie k f).ports = s.ports := rfl
@[simp] theorem State.modDie_engines (k : Nat) (f : Die → Die) : (s.modDie k f).engines = s.engines := rfl
@[simp] theorem State.modDie_streams (k : Nat) (f : Die → Die) : (s.modDie k f).streams = s.streams := rfl
@[simp] theorem State.modDie_opens (k : Nat) (f : Die → Die) : (s.modDie k f).opens = s.opens := rfl
@[simp] theorem State.modDie_pair (k : Nat) (f : Die → Die) : (s.modDie k f).pair = s.pair := rfl
@[simp] theorem State.modDie_power (k : Nat) (f : Die → Die) : (s.modDie k f).power = s.power := rfl
@[simp] theorem State.modDie_clock (k : Nat) (f : Die → Die) : (s.modDie k f).clock = s.clock := rfl
@[simp] theorem State.modDie_toll (k : Nat) (f : Die → Die) : (s.modDie k f).toll = s.toll := rfl
@[simp] theorem State.modDie_bru (k : Nat) (f : Die → Die) : (s.modDie k f).bru = s.bru := rfl
@[simp] theorem State.modDie_outOf (k : Nat) (f : Die → Die) : (s.modDie k f).outOf = s.outOf := rfl
@[simp] theorem State.modDie_ev (k : Nat) (f : Die → Die) : (s.modDie k f).ev = s.ev := rfl
@[simp] theorem State.modDie_flash (k : Nat) (f : Die → Die) : (s.modDie k f).flash = s.flash := rfl
@[simp] theorem State.modDie_man (k : Nat) (f : Die → Die) : (s.modDie k f).man = s.man := rfl
@[simp] theorem State.modDie_way (k : Nat) (f : Die → Die) : (s.modDie k f).way = s.way := rfl
@[simp] theorem State.modDie_mgmt (k : Nat) (f : Die → Die) : (s.modDie k f).mgmt = s.mgmt := rfl
@[simp] theorem State.modDie_jtag (k : Nat) (f : Die → Die) : (s.modDie k f).jtag = s.jtag := rfl
@[simp] theorem State.modDie_dbgFn (k : Nat) (f : Die → Die) : (s.modDie k f).dbgFn = s.dbgFn := rfl
@[simp] theorem State.modDie_transitIn (k : Nat) (f : Die → Die) : (s.modDie k f).transitIn = s.transitIn := rfl
@[simp] theorem State.modDie_pollDue (k : Nat) (f : Die → Die) : (s.modDie k f).pollDue = s.pollDue := rfl
@[simp] theorem State.modDie_fabViews (k : Nat) (f : Die → Die) : (s.modDie k f).fabViews = s.fabViews := rfl
@[simp] theorem State.modDie_dbgView (k : Nat) (f : Die → Die) : (s.modDie k f).dbgView = s.dbgView := rfl
@[simp] theorem State.modDie_clusterAt (k : Nat) (f : Die → Die) (i : Nat) : (s.modDie k f).cluster i = s.cluster i := rfl
@[simp] theorem State.modDie_xunitAt (k : Nat) (f : Die → Die) (i : Nat) : (s.modDie k f).xunit i = s.xunit i := rfl
@[simp] theorem State.modDie_stripAt (k : Nat) (f : Die → Die) (i : Nat) : (s.modDie k f).strip i = s.strip i := rfl
@[simp] theorem State.modDie_stackAt (k : Nat) (f : Die → Die) (i : Nat) : (s.modDie k f).stack i = s.stack i := rfl
@[simp] theorem State.modDie_fnAt (k : Nat) (f : Die → Die) (i : Nat) : (s.modDie k f).fn i = s.fn i := rfl
@[simp] theorem State.modDie_ringAt (k : Nat) (f : Die → Die) (i : Nat) : (s.modDie k f).ring i = s.ring i := rfl
@[simp] theorem State.modDie_jobAt (k : Nat) (f : Die → Die) (i : Nat) : (s.modDie k f).job i = s.job i := rfl
@[simp] theorem State.modDie_portAt (k : Nat) (f : Die → Die) (i : Nat) : (s.modDie k f).port i = s.port i := rfl
@[simp] theorem State.modDie_engineAt (k : Nat) (f : Die → Die) (i : Nat) : (s.modDie k f).engine i = s.engine i := rfl
@[simp] theorem State.modDie_streamAt (k : Nat) (f : Die → Die) (i : Nat) : (s.modDie k f).stream i = s.stream i := rfl
@[simp] theorem State.modDie_fnReg (k : Nat) (f : Die → Die) (m b : Nat) : (s.modDie k f).fnReg m b = s.fnReg m b := rfl
@[simp] theorem State.modDie_reg (k : Nat) (f : Die → Die) (b : Nat) : (s.modDie k f).reg b = s.reg b := rfl
@[simp] theorem State.modDie_fieldAt (k : Nat) (f : Die → Die) (b l n : Nat) : (s.modDie k f).field b l n = s.field b l n := rfl

/-! ### setFnReg -/

@[simp] theorem State.setFnReg_pending (n a : Nat) (w : Word) : (s.setFnReg n a w).pending = s.pending := rfl
@[simp] theorem State.setFnReg_ms (n a : Nat) (w : Word) : (s.setFnReg n a w).ms = s.ms := rfl
@[simp] theorem State.setFnReg_up (n a : Nat) (w : Word) : (s.setFnReg n a w).up = s.up := rfl
@[simp] theorem State.setFnReg_freeCtr (n a : Nat) (w : Word) : (s.setFnReg n a w).freeCtr = s.freeCtr := rfl
@[simp] theorem State.setFnReg_sent (n a : Nat) (w : Word) : (s.setFnReg n a w).sent = s.sent := rfl
@[simp] theorem State.setFnReg_hostMem (n a : Nat) (w : Word) : (s.setFnReg n a w).hostMem = s.hostMem := rfl
@[simp] theorem State.setFnReg_shadow (n a : Nat) (w : Word) : (s.setFnReg n a w).shadow = s.shadow := rfl
@[simp] theorem State.setFnReg_clusters (n a : Nat) (w : Word) : (s.setFnReg n a w).clusters = s.clusters := rfl
@[simp] theorem State.setFnReg_xunits (n a : Nat) (w : Word) : (s.setFnReg n a w).xunits = s.xunits := rfl
@[simp] theorem State.setFnReg_flights (n a : Nat) (w : Word) : (s.setFnReg n a w).flights = s.flights := rfl
@[simp] theorem State.setFnReg_strips (n a : Nat) (w : Word) : (s.setFnReg n a w).strips = s.strips := rfl
@[simp] theorem State.setFnReg_transit (n a : Nat) (w : Word) : (s.setFnReg n a w).transit = s.transit := rfl
@[simp] theorem State.setFnReg_chsMem (n a : Nat) (w : Word) : (s.setFnReg n a w).chsMem = s.chsMem := rfl
@[simp] theorem State.setFnReg_poisoned (n a : Nat) (w : Word) : (s.setFnReg n a w).poisoned = s.poisoned := rfl
@[simp] theorem State.setFnReg_symErr (n a : Nat) (w : Word) : (s.setFnReg n a w).symErr = s.symErr := rfl
@[simp] theorem State.setFnReg_dstacks (n a : Nat) (w : Word) : (s.setFnReg n a w).dstacks = s.dstacks := rfl
@[simp] theorem State.setFnReg_fns (n a : Nat) (w : Word) : (s.setFnReg n a w).fns = s.fns := rfl
@[simp] theorem State.setFnReg_numVfs (n a : Nat) (w : Word) : (s.setFnReg n a w).numVfs = s.numVfs := rfl
@[simp] theorem State.setFnReg_vfsGone (n a : Nat) (w : Word) : (s.setFnReg n a w).vfsGone = s.vfsGone := rfl
@[simp] theorem State.setFnReg_msOff (n a : Nat) (w : Word) : (s.setFnReg n a w).msOff = s.msOff := rfl
@[simp] theorem State.setFnReg_portReset (n a : Nat) (w : Word) : (s.setFnReg n a w).portReset = s.portReset := rfl
@[simp] theorem State.setFnReg_rings (n a : Nat) (w : Word) : (s.setFnReg n a w).rings = s.rings := rfl
@[simp] theorem State.setFnReg_msixOpen (n a : Nat) (w : Word) : (s.setFnReg n a w).msixOpen = s.msixOpen := rfl
@[simp] theorem State.setFnReg_msixPend (n a : Nat) (w : Word) : (s.setFnReg n a w).msixPend = s.msixPend := rfl
@[simp] theorem State.setFnReg_jobs (n a : Nat) (w : Word) : (s.setFnReg n a w).jobs = s.jobs := rfl
@[simp] theorem State.setFnReg_ports (n a : Nat) (w : Word) : (s.setFnReg n a w).ports = s.ports := rfl
@[simp] theorem State.setFnReg_engines (n a : Nat) (w : Word) : (s.setFnReg n a w).engines = s.engines := rfl
@[simp] theorem State.setFnReg_streams (n a : Nat) (w : Word) : (s.setFnReg n a w).streams = s.streams := rfl
@[simp] theorem State.setFnReg_opens (n a : Nat) (w : Word) : (s.setFnReg n a w).opens = s.opens := rfl
@[simp] theorem State.setFnReg_pair (n a : Nat) (w : Word) : (s.setFnReg n a w).pair = s.pair := rfl
@[simp] theorem State.setFnReg_power (n a : Nat) (w : Word) : (s.setFnReg n a w).power = s.power := rfl
@[simp] theorem State.setFnReg_clock (n a : Nat) (w : Word) : (s.setFnReg n a w).clock = s.clock := rfl
@[simp] theorem State.setFnReg_toll (n a : Nat) (w : Word) : (s.setFnReg n a w).toll = s.toll := rfl
@[simp] theorem State.setFnReg_bru (n a : Nat) (w : Word) : (s.setFnReg n a w).bru = s.bru := rfl
@[simp] theorem State.setFnReg_dies (n a : Nat) (w : Word) : (s.setFnReg n a w).dies = s.dies := rfl
@[simp] theorem State.setFnReg_outOf (n a : Nat) (w : Word) : (s.setFnReg n a w).outOf = s.outOf := rfl
@[simp] theorem State.setFnReg_ev (n a : Nat) (w : Word) : (s.setFnReg n a w).ev = s.ev := rfl
@[simp] theorem State.setFnReg_flash (n a : Nat) (w : Word) : (s.setFnReg n a w).flash = s.flash := rfl
@[simp] theorem State.setFnReg_man (n a : Nat) (w : Word) : (s.setFnReg n a w).man = s.man := rfl
@[simp] theorem State.setFnReg_way (n a : Nat) (w : Word) : (s.setFnReg n a w).way = s.way := rfl
@[simp] theorem State.setFnReg_mgmt (n a : Nat) (w : Word) : (s.setFnReg n a w).mgmt = s.mgmt := rfl
@[simp] theorem State.setFnReg_jtag (n a : Nat) (w : Word) : (s.setFnReg n a w).jtag = s.jtag := rfl
@[simp] theorem State.setFnReg_dbgFn (n a : Nat) (w : Word) : (s.setFnReg n a w).dbgFn = s.dbgFn := rfl
@[simp] theorem State.setFnReg_transitIn (n a : Nat) (w : Word) : (s.setFnReg n a w).transitIn = s.transitIn := rfl
@[simp] theorem State.setFnReg_pollDue (n a : Nat) (w : Word) : (s.setFnReg n a w).pollDue = s.pollDue := rfl
@[simp] theorem State.setFnReg_fabViews (n a : Nat) (w : Word) : (s.setFnReg n a w).fabViews = s.fabViews := rfl
@[simp] theorem State.setFnReg_dbgView (n a : Nat) (w : Word) : (s.setFnReg n a w).dbgView = s.dbgView := rfl
@[simp] theorem State.setFnReg_clusterAt (n a : Nat) (w : Word) (i : Nat) : (s.setFnReg n a w).cluster i = s.cluster i := rfl
@[simp] theorem State.setFnReg_xunitAt (n a : Nat) (w : Word) (i : Nat) : (s.setFnReg n a w).xunit i = s.xunit i := rfl
@[simp] theorem State.setFnReg_stripAt (n a : Nat) (w : Word) (i : Nat) : (s.setFnReg n a w).strip i = s.strip i := rfl
@[simp] theorem State.setFnReg_stackAt (n a : Nat) (w : Word) (i : Nat) : (s.setFnReg n a w).stack i = s.stack i := rfl
@[simp] theorem State.setFnReg_fnAt (n a : Nat) (w : Word) (i : Nat) : (s.setFnReg n a w).fn i = s.fn i := rfl
@[simp] theorem State.setFnReg_ringAt (n a : Nat) (w : Word) (i : Nat) : (s.setFnReg n a w).ring i = s.ring i := rfl
@[simp] theorem State.setFnReg_jobAt (n a : Nat) (w : Word) (i : Nat) : (s.setFnReg n a w).job i = s.job i := rfl
@[simp] theorem State.setFnReg_portAt (n a : Nat) (w : Word) (i : Nat) : (s.setFnReg n a w).port i = s.port i := rfl
@[simp] theorem State.setFnReg_engineAt (n a : Nat) (w : Word) (i : Nat) : (s.setFnReg n a w).engine i = s.engine i := rfl
@[simp] theorem State.setFnReg_streamAt (n a : Nat) (w : Word) (i : Nat) : (s.setFnReg n a w).stream i = s.stream i := rfl
@[simp] theorem State.setFnReg_dieAt (n a : Nat) (w : Word) (i : Nat) : (s.setFnReg n a w).die i = s.die i := rfl

/-! ### setReg -/

@[simp] theorem State.setReg_pending (a : Nat) (w : Word) : (s.setReg a w).pending = s.pending := rfl
@[simp] theorem State.setReg_ms (a : Nat) (w : Word) : (s.setReg a w).ms = s.ms := rfl
@[simp] theorem State.setReg_up (a : Nat) (w : Word) : (s.setReg a w).up = s.up := rfl
@[simp] theorem State.setReg_freeCtr (a : Nat) (w : Word) : (s.setReg a w).freeCtr = s.freeCtr := rfl
@[simp] theorem State.setReg_sent (a : Nat) (w : Word) : (s.setReg a w).sent = s.sent := rfl
@[simp] theorem State.setReg_hostMem (a : Nat) (w : Word) : (s.setReg a w).hostMem = s.hostMem := rfl
@[simp] theorem State.setReg_shadow (a : Nat) (w : Word) : (s.setReg a w).shadow = s.shadow := rfl
@[simp] theorem State.setReg_clusters (a : Nat) (w : Word) : (s.setReg a w).clusters = s.clusters := rfl
@[simp] theorem State.setReg_xunits (a : Nat) (w : Word) : (s.setReg a w).xunits = s.xunits := rfl
@[simp] theorem State.setReg_flights (a : Nat) (w : Word) : (s.setReg a w).flights = s.flights := rfl
@[simp] theorem State.setReg_strips (a : Nat) (w : Word) : (s.setReg a w).strips = s.strips := rfl
@[simp] theorem State.setReg_transit (a : Nat) (w : Word) : (s.setReg a w).transit = s.transit := rfl
@[simp] theorem State.setReg_chsMem (a : Nat) (w : Word) : (s.setReg a w).chsMem = s.chsMem := rfl
@[simp] theorem State.setReg_poisoned (a : Nat) (w : Word) : (s.setReg a w).poisoned = s.poisoned := rfl
@[simp] theorem State.setReg_symErr (a : Nat) (w : Word) : (s.setReg a w).symErr = s.symErr := rfl
@[simp] theorem State.setReg_dstacks (a : Nat) (w : Word) : (s.setReg a w).dstacks = s.dstacks := rfl
@[simp] theorem State.setReg_fns (a : Nat) (w : Word) : (s.setReg a w).fns = s.fns := rfl
@[simp] theorem State.setReg_numVfs (a : Nat) (w : Word) : (s.setReg a w).numVfs = s.numVfs := rfl
@[simp] theorem State.setReg_vfsGone (a : Nat) (w : Word) : (s.setReg a w).vfsGone = s.vfsGone := rfl
@[simp] theorem State.setReg_msOff (a : Nat) (w : Word) : (s.setReg a w).msOff = s.msOff := rfl
@[simp] theorem State.setReg_portReset (a : Nat) (w : Word) : (s.setReg a w).portReset = s.portReset := rfl
@[simp] theorem State.setReg_rings (a : Nat) (w : Word) : (s.setReg a w).rings = s.rings := rfl
@[simp] theorem State.setReg_msixOpen (a : Nat) (w : Word) : (s.setReg a w).msixOpen = s.msixOpen := rfl
@[simp] theorem State.setReg_msixPend (a : Nat) (w : Word) : (s.setReg a w).msixPend = s.msixPend := rfl
@[simp] theorem State.setReg_jobs (a : Nat) (w : Word) : (s.setReg a w).jobs = s.jobs := rfl
@[simp] theorem State.setReg_ports (a : Nat) (w : Word) : (s.setReg a w).ports = s.ports := rfl
@[simp] theorem State.setReg_engines (a : Nat) (w : Word) : (s.setReg a w).engines = s.engines := rfl
@[simp] theorem State.setReg_streams (a : Nat) (w : Word) : (s.setReg a w).streams = s.streams := rfl
@[simp] theorem State.setReg_opens (a : Nat) (w : Word) : (s.setReg a w).opens = s.opens := rfl
@[simp] theorem State.setReg_pair (a : Nat) (w : Word) : (s.setReg a w).pair = s.pair := rfl
@[simp] theorem State.setReg_power (a : Nat) (w : Word) : (s.setReg a w).power = s.power := rfl
@[simp] theorem State.setReg_clock (a : Nat) (w : Word) : (s.setReg a w).clock = s.clock := rfl
@[simp] theorem State.setReg_toll (a : Nat) (w : Word) : (s.setReg a w).toll = s.toll := rfl
@[simp] theorem State.setReg_bru (a : Nat) (w : Word) : (s.setReg a w).bru = s.bru := rfl
@[simp] theorem State.setReg_dies (a : Nat) (w : Word) : (s.setReg a w).dies = s.dies := rfl
@[simp] theorem State.setReg_outOf (a : Nat) (w : Word) : (s.setReg a w).outOf = s.outOf := rfl
@[simp] theorem State.setReg_ev (a : Nat) (w : Word) : (s.setReg a w).ev = s.ev := rfl
@[simp] theorem State.setReg_flash (a : Nat) (w : Word) : (s.setReg a w).flash = s.flash := rfl
@[simp] theorem State.setReg_man (a : Nat) (w : Word) : (s.setReg a w).man = s.man := rfl
@[simp] theorem State.setReg_way (a : Nat) (w : Word) : (s.setReg a w).way = s.way := rfl
@[simp] theorem State.setReg_mgmt (a : Nat) (w : Word) : (s.setReg a w).mgmt = s.mgmt := rfl
@[simp] theorem State.setReg_jtag (a : Nat) (w : Word) : (s.setReg a w).jtag = s.jtag := rfl
@[simp] theorem State.setReg_dbgFn (a : Nat) (w : Word) : (s.setReg a w).dbgFn = s.dbgFn := rfl
@[simp] theorem State.setReg_transitIn (a : Nat) (w : Word) : (s.setReg a w).transitIn = s.transitIn := rfl
@[simp] theorem State.setReg_pollDue (a : Nat) (w : Word) : (s.setReg a w).pollDue = s.pollDue := rfl
@[simp] theorem State.setReg_fabViews (a : Nat) (w : Word) : (s.setReg a w).fabViews = s.fabViews := rfl
@[simp] theorem State.setReg_dbgView (a : Nat) (w : Word) : (s.setReg a w).dbgView = s.dbgView := rfl
@[simp] theorem State.setReg_clusterAt (a : Nat) (w : Word) (i : Nat) : (s.setReg a w).cluster i = s.cluster i := rfl
@[simp] theorem State.setReg_xunitAt (a : Nat) (w : Word) (i : Nat) : (s.setReg a w).xunit i = s.xunit i := rfl
@[simp] theorem State.setReg_stripAt (a : Nat) (w : Word) (i : Nat) : (s.setReg a w).strip i = s.strip i := rfl
@[simp] theorem State.setReg_stackAt (a : Nat) (w : Word) (i : Nat) : (s.setReg a w).stack i = s.stack i := rfl
@[simp] theorem State.setReg_fnAt (a : Nat) (w : Word) (i : Nat) : (s.setReg a w).fn i = s.fn i := rfl
@[simp] theorem State.setReg_ringAt (a : Nat) (w : Word) (i : Nat) : (s.setReg a w).ring i = s.ring i := rfl
@[simp] theorem State.setReg_jobAt (a : Nat) (w : Word) (i : Nat) : (s.setReg a w).job i = s.job i := rfl
@[simp] theorem State.setReg_portAt (a : Nat) (w : Word) (i : Nat) : (s.setReg a w).port i = s.port i := rfl
@[simp] theorem State.setReg_engineAt (a : Nat) (w : Word) (i : Nat) : (s.setReg a w).engine i = s.engine i := rfl
@[simp] theorem State.setReg_streamAt (a : Nat) (w : Word) (i : Nat) : (s.setReg a w).stream i = s.stream i := rfl
@[simp] theorem State.setReg_dieAt (a : Nat) (w : Word) (i : Nat) : (s.setReg a w).die i = s.die i := rfl

/-! ### setFnField -/

@[simp] theorem State.setFnField_pending (n a lo w v : Nat) : (s.setFnField n a lo w v).pending = s.pending := rfl
@[simp] theorem State.setFnField_ms (n a lo w v : Nat) : (s.setFnField n a lo w v).ms = s.ms := rfl
@[simp] theorem State.setFnField_up (n a lo w v : Nat) : (s.setFnField n a lo w v).up = s.up := rfl
@[simp] theorem State.setFnField_freeCtr (n a lo w v : Nat) : (s.setFnField n a lo w v).freeCtr = s.freeCtr := rfl
@[simp] theorem State.setFnField_sent (n a lo w v : Nat) : (s.setFnField n a lo w v).sent = s.sent := rfl
@[simp] theorem State.setFnField_hostMem (n a lo w v : Nat) : (s.setFnField n a lo w v).hostMem = s.hostMem := rfl
@[simp] theorem State.setFnField_shadow (n a lo w v : Nat) : (s.setFnField n a lo w v).shadow = s.shadow := rfl
@[simp] theorem State.setFnField_clusters (n a lo w v : Nat) : (s.setFnField n a lo w v).clusters = s.clusters := rfl
@[simp] theorem State.setFnField_xunits (n a lo w v : Nat) : (s.setFnField n a lo w v).xunits = s.xunits := rfl
@[simp] theorem State.setFnField_flights (n a lo w v : Nat) : (s.setFnField n a lo w v).flights = s.flights := rfl
@[simp] theorem State.setFnField_strips (n a lo w v : Nat) : (s.setFnField n a lo w v).strips = s.strips := rfl
@[simp] theorem State.setFnField_transit (n a lo w v : Nat) : (s.setFnField n a lo w v).transit = s.transit := rfl
@[simp] theorem State.setFnField_chsMem (n a lo w v : Nat) : (s.setFnField n a lo w v).chsMem = s.chsMem := rfl
@[simp] theorem State.setFnField_poisoned (n a lo w v : Nat) : (s.setFnField n a lo w v).poisoned = s.poisoned := rfl
@[simp] theorem State.setFnField_symErr (n a lo w v : Nat) : (s.setFnField n a lo w v).symErr = s.symErr := rfl
@[simp] theorem State.setFnField_dstacks (n a lo w v : Nat) : (s.setFnField n a lo w v).dstacks = s.dstacks := rfl
@[simp] theorem State.setFnField_fns (n a lo w v : Nat) : (s.setFnField n a lo w v).fns = s.fns := rfl
@[simp] theorem State.setFnField_numVfs (n a lo w v : Nat) : (s.setFnField n a lo w v).numVfs = s.numVfs := rfl
@[simp] theorem State.setFnField_vfsGone (n a lo w v : Nat) : (s.setFnField n a lo w v).vfsGone = s.vfsGone := rfl
@[simp] theorem State.setFnField_msOff (n a lo w v : Nat) : (s.setFnField n a lo w v).msOff = s.msOff := rfl
@[simp] theorem State.setFnField_portReset (n a lo w v : Nat) : (s.setFnField n a lo w v).portReset = s.portReset := rfl
@[simp] theorem State.setFnField_rings (n a lo w v : Nat) : (s.setFnField n a lo w v).rings = s.rings := rfl
@[simp] theorem State.setFnField_msixOpen (n a lo w v : Nat) : (s.setFnField n a lo w v).msixOpen = s.msixOpen := rfl
@[simp] theorem State.setFnField_msixPend (n a lo w v : Nat) : (s.setFnField n a lo w v).msixPend = s.msixPend := rfl
@[simp] theorem State.setFnField_jobs (n a lo w v : Nat) : (s.setFnField n a lo w v).jobs = s.jobs := rfl
@[simp] theorem State.setFnField_ports (n a lo w v : Nat) : (s.setFnField n a lo w v).ports = s.ports := rfl
@[simp] theorem State.setFnField_engines (n a lo w v : Nat) : (s.setFnField n a lo w v).engines = s.engines := rfl
@[simp] theorem State.setFnField_streams (n a lo w v : Nat) : (s.setFnField n a lo w v).streams = s.streams := rfl
@[simp] theorem State.setFnField_opens (n a lo w v : Nat) : (s.setFnField n a lo w v).opens = s.opens := rfl
@[simp] theorem State.setFnField_pair (n a lo w v : Nat) : (s.setFnField n a lo w v).pair = s.pair := rfl
@[simp] theorem State.setFnField_power (n a lo w v : Nat) : (s.setFnField n a lo w v).power = s.power := rfl
@[simp] theorem State.setFnField_clock (n a lo w v : Nat) : (s.setFnField n a lo w v).clock = s.clock := rfl
@[simp] theorem State.setFnField_toll (n a lo w v : Nat) : (s.setFnField n a lo w v).toll = s.toll := rfl
@[simp] theorem State.setFnField_bru (n a lo w v : Nat) : (s.setFnField n a lo w v).bru = s.bru := rfl
@[simp] theorem State.setFnField_dies (n a lo w v : Nat) : (s.setFnField n a lo w v).dies = s.dies := rfl
@[simp] theorem State.setFnField_outOf (n a lo w v : Nat) : (s.setFnField n a lo w v).outOf = s.outOf := rfl
@[simp] theorem State.setFnField_ev (n a lo w v : Nat) : (s.setFnField n a lo w v).ev = s.ev := rfl
@[simp] theorem State.setFnField_flash (n a lo w v : Nat) : (s.setFnField n a lo w v).flash = s.flash := rfl
@[simp] theorem State.setFnField_man (n a lo w v : Nat) : (s.setFnField n a lo w v).man = s.man := rfl
@[simp] theorem State.setFnField_way (n a lo w v : Nat) : (s.setFnField n a lo w v).way = s.way := rfl
@[simp] theorem State.setFnField_mgmt (n a lo w v : Nat) : (s.setFnField n a lo w v).mgmt = s.mgmt := rfl
@[simp] theorem State.setFnField_jtag (n a lo w v : Nat) : (s.setFnField n a lo w v).jtag = s.jtag := rfl
@[simp] theorem State.setFnField_dbgFn (n a lo w v : Nat) : (s.setFnField n a lo w v).dbgFn = s.dbgFn := rfl
@[simp] theorem State.setFnField_transitIn (n a lo w v : Nat) : (s.setFnField n a lo w v).transitIn = s.transitIn := rfl
@[simp] theorem State.setFnField_pollDue (n a lo w v : Nat) : (s.setFnField n a lo w v).pollDue = s.pollDue := rfl
@[simp] theorem State.setFnField_fabViews (n a lo w v : Nat) : (s.setFnField n a lo w v).fabViews = s.fabViews := rfl
@[simp] theorem State.setFnField_dbgView (n a lo w v : Nat) : (s.setFnField n a lo w v).dbgView = s.dbgView := rfl
@[simp] theorem State.setFnField_clusterAt (n a lo w v : Nat) (i : Nat) : (s.setFnField n a lo w v).cluster i = s.cluster i := rfl
@[simp] theorem State.setFnField_xunitAt (n a lo w v : Nat) (i : Nat) : (s.setFnField n a lo w v).xunit i = s.xunit i := rfl
@[simp] theorem State.setFnField_stripAt (n a lo w v : Nat) (i : Nat) : (s.setFnField n a lo w v).strip i = s.strip i := rfl
@[simp] theorem State.setFnField_stackAt (n a lo w v : Nat) (i : Nat) : (s.setFnField n a lo w v).stack i = s.stack i := rfl
@[simp] theorem State.setFnField_fnAt (n a lo w v : Nat) (i : Nat) : (s.setFnField n a lo w v).fn i = s.fn i := rfl
@[simp] theorem State.setFnField_ringAt (n a lo w v : Nat) (i : Nat) : (s.setFnField n a lo w v).ring i = s.ring i := rfl
@[simp] theorem State.setFnField_jobAt (n a lo w v : Nat) (i : Nat) : (s.setFnField n a lo w v).job i = s.job i := rfl
@[simp] theorem State.setFnField_portAt (n a lo w v : Nat) (i : Nat) : (s.setFnField n a lo w v).port i = s.port i := rfl
@[simp] theorem State.setFnField_engineAt (n a lo w v : Nat) (i : Nat) : (s.setFnField n a lo w v).engine i = s.engine i := rfl
@[simp] theorem State.setFnField_streamAt (n a lo w v : Nat) (i : Nat) : (s.setFnField n a lo w v).stream i = s.stream i := rfl
@[simp] theorem State.setFnField_dieAt (n a lo w v : Nat) (i : Nat) : (s.setFnField n a lo w v).die i = s.die i := rfl

/-! ### setField -/

@[simp] theorem State.setField_pending (a lo w v : Nat) : (s.setField a lo w v).pending = s.pending := rfl
@[simp] theorem State.setField_ms (a lo w v : Nat) : (s.setField a lo w v).ms = s.ms := rfl
@[simp] theorem State.setField_up (a lo w v : Nat) : (s.setField a lo w v).up = s.up := rfl
@[simp] theorem State.setField_freeCtr (a lo w v : Nat) : (s.setField a lo w v).freeCtr = s.freeCtr := rfl
@[simp] theorem State.setField_sent (a lo w v : Nat) : (s.setField a lo w v).sent = s.sent := rfl
@[simp] theorem State.setField_hostMem (a lo w v : Nat) : (s.setField a lo w v).hostMem = s.hostMem := rfl
@[simp] theorem State.setField_shadow (a lo w v : Nat) : (s.setField a lo w v).shadow = s.shadow := rfl
@[simp] theorem State.setField_clusters (a lo w v : Nat) : (s.setField a lo w v).clusters = s.clusters := rfl
@[simp] theorem State.setField_xunits (a lo w v : Nat) : (s.setField a lo w v).xunits = s.xunits := rfl
@[simp] theorem State.setField_flights (a lo w v : Nat) : (s.setField a lo w v).flights = s.flights := rfl
@[simp] theorem State.setField_strips (a lo w v : Nat) : (s.setField a lo w v).strips = s.strips := rfl
@[simp] theorem State.setField_transit (a lo w v : Nat) : (s.setField a lo w v).transit = s.transit := rfl
@[simp] theorem State.setField_chsMem (a lo w v : Nat) : (s.setField a lo w v).chsMem = s.chsMem := rfl
@[simp] theorem State.setField_poisoned (a lo w v : Nat) : (s.setField a lo w v).poisoned = s.poisoned := rfl
@[simp] theorem State.setField_symErr (a lo w v : Nat) : (s.setField a lo w v).symErr = s.symErr := rfl
@[simp] theorem State.setField_dstacks (a lo w v : Nat) : (s.setField a lo w v).dstacks = s.dstacks := rfl
@[simp] theorem State.setField_fns (a lo w v : Nat) : (s.setField a lo w v).fns = s.fns := rfl
@[simp] theorem State.setField_numVfs (a lo w v : Nat) : (s.setField a lo w v).numVfs = s.numVfs := rfl
@[simp] theorem State.setField_vfsGone (a lo w v : Nat) : (s.setField a lo w v).vfsGone = s.vfsGone := rfl
@[simp] theorem State.setField_msOff (a lo w v : Nat) : (s.setField a lo w v).msOff = s.msOff := rfl
@[simp] theorem State.setField_portReset (a lo w v : Nat) : (s.setField a lo w v).portReset = s.portReset := rfl
@[simp] theorem State.setField_rings (a lo w v : Nat) : (s.setField a lo w v).rings = s.rings := rfl
@[simp] theorem State.setField_msixOpen (a lo w v : Nat) : (s.setField a lo w v).msixOpen = s.msixOpen := rfl
@[simp] theorem State.setField_msixPend (a lo w v : Nat) : (s.setField a lo w v).msixPend = s.msixPend := rfl
@[simp] theorem State.setField_jobs (a lo w v : Nat) : (s.setField a lo w v).jobs = s.jobs := rfl
@[simp] theorem State.setField_ports (a lo w v : Nat) : (s.setField a lo w v).ports = s.ports := rfl
@[simp] theorem State.setField_engines (a lo w v : Nat) : (s.setField a lo w v).engines = s.engines := rfl
@[simp] theorem State.setField_streams (a lo w v : Nat) : (s.setField a lo w v).streams = s.streams := rfl
@[simp] theorem State.setField_opens (a lo w v : Nat) : (s.setField a lo w v).opens = s.opens := rfl
@[simp] theorem State.setField_pair (a lo w v : Nat) : (s.setField a lo w v).pair = s.pair := rfl
@[simp] theorem State.setField_power (a lo w v : Nat) : (s.setField a lo w v).power = s.power := rfl
@[simp] theorem State.setField_clock (a lo w v : Nat) : (s.setField a lo w v).clock = s.clock := rfl
@[simp] theorem State.setField_toll (a lo w v : Nat) : (s.setField a lo w v).toll = s.toll := rfl
@[simp] theorem State.setField_bru (a lo w v : Nat) : (s.setField a lo w v).bru = s.bru := rfl
@[simp] theorem State.setField_dies (a lo w v : Nat) : (s.setField a lo w v).dies = s.dies := rfl
@[simp] theorem State.setField_outOf (a lo w v : Nat) : (s.setField a lo w v).outOf = s.outOf := rfl
@[simp] theorem State.setField_ev (a lo w v : Nat) : (s.setField a lo w v).ev = s.ev := rfl
@[simp] theorem State.setField_flash (a lo w v : Nat) : (s.setField a lo w v).flash = s.flash := rfl
@[simp] theorem State.setField_man (a lo w v : Nat) : (s.setField a lo w v).man = s.man := rfl
@[simp] theorem State.setField_way (a lo w v : Nat) : (s.setField a lo w v).way = s.way := rfl
@[simp] theorem State.setField_mgmt (a lo w v : Nat) : (s.setField a lo w v).mgmt = s.mgmt := rfl
@[simp] theorem State.setField_jtag (a lo w v : Nat) : (s.setField a lo w v).jtag = s.jtag := rfl
@[simp] theorem State.setField_dbgFn (a lo w v : Nat) : (s.setField a lo w v).dbgFn = s.dbgFn := rfl
@[simp] theorem State.setField_transitIn (a lo w v : Nat) : (s.setField a lo w v).transitIn = s.transitIn := rfl
@[simp] theorem State.setField_pollDue (a lo w v : Nat) : (s.setField a lo w v).pollDue = s.pollDue := rfl
@[simp] theorem State.setField_fabViews (a lo w v : Nat) : (s.setField a lo w v).fabViews = s.fabViews := rfl
@[simp] theorem State.setField_dbgView (a lo w v : Nat) : (s.setField a lo w v).dbgView = s.dbgView := rfl
@[simp] theorem State.setField_clusterAt (a lo w v : Nat) (i : Nat) : (s.setField a lo w v).cluster i = s.cluster i := rfl
@[simp] theorem State.setField_xunitAt (a lo w v : Nat) (i : Nat) : (s.setField a lo w v).xunit i = s.xunit i := rfl
@[simp] theorem State.setField_stripAt (a lo w v : Nat) (i : Nat) : (s.setField a lo w v).strip i = s.strip i := rfl
@[simp] theorem State.setField_stackAt (a lo w v : Nat) (i : Nat) : (s.setField a lo w v).stack i = s.stack i := rfl
@[simp] theorem State.setField_fnAt (a lo w v : Nat) (i : Nat) : (s.setField a lo w v).fn i = s.fn i := rfl
@[simp] theorem State.setField_ringAt (a lo w v : Nat) (i : Nat) : (s.setField a lo w v).ring i = s.ring i := rfl
@[simp] theorem State.setField_jobAt (a lo w v : Nat) (i : Nat) : (s.setField a lo w v).job i = s.job i := rfl
@[simp] theorem State.setField_portAt (a lo w v : Nat) (i : Nat) : (s.setField a lo w v).port i = s.port i := rfl
@[simp] theorem State.setField_engineAt (a lo w v : Nat) (i : Nat) : (s.setField a lo w v).engine i = s.engine i := rfl
@[simp] theorem State.setField_streamAt (a lo w v : Nat) (i : Nat) : (s.setField a lo w v).stream i = s.stream i := rfl
@[simp] theorem State.setField_dieAt (a lo w v : Nat) (i : Nat) : (s.setField a lo w v).die i = s.die i := rfl

/-! ### fnBump -/

@[simp] theorem State.fnBump_pending (n a lo w v : Nat) : (s.fnBump n a lo w v).pending = s.pending := rfl
@[simp] theorem State.fnBump_ms (n a lo w v : Nat) : (s.fnBump n a lo w v).ms = s.ms := rfl
@[simp] theorem State.fnBump_up (n a lo w v : Nat) : (s.fnBump n a lo w v).up = s.up := rfl
@[simp] theorem State.fnBump_freeCtr (n a lo w v : Nat) : (s.fnBump n a lo w v).freeCtr = s.freeCtr := rfl
@[simp] theorem State.fnBump_sent (n a lo w v : Nat) : (s.fnBump n a lo w v).sent = s.sent := rfl
@[simp] theorem State.fnBump_hostMem (n a lo w v : Nat) : (s.fnBump n a lo w v).hostMem = s.hostMem := rfl
@[simp] theorem State.fnBump_shadow (n a lo w v : Nat) : (s.fnBump n a lo w v).shadow = s.shadow := rfl
@[simp] theorem State.fnBump_clusters (n a lo w v : Nat) : (s.fnBump n a lo w v).clusters = s.clusters := rfl
@[simp] theorem State.fnBump_xunits (n a lo w v : Nat) : (s.fnBump n a lo w v).xunits = s.xunits := rfl
@[simp] theorem State.fnBump_flights (n a lo w v : Nat) : (s.fnBump n a lo w v).flights = s.flights := rfl
@[simp] theorem State.fnBump_strips (n a lo w v : Nat) : (s.fnBump n a lo w v).strips = s.strips := rfl
@[simp] theorem State.fnBump_transit (n a lo w v : Nat) : (s.fnBump n a lo w v).transit = s.transit := rfl
@[simp] theorem State.fnBump_chsMem (n a lo w v : Nat) : (s.fnBump n a lo w v).chsMem = s.chsMem := rfl
@[simp] theorem State.fnBump_poisoned (n a lo w v : Nat) : (s.fnBump n a lo w v).poisoned = s.poisoned := rfl
@[simp] theorem State.fnBump_symErr (n a lo w v : Nat) : (s.fnBump n a lo w v).symErr = s.symErr := rfl
@[simp] theorem State.fnBump_dstacks (n a lo w v : Nat) : (s.fnBump n a lo w v).dstacks = s.dstacks := rfl
@[simp] theorem State.fnBump_fns (n a lo w v : Nat) : (s.fnBump n a lo w v).fns = s.fns := rfl
@[simp] theorem State.fnBump_numVfs (n a lo w v : Nat) : (s.fnBump n a lo w v).numVfs = s.numVfs := rfl
@[simp] theorem State.fnBump_vfsGone (n a lo w v : Nat) : (s.fnBump n a lo w v).vfsGone = s.vfsGone := rfl
@[simp] theorem State.fnBump_msOff (n a lo w v : Nat) : (s.fnBump n a lo w v).msOff = s.msOff := rfl
@[simp] theorem State.fnBump_portReset (n a lo w v : Nat) : (s.fnBump n a lo w v).portReset = s.portReset := rfl
@[simp] theorem State.fnBump_rings (n a lo w v : Nat) : (s.fnBump n a lo w v).rings = s.rings := rfl
@[simp] theorem State.fnBump_msixOpen (n a lo w v : Nat) : (s.fnBump n a lo w v).msixOpen = s.msixOpen := rfl
@[simp] theorem State.fnBump_msixPend (n a lo w v : Nat) : (s.fnBump n a lo w v).msixPend = s.msixPend := rfl
@[simp] theorem State.fnBump_jobs (n a lo w v : Nat) : (s.fnBump n a lo w v).jobs = s.jobs := rfl
@[simp] theorem State.fnBump_ports (n a lo w v : Nat) : (s.fnBump n a lo w v).ports = s.ports := rfl
@[simp] theorem State.fnBump_engines (n a lo w v : Nat) : (s.fnBump n a lo w v).engines = s.engines := rfl
@[simp] theorem State.fnBump_streams (n a lo w v : Nat) : (s.fnBump n a lo w v).streams = s.streams := rfl
@[simp] theorem State.fnBump_opens (n a lo w v : Nat) : (s.fnBump n a lo w v).opens = s.opens := rfl
@[simp] theorem State.fnBump_pair (n a lo w v : Nat) : (s.fnBump n a lo w v).pair = s.pair := rfl
@[simp] theorem State.fnBump_power (n a lo w v : Nat) : (s.fnBump n a lo w v).power = s.power := rfl
@[simp] theorem State.fnBump_clock (n a lo w v : Nat) : (s.fnBump n a lo w v).clock = s.clock := rfl
@[simp] theorem State.fnBump_toll (n a lo w v : Nat) : (s.fnBump n a lo w v).toll = s.toll := rfl
@[simp] theorem State.fnBump_bru (n a lo w v : Nat) : (s.fnBump n a lo w v).bru = s.bru := rfl
@[simp] theorem State.fnBump_dies (n a lo w v : Nat) : (s.fnBump n a lo w v).dies = s.dies := rfl
@[simp] theorem State.fnBump_outOf (n a lo w v : Nat) : (s.fnBump n a lo w v).outOf = s.outOf := rfl
@[simp] theorem State.fnBump_ev (n a lo w v : Nat) : (s.fnBump n a lo w v).ev = s.ev := rfl
@[simp] theorem State.fnBump_flash (n a lo w v : Nat) : (s.fnBump n a lo w v).flash = s.flash := rfl
@[simp] theorem State.fnBump_man (n a lo w v : Nat) : (s.fnBump n a lo w v).man = s.man := rfl
@[simp] theorem State.fnBump_way (n a lo w v : Nat) : (s.fnBump n a lo w v).way = s.way := rfl
@[simp] theorem State.fnBump_mgmt (n a lo w v : Nat) : (s.fnBump n a lo w v).mgmt = s.mgmt := rfl
@[simp] theorem State.fnBump_jtag (n a lo w v : Nat) : (s.fnBump n a lo w v).jtag = s.jtag := rfl
@[simp] theorem State.fnBump_dbgFn (n a lo w v : Nat) : (s.fnBump n a lo w v).dbgFn = s.dbgFn := rfl
@[simp] theorem State.fnBump_transitIn (n a lo w v : Nat) : (s.fnBump n a lo w v).transitIn = s.transitIn := rfl
@[simp] theorem State.fnBump_pollDue (n a lo w v : Nat) : (s.fnBump n a lo w v).pollDue = s.pollDue := rfl
@[simp] theorem State.fnBump_fabViews (n a lo w v : Nat) : (s.fnBump n a lo w v).fabViews = s.fabViews := rfl
@[simp] theorem State.fnBump_dbgView (n a lo w v : Nat) : (s.fnBump n a lo w v).dbgView = s.dbgView := rfl
@[simp] theorem State.fnBump_clusterAt (n a lo w v : Nat) (i : Nat) : (s.fnBump n a lo w v).cluster i = s.cluster i := rfl
@[simp] theorem State.fnBump_xunitAt (n a lo w v : Nat) (i : Nat) : (s.fnBump n a lo w v).xunit i = s.xunit i := rfl
@[simp] theorem State.fnBump_stripAt (n a lo w v : Nat) (i : Nat) : (s.fnBump n a lo w v).strip i = s.strip i := rfl
@[simp] theorem State.fnBump_stackAt (n a lo w v : Nat) (i : Nat) : (s.fnBump n a lo w v).stack i = s.stack i := rfl
@[simp] theorem State.fnBump_fnAt (n a lo w v : Nat) (i : Nat) : (s.fnBump n a lo w v).fn i = s.fn i := rfl
@[simp] theorem State.fnBump_ringAt (n a lo w v : Nat) (i : Nat) : (s.fnBump n a lo w v).ring i = s.ring i := rfl
@[simp] theorem State.fnBump_jobAt (n a lo w v : Nat) (i : Nat) : (s.fnBump n a lo w v).job i = s.job i := rfl
@[simp] theorem State.fnBump_portAt (n a lo w v : Nat) (i : Nat) : (s.fnBump n a lo w v).port i = s.port i := rfl
@[simp] theorem State.fnBump_engineAt (n a lo w v : Nat) (i : Nat) : (s.fnBump n a lo w v).engine i = s.engine i := rfl
@[simp] theorem State.fnBump_streamAt (n a lo w v : Nat) (i : Nat) : (s.fnBump n a lo w v).stream i = s.stream i := rfl
@[simp] theorem State.fnBump_dieAt (n a lo w v : Nat) (i : Nat) : (s.fnBump n a lo w v).die i = s.die i := rfl

/-! ### bump -/

@[simp] theorem State.bump_pending (a lo w v : Nat) : (s.bump a lo w v).pending = s.pending := rfl
@[simp] theorem State.bump_ms (a lo w v : Nat) : (s.bump a lo w v).ms = s.ms := rfl
@[simp] theorem State.bump_up (a lo w v : Nat) : (s.bump a lo w v).up = s.up := rfl
@[simp] theorem State.bump_freeCtr (a lo w v : Nat) : (s.bump a lo w v).freeCtr = s.freeCtr := rfl
@[simp] theorem State.bump_sent (a lo w v : Nat) : (s.bump a lo w v).sent = s.sent := rfl
@[simp] theorem State.bump_hostMem (a lo w v : Nat) : (s.bump a lo w v).hostMem = s.hostMem := rfl
@[simp] theorem State.bump_shadow (a lo w v : Nat) : (s.bump a lo w v).shadow = s.shadow := rfl
@[simp] theorem State.bump_clusters (a lo w v : Nat) : (s.bump a lo w v).clusters = s.clusters := rfl
@[simp] theorem State.bump_xunits (a lo w v : Nat) : (s.bump a lo w v).xunits = s.xunits := rfl
@[simp] theorem State.bump_flights (a lo w v : Nat) : (s.bump a lo w v).flights = s.flights := rfl
@[simp] theorem State.bump_strips (a lo w v : Nat) : (s.bump a lo w v).strips = s.strips := rfl
@[simp] theorem State.bump_transit (a lo w v : Nat) : (s.bump a lo w v).transit = s.transit := rfl
@[simp] theorem State.bump_chsMem (a lo w v : Nat) : (s.bump a lo w v).chsMem = s.chsMem := rfl
@[simp] theorem State.bump_poisoned (a lo w v : Nat) : (s.bump a lo w v).poisoned = s.poisoned := rfl
@[simp] theorem State.bump_symErr (a lo w v : Nat) : (s.bump a lo w v).symErr = s.symErr := rfl
@[simp] theorem State.bump_dstacks (a lo w v : Nat) : (s.bump a lo w v).dstacks = s.dstacks := rfl
@[simp] theorem State.bump_fns (a lo w v : Nat) : (s.bump a lo w v).fns = s.fns := rfl
@[simp] theorem State.bump_numVfs (a lo w v : Nat) : (s.bump a lo w v).numVfs = s.numVfs := rfl
@[simp] theorem State.bump_vfsGone (a lo w v : Nat) : (s.bump a lo w v).vfsGone = s.vfsGone := rfl
@[simp] theorem State.bump_msOff (a lo w v : Nat) : (s.bump a lo w v).msOff = s.msOff := rfl
@[simp] theorem State.bump_portReset (a lo w v : Nat) : (s.bump a lo w v).portReset = s.portReset := rfl
@[simp] theorem State.bump_rings (a lo w v : Nat) : (s.bump a lo w v).rings = s.rings := rfl
@[simp] theorem State.bump_msixOpen (a lo w v : Nat) : (s.bump a lo w v).msixOpen = s.msixOpen := rfl
@[simp] theorem State.bump_msixPend (a lo w v : Nat) : (s.bump a lo w v).msixPend = s.msixPend := rfl
@[simp] theorem State.bump_jobs (a lo w v : Nat) : (s.bump a lo w v).jobs = s.jobs := rfl
@[simp] theorem State.bump_ports (a lo w v : Nat) : (s.bump a lo w v).ports = s.ports := rfl
@[simp] theorem State.bump_engines (a lo w v : Nat) : (s.bump a lo w v).engines = s.engines := rfl
@[simp] theorem State.bump_streams (a lo w v : Nat) : (s.bump a lo w v).streams = s.streams := rfl
@[simp] theorem State.bump_opens (a lo w v : Nat) : (s.bump a lo w v).opens = s.opens := rfl
@[simp] theorem State.bump_pair (a lo w v : Nat) : (s.bump a lo w v).pair = s.pair := rfl
@[simp] theorem State.bump_power (a lo w v : Nat) : (s.bump a lo w v).power = s.power := rfl
@[simp] theorem State.bump_clock (a lo w v : Nat) : (s.bump a lo w v).clock = s.clock := rfl
@[simp] theorem State.bump_toll (a lo w v : Nat) : (s.bump a lo w v).toll = s.toll := rfl
@[simp] theorem State.bump_bru (a lo w v : Nat) : (s.bump a lo w v).bru = s.bru := rfl
@[simp] theorem State.bump_dies (a lo w v : Nat) : (s.bump a lo w v).dies = s.dies := rfl
@[simp] theorem State.bump_outOf (a lo w v : Nat) : (s.bump a lo w v).outOf = s.outOf := rfl
@[simp] theorem State.bump_ev (a lo w v : Nat) : (s.bump a lo w v).ev = s.ev := rfl
@[simp] theorem State.bump_flash (a lo w v : Nat) : (s.bump a lo w v).flash = s.flash := rfl
@[simp] theorem State.bump_man (a lo w v : Nat) : (s.bump a lo w v).man = s.man := rfl
@[simp] theorem State.bump_way (a lo w v : Nat) : (s.bump a lo w v).way = s.way := rfl
@[simp] theorem State.bump_mgmt (a lo w v : Nat) : (s.bump a lo w v).mgmt = s.mgmt := rfl
@[simp] theorem State.bump_jtag (a lo w v : Nat) : (s.bump a lo w v).jtag = s.jtag := rfl
@[simp] theorem State.bump_dbgFn (a lo w v : Nat) : (s.bump a lo w v).dbgFn = s.dbgFn := rfl
@[simp] theorem State.bump_transitIn (a lo w v : Nat) : (s.bump a lo w v).transitIn = s.transitIn := rfl
@[simp] theorem State.bump_pollDue (a lo w v : Nat) : (s.bump a lo w v).pollDue = s.pollDue := rfl
@[simp] theorem State.bump_fabViews (a lo w v : Nat) : (s.bump a lo w v).fabViews = s.fabViews := rfl
@[simp] theorem State.bump_dbgView (a lo w v : Nat) : (s.bump a lo w v).dbgView = s.dbgView := rfl
@[simp] theorem State.bump_clusterAt (a lo w v : Nat) (i : Nat) : (s.bump a lo w v).cluster i = s.cluster i := rfl
@[simp] theorem State.bump_xunitAt (a lo w v : Nat) (i : Nat) : (s.bump a lo w v).xunit i = s.xunit i := rfl
@[simp] theorem State.bump_stripAt (a lo w v : Nat) (i : Nat) : (s.bump a lo w v).strip i = s.strip i := rfl
@[simp] theorem State.bump_stackAt (a lo w v : Nat) (i : Nat) : (s.bump a lo w v).stack i = s.stack i := rfl
@[simp] theorem State.bump_fnAt (a lo w v : Nat) (i : Nat) : (s.bump a lo w v).fn i = s.fn i := rfl
@[simp] theorem State.bump_ringAt (a lo w v : Nat) (i : Nat) : (s.bump a lo w v).ring i = s.ring i := rfl
@[simp] theorem State.bump_jobAt (a lo w v : Nat) (i : Nat) : (s.bump a lo w v).job i = s.job i := rfl
@[simp] theorem State.bump_portAt (a lo w v : Nat) (i : Nat) : (s.bump a lo w v).port i = s.port i := rfl
@[simp] theorem State.bump_engineAt (a lo w v : Nat) (i : Nat) : (s.bump a lo w v).engine i = s.engine i := rfl
@[simp] theorem State.bump_streamAt (a lo w v : Nat) (i : Nat) : (s.bump a lo w v).stream i = s.stream i := rfl
@[simp] theorem State.bump_dieAt (a lo w v : Nat) (i : Nat) : (s.bump a lo w v).die i = s.die i := rfl

/-! ### setReg64 -/

@[simp] theorem State.setReg64_pending (a v : Nat) : (s.setReg64 a v).pending = s.pending := rfl
@[simp] theorem State.setReg64_ms (a v : Nat) : (s.setReg64 a v).ms = s.ms := rfl
@[simp] theorem State.setReg64_up (a v : Nat) : (s.setReg64 a v).up = s.up := rfl
@[simp] theorem State.setReg64_freeCtr (a v : Nat) : (s.setReg64 a v).freeCtr = s.freeCtr := rfl
@[simp] theorem State.setReg64_sent (a v : Nat) : (s.setReg64 a v).sent = s.sent := rfl
@[simp] theorem State.setReg64_hostMem (a v : Nat) : (s.setReg64 a v).hostMem = s.hostMem := rfl
@[simp] theorem State.setReg64_shadow (a v : Nat) : (s.setReg64 a v).shadow = s.shadow := rfl
@[simp] theorem State.setReg64_clusters (a v : Nat) : (s.setReg64 a v).clusters = s.clusters := rfl
@[simp] theorem State.setReg64_xunits (a v : Nat) : (s.setReg64 a v).xunits = s.xunits := rfl
@[simp] theorem State.setReg64_flights (a v : Nat) : (s.setReg64 a v).flights = s.flights := rfl
@[simp] theorem State.setReg64_strips (a v : Nat) : (s.setReg64 a v).strips = s.strips := rfl
@[simp] theorem State.setReg64_transit (a v : Nat) : (s.setReg64 a v).transit = s.transit := rfl
@[simp] theorem State.setReg64_chsMem (a v : Nat) : (s.setReg64 a v).chsMem = s.chsMem := rfl
@[simp] theorem State.setReg64_poisoned (a v : Nat) : (s.setReg64 a v).poisoned = s.poisoned := rfl
@[simp] theorem State.setReg64_symErr (a v : Nat) : (s.setReg64 a v).symErr = s.symErr := rfl
@[simp] theorem State.setReg64_dstacks (a v : Nat) : (s.setReg64 a v).dstacks = s.dstacks := rfl
@[simp] theorem State.setReg64_fns (a v : Nat) : (s.setReg64 a v).fns = s.fns := rfl
@[simp] theorem State.setReg64_numVfs (a v : Nat) : (s.setReg64 a v).numVfs = s.numVfs := rfl
@[simp] theorem State.setReg64_vfsGone (a v : Nat) : (s.setReg64 a v).vfsGone = s.vfsGone := rfl
@[simp] theorem State.setReg64_msOff (a v : Nat) : (s.setReg64 a v).msOff = s.msOff := rfl
@[simp] theorem State.setReg64_portReset (a v : Nat) : (s.setReg64 a v).portReset = s.portReset := rfl
@[simp] theorem State.setReg64_rings (a v : Nat) : (s.setReg64 a v).rings = s.rings := rfl
@[simp] theorem State.setReg64_msixOpen (a v : Nat) : (s.setReg64 a v).msixOpen = s.msixOpen := rfl
@[simp] theorem State.setReg64_msixPend (a v : Nat) : (s.setReg64 a v).msixPend = s.msixPend := rfl
@[simp] theorem State.setReg64_jobs (a v : Nat) : (s.setReg64 a v).jobs = s.jobs := rfl
@[simp] theorem State.setReg64_ports (a v : Nat) : (s.setReg64 a v).ports = s.ports := rfl
@[simp] theorem State.setReg64_engines (a v : Nat) : (s.setReg64 a v).engines = s.engines := rfl
@[simp] theorem State.setReg64_streams (a v : Nat) : (s.setReg64 a v).streams = s.streams := rfl
@[simp] theorem State.setReg64_opens (a v : Nat) : (s.setReg64 a v).opens = s.opens := rfl
@[simp] theorem State.setReg64_pair (a v : Nat) : (s.setReg64 a v).pair = s.pair := rfl
@[simp] theorem State.setReg64_power (a v : Nat) : (s.setReg64 a v).power = s.power := rfl
@[simp] theorem State.setReg64_clock (a v : Nat) : (s.setReg64 a v).clock = s.clock := rfl
@[simp] theorem State.setReg64_toll (a v : Nat) : (s.setReg64 a v).toll = s.toll := rfl
@[simp] theorem State.setReg64_bru (a v : Nat) : (s.setReg64 a v).bru = s.bru := rfl
@[simp] theorem State.setReg64_dies (a v : Nat) : (s.setReg64 a v).dies = s.dies := rfl
@[simp] theorem State.setReg64_outOf (a v : Nat) : (s.setReg64 a v).outOf = s.outOf := rfl
@[simp] theorem State.setReg64_ev (a v : Nat) : (s.setReg64 a v).ev = s.ev := rfl
@[simp] theorem State.setReg64_flash (a v : Nat) : (s.setReg64 a v).flash = s.flash := rfl
@[simp] theorem State.setReg64_man (a v : Nat) : (s.setReg64 a v).man = s.man := rfl
@[simp] theorem State.setReg64_way (a v : Nat) : (s.setReg64 a v).way = s.way := rfl
@[simp] theorem State.setReg64_mgmt (a v : Nat) : (s.setReg64 a v).mgmt = s.mgmt := rfl
@[simp] theorem State.setReg64_jtag (a v : Nat) : (s.setReg64 a v).jtag = s.jtag := rfl
@[simp] theorem State.setReg64_dbgFn (a v : Nat) : (s.setReg64 a v).dbgFn = s.dbgFn := rfl
@[simp] theorem State.setReg64_transitIn (a v : Nat) : (s.setReg64 a v).transitIn = s.transitIn := rfl
@[simp] theorem State.setReg64_pollDue (a v : Nat) : (s.setReg64 a v).pollDue = s.pollDue := rfl
@[simp] theorem State.setReg64_fabViews (a v : Nat) : (s.setReg64 a v).fabViews = s.fabViews := rfl
@[simp] theorem State.setReg64_dbgView (a v : Nat) : (s.setReg64 a v).dbgView = s.dbgView := rfl
@[simp] theorem State.setReg64_clusterAt (a v : Nat) (i : Nat) : (s.setReg64 a v).cluster i = s.cluster i := rfl
@[simp] theorem State.setReg64_xunitAt (a v : Nat) (i : Nat) : (s.setReg64 a v).xunit i = s.xunit i := rfl
@[simp] theorem State.setReg64_stripAt (a v : Nat) (i : Nat) : (s.setReg64 a v).strip i = s.strip i := rfl
@[simp] theorem State.setReg64_stackAt (a v : Nat) (i : Nat) : (s.setReg64 a v).stack i = s.stack i := rfl
@[simp] theorem State.setReg64_fnAt (a v : Nat) (i : Nat) : (s.setReg64 a v).fn i = s.fn i := rfl
@[simp] theorem State.setReg64_ringAt (a v : Nat) (i : Nat) : (s.setReg64 a v).ring i = s.ring i := rfl
@[simp] theorem State.setReg64_jobAt (a v : Nat) (i : Nat) : (s.setReg64 a v).job i = s.job i := rfl
@[simp] theorem State.setReg64_portAt (a v : Nat) (i : Nat) : (s.setReg64 a v).port i = s.port i := rfl
@[simp] theorem State.setReg64_engineAt (a v : Nat) (i : Nat) : (s.setReg64 a v).engine i = s.engine i := rfl
@[simp] theorem State.setReg64_streamAt (a v : Nat) (i : Nat) : (s.setReg64 a v).stream i = s.stream i := rfl
@[simp] theorem State.setReg64_dieAt (a v : Nat) (i : Nat) : (s.setReg64 a v).die i = s.die i := rfl

/-! ### send -/

@[simp] theorem State.send_pending (x : Msg) : (s.send x).pending = s.pending := rfl
@[simp] theorem State.send_ms (x : Msg) : (s.send x).ms = s.ms := rfl
@[simp] theorem State.send_up (x : Msg) : (s.send x).up = s.up := rfl
@[simp] theorem State.send_freeCtr (x : Msg) : (s.send x).freeCtr = s.freeCtr := rfl
@[simp] theorem State.send_hostMem (x : Msg) : (s.send x).hostMem = s.hostMem := rfl
@[simp] theorem State.send_regs (x : Msg) : (s.send x).regs = s.regs := rfl
@[simp] theorem State.send_shadow (x : Msg) : (s.send x).shadow = s.shadow := rfl
@[simp] theorem State.send_clusters (x : Msg) : (s.send x).clusters = s.clusters := rfl
@[simp] theorem State.send_xunits (x : Msg) : (s.send x).xunits = s.xunits := rfl
@[simp] theorem State.send_flights (x : Msg) : (s.send x).flights = s.flights := rfl
@[simp] theorem State.send_strips (x : Msg) : (s.send x).strips = s.strips := rfl
@[simp] theorem State.send_transit (x : Msg) : (s.send x).transit = s.transit := rfl
@[simp] theorem State.send_chsMem (x : Msg) : (s.send x).chsMem = s.chsMem := rfl
@[simp] theorem State.send_poisoned (x : Msg) : (s.send x).poisoned = s.poisoned := rfl
@[simp] theorem State.send_symErr (x : Msg) : (s.send x).symErr = s.symErr := rfl
@[simp] theorem State.send_dstacks (x : Msg) : (s.send x).dstacks = s.dstacks := rfl
@[simp] theorem State.send_fns (x : Msg) : (s.send x).fns = s.fns := rfl
@[simp] theorem State.send_numVfs (x : Msg) : (s.send x).numVfs = s.numVfs := rfl
@[simp] theorem State.send_vfsGone (x : Msg) : (s.send x).vfsGone = s.vfsGone := rfl
@[simp] theorem State.send_msOff (x : Msg) : (s.send x).msOff = s.msOff := rfl
@[simp] theorem State.send_portReset (x : Msg) : (s.send x).portReset = s.portReset := rfl
@[simp] theorem State.send_rings (x : Msg) : (s.send x).rings = s.rings := rfl
@[simp] theorem State.send_msixOpen (x : Msg) : (s.send x).msixOpen = s.msixOpen := rfl
@[simp] theorem State.send_msixPend (x : Msg) : (s.send x).msixPend = s.msixPend := rfl
@[simp] theorem State.send_jobs (x : Msg) : (s.send x).jobs = s.jobs := rfl
@[simp] theorem State.send_ports (x : Msg) : (s.send x).ports = s.ports := rfl
@[simp] theorem State.send_engines (x : Msg) : (s.send x).engines = s.engines := rfl
@[simp] theorem State.send_streams (x : Msg) : (s.send x).streams = s.streams := rfl
@[simp] theorem State.send_opens (x : Msg) : (s.send x).opens = s.opens := rfl
@[simp] theorem State.send_pair (x : Msg) : (s.send x).pair = s.pair := rfl
@[simp] theorem State.send_power (x : Msg) : (s.send x).power = s.power := rfl
@[simp] theorem State.send_clock (x : Msg) : (s.send x).clock = s.clock := rfl
@[simp] theorem State.send_toll (x : Msg) : (s.send x).toll = s.toll := rfl
@[simp] theorem State.send_bru (x : Msg) : (s.send x).bru = s.bru := rfl
@[simp] theorem State.send_dies (x : Msg) : (s.send x).dies = s.dies := rfl
@[simp] theorem State.send_outOf (x : Msg) : (s.send x).outOf = s.outOf := rfl
@[simp] theorem State.send_ev (x : Msg) : (s.send x).ev = s.ev := rfl
@[simp] theorem State.send_flash (x : Msg) : (s.send x).flash = s.flash := rfl
@[simp] theorem State.send_man (x : Msg) : (s.send x).man = s.man := rfl
@[simp] theorem State.send_way (x : Msg) : (s.send x).way = s.way := rfl
@[simp] theorem State.send_mgmt (x : Msg) : (s.send x).mgmt = s.mgmt := rfl
@[simp] theorem State.send_jtag (x : Msg) : (s.send x).jtag = s.jtag := rfl
@[simp] theorem State.send_dbgFn (x : Msg) : (s.send x).dbgFn = s.dbgFn := rfl
@[simp] theorem State.send_transitIn (x : Msg) : (s.send x).transitIn = s.transitIn := rfl
@[simp] theorem State.send_pollDue (x : Msg) : (s.send x).pollDue = s.pollDue := rfl
@[simp] theorem State.send_fabViews (x : Msg) : (s.send x).fabViews = s.fabViews := rfl
@[simp] theorem State.send_dbgView (x : Msg) : (s.send x).dbgView = s.dbgView := rfl
@[simp] theorem State.send_clusterAt (x : Msg) (i : Nat) : (s.send x).cluster i = s.cluster i := rfl
@[simp] theorem State.send_xunitAt (x : Msg) (i : Nat) : (s.send x).xunit i = s.xunit i := rfl
@[simp] theorem State.send_stripAt (x : Msg) (i : Nat) : (s.send x).strip i = s.strip i := rfl
@[simp] theorem State.send_stackAt (x : Msg) (i : Nat) : (s.send x).stack i = s.stack i := rfl
@[simp] theorem State.send_fnAt (x : Msg) (i : Nat) : (s.send x).fn i = s.fn i := rfl
@[simp] theorem State.send_ringAt (x : Msg) (i : Nat) : (s.send x).ring i = s.ring i := rfl
@[simp] theorem State.send_jobAt (x : Msg) (i : Nat) : (s.send x).job i = s.job i := rfl
@[simp] theorem State.send_portAt (x : Msg) (i : Nat) : (s.send x).port i = s.port i := rfl
@[simp] theorem State.send_engineAt (x : Msg) (i : Nat) : (s.send x).engine i = s.engine i := rfl
@[simp] theorem State.send_streamAt (x : Msg) (i : Nat) : (s.send x).stream i = s.stream i := rfl
@[simp] theorem State.send_dieAt (x : Msg) (i : Nat) : (s.send x).die i = s.die i := rfl
@[simp] theorem State.send_fnReg (x : Msg) (m b : Nat) : (s.send x).fnReg m b = s.fnReg m b := rfl
@[simp] theorem State.send_reg (x : Msg) (b : Nat) : (s.send x).reg b = s.reg b := rfl
@[simp] theorem State.send_fieldAt (x : Msg) (b l n : Nat) : (s.send x).field b l n = s.field b l n := rfl

@[simp] theorem State.modCluster_same (k : Nat) (f : Cluster → Cluster) : (s.modCluster k f).cluster k = f (s.cluster k) := AMap.get_set_same _ _ _ _
theorem State.modCluster_other (k : Nat) (f : Cluster → Cluster) (i : Nat) (h : i ≠ k) : (s.modCluster k f).cluster i = s.cluster i :=
  AMap.get_set_other _ _ _ _ _ h
@[simp] theorem State.modJob_same (k : Nat) (f : Job → Job) : (s.modJob k f).job k = f (s.job k) := AMap.get_set_same _ _ _ _
theorem State.modJob_other (k : Nat) (f : Job → Job) (i : Nat) (h : i ≠ k) : (s.modJob k f).job i = s.job i :=
  AMap.get_set_other _ _ _ _ _ h
@[simp] theorem State.modPort_same (k : Nat) (f : Port → Port) : (s.modPort k f).port k = f (s.port k) := AMap.get_set_same _ _ _ _
theorem State.modPort_other (k : Nat) (f : Port → Port) (i : Nat) (h : i ≠ k) : (s.modPort k f).port i = s.port i :=
  AMap.get_set_other _ _ _ _ _ h
@[simp] theorem State.modDie_same (k : Nat) (f : Die → Die) : (s.modDie k f).die k = f (s.die k) := AMap.get_set_same _ _ _ _
theorem State.modDie_other (k : Nat) (f : Die → Die) (i : Nat) (h : i ≠ k) : (s.modDie k f).die i = s.die i :=
  AMap.get_set_other _ _ _ _ _ h

/-! ### advanceTo -/

@[simp] theorem State.advanceTo_pending (t : Nat) : (s.advanceTo t).pending = s.pending := by unfold State.advanceTo; split <;> rfl
@[simp] theorem State.advanceTo_freeCtr (t : Nat) : (s.advanceTo t).freeCtr = s.freeCtr := by unfold State.advanceTo; split <;> rfl
@[simp] theorem State.advanceTo_sent (t : Nat) : (s.advanceTo t).sent = s.sent := by unfold State.advanceTo; split <;> rfl
@[simp] theorem State.advanceTo_hostMem (t : Nat) : (s.advanceTo t).hostMem = s.hostMem := by unfold State.advanceTo; split <;> rfl
@[simp] theorem State.advanceTo_regs (t : Nat) : (s.advanceTo t).regs = s.regs := by unfold State.advanceTo; split <;> rfl
@[simp] theorem State.advanceTo_shadow (t : Nat) : (s.advanceTo t).shadow = s.shadow := by unfold State.advanceTo; split <;> rfl
@[simp] theorem State.advanceTo_clusters (t : Nat) : (s.advanceTo t).clusters = s.clusters := by unfold State.advanceTo; split <;> rfl
@[simp] theorem State.advanceTo_xunits (t : Nat) : (s.advanceTo t).xunits = s.xunits := by unfold State.advanceTo; split <;> rfl
@[simp] theorem State.advanceTo_flights (t : Nat) : (s.advanceTo t).flights = s.flights := by unfold State.advanceTo; split <;> rfl
@[simp] theorem State.advanceTo_strips (t : Nat) : (s.advanceTo t).strips = s.strips := by unfold State.advanceTo; split <;> rfl
@[simp] theorem State.advanceTo_transit (t : Nat) : (s.advanceTo t).transit = s.transit := by unfold State.advanceTo; split <;> rfl
@[simp] theorem State.advanceTo_chsMem (t : Nat) : (s.advanceTo t).chsMem = s.chsMem := by unfold State.advanceTo; split <;> rfl
@[simp] theorem State.advanceTo_poisoned (t : Nat) : (s.advanceTo t).poisoned = s.poisoned := by unfold State.advanceTo; split <;> rfl
@[simp] theorem State.advanceTo_symErr (t : Nat) : (s.advanceTo t).symErr = s.symErr := by unfold State.advanceTo; split <;> rfl
@[simp] theorem State.advanceTo_dstacks (t : Nat) : (s.advanceTo t).dstacks = s.dstacks := by unfold State.advanceTo; split <;> rfl
@[simp] theorem State.advanceTo_fns (t : Nat) : (s.advanceTo t).fns = s.fns := by unfold State.advanceTo; split <;> rfl
@[simp] theorem State.advanceTo_numVfs (t : Nat) : (s.advanceTo t).numVfs = s.numVfs := by unfold State.advanceTo; split <;> rfl
@[simp] theorem State.advanceTo_vfsGone (t : Nat) : (s.advanceTo t).vfsGone = s.vfsGone := by unfold State.advanceTo; split <;> rfl
@[simp] theorem State.advanceTo_portReset (t : Nat) : (s.advanceTo t).portReset = s.portReset := by unfold State.advanceTo; split <;> rfl
@[simp] theorem State.advanceTo_rings (t : Nat) : (s.advanceTo t).rings = s.rings := by unfold State.advanceTo; split <;> rfl
@[simp] theorem State.advanceTo_msixOpen (t : Nat) : (s.advanceTo t).msixOpen = s.msixOpen := by unfold State.advanceTo; split <;> rfl
@[simp] theorem State.advanceTo_msixPend (t : Nat) : (s.advanceTo t).msixPend = s.msixPend := by unfold State.advanceTo; split <;> rfl
@[simp] theorem State.advanceTo_jobs (t : Nat) : (s.advanceTo t).jobs = s.jobs := by unfold State.advanceTo; split <;> rfl
@[simp] theorem State.advanceTo_ports (t : Nat) : (s.advanceTo t).ports = s.ports := by unfold State.advanceTo; split <;> rfl
@[simp] theorem State.advanceTo_engines (t : Nat) : (s.advanceTo t).engines = s.engines := by unfold State.advanceTo; split <;> rfl
@[simp] theorem State.advanceTo_streams (t : Nat) : (s.advanceTo t).streams = s.streams := by unfold State.advanceTo; split <;> rfl
@[simp] theorem State.advanceTo_opens (t : Nat) : (s.advanceTo t).opens = s.opens := by unfold State.advanceTo; split <;> rfl
@[simp] theorem State.advanceTo_pair (t : Nat) : (s.advanceTo t).pair = s.pair := by unfold State.advanceTo; split <;> rfl
@[simp] theorem State.advanceTo_power (t : Nat) : (s.advanceTo t).power = s.power := by unfold State.advanceTo; split <;> rfl
@[simp] theorem State.advanceTo_clock (t : Nat) : (s.advanceTo t).clock = s.clock := by unfold State.advanceTo; split <;> rfl
@[simp] theorem State.advanceTo_toll (t : Nat) : (s.advanceTo t).toll = s.toll := by unfold State.advanceTo; split <;> rfl
@[simp] theorem State.advanceTo_bru (t : Nat) : (s.advanceTo t).bru = s.bru := by unfold State.advanceTo; split <;> rfl
@[simp] theorem State.advanceTo_dies (t : Nat) : (s.advanceTo t).dies = s.dies := by unfold State.advanceTo; split <;> rfl
@[simp] theorem State.advanceTo_outOf (t : Nat) : (s.advanceTo t).outOf = s.outOf := by unfold State.advanceTo; split <;> rfl
@[simp] theorem State.advanceTo_ev (t : Nat) : (s.advanceTo t).ev = s.ev := by unfold State.advanceTo; split <;> rfl
@[simp] theorem State.advanceTo_flash (t : Nat) : (s.advanceTo t).flash = s.flash := by unfold State.advanceTo; split <;> rfl
/-- An advance across the sample time of a planned read latches the copies it samples (R489). -/
theorem State.advanceTo_man (t : Nat) : (s.advanceTo t).man = if s.ms < t then s.manReach t else s.man := by
  unfold State.advanceTo; split <;> rfl
@[simp] theorem State.advanceTo_way (t : Nat) : (s.advanceTo t).way = s.way := by unfold State.advanceTo; split <;> rfl
@[simp] theorem State.advanceTo_mgmt (t : Nat) : (s.advanceTo t).mgmt = s.mgmt := by unfold State.advanceTo; split <;> rfl
@[simp] theorem State.advanceTo_jtag (t : Nat) : (s.advanceTo t).jtag = s.jtag := by unfold State.advanceTo; split <;> rfl
@[simp] theorem State.advanceTo_dbgFn (t : Nat) : (s.advanceTo t).dbgFn = s.dbgFn := by unfold State.advanceTo; split <;> rfl
@[simp] theorem State.advanceTo_clusterAt (t i : Nat) : (s.advanceTo t).cluster i = s.cluster i := by unfold State.advanceTo; split <;> rfl
@[simp] theorem State.advanceTo_xunitAt (t i : Nat) : (s.advanceTo t).xunit i = s.xunit i := by unfold State.advanceTo; split <;> rfl
@[simp] theorem State.advanceTo_stripAt (t i : Nat) : (s.advanceTo t).strip i = s.strip i := by unfold State.advanceTo; split <;> rfl
@[simp] theorem State.advanceTo_stackAt (t i : Nat) : (s.advanceTo t).stack i = s.stack i := by unfold State.advanceTo; split <;> rfl
@[simp] theorem State.advanceTo_fnAt (t i : Nat) : (s.advanceTo t).fn i = s.fn i := by unfold State.advanceTo; split <;> rfl
@[simp] theorem State.advanceTo_ringAt (t i : Nat) : (s.advanceTo t).ring i = s.ring i := by unfold State.advanceTo; split <;> rfl
@[simp] theorem State.advanceTo_jobAt (t i : Nat) : (s.advanceTo t).job i = s.job i := by unfold State.advanceTo; split <;> rfl
@[simp] theorem State.advanceTo_portAt (t i : Nat) : (s.advanceTo t).port i = s.port i := by unfold State.advanceTo; split <;> rfl
@[simp] theorem State.advanceTo_engineAt (t i : Nat) : (s.advanceTo t).engine i = s.engine i := by unfold State.advanceTo; split <;> rfl
@[simp] theorem State.advanceTo_streamAt (t i : Nat) : (s.advanceTo t).stream i = s.stream i := by unfold State.advanceTo; split <;> rfl
@[simp] theorem State.advanceTo_dieAt (t i : Nat) : (s.advanceTo t).die i = s.die i := by unfold State.advanceTo; split <;> rfl
@[simp] theorem State.advanceTo_reg (t b : Nat) : (s.advanceTo t).reg b = s.reg b := by unfold State.advanceTo; split <;> rfl
@[simp] theorem State.advanceTo_fieldAt (t b l n : Nat) : (s.advanceTo t).field b l n = s.field b l n := by
  unfold State.advanceTo; split <;> rfl
/-- Time never goes back. -/
theorem State.advanceTo_ms (t : Nat) : (s.advanceTo t).ms = max s.ms t := by
  unfold State.advanceTo; split <;> simp <;> omega

/-! ### Parts of a cluster and of a lane -/

@[simp] theorem Cluster.setLane_same (c : Cluster) (l : Nat) (x : Lane) : (c.setLane l x).lane l = x := AMap.get_set_same _ _ _ _
theorem Cluster.setLane_other (c : Cluster) (l i : Nat) (x : Lane) (h : i ≠ l) : (c.setLane l x).lane i = c.lane i :=
  AMap.get_set_other _ _ _ _ _ h
@[simp] theorem Cluster.setSreg_same (c : Cluster) (r : Nat) (v : BitVec 64) : (c.setSreg r v).sreg r = v := AMap.get_set_same _ _ _ _
theorem Cluster.setSreg_other (c : Cluster) (r i : Nat) (v : BitVec 64) (h : i ≠ r) : (c.setSreg r v).sreg i = c.sreg i :=
  AMap.get_set_other _ _ _ _ _ h
/-- p0 reads as all ones whatever is written (R104). -/
@[simp] theorem Cluster.pred_zero (c : Cluster) : c.pred 0 = 0xFFFF#16 := rfl
/-- A write of p0 is discarded. -/
@[simp] theorem Cluster.setPred_zero (c : Cluster) (v : BitVec 16) : c.setPred 0 v = c := rfl
theorem Cluster.setPred_same (c : Cluster) (r : Nat) (v : BitVec 16) (h : r ≠ 0) : (c.setPred r v).pred r = v := by
  simp [Cluster.setPred, Cluster.pred, h]
@[simp] theorem Lane.setVreg_same (x : Lane) (r : Nat) (v : BitVec 512) : (x.setVreg r v).vreg r = v := AMap.get_set_same _ _ _ _
theorem Lane.setVreg_other (x : Lane) (r i : Nat) (v : BitVec 512) (h : i ≠ r) : (x.setVreg r v).vreg i = x.vreg i :=
  AMap.get_set_other _ _ _ _ _ h
@[simp] theorem Cluster.setQueue_same (c : Cluster) (q : Nat) (x : Queue) : (c.setQueue q x).queue q = x := AMap.get_set_same _ _ _ _
theorem Cluster.setQueue_other (c : Cluster) (q i : Nat) (x : Queue) (h : i ≠ q) : (c.setQueue q x).queue i = c.queue i :=
  AMap.get_set_other _ _ _ _ _ h
@[simp] theorem Cluster.setCoupling_same (c : Cluster) (k : Nat) (x : Coupling) : (c.setCoupling k x).coupling k = x :=
  AMap.get_set_same _ _ _ _
theorem Cluster.setCoupling_other (c : Cluster) (k i : Nat) (x : Coupling) (h : i ≠ k) : (c.setCoupling k x).coupling i = c.coupling i :=
  AMap.get_set_other _ _ _ _ _ h

end Sys2Proof.Machine
end

