-- ==== Sys2Proof/Laws/Host.lean ====
section
/-! SUPPORT. What completions, messages and CLOSEs touch, and what they leave alone. -/

namespace Sys2Proof.Machine

/-- Only host memory, rings, what leaves the module, pending vectors, the pair's lists, ports, link streams, held OPENs
and the records of which tags are current may differ. -/
structure Outward (s t : State) : Prop where
  rest : t = { s with
    hostMem := t.hostMem, rings := t.rings, sent := t.sent, msixPend := t.msixPend, pair := t.pair, ports := t.ports
    streams := t.streams, opens := t.opens, jobs := t.jobs }
  job : ∀ k, t.job k = { s.job k with liveRef := (t.job k).liveRef, dead := (t.job k).dead }

theorem outward_of_jobs {s t : State} (h : t = { s with
    hostMem := t.hostMem, rings := t.rings, sent := t.sent, msixPend := t.msixPend, pair := t.pair, ports := t.ports
    streams := t.streams, opens := t.opens, jobs := t.jobs }) (hj : t.jobs = s.jobs) : Outward s t := by
  refine ⟨h, fun k => ?_⟩
  have e : t.job k = s.job k := by unfold State.job; rw [hj]
  rw [e]

theorem Outward.refl (s : State) : Outward s s := outward_of_jobs rfl rfl

theorem Outward.trans {s t u : State} (a : Outward s t) (b : Outward t u) : Outward s u := by
  refine ⟨?_, fun k => ?_⟩
  · rw [b.rest, a.rest]
  · rw [b.job k, a.job k]

theorem outward_setStream (s : State) (k : Nat) (x : TStream) : Outward s (s.setStream k x) := outward_of_jobs rfl rfl

theorem outward_foldl {α : Type} (f : State → α → State) (h : ∀ s x, Outward s (f s x)) (l : List α) (s : State) :
    Outward s (l.foldl f s) := by
  induction l generalizing s with
  | nil => exact Outward.refl s
  | cons a l ih => exact (h s a).trans (ih _)

theorem outward_signalVector (s : State) (p : Bool) (fn vec : Nat) : Outward s (s.signalVector p fn vec) := by
  unfold State.signalVector
  dsimp only
  repeat' split
  all_goals exact outward_of_jobs rfl rfl

theorem outward_signalZero (s : State) (fn : Nat) : Outward s (s.signalZero fn) := by
  unfold State.signalZero
  refine outward_foldl _ (fun s p => ?_) _ _
  split
  · exact outward_signalVector _ _ _ _
  · exact Outward.refl _

theorem outward_sendMsg (s : State) (port chan kind flags key arg : Nat) (body : List Seg) :
    Outward s (s.sendMsg port chan kind flags key arg body) := by
  unfold State.sendMsg
  dsimp only
  split <;> exact outward_of_jobs rfl rfl

theorem outward_sendPair (s : State) (kind flags arg : Nat) (body : List Seg) :
    Outward s (s.sendPair kind flags arg body) := by
  unfold State.sendPair
  split
  · exact Outward.refl _
  · exact outward_sendMsg _ _ _ _ _ _ _ _

theorem outward_writeEntry (s : State) (rn idx : Nat) (entry : BitVec 256) (irq : Bool) :
    Outward s (s.writeEntry rn idx entry irq) := by
  unfold State.writeEntry
  dsimp only
  split
  · exact outward_of_jobs rfl rfl
  · split
    · refine Outward.trans ?_ (outward_signalVector _ _ _ _)
      exact outward_of_jobs rfl rfl
    · exact outward_of_jobs rfl rfl

theorem outward_noteUnit (s : State) (l : List SigUnit) : Outward s { s with pair := { s.pair with closed := l } } :=
  outward_of_jobs rfl rfl

/-- A completion entry that a follower holds, a leader writes and tells of, or a module outside a pair writes. -/
theorem outward_writeCompletion (s : State) (rn : Nat) (d : Desc) (st : Byte) (tag : BitVec 16) (det : BitVec 32) :
    Outward s (s.writeCompletion rn d st tag det) := by
  unfold State.writeCompletion
  dsimp only
  split
  · split
    · exact Outward.refl _
    · have key : ∀ u : State, Outward s u → ∀ (h : HeldCpl) (e : BitVec 256) (i : Bool) (arg : Nat), Outward s
          (if u.pairFollows then
            if d.idx < AMap.get 0 u.pair.cplSeen rn then u.writeQuiet rn d.idx e
            else { u with pair := { u.pair with held := u.pair.held ++ [h] } }
          else
            if (u.writeEntry rn d.idx e i).pairState = 2 || (u.writeEntry rn d.idx e i).pairState = 7 then
              (u.writeEntry rn d.idx e i).sendPair 0x23 0 arg []
            else u.writeEntry rn d.idx e i) := by
        intro u hu h e i arg
        split
        · split
          · exact hu.trans (outward_of_jobs rfl rfl)
          · exact hu.trans (outward_of_jobs rfl rfl)
        · split
          · exact (hu.trans (outward_writeEntry _ _ _ _ _)).trans (outward_sendPair _ _ _ _ _)
          · exact hu.trans (outward_writeEntry _ _ _ _ _)
      split
      · exact key _ (outward_noteUnit s _) _ _ _ _
      · exact key _ (Outward.refl s) _ _ _ _
  · exact outward_writeEntry _ _ _ _ _

theorem outward_setRing (s : State) (k : Nat) (x : Ring) : Outward s (s.setRing k x) := outward_of_jobs rfl rfl

theorem outward_matchOpen (s : State) (k : Nat) : Outward s (s.matchOpen k) := by
  unfold State.matchOpen
  dsimp only
  split
  · split
    · split
      · refine Outward.trans ?_ (outward_setStream _ _ _)
        refine Outward.trans ?_ (outward_sendMsg _ _ _ _ _ _ _ _)
        exact outward_of_jobs rfl rfl
      · exact Outward.refl _
    · exact Outward.refl _
  · exact Outward.refl _

theorem outward_sendOpen (s : State) (k : Nat) : Outward s (s.sendOpen k) :=
  (outward_sendMsg _ _ _ _ _ _ _ _).trans (outward_setStream _ _ _)

theorem outward_openStreams (s : State) (slot : Nat) : Outward s (s.openStreams slot) := by
  unfold State.openStreams
  refine outward_foldl _ (fun s k => ?_) _ _
  dsimp only
  split
  · exact (outward_setStream _ _ _).trans (outward_matchOpen _ _)
  · exact outward_sendOpen _ _

/-- A retirement changes of a job only which of its tags are current, and may open its streams. -/
theorem outward_tagsRetire (s : State) (ref : DescRef) : Outward s (s.tagsRetire ref) := by
  unfold State.tagsRetire
  refine outward_foldl _ (fun s k => ?_) _ _
  have base : ∀ (l : Option DescRef) (d : List (DescRef × BitVec 16)),
      Outward s (s.setJob k { s.job k with liveRef := l, dead := d }) := by
    intro l d
    refine ⟨rfl, fun m => ?_⟩
    by_cases hm : m = k
    · subst hm; simp
    · rw [State.setJob_other _ _ _ _ hm]
  dsimp only
  split
  · split
    · exact (base _ _).trans (outward_openStreams _ _)
    · exact base _ _
  · exact Outward.refl _

theorem outward_retireRing (s : State) (rn n : Nat) : Outward s (s.retireRing rn n) := by
  induction n generalizing s with
  | zero => exact Outward.refl _
  | succ n ih =>
    unfold State.retireRing
    split
    · rename_i d rest hd
      split
      · rename_i status tag detail hp
        dsimp only
        refine Outward.trans ?_ (ih _)
        refine Outward.trans ?_ (outward_tagsRetire _ _)
        exact (outward_writeCompletion s rn d status tag detail).trans (outward_setRing _ _ _)
      · exact Outward.refl _
    · exact Outward.refl _

theorem outward_markDone (s : State) (ref : DescRef) (st : Byte) (tag : BitVec 16) (det : BitVec 32) :
    Outward s (s.markDone ref st tag det) := outward_of_jobs rfl rfl

theorem outward_skipReserved (s : State) (rn n : Nat) : Outward s (s.skipReserved rn n) := by
  induction n generalizing s with
  | zero => exact Outward.refl _
  | succ n ih =>
    unfold State.skipReserved
    split
    · split
      · exact Outward.refl _
      · dsimp only
        exact ((outward_markDone _ _ _ _ _).trans (outward_retireRing _ _ _)).trans (ih _)
    · exact Outward.refl _

theorem outward_markOpt (s : State) (ref : Option DescRef) (st : Byte) (tag : BitVec 16) (det : BitVec 32) :
    Outward s (s.markOpt ref st tag det) := by
  unfold State.markOpt
  split
  · exact outward_markDone _ _ _ _ _
  · exact Outward.refl _

theorem outward_finishDestroy (s : State) (rn : Nat) : Outward s (s.finishDestroy rn) := by
  unfold State.finishDestroy
  dsimp only
  split
  · split
    · exact Outward.refl _
    · refine Outward.trans (Outward.trans ?_ (outward_retireRing _ _ _)) (outward_skipReserved _ _ _)
      exact (outward_setRing _ _ _).trans (outward_markDone _ _ _ _ _)
  · exact Outward.refl _

theorem outward_settleRing (s : State) (rn : Nat) : Outward s (s.settleRing rn) := by
  unfold State.settleRing
  dsimp only
  exact ((outward_retireRing _ _ _).trans (outward_skipReserved _ _ _)).trans (outward_finishDestroy _ _)

theorem outward_settlePort (s : State) (p : Bool) : Outward s (s.settlePort p) :=
  outward_foldl _ (fun _ _ => outward_settleRing _ _) _ _

/-- What is done retires: a completion's effects and nothing else. -/
theorem outward_settleDone (s : State) : Outward s s.settleDone :=
  (outward_settlePort _ _).trans (outward_settlePort _ _)

/-- A completion touches host memory, rings, vectors, the pair's lists and the currency of tags only. -/
theorem outward_complete (s : State) (ref : DescRef) (st : Nat) (tag : BitVec 16) (det : Nat) :
    Outward s (s.complete ref st tag det) :=
  (outward_markDone _ _ _ _ _).trans (outward_settleRing _ _)

theorem outward_completeOpt (s : State) (ref : Option DescRef) (st : Nat) (tag : BitVec 16) (det : Nat) :
    Outward s (s.completeOpt ref st tag det) := by
  unfold State.completeOpt
  split
  · exact outward_complete _ _ _ _ _
  · exact Outward.refl _

theorem outward_closeStream (s : State) (k arg : Nat) : Outward s (s.closeStream k arg) := by
  unfold State.closeStream
  dsimp only
  split
  · exact (outward_sendMsg _ _ _ _ _ _ _ _).trans (outward_setStream _ _ _)
  · exact (outward_sendMsg _ _ _ _ _ _ _ _).trans (outward_setStream _ _ _)
  · exact (outward_sendMsg _ _ _ _ _ _ _ _).trans (outward_setStream _ _ _)
  · exact outward_setStream _ _ _
  · exact Outward.refl _

theorem outward_closeStreams (s : State) (slot arg : Nat) (p : TStream → Bool) :
    Outward s (s.closeStreams slot arg p) :=
  outward_foldl _ (fun _ _ => outward_closeStream _ _ _) _ _

theorem Outward.reg {s t : State} (h : Outward s t) (a : Nat) : t.reg a = s.reg a := by
  unfold State.reg State.fnReg; rw [h.rest]
theorem Outward.field {s t : State} (h : Outward s t) (a lo w : Nat) : t.field a lo w = s.field a lo w := by
  unfold State.field State.fnField State.fnReg; rw [h.rest]
theorem Outward.cluster {s t : State} (h : Outward s t) (k : Nat) : t.cluster k = s.cluster k := by
  unfold State.cluster; rw [h.rest]
theorem Outward.fn {s t : State} (h : Outward s t) (k : Nat) : t.fn k = s.fn k := by
  unfold State.fn; rw [h.rest]
theorem Outward.strip {s t : State} (h : Outward s t) (k : Nat) : t.strip k = s.strip k := by
  unfold State.strip; rw [h.rest]
theorem Outward.ev {s t : State} (h : Outward s t) : t.ev = s.ev := by rw [h.rest]
theorem Outward.ms {s t : State} (h : Outward s t) : t.ms = s.ms := by rw [h.rest]
theorem Outward.chsMem {s t : State} (h : Outward s t) : t.chsMem = s.chsMem := by rw [h.rest]

end Sys2Proof.Machine
end

