-- ==== Sys2Proof/Laws/Faults.lean ====
section
/-! SUPPORT. What a fault, a stop or a kill of a job touches, and what it leaves alone. -/

namespace Sys2Proof.Machine

/-- The registers that faults and stops of jobs may write. -/
def faultRegs : List Nat := [Reg.EVT_POISON, Reg.PST_PAIR_STATUS, Reg.PST_PAIR_COUNTS]

/-- Only jobs, their clusters, strips and streams, completions and messages, events, free values and the entry of the pair
unit may differ, and of the registers only the poison counters and the pair's status. -/
structure FaultOnly (s t : State) : Prop where
  rest : t = { s with
    freeCtr := t.freeCtr, sent := t.sent, hostMem := t.hostMem, regs := t.regs, clusters := t.clusters, strips := t.strips
    rings := t.rings, msixPend := t.msixPend, jobs := t.jobs, ports := t.ports, streams := t.streams, opens := t.opens
    pair := t.pair, ev := t.ev, toll := { s.toll with entered := t.toll.entered, lastEntryMs := t.toll.lastEntryMs } }
  regs : ∀ a, a ∉ faultRegs → t.reg a = s.reg a

theorem FaultOnly.refl (s : State) : FaultOnly s s := ⟨rfl, fun _ _ => rfl⟩

theorem FaultOnly.trans {s t u : State} (a : FaultOnly s t) (b : FaultOnly t u) : FaultOnly s u := by
  refine ⟨?_, fun r hr => (b.regs r hr).trans (a.regs r hr)⟩
  rw [b.rest, a.rest]

theorem Outward.faultOnly {s t : State} (h : Outward s t) : FaultOnly s t := by
  refine ⟨?_, fun a _ => h.reg a⟩
  rw [h.rest]

theorem faultOnly_foldl {α : Type} (f : State → α → State) (h : ∀ s x, FaultOnly s (f s x)) (l : List α) (s : State) :
    FaultOnly s (l.foldl f s) := by
  induction l generalizing s with
  | nil => exact FaultOnly.refl s
  | cons a l ih => exact (h s a).trans (ih _)

theorem faultOnly_setJob (s : State) (k : Nat) (x : Job) : FaultOnly s (s.setJob k x) := ⟨rfl, fun _ _ => rfl⟩
theorem faultOnly_modJob (s : State) (k : Nat) (f : Job → Job) : FaultOnly s (s.modJob k f) := ⟨rfl, fun _ _ => rfl⟩
theorem faultOnly_setStrip (s : State) (k : Nat) (x : StreamSlot) : FaultOnly s (s.setStrip k x) := ⟨rfl, fun _ _ => rfl⟩
theorem faultOnly_setCluster (s : State) (k : Nat) (x : Cluster) : FaultOnly s (s.setCluster k x) := ⟨rfl, fun _ _ => rfl⟩
theorem faultOnly_modCluster (s : State) (k : Nat) (f : Cluster → Cluster) : FaultOnly s (s.modCluster k f) :=
  ⟨rfl, fun _ _ => rfl⟩
theorem faultOnly_fresh (s : State) : FaultOnly s s.fresh.2 := ⟨rfl, fun _ _ => rfl⟩

theorem faultOnly_bump (s : State) (a lo w n : Nat) (h : a ∈ faultRegs) : FaultOnly s (s.bump a lo w n) :=
  ⟨rfl, fun b hb => reg_bump_other s a b lo w n fun e => hb (e ▸ h)⟩

theorem faultOnly_setField (s : State) (a lo w v : Nat) (h : a ∈ faultRegs) : FaultOnly s (s.setField a lo w v) :=
  ⟨rfl, fun b hb => reg_setField_other s a b lo w v fun e => hb (e ▸ h)⟩

theorem faultOnly_logEvent (s : State) (r : EventRec) : FaultOnly s (s.logEvent r) := by
  unfold State.logEvent
  dsimp only
  split <;> exact ⟨rfl, fun _ _ => rfl⟩

theorem faultOnly_logPlain (s : State) (src cls cause p0 p1 p2 : Nat) : FaultOnly s (s.logPlain src cls cause p0 p1 p2) :=
  faultOnly_logEvent _ _

theorem faultOnly_countPoison (s : State) (k : Nat) : FaultOnly s (s.countPoison k) := by
  have h : FaultOnly s (s.modJob k fun j => { j with poisonCounted := true }) := faultOnly_modJob _ _ _
  unfold State.countPoison
  dsimp only
  generalize (if (s.job k).poisonCounted = true then 0 else s.poisonLeft (s.job k)) = n
  by_cases hn : n = 0
  · simp only [hn, if_true]; exact h
  · simp only [hn, if_false]
    exact h.trans (faultOnly_bump _ Reg.EVT_POISON 16 16 n (by simp [faultRegs]))

theorem faultOnly_endIssue (s : State) (k : Nat) : FaultOnly s (s.endIssue k) :=
  (faultOnly_countPoison s k).trans ⟨rfl, fun _ _ => rfl⟩

theorem faultOnly_stopStrips (s : State) (k : Nat) (d : Bool) : FaultOnly s (s.stopStrips k d) := by
  unfold State.stopStrips
  exact faultOnly_foldl _ (fun s k => faultOnly_setStrip s k _) _ _

theorem faultOnly_closeStreams (s : State) (slot arg : Nat) (p : TStream → Bool) :
    FaultOnly s (s.closeStreams slot arg p) := (outward_closeStreams _ _ _ _).faultOnly

theorem faultOnly_complete (s : State) (ref : DescRef) (st : Nat) (tag : BitVec 16) (det : Nat) :
    FaultOnly s (s.complete ref st tag det) := (outward_complete _ _ _ _ _).faultOnly

theorem faultOnly_completeOpt (s : State) (ref : Option DescRef) (st : Nat) (tag : BitVec 16) (det : Nat) :
    FaultOnly s (s.completeOpt ref st tag det) := (outward_completeOpt _ _ _ _ _).faultOnly

theorem faultOnly_markDone (s : State) (ref : DescRef) (st : Byte) (tag : BitVec 16) (det : BitVec 32) :
    FaultOnly s (s.markDone ref st tag det) := (outward_markDone _ _ _ _ _).faultOnly

theorem faultOnly_settleDone (s : State) : FaultOnly s s.settleDone := (outward_settleDone s).faultOnly

theorem faultOnly_becomeStopped (s : State) (k : Nat) : FaultOnly s (s.becomeStopped k) := by
  unfold State.becomeStopped
  refine FaultOnly.trans ?_ (faultOnly_foldl _ (fun _ _ => faultOnly_markDone _ _ _ _ _) _ _)
  refine FaultOnly.trans ?_ (outward_markOpt _ _ _ _ _).faultOnly
  exact faultOnly_setJob _ _ _

theorem faultOnly_stopNow (s : State) (k : Nat) : FaultOnly s (s.stopNow k) := by
  have h : ∀ (b : Bool) (a : Nat) (p : TStream → Bool), FaultOnly s
      ((((s.endIssue k).stopStrips k b).closeStreams k a p).modJob k fun j => { j with st := .stopping, stopAt := none }) := by
    intro b a p
    refine FaultOnly.trans (FaultOnly.trans ?_ (faultOnly_closeStreams _ _ _ _)) (faultOnly_modJob _ _ _)
    exact (faultOnly_endIssue _ _).trans (faultOnly_stopStrips _ _ _)
  unfold State.stopNow
  dsimp only
  cases (s.job k).stopKind != 1#8
  · simp only [Bool.false_eq_true, if_false, Bool.false_or]
    split
    · exact (h _ _ _).trans (faultOnly_becomeStopped _ _)
    · exact h _ _ _
  · simp only [if_true, Bool.true_or]
    exact (h _ _ _).trans (faultOnly_becomeStopped _ _)

theorem faultOnly_killJob (s : State) (k : Nat) (kind : BitVec 8) : FaultOnly s (s.killJob k kind) := by
  unfold State.killJob
  dsimp only
  split
  · refine FaultOnly.trans ?_ (faultOnly_becomeStopped _ _)
    refine FaultOnly.trans ?_ (faultOnly_modJob _ _ _)
    exact (faultOnly_stopStrips _ _ _).trans (faultOnly_closeStreams _ _ _ _)
  · exact faultOnly_setJob _ _ _
  · split
    · exact FaultOnly.refl _
    · exact (faultOnly_setJob _ _ _).trans (faultOnly_stopNow _ _)
  · exact FaultOnly.refl _

theorem faultOnly_drainQuiet (s : State) : FaultOnly s s.drainQuiet :=
  faultOnly_foldl _ (fun s k => faultOnly_killJob s k 3#8) _ _

theorem faultOnly_drainAll (s : State) : FaultOnly s s.drainAll :=
  (faultOnly_drainQuiet s).trans (faultOnly_settleDone _)

theorem faultOnly_enterPair (s : State) : FaultOnly s s.enterPair := by
  unfold State.enterPair
  split
  · exact ⟨rfl, fun _ _ => rfl⟩
  · exact FaultOnly.refl _

theorem faultOnly_setPairState (s : State) (v : Nat) : FaultOnly s (s.setPairState v) := by
  have h : FaultOnly s ((s.setField Reg.PST_PAIR_STATUS 0 4 v).signalZero 0) :=
    (faultOnly_setField _ _ _ _ _ (by simp [faultRegs])).trans (outward_signalZero _ _).faultOnly
  unfold State.setPairState
  dsimp only
  split
  · exact FaultOnly.refl _
  · split
    · exact h.trans (faultOnly_enterPair _)
    · exact h

theorem faultOnly_pairFails (s : State) (c : Nat) : FaultOnly s (s.pairFails c) := by
  unfold State.pairFails
  split
  · dsimp only
    refine FaultOnly.trans ?_ (faultOnly_logEvent _ _)
    refine FaultOnly.trans ?_ (faultOnly_drainQuiet _)
    refine FaultOnly.trans (FaultOnly.trans ?_ (faultOnly_setPairState _ _)) (faultOnly_bump _ _ _ _ _ (by simp [faultRegs]))
    exact faultOnly_foldl _ (fun _ _ => (outward_sendMsg _ _ _ _ _ _ _ _).faultOnly) _ _
  · exact FaultOnly.refl _

theorem faultOnly_pairDeclareFailed (s : State) (c : Nat) : FaultOnly s (s.pairDeclareFailed c) :=
  (faultOnly_pairFails s c).trans (faultOnly_settleDone _)

theorem faultOnly_failOrSettle (s : State) (f : Option Nat) : FaultOnly s (s.failOrSettle f) := by
  unfold State.failOrSettle
  split
  · exact faultOnly_pairDeclareFailed _ _
  · exact faultOnly_settleDone _

theorem faultOnly_markStart (s : State) (k : Nat) : FaultOnly s (s.markStart k) := by
  unfold State.markStart
  dsimp only
  split
  · exact (faultOnly_modJob _ _ _).trans (outward_markOpt _ _ _ _ _).faultOnly
  · exact FaultOnly.refl _

theorem faultOnly_faultJob (s : State) (k : Nat) : FaultOnly s (s.faultJob k) := by
  have base : FaultOnly s (((s.endIssue k).stopStrips k true).closeStreams k 1 (fun _ => true)) :=
    ((faultOnly_endIssue _ _).trans (faultOnly_stopStrips _ _ _)).trans (faultOnly_closeStreams _ _ _ _)
  have fin : ∀ (v : Nat) (u : State), FaultOnly s u → FaultOnly s
      ((s.job k).stopRefs.foldl (fun w r => w.markDone r (BitVec.ofNat 8 v) (s.job k).tag (BitVec.ofNat 32 (v / 256)))
        ((u.modJob k fun j => { j with st := .faulted, stopAt := none, stopRefs := [] }).markStart k)) := by
    intro v u hu
    refine FaultOnly.trans ?_ (faultOnly_foldl _ (fun _ _ => faultOnly_markDone _ _ _ _ _) _ _)
    exact (hu.trans (faultOnly_modJob _ _ _)).trans (faultOnly_markStart _ _)
  unfold State.faultJob
  dsimp only
  split
  all_goals first
    | exact FaultOnly.refl _
    | (by_cases he : (s.job k).stopRefs.isEmpty = true
       · simp only [he, if_true]; exact fin _ _ base
       · simp only [he]; exact fin _ _ (base.trans (faultOnly_fresh _)))

theorem faultOnly_stopWith (s : State) (k : Nat) (r : EventRec) (f : Option Nat) : FaultOnly s (s.stopWith k r f) :=
  ((faultOnly_logEvent _ _).trans (faultOnly_faultJob _ _)).trans (faultOnly_failOrSettle _ _)

theorem faultOnly_stopEvent (s : State) (k : Nat) (r : EventRec) : FaultOnly s (s.stopEvent k r) :=
  faultOnly_stopWith _ _ _ _

theorem faultOnly_slotFault (s : State) (k : Nat) (r : EventRec) : FaultOnly s (s.slotFault k r) := by
  unfold State.slotFault
  dsimp only
  split
  · exact (faultOnly_logEvent _ _).trans (faultOnly_modJob _ _ _)
  · exact faultOnly_stopEvent _ _ _

theorem faultOnly_clusterFault (s : State) (g : Nat) (r : EventRec) : FaultOnly s (s.clusterFault g r) := by
  unfold State.clusterFault
  dsimp only
  split
  · exact faultOnly_slotFault _ _ _
  · exact faultOnly_logEvent _ _

theorem faultOnly_execFault (s : State) (x : Slot) (cause : Nat) (l : Option Nat) (a : Nat) :
    FaultOnly s (s.execFault x cause l a) := by
  unfold State.execFault
  exact faultOnly_clusterFault _ _ _

theorem FaultOnly.field {s t : State} (h : FaultOnly s t) (a lo w : Nat) (ha : a ∉ faultRegs) : t.field a lo w = s.field a lo w := by
  have := h.regs a ha
  simp only [State.reg] at this
  simp only [State.field, State.fnField, this]

theorem FaultOnly.ms {s t : State} (h : FaultOnly s t) : t.ms = s.ms := by rw [h.rest]
theorem FaultOnly.toll {s t : State} (h : FaultOnly s t) :
    t.toll = { s.toll with entered := t.toll.entered, lastEntryMs := t.toll.lastEntryMs } := by rw [h.rest]
theorem FaultOnly.clock {s t : State} (h : FaultOnly s t) : t.clock = s.clock := by rw [h.rest]
theorem FaultOnly.power {s t : State} (h : FaultOnly s t) : t.power = s.power := by rw [h.rest]
theorem FaultOnly.bru {s t : State} (h : FaultOnly s t) : t.bru = s.bru := by rw [h.rest]
theorem FaultOnly.outOf {s t : State} (h : FaultOnly s t) : t.outOf = s.outOf := by rw [h.rest]
theorem FaultOnly.chsMem {s t : State} (h : FaultOnly s t) : t.chsMem = s.chsMem := by rw [h.rest]
theorem FaultOnly.die {s t : State} (h : FaultOnly s t) (k : Nat) : t.die k = s.die k := by unfold State.die; rw [h.rest]
theorem FaultOnly.stack {s t : State} (h : FaultOnly s t) (k : Nat) : t.stack k = s.stack k := by unfold State.stack; rw [h.rest]
theorem FaultOnly.fn {s t : State} (h : FaultOnly s t) (k : Nat) : t.fn k = s.fn k := by unfold State.fn; rw [h.rest]
theorem FaultOnly.engine {s t : State} (h : FaultOnly s t) (k : Nat) : t.engine k = s.engine k := by unfold State.engine; rw [h.rest]

end Sys2Proof.Machine
end

