-- ==== Sys2Proof/Laws/Fields.lean ====
section
/-! SUPPORT. Register fields: what depends on the registers alone, and the commands that write registers only. -/

namespace Sys2Proof.Machine

theorem reg_of_regs {s t : State} (h : t.regs = s.regs) (a : Nat) : t.reg a = s.reg a := by
  unfold State.reg State.fnReg; rw [h]

theorem field_of_regs {s t : State} (h : t.regs = s.regs) (a lo w : Nat) : t.field a lo w = s.field a lo w := by
  unfold State.field State.fnField State.fnReg; rw [h]

theorem field_of_reg {s t : State} {a : Nat} (h : t.reg a = s.reg a) (lo w : Nat) : t.field a lo w = s.field a lo w := by
  simp only [State.reg] at h
  simp only [State.field, State.fnField, h]

theorem field_lt (s : State) (a lo w : Nat) : s.field a lo w < 2 ^ w := by
  unfold State.field State.fnField bitsOf
  exact Nat.mod_lt _ (Nat.pos_of_ne_zero (by simp))

theorem field_bump_other (s : State) (a b lo w n lo' w' : Nat) (h : b ≠ a) :
    (s.bump a lo w n).field b lo' w' = s.field b lo' w' := field_of_reg (reg_bump_other _ _ _ _ _ _ h) _ _

theorem regs_logEvent (s : State) (r : EventRec) : (s.logEvent r).regs = s.regs := by
  unfold State.logEvent
  dsimp only
  split <;> rfl

theorem reg_logEvent (s : State) (r : EventRec) (a : Nat) : (s.logEvent r).reg a = s.reg a := reg_of_regs (regs_logEvent _ _) a

theorem field_logEvent (s : State) (r : EventRec) (a lo w : Nat) : (s.logEvent r).field a lo w = s.field a lo w :=
  field_of_regs (regs_logEvent _ _) a lo w

theorem regsOnly_refl (s : State) : RegsOnly s s := ⟨rfl⟩

theorem regsOnly_trans {s t u : State} (a : RegsOnly s t) (b : RegsOnly t u) : RegsOnly s u := by
  constructor
  rw [b.rest, a.rest]

theorem regsOnly_setReg (s : State) (a : Nat) (w : Word) : RegsOnly s (s.setReg a w) := ⟨rfl⟩
theorem regsOnly_setField (s : State) (a lo w v : Nat) : RegsOnly s (s.setField a lo w v) := ⟨rfl⟩
theorem regsOnly_bump (s : State) (a lo w n : Nat) : RegsOnly s (s.bump a lo w n) := ⟨rfl⟩
theorem regsOnly_setReg64 (s : State) (a v : Nat) : RegsOnly s (s.setReg64 a v) := ⟨rfl⟩

theorem regsOnly_setRegs64 (l : List Nat) : ∀ (s : State) (a : Nat), RegsOnly s (s.setRegs64 a l) := by
  induction l with
  | nil => exact fun s _ => regsOnly_refl s
  | cons v vs ih => exact fun s a => regsOnly_trans (regsOnly_setReg64 s a v) (ih _ _)

end Sys2Proof.Machine
end

