-- ==== Sys2Proof/Laws/Issue.lean ====
section
/-! SUPPORT. Issue of a slot: what naming queue heads and faulting leave of a cluster whose job runs. -/

namespace Sys2Proof.Machine

/-- The job that owns a cluster is Running. -/
def Live (s : State) (g : Nat) : Prop := ∃ k, s.slotOfCluster g = some k ∧ (s.job k).st = .running

/-- The clusters, the owners of the dies and the states of the jobs are as before. -/
structure SameRun (s t : State) : Prop where
  clusters : t.clusters = s.clusters
  owner : ∀ d, t.slotOfDie d = s.slotOfDie d
  st : ∀ k, (t.job k).st = (s.job k).st
  win : ∀ k, (t.job k).windows = (s.job k).windows
  only : SlotOnly s t

/-- Only jobs, clusters, events, evidence and the poison counters may differ, step by step. -/
theorem slotOnly_refl (s : State) : SlotOnly s s := ⟨rfl, fun _ _ => rfl⟩

theorem slotOnly_trans {s t u : State} (a : SlotOnly s t) (b : SlotOnly t u) : SlotOnly s u := by
  refine ⟨?_, fun r hr => (b.regs r hr).trans (a.regs r hr)⟩
  rw [b.rest, a.rest]

/-- Only clusters are written. -/
theorem slotOnly_clusters (s : State) (m : AMap Cluster) : SlotOnly s { s with clusters := m } :=
  ⟨rfl, fun _ _ => rfl⟩

theorem SameRun.refl (s : State) : SameRun s s := ⟨rfl, fun _ => rfl, fun _ => rfl, fun _ => rfl, slotOnly_refl s⟩

theorem SameRun.trans {s t u : State} (a : SameRun s t) (b : SameRun t u) : SameRun s u :=
  ⟨b.clusters.trans a.clusters, fun d => (b.owner d).trans (a.owner d), fun k => (b.st k).trans (a.st k),
    fun k => (b.win k).trans (a.win k),
    slotOnly_trans a.only b.only⟩

theorem SameRun.live {s t : State} {g : Nat} (a : SameRun s t) (h : Live s g) : Live t g := by
  obtain ⟨k, h1, h2⟩ := h
  exact ⟨k, (a.owner _).trans h1, (a.st k).trans h2⟩

theorem SameRun.cluster {s t : State} (a : SameRun s t) (g : Nat) : t.cluster g = s.cluster g := by
  unfold State.cluster; rw [a.clusters]

/-- Whatever keeps the jobs and the clusters keeps what a run depends on. -/
theorem SameRun.of_eq {s t : State} (hc : t.clusters = s.clusters) (hj : t.jobs = s.jobs) (ho : SlotOnly s t) :
    SameRun s t := by
  have hjob : ∀ k, t.job k = s.job k := fun k => by unfold State.job; rw [hj]
  exact ⟨hc, fun d => by simp [State.slotOfDie, hjob], fun k => by rw [hjob], fun k => by rw [hjob], ho⟩

/-- A cluster that can issue belongs to a running job. -/
theorem canIssue_live {s : State} {g : Nat} (h : s.canIssue g = true) : Live s g := by
  unfold State.canIssue at h
  split at h
  · rename_i k hk
    simp only [Bool.and_eq_true, beq_iff_eq] at h
    exact ⟨k, hk, h.1.1⟩
  · cases h

/-- What a slot runs on when its cluster can issue. -/
theorem issue_eq {s : State} {i : Issue} (f : Slot → State → State) (h : s.canIssue i.cluster.toNat = true) :
    s.issue i f = f (slotOf s i) (s.setCluster i.cluster.toNat (s.cluster i.cluster.toNat).begun) := by
  simp [State.issue, h, slotOf]

/-- A cluster that is written keeps the run. -/
theorem live_setCluster {s : State} {g h : Nat} (c : Cluster) (a : Live s h) : Live (s.setCluster g c) h := a

theorem live_modCluster {s : State} {g h : Nat} (f : Cluster → Cluster) (a : Live s h) : Live (s.modCluster g f) h := a

theorem sameRun_logEvent (s : State) (r : EventRec) : SameRun s (s.logEvent r) := by
  unfold State.logEvent
  apply SameRun.of_eq
  · dsimp only; split <;> rfl
  · dsimp only; split <;> rfl
  · dsimp only; split <;> exact ⟨rfl, fun _ _ => rfl⟩

/-- An update of a job that keeps its state and its rectangle keeps the run. -/
theorem sameRun_modJob (s : State) (k : Nat) (f : Job → Job) (hst : ∀ j, (f j).st = j.st)
    (hc : ∀ j d, (f j).covers d = j.covers d) (hw : ∀ j, (f j).windows = j.windows) : SameRun s (s.modJob k f) := by
  refine ⟨rfl, fun d => ?_, fun m => ?_, fun m => ?_, ⟨rfl, fun _ _ => rfl⟩⟩
  · unfold State.slotOfDie
    congr 1
    funext m
    by_cases hm : m = k
    · subst hm; simp [Job.held, hst, hc]
    · rw [State.modJob_other _ _ _ _ hm]
  · by_cases hm : m = k
    · subst hm; simp [hst]
    · rw [State.modJob_other _ _ _ _ hm]
  · by_cases hm : m = k
    · subst hm; simp [hw]
    · rw [State.modJob_other _ _ _ _ hm]

/-- A fault in a running job waits for the end of the beat. -/
theorem sameRun_clusterFault {s : State} {g : Nat} (r : EventRec) (h : Live s g) : SameRun s (s.clusterFault g r) := by
  obtain ⟨k, hk, hr⟩ := h
  unfold State.clusterFault
  simp only [hk]
  unfold State.slotFault
  have hb : (s.job k).beating = true := by simp [Job.beating, hr]
  simp only [hb, if_true]
  exact (sameRun_logEvent s _).trans (sameRun_modJob _ _ _ (fun _ => rfl) (fun _ _ => rfl) (fun _ => rfl))

theorem sameRun_execFault {s : State} (x : Slot) (cause : Nat) (lane : Option Nat) (addr : Nat)
    (h : Live s x.g) : SameRun s (s.execFault x cause lane addr) := by
  unfold State.execFault
  exact sameRun_clusterFault _ h

theorem sameRun_residueFault {s : State} (x : Slot) (cause lane unit idx : Nat) (hash : Bool) (pos : Nat)
    (a b : BitVec 8) (h : Live s x.g) : SameRun s (s.residueFault x cause lane unit idx hash pos a b) :=
  sameRun_clusterFault _ h

theorem sameRun_poisonCount (s : State) (lo w n : Nat) : SameRun s (s.bump Reg.EVT_POISON lo w n) :=
  SameRun.of_eq rfl rfl ⟨rfl, fun a ha => reg_bump_other s _ a lo w n ha⟩

theorem sameRun_poisonFault {s : State} (x : Slot) (cause slotNo code q : Nat) (h : Live s x.g) :
    SameRun s (s.poisonFault x cause slotNo code q) := by
  unfold State.poisonFault
  dsimp only
  split
  · exact sameRun_clusterFault _ h
  · exact (sameRun_poisonCount s _ _ _).trans (sameRun_clusterFault _ ((sameRun_poisonCount s _ _ _).live h))

/-- The event that logEvent appends differs from its argument in the flags only. -/
theorem logEvent_atSource (s : State) (r : EventRec) :
    ∃ f, (s.logEvent r).ev.atSource = s.ev.atSource ++ [{ r with flags := f }] := by
  unfold State.logEvent
  dsimp only
  split <;> exact ⟨_, rfl⟩

/-- The record of a fault of a slot's job carries its tag; beside it only flags may differ. -/
theorem stopRec_eq (s : State) (k : Nat) (r : EventRec) :
    ∃ f, s.stopRec k r = { r with jobTag := (s.job k).tag, flags := f } := by
  unfold State.stopRec State.asEvidence
  dsimp only
  split <;> exact ⟨_, rfl⟩

/-- A fault of a running job logs one event, with the job's tag. -/
theorem clusterFault_atSource {s : State} {g : Nat} (r : EventRec) (h : Live s g) :
    ∃ tag f, (s.clusterFault g r).ev.atSource =
      s.ev.atSource ++ [{ r with loc := BitVec.ofNat 16 g, jobTag := tag, flags := f }] := by
  obtain ⟨k, hk, hr⟩ := h
  unfold State.clusterFault
  simp only [hk]
  unfold State.slotFault
  have hb : (s.job k).beating = true := by simp [Job.beating, hr]
  simp only [hb, if_true]
  obtain ⟨f, hf⟩ := logEvent_atSource s (s.stopRec k { r with loc := BitVec.ofNat 16 g })
  obtain ⟨f', hf'⟩ := stopRec_eq s k { r with loc := BitVec.ofNat 16 g }
  refine ⟨(s.job k).tag, f, hf.trans ?_⟩
  rw [hf']

/-- An execution fault of a running job. -/
theorem execFault_atSource {s : State} (x : Slot) (cause : Nat) (lane : Option Nat) (addr : Nat) (h : Live s x.g) :
    ∃ r, (s.execFault x cause lane addr).ev.atSource = s.ev.atSource ++ [r] ∧ r.cls = 0x01#8 ∧
      r.cause = BitVec.ofNat 8 cause ∧ (∀ l, lane = some l → r.lane = BitVec.ofNat 8 l) ∧ r.p1 = BitVec.ofNat 64 addr := by
  unfold State.execFault
  obtain ⟨tag, f, hf⟩ := clusterFault_atSource
    { (match lane with
        | some l => { s.eventOf x.g 0x01 cause with
            lane := BitVec.ofNat 8 l, pcore := BitVec.ofNat 8 (x.c.core l) }
        | none => s.eventOf x.g 0x01 cause) with
      beat := x.c.execBeat
      p0 := BitVec.ofNat 32 (x.c.pc + 2 ^ 16 * x.mask.toNat)
      p1 := BitVec.ofNat 64 addr } h
  refine ⟨_, hf, ?_, ?_, ?_, rfl⟩
  · cases lane <;> rfl
  · cases lane <;> rfl
  · rintro l rfl
    rfl

/-! ### Slots of several steps -/

/-- The cluster moves by f, and nothing else of a run changes. -/
structure Moves (g : Nat) (s t : State) (f : Cluster → Cluster) : Prop where
  at_ : t.cluster g = f (s.cluster g)
  other : ∀ h, h ≠ g → t.cluster h = s.cluster h
  owner : ∀ d, t.slotOfDie d = s.slotOfDie d
  st : ∀ k, (t.job k).st = (s.job k).st
  win : ∀ k, (t.job k).windows = (s.job k).windows
  only : SlotOnly s t

theorem Moves.trans {g : Nat} {s t u : State} {f h : Cluster → Cluster} (a : Moves g s t f) (b : Moves g t u h) :
    Moves g s u (fun c => h (f c)) :=
  ⟨by rw [b.at_, a.at_], fun k hk => (b.other k hk).trans (a.other k hk), fun d => (b.owner d).trans (a.owner d),
    fun k => (b.st k).trans (a.st k),
    fun k => (b.win k).trans (a.win k), slotOnly_trans a.only b.only⟩

theorem Moves.live {g h : Nat} {s t : State} {f : Cluster → Cluster} (a : Moves g s t f) (hl : Live s h) : Live t h := by
  obtain ⟨k, h1, h2⟩ := hl
  exact ⟨k, (a.owner _).trans h1, (a.st k).trans h2⟩

theorem Moves.refl (g : Nat) (s : State) : Moves g s s id :=
  ⟨rfl, fun _ _ => rfl, fun _ => rfl, fun _ => rfl, fun _ => rfl, slotOnly_refl s⟩

theorem SameRun.moves {s t : State} (g : Nat) (a : SameRun s t) : Moves g s t id :=
  ⟨a.cluster g, fun h _ => a.cluster h, a.owner, a.st, a.win, a.only⟩

theorem moves_modCluster (s : State) (g : Nat) (f : Cluster → Cluster) : Moves g s (s.modCluster g f) f :=
  ⟨State.modCluster_same _ _ _, fun _ h => State.modCluster_other _ _ _ _ h, fun _ => rfl, fun _ => rfl, fun _ => rfl,
    slotOnly_clusters _ _⟩

theorem moves_land (s : State) (g : Nat) (ls : List Landing) :
    Moves g s (s.land g ls) fun c => { c with pend := c.pend ++ ls } :=
  moves_modCluster s g _

theorem moves_issued (s : State) (g : Nat) :
    Moves g s (s.setCluster g (s.cluster g).begun) fun c => c.begun :=
  ⟨State.setCluster_same _ _ _, fun _ h => State.setCluster_other _ _ _ _ h, fun _ => rfl, fun _ => rfl, fun _ => rfl,
    slotOnly_clusters _ _⟩

/-- A fold whose every step moves the cluster by entering results, in a cluster whose job runs. -/
theorem moves_foldl {α : Type} {g : Nat} (f : State → α → State) (ls : α → List Landing)
    (h : ∀ s x, Live s g → Moves g s (f s x) fun c => { c with pend := c.pend ++ ls x }) (l : List α) (s : State)
    (hs : Live s g) : Moves g s (l.foldl f s) fun c => { c with pend := c.pend ++ l.flatMap ls } := by
  induction l generalizing s with
  | nil =>
    simp only [List.foldl_nil, List.flatMap_nil, List.append_nil]
    exact Moves.refl g s
  | cons a l ih =>
    have h1 := h s a hs
    have h2 := h1.trans (ih _ (h1.live hs))
    simpa [List.append_assoc] using h2

/-- A fold whose every step keeps the run, in a cluster whose job runs. -/
theorem sameRun_foldl {α : Type} {g : Nat} (f : State → α → State) (h : ∀ s x, Live s g → SameRun s (f s x)) (l : List α)
    (s : State) (hs : Live s g) : SameRun s (l.foldl f s) := by
  induction l generalizing s with
  | nil => exact SameRun.refl s
  | cons a l ih => exact (h s a hs).trans (ih _ ((h s a hs).live hs))

/-- Residue faults keep the run. -/
theorem sameRun_residueFaults {s : State} (x : Slot) (lane acc : Nat) (bad : List ResFault) (h : Live s x.g) :
    SameRun s (s.residueFaults x lane acc bad) := by
  unfold State.residueFaults
  induction bad generalizing s with
  | nil => exact SameRun.refl s
  | cons a bad ih =>
    have h1 := sameRun_residueFault x a.cause lane acc a.idx false (2 ^ 64 - 1) a.stored a.computed h
    exact h1.trans (ih (h1.live h))

/-! ### The heads that a slot names -/

theorem moves_note (s : State) (g k : Nat) : Moves g s (s.modCluster g fun c => c.note k) (·.note k) :=
  moves_modCluster s g _

/-- A named head: only the record of consumed heads changes in the clusters, as `noteHead` says. -/
theorem moves_nameQueue {s : State} (x : Slot) (slotNo : Nat) (acts : Bool) (n : Naming) (h : Live s x.g) :
    Moves x.g s (s.nameQueue x slotNo acts n) (noteHead x.c acts · n) := by
  have key : ∀ (t : State) (f : Cluster → Cluster), Moves x.g s t f →
      Moves x.g s (if n.take then t.modCluster x.g fun c => c.note n.q else t)
        fun c => if n.take then (f c).note n.q else f c := by
    intro t f ht
    cases n.take
    · exact ht
    · exact ht.trans (moves_note t x.g n.q)
  unfold State.nameQueue
  refine key _ (fun c => if acts && headPoisoned x.c n.q then c.note (n.q + 16) else c) ?_
  unfold headPoisoned
  cases (x.c.queue n.q).entries with
  | nil =>
    simp only [Bool.and_false]
    exact (sameRun_execFault _ _ _ _ h).moves _
  | cons e l =>
    dsimp only
    by_cases hp : (acts && e.poison) = true
    · simp only [hp, if_true]
      exact ((sameRun_poisonFault x _ _ _ _ h).moves _).trans (moves_note _ _ _)
    · simp only [hp]
      exact Moves.refl _ _

/-- A naming that finds its head ready writes nothing but its cluster. -/
theorem clustersOnly_nameQueue (s : State) (x : Slot) (slotNo : Nat) (acts : Bool) (n : Naming)
    (h : (x.c.queue n.q).entries ≠ [] ∧ (acts = true → headPoisoned x.c n.q = false)) :
    ClustersOnly s (s.nameQueue x slotNo acts n) := by
  have key : ∀ t : State, t = s → ClustersOnly s (if n.take then t.modCluster x.g fun c => c.note n.q else t) := by
    rintro t rfl
    cases n.take <;> rfl
  unfold State.nameQueue
  apply key
  obtain ⟨h1, h2⟩ := h
  unfold headPoisoned at h2
  split
  · rename_i he
    exact absurd he h1
  · rename_i e l he
    simp only [he] at h2
    cases acts
    · rfl
    · simp only [h2 rfl, Bool.and_false]
      rfl

theorem ClustersOnly.trans {s t u : State} (a : ClustersOnly s t) (b : ClustersOnly t u) : ClustersOnly s u := by
  unfold ClustersOnly at *
  rw [b, a]

/-- A slot's namings are those of its queues, one after the other. -/
theorem nameQueues_eq (s : State) (x : Slot) (slotNo : Nat) (acts : Bool) (ns : List Naming) :
    s.nameQueues x slotNo acts ns = (namedOnce ns).foldl (fun s n => s.nameQueue x slotNo acts n) s := by
  unfold State.nameQueues namedOnce
  split
  · rfl
  · rfl
  · dsimp only
    split <;> rfl
  · rename_i n rest h1 h2
    match rest, h1, h2 with
    | [], h1, _ => exact absurd rfl h1
    | [b], _, h2 => exact absurd rfl (h2 b)
    | _ :: _ :: _, _, _ => rfl

/-- Heads that are ready are ready when each queue is named once. -/
theorem HeadsReady.once {c : Cluster} {acts : Bool} {ns : List Naming} (h : HeadsReady c acts ns) :
    HeadsReady c acts (namedOnce ns) := by
  unfold namedOnce
  split
  · split
    · intro n hn
      rw [List.mem_singleton] at hn
      subst hn
      rename_i a b _
      exact h a (List.mem_cons_self ..)
    · exact h
  · exact h

/-- Named heads: only the record of consumed heads changes in the clusters. -/
theorem moves_nameQueues {s : State} (x : Slot) (slotNo : Nat) (acts : Bool) (ns : List Naming) (h : Live s x.g) :
    Moves x.g s (s.nameQueues x slotNo acts ns) fun c => (namedOnce ns).foldl (noteHead x.c acts) c := by
  rw [nameQueues_eq]
  generalize namedOnce ns = l
  induction l generalizing s with
  | nil => exact Moves.refl _ _
  | cons a l ih =>
    have h1 := moves_nameQueue x slotNo acts a h
    exact h1.trans (ih (h1.live h))

/-- Namings that find every head ready write nothing but their cluster. -/
theorem clustersOnly_nameQueues (s : State) (x : Slot) (slotNo : Nat) (acts : Bool) (ns : List Naming)
    (h : HeadsReady x.c acts ns) : ClustersOnly s (s.nameQueues x slotNo acts ns) := by
  rw [nameQueues_eq]
  replace h := HeadsReady.once h
  generalize namedOnce ns = l at h
  induction l generalizing s with
  | nil => rfl
  | cons a l ih =>
    exact ClustersOnly.trans (clustersOnly_nameQueue s x slotNo acts a (h a (List.mem_cons_self ..)))
      (ih _ fun n hn => h n (List.mem_cons_of_mem _ hn))

/-- The cluster that issues, and the heads it names. -/
theorem moves_named {s : State} {i : Issue} (h : s.canIssue i.cluster.toNat = true) (slotNo : Nat) (acts : Bool)
    (ns : List Naming) :
    Moves i.cluster.toNat s
      ((s.setCluster i.cluster.toNat (s.cluster i.cluster.toNat).begun).nameQueues (slotOf s i) slotNo acts ns)
      fun c => (namedOnce ns).foldl (noteHead (s.cluster i.cluster.toNat) acts) c.begun :=
  (moves_issued s _).trans (moves_nameQueues (slotOf s i) slotNo acts ns
    (live_setCluster (g := i.cluster.toNat) _ (canIssue_live h)))

/-- The cluster that issues and the heads it names write nothing else where the heads are ready. -/
theorem clustersOnly_named {s : State} {i : Issue} (slotNo : Nat) (acts : Bool) (ns : List Naming)
    (h : HeadsReady (s.cluster i.cluster.toNat) acts ns) :
    ClustersOnly s
      ((s.setCluster i.cluster.toNat (s.cluster i.cluster.toNat).begun).nameQueues (slotOf s i) slotNo acts ns) :=
  ClustersOnly.trans (t := s.setCluster i.cluster.toNat (s.cluster i.cluster.toNat).begun) rfl
    (clustersOnly_nameQueues _ (slotOf s i) slotNo acts ns h)

/-- What a slot that names heads and then moves its cluster by f does. -/
theorem Moves.slotChanges {g : Nat} {s t : State} {k f : Cluster → Cluster} {acts : Bool} {ns : List Naming} {calm : Prop}
    (a : Moves g s t k) (e : k (s.cluster g) = f (namedBy acts ns (s.cluster g)))
    (q : calm → HeadsReady (s.cluster g) acts ns → ClustersOnly s t) : SlotChanges g s t acts ns f calm :=
  ⟨a.at_.trans e, a.other, a.only, q⟩

/-- A slot that names heads and then changes its cluster. -/
theorem slotChanges_of {s : State} {i : Issue} (h : s.canIssue i.cluster.toNat = true) (slotNo : Nat)
    (acts : Slot → Bool) (ns : Slot → List Naming) (f : Slot → Cluster → Cluster) :
    SlotChanges i.cluster.toNat s
      (s.issue i fun x s => (s.nameQueues x slotNo (acts x) (ns x)).modCluster x.g (f x)) (acts (slotOf s i))
      (ns (slotOf s i)) (f (slotOf s i)) := by
  rw [issue_eq _ h]
  exact ((moves_named h slotNo _ _).trans (moves_modCluster _ _ _)).slotChanges rfl fun _ hr =>
    ClustersOnly.trans (clustersOnly_named slotNo _ _ hr) rfl

/-- A slot that names heads and then enters results into the pipeline. -/
theorem slotLands_of {s : State} {i : Issue} (h : s.canIssue i.cluster.toNat = true) (slotNo : Nat)
    (acts : Slot → Bool) (ns : Slot → List Naming) (ls : Slot → List Landing) :
    SlotLands i.cluster.toNat s
      (s.issue i fun x s => (s.nameQueues x slotNo (acts x) (ns x)).land x.g (ls x)) (acts (slotOf s i))
      (ns (slotOf s i)) (ls (slotOf s i)) :=
  slotChanges_of h slotNo acts ns fun x => entered (ls x)

/-- A slot that does nothing. -/
theorem slotLands_none {s : State} {i : Issue} (h : s.canIssue i.cluster.toNat = true) :
    SlotLands i.cluster.toNat s (s.issue i fun _ s => s) false [] [] := by
  rw [issue_eq _ h]
  refine (moves_issued s _).slotChanges ?_ fun _ _ => rfl
  simp [entered, namedBy, namedOnce]

/-- One step of the stochastic-rounding generator. -/
theorem moves_stepSr (s : State) (g : Nat) :
    (s.stepSr g).1 = srStep (s.cluster g).sr ∧ Moves g s (s.stepSr g).2 fun c => { c with sr := srStep c.sr } := by
  refine ⟨rfl, ?_⟩
  have := moves_modCluster s g fun c => { c with sr := srStep (s.cluster g).sr }
  exact ⟨this.at_, this.other, this.owner, this.st, this.win, this.only⟩

/-- A Q slot of a cluster that can issue: its effect where it executes. -/
theorem moves_qslot {s : State} {i : Issue} (h : s.canIssue i.cluster.toNat = true) (ns : List Naming)
    (f : Slot → State → State) (k : Cluster → Cluster)
    (hf : ∀ u, Live u i.cluster.toNat → SlotOnly s u → Moves i.cluster.toNat u (f (slotOf s i) u) k) :
    Moves i.cluster.toNat s (s.qslot i ns f) fun c =>
      let named := (namedOnce ns).foldl (noteHead (s.cluster i.cluster.toNat) (qExecutes i (slotOf s i).mask)) c.begun
      if qExecutes i (slotOf s i).mask then k named else named := by
  unfold State.qslot
  rw [issue_eq _ h]
  have hm := moves_named h 3 (qExecutes i (slotOf s i).mask) ns
  dsimp only
  by_cases he : qExecutes i (slotOf s i).mask = true
  · simp only [he, if_true] at hm ⊢
    exact hm.trans (hf _ (hm.live (canIssue_live h)) hm.only)
  · simp only [he] at hm ⊢
    exact hm

end Sys2Proof.Machine
end

