-- ==== Sys2Proof/Laws/Jobs.lean ====
section
/-! SUPPORT. The job beat of every slot: what leaves it as it stands, and the cycles before a beat. -/

namespace Sys2Proof.Machine

/-- No slot's job beat differs. -/
structure SameBeats (s t : State) : Prop where
  beat : ∀ k, (t.job k).beat = (s.job k).beat

theorem SameBeats.refl (s : State) : SameBeats s s := ⟨fun _ => rfl⟩

theorem SameBeats.trans {s t u : State} (a : SameBeats s t) (b : SameBeats t u) : SameBeats s u :=
  ⟨fun k => (b.beat k).trans (a.beat k)⟩

theorem sameBeats_of_jobs {s t : State} (h : t.jobs = s.jobs) : SameBeats s t := by
  refine ⟨fun k => ?_⟩
  unfold State.job
  rw [h]

theorem Outward.sameBeats {s t : State} (h : Outward s t) : SameBeats s t := ⟨fun k => by rw [h.job k]⟩

theorem sameBeats_setJob (s : State) (k : Nat) (x : Job) (h : x.beat = (s.job k).beat) : SameBeats s (s.setJob k x) := by
  refine ⟨fun m => ?_⟩
  by_cases hm : m = k
  · subst hm; simp [h]
  · rw [State.setJob_other _ _ _ _ hm]

theorem sameBeats_modJob (s : State) (k : Nat) (f : Job → Job) (h : ∀ j, (f j).beat = j.beat) :
    SameBeats s (s.modJob k f) := sameBeats_setJob s k _ (h _)

theorem sameBeats_foldl {α : Type} (f : State → α → State) (h : ∀ s x, SameBeats s (f s x)) (l : List α) (s : State) :
    SameBeats s (l.foldl f s) := by
  induction l generalizing s with
  | nil => exact SameBeats.refl s
  | cons a l ih => exact (h s a).trans (ih _)

theorem sameBeats_setStrip (s : State) (k : Nat) (x : StreamSlot) : SameBeats s (s.setStrip k x) := sameBeats_of_jobs rfl

theorem sameBeats_setReg (s : State) (a : Nat) (w : Word) : SameBeats s (s.setReg a w) := sameBeats_of_jobs rfl

theorem sameBeats_logEvent (s : State) (r : EventRec) : SameBeats s (s.logEvent r) := by
  apply sameBeats_of_jobs
  unfold State.logEvent
  dsimp only
  split <;> rfl

theorem sameBeats_countPoison (s : State) (k : Nat) : SameBeats s (s.countPoison k) := by
  have h : SameBeats s (s.modJob k fun j => { j with poisonCounted := true }) := sameBeats_modJob _ _ _ (by intro; rfl)
  unfold State.countPoison
  dsimp only
  generalize (if (s.job k).poisonCounted = true then 0 else s.poisonLeft (s.job k)) = n
  by_cases hn : n = 0
  · simp only [hn, if_true]; exact h
  · simp only [hn, if_false]; exact h.trans (sameBeats_of_jobs rfl)

theorem sameBeats_endIssue (s : State) (k : Nat) : SameBeats s (s.endIssue k) :=
  (sameBeats_countPoison s k).trans (sameBeats_of_jobs rfl)

theorem sameBeats_stopStrips (s : State) (k : Nat) (d : Bool) : SameBeats s (s.stopStrips k d) := by
  unfold State.stopStrips
  exact sameBeats_foldl _ (fun s k => sameBeats_setStrip s k _) _ _

theorem sameBeats_markDone (s : State) (ref : DescRef) (st : Byte) (tag : BitVec 16) (det : BitVec 32) :
    SameBeats s (s.markDone ref st tag det) := (outward_markDone _ _ _ _ _).sameBeats

theorem sameBeats_settleDone (s : State) : SameBeats s s.settleDone := (outward_settleDone s).sameBeats

theorem sameBeats_becomeStopped (s : State) (k : Nat) : SameBeats s (s.becomeStopped k) := by
  unfold State.becomeStopped
  refine SameBeats.trans ?_ (sameBeats_foldl _ (fun _ _ => sameBeats_markDone _ _ _ _ _) _ _)
  refine SameBeats.trans ?_ (outward_markOpt _ _ _ _ _).sameBeats
  exact sameBeats_setJob _ _ _ (by rfl)

theorem sameBeats_stopNow (s : State) (k : Nat) : SameBeats s (s.stopNow k) := by
  have h : ∀ (b : Bool) (a : Nat) (p : TStream → Bool), SameBeats s
      ((((s.endIssue k).stopStrips k b).closeStreams k a p).modJob k fun j => { j with st := .stopping, stopAt := none }) := by
    intro b a p
    refine SameBeats.trans (SameBeats.trans ?_ (outward_closeStreams _ _ _ _).sameBeats) (sameBeats_modJob _ _ _ (by intro; rfl))
    exact (sameBeats_endIssue _ _).trans (sameBeats_stopStrips _ _ _)
  unfold State.stopNow
  dsimp only
  cases (s.job k).stopKind != 1#8
  · simp only [Bool.false_eq_true, if_false, Bool.false_or]
    split
    · exact (h _ _ _).trans (sameBeats_becomeStopped _ _)
    · exact h _ _ _
  · simp only [if_true, Bool.true_or]
    exact (h _ _ _).trans (sameBeats_becomeStopped _ _)

theorem sameBeats_killJob (s : State) (k : Nat) (kind : BitVec 8) : SameBeats s (s.killJob k kind) := by
  unfold State.killJob
  dsimp only
  split
  · refine SameBeats.trans ?_ (sameBeats_becomeStopped _ _)
    refine SameBeats.trans ?_ (sameBeats_modJob _ _ _ (by intro; rfl))
    exact (sameBeats_stopStrips _ _ _).trans (outward_closeStreams _ _ _ _).sameBeats
  · exact sameBeats_setJob _ _ _ (by rfl)
  · split
    · exact SameBeats.refl _
    · exact (sameBeats_setJob _ _ _ (by rfl)).trans (sameBeats_stopNow _ _)
  · exact SameBeats.refl _

theorem sameBeats_drainQuiet (s : State) : SameBeats s s.drainQuiet :=
  sameBeats_foldl _ (fun s k => sameBeats_killJob s k 3#8) _ _

theorem sameBeats_enterPair (s : State) : SameBeats s s.enterPair := by
  unfold State.enterPair
  split <;> exact sameBeats_of_jobs rfl

theorem sameBeats_setPairState (s : State) (v : Nat) : SameBeats s (s.setPairState v) := by
  have h : SameBeats s ((s.setField Reg.PST_PAIR_STATUS 0 4 v).signalZero 0) :=
    SameBeats.trans (sameBeats_setReg s _ _) (outward_signalZero (s.setField Reg.PST_PAIR_STATUS 0 4 v) 0).sameBeats
  unfold State.setPairState
  dsimp only
  split
  · exact SameBeats.refl _
  · split
    · exact h.trans (sameBeats_enterPair _)
    · exact h

theorem sameBeats_pairFails (s : State) (c : Nat) : SameBeats s (s.pairFails c) := by
  unfold State.pairFails
  split
  · dsimp only
    refine SameBeats.trans ?_ (sameBeats_logEvent _ _)
    refine SameBeats.trans ?_ (sameBeats_drainQuiet _)
    refine SameBeats.trans (SameBeats.trans ?_ (sameBeats_setPairState _ _)) (sameBeats_of_jobs rfl)
    exact sameBeats_foldl _ (fun _ _ => (outward_sendMsg _ _ _ _ _ _ _ _).sameBeats) _ _
  · exact SameBeats.refl _

theorem sameBeats_failOrSettle (s : State) (f : Option Nat) : SameBeats s (s.failOrSettle f) := by
  unfold State.failOrSettle
  split
  · exact (sameBeats_pairFails _ _).trans (sameBeats_settleDone _)
  · exact sameBeats_settleDone _

theorem sameBeats_fresh (s : State) : SameBeats s s.fresh.2 := sameBeats_of_jobs rfl

theorem sameBeats_markStart (s : State) (k : Nat) : SameBeats s (s.markStart k) := by
  unfold State.markStart
  dsimp only
  split
  · exact (sameBeats_modJob _ _ _ (by intro; rfl)).trans (outward_markOpt _ _ _ _ _).sameBeats
  · exact SameBeats.refl _

theorem sameBeats_faultJob (s : State) (k : Nat) : SameBeats s (s.faultJob k) := by
  have base : SameBeats s (((s.endIssue k).stopStrips k true).closeStreams k 1 (fun _ => true)) :=
    ((sameBeats_endIssue _ _).trans (sameBeats_stopStrips _ _ _)).trans (outward_closeStreams _ _ _ _).sameBeats
  unfold State.faultJob
  dsimp only
  have fin : ∀ (v : Nat) (u : State), SameBeats s u → SameBeats s
      ((s.job k).stopRefs.foldl (fun w r => w.markDone r (BitVec.ofNat 8 v) (s.job k).tag (BitVec.ofNat 32 (v / 256)))
        ((u.modJob k fun j => { j with st := .faulted, stopAt := none, stopRefs := [] }).markStart k)) := by
    intro v u hu
    refine SameBeats.trans ?_ (sameBeats_foldl _ (fun _ _ => sameBeats_markDone _ _ _ _ _) _ _)
    exact (hu.trans (sameBeats_modJob _ _ _ (by intro; rfl))).trans (sameBeats_markStart _ _)
  split
  all_goals first
    | exact SameBeats.refl _
    | (by_cases he : (s.job k).stopRefs.isEmpty = true
       · simp only [he, if_true]; exact fin _ _ base
       · simp only [he]; exact fin _ _ (base.trans (sameBeats_fresh _)))

theorem sameBeats_faultsAtBeatEnd (s : State) (k : Nat) : SameBeats s (s.faultsAtBeatEnd k) := by
  unfold State.faultsAtBeatEnd
  dsimp only
  split
  · exact ((sameBeats_faultJob _ _).trans (sameBeats_modJob _ _ _ (by intro; rfl))).trans (sameBeats_failOrSettle _ _)
  · exact SameBeats.refl _

theorem sameBeats_advanceTo (s : State) (t : Nat) : SameBeats s (s.advanceTo t) :=
  sameBeats_of_jobs (State.advanceTo_jobs s t)

theorem sameBeats_openWindow (s : State) (k : Nat) : SameBeats s (s.openWindow k) := by
  unfold State.openWindow
  dsimp only
  split
  · exact sameBeats_setJob _ _ _ (by rfl)
  · exact SameBeats.refl _

theorem sameBeats_stopEvent (s : State) (k : Nat) (r : EventRec) : SameBeats s (s.stopEvent k r) :=
  ((sameBeats_logEvent _ _).trans (sameBeats_faultJob _ _)).trans (sameBeats_failOrSettle _ _)

theorem sameBeats_slotFault (s : State) (k : Nat) (r : EventRec) : SameBeats s (s.slotFault k r) := by
  unfold State.slotFault
  dsimp only
  split
  · exact (sameBeats_logEvent _ _).trans (sameBeats_modJob _ _ _ (by intro; rfl))
  · exact sameBeats_stopEvent _ _ _

theorem sameBeats_streamFault (s : State) (key cause off : Nat) : SameBeats s (s.streamFault key cause off) :=
  sameBeats_slotFault _ _ _

theorem sameBeats_clusterFault (s : State) (g : Nat) (r : EventRec) : SameBeats s (s.clusterFault g r) := by
  unfold State.clusterFault
  dsimp only
  split
  · exact sameBeats_slotFault _ _ _
  · exact sameBeats_logEvent _ _

theorem sameBeats_bump (s : State) (a lo w n : Nat) : SameBeats s (s.bump a lo w n) := sameBeats_setReg _ _ _

theorem sameBeats_countDrop (s : State) (g q : Nat) (x : Option (Nat × Nat)) (inj : Bool) :
    SameBeats s (s.countDrop g q x inj) := by
  have h : ∀ a, SameBeats s (s.bump a 0 32 1) := fun a => sameBeats_bump s a 0 32 1
  unfold State.countDrop
  dsimp only
  generalize (if inj = true then Reg.FAB_INJ_DROP_COUNT (gidDie g) else Reg.FAB_DROP_COUNT (gidDie g)) = a
  split
  · exact h a
  · exact (h a).trans (sameBeats_setReg _ _ _)

theorem sameBeats_fabricFault (s : State) (g cause q : Nat) (x : Option (Nat × Nat)) :
    SameBeats s (s.fabricFault g cause q x) := sameBeats_clusterFault _ _ _

theorem sameBeats_drop (s : State) (g cause q : Nat) (x : Option (Nat × Nat)) : SameBeats s (s.drop g cause q x) :=
  (sameBeats_countDrop _ _ _ _ _).trans (sameBeats_fabricFault _ _ _ _ _)

theorem sameBeats_closeBlock (s : State) (key : Nat) : SameBeats s (s.closeBlock key) := by
  unfold State.closeBlock
  dsimp only
  split <;> exact sameBeats_of_jobs rfl

theorem sameBeats_signEntry (s : State) (key : Nat) (e : Entry) : SameBeats s (s.signEntry key e) := by
  unfold State.signEntry
  dsimp only
  split
  · split
    · exact (sameBeats_setStrip _ _ _).trans (sameBeats_closeBlock _ _)
    · exact sameBeats_setStrip _ _ _
  · exact SameBeats.refl _

theorem sameBeats_giveCredits (s : State) (key : Nat) : SameBeats s (s.giveCredits key) := by
  unfold State.giveCredits
  dsimp only
  split
  · split
    · exact (sameBeats_setStrip _ _ _).trans (sameBeats_closeBlock _ _)
    · exact sameBeats_setStrip _ _ _
  · exact SameBeats.refl _

theorem sameBeats_stackRead (s : State) (k loc : Nat) (tag : BitVec 16) : SameBeats s (s.stackRead k loc tag).2.2.2 := by
  unfold State.stackRead
  dsimp only
  split
  · exact SameBeats.refl _
  · split
    · rename_i w fixed _
      cases fixed
      · exact SameBeats.refl _
      · simp only [Bool.not_true, Bool.false_eq_true, if_false, if_true]
        split
        · exact sameBeats_of_jobs rfl
        · refine SameBeats.trans ?_ (sameBeats_logEvent _ _)
          exact sameBeats_of_jobs rfl
    · split
      · exact sameBeats_of_jobs rfl
      · refine SameBeats.trans ?_ (sameBeats_logEvent _ _)
        unfold State.ueFirst
        split <;> exact sameBeats_of_jobs rfl

theorem sameBeats_readLine (s : State) (a : Nat) (tag : BitVec 16) : SameBeats s (s.readLine a tag).2.2 := by
  unfold State.readLine
  split
  · split
    · exact sameBeats_stackRead _ _ _ _
    · exact sameBeats_fresh _
  · exact sameBeats_fresh _

theorem sameBeats_writeLine (s : State) (a : Nat) (d : BitVec 512) (p both : Bool) :
    SameBeats s (s.writeLine a d p both).1 := by
  unfold State.writeLine
  split
  · split
    · apply sameBeats_of_jobs
      unfold State.stackWrite State.noteWrite
      dsimp only
      split <;> rfl
    · exact SameBeats.refl _
  · exact SameBeats.refl _

theorem sameBeats_chsWrite (s : State) (a : Nat) (bs : List Byte) (p : Nat → Bool) (tag : BitVec 16) (both : Bool) :
    SameBeats s (s.chsWrite a bs p tag both).1 := by
  have fold : ∀ (l : List (Nat × Nat × Nat)) (f : State × List Nat → Nat × Nat × Nat → State × List Nat),
      (∀ u x, SameBeats u.1 (f u x).1) → ∀ u : State × List Nat, SameBeats u.1 (l.foldl f u).1 := by
    intro l f hf
    induction l with
    | nil => intro u; exact SameBeats.refl _
    | cons x l ih => intro u; exact (hf u x).trans (ih _)
  refine fold _ _ (fun u x => ?_) (s, [])
  dsimp only
  split
  · exact sameBeats_writeLine _ _ _ _ _
  · exact (sameBeats_readLine _ _ _).trans (sameBeats_writeLine _ _ _ _ _)

theorem sameBeats_spillLost (s : State) (g win addr off : Nat) : SameBeats s (s.spillLost g win addr off) := by
  unfold State.spillLost
  split
  · exact sameBeats_streamFault _ _ _ _
  · dsimp only
    split
    · exact (sameBeats_fresh _).trans (sameBeats_slotFault _ _ _)
    · exact (sameBeats_fresh _).trans (sameBeats_logEvent _ _)

theorem sameBeats_hashWrite (s : State) (g win base addr : Nat) (bs : List Byte) :
    SameBeats s (s.hashWrite g win base addr bs).1 := by
  unfold State.hashWrite
  dsimp only
  split
  · exact (sameBeats_chsWrite _ _ _ _ _ _).trans (sameBeats_spillLost _ _ _ _ _)
  · exact sameBeats_chsWrite _ _ _ _ _ _

theorem sameBeats_creditReturn (s : State) (named : Nat) (m : BitVec 16) : SameBeats s (s.creditReturn named m) := by
  unfold State.creditReturn
  split
  · exact SameBeats.refl _
  · dsimp only
    split
    · exact SameBeats.refl _
    · split
      · split
        · exact sameBeats_streamFault _ _ _ _
        · exact sameBeats_setStrip _ _ _
      · exact sameBeats_streamFault _ _ _ _
  · split
    · exact sameBeats_streamFault _ _ _ _
    · exact SameBeats.refl _

theorem sameBeats_acceptEntry (s : State) (key : Nat) (e : Entry) (g edge unit : Nat) :
    SameBeats s (s.acceptEntry key e g edge unit) := by
  unfold State.acceptEntry
  dsimp only
  split
  · exact (sameBeats_countDrop _ _ _ _ _).trans (sameBeats_streamFault _ _ _ _)
  · split
    · exact sameBeats_drop _ _ _ _ _
    · exact (sameBeats_setStrip _ _ _).trans (sameBeats_signEntry _ _ _)

theorem sameBeats_acceptSpill (s : State) (key : Nat) (e : Entry) (g edge unit : Nat) :
    SameBeats s (s.acceptSpill key e g edge unit) := by
  unfold State.acceptSpill
  dsimp only
  split
  · have sent (x : StreamSlot) (win base addr : Nat) (bs : List Byte) (g : Nat) :
        SameBeats s (((s.setStrip key x).signEntry key e).hashWrite g win base addr bs).1 :=
      ((sameBeats_setStrip s key x).trans (sameBeats_signEntry _ key e)).trans (sameBeats_hashWrite _ _ _ _ _ _)
    split
    · exact ((sent _ _ _ _ _ _).trans (sameBeats_setStrip _ _ _)).trans (sameBeats_giveCredits _ _)
    · exact sent _ _ _ _ _ _
  · exact (sameBeats_countDrop _ _ _ _ _).trans (sameBeats_streamFault _ _ _ _)

theorem sameBeats_transitMove (s : State) (k : Nat) : SameBeats s (s.transitMove k) := by
  unfold State.transitMove
  dsimp only
  refine SameBeats.trans ?_ (sameBeats_foldl _ (fun s t => ?_) _ _)
  · exact sameBeats_of_jobs rfl
  · unfold State.stripTakes
    split
    · exact sameBeats_creditReturn _ _ _
    · split
      · exact sameBeats_acceptSpill _ _ _ _ _ _
      · exact sameBeats_acceptEntry _ _ _ _ _ _

theorem sameBeats_passCycle (s : State) (k : Nat) : SameBeats s (s.passCycle k) := by
  unfold State.passCycle
  dsimp only
  refine SameBeats.trans (SameBeats.trans ?_ (sameBeats_transitMove _ _)) (sameBeats_advanceTo _ _)
  exact sameBeats_setJob _ _ _ (by rfl)

theorem sameBeats_closeSent (s : State) (k : Nat) : SameBeats s (s.closeSent k) := by
  unfold State.closeSent
  refine sameBeats_foldl _ (fun s k => ?_) _ _
  unfold State.closeIfSent
  dsimp only
  repeat' split
  all_goals first
    | exact SameBeats.refl _
    | exact (outward_closeStream _ _ _).sameBeats

/-- The cycles that a swap or Drag withholds leave every job beat as it was. -/
theorem sameBeats_passAll (s t : State) (k n : Nat) (h : s.passAll k n = some t) : SameBeats s t := by
  induction n generalizing s with
  | zero => cases h
  | succ n ih =>
    unfold State.passAll at h
    dsimp only at h
    split at h
    · exact ((sameBeats_openWindow _ _).trans (sameBeats_passCycle _ _)).trans (ih _ h)
    · cases h
      exact sameBeats_openWindow _ _

end Sys2Proof.Machine
end

