-- ==== Sys2Proof/Laws/Keyed.lean ====
section
/-! SUPPORT. The keyed parts of the state: what a part reads after one of its kind was written, and what an advance
of time does. -/

namespace Sys2Proof.Machine

@[simp] theorem cluster_setCluster_same (s : State) (k : Nat) (x : Cluster) : (s.setCluster k x).cluster k = x := AMap.get_set_same _ _ _ _
theorem cluster_setCluster_other (s : State) (k j : Nat) (x : Cluster) (h : j ≠ k) : (s.setCluster k x).cluster j = s.cluster j :=
  AMap.get_set_other _ _ _ _ _ h
@[simp] theorem xunit_setXunit_same (s : State) (k : Nat) (x : XUnit) : (s.setXunit k x).xunit k = x := AMap.get_set_same _ _ _ _
theorem xunit_setXunit_other (s : State) (k j : Nat) (x : XUnit) (h : j ≠ k) : (s.setXunit k x).xunit j = s.xunit j :=
  AMap.get_set_other _ _ _ _ _ h
@[simp] theorem strip_setStrip_same (s : State) (k : Nat) (x : StreamSlot) : (s.setStrip k x).strip k = x := AMap.get_set_same _ _ _ _
theorem strip_setStrip_other (s : State) (k j : Nat) (x : StreamSlot) (h : j ≠ k) : (s.setStrip k x).strip j = s.strip j :=
  AMap.get_set_other _ _ _ _ _ h
@[simp] theorem stack_setStack_same (s : State) (k : Nat) (x : Stack) : (s.setStack k x).stack k = x := AMap.get_set_same _ _ _ _
theorem stack_setStack_other (s : State) (k j : Nat) (x : Stack) (h : j ≠ k) : (s.setStack k x).stack j = s.stack j :=
  AMap.get_set_other _ _ _ _ _ h
@[simp] theorem fn_setFn_same (s : State) (k : Nat) (x : FnState) : (s.setFn k x).fn k = x := AMap.get_set_same _ _ _ _
theorem fn_setFn_other (s : State) (k j : Nat) (x : FnState) (h : j ≠ k) : (s.setFn k x).fn j = s.fn j :=
  AMap.get_set_other _ _ _ _ _ h
@[simp] theorem ring_setRing_same (s : State) (k : Nat) (x : Ring) : (s.setRing k x).ring k = x := AMap.get_set_same _ _ _ _
theorem ring_setRing_other (s : State) (k j : Nat) (x : Ring) (h : j ≠ k) : (s.setRing k x).ring j = s.ring j :=
  AMap.get_set_other _ _ _ _ _ h
@[simp] theorem job_setJob_same (s : State) (k : Nat) (x : Job) : (s.setJob k x).job k = x := AMap.get_set_same _ _ _ _
theorem job_setJob_other (s : State) (k j : Nat) (x : Job) (h : j ≠ k) : (s.setJob k x).job j = s.job j :=
  AMap.get_set_other _ _ _ _ _ h
@[simp] theorem port_setPort_same (s : State) (k : Nat) (x : Port) : (s.setPort k x).port k = x := AMap.get_set_same _ _ _ _
theorem port_setPort_other (s : State) (k j : Nat) (x : Port) (h : j ≠ k) : (s.setPort k x).port j = s.port j :=
  AMap.get_set_other _ _ _ _ _ h
@[simp] theorem engine_setEngine_same (s : State) (k : Nat) (x : Engine) : (s.setEngine k x).engine k = x := AMap.get_set_same _ _ _ _
theorem engine_setEngine_other (s : State) (k j : Nat) (x : Engine) (h : j ≠ k) : (s.setEngine k x).engine j = s.engine j :=
  AMap.get_set_other _ _ _ _ _ h
@[simp] theorem stream_setStream_same (s : State) (k : Nat) (x : TStream) : (s.setStream k x).stream k = x := AMap.get_set_same _ _ _ _
theorem stream_setStream_other (s : State) (k j : Nat) (x : TStream) (h : j ≠ k) : (s.setStream k x).stream j = s.stream j :=
  AMap.get_set_other _ _ _ _ _ h
@[simp] theorem die_setDie_same (s : State) (k : Nat) (x : Die) : (s.setDie k x).die k = x := AMap.get_set_same _ _ _ _
theorem die_setDie_other (s : State) (k j : Nat) (x : Die) (h : j ≠ k) : (s.setDie k x).die j = s.die j :=
  AMap.get_set_other _ _ _ _ _ h

/-- An advance of time moves the Milestone to the time, if it has not passed it. -/
@[simp] theorem advanceTo_ms (s : State) (t : Nat) : (s.advanceTo t).ms = max s.ms t := by
  unfold State.advanceTo; split <;> simp <;> omega

/-- An advance of time moves the two clocks, corrects a follower's offset, latches what a planned read samples, and nothing
else. -/
theorem advanceTo_eq (s : State) (t : Nat) :
    s.advanceTo t = { s with
      ms := (s.advanceTo t).ms, up := (s.advanceTo t).up, msOff := (s.advanceTo t).msOff, man := (s.advanceTo t).man } := by
  unfold State.advanceTo; split <;> rfl

end Sys2Proof.Machine
end

