-- ==== Sys2Proof/Laws/Keys.lean ====
section
/-! SUPPORT. Maps whose keys rise: writes keep the order, and a key that is there splits the list. -/

namespace Sys2Proof

theorem keysRise_cons {α : Type} (p : Nat × α) (m : AMap α) : KeysRise (p :: m) ↔ (∀ x ∈ m, p.1 < x.1) ∧ KeysRise m := by
  unfold KeysRise
  simp [List.pairwise_cons]

theorem mem_erase {α : Type} (m : AMap α) (k : Nat) (x : Nat × α) (h : x ∈ AMap.erase m k) : x ∈ m := by
  induction m with
  | nil => exact h
  | cons p m ih =>
    obtain ⟨a, v⟩ := p
    by_cases e : a = k
    · simp only [AMap.erase, e, if_true] at h
      exact List.mem_cons_of_mem _ (ih h)
    · simp only [AMap.erase, e, if_false] at h
      rcases List.mem_cons.1 h with rfl | h
      · exact List.mem_cons_self ..
      · exact List.mem_cons_of_mem _ (ih h)

theorem mem_insert {α : Type} (m : AMap α) (k : Nat) (w : α) (x : Nat × α) (h : x ∈ AMap.insert m k w) : x = (k, w) ∨ x ∈ m := by
  induction m with
  | nil => simpa [AMap.insert] using h
  | cons p m ih =>
    obtain ⟨a, v⟩ := p
    simp only [AMap.insert] at h
    split at h
    · rcases List.mem_cons.1 h with rfl | h
      · exact .inl rfl
      · exact .inr h
    · split at h
      · rcases List.mem_cons.1 h with rfl | h
        · exact .inl rfl
        · exact .inr (List.mem_cons_of_mem _ h)
      · rcases List.mem_cons.1 h with rfl | h
        · exact .inr (List.mem_cons_self ..)
        · rcases ih h with rfl | h
          · exact .inl rfl
          · exact .inr (List.mem_cons_of_mem _ h)

theorem keysRise_erase {α : Type} (m : AMap α) (k : Nat) (h : KeysRise m) : KeysRise (AMap.erase m k) := by
  induction m with
  | nil => exact h
  | cons p m ih =>
    obtain ⟨a, v⟩ := p
    rw [keysRise_cons] at h
    by_cases e : a = k
    · simp only [AMap.erase, e, if_true]
      exact ih h.2
    · simp only [AMap.erase, e, if_false]
      rw [keysRise_cons]
      exact ⟨fun x hx => h.1 x (mem_erase m k x hx), ih h.2⟩

theorem keysRise_insert {α : Type} (m : AMap α) (k : Nat) (w : α) (h : KeysRise m) : KeysRise (AMap.insert m k w) := by
  induction m with
  | nil => simp [AMap.insert, KeysRise]
  | cons p m ih =>
    obtain ⟨a, v⟩ := p
    rw [keysRise_cons] at h
    simp only [AMap.insert]
    split
    · rw [keysRise_cons, keysRise_cons]
      refine ⟨fun x hx => ?_, h⟩
      rcases List.mem_cons.1 hx with rfl | hx
      · assumption
      · have := h.1 x hx
        dsimp only at *
        omega
    · split
      · rename_i e
        rw [keysRise_cons]
        refine ⟨fun x hx => ?_, h.2⟩
        have := h.1 x hx
        dsimp only at *
        omega
      · rw [keysRise_cons]
        refine ⟨fun x hx => ?_, ih h.2⟩
        rcases mem_insert m k w x hx with rfl | hx
        · dsimp only
          omega
        · exact h.1 x hx

/-- A write keeps the order of the keys. -/
theorem keysRise_set {α : Type} [DecidableEq α] (d : α) (m : AMap α) (k : Nat) (w : α) (h : KeysRise m) :
    KeysRise (AMap.set d m k w) := by
  unfold AMap.set
  split
  · exact keysRise_erase m k h
  · exact keysRise_insert m k w h

/-- Entries changed in place, their keys as they are. -/
theorem keysRise_map {α β : Type} (m : AMap α) (f : Nat × α → Nat × β) (hf : ∀ p, (f p).1 = p.1) (h : KeysRise m) : KeysRise (m.map f) := by
  unfold KeysRise at *
  rw [List.map_map]
  have : (fun p : Nat × β => p.1) ∘ f = fun p => p.1 := funext hf
  rw [this]
  exact h

/-- Entries dropped. -/
theorem keysRise_filter {α : Type} (m : AMap α) (f : Nat × α → Bool) (h : KeysRise m) : KeysRise (m.filter f) :=
  List.Pairwise.sublist (List.Sublist.map _ List.filter_sublist) h

/-- A key that is there stands once. -/
theorem keysRise_split {α : Type} (d : α) (m : AMap α) (k : Nat) (h : KeysRise m) (hk : AMap.get d m k ≠ d) :
    ∃ l r, m = l ++ (k, AMap.get d m k) :: r ∧ (∀ p ∈ l, p.1 ≠ k) ∧ ∀ p ∈ r, p.1 ≠ k := by
  induction m with
  | nil => exact absurd rfl hk
  | cons a m ih =>
    obtain ⟨n, v⟩ := a
    rw [keysRise_cons] at h
    by_cases e : n = k
    · subst e
      refine ⟨[], m, ?_, (by intro p hp; cases hp), fun p hp => ?_⟩
      · simp [AMap.get]
      · have := h.1 p hp
        dsimp only at this
        omega
    · have hg : AMap.get d ((n, v) :: m) k = AMap.get d m k := by simp [AMap.get, e]
      rw [hg] at hk ⊢
      obtain ⟨l, r, h1, h2, h3⟩ := ih h.2 hk
      refine ⟨(n, v) :: l, r, ?_, ?_, h3⟩
      · rw [List.cons_append, ← h1]
      · intro p hp
        rcases List.mem_cons.1 hp with rfl | hp
        · exact e
        · exact h2 p hp

end Sys2Proof
end

