-- ==== Sys2Proof/Laws/Memory.lean ====
section
/-! SUPPORT. Byte memory: what a byte reads after a write, and that every write keeps the canonical form. -/

namespace Sys2Proof.Machine

/-- Every write of bytes keeps the canonical form. -/
theorem writeBytes_wf (m : Mem) (a : Nat) (bs : List Byte) (h : AMap.wf (0 : Byte) m = true) :
    AMap.wf (0 : Byte) (writeBytes m a bs) = true := by
  induction bs generalizing m a with
  | nil => exact h
  | cons b bs ih => exact ih _ _ (AMap.wf_set 0 m a b h)

/-- Every write of a number keeps the canonical form. -/
theorem writeLe_wf (m : Mem) (a n v : Nat) (h : AMap.wf (0 : Byte) m = true) :
    AMap.wf (0 : Byte) (writeLe m a n v) = true := writeBytes_wf m a _ h

/-- A byte below the written ones reads as before. -/
theorem get_writeBytes_below (m : Mem) (a n : Nat) (bs : List Byte) (h : n < a) :
    AMap.get (0 : Byte) (writeBytes m a bs) n = AMap.get 0 m n := by
  induction bs generalizing m a with
  | nil => rfl
  | cons b bs ih =>
    rw [writeBytes, ih _ _ (by omega), AMap.get_set_other _ _ _ _ _ (by omega)]

/-- A byte above the written ones reads as before. -/
theorem get_writeBytes_above (m : Mem) (a n : Nat) (bs : List Byte) (h : a + bs.length ≤ n) :
    AMap.get (0 : Byte) (writeBytes m a bs) n = AMap.get 0 m n := by
  induction bs generalizing m a with
  | nil => rfl
  | cons b bs ih =>
    simp only [List.length_cons] at h
    rw [writeBytes, ih _ _ (by omega), AMap.get_set_other _ _ _ _ _ (by omega)]

/-- A written byte reads as it was written. -/
theorem get_writeBytes_at (m : Mem) (a i : Nat) (bs : List Byte) (h : i < bs.length) :
    AMap.get (0 : Byte) (writeBytes m a bs) (a + i) = bs[i] := by
  induction bs generalizing m a i with
  | nil => simp at h
  | cons b bs ih =>
    cases i with
    | zero =>
      show AMap.get (0 : Byte) (writeBytes (AMap.set 0 m a b) (a + 1) bs) a = b
      rw [get_writeBytes_below _ _ _ _ (by omega), AMap.get_set_same]
    | succ i =>
      have h2 : a + (i + 1) = a + 1 + i := by omega
      simp only [writeBytes, List.getElem_cons_succ, h2]
      exact ih _ _ _ (by simpa using h)

/-- Reading bytes gives as many as were asked for. -/
@[simp] theorem readBytes_length (m : Mem) (a n : Nat) : (readBytes m a n).length = n := by
  induction n generalizing a with
  | zero => rfl
  | succ n ih => simp [readBytes, ih]

/-- A number gives as many bytes as were asked for. -/
@[simp] theorem natLe_length (v n : Nat) : (natLe v n).length = n := by
  induction n generalizing v with
  | zero => rfl
  | succ n ih => simp [natLe, ih]

/-- Bytes written are bytes read. -/
theorem readBytes_writeBytes (m : Mem) (a : Nat) (bs : List Byte) :
    readBytes (writeBytes m a bs) a bs.length = bs := by
  induction bs generalizing m a with
  | nil => rfl
  | cons b bs ih =>
    show AMap.get (0 : Byte) (writeBytes (AMap.set 0 m a b) (a + 1) bs) a ::
      readBytes (writeBytes (AMap.set 0 m a b) (a + 1) bs) (a + 1) bs.length = b :: bs
    rw [get_writeBytes_below _ _ _ _ (by omega), AMap.get_set_same, ih]

/-- The bytes of a number spell it. -/
theorem leNat_natLe (v n : Nat) : leNat (natLe v n) = v % 256 ^ n := by
  induction n generalizing v with
  | zero => simp [natLe, leNat, Nat.mod_one]
  | succ n ih =>
    have h8 : (2 : Nat) ^ 8 = 256 := rfl
    rw [natLe, leNat, ih, BitVec.toNat_ofNat, h8, Nat.pow_succ', Nat.mod_mul]

/-- A number written is the number read. -/
theorem readLe_writeLe (m : Mem) (a n v : Nat) : readLe (writeLe m a n v) a n = v % 256 ^ n := by
  have h := readBytes_writeBytes m a (natLe v n)
  simp only [natLe_length] at h
  rw [readLe, writeLe, h, leNat_natLe]

end Sys2Proof.Machine
end

