-- ==== Sys2Proof/Laws/Sram.lean ====
section
/-! SUPPORT. Reads of lane SRAM without uncorrectable errors, transfers that every lane may make. -/

namespace Sys2Proof.Machine

theorem foldl_add {α : Type} (f : α → Nat) (l : List α) (n : Nat) :
    l.foldl (fun n a => n + f a) n = n + (l.map f).sum := by
  induction l generalizing n with
  | nil => simp
  | cons a l ih => simp [ih, Nat.add_assoc]

/-- A lane whose reads hold no uncorrectable error faults nowhere. -/
theorem laneUncorrectable_ok (s : State) (x : Slot) (l : Nat) (spans : List (Nat × Nat))
    (h : ∀ p ∈ spans, ((x.c.lane l).errors p.1 p.2).2 = 0) : s.laneUncorrectable x l spans = s := by
  unfold State.laneUncorrectable
  rw [List.find?_eq_none.2]
  intro p hp
  simp [h p hp]

/-- Reads that hold no uncorrectable error count what they correct, and nothing else. -/
theorem moves_sramRead (s : State) (x : Slot) (lanes : List Nat) (spans : Nat → List (Nat × Nat))
    (h : Readable x lanes spans) :
    Moves x.g s (s.sramRead x lanes spans) fun c =>
      { c with corrected := c.corrected + BitVec.ofNat 32 (correctedIn x lanes spans) } := by
  have ones : lanes.foldl (fun n l => n + (x.c.lane l).singles (spans l)) 0 = correctedIn x lanes spans := by
    rw [foldl_add (fun l => (x.c.lane l).singles (spans l)), Nat.zero_add]
    unfold correctedIn Lane.singles
    congr 1
    apply List.map_congr_left
    intro l _
    rw [foldl_add fun p : Nat × Nat => ((x.c.lane l).errors p.1 p.2).1, Nat.zero_add]
  have quiet : ∀ (ls : List Nat) (t : State), (∀ l ∈ ls, ∀ p ∈ spans l, ((x.c.lane l).errors p.1 p.2).2 = 0) →
      ls.foldl (fun s l => s.laneUncorrectable x l (spans l)) t = t := by
    intro ls
    induction ls with
    | nil => intros; rfl
    | cons a ls ih =>
      intro t ht
      rw [List.foldl_cons, laneUncorrectable_ok _ _ _ _ (ht a (by simp))]
      exact ih t fun l hl => ht l (by simp [hl])
  unfold State.sramRead
  dsimp only
  rw [quiet _ _ h, ones]
  split
  · rename_i hz
    have := Moves.refl x.g s
    refine ⟨?_, this.other, this.owner, this.st, this.win, this.only⟩
    rw [hz]
    simp
  · exact moves_modCluster s x.g _

/-- A transfer that every acting lane may make goes on. -/
theorem transfer_ok (s : State) (x : Slot) (lanes : List Nat) (a n m : Nat) (h : TransferOk x lanes a n m) :
    ∃ u, s.transfer x lanes a n m = (some u, s) := by
  obtain ⟨u, hu, hb⟩ := h
  refine ⟨u, ?_⟩
  unfold State.transfer
  rw [hu]
  dsimp only
  rw [if_neg]
  intro hc
  simp only [Bool.and_eq_true, decide_eq_true_eq, Bool.not_eq_true', List.isEmpty_eq_false_iff] at hc
  rcases hb hc.1.1 with h1 | h1
  · omega
  · exact hc.2 h1

theorem moves_postInc (s : State) (x : Slot) (inc : Bool) (sb : BitVec 5) (n : Nat) :
    Moves x.g s (s.postInc x inc sb n) fun c => { c with pend := c.pend ++ postLanding x inc sb n } := by
  unfold State.postInc postLanding
  split
  · exact moves_land s x.g _
  · simp only [List.append_nil]
    exact Moves.refl x.g s

theorem moves_landAll (s : State) (g beats : Nat) (ts : List Target) :
    Moves g s (s.landAll g beats ts) fun c => { c with pend := c.pend ++ together beats ts } :=
  moves_land s g _

theorem moves_inject (s : State) (g net : Nat) (v : BitVec 512) (wait : Nat) :
    Moves g s (s.inject g net v false wait) (injected net v wait) :=
  moves_modCluster s g _

end Sys2Proof.Machine
end

