-- ==== Sys2Proof/Laws/Trace.lean ====
section
/-! SUPPORT. The Waybill probes touch the Waybill and its counters only. -/

namespace Sys2Proof.Machine

theorem probesOnly_refl (s : State) : ProbesOnly s s := ⟨rfl, fun _ _ => rfl⟩

theorem probesOnly_trans {s t u : State} (a : ProbesOnly s t) (b : ProbesOnly t u) : ProbesOnly s u := by
  refine ⟨?_, fun r hr => (b.regs r hr).trans (a.regs r hr)⟩
  rw [b.rest, a.rest]

/-- An entry of a probe, delivered or dropped. -/
theorem probesOnly_wayEntry (s : State) (j src data : Nat) : ProbesOnly s (s.wayEntry j src data) := by
  unfold State.wayEntry
  dsimp only
  split
  · exact ⟨rfl, fun a ha => reg_bump_other _ _ a _ _ _ ha⟩
  · exact ⟨rfl, fun _ _ => rfl⟩

/-- A fold of steps each of which touches the probes only. -/
theorem probesOnly_foldl {α : Type} (f : State → α → State) (h : ∀ s x, ProbesOnly s (f s x)) (l : List α) (s : State) :
    ProbesOnly s (l.foldl f s) := by
  induction l generalizing s with
  | nil => exact probesOnly_refl s
  | cons a l ih => exact probesOnly_trans (h s a) (ih _)

/-- The probes of a command. -/
theorem probesOnly_traced (s t : State) : ProbesOnly t (s.traced t) :=
  probesOnly_foldl _ (fun _ _ => probesOnly_foldl _ (fun _ _ => probesOnly_wayEntry _ _ _ _) _ _) _ _

/-- The probes of a signal. -/
theorem probesOnly_probeSignal (s : State) (g cpl : Nat) (src : BitVec 20) (n : Nat) :
    ProbesOnly s (s.probeSignal g cpl src n) := by
  unfold State.probeSignal
  apply probesOnly_foldl
  intro u j
  split
  · exact probesOnly_wayEntry _ _ _ _
  · exact probesOnly_refl _

theorem reg_traced (s t : State) (a : Nat) (h : a ≠ Reg.WAY_COUNTS) : (s.traced t).reg a = t.reg a :=
  (probesOnly_traced s t).regs a h

theorem field_traced (s t : State) (a lo w : Nat) (h : a ≠ Reg.WAY_COUNTS) : (s.traced t).field a lo w = t.field a lo w := by
  have := reg_traced s t a h
  simp only [State.reg] at this
  simp only [State.field, State.fnField, this]

@[simp] theorem traced_pending (s t : State) : (s.traced t).pending = t.pending := by rw [(probesOnly_traced s t).rest]
@[simp] theorem traced_ms (s t : State) : (s.traced t).ms = t.ms := by rw [(probesOnly_traced s t).rest]
@[simp] theorem traced_up (s t : State) : (s.traced t).up = t.up := by rw [(probesOnly_traced s t).rest]
@[simp] theorem traced_freeCtr (s t : State) : (s.traced t).freeCtr = t.freeCtr := by rw [(probesOnly_traced s t).rest]
@[simp] theorem traced_sent (s t : State) : (s.traced t).sent = t.sent := by rw [(probesOnly_traced s t).rest]
@[simp] theorem traced_hostMem (s t : State) : (s.traced t).hostMem = t.hostMem := by rw [(probesOnly_traced s t).rest]
@[simp] theorem traced_shadow (s t : State) : (s.traced t).shadow = t.shadow := by rw [(probesOnly_traced s t).rest]
@[simp] theorem traced_clusters (s t : State) : (s.traced t).clusters = t.clusters := by rw [(probesOnly_traced s t).rest]
@[simp] theorem traced_xunits (s t : State) : (s.traced t).xunits = t.xunits := by rw [(probesOnly_traced s t).rest]
@[simp] theorem traced_flights (s t : State) : (s.traced t).flights = t.flights := by rw [(probesOnly_traced s t).rest]
@[simp] theorem traced_strips (s t : State) : (s.traced t).strips = t.strips := by rw [(probesOnly_traced s t).rest]
@[simp] theorem traced_transit (s t : State) : (s.traced t).transit = t.transit := by rw [(probesOnly_traced s t).rest]
@[simp] theorem traced_chsMem (s t : State) : (s.traced t).chsMem = t.chsMem := by rw [(probesOnly_traced s t).rest]
@[simp] theorem traced_poisoned (s t : State) : (s.traced t).poisoned = t.poisoned := by rw [(probesOnly_traced s t).rest]
@[simp] theorem traced_symErr (s t : State) : (s.traced t).symErr = t.symErr := by rw [(probesOnly_traced s t).rest]
@[simp] theorem traced_dstacks (s t : State) : (s.traced t).dstacks = t.dstacks := by rw [(probesOnly_traced s t).rest]
@[simp] theorem traced_fns (s t : State) : (s.traced t).fns = t.fns := by rw [(probesOnly_traced s t).rest]
@[simp] theorem traced_numVfs (s t : State) : (s.traced t).numVfs = t.numVfs := by rw [(probesOnly_traced s t).rest]
@[simp] theorem traced_vfsGone (s t : State) : (s.traced t).vfsGone = t.vfsGone := by rw [(probesOnly_traced s t).rest]
@[simp] theorem traced_rings (s t : State) : (s.traced t).rings = t.rings := by rw [(probesOnly_traced s t).rest]
@[simp] theorem traced_msixOpen (s t : State) : (s.traced t).msixOpen = t.msixOpen := by rw [(probesOnly_traced s t).rest]
@[simp] theorem traced_msixPend (s t : State) : (s.traced t).msixPend = t.msixPend := by rw [(probesOnly_traced s t).rest]
@[simp] theorem traced_jobs (s t : State) : (s.traced t).jobs = t.jobs := by rw [(probesOnly_traced s t).rest]
@[simp] theorem traced_ports (s t : State) : (s.traced t).ports = t.ports := by rw [(probesOnly_traced s t).rest]
@[simp] theorem traced_engines (s t : State) : (s.traced t).engines = t.engines := by rw [(probesOnly_traced s t).rest]
@[simp] theorem traced_streams (s t : State) : (s.traced t).streams = t.streams := by rw [(probesOnly_traced s t).rest]
@[simp] theorem traced_opens (s t : State) : (s.traced t).opens = t.opens := by rw [(probesOnly_traced s t).rest]
@[simp] theorem traced_pair (s t : State) : (s.traced t).pair = t.pair := by rw [(probesOnly_traced s t).rest]
@[simp] theorem traced_power (s t : State) : (s.traced t).power = t.power := by rw [(probesOnly_traced s t).rest]
@[simp] theorem traced_clock (s t : State) : (s.traced t).clock = t.clock := by rw [(probesOnly_traced s t).rest]
@[simp] theorem traced_toll (s t : State) : (s.traced t).toll = t.toll := by rw [(probesOnly_traced s t).rest]
@[simp] theorem traced_bru (s t : State) : (s.traced t).bru = t.bru := by rw [(probesOnly_traced s t).rest]
@[simp] theorem traced_dies (s t : State) : (s.traced t).dies = t.dies := by rw [(probesOnly_traced s t).rest]
@[simp] theorem traced_outOf (s t : State) : (s.traced t).outOf = t.outOf := by rw [(probesOnly_traced s t).rest]
@[simp] theorem traced_ev (s t : State) : (s.traced t).ev = t.ev := by rw [(probesOnly_traced s t).rest]
@[simp] theorem traced_flash (s t : State) : (s.traced t).flash = t.flash := by rw [(probesOnly_traced s t).rest]
@[simp] theorem traced_man (s t : State) : (s.traced t).man = t.man := by rw [(probesOnly_traced s t).rest]
@[simp] theorem traced_mgmt (s t : State) : (s.traced t).mgmt = t.mgmt := by rw [(probesOnly_traced s t).rest]
@[simp] theorem traced_jtag (s t : State) : (s.traced t).jtag = t.jtag := by rw [(probesOnly_traced s t).rest]
@[simp] theorem traced_dbgFn (s t : State) : (s.traced t).dbgFn = t.dbgFn := by rw [(probesOnly_traced s t).rest]
@[simp] theorem traced_transitIn (s t : State) : (s.traced t).transitIn = t.transitIn := by rw [(probesOnly_traced s t).rest]
@[simp] theorem traced_pollDue (s t : State) : (s.traced t).pollDue = t.pollDue := by rw [(probesOnly_traced s t).rest]
@[simp] theorem traced_fabViews (s t : State) : (s.traced t).fabViews = t.fabViews := by rw [(probesOnly_traced s t).rest]
@[simp] theorem traced_dbgView (s t : State) : (s.traced t).dbgView = t.dbgView := by rw [(probesOnly_traced s t).rest]
@[simp] theorem traced_clusterAt (s t : State) (k : Nat) : (s.traced t).cluster k = t.cluster k := by simp [State.cluster]
@[simp] theorem traced_xunitAt (s t : State) (k : Nat) : (s.traced t).xunit k = t.xunit k := by simp [State.xunit]
@[simp] theorem traced_stripAt (s t : State) (k : Nat) : (s.traced t).strip k = t.strip k := by simp [State.strip]
@[simp] theorem traced_stackAt (s t : State) (k : Nat) : (s.traced t).stack k = t.stack k := by simp [State.stack]
@[simp] theorem traced_fnAt (s t : State) (k : Nat) : (s.traced t).fn k = t.fn k := by simp [State.fn]
@[simp] theorem traced_ringAt (s t : State) (k : Nat) : (s.traced t).ring k = t.ring k := by simp [State.ring]
@[simp] theorem traced_jobAt (s t : State) (k : Nat) : (s.traced t).job k = t.job k := by simp [State.job]
@[simp] theorem traced_portAt (s t : State) (k : Nat) : (s.traced t).port k = t.port k := by simp [State.port]
@[simp] theorem traced_engineAt (s t : State) (k : Nat) : (s.traced t).engine k = t.engine k := by simp [State.engine]
@[simp] theorem traced_streamAt (s t : State) (k : Nat) : (s.traced t).stream k = t.stream k := by simp [State.stream]
@[simp] theorem traced_dieAt (s t : State) (k : Nat) : (s.traced t).die k = t.die k := by simp [State.die]

end Sys2Proof.Machine
end

