-- ==== Sys2Proof/WellFormed.lean ====
section
/-! DEFINITION. Well-formedness of commands. -/

namespace Sys2Proof

/-- A well-formed command: admission of an image would not refuse the slot operation that it is
(Machine.legal); every other command is well formed by its type. -/
def Instr.wf (c : Instr) : Bool := Machine.legal c

end Sys2Proof
end

