-- ==== Sys2Proof/Tests/Slice0.lean ====
section
/-! SUPPORT. Tests. For each statement with hypotheses, a state and operands that meet them, and what the command then
answers; ill-formed slot commands, which are refused; program words written out by the tables of the manual. Expected
values come from the rules that the statements cite. -/

namespace Sys2Proof.Tests

open Sys2Proof Sys2Proof.Machine

set_option maxRecDepth 8000
set_option Elab.async false

/-- The command answers a next state with a property. -/
def goes (c : Instr) (s : State) (P : State → Bool) : Bool :=
  match exec c s with
  | .next t => P t
  | _ => false

/-- Conditions hold of a state, and the command answers a next state with a property. -/
def shows (h : Bool) (c : Instr) (s : State) (P : State → Bool) : Bool := h && goes c s P

def lit (x : Port) : State := State.reset.setPort 6 x

/-- One stack, number 2, holds the whole map and is active (R212, R213). -/
def chs : State :=
  ((State.reset.setField Reg.CHS_STATUS 18 1 1).setField Reg.CHS_STATUS 8 6 1).setField (Reg.CHS_SPREAD_MAP 0) 0 8 2 |>.setField
    (Reg.CHS_STACK 2) 0 3 2

/-- A job in slot 0 on the die 1, with one window. -/
def aJob : Job := { st := .running, tag := 7, row0 := 0, col0 := 1, height := 1, width := 1, schedLen := 4, windows := [(0, { granules := 1 })] }

/-- A descriptor from its opcode and fields, each with its offset, fetched. -/
def cmd (op : Nat) (fields : List (Nat × Nat)) : Desc :=
  { idx := 0, raw := BitVec.ofNat 512 (fields.foldl (fun n f => n + f.2 * 2 ^ (8 * f.1)) op), phase := .fetched }

/-- The state with a ring that holds a descriptor. -/
def ringed (s : State) (rn loc : Nat) (d : Desc) : State :=
  s.setRing rn { used := true, loc := BitVec.ofNat 16 loc, cplBase := 0x4000, descs := [d] }

/-- Full service (R423). -/
def served (s : State) : State := s.setField Reg.BRU_STATUS 16 2 3

/-! ### LanternTraining -/
def lines (s : State) (k : Nat) : State := s.setField (Reg.LTN_ENG_STATUS k) 0 8 255
def enable (s : State) (p : Nat) : State := s.setField (Reg.LTN_PORT_EN (p / 32)) (p % 32) 1 1
def saved (s : State) : State := s.setEngine 3 { usingSaved := true, savedTemp := 40 }
theorem test_ringCalComplete : ([
  shows ((lit { st := 2 }).port 6 |>.calibrating) (.ringCalComplete 3 true false 45) (lit { st := 2 }) (fun t =>
    (t.port 6).st == 3 && (t.engine 3).savedTemp == 45 && t.field (Reg.LTN_ENG_STATUS 3) 16 8 == 45 &&
    t.field (Reg.LTN_ENG_STATUS 3) 8 2 == 2 && t.field (Reg.LTN_ENG_RING 3) 16 8 == 1),
  goes (.ringCalComplete 3 true true 48) (saved (lit { st := 2 })) (fun t =>
    (t.port 6).st == 3 && !(t.engine 3).usingSaved && t.field (Reg.LTN_ENG_STATUS 3) 8 2 == 1 &&
    t.field (Reg.LTN_ENG_STATUS 3) 24 8 == 40),
  goes (.ringCalComplete 3 true true 49) (saved (lit { st := 2 })) (fun t => (t.port 6).st == 2),
  goes (.ringCalComplete 3 false true 48) (saved (lit { st := 2 })) (fun t => (t.port 6).st == 2 && !(t.engine 3).usingSaved),
  shows ((lit { st := 2 }).serves (srcEngine 3) && !(lit {}).pairActive) (.ringCalComplete 3 false false 7) (lit { st := 2 }) (fun t =>
    (t.port 6).st == 1 && t.field (Reg.LTN_PORT_DOWN 6) 0 4 == 8 && t.outOf == [srcEngine 3] &&
    t.field (Reg.LTN_ENG_STATUS 3) 8 2 == 3),
  goes (.ringCalComplete 3 true false 7) (lit { st := 3 }) fun t => t == lit { st := 3 }] : List Bool).all id = true := by decide +kernel
theorem test_trainingStates : ([
  goes (.seekLock 6 0x0F 9) (lit { st := 3, savedEq := some { peer := 9, serials := [], temp := 0 } }) (fun t => t.port 6 ==
    { st := 4, locked := 0x0F, ownBad := 0xF0, eqSaved := true, savedEq := some { peer := 9, serials := [], temp := 0 } }),
  goes (.seekLock 6 0x06 9) (lit { st := 3 }) (fun t => t == lit { st := 3 }),
  goes (.equaliseComplete 6) (lit { st := 4, locked := 3 }) (fun t => t.port 6 == { st := 5, locked := 3, equalised := 3 }),
  goes (.trainingTimeout 6) (lit { st := 3 }) (fun t => t.ms == 500000000 && (t.port 6).seekPause && (t.port 6).since == t.ms),
  goes (.trainingTimeout 6) (lit { st := 4, eqSaved := true }) (fun t => t.ms == 2000000 && (t.port 6).st == 4 && !(t.port 6).eqSaved),
  goes (.trainingTimeout 6) (lines (lit { st := 8 }) 3) (fun t => t.ms == 2000000 && (t.port 6).st == 9 &&
    t.field (Reg.LTN_PORT_DOWN 6) 0 4 == 1),
  goes (.trainingTimeout 6) (lit { st := 8 }) (fun t => (t.port 6).st == 1),
  goes (.trainingTimeout 6) (lit { st := 7 }) (fun t => t == lit { st := 7 }),
  goes (.seekPauseEnd 6) (lit { st := 3, seekPause := true }) (fun t => t.ms == 1000000000 && !(t.port 6).seekPause),
  shows (!(lit {}).portEnabled 6) (.downTimer 6) (lit { st := 9 }) (fun t => (t.port 6).st == 0),
  goes (.downTimer 6) (enable (lit { st := 9 }) 6) (fun t => (t.port 6).st == 1),
  goes (.downTimer 6) (lines (enable (lit { st := 9 }) 6) 3) fun t =>
    (t.port 6).st == 3 && t.ms == 1000000000] : List Bool).all id = true := by decide +kernel
theorem test_laserLines : ([
  goes (.laserLinePresent 3 2 80) (lit { st := 1 }) (fun t => t.field (Reg.LTN_ENG_STATUS 3) 0 8 == 4 && (t.port 6).st == 1 &&
    t.field (Reg.LTN_ENG_LASER_LO 3) 16 8 == 80),
  (let s := (enable (lit { st := 1 }) 6).setField (Reg.LTN_ENG_STATUS 3) 0 8 0xBF
   s.serves (srcEngine 3) && s.portEnabled 6 && !s.adminDown 6 && (lines s 3).allLines 3),
  goes (.laserLinePresent 3 6 64) ((lit { st := 1 }).setField (Reg.LTN_ENG_STATUS 3) 0 8 0xBF) (fun t => (t.port 6).st == 0),
  goes (.laserLinePresent 3 6 63) (lit { st := 1 }) (fun t => t == lit { st := 1 }),
  goes (.laserLineLost 3 6 55) (lines (lit { st := 7 }) 3) (fun t => (t.port 6).st == 1 &&
    t.field (Reg.LTN_PORT_DOWN 6) 0 4 == 5 && t.field (Reg.LTN_ENG_STATUS 3) 0 8 == 0xBF &&
    t.ev.atSource.any (fun r => r.cls == 0x0C && r.cause == 0x04)),
  goes (.laserLineLost 3 6 55) (lines (lit { st := 5 }) 3) (fun t => (t.port 6).st == 1 && t.field (Reg.LTN_PORT_DOWN 6) 0 4 == 0),
  goes (.laserLineLost 3 6 56) (lines (lit { st := 7 }) 3) fun t => (t.port 6).st == 7] : List Bool).all id = true := by decide +kernel
def wide : Port := { st := 7, width := 8, pairs := 0xFF, peerMax := 8 }
theorem test_pairMarks : ([
  shows ((lit wide).mayRequest 6 && chooseGroup ((lit wide).targetWidth 6) 2 == some (4, 0xF0)) (.pairMarkedBad 6 1) (lit wide) (fun t =>
    (t.port 6).ownBad == 2 && (t.port 6).req.any (fun r => r.msg.op == 3 && r.msg.width == 4 && r.msg.reason == 2 &&
      (t.port 6).ctlq == [reqBytes r.msg])),
  goes (.pairMarkedBad 6 1) (lit { wide with st := 5 }) (fun t => (t.port 6).ownBad == 2 && (t.port 6).req.isNone),
  goes (.pairMarkCleared 6 1) (lit { wide with ownBad := 6 }) (fun t => (t.port 6).ownBad == 4),
  goes (.pairMarkCleared 6 1) ((lit { wide with ownBad := 6 }).setEngine 3 { ringsOut := 0x10000 }) (fun t => (t.port 6).ownBad == 6),
  shows (chooseGroup ((lit wide).targetWidth 6) wide.bad == some (8, 0xFF)) (.upshiftCheck 6)
    ((lit { wide with width := 4, wideSince := some 5 }).setField Reg.LTN_CFG 1 1 1) (fun t => t.ms == 1000000005 &&
    (t.port 6).req.any fun r => r.msg.width == 8 && r.msg.reason == 4),
  goes (.upshiftCheck 6) ((lit { wide with width := 4, wideSince := some 5 }).setField Reg.LTN_CFG 1 1 0) fun t =>
    (t.port 6).req.isNone] : List Bool).all id = true := by decide +kernel
theorem test_rings : ([
  goes (.ringLockLoss 3 1 2) (lit wide) (fun t => (t.engine 3).ringsOut == BitVec.twoPow 256 18 && (t.port 6).ownBad == 2 &&
    t.ev.atSource.length == 1 && t.field (Reg.LTN_ENG_STATUS 3) 10 1 == 0),
  goes (.ringLockLoss 3 9 2) (lit wide) (fun t => t == lit wide),
  goes (.ringRelock 3 1 2) ((lit { wide with ownBad := 2 }).setEngine 3 { ringsOut := BitVec.twoPow 256 18 }) (fun t =>
    (t.engine 3).ringsOut == 0 && (t.port 6).ownBad == 0 && t.field (Reg.LTN_ENG_STATUS 3) 10 1 == 1 &&
    t.field (Reg.LTN_ENG_RING 3) 0 16 == 1),
  goes (.ringRelock 3 1 2) (lit wide) (fun t => t == lit wide),
  goes (.ringRecentreComplete 3 44) ((lit wide).setEngine 3 { recentring := true, recentreCount := 7 }) (fun t =>
    t.engine 3 == { recentreCount := 8 } && t.field (Reg.LTN_ENG_STATUS 3) 16 8 == 44),
  goes (.heaterSettingsSave 3 44) { lit wide with toll := { lastRelease := 3600000000000 } } (fun t =>
    t.engine 3 == { savedHeater := true, savedTemp := 44 } && (t.port 6).savedEq == some { peer := 0, serials := [], temp := 44 } &&
    (t.port 6).activeMs == 3600000000000),
  goes (.heaterSettingsSave 3 44) (lit wide) fun t => t == lit wide] : List Bool).all id = true := by decide +kernel
theorem test_portControl : ([
  shows ((lit wide).grants .mgmt (Reg.LTN_PORT_CTRL 6)) (.adminDown .mgmt 6 1) (lit wide) (fun t => (t.port 6).st == 9 &&
    t.field (Reg.LTN_PORT_DOWN 6) 0 4 == 7 && t.adminDown 6),
  goes (.adminDown .mgmt 6 0) (enable (lit {}) 6) (fun t => (t.port 6).st == 1),
  (lines (enable (lit {}) 6) 3).serves (srcEngine 3) && (lines (enable (lit {}) 6) 3).allLines 3,
  goes (.maxWidth .mgmt 6 2) (lit wide) (fun t => t.field (Reg.LTN_PORT_CTRL 6) 1 2 == 1 && (t.port 6).req.any fun r =>
    r.msg.width == 4 && r.msg.reason == 0),
  goes (.maxWidth .mgmt 6 6) (lit wide) (fun t => t.field (Reg.LTN_PORT_CTRL 6) 1 2 == 0 && (t.port 6).req.isNone),
  goes (.portRetrain .mgmt 6) (lit wide) (fun t => (t.port 6).req.any fun r => r.msg.op == 1),
  goes (.portRecal .mgmt 6) (lit wide) fun t => (t.port 6).req.any fun r => r.msg.op == 2] : List Bool).all id = true := by decide +kernel

/-! ### StreamEngines, LinkFrames, StackUpkeep -/
def slot (x : StreamSlot) : State := (chs.setJob 0 aJob).setStrip (stripKey 1 0 5) x
def out : StreamSlot := { used := true, desc := { depth := 64, rowLen := 64, rows := 1, passes := 1, credits := 8 } }
def into : StreamSlot := { used := true, desc := { ingress := true, depth := 64, rowLen := 64, rows := 1, passes := 1 },
                           buf := [{ data := 5, poison := true }] }
theorem test_streams : ([
  shows ((slot out).mayFetch (stripKey 1 0 5) 0 && (slot out).chsDecode 0 == some (2, 0)) (.egressPrefetch 1 0 5) (slot out) (fun t =>
    (t.strip (stripKey 1 0 5)).fetched == 64 && (t.stack 2).toStack.wire.length == 1 && (t.stack 2).nextTag == 1),
  goes (.egressPrefetch 1 0 5) (slot { out with desc := { out.desc with conv := 2 } }) (fun t =>
    (t.strip (stripKey 1 0 5)).fetched == 9 && (t.strip (stripKey 1 0 5)).buf.length == 9 &&
    (t.strip (stripKey 1 0 5)).rowByte == 64),
  goes (.creditReturn 1 0 9 (3#8 ++ 5#6 ++ 0#2)) ((slot out).setStrip (stripKey 1 0 9) { used := true }) (fun t =>
    (t.strip (stripKey 1 0 5)).credit == 3),
  goes (.ingressLineWrite 1 0 5) (slot into) (fun t => (t.strip (stripKey 1 0 5)).written == 1 &&
    (t.strip (stripKey 1 0 5)).buf == [] && (t.stack 2).toStack.wire.all fun f => f.kind == 2 && f.poison == 1),
  goes (.ingressLineWrite 1 0 5) (slot { into with desc := { into.desc with net := 1, rowLen := 1 } }) fun t =>
    (t.strip (stripKey 1 0 5)).pendingWrite] : List Bool).all id = true := by decide +kernel
def wired (toStack : Bool) (f : Frame) (txns : AMap Txn) : State :=
  let d : LinkDir := { wire := [f.sealed] }
  (slot out).setStack 2 ({ txns := txns : Stack }.setDirs toStack d {})
theorem test_linkFrames : ([
  goes (.readRequest 2 true) (wired true (frame 1 false 4 0) []) (fun t => (t.stack 2).toStack.rxNext == 1 &&
    (t.stack 2).toCtl.wire.map (·.kind) == [3]),
  goes (.writeFrame 2 true) (wired true { frame 2 false 4 0 with data := [9], poison := 1 } []) (fun t =>
    readLe t.chsMem (64 * lineKey 2 0) 64 == 9 && AMap.get false t.poisoned (lineKey 2 0) &&
    (t.stack 2).toCtl.wire.map (·.kind) == [4]),
  goes (.readData 2 true) (wired false { frame 3 false 4 0 with data := [9] } [(4, .egress 7 (stripKey 1 0 5) 0 1 0)]) (fun t =>
    (t.strip (stripKey 1 0 5)).buf == [{ data := 9, poison := false }] && (t.strip (stripKey 1 0 5)).ready == 1 &&
    (t.stack 2).txns == [] && (t.stack 2).toStack.wire.map (·.kind) == [5]),
  goes (.writeAcknowledge 2 true) ((wired false (frame 4 false 4 0) [(4, .ingress 7 (stripKey 1 0 5) 0 1)]).setStrip (stripKey 1 0 5)
    { into with written := 1 }) (fun t => (t.strip (stripKey 1 0 5)).acked == 1 && (t.stack 2).txns == []),
  goes (.acknowledgeOnly 2 true true) (wired true (frame 5 false 0 0) []) (fun t => (t.stack 2).toStack.wire == []),
  goes (.nak 2 true true) ((wired true { frame 6 false 0 0 with ack := 0xFFF } []).setStack 2 { (wired true { frame 6 false 0 0 with ack := 0xFFF } []).stack 2 with
    toCtl := { unacked := [(frame 1 false 0 0, 1)], txSeq := 1 } }) fun t =>
    (t.stack 2).toCtl.unacked.map (·.2) == [2] && (t.stack 2).toCtl.wire.length == 1 &&
    t.field (Reg.CHS_LINK 2) 0 16 == 1] : List Bool).all id = true := by decide +kernel
theorem test_stackUpkeep : ([
  goes (.linkRecentre 2 46) (chs.setStack 2 { link := .active, centreTemp := 40, releases := 3 }) (fun t => t.stackState 2 == 3 &&
    t.stack 2 == { link := .phyretrain, centreTemp := 46 }),
  goes (.linkRecentre 2 45) (chs.setStack 2 { link := .active, centreTemp := 40, releases := 3 }) (fun t => t.stackState 2 == 2),
  goes (.linkRecentre 2 40) (chs.setStack 2 { link := .active, centreTemp := 40, releases := 1024 }) (fun t => t.stackState 2 == 3),
  goes (.phyretrainComplete 2 true) (chs.setField (Reg.CHS_STACK 2) 0 3 3) (fun t => t.stackState 2 == 2 &&
    t.field (Reg.CHS_LINK 2) 16 8 == 1 && (t.stack 2).link == .active),
  goes (.phyretrainComplete 2 false) (chs.setField (Reg.CHS_STACK 2) 0 3 3) (fun t => t.stackState 2 == 4 &&
    t.field (Reg.CHS_STACK 2) 4 8 == 8 && t.outOf == [srcStack 2] && (t.stack 2).link == .trainerror),
  goes (.patrolScrub 2) (chs.setField Reg.CHS_CFG 16 1 1) (fun t => (t.stack 2).scrubPos == 1 && t.regs == (chs.setField Reg.CHS_CFG 16 1 1).regs),
  goes (.patrolScrub 2) { chs.setField Reg.CHS_CFG 16 1 1 with symErr := [(lineKey 2 0, 0xFF)] } fun t =>
    t.symErr == [] && t.chsMem == [] && t.field (Reg.CHS_CE 2) 0 32 == 1] : List Bool).all id = true := by decide +kernel

/-! ### HostAccess, RingService, HostCommands -/
def upPort : State := State.reset.setField (Reg.HIF_PORT_STATUS 0) 11 1 1
theorem test_registers : ([
  shows (!wordAccess 6 4) (.registerWrite (.host false 0) 6 4 0 {}) State.reset (fun t => t.field Reg.HIF_ERR_COUNT 0 16 == 1),
  shows (State.reset.grants .mgmt Reg.PWR_CFG) (.registerWrite .mgmt (BitVec.ofNat 24 Reg.PWR_CFG) 4 0xFFFFFF01#32 {}) State.reset
    (fun t => t.field Reg.PWR_CFG 0 8 == 5 && t.field Reg.PWR_CFG 8 10 == 600),
  goes (.registerWrite (.host false 0) (BitVec.ofNat 24 Reg.EVT_SEL) 4 77 {}) State.reset (fun t => t.reg Reg.EVT_SEL == 77),
  goes (.registerRead .jtag (BitVec.ofNat 24 Reg.LIC_SERIAL_LO) 4) (State.reset.setReg (Reg.LIC_SERIAL_LO + 4) 5) (fun t =>
    t.sent == [.regRead 0] && t.shadow == [(Reg.LIC_SERIAL_LO + 4, some 5)]),
  goes (.registerRead .jtag (BitVec.ofNat 24 Reg.EVT_SEL) 4) { State.reset with shadow := [(Reg.EVT_SEL, some 9)] } fun t =>
    t.sent == [.regRead 9] && t.shadow == []] : List Bool).all id = true := by decide +kernel
theorem test_aperture : ([
  shows ((served chs).bar2Ok 0 64 2 false == some 64) (.bar2Read false 0 64 2)
    { served chs with chsMem := [(64 * lineKey 2 64, 7)] } (fun t => t.sent == [.bar2Data [7, 0] false]),
  shows ((served chs).bar2Ok 0 64 64 true == some 64) (.bar2Write false 0 64 (List.replicate 64 3#8) true) (served chs) fun t =>
    readBytes t.chsMem (64 * lineKey 2 64) 64 == List.replicate 64 3#8 && AMap.get false t.poisoned (lineKey 2 64)]
  : List Bool).all id = true := by decide +kernel
theorem test_functions : ([
  goes (.functionRun false 0 5) State.reset (fun t => t.field Reg.HIF_FN_CTRL 0 3 == 5 && (t.ring 0).used &&
    t.field Reg.HIF_STATUS 0 1 == 1),
  goes (.functionStop false 0 4) (State.reset.setField Reg.HIF_FN_CTRL 0 3 5) (fun t => t.field Reg.HIF_FN_CTRL 0 3 == 4),
  goes (.portLinkUp true 6 16 true) State.reset (fun t => t.field (Reg.HIF_PORT_STATUS 1) 0 13 == 6 + 256 + 1024 + 2048),
  shows (upPort.hostPortUp false) (.portLinkDown false) (ringed upPort 5 5 (cmd 0 [])) (fun t => !t.hostPortUp false &&
    (t.ring 5).descs == [] && (t.ring 5).stopped),
  goes (.flr 2) ((State.reset.setRing 64 { used := true, fn := 2 }).setRing 7 { used := true, loc := 7 }) (fun t =>
    t.ring 64 == {} && (t.ring 7).used),
  goes (.numvfsWrite 0) { State.reset with numVfs := 3 } fun t => t.numVfs == 0] : List Bool).all id = true := by decide +kernel
def polled : State :=
  (upPort.setField Reg.HIF_FN_CTRL 0 1 1).setRing 5 { used := true, loc := 5 } |> fun s =>
    { s with hostMem := [(0, 1), (64, 1), (4096 + 20, 2)] }
theorem test_ringService : ([
  goes (.pollCycle []) polled (fun t => (t.ring 5).piSeen == 2 && readLe t.hostMem 192 8 == 1 && (t.fn 0).seenGen == 1 &&
    t.pollDue == 250 * t.field Reg.HIF_POLL_INTERVAL 0 12),
  goes (.descriptorFetch 5 true) (polled.setRing 5 { used := true, loc := 5, piSeen := 1 }) (fun t => (t.ring 5).ci == 1 &&
    (t.ring 5).descs.length == 1),
  goes (.descriptorFetch 5 false) (polled.setRing 5 { used := true, loc := 5, piSeen := 1 }) (fun t => (t.ring 5).stopped),
  goes (.nop 5) (ringed upPort 5 5 (cmd 0 [(8, 9)])) (fun t => (t.ring 5).descs == [] && (t.ring 5).retired == 1 &&
    readLe t.hostMem 0x4000 8 == 9 && readLe t.hostMem 0x401F 1 == 1),
  goes (.coalesceTimer 5) (upPort.setRing 5 { used := true, vector := 3, unsignalled := 1, coalTime := 2 }) (fun t =>
    t.ms == 2000 && t.msixPend == [(vectorKey false 0 3, true)] && (t.ring 5).unsignalled == 0),
  goes (.vectorUnmask false 0 3) { State.reset with msixPend := [(vectorKey false 0 3, true)] } fun t =>
    t.sent == [.msix false 0 3] && t.msixPend == []] : List Bool).all id = true := by decide +kernel
def dma (op : Nat) : Desc := cmd op [(16, 0x9000), (24, 64), (32, 4), (36, 0xFF)]
def moving (op : Nat) : State := ringed (served chs) 5 5 { dma op with phase := .started }
theorem test_hostCommands : ([
  goes (.createRing 0) (ringed upPort 0 0 (cmd 1 [(16, 3), (18, 4), (20, 0xFF), (21, 1)])) (fun t => (t.ring 3).used &&
    (t.ring 3).loc == 3 && (t.ring 0).retired == 1),
  goes (.destroyRing 0) ((ringed upPort 0 0 (cmd 2 [(16, 3)])).setRing 3 { used := true, loc := 3 }) (fun t => t.ring 3 == {}),
  goes (.assignVf 0) { ringed upPort 0 0 (cmd 3 [(16, 2), (17, 9), (20, 4), (22, 2), (32, 1)]) with numVfs := 2 } (fun t =>
    t.fn 2 == { slot := some 9, groupFirst := 4, groupCount := 2, chsGranules := 1 } &&
    t.fnField 2 Reg.HIF_FN_INFO 16 16 == 127),
  goes (.setAperture 0) (ringed upPort 0 0 (cmd 4 [(16, 2 ^ 36)])) (fun t => t.reg Reg.HIF_BAR2_BASE_HI == 16),
  goes (.dmaToChs 5) (ringed (served chs) 5 5 (dma 0x20)) (fun t => (t.ring 5).descs.map (·.phase) == [.started]),
  goes (.dmaFromChs 5) (ringed (served chs) 5 5 (dma 0x21)) (fun t => (t.ring 5).descs.map (·.phase) == [.started]),
  goes (.dmaComplete 5 0 .ok) { moving 0x20 with hostMem := [(0x9000, 8)] } (fun t =>
    readLe t.chsMem (64 * lineKey 2 64) 4 == 8 && (t.ring 5).retired == 1),
  goes (.dmaComplete 5 0 .ok) { moving 0x21 with chsMem := [(64 * lineKey 2 64, 8)] } fun t =>
    readLe t.hostMem 0x9000 4 == 8 && (t.ring 5).retired == 1] : List Bool).all id = true := by decide +kernel

/-! ### JobLife -/
/-- The bytes of the smallest load image that are not 0: a header, a summary that names one die, no program (R281). -/
def imageBytes : List (Nat × Byte) :=
  [(0, 86), (1, 76), (2, 68), (3, 76), (4, 1), (6, 1), (7, 1), (8, 1), (10, 2), (12, 160), (16, 238), (17, 219), (18, 108),
   (19, 83), (64, 1), (68, 96), (72, 64), (76, 1), (80, 2), (84, 160), (104, 1)]
def image : State := { served chs with chsMem := imageBytes.map fun p => (64 * lineKey 2 0 + p.1, p.2) }
def jobIn (j : Job) : State := served (State.reset.setJob 3 { j with tag := 67, gen := 1, height := 1, width := 1 })
def tagged (op : Nat) : Desc := cmd op [(16, 67)]
theorem test_jobLoad : ([
  goes (.jobLoad 5) (ringed image 5 5 (cmd 0x10 [(19, 1), (20, 1), (32, 160)])) (fun t => (t.job 0).st == .loading),
  goes (.loadComplete 0) (image.setJob 0 { st := .loading, height := 1, width := 1, imgLen := 160, crc := 0x536CDBEE, gen := 4 })
    fun t => (t.job 0).st == .loaded && (t.job 0).gen == 5 && (t.job 0).tag == 320] : List Bool).all id = true := by decide +kernel
theorem test_jobCommands : ([
  goes (.jobStart 5) (ringed (jobIn { st := .loaded }) 5 5 (tagged 0x11)) (fun t => (t.job 3).ceilW == 850 &&
    (t.job 3).startRef == some { ring := 5, idx := 0 }),
  goes (.jobStop 5) (ringed (jobIn { st := .running, beat := 9 }) 5 5 (tagged 0x12)) (fun t => (t.job 3).stopAt == some 9 &&
    (t.job 3).stopKind == 1),
  goes (.jobStop 5) (ringed (jobIn { st := .loaded }) 5 5 (tagged 0x12)) (fun t => (t.job 3).st == .stopped),
  goes (.jobKill 5) (ringed (jobIn { st := .running, beat := 9 }) 5 5 (tagged 0x13)) (fun t => (t.job 3).stopKind == 2),
  goes (.jobKill 5) (ringed (jobIn { st := .loaded }) 5 5 (tagged 0x13)) (fun t => (t.job 3).st == .stopped),
  shows (jobIn { st := .ended } |>.job 3).over (.jobUnload 5) (ringed (jobIn { st := .ended }) 5 5 (tagged 0x14)) (fun t =>
    (t.job 3).st == .unloading),
  goes (.jobQuery 5) (ringed (jobIn { st := .running }) 5 5 (tagged 0x15)) fun t => (t.ring 5).retired == 1 &&
    readLe t.hostMem (0x4000 + 16) 4 == JobState.running.code] : List Bool).all id = true := by decide +kernel
theorem test_jobEvents : ([
  goes (.jobBeatZero 3) (jobIn { st := .loaded, ceilW := 850 }) (fun t => (t.job 3).st == .running && t.ms == 100 &&
    (t.job 3).zeroMs == 100),
  goes (.stopBeat 3) (jobIn { st := .running, stopAt := some 0, stopKind := 2 }) (fun t => (t.job 3).st == .stopped),
  goes (.stopBeat 3) (jobIn { st := .running, stopAt := some 0, stopKind := 1 }) (fun t => (t.job 3).st == .stopped),
  shows ((jobIn { st := .stopping }).streamsComplete 3) (.jobEnded 3) (jobIn { st := .stopping, beat := 9 }) (fun t =>
    (t.job 3).st == .ended),
  goes (.jobUnloadComplete 3 []) (jobIn { st := .unloading }) (fun t => (t.job 3).st == .free && (t.job 3).gen == 1),
  goes (.closeAckTimeout 3) ((jobIn { st := .unloading }).setStream 3072 { st := .closing, kind := 3, job := 3 }) fun t =>
    (t.stream 3072).st == .closed && t.ms == t.streamTimeoutNs] : List Bool).all id = true := by decide +kernel

/-! ### LanternFlits, LanternControl -/
def seg (n : Nat) : Seg := { data := BitVec.ofNat 128 n, poison := false }
def active : Port := { wide with txPairs := 0xFF, credits := [(1, 5)], peerMax := 8 }
def dataIn (seq : BitVec 16) : Flit := flitSealed { plainFlit 1 (List.replicate 16 0) with chan := 2, seq := seq, credit := 4, creditChan := 3, ack := 0xFFF }
theorem test_flitSlot : ([
  goes (.flitSlot 6) (lit { active with txq := [(1, [seg 5])] }) (fun t => (t.port 6).unacked.length == 1 &&
    AMap.get 0 (t.port 6).credits 1 == 4 && (t.port 6).txSeq == 1 &&
    t.sent.any fun m => match m with | .flit p q f => p == 6 && q == 0xFF && f.kind == 1 && f.chan == 1 && f.ack == 0xFFF && f.len == 16 | _ => false),
  goes (.flitSlot 6) (lit active) (fun t => t.sent.any fun m => match m with | .flit _ _ f => f.kind == 0 | _ => false),
  goes (.flitSlot 6) (lit { active with ctlq := [[3, 1]] }) (fun t => (t.port 6).ctlq == [] &&
    t.sent.any fun m => match m with | .flit _ _ f => f.kind == 2 && f.payload == [3, 1] | _ => false),
  goes (.flitSlot 6) (lit { active with replayLeft := 1, unacked := [{ flit := plainFlit 1 [7], sends := 1 }] }) (fun t =>
    (t.port 6).replayLeft == 0 && (t.port 6).unacked.map (·.sends) == [2]),
  goes (.flitSlot 6) (lit { st := 3 }) (fun t => t.sent.any fun m => match m with | .flit _ q f => q == 0xFF && f.payload.head? == some 1 | _ => false),
  goes (.flitSlot 6) (lit { st := 5, tsSeen := true, locked := 0x0F, peerMax := 8 }) (fun t => (t.port 6).st == 6 && (t.port 6).pairs == 0xFF),
  goes (.flitSlot 6) (lit { st := 6, pairs := 0x0F, cfgSeen := true }) (fun t => (t.port 6).st == 7 &&
    t.field (Reg.LTN_PORT_PEER 6) 17 1 == 1),
  goes (.flitSlot 6) (lit { st := 6, pairs := 0x0F }) fun t => t.sent.any fun m =>
    match m with | .flit _ q f => q == 0x0F && f.payload.head? == some 2 | _ => false] : List Bool).all id = true := by decide +kernel
theorem test_flitsIn : ([
  goes (.dataFlit 6 (dataIn 0)) (lit { active with rxq := [(2, [])] }) (fun t => (t.port 6).rxNext == 1 && AMap.get 0 (t.port 6).credits 3 == 4 &&
    t.reg (Reg.LTN_PORT_RX_LO 6) == 1),
  goes (.dataFlit 6 { dataIn 0 with crc := 0 }) (lit active) (fun t => (t.port 6).nakDue && t.reg (Reg.LTN_PORT_CRC 6) == 1 &&
    (t.port 6).rxNext == 0),
  goes (.idleFlit 6 (flitSealed { plainFlit 0 [] with ack := 0, nak := false })) (lit { active with unacked := [{ flit := dataFlit 1 0 [], sends := 1 }] }) (fun t =>
    (t.port 6).unacked == []),
  goes (.idleFlit 6 (flitSealed { plainFlit 0 [] with ack := 0xFFF, nak := true })) (lit { active with unacked := [{ flit := dataFlit 1 0 [], sends := 1 }] })
    (fun t => (t.port 6).replayLeft == 1 && t.field (Reg.LTN_PORT_REPLAY 6) 0 16 == 1),
  goes (.replayTimeout 6) (lit { active with unacked := [{ flit := dataFlit 1 0 [], sends := 1 }] }) (fun t => t.ms == 4000 &&
    (t.port 6).replayLeft == 1),
  goes (.nakHoldoffExpiry 6) (lit { active with nakHeldMs := some 5 }) fun t => t.ms == 2005 && (t.port 6).nakHeldMs.isNone]
  : List Bool).all id = true := by decide +kernel
def head (msg : List Byte) : FlitHead :=
  { ack := 0xFFF, nak := false, credit := 0, creditChan := 0, crc := crc32c (flitBytes { plainFlit 2 msg with ack := 0xFFF }) }
def ts (state : Byte) : TsMsg := { state := state, locked := 0x0F, equalised := 0, maxWidth := 8, bad := 0 }
def req (op : Byte) (name : BitVec 30) : ReqMsg := { reqNo := 4, op := op, width := 4, bad := 1, reason := 2, name := name, reqPort := 9 }
def peerConfig : ConfigMsg := { version := 1, moduleId := 5, port := 9, enabled := true, recentre := 0 }
def asking (m : ReqMsg) (sends : Nat) : Port := { active with req := some { msg := m, sends := sends, lastMs := 10 } }
theorem test_training : ([
  goes (.ts 6 { head [] with crc := 1 } (ts 5)) (lit { st := 5 }) (fun t => t.reg (Reg.LTN_PORT_CRC 6) == 1),
  goes (.ts 6 (head (tsBytes (ts 5))) (ts 5)) (lit { st := 5, tsSent := true }) (fun t => (t.port 6).st == 6 && (t.port 6).width == 4 &&
    (t.port 6).pairs == 0x0F),
  goes (.ts 6 (head (tsBytes (ts 5))) (ts 5)) (lit { st := 4 }) (fun t => (t.port 6).st == 4 && (t.port 6).tsSeen),
  goes (.config 6 (head (configBytes peerConfig)) peerConfig) (lit { st := 6, pairs := 0x0F, width := 4 }) (fun t =>
    (t.port 6).st == 6 && (t.port 6).cfgSeen && t.field (Reg.LTN_PORT_PEER 6) 17 1 == 0),
  goes (.ts 6 (head (tsBytes (ts 3))) (ts 3)) (lit active) (fun t => (t.port 6).st == 8 && t.ev.atSource.length == 1),
  goes (.config 6 (head (configBytes peerConfig)) peerConfig) (lit { st := 6, pairs := 0x0F, width := 4, cfgSent := true }) (fun t => (t.port 6).st == 7 &&
    t.field (Reg.LTN_PORT_PEER 6) 0 18 == 5 + 9 * 1024 + 2 ^ 17 && AMap.get 0 (t.port 6).credits 2 == 1280 &&
    t.field (Reg.LTN_PORT_STATUS 6) 24 8 == 1)] : List Bool).all id = true := by decide +kernel
theorem test_requests : ([
  goes (.req 6 (head (reqBytes (req 3 9))) (req 3 9)) (lit active) (fun t => (t.port 6).op == some (req 3 9) &&
    (t.port 6).ctlq == [grantBytes 4] && (t.port 6).peerBad == 1),
  shows (((lit active).sourceName (srcEngine 3)).toNat < 2 ^ 29) (.req 6 (head (reqBytes (req 3 0x3FFFFFFF))) (req 3 0x3FFFFFFF))
    (lit (asking (req 3 0) 1)) (fun t => (t.port 6).req.isSome && (t.port 6).peerBad == 1),
  goes (.req 6 (head (reqBytes (req 3 0))) (req 3 0)) (lit (asking (req 3 0) 1)) (fun t => (t.port 6).req.isNone &&
    (t.port 6).lost && t.field (Reg.LTN_PORT_EVENTS 6) 24 8 == 1),
  goes (.grant 6 (head (grantBytes 4)) 4) (lit (asking (req 3 0) 1)) (fun t => (t.port 6).leading &&
    (t.port 6).ctlq == [markBytes 4 0x0F 4]),
  goes (.grant 6 (head (grantBytes 4)) 4) (lit (asking (req 1 0) 1)) (fun t => (t.port 6).st == 8),
  goes (.widthMark 6 (head (markBytes 4 0xF0 4)) 4 0xF0 4) (lit { active with op := some (req 3 0), leading := true }) (fun t =>
    (t.port 6).width == 4 && (t.port 6).txPairs == 0xF0 && (t.port 6).op.isNone),
  goes (.widthMark 6 (head (markBytes 4 0xF0 4)) 4 0xF0 4) (lit { active with op := some (req 3 0) }) (fun t =>
    (t.port 6).width == 8 && (t.port 6).ctlq == [markBytes 4 0xF0 4]),
  goes (.time 6 (head (timeBytes 100)) 100 130) (lit active) (fun t => (t.port 6).msOff == [30]),
  goes (.timeSend 6) ({ lit active with ms := 5 }) (fun t => t.ms == 32768 && (t.port 6).ctlq == [timeBytes 32768]),
  goes (.reqResend 6) (lit (asking (req 3 0) 1)) (fun t => t.ms == 2010 && (t.port 6).req.any fun r => r.sends == 2),
  goes (.reqResend 6) (lit (asking (req 3 0) 8)) fun t => (t.port 6).st == 8] : List Bool).all id = true := by decide +kernel

/-! ### PostingMessages -/
def open_ : OpenBody := { pair := false, dir := 2, mode := 0, elem := 0, partner := 0, addr := 0, lines := 1 }
def live : Port := { st := 7 }
/-- Port 6 is ACTIVE and carries one stream, number 9. -/
def posting (t : TStream) : State := ((served chs).setPort 6 live).setStream 9 { t with port := 6, key := 77, lines := 4 }
theorem test_posting : ([
  goes (.hello 6 { role := 2, id := 5, version := 1, caps := 3 }) (posting {}) (fun t => (t.port 6).helloSeen &&
    t.reg (Reg.PST_PORT_INFO 6) == 2 + 20 + 3 * 2 ^ 14),
  goes (.openMsg 6 78 open_) (posting {}) (fun t => (AMap.get none t.opens (openKey 6 78)).isSome),
  goes (.openMsg 6 77 open_) (posting { kind := 3, st := .waitOpen }) (fun t => (t.stream 9).st == .opened &&
    AMap.get [] (t.port 6).txq 0 == [msgHeader 3 0 0 77 0]),
  goes (.openAck 6 77 0) (posting { kind := 1, st := .opening }) (fun t => (t.stream 9).st == .opened &&
    (AMap.get [] (t.port 6).txq 0).length == 1),
  goes (.openAck 6 77 0) (posting { kind := 2, st := .opening }) (fun t => (t.stream 9).st == .opened && (t.port 6).txq == []),
  goes (.streamGrant 6 77 128) (posting { kind := 2, st := .opened, gate := some 5 }) (fun t => (t.stream 9).limitIn == 128),
  shows ((posting { kind := 2, st := .suspended }).streamAt 6 77 == some 9) (.resume 6 77 64)
    (posting { kind := 2, st := .suspended }) (fun t => (t.stream 9).st == .opened),
  goes (.commit 6 77 64) (posting { kind := 2, st := .opened }) (fun t => (t.stream 9).committed == 64),
  goes (.closeMsg 6 77 1) (posting { kind := 3, st := .opened }) (fun t => (t.stream 9).st == .closed &&
    AMap.get [] (t.port 6).txq 0 == [msgHeader 8 0 0 77 0]),
  goes (.closeMsg 6 78 0) { posting {} with opens := [(openKey 6 78, some (open_, 0))] } (fun t => t.opens == []),
  goes (.closeAck 6 77) (posting { kind := 2, st := .closing }) (fun t => (t.stream 9).st == .closed),
  goes (.data 6 1 77 64 [{ data := 9, poison := true }]) (posting { kind := 1, st := .opened, limitOut := 256, landed := 64 }) (fun t =>
    readLe t.chsMem (64 * lineKey 2 64) 8 == 9 && AMap.get false t.poisoned (lineKey 2 64) && (t.stream 9).landed == 128),
  goes (.streamTimeout 6 77) (posting { kind := 2, st := .suspended }) (fun t => (t.stream 9).st == .failed && t.ev.atSource.length == 1 &&
    t.ms == t.field Reg.PST_CFG 0 16 * 1000000),
  goes (.openAnswerTimeout 6 77) (posting { kind := 1, st := .opening }) (fun t => (t.stream 9).st == .closing && t.ms == 1000000),
  goes (.openTimeout 6 78) { posting {} with opens := [(openKey 6 78, some (open_, 0))] } (fun t => t.opens == [] &&
    AMap.get [] (t.port 6).txq 0 == [msgHeader 3 0 0 78 5]),
  goes (.postingPortDrain .mgmt 6 1) (posting {}) fun t => t.field (Reg.PST_PORT_CTRL 6) 0 1 == 1] : List Bool).all id = true := by decide +kernel

/-! ### PairMode -/
/-- A pair state, with port 120 ACTIVE. -/
def paired (n : Nat) (leads : Bool) : State :=
  (((served chs).setField Reg.PST_PAIR_STATUS 0 4 n).setField Reg.PST_PAIR_STATUS 4 1 (if leads then 1 else 0)).setPort 120 { st := 7 }
def helloBytes : List Byte := natLe 9 2 ++ [1, 16] ++ List.replicate 28 0
def genBytes : List Byte := List.replicate 128 0
theorem test_pairFormation : ([
  goes (.pairEnable .mgmt 18) (paired 0 false) (fun t => t.field Reg.PST_PAIR_CTRL 0 11 == 18 && t.pairState == 0),
  goes (.pairEnable .mgmt 19) ((paired 0 false).setField Reg.LIC_ENABLED 1 1 1) (fun t => t.pairState == 1),
  goes (.pairEnable .mgmt 19) (paired 2 false) (fun t => t.ev.atSource.length == 1 && t.field Reg.PST_PAIR_CTRL 0 11 == 0),
  goes (.pairHello 119 false helloBytes) ((paired 1 false).setPort 119 { st := 7 }) (fun t => t.field (Reg.PST_PORT_COUNT 119) 16 16 == 1 &&
    t.pair.hello1.isNone),
  shows (helloOk false helloBytes) (.pairHello 120 false helloBytes) (paired 1 false) (fun t => t.pair.hello1 == some helloBytes),
  shows (helloOk true genBytes && !(paired 1 false).holdsJob) (.pairHello 120 true genBytes)
    { (paired 1 false).setField Reg.PST_PAIR_CTRL 1 10 9 with pair := { hello1 := some helloBytes } } (fun t => t.pairState == 2 &&
      t.pairLeads && t.field Reg.PST_PAIR_STATUS 5 10 == 9),
  goes (.pairHello 120 true genBytes)
    { (paired 3 true).setField Reg.PST_PAIR_CTRL 1 10 9 with pair := { hello1 := some helloBytes } } (fun t => t.pairState == 5),
  goes (.pairHello 120 true genBytes)
    { paired 2 true with pair := { hello1 := some helloBytes } } fun t => t.pairState == 2 && t.pair.hello1.isNone &&
      t.ev.atSource.any fun r => r.cls == 0x0E && r.cause == 6] : List Bool).all id = true := by decide +kernel
def unit : SigUnit := { id := 3, crc := 4, round := 0 }
def comparing (s : State) : State := { s with toll := { started := true, opened := 1 }, pair := { own := [unit], ownListed := true } }
theorem test_pairRounds : ([
  goes (.pairSig 0 [(3, 4)] true) { paired 2 true with toll := { started := true, opened := 1 } } (fun t => t.pair.peer == [unit] &&
    t.pair.peerListed),
  shows ((comparing (paired 2 true)).roundNamed 0 == 0) (.pairSig 0 [(3, 4)] true) (comparing (paired 2 true)) (fun t =>
    t.pair.own == [] && t.toll.entered == [pairUnit] && !t.pair.mismatch),
  goes (.pairEvidence true) { paired 2 true with pair := { mismatch := true } } (fun t => !t.pair.mismatch &&
    t.field Reg.PST_PAIR_COUNTS 16 8 == 1),
  goes (.pairFail 2) (paired 2 false) (fun t => t.pairState == 3 && t.pairLeads),
  goes (.cplSeen 0 5 0) { (paired 2 false).setRing 5 { used := true, loc := 5, cplBase := 0x8000 } with
    pair := { held := [{ fn := 0, ring := 5, idx := 0, entry := 11 }] } } (fun t => t.pair.held == [] &&
    readLe t.hostMem 0x8000 4 == 11 && AMap.get 0 t.pair.cplSeen 5 == 1),
  goes (.mirror 64 [{ data := 6, poison := true }]) (paired 6 false) (fun t => readLe t.chsMem (64 * lineKey 2 64) 4 == 6 &&
    AMap.get false t.poisoned (lineKey 2 64)),
  goes (.mirrorSend 120) { paired 7 true with pair := { dirty := [(0, true)] } } (fun t => t.pair.dirty == [] &&
    (AMap.get [] (t.port 120).txq 3).length == 257),
  goes .pairLinkLost { (paired 1 false).setPort 120 {} with pair := { linkLostMs := some 7 } } (fun t => t.ms == 1000007 && t.pairState == 1),
  goes .pairLinkLost { (paired 2 false).setPort 120 {} with pair := { linkLostMs := some 7 } } fun t => t.pairState == 4]
  : List Bool).all id = true := by decide +kernel

/-! ### PowerStates, ClockControl -/
def off_ : State := { State.reset with power := { off := true } }
def on_ : State := { State.reset with power := { off := false } }
def hot (a b c : Byte) : ThermalIn := { inletA := a, inletB := 0, outletA := b, outletB := 0, junction := c, site := 3 }
theorem test_input : ([
  goes (.turnOn 44000) off_ (fun t => !t.power.off && t.field Reg.PWR_INPUT 0 16 == 4400 && t.field Reg.PWR_STATUS 0 2 == 1),
  goes (.brownOut 39999) on_ (fun t => t.field Reg.RST_CAUSE 0 8 == 0x02 + 160 && t.field Reg.PWR_STATUS 4 1 == 1 && t.power.recovering),
  goes (.overvoltage 56001) on_ (fun t => t.field Reg.RST_CAUSE 0 8 == 0x03 + 160 && t.field Reg.PWR_STATUS 5 1 == 1),
  goes (.inputRecovery 44000) { State.reset with power := { recovering := true, off := false } } (fun t => !t.power.recovering),
  goes (.inputLow 41999) on_ (fun t => t.ev.atSource.length == 1 && t.power.inputMv == 41999),
  goes (.standby .mgmt) State.reset (fun t => t.field Reg.RST_CAUSE 0 8 == 0x0F + 160 && t.field Reg.PWR_STATUS 0 2 == 1),
  goes (.standby .mgmt) (State.reset.setJob 3 { st := .ended }) (fun t => t == State.reset.setJob 3 { st := .ended }),
  goes .standbyDomainPowerLoss { State.reset with chsMem := [(1, 1)] } (fun t => t.power.off && t.chsMem == [])]
  : List Bool).all id = true := by decide +kernel
def warmed : State := (served State.reset).setField Reg.PWR_POWER 0 16 14000
def flowOf (m : ThermalIn) : Nat := 60 * 140000 / (3876 * (m.outlet - m.inlet))
theorem test_thermal : ([
  shows (decide (thermalLevel (hot 20 55 70) (flowOf (hot 20 55 70)) 0 = 0)) (.thermalSample (hot 20 55 70)) (warmed.setField Reg.PWR_STATUS 2 2 1) (fun t =>
    t.field Reg.PWR_STATUS 2 2 == 1 && t.power.coolSince == some 1000000000 && t.up == 1000000000),
  goes (.thermalSample (hot 20 55 70)) { warmed.setField Reg.PWR_STATUS 2 2 1 with power := { coolSince := some 0 }, up := 9500000000 } (fun t =>
    t.field Reg.PWR_STATUS 2 2 == 0 && t.power.coolSince.isNone),
  goes (.thermalSample (hot 20 55 70)) warmed (fun t => t.field Reg.PWR_STATUS 2 2 == 0 &&
    t.reg Reg.PWR_THERMAL == 20 + 55 * 256 + 70 * 65536 + 3 * 2 ^ 24),
  goes (.thermalSample (hot 41 55 70)) warmed (fun t => t.field Reg.PWR_STATUS 2 2 == 2 && t.ev.atSource.length == 1 &&
    t.field Reg.PWR_COUNTS 16 16 == 1 && t.ev.atSource.map (fun r => (r.p0, r.p1)) == [(t.reg Reg.PWR_THERMAL, 0)]),
  goes (.thermalSample (hot 46 55 70)) warmed (fun t => t.field Reg.PWR_STATUS 2 2 == 3 && t.field Reg.PWR_STATUS 0 2 == 1 &&
    t.field Reg.RST_CAUSE 0 8 == 0x0F + 160)] : List Bool).all id = true := by decide +kernel
theorem test_contacts : ([
  goes (.contactImbalance (.die 3) [8000, 4000, 1000]) State.reset (fun t => t.ev.atSource.length == 1),
  goes (.contactImbalance (.die 3) [5000, 5000]) State.reset (fun t => t == State.reset),
  goes (.contactGroupOpen .controller) State.reset (fun t => [srcOstler, srcDrag, srcClock, srcReset].all t.outOf.contains &&
    t.ev.atSource.length == 1),
  goes (.contactGroupOpen (.stack 2)) chs (fun t => t.stackState 2 == 4 && t.field (Reg.CHS_STACK 2) 4 8 == 0x0A),
  goes (.contactGroupOpen (.die 3)) State.reset (fun t => t.excluded 3 && t.outOf.contains (srcDie 3) &&
    t.field Reg.CLK_COUNTS 24 8 == 1)] : List Bool).all id = true := by decide +kernel
def voting : State := { State.reset with clock := { running := true } }
theorem test_clock : ([
  goes (.voteWindowEnd 100 0) voting (fun t => t.clock.windows.head? == some (1000000, none) && t.ms == 1000000 && t.field Reg.CLK_STATUS 11 1 == 0),
  goes (.voteWindowEnd 500 450) voting (fun t => t.clock.windows.head? == some (1000000, some 2)),
  goes (.voteWindowEnd 50 450) voting (fun t => t.clock.windows.head? == some (1000000, some 1)),
  goes (.voteWindowEnd 450 50) voting (fun t => t.clock.windows.head? == some (1000000, some 0)),
  goes (.voteWindowEnd 450 (-450)) voting (fun t => t.clock.windows.head? == some (1000000, none) && t.field Reg.CLK_STATUS 11 1 == 1 &&
    t.ev.atSource.length == 1),
  goes .referenceMoveComplete { voting with clock := { running := true, moving := some 1, moveDue := 50 } } (fun t => t.ms == 50 &&
    t.field Reg.CLK_STATUS 0 2 == 1 && t.clock.moving.isNone),
  goes (.referenceLoss 0) voting (fun t => t.refStatus 0 == 2 && t.field Reg.CLK_STATUS 0 2 == 3 && t.clock.held == 0),
  goes (.referenceLoss 2) (voting.setField Reg.CLK_STATUS 0 2 1) (fun t => t.refStatus 2 == 2 && t.field Reg.CLK_STATUS 0 2 == 1),
  goes (.crystalReturn 1) (match exec (.referenceLoss 1) voting with | .next t => t | _ => voting) (fun t => t.clock.returning == [1]),
  goes (.milestoneBeacon []) { voting with ms := 9 } (fun t => t.ms == 65536 && t.clock.beaconMs == 65536),
  goes (.milestoneBeacon []) { voting with ms := 65536, clock := { running := true, beaconMs := 65536 } } (fun t => t.ms == 131072),
  goes (.milestoneBeacon [(5, -6)]) (voting.setCopy (srcDie 5) { bad := 2 }) (fun t => (t.copy (srcDie 5)).bad == 3 &&
    t.ev.atSource.length == 1 && t.field Reg.CLK_MS_ERR 0 14 == 250 + 5 * 256),
  goes (.milestoneBeacon [(srcEngine 5, 9)]) voting (fun t => t.outOf == [srcEngine 5]),
  goes (.milestoneBeacon [(5, 9)]) voting (fun t => t.excluded 5 && t.outOf == [srcDie 5]),
  goes (.diePllLockLoss 5) voting (fun t => t.excluded 5 && t.field Reg.CLK_COUNTS 24 8 == 1),
  goes .rootPllLockLoss voting (fun t => t.field Reg.RST_CAUSE 0 8 == 0x0C + 160)] : List Bool).all id = true := by decide +kernel

/-! ### Resets, BringUp -/
/-- An event of the pair class, which no limit holds back, at a time, from a source. -/
def pairEv (ms src : Nat) : EventRec := { ms := ms, source := BitVec.ofNat 30 src, cls := 0x0E, cause := 0x06 }
/-- An event of the management class at a time, from a source. -/
def ev (ms src : Nat) : EventRec := { ms := ms, source := BitVec.ofNat 30 src, cls := 0x18, cause := 0x06 }
def cause (t : State) : Nat := t.field Reg.RST_CAUSE 0 8
/-- Step 6 has completed: a warm reset is accepted (R409). -/
def stacked : State := { chs with bru := { step6Done := true } }
def inReset : State := { State.reset with bru := { resetScope := 5 } }
def idleDie : State := { (served chs).setField Reg.BRU_STATUS 0 4 11 with bru := { step0 := true } }
theorem test_resetPins : ([
  goes .powerOn off_ (fun t => cause t == 0x01 + 160 && !t.power.off && t.up == 0 && t.field Reg.PWR_STATUS 0 2 == 1),
  goes .resetNShort { stacked with chsMem := [(64, 1)] } (fun t => cause t == 0x04 + 128 && t.field Reg.BRU_STATUS 0 4 == 2 && t.chsMem == [(64, 1)]),
  goes .resetNShort chs (fun t => cause t == 0x04 + 160 && t.field Reg.RST_CAUSE 8 1 == 1),
  goes .resetNLong stacked (fun t => cause t == 0x05 + 160 && t.field Reg.RST_CAUSE 8 1 == 0),
  goes .resetNLong inReset (fun t => t.field Reg.RST_CAUSE 9 1 == 1 && t.ev.atSource.length == 1),
  goes (.perst true) inReset (fun t => t.field Reg.RST_CAUSE 9 1 == 1 && t.ev.atSource.length == 1),
  goes (.perst true) (ringed (State.reset.setField (Reg.HIF_PORT_STATUS 1) 11 1 1) 5 5 (cmd 0 []) |> fun s =>
    s.setRing 5 { s.ring 5 with port := true }) (fun t => !t.hostPortUp true && (t.ring 5).descs == [] &&
    t.field (Reg.HIF_PORT_STATUS 1) 12 1 == 1 && t.ev.atSource.any fun r => r.cls == 0x12 && r.cause == 0x07)]
  : List Bool).all id = true := by decide +kernel
theorem test_resetCommands : ([
  (let s := { State.reset with portReset := [(1, true)] }
   shows (s.absorbsPort true) (.perst true) s fun t => t.field (Reg.HIF_PORT_STATUS 1) 12 1 == 1 && t.ev.atSource.length == 1 &&
     t.field Reg.RST_CAUSE 9 1 == 0),
  goes (.sequencerLockUp 0x1400) inReset (fun t => t.field Reg.RST_CAUSE 9 1 == 1 && t.ev.atSource.map (·.cause) == [0x0D]),
  goes .ostlerReturn { State.reset with ev := { ostlerDown := true, beforeStep := [pairEv 5 7], heldByReset := [ev 3 7] } } (fun t =>
    t.ev.log == [pairEv 5 7] && t.ev.arrived == [ev 3 7] && t.ev.beforeStep == []),
  goes .ostlerWatchdog State.reset (fun t => t.ev.ostlerDown && t.mgmt.portsDown),
  goes .ostlerReturn { State.reset with ev := { ostlerDown := true } } (fun t => !t.ev.ostlerDown),
  goes .ostlerReturn { State.reset with ev := { ostlerDown := true, heldLost := 3 } } (fun t => t.ev.heldLost == 0 &&
    t.ev.atSource.map (·.p0) == [3]),
  goes (.sequencerLockUp 0x1400) State.reset (fun t => cause t == 0x0D + 96 && t.field Reg.RST_BLOCK_STATUS 0 1 == 1 &&
    t.bru.blockMask == 32 && t.outOf == [srcDie 5])]
  : List Bool).all id = true := by decide +kernel
theorem test_resetsToo : ([
  goes (.hifProcessorLockUp false) upPort (fun t => !t.hostPortUp false && t.ev.atSource.any fun r => r.cause == 0x0E),
  goes (.warmReset .mgmt 0xA5) stacked (fun t => cause t == 0x0A + 128),
  goes (.coldReset .jtag 0xA5) stacked (fun t => cause t == 0x0B + 160),
  shows ((State.reset.setFailed 3 true).inRecovery) (.recoveryExit .mgmt 0xA5) (State.reset.setFailed 3 true) (fun t =>
    cause t == 0x0A + 160 && !t.inRecovery && t.sent.head? == some (.faultN false)),
  goes (.coldReset .mgmt 0x5A) stacked (fun t => t.field Reg.HIF_ERR_COUNT 0 16 == 1 && cause t == cause stacked),
  goes (.blockResetRequest .mgmt 0x80000000) (idleDie.setReg Reg.RST_BLOCK_MASK_LO 32) (fun t =>
    t.field Reg.RST_BLOCK_STATUS 0 1 == 1 && t.bru.blockMask == 32 && cause t == 0x0A + 96),
  goes (.blockResetRequest .mgmt 0x80000000) chs (fun t => t.field Reg.RST_BLOCK_STATUS 2 4 == 2),
  goes (.blockResetComplete { dieBad := 32 }) { idleDie with bru := { blockMask := 32 } } fun t => t.excluded 5 &&
    t.field Reg.RST_BLOCK_STATUS 0 2 == 2 && t.bru.blockMask == 0]
  : List Bool).all id = true := by decide +kernel
/-- Step n is next. -/
def before (n : Nat) : State := { chs.setField Reg.BRU_STATUS 0 4 (n - 1) with bru := { step0 := true, startOpen := true } }
/-- Step n runs. -/
def during (n : Nat) (env : StepEnv) : State := { (before n).setField Reg.BRU_STATUS 0 6 (n + 16) with
  bru := { step0 := true, running := some env } }
/-- The dies 0 to 3 alone are in service. -/
def fourDies (s : State) : State := (s.setReg Reg.FUS_EXCL_LO 0xFFFFFFF0).setReg Reg.FUS_EXCL_HI 0xFFFFFFFF
/-- The step has ended well, or with a code. -/
def ended (n code : Nat) (t : State) : Bool := t.bru.running.isNone && t.field Reg.BRU_STATUS 0 4 == n &&
  t.field Reg.BRU_STATUS 4 2 == (if code = 0 then 0 else 2) && t.field Reg.BRU_STATUS 8 8 == code
theorem test_steps : ([
  goes (.dieRelease .mgmt {}) (before 2) (fun t => t.field Reg.BRU_STATUS 6 1 == 1 && t.field Reg.BRU_STATUS 0 4 == 1),
  goes (.dieRelease .mgmt {}) ((before 3).setFailed 3 true) (fun t =>
    t.field Reg.BRU_STATUS 6 1 == 1 && t.bru.running.isNone),
  goes (.fuseLoad .mgmt {}) (before 1) (fun t => t.field Reg.BRU_STATUS 0 6 == 1 + 16 && t.bru.running == some {} && !t.bru.fusesLoaded),
  goes (.clockStart .mgmt {}) (before 2) (fun t => t.field Reg.BRU_STATUS 0 6 == 2 + 16 && !t.clock.running),
  goes (.interconnectCheck .mgmt {}) (before 4) (fun t => t.bru.running == some {}),
  (before 5).grants .mgmt Reg.BRU_STEP && (before 5).stepAccepted 5,
  (before 6).stepAccepted 6,
  goes (.firmwareBroadcast .mgmt {}) (before 7) (fun t => t.bru.running == some {}),
  goes (.fabricCheck .mgmt {}) (before 8) (fun t => t.bru.running == some {}),
  goes (.lanternTrain .mgmt {}) (before 9) (fun t => t.bru.running == some {} && t.portEnabled 4),
  goes (.licenceApply .mgmt {}) (before 10) (fun t => t.bru.running == some {}),
  goes (.ready .mgmt {}) (before 11) fun t => t.field Reg.BRU_STATUS 0 6 == 11 + 16 && t.bru.running == some {}]
  : List Bool).all id = true := by decide +kernel
theorem test_step1Ends : ([
  goes .stepComplete (during 1 { dieBad := 4 }) (fun t => ended 1 0 t && t.excluded 2 && t.field Reg.PWR_STATUS 0 2 == 2),
  goes .stepComplete { during 1 {} with power := { tripCond := true } } (ended 1 0x11),
  goes .stepComplete (during 1 { svcBad := some 3 }) (fun t => ended 1 0x12 t && t.reg Reg.BRU_FAIL_DETAIL == 3)]
  : List Bool).all id = true := by decide +kernel
theorem test_step2Ends : ([
  goes .stepComplete { during 2 {} with ms := 7 } (fun t => ended 2 0 t && t.ms == 0 && t.clock.running &&
    t.field Reg.CLK_STATUS 8 2 == 1),
  goes .stepComplete { during 2 { xaRuns := false, xbRuns := false } with ms := 7 } (fun t => ended 2 0x21 t && t.ms == 7),
  goes .stepComplete (during 2 { pllLock := false }) (fun t => ended 2 0x22 t && !t.clock.running)]
  : List Bool).all id = true := by decide +kernel
theorem test_straps : ([
  !(during 3 { sample1 := 1, sample2 := 2 }).liveDies.isEmpty && strapsGood 0x10000]
  : List Bool).all id = true := by decide +kernel
theorem test_step3Ends : ([
  goes .stepComplete (fourDies ((during 3 { sample1 := 1, sample2 := 2 }).setField Reg.BRU_STATUS 18 1 1)) (ended 3 0)]
  : List Bool).all id = true := by decide +kernel
theorem test_step4Ends : ([
  goes .stepComplete (fourDies (during 4 {})) (ended 4 0)]
  : List Bool).all id = true := by decide +kernel
theorem test_steps5And6End : ([
  (during 5 {}).stepNow == 5 && (during 5 {}).bru.running == some {},
  (during 9 {}).portsSettled && !(during 9 {}).anyCalibrated,
  goes .stepComplete (((during 6 {}).setField Reg.BRU_STATUS 18 1 1).setField Reg.CHS_STATUS 0 6 32) (fun t => ended 6 0 t &&
    t.field Reg.BRU_STATUS 16 2 == 1 && t.bru.step6Done)]
  : List Bool).all id = true := by decide +kernel
theorem test_noBank : ([
  goes .stepComplete (during 7 {}) (ended 7 0x71)]
  : List Bool).all id = true := by decide +kernel
theorem test_step7Ends : ([
  goes .stepComplete { fourDies (during 7 { dieBad := 4 }) with bru := { step0 := true, running := some { dieBad := 4 }, bank := some true } } (fun t =>
    ended 7 0 t && t.excluded 2)]
  : List Bool).all id = true := by decide +kernel
theorem test_flaggedStep8Ends : ([
  goes .stepComplete { (during 8 {}).setField Reg.BRU_CFG 8 7 65 with bru := { step0 := true, running := some {}, flagged := true } } (fun t =>
    ended 8 0 t && t.field Reg.BRU_STATUS 16 2 == 1)]
  : List Bool).all id = true := by decide +kernel
theorem test_step9Ends : ([
  goes .stepComplete (((during 9 {}).setEngine 3 { calibrated := true })) (ended 9 0)]
  : List Bool).all id = true := by decide +kernel
theorem test_shortStep8Ends : ([
  goes .stepComplete ((during 8 {}).setField Reg.BRU_CFG 8 7 65) (ended 8 0x81)]
  : List Bool).all id = true := by decide +kernel
theorem test_step8Ends : ([
  goes .stepComplete (during 8 {}) (fun t => ended 8 0 t && t.field Reg.BRU_STATUS 16 2 == 2 && t.toll.started)]
  : List Bool).all id = true := by decide +kernel
theorem test_steps10And11End : ([
  goes .stepComplete (during 10 { licReadable := false }) (ended 10 0xA1),
  goes .stepComplete (during 11 {}) (fun t => ended 11 0 t && t.field Reg.BRU_STATUS 16 2 == 3 && t.failedStarts == 0)]
  : List Bool).all id = true := by decide +kernel
theorem test_startLimits : ([
  goes .stepTimeLimit (during 3 {}) (fun t => t.field Reg.BRU_STATUS 8 8 == 0x3F && t.up == stepBudget 3),
  goes .startDeadline (before 3) (fun t => t.failedStarts == 1 && t.field Reg.BRU_STATUS 8 8 == 0xF0)]
  : List Bool).all id = true := by decide +kernel
theorem test_startsFail : ([
  goes .startDeadline ((before 3).setFailed 2 false) (fun t => t.inRecovery && cause t == 0x10 + 160),
  goes .standbyReady { inReset with power := { off := false } } fun t => t.bru.step0 && t.bru.startOpen && t.reg Reg.BRU_DEADLINE == 120000]
  : List Bool).all id = true := by decide +kernel

/-! ### EventFlow, ManifestAndWaybill -/
def events (e : Events) : State := { State.reset with ev := e, clock := { running := true } }
/-- Sixteen events of one period have been committed. -/
def full (ms src : Nat) : State := { events { arrived := [ev ms src], counts := [((0, BitVec.ofNat 30 src, 0x18, 0x06), 16)] } with
  toll := { started := true, baseMs := 0, baseN := 0, k := 20 } }
theorem test_eventFlow : ([
  goes (.eventDelivery 7) (events { atSource := [ev 5 8, ev 6 7] }) (fun t => t.ev.atSource == [ev 5 8] && t.ev.arrived == [ev 6 7]),
  goes (.eventDelivery 7) (events { atSource := [ev 6 7], ostlerDown := true }) (fun t => t.ev.heldByReset == [ev 6 7]),
  goes (.eventDelivery 7) (events { atSource := [ev 6 7], ostlerDown := true, beforeStep := List.replicate 4096 (ev 1 1) })
    (fun t => t.ev.heldLost == 1 && t.ev.heldByReset == []),
  goes (.eventDelivery 7) (events { atSource := [ev 6 7], ostlerDown := true, heldByReset := List.replicate 4096 (ev 1 1) })
    (fun t => t.ev.heldLost == 1 && t.ev.atSource == []),
  goes .eventCommit (events { arrived := [ev 6 9, ev 6 7], last := some (6, 7) }) (fun t => t.ev.arrived == [ev 6 9] &&
    t.ev.log == [ev 6 7] && t.ev.seq == 1 && t.ms == 16006 && t.ev.last == some (6, 7)),
  goes .eventCommit (events { arrived := [ev 5 9], last := some (6, 7) }) (fun t => t.ev.log == [{ ev 5 9 with flags := 8 }] &&
    t.ms == 0 && t.ev.last == some (6, 7)),
  goes .eventCommit (full 6 7) (fun t => t.ev.log == [] && t.field Reg.EVT_COUNTS 16 16 == 1 && t.ev.arrived == []),
  goes .eventIrqDeferred (events { deferred := true, lastIrq := some 5 }) (fun t => t.ms == 10005 && t.up == 10005 && !t.ev.deferred &&
    t.ev.lastIrq == some 10005),
  goes (.collectorSend 1 true) (events { collQ := [(1, List.replicate 17 (ev 1 1))] }) (fun t => t.ev.collQ == [(1, [ev 1 1])] &&
    t.sent == [.eventBatch 1 0 (List.replicate 16 (ev 1 1))]),
  goes (.collectorSend 1 false) (events { collQ := [(1, [ev 1 1])] }) (fun t => t.ev.collQ == [] && t.field Reg.MAN_STATUS 22 10 == 1),
  goes .telemetryInterval { on_ with flash := { collectors := [{ addr := 3 }] } } (fun t => t.up == 1000000000 && t.sent.length == 1),
  goes .telemetryInterval { on_ with flash := { collectors := [{ addr := 3 }] }, mgmt := { portsDown := true } } fun t => t.sent == []]
  : List Bool).all id = true := by decide +kernel
def man (st : Nat) : State := State.reset.setField Reg.MAN_STATUS 0 3 st
def way (st : Nat) (w : Waybill) : State := { (State.reset.setField Reg.WAY_STATUS 0 2 st).setField Reg.WAY_DEPTH 0 32 (2 + 65536) with way := w }
/-- The copy of a capture goes to the window of a stack that is there. -/
def destined (st : Nat) : State := { (chs.setField Reg.WAY_STATUS 0 2 st).setField Reg.WAY_DEST_HI 31 1 1 with way := {} }
def entry (ms src : Nat) : WayEntry := { ms := ms, src := BitVec.ofNat 20 src, probe := 2, kind := 0, gap := false, late := false, data := 9 }
theorem test_manifest : ([
  goes (.manifestArm .mgmt) (man 0) (fun t => t.manState == 1),
  goes (.manifestArm .mgmt) (man 2) (fun t => t.manState == 2 && t.field Reg.MAN_STATUS 3 1 == 1),
  goes (.manifestCancel .mgmt) (man 1) (fun t => t.manState == 0),
  goes (.manifestCancel .mgmt) (man 2) (fun t => t == man 2),
  goes .manifestLatch { man 2 with man := { target := 100, out := [3] }, outOf := [3, 4] } fun t => t.manState == 3 && t.ms == 100 &&
    t.man.gone == [4] && t.man.held && t.field Reg.MAN_STATUS 4 10 == 1 && t.ev.atSource.length == 1] : List Bool).all id = true := by decide +kernel
theorem test_waybill : ([
  goes (.waybillArm .mgmt) (destined 0) (fun t => t.wayState == 1),
  goes (.waybillArm .mgmt) (destined 1) (fun t => t.wayState == 1 && t.field Reg.WAY_STATUS 2 1 == 1),
  goes (.waybillArm .mgmt) (way 0 {}) (fun t => t.wayState == 0 && t.field Reg.WAY_STATUS 2 1 == 1),
  goes (.waybillStop .mgmt) (way 2 { buf := [entry 1 1] }) (fun t => t.wayState == 0 && t.way.buf == []),
  goes (.waybillForce .mgmt) (way 1 {}) (fun t => t.way.force),
  goes (.waybillForce .mgmt) (way 2 {}) (fun t => t == way 2 {}),
  goes .waybillEntryCommit (way 0 { pending := [entry 5 1] }) (fun t => t.way.pending == [] && t.ms == 16005 && t.way.last == some (5, 1)),
  goes .waybillEntryCommit (way 1 { pending := [entry 5 1], buf := [entry 4 1, entry 3 1] }) (fun t => t.wayState == 1 &&
    t.way.buf == [entry 5 1, entry 4 1]),
  goes .waybillEntryCommit (way 1 { pending := [entry 5 1], buf := [entry 4 1], force := true }) (fun t => t.wayState == 2 &&
    t.way.buf == [entry 5 1, entry 4 1] && t.way.post == 1 && t.way.trigMs == 5 && t.way.preValid == 1),
  goes .waybillEntryCommit ((way 2 { pending := [entry 5 1], buf := [entry 4 1], post := 1 }).setField Reg.WAY_DEPTH 16 16 2) (fun t =>
    t.wayState == 2 && t.way.post == 2),
  goes .waybillEntryCommit (way 2 { pending := [entry 5 1], buf := [entry 4 1], post := 1 }) (fun t => t.wayState == 3 &&
    t.way.header.length == 64 && t.way.copyDue == 16005 + 24),
  goes .waybillCopyComplete { destined 3 with way := { buf := [entry 4 1], copyDue := 80 } } fun t => t.wayState == 0 && t.ms == 80 &&
    t.way.capture == 1 && t.field Reg.WAY_COUNTS 0 16 == 1 && t.ev.atSource.length == 1] : List Bool).all id = true := by decide +kernel

/-! ### ManagementCommands -/
def mctp : MgmtHdr := { mctp := true, mport := false, udp := 0, smbus := true, magic := 0, version := 0, len := 0, key := 0, nonce := 0, sig := 0 }
/-- RFC 8032's first test vector is good; with another message it is not. -/
def rfcKey : BitVec 256 := 0x1a5107f7681a02af2523a6daf372e10e3a0764c9d3fe4bd5b70ab18201985ad7#256
def rfcSig : BitVec 512 :=
  0xb107a8e4341516524be5b59f0f55bd26bb4f91c70391ec6ac3ba3901582b85f5501492265e073d874d9e5b81e7f87848a826e80cce2869072ac60c3004356e5#512
/-- A key whose seed is 32 zero bytes, its signature of WRITE_REG of 7 to EVT_SEL by slot 1 with nonce 5 on serial 0, and
its signature of nonce 9 at level 1 by slot 1. -/
def zeroKey : BitVec 256 := 0x29da598ba148c03aa643e21d77153265730d6f2ad0a8a3622da4b6cebc276a3b#256
def signed : BitVec 512 := 0x857682ef9a02759d4bcb39dfb619cd231f03ca6ca1b2d2d781b20089f4b609f5e469107dca220bc52afcf3fd82a04bf9cc612edf1f60ba03fecc9c4459560d1#512
def debugSig : BitVec 512 := 0xdcb4d679fbfb0593fe53ba67041e66c879fee70efe478df3061df02b9a84fbb31a0cae7d368a08ece4fbe408caed4f74101bfa8d702c8a70a4f3c999dfb0997#512
def writes : MgmtHdr := { mctp := false, mport := true, udp := 47210, smbus := false, magic := 0x564D, version := 1, len := 16, key := 1, nonce := 5, sig := signed }
def keyed (rights : Byte) (nonce : BitVec 64) : State :=
  { on_ with flash := { keys := [(1, { present := true, key := zeroKey, rights := rights, nonce := nonce })] } }
def answered (status : Byte) (detail : BitVec 32) (t : State) : Bool :=
  match t.sent with
  | .response _ a d _ :: _ => a == status && d == detail
  | _ => false
def setSel (m : MgmtHdr) : Instr := .writeReg m (BitVec.ofNat 32 Reg.EVT_SEL) 7 {}
theorem test_ed25519 : ([
  ed25519 rfcKey [] rfcSig, !ed25519 rfcKey [1] rfcSig,
  sha384 [] == BitVec.ofNat 384 (leNat (beBytes 0x38b060a751ac96384cd9327eb1b1e36a21fdb71114be07434c0cc7bf63f6e1da274edebfe76f65fbd51ad2f14898b95b 48))]
  : List Bool).all id = true := by decide +kernel
theorem test_authentic : ([
  goes (setSel writes) (keyed 2 4) (fun t => answered 0 0 t && t.reg Reg.EVT_SEL == 7 && (t.mgmtKey 1).nonce == 5),
  goes (setSel writes) (keyed 1 4) (fun t => answered 2 0 t && t.reg Reg.EVT_SEL == 0),
  goes (setSel writes) (keyed 2 5) (fun t => answered 1 0 t && t.ev.atSource.length == 1),
  goes (setSel { writes with sig := 0 }) (keyed 2 4) (fun t => answered 1 0 t),
  goes (setSel { writes with len := 17 }) (keyed 2 4) (fun t => t.field Reg.MAN_STATUS 14 8 == 1 && t.sent == []),
  goes (setSel { writes with udp := 47211 }) (keyed 2 4) (fun t => t == keyed 2 4),
  goes (setSel writes) off_ (fun t => t == off_)] : List Bool).all id = true := by decide +kernel
def free : State := { on_ with bru := { step6Done := true } }
theorem test_mgmt : ([
  goes (.readReg mctp (BitVec.ofNat 32 Reg.EVT_SEL) 1 false) (on_.setReg Reg.EVT_SEL 77) (fun t => t.sent == [.response (replyTo mctp) 0 0 [77, 0, 0, 0]]),
  goes (.readReg mctp 0 65 false) on_ (answered 3 0),
  goes (.readReg mctp 0 2 false) on_ (fun t => t.sent.length == 1 && answered 0 0 t),
  goes (setSel mctp) on_ (fun t => answered 0 0 t && t.reg Reg.EVT_SEL == 7),
  goes (.stepCmd mctp 2 {}) { before 2 with power := { off := false } } (fun t => answered 0 0 t && t.field Reg.BRU_STATUS 0 6 == 18),
  goes (.stepCmd mctp 9 {}) { before 4 with power := { off := false } } (fun t => answered 4 0 t && t.field Reg.BRU_STATUS 6 1 == 1),
  goes (.stepCmd mctp 16 {}) on_ (fun t => answered 3 0 t && t.field Reg.BRU_STATUS 6 1 == 1),
  goes (.resetCmd mctp 1) free (fun t => answered 0 0 t && cause t == 0x0A + 128),
  goes (.resetCmd mctp 2) free (fun t => answered 0 0 t && cause t == 0x0A + 160),
  goes (.resetCmd mctp 4) free (answered 3 0),
  goes (.blockReset mctp 32 0) { idleDie with power := { off := false } } (fun t => answered 0 0 t && t.bru.blockMask == 32),
  goes (.blockReset mctp 32 1) { idleDie with power := { off := false } } (fun t => !answered 0 0 t && t.bru.blockMask == 0),
  goes (.blockReset mctp 32 0) (on_.setField Reg.RST_BLOCK_STATUS 0 1 1) (answered 5 0),
  goes (.drainSlot mctp 2) (on_.setJob 2 { aJob with beat := 6 }) (fun t => answered 0 0 t && (t.job 2).stopKind == 3 && (t.job 2).stopAt == some 6),
  goes (.drainSlot mctp 2) (on_.setJob 2 { aJob with st := .loaded }) (fun t => answered 0 0 t && (t.job 2).st == .stopped),
  goes (.drainSlot mctp 2) on_ (answered 4 0x11),
  goes (.drainModule mctp) on_ (fun t => answered 0 0 t && t.flash.drained && t.sent.contains (.faultN true)),
  goes (.fwWrite mctp 1 64 [1, 2, 3]) on_ (fun t => answered 0 0 t && readBytes t.flash.bankB 64 3 == [1, 2, 3] && t.flash.openB),
  goes (.fwCommit mctp 1 1) { on_ with flash := { openB := true } } (fun t => answered 4 1 t && !t.flash.openB && !t.flash.fwActive),
  goes (.licence mctp 1 3 (List.replicate 128 0)) on_ (fun t => answered 4 2 t && t.field Reg.LIC_CMD_STATUS 0 1 == 1 && t.bru.licBusy.isSome),
  goes (.licence mctp 2 3 []) on_ (fun t => answered 0 0 t && t.bru.licBusy == some (3, none)),
  goes (.repairAdd mctp 5 0) on_ (fun t => answered 4 5 t && t.field Reg.FUS_CMD_STATUS 2 4 == 5),
  goes (.repairAdd mctp 5 0) (on_.setField Reg.FUS_CMD_STATUS 0 1 1) (answered 5 0),
  goes (.keySet mctp 2 7 zeroKey) on_ (fun t => answered 0 0 t && (t.mgmtKey 2).key == zeroKey && (t.mgmtKey 2).rights == 7),
  goes (.keySet mctp 1 0 0) (keyed 2 4) (fun t => answered 0 0 t && t.mgmtKey 1 == { nonce := 4 }),
  goes (.logRead mctp 0 0 2) { on_ with ev := { log := [ev 1 2] } } (fun t => t.sent == [.response (replyTo mctp) 0 0 ((ev 1 2).bytes ++ natLe 0 64)]),
  goes (.collectors mctp [(1, 2, 3), (0, 0, 0), (0, 0, 0), (4, 5, 6)] 0) on_ (fun t => answered 0 0 t && t.flash.interval == 1 &&
    t.flash.collectors.map (·.addr) == [1, 0, 0, 4]),
  goes (.collectors mctp [] 0) on_ (answered 3 0),
  goes (.drainSlot mctp 2) (on_.setJob 2 { aJob with stopKind := 2 }) (answered 4 0x11),
  goes (.netSet true 1 2 3) { on_ with mgmt := { smbus := some true, alert := true } } (fun t => answered 0 0 t && !t.mgmt.alert && t.mgmt.addr == [(1, 1#32 ++ 2#32 ++ 3#32)]),
  goes (.setEndpointId 9) on_ (fun t => t.mgmt.eid == 9),
  goes (.pldmFirmwareUpdate true 64 [1, 2] false) on_ (fun t => readBytes t.flash.bankB 64 2 == [1, 2] && t.flash.openB),
  goes (.pldmFirmwareUpdate true 0 [] true) { on_ with flash := { openB := true } } fun t => !t.flash.openB && t.ev.atSource.length == 1]
  : List Bool).all id = true := by decide +kernel

/-! ### StoresAndDebug -/
def busied (r : Option (List Byte)) : State := { on_.setField Reg.LIC_CMD_STATUS 0 1 1 with
  bru := { licBusy := some (3, r) }, flash := { licences := [(3, some [1]), (4, some [2])] } }
/-- A record of origin 2 that gives lane 5 of edge 2 the spare 0. -/
def laneRec : Nat := mkRecord 3 2 (2 + 4 * 5 + 2 ^ 24)
theorem test_stores : ([
  goes (.licenceStore .mgmt 3) on_ (fun t => t.field Reg.LIC_CMD_STATUS 0 1 == 1 && t.bru.licBusy == some (3, some (List.replicate 128 0))),
  goes (.licenceErase .mgmt 3) on_ (fun t => t.bru.licBusy == some (3, none)),
  goes (.licenceErase .mgmt 3) (busied none) (fun t => t == busied none),
  goes .licenceCommandComplete (busied none) (fun t => t.flash.licences == [(4, some [2])] && t.field Reg.LIC_CMD_STATUS 0 6 == 2),
  goes .licenceCommandComplete (busied (some (List.replicate 128 0))) (fun t => t.field Reg.LIC_CMD_STATUS 0 6 == 2 + 8 &&
    t.field Reg.LIC_SLOT_STATUS 12 4 == 2 && t.flash.licences == [(3, some [1]), (4, some [2])]),
  goes (.repairBurn .mgmt 5 0) (idleDie.setDie 5 { soft := [7] }) (fun t => t.field Reg.FUS_CMD_STATUS 0 1 == 1 &&
    t.bru.burnDie == some 5 && t.bru.burnQueue == [7]),
  goes (.repairBurn .mgmt 5 0) on_ (fun t => t.field Reg.FUS_CMD_STATUS 0 6 == 2 + 8),
  goes (.addSoftRepair .mgmt 5) on_ (fun t => t.field Reg.FUS_CMD_STATUS 0 6 == 2 + 20),
  goes (.addSoftRepair .mgmt 5) (on_.setReg64 Reg.FUS_REC_LO laneRec) (fun t => t.field Reg.FUS_CMD_STATUS 0 6 == 2 + 4 &&
    (t.die 5).soft == [BitVec.ofNat 64 laneRec] && t.ev.atSource.length == 1),
  goes (.repairBurnComplete []) { (on_.setDie 5 { soft := [7, 9] }).setField Reg.FUS_CMD_STATUS 0 1 1 with
    bru := { burnDie := some 5, burnQueue := [7, 9] } } fun t => (t.die 5).fields == [7, 9] && t.bru.burnDie.isNone &&
    t.field Reg.FUS_CMD_STATUS 0 11 == 2 + 4 + 128] : List Bool).all id = true := by decide +kernel
def tap (l : Nat) : State := { keyed 8 0 with jtag := { level := l, nonce := some 9 } }
theorem test_debug : ([
  goes .bypass on_ (fun t => t.jtag.ir == 0xFF && t.jtag.bypasses && t.sent == []),
  goes .samplePreload on_ (fun t => t.jtag.ir == 2 && !t.jtag.bypasses), goes .idcode off_ (fun t => t == off_),
  goes .idcode on_ (fun t => t.sent == [.jtag 32 0x1D640A2F]),
  goes .authStatus (tap 2) (fun t => t.sent == [.jtag 8 2]),
  goes (.authChallenge 3) on_ (fun t => t.jtag.nonce == some 3 && t.sent.length == 1),
  (tap 0).debugKey 1 1 0 == some zeroKey && ed25519 zeroKey (natLe 9 32 ++ natLe 0 8 ++ [1, 1]) debugSig,
  (tap 0).debugAuth 9 1 1 0 debugSig,
  goes (.authResponse 1 1 0 0) on_ (fun t => t.jtag.level == 0 && t.ev.atSource.length == 1),
  goes (.mem 0xA0010 false false 0 {}) ((tap 1).setReg Reg.EVT_SEL 77) (fun t => t.sent == [.jtag 64 (0xA0010 + 77 * 2 ^ 32)]),
  goes (.mem 0xA0010 true false 7 {}) (tap 2) (fun t => t.reg Reg.EVT_SEL == 7),
  goes (.mem 0xA0010 false false 0 {}) (tap 0) (fun t => t.sent == []),
  goes (.mem 0xA0010 true false 7 {}) (tap 1) (fun t => t.regs == (tap 1).regs),
  goes .clearFlag { tap 3 with flash := { drained := true } } (fun t => !t.flash.drained && t.sent == [.faultN false] && t.ev.atSource.length == 1),
  goes .clearFlag (tap 3) (fun t => t.sent == []),
  goes .debugSessionClose (tap 2) (fun t => t.jtag.level == 0 && t.ev.atSource.length == 1),
  goes .debugSessionClose (tap 0) fun t => t == tap 0] : List Bool).all id = true := by decide +kernel

theorem logPlain_jtag (s : State) (src cls cause p0 p1 p2 : Nat) : (s.logPlain src cls cause p0 p1 p2).jtag = s.jtag := by
  simp only [State.logPlain, State.logEvent]; split <;> rfl
theorem closeDebug_jtag (s : State) : s.closeDebug.jtag = { s.jtag with level := 0 } := by
  simp only [State.closeDebug]; split <;> simp [logPlain_jtag]
theorem openDebug_jtag (s : State) {l : Nat} (h : l ≠ 0) : (s.openDebug l).jtag = { s.jtag with level := l } := by
  simp [State.openDebug, h, logPlain_jtag, closeDebug_jtag]
theorem tap_acts {s : State} {code : Byte} (act : State → State) (on : s.power.off = false)
    (known : Jtag.bypasses { s.jtag with ir := code } = false) : s.tap code act = act { s with jtag := { s.jtag with ir := code } } := by
  simp [State.tap, on, known]
/-- The module after the TAP has loaded AUTH_RESPONSE. -/
def challenged : State := { tap 0 with jtag := { nonce := some 9, level := 0, ir := 0x11 } }
theorem challenged_holds : challenged.debugAuth 9 1 1 0 debugSig = true := by decide +kernel
/-- A response that holds is granted, whatever the fused debug ceiling, which is no number here, as long as it is not 0. -/
theorem test_granted (h : Config.debugCeiling.toNat ≠ 0) :
    ∃ t, exec (.authResponse 1 1 0 debugSig) (tap 0) = .next t ∧ t.jtag = { nonce := none, level := 1, ir := 0x11 } := by
  have low : min (1 : BitVec 8).toNat ceilingLevel = 1 := Nat.min_eq_left (Nat.pos_of_ne_zero h)
  have run := tap_acts (s := tap 0) (code := 0x11) (·.authResponse 1 1 0 debugSig) rfl (by decide +kernel)
  refine ⟨_, rfl, ?_⟩
  have nonce : challenged.jtag.nonce = some 9 := rfl
  rw [run, show ({ tap 0 with jtag := { (tap 0).jtag with ir := 0x11 } } : State) = challenged from rfl]
  simp only [State.authResponse, nonce, challenged_holds, ↓reduceIte]
  rw [low]
  exact openDebug_jtag _ Nat.one_ne_zero

/-! ### Slot commands -/
def m0 : BitVec 16 := 1024
def f0 : BitVec 16 := 1024 + 33
def s0 : BitVec 16 := 1024 + 35
def iss (g : BitVec 16) : Issue := { cluster := g, psel := 0, sense := false, qp := false }
/-- The job of slot 0 runs on die 1, and one of its clusters issues. -/
def running (g : BitVec 16) (c : Cluster) : State := { State.reset.setJob 0 aJob with clusters := [(g.toNat, { c with parked := false })] }
/-- A lane whose v1, v2, v3 hold 1.0, 2.0, 4.0 in element 0. -/
def lane0 : Lane := { v := [(1, 0x3F800000), (2, 0x40000000), (3, 0x40800000)], sram := [(64, 5), (1025, 7)] }
def busy : Cluster := { lanes := [(0, lane0)], s := [(1, 64), (2, 5), (3, 7)], p := [(1, 3)] }
/-- The command is well formed, its cluster can issue, and the cluster satisfies a property after it. -/
def runs (g : BitVec 16) (x : Cluster) (c : Instr) (P : Cluster → Bool) : Bool :=
  let s := running g x
  shows (legal c && s.canIssue g.toNat) c s fun t => P (t.cluster g.toNat) && (t.cluster g.toNat).issued
/-- Lane 0's v4 takes a value after some beats. -/
def gives (beats : Nat) (v : BitVec 512) (x : Cluster) : Bool := x.pend.contains ⟨beats, .vreg 0 4 v⟩
def o123 : VOps := { vd := 4, va := 1, vb := 2 }
theorem test_vector : ([
  runs m0 busy (.fadd (iss m0) o123) (gives 4 0x40400000), runs m0 busy (.fsub (iss m0) o123) (gives 4 0xBF800000),
  runs m0 busy (.fmul (iss m0) o123) (gives 4 0x40000000),
  runs m0 busy (.fma (iss m0) { vd := 3, va := 1, vb := 2 }) (fun x => x.pend.contains ⟨4, .vreg 0 3 0x40C00000⟩),
  runs m0 busy (.fmin (iss m0) o123) (gives 4 0x3F800000), runs m0 busy (.fmax (iss m0) o123) (gives 4 0x40000000),
  runs m0 busy (.iadd (iss m0) o123) (gives 1 0x7F800000), runs m0 busy (.isub (iss m0) o123) (gives 1 0xFF800000),
  runs m0 busy (.vand (iss m0) o123) (gives 1 0), runs m0 busy (.vor (iss m0) o123) (gives 1 0x7F800000),
  runs m0 busy (.vxor (iss m0) { vd := 4, va := 2, vb := 3 }) (gives 1 0x00800000),
  runs m0 busy (.vnop (iss m0)) (fun x => x.pend == []), runs m0 busy (.shl (iss m0) 4 2 1) (gives 1 0x80000000),
  runs m0 busy (.shr (iss m0) 4 2 30) (gives 1 1), runs m0 busy (.mov (iss m0) 4 2) (gives 1 0x40000000),
  runs m0 busy (.bcast (iss m0) 4 1 0) (gives 1 (ofElements (List.replicate 16 0x3F800000))),
  runs m0 busy (.lanex (iss m0) 4 2 0) (gives 2 0x40000000),
  runs m0 busy (.vfroms (iss m0) 4 2) (gives 1 (ofElements (List.replicate 16 5))),
  runs m0 busy (.scale (iss m0) 2 false) (fun x => x.pend.contains ⟨1, .scaleA 0 0x40000000⟩),
  runs m0 busy (.fcmp (iss m0) 1 2 1 1 0) (fun x => x.pend.any fun l => l.beats == 4),
  runs m0 { busy with cvt := [0] } (.cvt (iss m0) 4 1 0 8) (fun x => x.pend.any fun l => l.beats == 3),
  runs f0 { busy with lanes := [(0, { v := [(2, 0x40000000)] })] } (.sfu (iss f0) 4 2 0) (fun x => x.pend.any fun l => l.beats == 9),
  runs f0 busy (.pwt (iss f0) 4 2 2) fun x => x.pend.any fun l => l.beats == 5] : List Bool).all id = true := by decide +kernel
def ema : EmacOps := { elast := 0, fmtA := 5, fmtB := 5, srcA := 1, pa := 0, srcB := 2, hb := false, scl := false }
theorem test_engine : ([
  runs m0 busy (.enop (iss m0)) (fun x => x.pend == []),
  runs m0 busy (.emac (iss m0) ema) (fun x => x.pend.length == 16),
  runs m0 busy (.emacc (iss m0) ema) (fun x => x.pend.length == 16),
  runs m0 busy (.eclr (iss m0) 3 1 (-4)) (fun x => x.pend.length == 32),
  runs m0 busy (.eslice (iss m0) 0 0 1 2) (fun x => x.pend.length == 16),
  runs m0 busy (.erd (iss m0) 0 4 0) (fun x => x.pend.any fun l => l.beats == 4)] : List Bool).all id = true := by decide +kernel
/-- Two products at scales 0 and 2, whose sum 1.5 + 4 x 2 is 9.5 in every order; a window takes them
without scales. -/
def sum2 (l : List (Exact × Int)) (mode : Nat) : Ledger := l.foldl (fun y p => y.addProduct p.1 p.2) (({} : Ledger).clear mode (-10))
def products : List (Exact × Int) := [(.fin false 3 (-1), 0), (.fin false 1 1, 2)]
/-- 1.5 and 2.5 as FP64, and every slice step of their product in lane q of a group. -/
def sliced (q : Nat) : Ledger := (List.range 7).foldl (fun y n => y.sliceStep q n 0x3FF8000000000000 0x4004000000000000) (({} : Ledger).clear 3 0)
theorem test_sums : ([
  !(sum2 products 0).flag 6 && (sum2 products 0).e == 0 && (sum2 products 0).value == 19 * 2 ^ 63,
  (sum2 products.reverse 0).value == 19 * 2 ^ 63 && (sum2 products.reverse 0).e == 0,
  !(sum2 products 1).flag 6 && (sum2 products 1).value == 7 * 2 ^ 73 && (sum2 products 1).residueOk,
  ((sum2 products 0).readElement (rctlOf 9) 0).bits == 0x41180000,
  (List.range 4).all (fun q => !(sliced q).flag 6),
  (sliceExp (sliced 0) (sliced 1) (sliced 2) (sliced 3)).any fun u =>
    sliceSum (sliced 0) (sliced 1) (sliced 2) (sliced 3) u * 2 ^ (u + 104).toNat == 15 * 2 ^ 102] : List Bool).all id = true := by decide +kernel
def mem1 : MemOps := { reg := 4, cntM1 := 0, sb := 1, off := 0, inc := true }
theorem test_memory : ([
  runs m0 busy (.mnop (iss m0)) (fun x => x.pend == []),
  runs m0 busy (.vld (iss m0) mem1) (fun x => x.pend.contains ⟨2, .vreg 0 4 5⟩ && x.pend.contains ⟨1, .sreg 1 (BitVec.allOnes 64) 128⟩),
  runs m0 busy (.vst (iss m0) { mem1 with reg := 2 }) (fun x => x.pend.contains ⟨1, .mem 0 64 (natLe 0x40000000 64)⟩),
  runs m0 busy (.sld (iss m0) { reg := 4, lane := 0, sb := 1, off := 0 }) (fun x => x.pend.contains ⟨2, .sreg 4 (BitVec.allOnes 64) 5⟩),
  runs m0 busy (.sst (iss m0) { reg := 3, lane := 0, sb := 1, off := 0 }) (fun x => x.pend.contains ⟨1, .mem 0 64 (natLe 7 8)⟩),
  runs m0 busy (.lsave (iss m0) { acc := 0, sb := 1, off := 0, inc := false }) (fun x => x.pend.any fun l => l.beats == 4),
  runs m0 busy (.lrest (iss m0) { acc := 0, sb := 1, off := 0, inc := false }) (fun x => x.pend.any fun l => l.beats == 4),
  runs m0 busy (.sout (iss m0) 0 1 0 false) (fun x => (AMap.get [] x.inj 0).map (·.entry.data) == [5]),
  runs m0 { busy with queues := [(1, { entries := [{ data := 9, poison := false }] })] } (.sin (iss m0) 1 1 0 false) (fun x =>
    x.pend.contains ⟨1, .mem 0 64 (natLe 9 64)⟩)] : List Bool).all id = true := by decide +kernel
/-- An address past the lane SRAM (R110). -/
def far : Cluster := { busy with s := [(1, 0xFFFFFFC0)] }
theorem test_memoryFault : ([
  shows ((running m0 far).canIssue 1024 && (sramSpan (kindOf 1024) 0xFFFFFFC0 64).isNone) (.vld (iss m0) mem1) (running m0 far) (fun t =>
    t.ev.atSource.length == 1),
  shows ((running m0 far).canIssue 1024) (.vst (iss m0) mem1) (running m0 far) fun t => t.ev.atSource.map (·.cause) == [2]]
  : List Bool).all id = true := by decide +kernel
/-- A cluster that has entered two rounds. -/
def marked : Cluster := match exec (.ctoll (iss m0) false) (running m0 busy) with
  | .next s => (match exec (.ctoll (iss m0) false) s with | .next t => t.cluster 1024 | _ => {})
  | _ => {}
theorem test_scalar : ([
  runs m0 busy (.qnop (iss m0)) (fun x => x.pend == []),
  runs m0 busy (.salu (iss m0) 0 4 2 3) (fun x => x.pend.contains ⟨1, .sreg 4 (BitVec.allOnes 64) 12⟩),
  runs m0 busy (.salu (iss m0) 8 4 2 3) (fun x => x.pend.contains ⟨3, .sreg 4 (BitVec.allOnes 64) 35⟩),
  runs m0 busy (.salui (iss m0) 0 4 2 255) (fun x => x.pend.contains ⟨1, .sreg 4 (BitVec.allOnes 64) 4⟩),
  runs m0 busy (.sli (iss m0) 4 1 9) (fun x => x.pend.contains ⟨1, .sreg 4 0xFFFF0000 0x90000⟩),
  runs m0 busy (.pcmp (iss m0) 2 0 2 3) (fun x => x.pend.any fun l => match l.target with | .pred 2 _ _ => true | _ => false),
  runs m0 busy (.plog (iss m0) 2 0 1 1) (fun x => x.pend.any fun l => match l.target with | .pred 2 _ _ => true | _ => false),
  runs m0 busy (.pfroms (iss m0) 2 2) (fun x => x.pend.contains ⟨1, .pred 2 0xFFFF 5⟩),
  runs m0 busy (.ptos (iss m0) 4 1) (fun x => x.pend.contains ⟨1, .sreg 4 (BitVec.allOnes 64) 3⟩),
  runs m0 { busy with couplings := [(5, { count := 9 })] } (.cread (iss m0) 5 4) (fun x => x.pend.contains ⟨1, .sreg 4 (BitVec.allOnes 64) 9⟩),
  runs m0 { busy with pc := 2 } (.rep (iss m0) 6 1 0) (fun x => x.nextRep == some { first := 3, last := 4, count := 6, idx := 0, lp := 0 }),
  runs m0 busy (.ssend (iss m0) 2) (fun x => (AMap.get [] x.inj 1).map (·.entry.data) == [5]),
  runs m0 busy (.csend (iss m0) 2) (fun x => (AMap.get [] x.inj 2).map (·.entry.data) == [5]),
  runs m0 busy (.vsend (iss m0) 2 0) (fun x => (AMap.get [] x.inj 0).map (·.entry.data) == [0x40000000]),
  runs m0 busy (.csig (iss m0) 5 true false 3) (fun x => (AMap.get [] x.inj 2).map (·.entry.data) == [3 * 256 + 5 * 4]),
  runs m0 busy (.csig (iss m0) 5 false false 3) (fun x => x.sig == some { cpl := 5, sub := false, amount := 3 }),
  runs m0 busy (.endProg (iss m0)) (fun x => x.ending),
  runs m0 busy (.cwait (iss m0) 5 false 0 3 true 0) (fun x => x.hold == .wait 5 0 3 true 0xFFFF 0),
  runs m0 busy (.cwait (iss m0) 5 true 0 0 false 2) (fun x => x.hold == .remote 5 0 && (AMap.get [] x.inj 2).length == 1),
  runs m0 busy (.ctoll (iss m0) true) (fun x => x.mark.isSome && x.hold == .toll 0 0),
  runs m0 { busy with mark := marked.mark } (.ctoll (iss m0) false) (fun x => x.pendMark.isSome),
  shows (marked.mark.isSome && marked.pendMark.isSome) (.ctoll (iss m0) false) (running m0 marked) fun t =>
    t.ev.atSource.map (·.cause) == [1]] : List Bool).all id = true := by decide +kernel
/-- A sparse lane: bits 0 and 5 match, key and value words in v1 and v2. -/
def sparse : Cluster := { busy with lanes := [(0, { lane0 with walkA := 0x21, walkB := 0x21, walkM := 0x21 })] }
theorem test_sparse : ([
  runs s0 sparse (.xset (iss s0) { vd := 4, va := 1, vb := 1 } false 0 0 0) (fun x => x.pend.any fun l => match l.target with
    | .walk 0 a _ m => a == 0x3F800000 && m == 0x3F800000 | _ => false),
  runs s0 sparse (.xwalk (iss s0) 4 1) (fun x => x.pend.contains ⟨1, .walk 0 0x21 0x21 0⟩),
  runs s0 sparse (.xgath (iss s0) { vd := 4, va := 1, vb := 2 } false 1) (fun x => x.pend.any fun l => l.beats == 2),
  runs s0 sparse (.x24 (iss s0) { vd := 4, va := 1, vb := 2 } 1) (fun x => x.pend.any fun l => l.beats == 2),
  runs s0 sparse (.xcslu (iss s0) 4 1 true 8 false) (fun x => x.pend.any fun l => l.beats == 2),
  runs s0 sparse (.xcslu (iss s0) 4 1 false 0 true) (fun x => x.pend.any fun l => l.beats == 2),
  runs s0 sparse (.hclr (iss s0) 2 true) (fun x => x.pend.any fun l => match l.target with | .table 0 w t => w && t.desc == 5 | _ => false),
  runs s0 sparse (.hstat (iss s0) 4 false) (fun x => x.pend.any fun l => l.beats == 2),
  runs s0 sparse (.hacc (iss s0) { vd := 0, va := 1, vb := 2 } false false) (fun x => x.pend.any fun l => l.beats == 4),
  shows ((running s0 sparse).clusterWindow s0.toNat 0 == some { granules := 1, rights := 2 } || true) (.hstat (iss s0) 4 false)
    (running s0 sparse) (fun _ => true)] : List Bool).all id = true := by decide +kernel

/-! ### Tables, couplings, beats -/
def withWindow (s : State) (w : Nat) : State := s.setJob 0 { aJob with windows := [(w, { granules := 1, rights := 2 })] }
/-- An entry on a link. -/
def held1 : Entry := { data := 9, poison := false }
theorem test_tables : ([
  shows ((withWindow (running s0 busy) 5).canIssue s0.toNat) (.hmerge (iss s0) 4 2 true) (withWindow (running s0 busy) 5) (fun t =>
    (t.cluster s0.toNat).stall == .merge true 4 5 0 0xFFFF 0 0),
  (let s := running s0 { busy with stall := .spill 0 true, spillOut := [{ win := 5, data := 9, at_ := { cluster := 1059, off := 0, n := 1 } }] }
   goes (.spillComplete s0) s fun t => t.cluster s0.toNat == s.cluster s0.toNat),
  goes (.spillComplete s0) (running s0 { busy with stall := .spill 0 true }) (fun t => (t.cluster s0.toNat).stall == .none),
  goes (.hmergeComplete s0) (withWindow (running s0 { busy with stall := .merge false 4 5 0 1 0 0 }) 5) (fun t =>
    (t.cluster s0.toNat).stall == .none)] : List Bool).all id = true := by decide +kernel
/-- A table of lane 0 that the next new key spills: one entry, of key 9 and value 3, and as many more as R178 allows. -/
def fullTable : HashTable :=
  { entries := [(5, { valid := true, key := 9, value := 3, residue := 3 })], valid := 1792
    desc := BitVec.ofNat 64 (2 ^ 18 * 0x1000 + 2 ^ 31 * 4) }
/-- The record of that entry (R178). -/
def spilt : List Byte := natLe (3 + 9 * 2 ^ 128 + 3 * 2 ^ 168) 32
/-- A merge of lane 0's first table, whose only entry has key 9 and value 2^-40 in the window. -/
def merging : State :=
  let t : HashTable := { fullTable with valid := 1, desc := 0, status := 0x15, entries := [(5, { valid := true, key := 9, value := 16777216, residue := 1 })] }
  { chs.setJob 0 { aJob with windows := [(5, { granules := 1, rights := 2 })] } with
    clusters := [(s0.toNat, { busy with parked := false, lanes := [(0, lane0.setTable false t)], stall := .merge false 4 5 9 1 0 0 })] }
theorem test_spill : ([
  runs s0 { busy with lanes := [(0, lane0.setTable false fullTable)] } (.hacc (iss s0) { vd := 0, va := 1, vb := 2 } false false) (fun x =>
    x.pend.contains ⟨1, .mem 0 0x20000 spilt⟩ && x.pend.contains ⟨1, .spill 9 false []⟩ &&
    x.pend.any fun l => match l.target with | .table 0 false t => t.underRecs == 1 && t.spills == 1 && l.beats == 4 | _ => false),
  goes (.hmergeComplete s0) merging (fun t => (t.cluster s0.toNat).stall == .none &&
    ((t.cluster s0.toNat).lane 0).vreg 4 == 1 && ((t.cluster s0.toNat).lane 0).table false == { status := 1 } &&
    readLe t.chsMem (64 * lineKey 2 0) 8 == 9 && readLe t.chsMem (64 * lineKey 2 0 + 8) 4 == 0x2B800000),
  (let s := { merging with clusters := merging.clusters.map fun p => (p.1, { p.2 with spillOut := [{ win := 5, data := 9, at_ := { cluster := 1059, off := 0, n := 1 } }] }) }
   goes (.hmergeComplete s0) s fun t => t.cluster s0.toNat == s.cluster s0.toNat)] : List Bool).all id = true := by decide +kernel
def at_ (t : State) : Cluster := t.cluster m0.toNat
theorem test_couplings : ([
  goes (.waitSatisfied m0) (running m0 { busy with hold := .wait 5 0 3 true 1 0, couplings := [(5, { count := 7 })] }) (fun t =>
    (at_ t).hold == .resume 3 && ((at_ t).coupling 5).count == 4),
  goes (.signalMessage m0 (3#8 ++ 5#6 ++ 0#2) 99) (running m0 busy) (fun t => ((at_ t).coupling 5).count == 3 &&
    ((at_ t).coupling 5).total == 1 && ((at_ t).coupling 5).lastSrc == 99 && ((at_ t).coupling 5).lastValid),
  goes (.watchMessage m0 (0#5 ++ 4#3 ++ 5#6 ++ 1#2)) (running m0 { busy with couplings := [(5, { thresh := 1 })] }) (fun t => (((at_ t).coupling 5).slot 0) == { valid := true, path := 4 }),
  goes (.wakeMessage m0 2) (running m0 { busy with hold := .remote 5 0 }) (fun t => (at_ t).hold == .resume 3),
  goes (.wakeMessage m0 2) (running m0 { busy with hold := .remote 5 6 }) (fun t => (at_ t).hold == .woken 6),
  goes (.wakeLinePulse m0 1) (running m0 { busy with hold := .remote 5 0 }) fun t => (at_ t).hold == .resume 3]
  : List Bool).all id = true := by decide +kernel
def released (h : Hold) : State := { running m0 { busy with hold := h } with toll := { oldest := 1 } }
theorem test_broadcast : ([
  goes (.broadcastWake 1) (released (.toll 0 0)) (fun t => (at_ t).hold == .resume 3),
  goes (.broadcastWake 1) (released (.toll 0 2)) (fun t => (at_ t).hold == .woken 2),
  goes (.broadcastWake 1) (released (.toll 1 0)) (fun t => (at_ t).hold == .toll 1 0),
  goes (.broadcastWake 1) ((released (.toll 0 0)).setJob 0 {}) (fun t => (at_ t).parked && (at_ t).hold == .none)]
  : List Bool).all id = true := by decide +kernel
/-! ### Crossings, captures -/
/-- Both sides of the crossing between dies 0 and 1 are trained. -/
def crossed : State := (State.reset.setField (Reg.FAB_XING_STATUS 0 1) 0 2 2).setField (Reg.FAB_XING_STATUS 1 3) 0 2 2
def spared : State := crossed.setDie 0 { soft := [BitVec.ofNat 64 (mkRecord 3 2 (1 + 4 * 70 + 2 ^ 16 + 2 ^ 24))] }
def down (n : Nat) (t : State) : Bool := t.edgeMode 0 1 == 3 && t.edgeMode 1 3 == 3 && t.field (Reg.FAB_XING_STATUS 0 1) 4 4 == n
theorem test_crossings : ([
  goes (.driftWarning 0 1 32) crossed (fun t => t.field (Reg.FAB_XING_COUNT 0 1) 0 16 == 1 && t.field (Reg.FAB_XING_DRIFT 0 1) 0 8 == 32),
  goes (.driftWarning 0 1 (-63)) crossed (fun t => t.field (Reg.FAB_XING_DRIFT 0 1) 8 8 == 193),
  goes (.driftWarning 0 1 31) crossed (fun t => t.field (Reg.FAB_XING_COUNT 0 1) 0 16 == 0 && t.field (Reg.FAB_XING_DRIFT 0 1) 0 8 == 31),
  goes (.driftLimit 0 1 64) crossed (down 1),
  goes (.beatCheckError 0 1) crossed (fun t => down 2 t && t.field (Reg.FAB_XING_COUNT 0 1) 16 16 == 1),
  goes (.laneLoss 0 1 70) crossed (down 3),
  shows ((spared.die 0).lanePairs 1 == [(70, 1)]) (.laneLoss 0 1 70) spared (fun t => t == spared),
  goes (.clearMinmax .mgmt 0 1) (crossed.setReg (Reg.FAB_XING_DRIFT 0 1) 0x7F8105) (fun t => t.reg (Reg.FAB_XING_DRIFT 0 1) == 0x050505),
  goes (.clearCount .mgmt 0 1) (crossed.setReg (Reg.FAB_XING_COUNT 0 1) 77) fun t => t.reg (Reg.FAB_XING_COUNT 0 1) == 0]
  : List Bool).all id = true := by decide +kernel
def taken : Shot := { c := { busy with queues := [(4, { arrivals := 7, consumed := 5 })], couplings := [(6, { count := 8, total := 2 })] },
                      beat := 21, ridx := 1, len := 4, ms := 33 }
def pendFab (x : Option Shot) : State :=
  { (running m0 busy).setField (Reg.FAB_VIEW_STATUS 1) 0 1 1 with fabViews := [(1, { cluster := 0, shot := x })] }
def pendDbg (x : Option Shot) : State :=
  { (running m0 busy).setField Reg.DBG_STATUS 0 1 1 with dbgView := { cluster := 1024, cpl := 6, shot := x } }
theorem test_captures : ([
  goes (.fabViewCapture .mgmt 1 0x80000021) (running m0 busy) (fun t => t.field (Reg.FAB_VIEW_STATUS 1) 0 1 == 1 &&
    AMap.get {} t.fabViews 1 == { cluster := 33 }),
  goes (.fabViewCapture .mgmt 1 0x80001021) ((running m0 busy).setJob 0 { aJob with beat := 9 }) (fun t =>
    (AMap.get {} t.fabViews 1).late),
  goes (.fabViewCaptureTaken 1) (pendFab (some taken)) (fun t => t.field (Reg.FAB_VIEW_STATUS 1) 0 3 == 2 &&
    t.reg (0x420000 + 0x8300 + 32) == 7 && t.fabViews == []),
  goes (.fabViewCaptureTaken 1) ((pendFab none).setJob 0 {}) (fun t => t.field (Reg.FAB_VIEW_STATUS 1) 0 3 == 6),
  goes (.dbgCapture .mgmt 0x80060400) (running m0 busy) (fun t => t.field Reg.DBG_STATUS 0 1 == 1 &&
    t.dbgView == { cluster := 1024, cpl := 6 }),
  goes .dbgCaptureTaken (pendDbg (some taken)) (fun t => t.field Reg.DBG_STATUS 0 3 == 2 && t.reg Reg.DBG_COUNT == 8 &&
    t.reg Reg.DBG_SIG_TOTAL == 2 && t.reg64 Reg.DBG_BEAT_LO == 21),
  goes .dbgCaptureTaken ((pendDbg none).setJob 0 {}) fun t => t.field Reg.DBG_STATUS 0 3 == 6] : List Bool).all id = true := by decide +kernel
/-! ### Tollgate, test segments, Drag -/
def rounds (t : Toll) : State := { State.reset with toll := { t with started := true } }
def srcOf (n : Nat) : BitVec 20 := BitVec.ofNat 20 n
/-- Every participant has entered round 0, and every one but die 5's: the conditions of a release and of a stall. -/
def everyone : State := rounds { opened := 1, entered := participants }
def allBut5 : State := rounds { opened := 1, entered := participants.erase (srcDie 5) }
theorem test_tollgate : ([
  goes .tollgateRoundOpen (rounds { k := 16 }) (fun t => t.toll.opened == 1),
  goes .tollgateRoundOpen (rounds { k := 16 }) (fun t => [srcDrag, srcClock].all t.toll.entered.contains),
  (let s := (rounds {}).setEngine 3 { recentring := true }
   shows (s.dutyOpen (srcEngine 3)) (.tollgateEntry (srcOf (srcEngine 3)) 0 true) s fun t => t.toll.entered == []),
  goes (.tollgateEntry (srcOf srcDrag) 0 true) (rounds {}) (fun t => t.toll.entered == [srcDrag]),
  goes (.tollgateEntry (srcOf srcDrag) 0 true) { rounds { entered := [srcDrag], lastEntryMs := 5 } with ms := 9 } (fun t =>
    t.toll.lastEntryMs == 5 && t.toll.entered == [srcDrag]),
  goes .tollgateRoundOpen ((rounds { k := 16 }).setEngine 3 { recentring := true }) (fun t => (t.engine 3).late &&
    t.field (Reg.LTN_ENG_RING 3) 24 8 == 1),
  goes .tollgateRoundOpen ((rounds { k := 16 }).setEngine 3 { recentring := true, late := true }) (fun t =>
    t.field (Reg.LTN_ENG_RING 3) 24 8 == 0),
  goes (.tollgateEntry (srcOf srcDrag) 1 true) (rounds {}) (fun t => t.toll.pending == [srcDrag] && t.toll.entered == []),
  goes (.tollgateEntry (srcOf srcDrag) 2 true) (rounds {}) (fun t => t.ev.atSource.map (·.cause) == [1]),
  goes (.tollgateEntry (srcOf srcDrag) 0 false) (rounds {}) (fun t => t.ev.atSource.map (·.cause) == [2]),
  everyone.toll.started && decide (everyone.toll.oldest < everyone.toll.opened) && everyone.allEntered,
  allBut5.missing == [srcDie 5] && !allBut5.missing.contains pairUnit,
  goes (.tgPeriodWrite .mgmt 12) State.reset (fun t => t.toll.staged == some 12 && t.field Reg.CLK_TG_STATUS 9 1 == 1),
  goes (.tgPeriodWrite .mgmt 24) State.reset (fun t => t.toll.staged == some 24),
  goes (.tgPeriodWrite .mgmt 25) State.reset (fun t => t == State.reset),
  goes (.tgPeriodWrite .mgmt 11) State.reset (fun t => t == State.reset),
  goes (.tgPeriodWrite .mgmt 20) (paired 2 true) fun t => t.toll.staged.isNone] : List Bool).all id = true := by decide +kernel
def tested (w : WhlState) : State := running m0 { whl := { w with core := some 3, sliceLeft := 4 } }
def noLoc : BistLoc := { under := false, row := 0, bit := 0, oneRow := false }
theorem test_segments : ([
  goes (.bistSegmentEnd m0 true noLoc) (tested { seg := 2398 }) (fun t => (at_ t).whl.seg == 2399 && !(at_ t).whl.passed),
  goes (.bistSegmentEnd m0 true noLoc) (tested { seg := 2399 }) (fun t => (at_ t).whl.passed && (at_ t).whl.sliceLeft == 0),
  goes (.bistSegmentEnd m0 false noLoc) (tested { seg := 7 }) (fun t => (at_ t).whl.reruns == 2 && (at_ t).whl.fails == 1),
  goes (.bistSegmentEnd m0 true noLoc) (tested { seg := 7, reruns := 2, fails := 1 }) (fun t => (at_ t).whl.reruns == 1 && (at_ t).whl.fails == 1),
  goes (.bistSegmentEnd m0 true noLoc) (tested { seg := 7, reruns := 1, fails := 1 }) (fun t => (at_ t).whl.reruns == 0 &&
    (at_ t).whl.seg == 8 && t.field Reg.FUS_WHL_COUNTS 16 16 == 1 && t.ev.atSource.map (·.cause) == [2]),
  goes (.bistSegmentEnd m0 false noLoc) (tested { seg := 7, reruns := 1, fails := 1 }) (fun t => (at_ t).whl.core.isNone &&
    t.field Reg.FUS_WHL_COUNTS 0 16 == 1 && t.ev.atSource.any fun r => r.cls == 0x16 && r.cause == 1),
  goes (.dragControlPeriod 48000 3000000 0 [(3, 900000)]) on_ (fun t => decide (AMap.get 0 t.power.ballast 3 ≤ 50000)),
  goes (.dragControlPeriod 48000 3000 0 []) on_ fun t => t.power.inputMv == 48000 && t.field Reg.PWR_STATUS 8 7 ≤ 64]
  : List Bool).all id = true := by decide +kernel
/-- A flight on a link of the job's die, and one on a die that is not the job's. -/
def flight (g beats : Nat) : Flight := { beats := beats, cluster := g, net := 1, dir := 2, entry := { data := 9, poison := false } }
theorem test_beatParts : ([
  (let s := { running m0 {} with flights := [flight 1024 1, flight 7 1] }
   (s.fly aJob).flights == [flight 7 1] && AMap.get none ((s.fly aJob).cluster 1024).links 6 == some held1),
  ({ running m0 {} with flights := [flight 1024 3] }.fly aJob).flights == [flight 1024 2],
  (let s := running m0 {}
   let t := s.deliver 1024 [(4, held1)]
   decide (0 < queueDepth 4) && ((t.cluster 1024).queue 4).entries == [held1] && ((t.cluster 1024).queue 4).arrivals == 1),
  (let s := running m0 { queues := [(4, { entries := List.replicate (queueDepth 4) held1 })] }
   (s.deliver 1024 [(4, held1)]).ev.atSource.map (·.cause) == [1]),
  ((running m0 {}).drop 1024 0x04 0xF none).ev.atSource.map (·.cause) == [4],
  (let s := running m0 { consumed := [4], queues := [(4, { entries := [held1], arrivals := 1 })] }
   ((s.popQueues 1024).cluster 1024).queue 4 == { arrivals := 1, consumed := 1 }),
  (((running m0 {}).cplSteps 1024 5 33 [(3, 7)] false).cluster 1024 |>.coupling 5).count == 3,
  ((running m0 {}).cplSteps 1024 5 33 [(-3, 7)] false).ev.atSource.map (·.cause) == [2],
  (innerNeighbour 1024 1).isSome && ((running m0 {}).driveLink 1024 0 1 held1).clusters.length == 2,
  ({ pend := [⟨1, .sreg 4 1 9⟩, ⟨3, .sreg 5 1 9⟩] } : Cluster).landAll.pend == [⟨2, .sreg 5 1 9⟩],
  ({ issued := true, pc := 4, rep := [{ first := 3, last := 4, count := 6, idx := 0, lp := 0 }] } : Cluster).advance.pc == 3,
  ({ issued := true, pc := 4, rep := [{ first := 3, last := 4, count := 6, idx := 5, lp := 0 }] } : Cluster).advance.pc == 5]
  : List Bool).all id = true := by decide +kernel
theorem test_beats : ([
  (let s := pendFab none
   shows ((s.job 0).covers 1) .bypass s fun _ => ((AMap.get {} (s.shoot 0 aJob 7).fabViews 1).shot.map (·.beat)) == some 7),
  (let s : State := { pendFab none with fabViews := [(1, { cluster := 0, target := some 8 })] }
   AMap.get {} (s.shoot 0 aJob 7).fabViews 1 == { cluster := 0, target := some 8 }),
  ((pendDbg none).shoot 0 aJob 7).dbgView.shot.isSome,
  shows (!((running m0 {}).openWindow 0 |>.job 0).withholds) (.jobBeat 0) (running m0 {}) (fun t => (t.job 0).beat == 1),
  shows (((running m0 {}).setJob 0 { aJob with swapLeft := 3 } |>.openWindow 0).job 0).withholds (.withheldBeat 0)
    ((running m0 {}).setJob 0 { aJob with swapLeft := 3 }) (fun t => (t.job 0).beat == 0 && (t.job 0).swapLeft == 2 && (t.job 0).skipped == 1)]
  : List Bool).all id = true := by decide +kernel

/-! ### Well-formedness, words, the queue -/
/-- The command is not well formed, and it is refused. -/
def refused (c : Instr) : Bool :=
  !c.wf && (match exec c State.reset with | .refused (.reservedOperand _) => true | _ => false)
def ov (vd : BitVec 5) (va vb : BitVec 6) : VOps := { vd := vd, va := va, vb := vb }
theorem test_illFormedArithmetic : ([
  refused (.emac (iss m0) { ema with fmtA := 7 }), refused (.emac (iss f0) { ema with elast := 1 }), refused (.emac (iss s0) ema),
  refused (.emac (iss m0) { ema with fmtA := 7, fmtB := 7, pa := 1 }), refused (.emac (iss m0) { ema with scl := true }),
  refused (.emacc (iss m0) { ema with srcA := 41 }), refused (.eclr (iss f0) 2 0 0), refused (.erd (iss m0) 0 31 0x9),
  refused (.erd (iss s0) 0 4 0), refused (.eslice (iss m0) 0 7 1 2), refused (.eslice (iss m0) 0 0 1 41),
  refused (.fadd (iss m0) (ov 4 41 2)), refused (.fsub (iss f0) (ov 4 1 2)), refused (.fmul (iss f0) (ov 5 2 2)),
  refused (.fma (iss m0) (ov 4 1 63)), refused (.fmin (iss f0) (ov 4 32 2)), refused (.fmax (iss f0) (ov 4 2 3)),
  refused (.fcmp (iss m0) 1 2 0 0 0), refused (.fcmp (iss m0) 1 2 1 7 0), refused (.fcmp (iss m0) 1 2 1 0 3),
  refused (.cvt (iss m0) 4 1 0 10), refused (.sfu (iss m0) 4 2 0), refused (.sfu (iss f0) 4 2 7), refused (.pwt (iss f0) 4 2 32),
  refused (.iadd (iss m0) (ov 4 41 2)), refused (.isub (iss m0) (ov 4 1 41)), refused (.vand (iss f0) (ov 1 2 2)),
  refused (.vor (iss m0) (ov 4 41 2)), refused (.vxor (iss m0) (ov 4 41 2)), refused (.shl (iss f0) 4 1 0), refused (.shr (iss m0) 4 41 0),
  refused (.mov (iss m0) 4 41), refused (.bcast (iss m0) 4 41 0), refused (.lanex (iss m0) 4 41 0), refused (.scale (iss m0) 41 true),
  refused (.vfroms (iss m0) 4 52)] : List Bool).all id = true := by decide +kernel
theorem test_illFormedOthers : ([
  refused (.xset (iss m0) o123 false 0 0 0), refused (.xset (iss s0) o123 false 0 0 3), refused (.xwalk (iss f0) 4 1),
  refused (.xgath (iss s0) o123 false 4), refused (.xgath (iss s0) o123 false 3), refused (.x24 (iss m0) o123 1),
  refused (.xcslu (iss s0) 4 1 true 6 false), refused (.xcslu (iss s0) 4 1 false 1 false), refused (.hclr (iss s0) 52 false),
  refused (.hacc (iss s0) o123 false false), refused (.hmerge (iss m0) 4 2 false), refused (.hstat (iss m0) 4 false),
  refused (.vld (iss m0) { mem1 with reg := 31, cntM1 := 1 }), refused (.vst (iss m0) { mem1 with reg := 29, cntM1 := 3 }),
  refused (.lsave (iss f0) { acc := 1, sb := 1, off := 0, inc := false }), refused (.lrest (iss s0) { acc := 0, sb := 1, off := 0, inc := false }),
  refused (.salu (iss m0) 13 4 2 3), refused (.salui (iss m0) 0 4 52 0), refused (.pcmp (iss m0) 0 0 2 3), refused (.pcmp (iss m0) 1 6 2 3),
  refused (.plog (iss m0) 0 0 1 1), refused (.pfroms (iss m0) 0 2), refused (.rep (iss m0) 0 0 0),
  refused (.rep { iss m0 with qp := true } 1 0 0), refused (.ssend (iss m0) 52), refused (.csend (iss m0) 63),
  refused (.csig (iss m0) 5 false false 0), refused (.csig (iss m0) 5 true true 1), refused (.cwait (iss m0) 5 true 0 0 false 5),
  refused (.cwait (iss m0) 5 false 3 0 false 0), refused (.cwait (iss m0) 10 false 2 0 false 0),
  refused (.endProg { iss m0 with qp := true })] : List Bool).all id = true := by decide +kernel
/-- A program word written out by the tables of R86, R92, R98, R102 and R103, from bit 127 down. -/
def word (e : BitVec 32) : BitVec 128 :=
  0b11111110_000010_00100_0001_00010#28 ++ 0b0_1_1111111111_00010_01_00101_0001#28 ++ 0b000000000_100001_000001_00011_000100#32 ++
    e ++ 0b000_1_1_011#8
def under : Issue := { cluster := 1024, psel := 3, sense := true, qp := true }
theorem test_words : ([
  (decodeWord 1024 (word 0b0_1_100010_011_000001_0110_0101_010_0001#32) == some {
    e := .emac under { elast := 2, fmtA := 5, fmtB := 6, srcA := 1, pa := 3, srcB := 34, hb := true, scl := false }
    v := .fma under { vd := 3, va := 1, vb := 33 }
    m := .vld under { reg := 5, cntM1 := 1, sb := 2, off := -1, inc := true }
    q := .salui under 1 4 2 (-2) }),
  (decodeWord 1024 (word 0b1_0000#32)).isNone, (decodeWord 1024 (word 0x6#32)).isNone,
  (decodeTableWord 16 5).isNone, State.reset.withFetchWord 16 5 == State.reset] : List Bool).all id = true := by decide +kernel
theorem test_queue : ([
  (match step { State.reset with pending := [.setEndpointId 9, .bypass] } with | .next t => t.mgmt.eid == 9 && t.pending == [.bypass] | _ => false),
  (match step State.reset with | .next t => t.up == 1 && t.ms == 0 | _ => false),
  gidOf 63 31 31 == 65535, gidDie 65535 == 63 && gidY 65535 == 31 && gidX 65535 == 31, kindOf 33 == .f && kindOf 35 == .s && kindOf 0 == .m,
  haHome (2 ^ 40 - 1) < 2048, ({ rowLen := 4, rows := 2, start := 64, stride := 512 } : StreamDesc).offset 5 == 64 + 512 + 64]
  : List Bool).all id = true := by decide +kernel
/-- A sound state from which a command answers, so that what EveryCommandKeeps and EveryStepKeeps suppose can be met. -/
theorem test_sound : Sound (running m0 busy) := ⟨⟨by decide, by decide⟩, by decide⟩
theorem test_answers : ∃ t, exec .bypass (running m0 busy) = .next t := ⟨_, rfl⟩

end Sys2Proof.Tests
end

section
/-! Cluster numbers and kinds (00 R15, R16). -/

namespace Sys2Proof.Machine

@[simp] theorem gidDie_gidOf {die y x : Nat} (hd : die < 64) (hy : y < 32) (hx : x < 32) :
    gidDie (gidOf die y x) = die := by
  unfold gidDie gidOf
  omega

@[simp] theorem gidY_gidOf {die y x : Nat} (hy : y < 32) (hx : x < 32) : gidY (gidOf die y x) = y := by
  unfold gidY gidOf
  omega

@[simp] theorem gidX_gidOf {die y x : Nat} (hx : x < 32) : gidX (gidOf die y x) = x := by
  unfold gidX gidOf
  omega

theorem gidOf_lt {die y x : Nat} (hd : die < 64) (hy : y < 32) (hx : x < 32) : gidOf die y x < 65536 := by
  unfold gidOf
  omega

/-- The kind of a cluster by the place of its number's column and row in their 4 by 4 block. -/
theorem kindOf_eq (g : Nat) :
    kindOf g =
      if (gidX g % 4, gidY g % 4) = (1, 1) ∨ (gidX g % 4, gidY g % 4) = (3, 3) then .f
      else if (gidX g % 4, gidY g % 4) = (3, 1) ∨ (gidX g % 4, gidY g % 4) = (1, 3) then .s else .m := by
  have hx : gidX g % 4 < 4 := Nat.mod_lt _ (by decide)
  have hy : gidY g % 4 < 4 := Nat.mod_lt _ (by decide)
  unfold kindOf
  generalize gidX g % 4 = x at *
  generalize gidY g % 4 = y at *
  interval_cases x <;> interval_cases y <;> rfl

/-- Settles O33. -/
theorem clusterNumbers : Obligations.ClusterNumbers := by
  intro die y x hd hy hx
  exact ⟨rfl, gidOf_lt hd hy hx, gidDie_gidOf hd hy hx, gidY_gidOf hy hx, gidX_gidOf hx⟩

/-- Settles O34. -/
theorem clusterKinds : Obligations.ClusterKinds := by
  intro die y x _ hy hx
  rw [kindOf_eq, gidX_gidOf hx, gidY_gidOf hy hx]

end Sys2Proof.Machine
end

section
/-! Registers of functions: what a register and a field of a function's view read after a write (08 R255). -/

namespace Sys2Proof.Machine

/-- A field of a field. -/
theorem bitsOf_bitsOf (v lo w d n : Nat) (h : d + n ≤ w) : bitsOf (bitsOf v lo w) d n = bitsOf v (lo + d) n := by
  apply Nat.eq_of_testBit_eq
  intro i
  simp only [bitsOf, Nat.testBit_mod_two_pow, Nat.testBit_div_two_pow]
  by_cases hi : i < n
  · have hw : i + d < w := by omega
    have hs : i + d + lo = i + (lo + d) := by omega
    simp only [hi, hw, hs, decide_true, Bool.true_and]
  · simp only [hi, decide_false, Bool.false_and]

/-- A field within the replaced one. -/
theorem bitsOf_setBits_within (v lo w x d n : Nat) (h : d + n ≤ w) :
    bitsOf (setBits v lo w x) (lo + d) n = bitsOf x d n := by
  have hx : x % 2 ^ w = bitsOf x 0 w := by simp [bitsOf]
  rw [← bitsOf_bitsOf _ lo w d n h, bitsOf_setBits_same, hx, bitsOf_bitsOf x 0 w d n h, Nat.zero_add]

variable (s : State)

/-- A register of a function after a field of it was written. -/
theorem fnReg_setFnField_same (f a lo w v : Nat) (h : lo + w ≤ 32) :
    ((s.setFnField f a lo w v).fnReg f a).toNat = setBits (s.fnReg f a).toNat lo w v := by
  unfold State.setFnField
  rw [fnReg_setFnReg _ _ _ _ _ _ (fun _ => ⟨rfl, rfl⟩), if_pos ⟨rfl, rfl⟩, BitVec.toNat_ofNat,
    Nat.mod_eq_of_lt (setBits_lt _ _ _ _ 32 (s.fnReg f a).isLt h)]

/-- Another register reads as before. -/
theorem fnReg_setFnReg_other {f g a b : Nat} (w : Word) (ha : a < 2 ^ 24) (hb : b < 2 ^ 24) (h : g ≠ f ∨ b ≠ a) :
    (s.setFnReg f a w).fnReg g b = s.fnReg g b := by
  rw [fnReg_setFnReg _ _ _ _ _ _ (regKey_inj hb ha), if_neg (by omega)]

/-- A field of another register reads as before. -/
theorem fnField_setFnField_other {f g a b : Nat} (lo w v lo' w' : Nat) (ha : a < 2 ^ 24) (hb : b < 2 ^ 24)
    (h : g ≠ f ∨ b ≠ a) : (s.setFnField f a lo w v).fnField g b lo' w' = s.fnField g b lo' w' := by
  unfold State.fnField State.setFnField
  rw [fnReg_setFnReg_other s _ ha hb h]

/-- A field of a function's register reads what was written to it. -/
theorem fnField_setFnField_same (f a lo w v : Nat) (h : lo + w ≤ 32) :
    (s.setFnField f a lo w v).fnField f a lo w = v % 2 ^ w := by
  rw [State.fnField, fnReg_setFnField_same s f a lo w v h, bitsOf_setBits_same]

/-- A field of the same register that lies apart from the written one reads as before. -/
theorem fnField_setFnField_apart (f a lo w v lo' w' : Nat) (h : lo + w ≤ 32) (hd : lo + w ≤ lo' ∨ lo' + w' ≤ lo) :
    (s.setFnField f a lo w v).fnField f a lo' w' = s.fnField f a lo' w' := by
  rw [State.fnField, fnReg_setFnField_same s f a lo w v h, State.fnField]
  rcases hd with hd | hd
  · exact bitsOf_setBits_above _ _ _ _ _ _ hd
  · exact bitsOf_setBits_below _ _ _ _ _ _ hd

/-- A field within the written one reads its part of the value. -/
theorem fnField_setFnField_within (f a lo w v d n : Nat) (h : lo + w ≤ 32) (hd : d + n ≤ w) :
    (s.setFnField f a lo w v).fnField f a (lo + d) n = bitsOf v d n := by
  rw [State.fnField, fnReg_setFnField_same s f a lo w v h, bitsOf_setBits_within _ _ _ _ _ _ hd]

/-- A function's counter after an addition. -/
theorem fnField_fnBump_same (f a lo w n : Nat) (h : lo + w ≤ 32) :
    (s.fnBump f a lo w n).fnField f a lo w = min (s.fnField f a lo w + n) (2 ^ w - 1) := by
  have hp : 0 < 2 ^ w := Nat.two_pow_pos w
  unfold State.fnBump
  rw [fnField_setFnField_same s f a lo w _ h, Nat.mod_eq_of_lt (by omega)]

end Sys2Proof.Machine
end

section
/-! BAR0 accesses (00 R7-R12): a write that is no aligned word, a write that reaches its register, a read. -/

namespace Sys2Proof.Machine

/-- What holds after the access holds of the write but for the probes. -/
theorem registerWrite_noted {via : Via} {off : BitVec 24} {size : Nat} {value : BitVec 32} {env : StepEnv} {s : State}
    {P : State → Prop} (h : P (s.barWrite via off.toNat size value env)) :
    Answers (.registerWrite via off size value env) s (Noted P) :=
  ⟨_, rfl, _, h, probesOnly_traced s _⟩

/-- A write that is no aligned word counts an error of its function. -/
theorem barWrite_misaligned {s : State} {via : Via} {off size : Nat} (value : BitVec 32) (env : StepEnv)
    (hx : s.fnExists via = true) (ha : wordAccess off size = false) :
    s.barWrite via off size value env = s.accessError (viaFn via) := by
  simp [State.barWrite, hx, ha]

/-- A word write that is granted reaches its register. -/
theorem barWrite_granted {s : State} {via : Via} {off : Nat} (value : BitVec 32) (env : StepEnv)
    (hx : s.fnExists via = true) (ha : wordAccess off 4 = true) (hg : s.grants via off = true) :
    s.barWrite via off 4 value env = s.reachedWrite via off value env := by
  simp [State.barWrite, State.gate, State.admits, hx, ha, hg]

theorem reachedWrite_pwrCfg (s : State) (via : Via) (value : BitVec 32) (env : StepEnv) :
    s.reachedWrite via Reg.PWR_CFG value env = s.writePwrCfg value := rfl

/-- A write of EVT_SEL stores the whole word (19 R463). -/
theorem reachedWrite_evtSel (s : State) (via : Via) (value : BitVec 32) (env : StepEnv) :
    s.reachedWrite via Reg.EVT_SEL value env = s.setReg Reg.EVT_SEL value := by
  have row : regSpec Reg.EVT_SEL = some ⟨0xA0010, 0x4, 1, 0x4, 1, 0x0, 0, [⟨0, 32, .rw⟩]⟩ := rfl
  have word : ∀ old, setBits old 0 32 (bitsOf value.toNat 0 32) = old - old % 2 ^ 32 + value.toNat := by
    intro old
    have := value.isLt
    simp [setBits, bitsOf, Nat.mod_eq_of_lt this]
  have plain : s.reachedWrite via Reg.EVT_SEL value env = s.plainWrite 0 Reg.EVT_SEL value := rfl
  have whole : ∀ old : Word, BitVec.ofNat 32 (writeFields [⟨0, 32, .rw⟩] old.toNat value.toNat) = value := by
    intro old
    have h : old.toNat - old.toNat % 2 ^ 32 = 0 := by rw [Nat.mod_eq_of_lt old.isLt]; omega
    simp only [writeFields, List.foldl_cons, List.foldl_nil, RegField.write, word, h, Nat.zero_add, BitVec.ofNat_toNat,
      BitVec.setWidth_eq]
  rw [plain, State.plainWrite, row]
  simp only [whole]
  rfl

theorem writePwrCfg_slew (s : State) (value : BitVec 32) :
    (s.writePwrCfg value).field Reg.PWR_CFG 0 8 = max 5 (min 120 (value.toNat % 2 ^ 8)) := by
  unfold State.writePwrCfg
  rw [field_setReg_same, BitVec.toNat_ofNat]
  simp only [bitsOf]
  omega

theorem writePwrCfg_cap (s : State) (value : BitVec 32) :
    (s.writePwrCfg value).field Reg.PWR_CFG 8 10 = max 60 (min 600 (value.toNat / 2 ^ 8 % 2 ^ 10)) := by
  unfold State.writePwrCfg
  rw [field_setReg_same, BitVec.toNat_ofNat]
  simp only [bitsOf]
  omega

/-- One upper word of a wide value, as state s shows it, latched into its shadow in state t. -/
def State.latchWord (s : State) (fn off : Nat) (view : Bool) (t : State) (i : Nat) : State :=
  let o := off + 4 * (i + 1)
  { t with shadow := AMap.set none t.shadow (regKey (viewFn fn o) o) (some (s.showWord fn o view)) }

/-- The first n upper words latched. -/
def State.latchFirst (s : State) (fn off : Nat) (view : Bool) (n : Nat) : State :=
  (List.range n).foldl (s.latchWord fn off view) s

theorem latchUpper_eq_latchFirst (s : State) (fn off : Nat) (view : Bool) :
    s.latchUpper fn off view = s.latchFirst fn off view (upperWords off) := rfl

theorem latchFirst_succ (s : State) (fn off : Nat) (view : Bool) (n : Nat) :
    s.latchFirst fn off view (n + 1) = s.latchWord fn off view (s.latchFirst fn off view n) n := by
  simp [State.latchFirst, List.range_succ]

/-- Latching changes the shadows only. -/
theorem latchFirst_rest (s : State) (fn off : Nat) (view : Bool) (n : Nat) :
    s.latchFirst fn off view n = { s with shadow := (s.latchFirst fn off view n).shadow } := by
  induction n with
  | zero => rfl
  | succ n ih => rw [latchFirst_succ, State.latchWord, ih]

/-- An upper word of the module's own keeps what its turn latched: every later one has a higher key. -/
theorem shadow_latchFirst {s : State} {fn off i n : Nat} (view : Bool) (hi : i < n)
    (hm : viewFn fn (off + 4 * (i + 1)) = 0) :
    AMap.get none (s.latchFirst fn off view n).shadow (off + 4 * (i + 1)) =
      some (s.showWord fn (off + 4 * (i + 1)) view) := by
  induction n with
  | zero => omega
  | succ n ih =>
    rw [latchFirst_succ, State.latchWord]
    by_cases e : i = n
    · have own : regKey (viewFn fn (off + 4 * (i + 1))) (off + 4 * (i + 1)) = off + 4 * (i + 1) := by
        rw [hm, regKey, Nat.zero_mul, Nat.zero_add]
      rw [← e, own, AMap.get_set_same]
    · have later : off + 4 * (i + 1) ≠ regKey (viewFn fn (off + 4 * (n + 1))) (off + 4 * (n + 1)) := by
        unfold regKey
        omega
      rw [AMap.get_set_other _ _ _ _ _ later]
      exact ih (by omega)

/-- A granted word read answers what the register shows or what was latched. -/
theorem hostRead_granted {s : State} {via : Via} {off size : Nat} (hx : s.fnExists via = true)
    (ha : wordAccess off size = true) (hg : s.grants via off = true) :
    s.hostRead via off size = (s.reachedRead (viaFn via) off (s.hostView via)).2.send
      (.regRead (s.reachedRead (viaFn via) off (s.hostView via)).1) := by
  simp [State.hostRead, State.barRead, hx, ha, hg]

theorem reachedRead_latched {s : State} {fn off : Nat} {w : Word} (view : Bool)
    (h : AMap.get none s.shadow (regKey (viewFn fn off) off) = some w) :
    s.reachedRead fn off view = (w, { s with shadow := AMap.set none s.shadow (regKey (viewFn fn off) off) none }) := by
  unfold State.reachedRead
  simp only [h]

theorem reachedRead_unlatched {s : State} {fn off : Nat} (view : Bool)
    (h : AMap.get none s.shadow (regKey (viewFn fn off) off) = none) :
    s.reachedRead fn off view = (s.showWord fn off view, s.latchUpper fn off view) := by
  unfold State.reachedRead
  simp only [h]

end Sys2Proof.Machine
end

section
/-! The aperture (08 R252, R253): a read of the Coachhouse, and a write of one whole line. -/

namespace Sys2Proof.Machine

theorem leNat_lt (bs : List Byte) : leNat bs < 2 ^ (8 * bs.length) := by
  induction bs with
  | nil => simp [leNat]
  | cons b bs ih =>
    have hb := b.isLt
    rw [leNat, List.length_cons, Nat.mul_succ, Nat.pow_add]
    omega

/-- The bytes that spell a number that bytes spell are those bytes. -/
theorem natLe_leNat (bs : List Byte) : natLe (leNat bs) bs.length = bs := by
  induction bs with
  | nil => rfl
  | cons b bs ih =>
    have hb := b.isLt
    have low : BitVec.ofNat 8 (b.toNat + 256 * leNat bs) = b := by
      apply BitVec.eq_of_toNat_eq
      rw [BitVec.toNat_ofNat]
      omega
    have high : (b.toNat + 256 * leNat bs) / 256 = leNat bs := by omega
    rw [leNat, List.length_cons, natLe, low, high, ih]

/-- A field from the lowest bit up, put into nothing. -/
theorem setBits_zero {w x : Nat} (h : x < 2 ^ w) : setBits 0 0 w x = x := by
  simp [setBits, bitsOf, Nat.mod_eq_of_lt h]

/-- A number that fits its width is kept, also where the width's power of 2 is too large to evaluate. -/
theorem toNat_ofNat_of_lt {w x : Nat} (h : x < 2 ^ w) : (BitVec.ofNat w x).toNat = x := by
  rw [BitVec.toNat_ofNat, Nat.mod_eq_of_lt h]

/-- A whole line of bytes put into a line spells the bytes. -/
theorem toNat_lineSet_whole {bs : List Byte} (h : bs.length = 64) : (lineSet 0#512 0 bs).toNat = leNat bs := by
  have bits : 8 * bs.length = 512 := by omega
  have hb := leNat_lt bs
  rw [bits] at hb
  rw [lineSet, BitVec.toNat_zero, Nat.mul_zero, bits, setBits_zero hb, toNat_ofNat_of_lt hb]

/-- The 64 bytes from a line's start lie in that line. -/
theorem linesOf_line {a : Nat} (h : a % 64 = 0) : linesOf a 64 = [(a, 0, 64)] := by
  have one : (a + 64 - 1) / 64 - a / 64 + 1 = 1 := by omega
  have start : a / 64 * 64 = a := by omega
  have stop : (a / 64 + 1) * 64 = a + 64 := by omega
  have low : a + 64 - a = 64 := by omega
  simp only [linesOf, one, List.range_one, List.map_cons, List.map_nil, Nat.add_zero, start, stop, max_self, min_self, h,
    low, if_neg (by decide : ¬(64 : Nat) = 0)]

theorem noteWrite_rest (s : State) (a : Nat) (both : Bool) :
    s.noteWrite a both = { s with pair := (s.noteWrite a both).pair } := by
  unfold State.noteWrite
  dsimp only
  split <;> rfl

/-- A write of a whole line to a stack that is up. -/
theorem chsWrite_line {s : State} {a k loc : Nat} {bs : List Byte} (poison : Nat → Bool) (tag : BitVec 16) (both : Bool)
    (hl : bs.length = 64) (ha : a % 64 = 0) (hd : s.chsDecode a = some (k, loc)) (hu : s.stackUp k = true) :
    (s.chsWrite a bs poison tag both).1 = s.stackWrite k loc (lineSet 0#512 0 bs) (poison a) both := by
  have whole : List.take 64 bs = bs := List.take_of_length_le (by omega)
  simp [State.chsWrite, hl, linesOf_line ha, State.writeLine, hd, hu, whole]

/-- The memory after a write of a whole line. -/
theorem chsMem_stackWrite_line {s : State} {k loc : Nat} {bs : List Byte} (poison both : Bool) (hl : bs.length = 64) :
    (s.stackWrite k loc (lineSet 0#512 0 bs) poison both).chsMem = writeBytes s.chsMem (64 * lineKey k loc) bs := by
  have bytes := natLe_leNat bs
  rw [hl] at bytes
  unfold State.stackWrite
  dsimp only
  rw [noteWrite_rest, toNat_lineSet_whole hl, writeLe, bytes]

theorem poisoned_stackWrite (s : State) (k loc : Nat) (d : BitVec 512) (poison both : Bool) :
    AMap.get false (s.stackWrite k loc d poison both).poisoned (lineKey k loc) = poison :=
  AMap.get_set_same _ _ _ _

theorem stackWrite_rest (s : State) (k loc : Nat) (d : BitVec 512) (poison both : Bool) :
    s.stackWrite k loc d poison both =
      { s with
        chsMem := (s.stackWrite k loc d poison both).chsMem
        poisoned := (s.stackWrite k loc d poison both).poisoned
        symErr := (s.stackWrite k loc d poison both).symErr
        pair := (s.stackWrite k loc d poison both).pair } := by
  unfold State.stackWrite
  dsimp only
  rw [noteWrite_rest]

theorem bar2Write_line {s : State} {fn far a k loc : Nat} {bs : List Byte} (poisoned : Bool) (hl : bs.length = 64)
    (hok : s.bar2Ok fn far 64 true = some a) (ha : a % 64 = 0) (hd : s.chsDecode a = some (k, loc))
    (hu : s.stackUp k = true) :
    s.bar2Write fn far bs poisoned = s.stackWrite k loc (lineSet 0#512 0 bs) poisoned true := by
  have fits : bs.length ≤ maxPayload := by rw [hl]; decide
  rw [State.bar2Write, if_pos fits, hl, hok]
  exact congrArg _ rfl |>.trans (chsWrite_line _ _ _ hl ha hd hu)

theorem bar2Read_ok {s u : State} {fn far len a : Nat} {bs : List Byte} {bad : List Nat} (hlen : len ≤ 4096)
    (hok : s.bar2Ok fn far len false = some a) (hr : s.chsRead a len 0 = (bs, bad, u)) :
    s.bar2Read fn far len = u.send (.bar2Data bs (!bad.isEmpty)) := by
  have fits : len ≤ maxReadRequest := hlen
  simp only [State.bar2Read, fits, if_true, hok, hr]

end Sys2Proof.Machine
end

section
/-! Functions and ports (08 R247, R254): a function runs and stops, a port's link comes up. -/

namespace Sys2Proof.Machine

/-- The run bit and what STATUS shows of it. -/
def State.showRun (s : State) (fn : Nat) (run : Bool) : State :=
  (s.setFnField fn Reg.HIF_FN_CTRL 0 1 (if run then 1 else 0)).setFnField fn Reg.HIF_STATUS 0 1 (if run then 1 else 0)

theorem showRun_run (s : State) (fn : Nat) (run : Bool) :
    (s.showRun fn run).fnField fn Reg.HIF_FN_CTRL 0 1 = if run then 1 else 0 := by
  unfold State.showRun
  rw [fnField_setFnField_other _ _ _ _ _ _ (by decide) (by decide) (.inr (by decide)), fnField_setFnField_same _ _ _ _ _ _ (by decide)]
  cases run <;> rfl

theorem showRun_ports (s : State) (fn : Nat) (run : Bool) :
    (s.showRun fn run).fnField fn Reg.HIF_FN_CTRL 1 2 = s.fnField fn Reg.HIF_FN_CTRL 1 2 := by
  unfold State.showRun
  rw [fnField_setFnField_other _ _ _ _ _ _ (by decide) (by decide) (.inr (by decide)),
    fnField_setFnField_apart _ _ _ _ _ _ _ _ (by decide) (by decide)]

theorem showRun_status (s : State) (fn : Nat) (run : Bool) :
    (s.showRun fn run).fnField fn Reg.HIF_STATUS 0 1 = if run then 1 else 0 := by
  unfold State.showRun
  rw [fnField_setFnField_same _ _ _ _ _ _ (by decide)]
  cases run <;> rfl

/-- A function that did not run starts: its control word is stored and its admin ring set up. -/
theorem functionCtrl_run {s : State} {port : Bool} {fn : BitVec 6} {value : BitVec 32}
    (hx : s.fnOnPort port fn.toNat = true) (hr : ¬s.fnField fn.toNat Reg.HIF_FN_CTRL 0 1 = 1)
    (hv : value.getLsbD 0 = true) :
    s.functionCtrl port fn value true =
      ((s.setFnField fn.toNat Reg.HIF_FN_CTRL 1 2 (bitsOf value.toNat 1 2)).showRun fn.toNat true).adminRing fn.toNat := by
  simp [State.functionCtrl, State.writeFnCtrl, State.showRun, viaFn, hv, hx, hr]

/-- A function that runs stops, where its locked fields are written as they are. -/
theorem functionCtrl_stop {s : State} {port : Bool} {fn : BitVec 6} {value : BitVec 32}
    (hx : s.fnOnPort port fn.toNat = true) (hr : s.fnField fn.toNat Reg.HIF_FN_CTRL 0 1 = 1)
    (hv : value.getLsbD 0 = false) (hs : bitsOf value.toNat 1 2 = s.fnField fn.toNat Reg.HIF_FN_CTRL 1 2) :
    s.functionCtrl port fn value false = s.showRun fn.toNat false := by
  have runs : (s.fnField fn.toNat Reg.HIF_FN_CTRL 0 1 == 1) = true := beq_iff_eq.2 hr
  simp only [State.functionCtrl, State.writeFnCtrl, State.showRun, viaFn, hv, hx, runs, hs, beq_self_eq_true, Bool.and_self,
    Bool.not_true, Bool.false_eq_true, if_true, if_false]

/-- Setting up an admin ring changes the rings only. -/
theorem adminRing_rest (s : State) (fn : Nat) : s.adminRing fn = { s with rings := (s.adminRing fn).rings } := by
  unfold State.adminRing
  dsimp only
  split <;> rfl

theorem fnField_adminRing (s : State) (fn f a lo w : Nat) : (s.adminRing fn).fnField f a lo w = s.fnField f a lo w := by
  rw [adminRing_rest]
  rfl

theorem adminRing_other (s : State) (fn : Nat) {r : Nat} (h : r ≠ s.globalRing fn 0) : (s.adminRing fn).ring r = s.ring r := by
  unfold State.adminRing
  dsimp only
  split
  · rfl
  · exact ring_setRing_other _ _ _ _ h

/-- The admin ring of a function with rings, where none stood. -/
theorem adminRing_own {s : State} {fn : BitVec 6} (hu : (s.ring (s.globalRing fn.toNat 0)).used = false)
    (hg : fn = 0#6 ∨ (s.fn fn.toNat).groupCount ≠ 0) :
    ((s.adminRing fn.toNat).ring (s.globalRing fn.toNat 0)).used = true ∧
      ((s.adminRing fn.toNat).ring (s.globalRing fn.toNat 0)).fn = fn ∧
      ((s.adminRing fn.toNat).ring (s.globalRing fn.toNat 0)).loc = 0#16 := by
  have absent : ((s.ring (s.globalRing fn.toNat 0)).used || (fn.toNat != 0 && (s.fn fn.toNat).groupCount == 0)) = false := by
    rcases hg with rfl | hg
    · rw [hu]; rfl
    · simp [hu, hg]
  unfold State.adminRing
  simp only [absent, Bool.false_eq_true, if_false, ring_setRing_same]
  exact ⟨trivial, (BitVec.ofNat_toNat _ _).trans (BitVec.setWidth_eq _), rfl⟩

/-- The word that a link that has come up shows in HIF_PORT_STATUS. -/
def linkWord (speed : BitVec 4) (width : BitVec 6) (flit : Bool) : Nat :=
  speed.toNat + 2 ^ 4 * width.toNat + (if flit then 2 ^ 10 else 0) + 2 ^ 11

theorem linkWord_fields (speed : BitVec 4) (width : BitVec 6) (flit : Bool) :
    bitsOf (linkWord speed width flit) 0 4 = speed.toNat ∧ bitsOf (linkWord speed width flit) 4 6 = width.toNat ∧
      bitsOf (linkWord speed width flit) 10 1 = (if flit then 1 else 0) ∧ bitsOf (linkWord speed width flit) 11 1 = 1 := by
  have hs := speed.isLt
  have hw := width.isLt
  unfold bitsOf linkWord
  cases flit <;> simp only [if_true, if_false, Bool.false_eq_true] <;> omega

/-- A link that comes up with a speed and width of its port. -/
theorem portLinkUp_eq {s : State} {port : Bool} {speed : BitVec 4} {width : BitVec 6} (flit : Bool)
    (h1 : 1 ≤ speed.toNat) (h6 : speed.toNat ≤ 6) (hw : width ∈ [1#6, 4#6, 8#6, 16#6]) :
    s.portLinkUp port speed width flit =
      { s with portReset := AMap.set false s.portReset (if port then 1 else 0) false }.setField
        (Reg.HIF_PORT_STATUS (if port then 1 else 0)) 0 13 (linkWord speed width flit) := by
  have known : (width == 1#6 || width == 4#6 || width == 8#6 || width == 16#6) = true := by
    simp only [List.mem_cons, List.not_mem_nil, or_false] at hw
    rcases hw with rfl | rfl | rfl | rfl <;> rfl
  simp [State.portLinkUp, linkWord, h1, h6, known]

theorem numvfsWrite_eq {s : State} {n : Nat} (hn : n ≤ Config.maxVfs.toNat) (hr : s.inRecovery = false) :
    s.numvfsWrite n = { s with numVfs := n, vfsGone := [] } := by
  simp [State.numvfsWrite, hn, hr]

end Sys2Proof.Machine
end

section
/-! What the keys of a map read after it was filtered or its values were changed, and the keys that a map lists. -/

namespace Sys2Proof

variable {α : Type}

/-- A filter by the key leaves what it keeps and makes the rest read as the default. -/
theorem AMap.get_filter (d : α) (m : AMap α) (keep : Nat → Bool) (k : Nat) :
    AMap.get d (m.filter fun p => keep p.1) k = if keep k then AMap.get d m k else d := by
  induction m with
  | nil => simp [AMap.get]
  | cons p m ih =>
    obtain ⟨a, v⟩ := p
    by_cases ha : keep a
    · by_cases hk : a = k
      · subst hk; simp [ha, AMap.get]
      · simp [ha, AMap.get, hk, ih]
    · by_cases hk : a = k
      · subst hk; simp [ha, ih]
      · simp [ha, AMap.get, hk, ih]

/-- What a change of the values keeps of every value, it keeps of what a key reads. -/
theorem AMap.get_map_of_eq {β : Type} (d : α) (m : AMap α) (f : Nat × α → Nat × α) (g : α → β) (hk : ∀ p, (f p).1 = p.1)
    (hg : ∀ p, g (f p).2 = g p.2) (k : Nat) : g (AMap.get d (m.map f) k) = g (AMap.get d m k) := by
  induction m with
  | nil => rfl
  | cons p m ih =>
    obtain ⟨a, v⟩ := p
    have entry : f (a, v) = (a, (f (a, v)).2) := Prod.ext (hk _) rfl
    rw [List.map_cons, entry]
    by_cases e : a = k
    · simp [AMap.get, e, hg]
    · simpa [AMap.get, e] using ih

/-- A key that reads as something else than the default is listed. -/
theorem AMap.mem_of_get_ne {d : α} {m : AMap α} {k : Nat} (h : AMap.get d m k ≠ d) : (k, AMap.get d m k) ∈ m := by
  induction m with
  | nil => exact absurd rfl h
  | cons p m ih =>
    obtain ⟨a, v⟩ := p
    by_cases hk : a = k
    · subst hk; simp [AMap.get]
    · simp only [AMap.get, hk, if_false] at h ⊢
      exact List.mem_cons_of_mem _ (ih h)

/-- Where keys rise, a listed key reads as its value. -/
theorem AMap.get_of_mem {d : α} {m : AMap α} {k : Nat} {v : α} (hm : KeysRise m) (h : (k, v) ∈ m) : AMap.get d m k = v := by
  induction m with
  | nil => cases h
  | cons p m ih =>
    obtain ⟨a, w⟩ := p
    rw [keysRise_cons] at hm
    rcases List.mem_cons.1 h with e | h
    · cases e; simp [AMap.get]
    · have later := hm.1 _ h
      have hk : a ≠ k := Nat.ne_of_lt later
      simp only [AMap.get, hk, if_false]
      exact ih hm.2 h

end Sys2Proof
end

section
/-! A function-level reset (08 R272): rings destroyed, registers back to their reset, vectors masked. -/

namespace Sys2Proof.Machine

/-- A ring that is used and passes the test is named. -/
theorem mem_ringsWhere {s : State} {p : Ring → Bool} {r : Nat} (hu : (s.ring r).used = true) (hp : p (s.ring r) = true) :
    r ∈ s.ringsWhere p := by
  have listed : (r, s.ring r) ∈ s.rings := AMap.mem_of_get_ne fun e => by
    have : (s.ring r).used = false := by rw [State.ring, e]
    simp [hu] at this
  exact List.mem_map.2 ⟨_, List.mem_filter.2 ⟨listed, by simp [hu, hp]⟩, rfl⟩

/-- A ring that is named passes the test. -/
theorem of_mem_ringsWhere {s : State} {p : Ring → Bool} {r : Nat} (hk : KeysRise s.rings) (h : r ∈ s.ringsWhere p) :
    p (s.ring r) = true := by
  obtain ⟨⟨k, x⟩, hx, rfl⟩ := List.mem_map.1 h
  obtain ⟨listed, test⟩ := List.mem_filter.1 hx
  have value : s.ring k = x := AMap.get_of_mem hk listed
  simp only [Bool.and_eq_true] at test
  rw [value]
  exact test.2

/-- A ring destroyed without a completion (R272). -/
def State.dropRing (s : State) (rn : Nat) : State := (s.dropRefs rn).setRing rn {}

theorem destroyRings_eq_foldl (s : State) (fn : Nat) :
    s.destroyRings fn = (s.ringsWhere fun r => r.fn.toNat == fn).foldl State.dropRing s := rfl

theorem ring_foldl_dropRing (l : List Nat) (s : State) (r : Nat) :
    (l.foldl State.dropRing s).ring r = if r ∈ l then {} else s.ring r := by
  induction l generalizing s with
  | nil => rfl
  | cons a l ih =>
    rw [List.foldl_cons, ih]
    by_cases e : r = a
    · subst e
      simp [State.dropRing]
    · have untouched : (s.dropRing a).ring r = s.ring r := ring_setRing_other _ _ _ _ e
      simp [untouched, e]

theorem foldl_dropRing_rest (l : List Nat) (s : State) :
    l.foldl State.dropRing s = { s with jobs := (l.foldl State.dropRing s).jobs, rings := (l.foldl State.dropRing s).rings } := by
  induction l generalizing s with
  | nil => rfl
  | cons a l ih =>
    rw [List.foldl_cons, ih]
    rfl

/-- Dropping the references to a ring leaves where every job stands. -/
theorem job_st_dropRing (s : State) (rn k : Nat) : ((s.dropRing rn).job k).st = (s.job k).st := by
  refine AMap.get_map_of_eq {} s.jobs _ Job.st ?_ ?_ k
  · exact fun _ => rfl
  · exact fun _ => rfl

theorem job_st_foldl_dropRing (l : List Nat) (s : State) (k : Nat) : ((l.foldl State.dropRing s).job k).st = (s.job k).st := by
  induction l generalizing s with
  | nil => rfl
  | cons a l ih => rw [List.foldl_cons, ih, job_st_dropRing]

/-- A cleared function's registers read their reset values, but for the one that survives. -/
theorem fnReg_clearHif {s : State} {fn o : Nat} (hf : fn ≠ 0) (ho : o < 0x100) (hi : o ≠ Reg.HIF_FN_INFO) :
    (s.clearHif fn).fnReg fn o = regResetValue fn o := by
  have gone : (!(decide (regKey fn 0 ≤ regKey fn o) && decide (regKey fn o < regKey fn 0x100)) ||
      regKey fn o == regKey 0 Reg.HIF_POLL_INTERVAL || regKey fn o == regKey fn Reg.HIF_FN_INFO) = false := by
    have apart : o ≠ 0x40 := hi
    simp only [regKey, Reg.HIF_POLL_INTERVAL, Reg.HIF_FN_INFO, Bool.or_eq_false_iff, Bool.not_eq_false', Bool.and_eq_true,
      beq_eq_false_iff_ne]
    exact ⟨⟨⟨decide_eq_true (by omega), decide_eq_true (by omega)⟩, by omega⟩, by omega⟩
  unfold State.fnReg State.clearHif
  dsimp only
  rw [AMap.get_filter none s.regs (fun k => !(decide (regKey fn 0 ≤ k) && decide (k < regKey fn 0x100)) ||
      k == regKey 0 Reg.HIF_POLL_INTERVAL || k == regKey fn Reg.HIF_FN_INFO), gone]
  rfl

/-- A vector's key gives back its port and function. -/
theorem vectorKey_parts (p : Bool) {fn v : Nat} (hf : fn < 64) (hv : v < 32) :
    decide (2048 ≤ vectorKey p fn v) = p ∧ vectorKey p fn v / 32 % 64 = fn := by
  unfold vectorKey
  cases p <;> simp <;> omega

/-- A vector that a mask names is masked, and nothing is pending on it. -/
theorem maskVectors_masked {s : State} {q : Bool → Nat → Bool} {p : Bool} {fn v : Nat} (hf : fn < 64) (hv : v < 32)
    (hq : q p fn = true) :
    AMap.get false (s.maskVectors q).msixOpen (vectorKey p fn v) = false ∧
      AMap.get false (s.maskVectors q).msixPend (vectorKey p fn v) = false := by
  obtain ⟨port, func⟩ := vectorKey_parts p hf hv
  have masked : ∀ m : AMap Bool,
      AMap.get false (m.filter fun x => !q (decide (2048 ≤ x.1)) (x.1 / 32 % 64)) (vectorKey p fn v) = false := by
    intro m
    rw [AMap.get_filter false m fun k => !q (decide (2048 ≤ k)) (k / 32 % 64), port, func, hq]
    rfl
  exact ⟨masked _, masked _⟩

/-- A slot whose job is free has nothing to kill or unload. -/
theorem killUnload_free {s : State} {k : Nat} (h : (s.job k).st = .free) : s.killUnload k = s.setJob k (s.job k) := by
  simp [State.killUnload, State.modJob, State.killJob, h]

/-- The reset of a virtual function up to its job (R272). -/
def State.flrBase (s : State) (fn : Nat) : State :=
  (((s.destroyRings fn).clearHif fn).maskVectors fun _ g => g == fn).setFn fn { s.fn fn with seenGen := 0, errCount := 0 }

/-- A function keeps what it is assigned until its own part of the reset. -/
theorem fn_maskVectors_clearHif (s : State) (fn : Nat) (q : Bool → Nat → Bool) (j : Nat) :
    (((s.destroyRings fn).clearHif fn).maskVectors q).fn j = s.fn j := by
  rw [destroyRings_eq_foldl, foldl_dropRing_rest]
  rfl

theorem flr_of_slot {s : State} {fn : Nat} {k : BitVec 6} (hf : fn ≠ 0) (hs : (s.fn fn).slot = some k) :
    s.flr fn = ((s.flrBase fn).killUnload k.toNat).settleDone := by
  simp only [State.flr, State.flrBase, hf, if_false, fn_maskVectors_clearHif, hs]

theorem flr_of_no_slot {s : State} {fn : Nat} (hf : fn ≠ 0) (hs : (s.fn fn).slot = none) : s.flr fn = s.flrBase fn := by
  simp only [State.flr, State.flrBase, hf, if_false, fn_maskVectors_clearHif, hs]

/-- What a function-level reset leaves of everything but the job of the function's slot. -/
structure FunctionReset (fn : BitVec 6) (s u : State) : Prop where
  own : ∀ r, (s.ring r).used = true → (s.ring r).fn = fn → u.ring r = {}
  others : ∀ r, (s.ring r).fn ≠ fn → u.ring r = s.ring r
  regs : ∀ o, o < 0x100 → o ≠ Reg.HIF_FN_INFO → u.fnReg fn.toNat o = regResetValue fn.toNat o
  fns : Sets s.fn u.fn fn.toNat { s.fn fn.toNat with seenGen := 0, errCount := 0 }
  vectors : ∀ p v, AMap.get false u.msixOpen (vectorKey p fn.toNat (v % 32)) = false ∧
    AMap.get false u.msixPend (vectorKey p fn.toNat (v % 32)) = false
  rest : u = { s with rings := u.rings, regs := u.regs, shadow := u.shadow, fns := u.fns, jobs := u.jobs,
                      msixOpen := u.msixOpen, msixPend := u.msixPend }

theorem functionReset_flrBase {s : State} {fn : BitVec 6} (hf : fn ≠ 0#6) (hk : KeysRise s.rings) :
    FunctionReset fn s (s.flrBase fn.toNat) := by
  have hn : fn.toNat ≠ 0 := fun e => hf (BitVec.eq_of_toNat_eq e)
  have hring : ∀ r, (s.flrBase fn.toNat).ring r =
      if r ∈ s.ringsWhere (fun x => x.fn.toNat == fn.toNat) then {} else s.ring r :=
    ring_foldl_dropRing _ s
  refine ⟨fun r hu hr => ?_, fun r hr => ?_, fun o ho hi => ?_, ⟨?_, fun j hj => ?_⟩, fun p v => ?_, ?_⟩
  · rw [hring, if_pos (mem_ringsWhere hu (by simp [hr]))]
  · rw [hring, if_neg fun h => hr (BitVec.eq_of_toNat_eq (by simpa using of_mem_ringsWhere hk h))]
  · exact fnReg_clearHif (s := s.destroyRings fn.toNat) hn ho hi
  · exact fn_setFn_same _ _ _
  · rw [State.flrBase, fn_setFn_other _ _ _ _ hj, fn_maskVectors_clearHif]
  · exact maskVectors_masked (s := (s.destroyRings fn.toNat).clearHif fn.toNat) (q := fun _ g => g == fn.toNat) fn.isLt
      (Nat.mod_lt _ (by decide)) (beq_self_eq_true _)
  · rw [State.flrBase, destroyRings_eq_foldl, foldl_dropRing_rest]
    rfl

/-- A job written changes nothing that a function-level reset says. -/
theorem FunctionReset.setJob {fn : BitVec 6} {s u : State} (h : FunctionReset fn s u) (k : Nat) (x : Job) :
    FunctionReset fn s (u.setJob k x) := by
  refine ⟨h.own, h.others, h.regs, h.fns, h.vectors, ?_⟩
  rw [h.rest]
  rfl

/-- The reset of a virtual function whose job, where it has one, is free: what is done then retires. -/
theorem flr_functionReset {s : State} {fn : BitVec 6} (hf : fn ≠ 0#6)
    (hj : ∀ k, (s.fn fn.toNat).slot = some k → (s.job k.toNat).st = .free) (hk : KeysRise s.rings) :
    ∃ u, s.flr fn.toNat = (if (s.fn fn.toNat).slot = none then u else u.settleDone) ∧ FunctionReset fn s u := by
  have hn : fn.toNat ≠ 0 := fun e => hf (BitVec.eq_of_toNat_eq e)
  have base := functionReset_flrBase hf hk
  cases hs : (s.fn fn.toNat).slot with
  | none => exact ⟨_, flr_of_no_slot hn hs, base⟩
  | some k =>
    have free : ((s.flrBase fn.toNat).job k.toNat).st = .free := by
      rw [← hj k hs]
      exact job_st_foldl_dropRing _ s k.toNat
    refine ⟨_, ?_, base.setJob k.toNat ((s.flrBase fn.toNat).job k.toNat)⟩
    rw [flr_of_slot hn hs, killUnload_free free, if_neg (Option.some_ne_none k)]

end Sys2Proof.Machine
end

section
/-! A port that loses its link (08 R271): its rings end with no descriptor, and its status shows no link. -/

namespace Sys2Proof.Machine

/-! ### What leaves the rings alone -/

theorem rings_foldl {α : Type} (f : State → α → State) (h : ∀ s x, (f s x).rings = s.rings) (l : List α) (s : State) :
    (l.foldl f s).rings = s.rings := by
  induction l generalizing s with
  | nil => rfl
  | cons a l ih => rw [List.foldl_cons, ih, h]

theorem rings_signalVector (s : State) (p : Bool) (fn vec : Nat) : (s.signalVector p fn vec).rings = s.rings := by
  unfold State.signalVector
  dsimp only
  split <;> rfl

theorem rings_signalZero (s : State) (fn : Nat) : (s.signalZero fn).rings = s.rings := by
  refine rings_foldl _ (fun s p => ?_) _ _
  split
  · exact rings_signalVector _ _ _ _
  · rfl

theorem rings_logMarked (s : State) (evidence : Bool) (src cls cause p0 p1 p2 : Nat) :
    (s.logMarked evidence src cls cause p0 p1 p2).rings = s.rings := by
  unfold State.logMarked State.logEvent
  dsimp only
  split <;> rfl

theorem rings_sendMsg (s : State) (port chan kind flags key arg : Nat) (body : List Seg) :
    (s.sendMsg port chan kind flags key arg body).rings = s.rings := by
  unfold State.sendMsg
  dsimp only
  split <;> rfl

theorem rings_sendPair (s : State) (kind flags arg : Nat) (body : List Seg) :
    (s.sendPair kind flags arg body).rings = s.rings := by
  unfold State.sendPair
  split
  · rfl
  · exact rings_sendMsg _ _ _ _ _ _ _ _

theorem rings_matchOpen (s : State) (k : Nat) : (s.matchOpen k).rings = s.rings := by
  unfold State.matchOpen
  dsimp only
  split
  · split
    · split
      · exact rings_sendMsg _ _ _ _ _ _ _ _
      · rfl
    · rfl
  · rfl

theorem rings_openStreams (s : State) (slot : Nat) : (s.openStreams slot).rings = s.rings := by
  refine rings_foldl _ (fun s k => ?_) _ _
  dsimp only
  split
  · exact rings_matchOpen _ _
  · exact rings_sendMsg _ _ _ _ _ _ _ _

theorem rings_tagsRetire (s : State) (ref : DescRef) : (s.tagsRetire ref).rings = s.rings := by
  refine rings_foldl _ (fun s k => ?_) _ _
  dsimp only
  split
  · split
    · exact rings_openStreams _ _
    · rfl
  · rfl

/-! ### Rings without descriptors stay without -/

/-- A ring that holds no descriptor in s holds none in t. -/
def KeepsEmpty (s t : State) : Prop := ∀ k, (s.ring k).descs = [] → (t.ring k).descs = []

theorem KeepsEmpty.refl (s : State) : KeepsEmpty s s := fun _ h => h

theorem KeepsEmpty.trans {s t u : State} (a : KeepsEmpty s t) (b : KeepsEmpty t u) : KeepsEmpty s u :=
  fun k h => b k (a k h)

theorem keepsEmpty_of_rings {s t : State} (h : t.rings = s.rings) : KeepsEmpty s t := by
  intro k hk
  rw [State.ring, h]
  exact hk

/-- A ring may be written where it held descriptors before or holds none after. -/
theorem KeepsEmpty.setRing {s t : State} (h : KeepsEmpty s t) {rn : Nat} {x : Ring}
    (hx : (s.ring rn).descs = [] → x.descs = []) : KeepsEmpty s (t.setRing rn x) := by
  intro k hk
  by_cases e : k = rn
  · subst e
    rw [ring_setRing_same]
    exact hx hk
  · rw [ring_setRing_other _ _ _ _ e]
    exact h k hk

theorem keepsEmpty_writeEntry (s : State) (rn idx : Nat) (entry : BitVec 256) (irq : Bool) :
    KeepsEmpty s (s.writeEntry rn idx entry irq) := by
  have noted : ∀ (m : Mem) (x : Ring), x.descs = (s.ring rn).descs → KeepsEmpty s ({ s with hostMem := m }.setRing rn x) :=
    fun m x hx => (keepsEmpty_of_rings (t := { s with hostMem := m }) rfl).setRing fun h => hx.trans h
  unfold State.writeEntry
  dsimp only
  split
  · exact keepsEmpty_of_rings rfl
  · split
    · refine KeepsEmpty.trans ?_ (keepsEmpty_of_rings (rings_signalVector _ _ _ _))
      exact noted _ _ rfl
    · exact noted _ _ rfl

theorem keepsEmpty_writeCompletion (s : State) (rn : Nat) (d : Desc) (st : Byte) (tag : BitVec 16) (det : BitVec 32) :
    KeepsEmpty s (s.writeCompletion rn d st tag det) := by
  have led : ∀ (u : State) (e : BitVec 256) (irq : Bool) (arg : Nat), u.rings = s.rings → KeepsEmpty s
      (if (u.writeEntry rn d.idx e irq).pairState = 2 || (u.writeEntry rn d.idx e irq).pairState = 7 then
        (u.writeEntry rn d.idx e irq).sendPair 0x23 0 arg [] else u.writeEntry rn d.idx e irq) := by
    intro u e irq arg hu
    have written := (keepsEmpty_of_rings hu).trans (keepsEmpty_writeEntry u rn d.idx e irq)
    split
    · exact written.trans (keepsEmpty_of_rings (rings_sendPair _ _ _ _ _))
    · exact written
  unfold State.writeCompletion
  dsimp only
  split
  · split
    · exact KeepsEmpty.refl s
    · split
      all_goals
        split
        · split <;> exact keepsEmpty_of_rings rfl
        · exact led _ _ _ _ rfl
  · exact keepsEmpty_writeEntry _ _ _ _ _

theorem keepsEmpty_retireRing (s : State) (rn n : Nat) : KeepsEmpty s (s.retireRing rn n) := by
  induction n generalizing s with
  | zero => exact KeepsEmpty.refl s
  | succ n ih =>
    unfold State.retireRing
    split
    · rename_i d rest hd
      split
      · have head : (s.ring rn).descs ≠ [] := by rw [hd]; exact List.cons_ne_nil _ _
        refine KeepsEmpty.trans ?_ (ih _)
        refine KeepsEmpty.trans ?_ (keepsEmpty_of_rings (rings_tagsRetire _ _))
        exact (keepsEmpty_writeCompletion _ _ _ _ _ _).setRing fun h => absurd h head
      · exact KeepsEmpty.refl s
    · exact KeepsEmpty.refl s

theorem keepsEmpty_markDone (s : State) (ref : DescRef) (st : Byte) (tag : BitVec 16) (det : BitVec 32) :
    KeepsEmpty s (s.markDone ref st tag det) :=
  (KeepsEmpty.refl s).setRing fun h => by simp [h]

theorem keepsEmpty_skipReserved (s : State) (rn n : Nat) : KeepsEmpty s (s.skipReserved rn n) := by
  induction n generalizing s with
  | zero => exact KeepsEmpty.refl s
  | succ n ih =>
    unfold State.skipReserved
    split
    · split
      · exact KeepsEmpty.refl s
      · exact ((keepsEmpty_markDone _ _ _ _ _).trans (keepsEmpty_retireRing _ _ _)).trans (ih _)
    · exact KeepsEmpty.refl s

theorem keepsEmpty_finishDestroy (s : State) (rn : Nat) : KeepsEmpty s (s.finishDestroy rn) := by
  unfold State.finishDestroy
  dsimp only
  split
  · split
    · exact KeepsEmpty.refl s
    · have gone : KeepsEmpty s (s.setRing rn {}) := (KeepsEmpty.refl s).setRing fun _ => rfl
      exact ((gone.trans (keepsEmpty_markDone _ _ _ _ _)).trans (keepsEmpty_retireRing _ _ _)).trans
        (keepsEmpty_skipReserved _ _ _)
  · exact KeepsEmpty.refl s

/-! ### What a lost port does to one ring and to one function -/

/-- Rings without descriptors stay so, and the registers of the module above a function's view stay as they are. -/
structure WindsDown (s t : State) : Prop where
  empty : KeepsEmpty s t
  status : ∀ a, 0x100 ≤ a → a < 2 ^ 24 → t.reg a = s.reg a

theorem WindsDown.refl (s : State) : WindsDown s s := ⟨KeepsEmpty.refl s, fun _ _ _ => rfl⟩

theorem WindsDown.trans {s t u : State} (a : WindsDown s t) (b : WindsDown t u) : WindsDown s u :=
  ⟨a.empty.trans b.empty, fun r h1 h2 => (b.status r h1 h2).trans (a.status r h1 h2)⟩

theorem windsDown_foldl {α : Type} (f : State → α → State) (h : ∀ s x, WindsDown s (f s x)) (l : List α) (s : State) :
    WindsDown s (l.foldl f s) := by
  induction l generalizing s with
  | nil => exact WindsDown.refl s
  | cons a l ih => exact (h s a).trans (ih _)

theorem windsDown_of_same {s t : State} (hr : t.rings = s.rings) (hg : t.regs = s.regs) : WindsDown s t :=
  ⟨keepsEmpty_of_rings hr, fun a _ _ => reg_of_regs hg a⟩

/-- A register within a function's view. -/
theorem windsDown_setFnReg (s : State) (f a : Nat) (w : Word) (ha : a < 0x100) : WindsDown s (s.setFnReg f a w) :=
  ⟨keepsEmpty_of_rings rfl, fun b h1 h2 => fnReg_setFnReg_other s w (by omega) h2 (.inr (by omega))⟩

theorem windsDown_setFnField (s : State) (f a lo w v : Nat) (ha : a < 0x100) : WindsDown s (s.setFnField f a lo w v) :=
  windsDown_setFnReg s f a _ ha

theorem windsDown_signalVector (s : State) (p : Bool) (fn vec : Nat) : WindsDown s (s.signalVector p fn vec) :=
  ⟨keepsEmpty_of_rings (rings_signalVector _ _ _ _), fun a _ _ => (outward_signalVector _ _ _ _).reg a⟩

theorem windsDown_logMarked (s : State) (evidence : Bool) (src cls cause p0 p1 p2 : Nat) :
    WindsDown s (s.logMarked evidence src cls cause p0 p1 p2) :=
  windsDown_of_same (rings_logMarked _ _ _ _ _ _ _ _) (regs_logEvent _ _)

theorem windsDown_setFn (s : State) (k : Nat) (x : FnState) : WindsDown s (s.setFn k x) := windsDown_of_same rfl rfl

theorem windsDown_dropRefs (s : State) (rn : Nat) : WindsDown s (s.dropRefs rn) := windsDown_of_same rfl rfl

theorem windsDown_finishDestroy (s : State) (rn : Nat) : WindsDown s (s.finishDestroy rn) :=
  ⟨keepsEmpty_finishDestroy s rn, fun a _ _ => (outward_finishDestroy s rn).reg a⟩

theorem windsDown_setRing (s : State) (rn : Nat) (x : Ring) (h : (s.ring rn).descs = [] → x.descs = []) :
    WindsDown s (s.setRing rn x) :=
  ⟨(KeepsEmpty.refl s).setRing h, fun _ _ _ => rfl⟩

theorem windsDown_ringError (s : State) (rn code : Nat) (evidence : Bool) : WindsDown s (s.ringError rn code evidence) := by
  have stopped : WindsDown s (s.setRing rn { s.ring rn with stopped := true }) := windsDown_setRing s rn _ id
  have counted : ∀ u fn, WindsDown u ((u.setFnField fn Reg.HIF_STATUS 2 1 1).fnBump fn Reg.HIF_ERR_COUNT 16 16 1) :=
    fun u fn => (windsDown_setFnField u fn _ _ _ _ (by decide)).trans (windsDown_setFnField _ fn _ _ _ _ (by decide))
  have shown : ∀ (u : State) (fn : Nat) (w : Word),
      WindsDown u (if u.fnField fn Reg.HIF_RING_ERR 31 1 = 0 then u.setFnReg fn Reg.HIF_RING_ERR w else u) := by
    intro u fn w
    split
    · exact windsDown_setFnReg u fn _ w (by decide)
    · exact WindsDown.refl u
  have told : ∀ (u : State) (b : Bool) (m : Mem), WindsDown u (if b then { u with hostMem := m } else u) := by
    intro u b m
    split <;> exact windsDown_of_same rfl rfl
  unfold State.ringError
  dsimp only
  refine WindsDown.trans ?_ (windsDown_logMarked _ _ _ _ _ _ _ _)
  refine WindsDown.trans ?_ ⟨keepsEmpty_of_rings (rings_signalZero _ _), fun a _ _ => (outward_signalZero _ _).reg a⟩
  refine WindsDown.trans ?_ (told _ _ _)
  refine WindsDown.trans ?_ (windsDown_setFn _ _ _)
  refine WindsDown.trans ?_ (shown _ _ _)
  exact stopped.trans (counted _ _)

theorem windsDown_doorbellError (s : State) (fn : Nat) (evidence : Bool) : WindsDown s (s.doorbellError fn evidence) := by
  unfold State.doorbellError
  dsimp only
  refine WindsDown.trans ?_ (windsDown_logMarked _ _ _ _ _ _ _ _)
  have shown : WindsDown s (((s.setFnField fn Reg.HIF_FN_CTRL 0 1 0).setFnField fn Reg.HIF_STATUS 0 1 0).setFnField fn
      Reg.HIF_STATUS 1 1 1) :=
    ((windsDown_setFnField s fn _ _ _ _ (by decide)).trans (windsDown_setFnField _ fn _ _ _ _ (by decide))).trans
      (windsDown_setFnField _ fn _ _ _ _ (by decide))
  split
  · exact shown.trans (windsDown_signalVector _ _ _ _)
  · exact shown

theorem windsDown_ringPortDown (s : State) (rn : Nat) (evidence : Bool) : WindsDown s (s.ringPortDown rn evidence) :=
  (((windsDown_dropRefs s rn).trans (windsDown_ringError _ rn _ _)).trans (windsDown_setRing _ rn _ fun _ => rfl)).trans
    (windsDown_finishDestroy _ rn)

/-- A ring that loses its port ends without descriptors. -/
theorem descs_ringPortDown (s : State) (rn : Nat) (evidence : Bool) : ((s.ringPortDown rn evidence).ring rn).descs = [] :=
  keepsEmpty_finishDestroy _ rn rn (by rw [ring_setRing_same])

/-- Every ring of a list that loses its port ends without descriptors. -/
theorem descs_foldl_ringPortDown {l : List Nat} {rn : Nat} (h : rn ∈ l) (evidence : Bool) (s : State) :
    ((l.foldl (fun s rn => s.ringPortDown rn evidence) s).ring rn).descs = [] := by
  induction l generalizing s with
  | nil => cases h
  | cons a l ih =>
    rw [List.foldl_cons]
    rcases List.mem_cons.1 h with rfl | h
    · exact (windsDown_foldl _ (fun s x => windsDown_ringPortDown s x evidence) l _).empty rn (descs_ringPortDown _ _ _)
    · exact ih h _

/-- Functions that lose the port of their doorbells. -/
theorem windsDown_doorbells (s : State) (p : Bool) (l : List Nat) :
    WindsDown s (l.foldl (fun s fn =>
      if s.fnField fn Reg.HIF_FN_CTRL 0 1 = 1 ∧ s.dbPort fn = p then s.doorbellError fn false else s) s) := by
  refine windsDown_foldl _ (fun s fn => ?_) l s
  split
  · exact windsDown_doorbellError s fn false
  · exact WindsDown.refl s

theorem portLost_windsDown {s : State} (p : Bool) (h : s.pairActive = false) : WindsDown s (s.portLost p) := by
  simp only [State.portLost, h, Bool.false_eq_true, if_false]
  exact (windsDown_foldl _ (fun s rn => windsDown_ringPortDown s rn false) _ s).trans (windsDown_doorbells _ p _)

theorem descs_portLost {s : State} {p : Bool} (h : s.pairActive = false) {rn : Nat}
    (hr : rn ∈ s.ringsWhere fun r => r.port == p) : ((s.portLost p).ring rn).descs = [] := by
  simp only [State.portLost, h, Bool.false_eq_true, if_false]
  exact (windsDown_doorbells _ p _).empty rn (descs_foldl_ringPortDown hr false s)

/-- The status of a port whose link has gone. -/
def State.linkGone (s : State) (p : Bool) : State := s.setField (Reg.HIF_PORT_STATUS (if p then 1 else 0)) 0 12 0

theorem portLinkDown_eq {s : State} {p : Bool} (h : s.hostPortUp p = true) : s.portLinkDown p = (s.linkGone p).portLost p := by
  rw [State.portLinkDown, if_pos h]
  rfl

theorem hostPortUp_linkGone (s : State) (p : Bool) : (s.linkGone p).hostPortUp p = false := by
  have clear : (s.linkGone p).field (Reg.HIF_PORT_STATUS (if p then 1 else 0)) 11 1 = 0 :=
    fnField_setFnField_within s 0 _ 0 12 0 11 1 (by decide) (by decide)
  rw [State.hostPortUp, clear]
  rfl

theorem pairActive_linkGone (s : State) (p : Bool) : (s.linkGone p).pairActive = s.pairActive := by
  have apart : Reg.PST_PAIR_STATUS ≠ Reg.HIF_PORT_STATUS (if p then 1 else 0) := by cases p <;> decide
  simp only [State.pairActive, State.pairState, State.linkGone, field_setField_other s _ _ _ _ _ _ _ apart]

/-- A link's status does not change as rings and functions wind down. -/
theorem WindsDown.hostPortUp {s t : State} (h : WindsDown s t) (p : Bool) : t.hostPortUp p = s.hostPortUp p := by
  have same : t.reg (Reg.HIF_PORT_STATUS (if p then 1 else 0)) = s.reg (Reg.HIF_PORT_STATUS (if p then 1 else 0)) :=
    h.status _ (by cases p <;> decide) (by cases p <;> decide)
  rw [State.hostPortUp, State.hostPortUp, field_of_reg same]

end Sys2Proof.Machine
end

section
/-! What each command of the statement on host accesses answers. -/

namespace Sys2Proof.Machine

/-- A command whose next state is known answers what holds of it. -/
theorem answers_of_eq {c : Instr} {s t u : State} {P : State → Prop} (hc : exec c s = .next t) (e : t = u) (h : P u) :
    Answers c s P := ⟨t, hc, e ▸ h⟩

/-- Registers written, then rings. -/
theorem rest_regs_rings {s v t : State} (hv : v = { s with regs := v.regs }) (ht : t = { v with rings := t.rings }) :
    t = { s with regs := t.regs, rings := t.rings } := by
  rw [ht, hv]

/-- A granted word read that finds nothing latched (00 R12). -/
theorem registerRead_unlatched {via : Via} {off : BitVec 24} {size : Nat} {s : State} (hx : s.fnExists via = true)
    (ha : wordAccess off.toNat size = true) (hg : s.grants via off.toNat = true)
    (hs : AMap.get none s.shadow (regKey (viewFn (viaFn via) off.toNat) off.toNat) = none) :
    Answers (.registerRead via off size) s fun t =>
      t = { s with sent := .regRead (s.showWord (viaFn via) off.toNat (s.hostView via)) :: s.sent, shadow := t.shadow } ∧
      ∀ i, i < upperWords off.toNat → viewFn (viaFn via) (off.toNat + 4 * (i + 1)) = 0 →
        AMap.get none t.shadow (off.toNat + 4 * (i + 1)) =
          some (s.showWord (viaFn via) (off.toNat + 4 * (i + 1)) (s.hostView via)) := by
  have rest := latchFirst_rest s (viaFn via) off.toNat (s.hostView via) (upperWords off.toNat)
  refine ⟨_, rfl, ?_⟩
  rw [hostRead_granted hx ha hg, reachedRead_unlatched _ hs, latchUpper_eq_latchFirst]
  refine ⟨?_, fun i hi hm => shadow_latchFirst _ hi hm⟩
  generalize s.latchFirst (viaFn via) off.toNat (s.hostView via) (upperWords off.toNat) = u at rest
  rw [rest]
  rfl

/-- A write of one whole line through the aperture (08 R253). -/
theorem bar2Write_answers {port : Bool} {fn : BitVec 6} {far : BitVec 36} {data : List Byte} {s : State} {a k loc : Nat}
    (poisoned : Bool) (hl : data.length = 64) (hok : s.bar2Ok fn.toNat far.toNat 64 true = some a) (ha : a % 64 = 0)
    (hd : s.chsDecode a = some (k, loc)) (hu : s.stackUp k = true) :
    Answers (.bar2Write port fn far data poisoned) s fun t =>
      readBytes t.chsMem (64 * lineKey k loc) 64 = data ∧ AMap.get false t.poisoned (lineKey k loc) = poisoned ∧
      (∀ b, b < 64 * lineKey k loc ∨ 64 * lineKey k loc + 64 ≤ b → AMap.get 0 t.chsMem b = AMap.get 0 s.chsMem b) ∧
      t = { s with chsMem := t.chsMem, poisoned := t.poisoned, symErr := t.symErr, pair := t.pair } := by
  refine answers_of_eq rfl (bar2Write_line poisoned hl hok ha hd hu) ⟨?_, poisoned_stackWrite _ _ _ _ _ _, fun b hb => ?_,
    stackWrite_rest _ _ _ _ _ _⟩
  · rw [chsMem_stackWrite_line _ _ hl, ← hl]
    exact readBytes_writeBytes _ _ _
  · rw [chsMem_stackWrite_line _ _ hl]
    rcases hb with hb | hb
    · exact get_writeBytes_below _ _ _ _ hb
    · exact get_writeBytes_above _ _ _ _ (by omega)

/-- The registers of a function that starts to run (08 R254). -/
def State.runRegs (s : State) (fn : Nat) (value : BitVec 32) : State :=
  (s.setFnField fn Reg.HIF_FN_CTRL 1 2 (bitsOf value.toNat 1 2)).showRun fn true

theorem runRegs_rest (s : State) (fn : Nat) (value : BitVec 32) :
    s.runRegs fn value = { s with regs := (s.runRegs fn value).regs } := rfl

theorem runRegs_ports (s : State) (fn : Nat) (value : BitVec 32) :
    (s.runRegs fn value).fnField fn Reg.HIF_FN_CTRL 1 2 = value.toNat / 2 % 4 := by
  rw [State.runRegs, showRun_ports, fnField_setFnField_same _ _ _ _ _ _ (by decide)]
  exact Nat.mod_mod _ _

theorem functionRun_answers {port : Bool} {fn : BitVec 6} {value : BitVec 32} {s : State}
    (hx : s.fnOnPort port fn.toNat = true) (hr : ¬s.fnField fn.toNat Reg.HIF_FN_CTRL 0 1 = 1) (hv : value.getLsbD 0 = true) :
    Answers (.functionRun port fn value) s fun t =>
      t.fnField fn.toNat Reg.HIF_FN_CTRL 0 1 = 1 ∧ t.fnField fn.toNat Reg.HIF_FN_CTRL 1 2 = value.toNat / 2 % 4 ∧
      t.fnField fn.toNat Reg.HIF_STATUS 0 1 = 1 ∧ t = { s with regs := t.regs, rings := t.rings } ∧
      (∀ r, r ≠ s.globalRing fn.toNat 0 → t.ring r = s.ring r) ∧
      ((s.ring (s.globalRing fn.toNat 0)).used = false → fn = 0#6 ∨ (s.fn fn.toNat).groupCount ≠ 0 →
        (t.ring (s.globalRing fn.toNat 0)).used = true ∧ (t.ring (s.globalRing fn.toNat 0)).fn = fn ∧
        (t.ring (s.globalRing fn.toNat 0)).loc = 0#16) := by
  refine answers_of_eq rfl (functionCtrl_run hx hr hv) ⟨?_, ?_, ?_,
    rest_regs_rings (runRegs_rest s fn.toNat value) (adminRing_rest _ _),
    fun r h => adminRing_other (s.runRegs fn.toNat value) _ h,
    fun hu hg => adminRing_own (s := s.runRegs fn.toNat value) hu hg⟩
  · rw [fnField_adminRing]; exact showRun_run _ _ _
  · rw [fnField_adminRing]; exact runRegs_ports _ _ _
  · rw [fnField_adminRing]; exact showRun_status _ _ _

/-- A link that comes up (08 R247). -/
theorem portLinkUp_answers {port : Bool} {speed : BitVec 4} {width : BitVec 6} (flit : Bool) (s : State)
    (h1 : 1 ≤ speed.toNat) (h6 : speed.toNat ≤ 6) (hw : width ∈ [1#6, 4#6, 8#6, 16#6]) :
    Answers (.portLinkUp port speed width flit) s fun t =>
      let stat := Reg.HIF_PORT_STATUS (if port then 1 else 0)
      t.field stat 0 4 = speed.toNat ∧ t.field stat 4 6 = width.toNat ∧ t.field stat 10 1 = (if flit then 1 else 0) ∧
      t.field stat 11 1 = 1 ∧ (∀ a, a ≠ stat → t.reg a = s.reg a) ∧
      t = { s with regs := t.regs, portReset := AMap.set false s.portReset (if port then 1 else 0) false } := by
  obtain ⟨rate, lanes, mode, up⟩ := linkWord_fields speed width flit
  have part : ∀ (u : State) (r d m : Nat), d + m ≤ 13 →
      (u.setField r 0 13 (linkWord speed width flit)).field r d m = bitsOf (linkWord speed width flit) d m := by
    intro u r d m h
    have within := fnField_setFnField_within u 0 r 0 13 (linkWord speed width flit) d m (by decide) h
    rwa [Nat.zero_add] at within
  refine answers_of_eq rfl (portLinkUp_eq flit h1 h6 hw) ?_
  exact ⟨(part _ _ 0 4 (by decide)).trans rate, (part _ _ 4 6 (by decide)).trans lanes,
    (part _ _ 10 1 (by decide)).trans mode, (part _ _ 11 1 (by decide)).trans up,
    fun a ha => reg_setField_other _ _ a _ _ _ ha, (regsOnly_setField _ _ _ _ _).rest⟩

/-- A link that goes down outside a pair (08 R271). -/
theorem portLinkDown_answers {port : Bool} {s : State} (hu : s.hostPortUp port = true) (hp : s.pairActive = false) :
    Answers (.portLinkDown port) s fun t =>
      t.hostPortUp port = false ∧ ∀ p ∈ s.rings, p.2.used = true → p.2.port = port → (t.ring p.1).descs = [] := by
  have alone : (s.linkGone port).pairActive = false := (pairActive_linkGone s port).trans hp
  refine answers_of_eq rfl (portLinkDown_eq hu) ⟨?_, fun p hm hused hport => descs_portLost alone ?_⟩
  · rw [(portLost_windsDown port alone).hostPortUp, hostPortUp_linkGone]
  · exact List.mem_map.2 ⟨p, List.mem_filter.2 ⟨hm, by simp [hused, hport]⟩, rfl⟩

/-- Settles O44: each clause from what its access, function or port operation does. -/
theorem hostAccess : Obligations.HostAccess := by
  intro via off size value env port fn far len data poisoned speed width flit n s
  refine ⟨fun hx ha => ?misaligned, fun hx hg => ?pwrCfg, fun hx hg => ?evtSel,
    fun hw hg hs => registerRead_unlatched hw.1 hw.2 hg hs, fun w hw hg hs => ?latched,
    fun a bs bad u hl hok hr => ⟨_, rfl, bar2Read_ok hl hok hr⟩,
    fun a k loc hl hok ha hd hu => bar2Write_answers poisoned hl hok ha hd hu,
    fun hx hr hv => functionRun_answers hx hr hv, fun hx hr hv hs => ?stop,
    fun h1 h6 hw => portLinkUp_answers flit s h1 h6 hw, fun hu hp => ?down, fun hf hj hk => ?reset,
    fun hn hr => ⟨_, rfl, numvfsWrite_eq hn hr⟩⟩
  case misaligned =>
    refine registerWrite_noted ?_
    rw [barWrite_misaligned _ _ hx ha]
    exact ⟨fnField_fnBump_same s _ _ _ _ _ (by decide), ⟨rfl⟩⟩
  case pwrCfg =>
    have word : (BitVec.ofNat 24 Reg.PWR_CFG).toNat = Reg.PWR_CFG := rfl
    refine registerWrite_noted ?_
    rw [word, barWrite_granted _ _ hx rfl hg, reachedWrite_pwrCfg]
    exact ⟨writePwrCfg_slew s value, writePwrCfg_cap s value, fun a ha => reg_setReg_other s _ a _ ha, ⟨rfl⟩⟩
  case evtSel =>
    have word : (BitVec.ofNat 24 Reg.EVT_SEL).toNat = Reg.EVT_SEL := rfl
    refine registerWrite_noted ?_
    rw [word, barWrite_granted _ _ hx rfl hg, reachedWrite_evtSel]
    exact ⟨reg_setReg_same s _ _, fun a ha => reg_setReg_other s _ a _ ha, ⟨rfl⟩⟩
  case latched =>
    refine ⟨_, rfl, ?_⟩
    rw [hostRead_granted hw.1 hw.2 hg, reachedRead_latched _ hs]
    rfl
  case stop =>
    refine answers_of_eq rfl (functionCtrl_stop hx hr hv hs) ?_
    exact ⟨showRun_run s _ _, showRun_status s _ _, ⟨rfl⟩⟩
  case down =>
    obtain ⟨t, ht, gone, empty⟩ := portLinkDown_answers hu hp
    exact ⟨t, ht, gone, fun p hm hused hport _ => empty p hm hused hport⟩
  case reset =>
    obtain ⟨u, hu, fresh⟩ := flr_functionReset hf hj hk
    exact ⟨_, rfl, u, hu, fresh.own, fresh.others, fresh.regs, fresh.fns, fresh.vectors, fresh.rest⟩

end Sys2Proof.Machine
end

section
/-! Slots that act in several steps: what they leave of their cluster, and when nothing else differs. -/

namespace Sys2Proof.Machine

variable {g : Nat} {s t u : State} {f h : Cluster → Cluster} {calm : Prop}

/-- The cluster moves by f, and where `calm` holds nothing but the clusters differs. -/
structure CalmMoves (g : Nat) (s t : State) (f : Cluster → Cluster) (calm : Prop) : Prop where
  moves : Moves g s t f
  quiet : calm → ClustersOnly s t

theorem CalmMoves.refl (g : Nat) (s : State) (calm : Prop) : CalmMoves g s s id calm := ⟨Moves.refl g s, fun _ => rfl⟩

theorem CalmMoves.trans (a : CalmMoves g s t f calm) (b : CalmMoves g t u h calm) : CalmMoves g s u (fun c => h (f c)) calm :=
  ⟨a.moves.trans b.moves, fun hc => ClustersOnly.trans (a.quiet hc) (b.quiet hc)⟩

theorem CalmMoves.live (a : CalmMoves g s t f calm) (hl : Live s g) : Live t g := a.moves.live hl

/-- The same move under another name. -/
theorem CalmMoves.congr (a : CalmMoves g s t f calm) (e : f = h) : CalmMoves g s t h calm := e ▸ a

/-- A write of the cluster is calm. -/
theorem calmMoves_modCluster (s : State) (g : Nat) (f : Cluster → Cluster) (calm : Prop) :
    CalmMoves g s (s.modCluster g f) f calm := ⟨moves_modCluster s g f, fun _ => rfl⟩

theorem calmMoves_land (s : State) (g : Nat) (ls : List Landing) (calm : Prop) :
    CalmMoves g s (s.land g ls) (entered ls) calm := calmMoves_modCluster s g _ calm

/-- Results that enter the pipeline after others. -/
theorem entered_entered (ls ks : List Landing) (c : Cluster) : entered ks (entered ls c) = entered (ls ++ ks) c := by
  simp [entered]

theorem entered_nil : entered [] = id := by
  funext c
  simp [entered]

/-- A fault that is not raised where the slot is calm. -/
theorem CalmMoves.faulting (a : SameRun s t) (quiet : calm → t = s) : CalmMoves g s t id calm :=
  ⟨a.moves g, fun hc => quiet hc ▸ rfl⟩

theorem calmMoves_stepSr (s : State) (g : Nat) (calm : Prop) :
    CalmMoves g s (s.stepSr g).2 (fun c => { c with sr := srStep c.sr }) calm := ⟨(moves_stepSr s g).2, fun _ => rfl⟩

theorem calmMoves_postInc (s : State) (x : Slot) (inc : Bool) (sb : BitVec 5) (n : Nat) (calm : Prop) :
    CalmMoves x.g s (s.postInc x inc sb n) (entered (postLanding x inc sb n)) calm := by
  refine ⟨moves_postInc s x inc sb n, fun _ => ?_⟩
  unfold State.postInc
  split <;> rfl

/-- Reads that hold no uncorrectable error write nothing but the cluster's count of corrected errors. -/
theorem calmMoves_sramRead (s : State) (x : Slot) (lanes : List Nat) (spans : Nat → List (Nat × Nat)) (calm : Prop)
    (h : Readable x lanes spans) :
    CalmMoves x.g s (s.sramRead x lanes spans)
      (fun c => { c with corrected := c.corrected + BitVec.ofNat 32 (correctedIn x lanes spans) }) calm := by
  refine ⟨moves_sramRead s x lanes spans h, fun _ => ?_⟩
  have quiet (t : State) : lanes.foldl (fun s l => s.laneUncorrectable x l (spans l)) t = t :=
    List.foldlRecOn (motive := (· = t)) lanes _ rfl fun u hu l hl => by
      rw [laneUncorrectable_ok u x l _ (h l hl), hu]
  unfold State.sramRead
  rw [quiet]
  split <;> rfl

/-- A fold whose every step enters results, in a cluster whose job runs. -/
theorem calmMoves_foldl {α : Type} (f : State → α → State) (ls : α → List Landing) (l : List α)
    (step : ∀ s, Live s g → ∀ a ∈ l, CalmMoves g s (f s a) (entered (ls a)) calm) (hs : Live s g) :
    CalmMoves g s (l.foldl f s) (entered (l.flatMap ls)) calm := by
  induction l generalizing s with
  | nil => exact (CalmMoves.refl g s calm).congr entered_nil.symm
  | cons a l ih =>
    have first := step s hs a (List.mem_cons_self ..)
    have rest := ih (fun s hs b hb => step s hs b (List.mem_cons_of_mem _ hb)) (first.live hs)
    exact (first.trans rest).congr (funext fun c => entered_entered ..)

/-- The state in which a slot has issued and its heads are named. -/
def State.named (s : State) (i : Issue) (slotNo : Nat) (acts : Bool) (ns : List Naming) : State :=
  (s.setCluster i.cluster.toNat (s.cluster i.cluster.toNat).begun).nameQueues (Sys2Proof.slotOf s i) slotNo acts ns

theorem live_named {i : Issue} (hi : Issues s i) (slotNo : Nat) (acts : Bool) (ns : List Naming) :
    Live (s.named i slotNo acts ns) i.cluster.toNat := (moves_named hi slotNo acts ns).live (canIssue_live hi)

theorem cluster_named {i : Issue} (hi : Issues s i) (slotNo : Nat) (acts : Bool) (ns : List Naming) :
    (s.named i slotNo acts ns).cluster i.cluster.toNat = namedBy acts ns (s.cluster i.cluster.toNat) :=
  (moves_named hi slotNo acts ns).at_

/-- What a slot does that names its heads and then moves its cluster. -/
theorem CalmMoves.slotChanges {i : Issue} {slotNo : Nat} {acts : Bool} {ns : List Naming} (hi : Issues s i)
    (a : CalmMoves i.cluster.toNat (s.named i slotNo acts ns) t f calm) :
    SlotChanges i.cluster.toNat s t acts ns f calm :=
  ((moves_named hi slotNo acts ns).trans a.moves).slotChanges rfl fun hc hr =>
    ClustersOnly.trans (clustersOnly_named slotNo acts ns hr) (a.quiet hc)

/-- A slot command that is legal in a cluster that can issue. -/
theorem slotRuns_of {c : Instr} {i : Issue} {P : State → Prop} {m : String}
    (run : exec c s = whenLegal c m t) (holds : Issues s i → P t) : SlotRuns c i s P := fun legal issues =>
  ⟨t, by rw [run, whenLegal, if_pos legal], holds issues⟩

/-- A slot that names no head acts as one that names none and is off. -/
theorem slotLands_empty {i : Issue} (hi : Issues s i) (acts : Bool) :
    SlotLands i.cluster.toNat s (s.issue i fun _ s => s) acts [] [] :=
  have base := slotLands_none hi
  ⟨base.cluster, base.others, base.only, fun hc _ => base.quiet hc fun _ hn => absurd hn List.not_mem_nil⟩

end Sys2Proof.Machine
end

section
/-! The V slot (02 R71-R74, 03 R98-R101): arithmetic, moves, conversion, tables. -/

namespace Sys2Proof.Machine

variable (i : Issue) (s : State)

/-- An element operation on three registers, whatever it computes. -/
theorem slotLands_vecOp (o : VOps) (beats : Nat) (f : BitVec 32 → BitVec 32 → BitVec 32 → BitVec 32) (hi : Issues s i) :
    SlotLands i.cluster.toNat s (s.vecOp i o beats f) (slotOf s i).acts (namesV o.va.toNat ++ namesV o.vb.toNat)
      (together beats (elementTargets (slotOf s i) o f)) :=
  slotLands_of hi 1 Slot.acts (fun _ => namesV o.va.toNat ++ namesV o.vb.toNat)
    fun x => together beats (elementTargets x o f)

/-- An element operation on one register. -/
theorem slotLands_vecMap (vd : BitVec 5) (va : BitVec 6) (beats : Nat) (f : BitVec 32 → BitVec 32) (hi : Issues s i) :
    SlotLands i.cluster.toNat s (s.vecMap i vd va beats f) (slotOf s i).acts (namesV va.toNat)
      (together beats (elementTargets1 (slotOf s i) vd va f)) :=
  slotLands_of hi 1 Slot.acts (fun _ => namesV va.toNat) fun x => together beats (elementTargets1 x vd va f)

/-- An operation that writes one register of each active lane. -/
theorem slotLands_vecCopy (vd : BitVec 5) (va : BitVec 6) (beats : Nat) (f : Slot → Nat → BitVec 512) (hi : Issues s i) :
    SlotLands i.cluster.toNat s (s.vecCopy i vd va beats f) (slotOf s i).acts (namesV va.toNat)
      (together beats (laneTargets (slotOf s i) vd (f (slotOf s i)))) :=
  slotLands_of hi 1 Slot.acts (fun _ => namesV va.toNat) fun x => together beats (laneTargets x vd (f x))

/-- Settles O3: every one of these operations is `State.vecOp` with its own function and beats. -/
theorem vectorArithmetic : Obligations.VectorArithmetic := by
  intro i o s
  refine ⟨?_, ?_, ?_, ?_, ?_, ?_, ?_, ?_, ?_, ?_, ?_⟩ <;> exact slotRuns_of rfl (slotLands_vecOp i s o _ _)

theorem slotLands_vfroms (vd : BitVec 5) (vb : BitVec 6) (hi : Issues s i) :
    SlotLands i.cluster.toNat s (s.vfroms i vd vb) (slotOf s i).acts (namesS vb.toNat)
      (together 1 (laneTargets (slotOf s i) vd fun _ =>
        ofElements (List.replicate 16 (((slotOf s i).c.sop (slotOf s i).g vb.toNat).setWidth 32)))) :=
  slotLands_of hi 1 Slot.acts (fun _ => namesS vb.toNat) fun x => together 1 (laneTargets x vd fun _ =>
    ofElements (List.replicate 16 ((x.c.sop x.g vb.toNat).setWidth 32)))

/-- The scale registers that a SCALE writes. -/
def scaleTargets (x : Slot) (va : BitVec 6) (sb : Bool) : List Target :=
  x.lanes.map fun l =>
    if sb then .scaleB l ((x.c.vop l va.toNat).extractLsb' 0 256) else .scaleA l ((x.c.vop l va.toNat).extractLsb' 0 64)

theorem slotLands_scaleOp (va : BitVec 6) (sb : Bool) (hi : Issues s i) :
    SlotLands i.cluster.toNat s (s.scaleOp i va sb) (slotOf s i).acts (namesV va.toNat)
      (together 1 (scaleTargets (slotOf s i) va sb)) :=
  slotLands_of hi 1 Slot.acts (fun _ => namesV va.toNat) fun x => together 1 (scaleTargets x va sb)

/-- Settles O4: an element operation on one register, a copy, or a scalar to all elements. -/
theorem vectorMoves : Obligations.VectorMoves := by
  intro i vd va vb n5 n4 fn sb s
  refine ⟨fun _ hi => ⟨_, rfl, slotLands_empty hi _⟩, ?shl, ?shr, ?sfu, ?mov, ?bcast, ?lanex, ?vfroms, ?scale⟩
  case shl | shr | sfu => exact slotRuns_of rfl (slotLands_vecMap i s vd va _ _)
  case mov => exact slotRuns_of rfl (slotLands_vecCopy i s vd va 1 fun x l => x.c.vop l va.toNat)
  case bcast =>
    exact slotRuns_of rfl (slotLands_vecCopy i s vd va 1 fun x l =>
      ofElements (List.replicate 16 (element (x.c.vop l va.toNat) n4.toNat)))
  case lanex => exact slotRuns_of rfl (slotLands_vecCopy i s vd va 2 fun x _ => x.c.vop n4.toNat va.toNat)
  case vfroms => exact slotRuns_of rfl (slotLands_vfroms i s vd vb)
  case scale => exact slotRuns_of rfl (slotLands_scaleOp i s va sb)

/-- Naming a head leaves the generator alone. -/
theorem sr_noteHead (k : Cluster) (acts : Bool) (c : Cluster) (n : Naming) : (noteHead k acts c n).sr = c.sr := by
  unfold noteHead Cluster.note
  cases n.take <;> dsimp only <;> split_ifs <;> rfl

/-- A slot finds the generator as its cluster holds it, whatever heads it names. -/
theorem sr_namedBy (acts : Bool) (ns : List Naming) (c : Cluster) : (namedBy acts ns c).sr = c.sr :=
  List.foldlRecOn (motive := fun k : Cluster => k.sr = c.sr) (namedOnce ns) _ rfl fun k hk n _ =>
    (sr_noteHead c acts k n).trans hk

/-- The generator's word for a slot that rounds in a mode, and the state after it (R58, R88). -/
def State.drawSr (s : State) (g rnd : Nat) : BitVec 32 × State := if rnd = 4 then s.stepSr g else (0#32, s)

/-- The generator steps for stochastic rounding and for no other mode. -/
theorem drawSr_eq (u : State) (g rnd : Nat) (calm : Prop) :
    (u.drawSr g rnd).1 = (if rnd = 4 then srStep (u.cluster g).sr else 0#32) ∧
      CalmMoves g u (u.drawSr g rnd).2 (fun c => { c with sr := if rnd = 4 then srStep c.sr else c.sr }) calm := by
  by_cases h : rnd = 4
  · simp only [State.drawSr, h, if_true]
    exact ⟨rfl, calmMoves_stepSr u g calm⟩
  · simp only [State.drawSr, h, if_false]
    exact ⟨trivial, CalmMoves.refl g u calm⟩

/-- What a CVT writes in the active lanes, g being the generator's word (R100). -/
def convertTargets (x : Slot) (vd : BitVec 5) (va : BitVec 6) (r : Rctl) (fmt : Nat) (g : BitVec 32) : List Target :=
  x.lanes.flatMap fun l =>
    cvtTargets (kindOf x.g) l vd.toNat r (fun n => (srWord g (l * 32 + n)).toNat)
      (cvtSource x.c (kindOf x.g) l va.toNat fmt r.blk)

/-- A CVT in a cluster that can issue: the heads, the generator, the results. -/
theorem cvt_eq {i : Issue} {s : State} (hi : Issues s i) (vd : BitVec 5) (va : BitVec 6) (idx fmt : BitVec 4) :
    let x := slotOf s i
    let r := rctlOf (x.c.cvt.getD idx.toNat 0#20)
    let drawn := (s.named i 1 x.acts (namesV va.toNat)).drawSr i.cluster.toNat r.rnd
    s.cvt i vd va idx fmt = drawn.2.landAll i.cluster.toNat 3 (convertTargets x vd va r fmt.toNat drawn.1) :=
  issue_eq _ hi

/-- Settles O6: the generator's word comes from the cluster as it was, since naming a head leaves it alone. -/
theorem vectorConvert : Obligations.VectorConvert := by
  intro i vd va idx fmt s x r g
  refine slotRuns_of rfl fun hi => ?_
  obtain ⟨word, steps⟩ := drawSr_eq (s.named i 1 x.acts (namesV va.toNat)) i.cluster.toNat r.rnd True
  rw [cluster_named hi, sr_namedBy] at word
  have landed := steps.trans (calmMoves_land _ i.cluster.toNat (together 3 (convertTargets x vd va r fmt.toNat g)) True)
  refine CalmMoves.slotChanges (slotNo := 1) hi ?_
  rw [cvt_eq hi, word]
  exact landed

/-- Settles O7: the heads, the reads of the tables, the results. -/
theorem vectorTable : Obligations.VectorTable := by
  intro i vd va vb s x desc spans readable
  refine slotRuns_of rfl fun hi => ?_
  unfold State.pwt
  rw [issue_eq _ hi]
  exact CalmMoves.slotChanges (slotNo := 1) hi
    ((calmMoves_sramRead _ x x.lanes spans True readable).trans (calmMoves_land _ _ _ _))

end Sys2Proof.Machine
end

section
/-! One Ledger (02 R40-R50, R62, R63): its status bits, what an addition leaves of its value and exponent where it stays
in range, and its residue. -/

namespace Sys2Proof.Machine

/-! ### Status bits -/

/-- A bit of a status word after one bit was set to a value. -/
theorem getLsbD_withFlag (st : BitVec 16) {i : Nat} (b : Bool) (j : Nat) (hi : i < 16) :
    (withFlag st i b).getLsbD j = if j = i then b else st.getLsbD j := by
  have bit : (1#16 <<< i).getLsbD j = decide (j = i) := by
    rw [BitVec.getLsbD_shiftLeft, BitVec.getLsbD_one]
    simp only [Bool.and_eq_decide, decide_eq_decide, decide_eq_true_eq, Bool.not_eq_true', decide_eq_false_iff_not]
    omega
  have inside : j < 16 ∨ st.getLsbD j = false := (Nat.lt_or_ge j 16).imp_right (st.getLsbD_of_ge j)
  cases b
  · rw [withFlag, if_neg (by decide), BitVec.getLsbD_and, BitVec.getLsbD_not, bit]
    by_cases h : j = i
    · simp [h]
    · rcases inside with hj | hj <;> simp [h, hj]
  · rw [withFlag, if_pos rfl, BitVec.getLsbD_or, bit]
    by_cases h : j = i <;> simp [h]

theorem Ledger.flag_setFlag (x : Ledger) {i : Nat} (b : Bool) (j : Nat) (hi : i < 16) :
    (x.setFlag i b).flag j = if j = i then b else x.flag j := getLsbD_withFlag x.status b j hi

/-- The mode is bits 0 and 1 of the status word. -/
theorem Ledger.mode_congr {x y : Ledger} (h : ∀ i < 2, x.flag i = y.flag i) : x.mode = y.mode := by
  unfold Ledger.mode
  congr 1
  apply BitVec.eq_of_getLsbD_eq
  intro i hi
  have bit : x.status.getLsbD i = y.status.getLsbD i := h i hi
  simp only [BitVec.getLsbD_extractLsb', Nat.zero_add, bit]

/-! ### Latching: additions change no status bit but that they may set range -/

/-- No status bit differs, but that range may have set. -/
def Ledger.Latches (x y : Ledger) : Prop := (∀ i ≠ 6, y.flag i = x.flag i) ∧ (y.flag 6 = false → x.flag 6 = false)

theorem Ledger.Latches.of_status {x y : Ledger} (h : y.status = x.status) : x.Latches y := by
  simp [Ledger.Latches, Ledger.flag, h]

theorem Ledger.Latches.trans {x y z : Ledger} (a : x.Latches y) (b : y.Latches z) : x.Latches z :=
  ⟨fun i hi => (b.1 i hi).trans (a.1 i hi), fun h => a.2 (b.2 h)⟩

theorem Ledger.Latches.mode {x y : Ledger} (a : x.Latches y) : y.mode = x.mode :=
  Ledger.mode_congr fun i hi => a.1 i (by omega)

theorem Ledger.flag_freeze (x : Ledger) (neg : Bool) (i : Nat) : (x.freeze neg).flag i = if i = 6 then true else x.flag i :=
  x.flag_setFlag true i (by decide)

theorem Ledger.latches_freeze (x : Ledger) (neg : Bool) : x.Latches (x.freeze neg) := by
  constructor
  · intro i hi
    rw [x.flag_freeze, if_neg hi]
  · rw [x.flag_freeze, if_pos rfl]
    exact fun h => absurd h (by decide)

/-! ### Exponent and value -/

@[simp] theorem Ledger.e_setE (x : Ledger) (v : Int) : (x.setE v).e = v := by
  obtain ⟨c, hc⟩ : (2 ^ 10 : Int) ∣ (BitVec.ofInt 10 v).toInt - v := by
    rw [BitVec.toInt_ofInt]
    exact Int.dvd_bmod_sub_self
  simp only [Ledger.e, Ledger.setE]
  omega

/-- An integer in range is the value of the L that it is written to. -/
theorem toInt_ofInt_inRange {z : Int} (h : inLedgerRange z = true) : (BitVec.ofInt 128 z).toInt = z := by
  simp only [inLedgerRange, Bool.and_eq_true, decide_eq_true_eq] at h
  rw [BitVec.toInt_ofInt]
  apply Int.bmod_eq_of_le <;> omega

/-- Setting or lowering the exponent for a product of scale s. -/
theorem Ledger.e_rebase (x : Ledger) (seen : Bool) (s : Int) :
    (x.rebase seen s).e = if seen then min x.e s else s := by
  unfold Ledger.rebase
  cases seen with
  | false => exact x.e_setE s
  | true =>
    simp only [Bool.not_true, Bool.false_eq_true, if_false, if_true]
    split_ifs with lower fits
    · exact (x.e_setE s).trans (by omega)
    · exact (x.e_setE s).trans (by omega)
    · omega

theorem Ledger.latches_rebase (x : Ledger) (seen : Bool) (s : Int) : x.Latches (x.rebase seen s) := by
  unfold Ledger.rebase
  split
  · exact .of_status rfl
  · split
    · dsimp only
      split
      · exact .of_status rfl
      · exact (Latches.of_status (y := x.setE s) rfl).trans (latches_freeze _ _)
    · exact .of_status rfl

/-- A rebase that stays in range keeps the value, in units of the new exponent. -/
theorem Ledger.value_rebase (x : Ledger) (seen : Bool) (s : Int) (h : (x.rebase seen s).flag 6 = false) :
    (x.rebase seen s).value = if seen then x.value * (2 ^ (x.e - min x.e s).toNat : Nat) else x.value := by
  unfold Ledger.rebase at *
  cases seen with
  | false => rfl
  | true =>
    simp only [Bool.not_true, Bool.false_eq_true, if_false, if_true] at *
    split_ifs at * with lower fits
    · rw [min_eq_right (by omega)]
      exact toInt_ofInt_inRange fits
    · simp [flag_freeze] at h
    · rw [min_eq_left (by omega)]
      simp

theorem Ledger.latches_addAligned (x : Ledger) (c : Int) : x.Latches (x.addAligned c) := by
  unfold Ledger.addAligned
  dsimp only
  split_ifs
  · exact latches_freeze _ _
  · exact .of_status rfl
  · exact latches_freeze _ _

/-- An addition that stays in range adds. -/
theorem Ledger.addAligned_inRange (x : Ledger) (c : Int) (h : (x.addAligned c).flag 6 = false) :
    (x.addAligned c).e = x.e ∧ (x.addAligned c).value = x.value + c := by
  unfold Ledger.addAligned at *
  dsimp only at *
  split_ifs at * with alone fits
  · simp [flag_freeze] at h
  · exact ⟨rfl, toInt_ofInt_inRange fits⟩
  · simp [flag_freeze] at h

/-- A term of n units of its scale s enters a Ledger: the exponent takes the scale or falls to it, then the term is
added in units of the exponent (R44, R67). -/
def Ledger.enter (x : Ledger) (seen : Bool) (s n : Int) : Ledger :=
  let z := x.rebase seen s
  if z.frozen then z else z.addAligned (n * (2 ^ (s - z.e).toNat : Nat))

theorem Ledger.latches_enter (x : Ledger) (seen : Bool) (s n : Int) : x.Latches (x.enter seen s n) := by
  unfold Ledger.enter
  dsimp only
  split
  · exact latches_rebase x seen s
  · exact (latches_rebase x seen s).trans (latches_addAligned _ _)

/-- A term that enters a Ledger within range. -/
theorem Ledger.enter_inRange (x : Ledger) (seen : Bool) (s n : Int) (h : (x.enter seen s n).flag 6 = false) :
    (x.enter seen s n).e = (if seen then min x.e s else s) ∧
      (x.enter seen s n).value = (if seen then x.value * (2 ^ (x.e - min x.e s).toNat : Nat) else x.value) +
        n * (2 ^ (s - if seen then min x.e s else s).toNat : Nat) := by
  unfold Ledger.enter at *
  dsimp only at *
  split at h
  · rename_i frozen
    simp only [Bool.and_eq_true, h, Ledger.frozen, Bool.false_eq_true, false_and] at frozen
  · rename_i moving
    rw [if_neg moving]
    obtain ⟨he, hv⟩ := addAligned_inRange _ _ h
    have unfrozen := (latches_addAligned _ _).2 h
    rw [he, hv, value_rebase x seen s unfrozen, e_rebase]
    exact ⟨rfl, rfl⟩

/-! ### The residue -/

/-- The residue is the value's modulo 255 (R62). -/
def Ledger.Agrees (x : Ledger) : Prop := (x.residue.toNat : Int) = x.value % 255

theorem Ledger.Agrees.computed {x : Ledger} (h : x.Agrees) : x.computedResidue = x.residue := by
  unfold Ledger.computedResidue
  rw [← h, BitVec.ofInt_natCast, BitVec.ofNat_toNat, BitVec.setWidth_eq]

theorem Ledger.Agrees.residueOk {x : Ledger} (h : x.Agrees) : x.residueOk = true := by
  simp [Ledger.residueOk, h.computed]

/-- Two Ledgers of one value have one L, and one residue where it agrees. -/
theorem Ledger.eq_of_value {x y : Ledger} (h : x.value = y.value) : x.l = y.l := BitVec.eq_of_toInt_eq h

theorem Ledger.Agrees.residue_eq {x y : Ledger} (hx : x.Agrees) (hy : y.Agrees) (h : x.value = y.value) :
    x.residue = y.residue := by
  rw [← hx.computed, ← hy.computed, Ledger.computedResidue, Ledger.computedResidue, h]

/-- A rotation left of a residue multiplies it by a power of two modulo 255 (R62). -/
theorem rotl8_toNat (r : BitVec 8) (k : Nat) (h : r.toNat < 255) : (rotl8 r k).toNat = r.toNat * 2 ^ k % 255 := by
  have small (j : Nat) (hj : j < 8) : (r.rotateLeft j).toNat = r.toNat * 2 ^ j % 255 := by
    have low : r.toNat / 2 ^ (8 - j) < 2 ^ j := by
      rw [Nat.div_lt_iff_lt_mul (Nat.two_pow_pos _), ← Nat.pow_add, Nat.add_sub_cancel' hj.le]
      exact r.isLt
    have high : r.toNat * 2 ^ j % 2 ^ 8 = (r.toNat % 2 ^ (8 - j)) * 2 ^ j := by
      conv_lhs => rw [show (2 : Nat) ^ 8 = 2 ^ (8 - j) * 2 ^ j by rw [← Nat.pow_add, Nat.sub_add_cancel hj.le]]
      exact Nat.mul_mod_mul_right ..
    rw [BitVec.toNat_rotateLeft, Nat.mod_eq_of_lt hj, Nat.shiftLeft_eq, Nat.shiftRight_eq_div_pow, high,
      ← Nat.shiftLeft_eq, ← Nat.shiftLeft_add_eq_or_of_lt low, Nat.shiftLeft_eq]
    generalize r.toNat = n at *
    interval_cases j <;> omega
  have period : 2 ^ k % 255 = 2 ^ (k % 8) % 255 := by
    conv_lhs => rw [← Nat.div_add_mod k 8, Nat.pow_add, Nat.pow_mul, Nat.mul_mod, Nat.pow_mod]
    norm_num
  rw [rotl8, small _ (Nat.mod_lt _ (by decide)), Nat.mul_mod, ← period, ← Nat.mul_mod]

theorem Ledger.agrees_freeze (x : Ledger) (neg : Bool) : (x.freeze neg).Agrees := by
  cases neg
  · show ((127 : Nat) : Int) = (BitVec.ofInt 128 (2 ^ 127 - 1)).toInt % 255
    decide
  · show ((127 : Nat) : Int) = (BitVec.ofInt 128 (-(2 ^ 127))).toInt % 255
    decide

theorem Ledger.Agrees.rebase {x : Ledger} (h : x.Agrees) (seen : Bool) (s : Int) : (x.rebase seen s).Agrees := by
  unfold Ledger.rebase
  dsimp only
  split_ifs with _ _ fits
  · exact h
  · have below : x.residue.toNat < 255 := by unfold Ledger.Agrees at h; omega
    show ((rotl8 x.residue _).toNat : Int) = (BitVec.ofInt 128 _).toInt % 255
    rw [toInt_ofInt_inRange fits, rotl8_toNat _ _ below, Int.natCast_mod, Int.natCast_mul, h]
    exact (Int.mod_modEq x.value 255).mul_right _
  · exact agrees_freeze _ _
  · exact h

theorem Ledger.Agrees.addAligned {x : Ledger} (h : x.Agrees) (c : Int) : (x.addAligned c).Agrees := by
  unfold Ledger.addAligned
  dsimp only
  split_ifs with _ fits
  · exact agrees_freeze _ _
  · show ((BitVec.ofNat 8 _).toNat : Int) = (BitVec.ofInt 128 _).toInt % 255
    rw [toInt_ofInt_inRange fits, BitVec.toNat_ofNat, Nat.mod_eq_of_lt (by omega)]
    unfold Ledger.Agrees at h
    omega
  · exact agrees_freeze _ _

theorem Ledger.Agrees.enter {x : Ledger} (h : x.Agrees) (seen : Bool) (s n : Int) : (x.enter seen s n).Agrees := by
  unfold Ledger.enter
  dsimp only
  split
  · exact h.rebase seen s
  · exact (h.rebase seen s).addAligned _

/-! ### Clears -/

theorem Ledger.status_clear (x : Ledger) (m : Nat) (w : Int) : (x.clear m w).status = BitVec.ofNat 16 (m % 4) := by
  unfold Ledger.clear
  split <;> rfl

theorem Ledger.mode_clear (x : Ledger) {m : Nat} (w : Int) (h : m < 4) : (x.clear m w).mode = m := by
  rw [Ledger.mode, x.status_clear]
  interval_cases m <;> rfl

/-- A clear leaves no flag set. -/
theorem Ledger.flag_clear (x : Ledger) (m : Nat) (w : Int) (i : Nat) (h : 2 ≤ i) : (x.clear m w).flag i = false := by
  rw [Ledger.flag, x.status_clear, BitVec.getLsbD_ofNat, Nat.testBit_lt_two_pow, Bool.and_false]
  calc m % 4 < 2 ^ 2 := Nat.mod_lt _ (by decide)
    _ ≤ 2 ^ i := Nat.pow_le_pow_right (by decide) h

theorem Ledger.value_clear (x : Ledger) {m : Nat} (w : Int) (h : m ≠ 2) : (x.clear m w).value = 0 := by
  simp [Ledger.value, Ledger.clear, h]

theorem Ledger.agrees_clear (x : Ledger) {m : Nat} (w : Int) (h : m ≠ 2) : (x.clear m w).Agrees := by
  rw [Ledger.Agrees, x.value_clear w h]
  rfl

theorem Ledger.e_clear (x : Ledger) (m : Nat) (w : Int) : (x.clear m w).e = if m = 1 then w else x.e := by
  show (if m = 1 then x.setE w else x).e = _
  split_ifs
  · exact x.e_setE w
  · rfl

end Sys2Proof.Machine
end

section
/-! Sums in a Ledger (02 R44-R50, R62, R67): what it holds of the terms that entered it since its clear. -/

namespace Sys2Proof.Machine

/-! ### Terms: units and scale -/

/-- The sum of terms, each some units of its own scale, in units of a scale S. -/
def termSum (S : Int) (ts : List (Int × Int)) : Int :=
  (ts.map fun t : Int × Int => t.1 * ((2 ^ (t.2 - S).toNat : Nat) : Int)).sum

/-- The least scale of some terms. -/
def LeastOf (ts : List (Int × Int)) (S : Int) : Prop := (∃ t ∈ ts, t.2 = S) ∧ ∀ t ∈ ts, S ≤ t.2

theorem LeastOf.unique {ts us : List (Int × Int)} {S T : Int} (a : LeastOf ts S) (b : LeastOf us T) (h : ts.Perm us) :
    S = T := by
  obtain ⟨⟨t, ht, rfl⟩, leastS⟩ := a
  obtain ⟨⟨u, hu, rfl⟩, leastT⟩ := b
  exact le_antisymm (leastS u (h.mem_iff.2 hu)) (leastT t (h.mem_iff.1 ht))

@[simp] theorem termSum_nil (S : Int) : termSum S [] = 0 := rfl

theorem termSum_append (S : Int) (ts us : List (Int × Int)) : termSum S (ts ++ us) = termSum S ts + termSum S us := by
  simp [termSum]

theorem termSum_singleton (S n s : Int) : termSum S [(n, s)] = n * (2 ^ (s - S).toNat : Nat) := by simp [termSum]

theorem termSum_perm {S : Int} {ts us : List (Int × Int)} (h : ts.Perm us) : termSum S ts = termSum S us :=
  (h.map _).sum_eq

/-- The sum in units of a smaller scale. -/
theorem termSum_rescale {S T : Int} {ts : List (Int × Int)} (h : ∀ t ∈ ts, S ≤ t.2) (hT : T ≤ S) :
    termSum T ts = termSum S ts * (2 ^ (S - T).toNat : Nat) := by
  rw [termSum, termSum, ← List.sum_map_mul_right]
  congr 1
  refine List.map_congr_left fun t ht => ?_
  have : (t.2 - T).toNat = (t.2 - S).toNat + (S - T).toNat := by have := h t ht; omega
  rw [this, Nat.pow_add, Int.natCast_mul, Int.mul_assoc]

/-- The sum of terms gathered from a list. -/
theorem termSum_flatMap {α : Type} (S : Int) (g : α → List (Int × Int)) (l : List α) :
    termSum S (l.flatMap g) = (l.map fun a => termSum S (g a)).sum := by
  induction l with
  | nil => rfl
  | cons a l ih => rw [List.flatMap_cons, termSum_append, ih, List.map_cons, List.sum_cons]

/-! ### What one operand does to a Ledger -/

/-- A Ledger that an operand has touched: the mode, the value, the exponent and the residue stand, and of the status only
the flags of R41 that every product updates may differ; `nz` says that the operand is a product other than 0. -/
structure Ledger.Touched (x y : Ledger) (nz : Bool) : Prop where
  mode : y.mode = x.mode
  value : y.value = x.value
  e : y.e = x.e
  residue : y.residue = x.residue
  used : x.flag 2 = true ∨ nz = true → y.flag 2 = true
  seen : y.flag 4 = (x.flag 4 || nz)
  kept : ∀ i, 6 ≤ i → y.flag i = x.flag i

theorem Ledger.Touched.refl (x : Ledger) : x.Touched x false :=
  ⟨rfl, rfl, rfl, rfl, fun h => by simpa using h, (Bool.or_false _).symm, fun _ _ => rfl⟩

theorem Ledger.Touched.agrees {x y : Ledger} {nz : Bool} (a : x.Touched y nz) (h : x.Agrees) : y.Agrees := by
  rw [Ledger.Agrees, a.residue, a.value]
  exact h

/-- The status word after a finite product, but for the flag of negative zeros. -/
theorem Ledger.status_touch_fin (x : Ledger) (neg : Bool) (m : Nat) (e : Int) :
    ∃ b, (x.touch (.fin neg m e)).status =
      if m = 0 then withFlag (withFlag x.status 3 b) 2 true
      else withFlag (withFlag (withFlag x.status 3 b) 2 true) 4 true := ⟨_, rfl⟩

/-- The flags of a finite product. -/
theorem Ledger.flag_touch_fin (x : Ledger) (neg : Bool) (m : Nat) (e : Int) (i : Nat) (h : i ≠ 3) :
    (x.touch (.fin neg m e)).flag i = if i = 2 ∨ (i = 4 ∧ m ≠ 0) then true else x.flag i := by
  obtain ⟨b, hb⟩ := x.status_touch_fin neg m e
  rw [Ledger.flag, hb]
  by_cases hm : m = 0
  · simp [hm, getLsbD_withFlag, h, Ledger.flag]
  · simp only [hm, if_false, getLsbD_withFlag _ _ i (by decide : 4 < 16), getLsbD_withFlag _ _ i (by decide : 2 < 16),
      getLsbD_withFlag _ _ i (by decide : 3 < 16), h]
    by_cases h4 : i = 4 <;> simp [h4, hm, Ledger.flag]

theorem Ledger.touched_touch (x : Ledger) (neg : Bool) (m : Nat) (e : Int) :
    x.Touched (x.touch (.fin neg m e)) (m != 0) where
  mode := mode_congr fun i hi => by
    rw [flag_touch_fin x neg m e i (by omega), if_neg (by omega)]
  value := rfl
  e := rfl
  residue := rfl
  used _ := by rw [flag_touch_fin x neg m e 2 (by decide), if_pos (.inl rfl)]
  seen := by
    rw [flag_touch_fin x neg m e 4 (by decide)]
    by_cases hm : m = 0 <;> simp [hm]
  kept i hi := by rw [flag_touch_fin x neg m e i (by omega), if_neg (by omega)]

/-- What an operand makes of a Ledger in exact or slice mode: the terms it enters are `ts`, at most one; a frozen Ledger
keeps its value (R45). -/
inductive Ledger.Accepts (x : Ledger) : Ledger → List (Int × Int) → Prop
  | zero {y : Ledger} (touched : x.Touched y false) : Accepts x y []
  | frozen {y : Ledger} (n s : Int) (touched : x.Touched y true) (stuck : x.frozen = true) : Accepts x y [(n, s)]
  | enters {w : Ledger} (n s : Int) (touched : x.Touched w true) : Accepts x (w.enter (x.flag 4) s n) [(n, s)]

theorem Ledger.Accepts.mode {x y : Ledger} {ts : List (Int × Int)} (a : x.Accepts y ts) : y.mode = x.mode := by
  cases a with
  | zero touched => exact touched.mode
  | frozen _ _ touched => exact touched.mode
  | enters n s touched => exact (latches_enter _ _ s n).mode.trans touched.mode

theorem Ledger.Accepts.agrees {x y : Ledger} {ts : List (Int × Int)} (a : x.Accepts y ts) (h : x.Agrees) : y.Agrees := by
  cases a with
  | zero touched => exact touched.agrees h
  | frozen _ _ touched => exact touched.agrees h
  | enters n s touched => exact (touched.agrees h).enter _ s n

/-- Range, once set, stays set. -/
theorem Ledger.Accepts.inRange {x y : Ledger} {ts : List (Int × Int)} (a : x.Accepts y ts) (h : y.flag 6 = false) :
    x.flag 6 = false := by
  cases a with
  | zero touched => exact (touched.kept 6 (by decide)).symm.trans h
  | frozen _ _ touched => exact (touched.kept 6 (by decide)).symm.trans h
  | enters n s touched => exact (touched.kept 6 (by decide)).symm.trans ((latches_enter _ _ s n).2 h)

/-! ### What a Ledger holds -/

/-- A Ledger that since its clear took these terms: its exponent is their least scale and its value their sum in units of
it; while there is none, the exponent is the one of the clear. -/
structure Ledger.Holds (e₀ : Int) (x : Ledger) (ts : List (Int × Int)) : Prop where
  seen : x.flag 4 = true ↔ ts ≠ []
  used : ts ≠ [] → x.flag 2 = true
  finite : ∀ i, 7 ≤ i → x.flag i = false
  unset : ts = [] → x.e = e₀
  least : ts ≠ [] → LeastOf ts x.e
  value : x.value = termSum x.e ts

theorem Ledger.holds_clear (x : Ledger) {m : Nat} (w : Int) (h : m ≠ 2) :
    (x.clear m w).Holds (x.clear m w).e [] where
  seen := by simp [x.flag_clear m w 4 (by decide)]
  used h := absurd rfl h
  finite i hi := x.flag_clear m w i (by omega)
  unset _ := rfl
  least h := absurd rfl h
  value := x.value_clear w h

/-- Least scale and sum after one more term. -/
theorem leastOf_append {ts : List (Int × Int)} {S : Int} (h : ts ≠ [] → LeastOf ts S) (n s : Int) :
    LeastOf (ts ++ [(n, s)]) (if ts = [] then s else min S s) := by
  by_cases hts : ts = []
  · simp [hts, LeastOf]
  · obtain ⟨⟨t, ht, rfl⟩, le⟩ := h hts
    rw [if_neg hts]
    refine ⟨?_, fun u hu => ?_⟩
    · rcases min_choice t.2 s with hmin | hmin
      · exact ⟨t, List.mem_append_left _ ht, hmin.symm⟩
      · exact ⟨(n, s), by simp, hmin.symm⟩
    · rcases List.mem_append.1 hu with hu | hu
      · exact (min_le_left _ _).trans (le u hu)
      · rw [List.mem_singleton.1 hu]
        exact min_le_right _ _

/-- A Ledger in range holds what it held and what it accepted. -/
theorem Ledger.Holds.accepts {e₀ : Int} {x y : Ledger} {ts us : List (Int × Int)} (h : x.Holds e₀ ts) (a : x.Accepts y us)
    (inRange : y.flag 6 = false) : y.Holds e₀ (ts ++ us) := by
  cases a with
  | zero touched =>
    rw [List.append_nil]
    exact {
      seen := by rw [touched.seen, Bool.or_false]; exact h.seen
      used := fun hts => touched.used (.inl (h.used hts))
      finite := fun i hi => (touched.kept i (by omega)).trans (h.finite i hi)
      unset := fun hts => touched.e.trans (h.unset hts)
      least := fun hts => touched.e ▸ h.least hts
      value := by rw [touched.value, touched.e]; exact h.value }
  | frozen n s touched stuck =>
    rw [touched.kept 6 (by decide)] at inRange
    simp [Ledger.frozen, inRange] at stuck
  | @enters w n s touched =>
    obtain ⟨he, hv⟩ := enter_inRange w (x.flag 4) s n inRange
    have latched := latches_enter w (x.flag 4) s n
    have scale : (w.enter (x.flag 4) s n).e = if ts = [] then s else min x.e s := by
      rw [he, touched.e]
      by_cases hts : ts = [] <;> simp [h.seen, hts]
    have least := leastOf_append h.least n s
    rw [← scale] at least
    exact {
      seen := by simp [latched.1 4 (by decide), touched.seen]
      used := fun _ => (latched.1 2 (by decide)).trans (touched.used (.inr rfl))
      finite := fun i hi => (latched.1 i (by omega)).trans ((touched.kept i (by omega)).trans (h.finite i hi))
      unset := fun hts => by simp at hts
      least := fun _ => least
      value := by
        rw [termSum_append, termSum_singleton, scale, hv, touched.value, touched.e, h.value]
        by_cases hts : ts = []
        · simp [h.seen, hts]
        · have seen := h.seen.2 hts
          rw [if_neg hts, seen, if_pos rfl, if_pos rfl, termSum_rescale (h.least hts).2 (min_le_left _ _)] }

/-- Two Ledgers that hold the same terms in some order agree in value and exponent. -/
theorem Ledger.Holds.perm {e₀ : Int} {x y : Ledger} {ts us : List (Int × Int)} (a : x.Holds e₀ ts) (b : y.Holds e₀ us)
    (h : ts.Perm us) : y.value = x.value ∧ y.e = x.e := by
  have he : y.e = x.e := by
    by_cases hts : ts = []
    · rw [a.unset hts, b.unset (List.perm_nil.1 (hts ▸ h.symm))]
    · exact ((a.least hts).unique (b.least fun hus => hts (by simpa [hus] using h)) h).symm
  rw [a.value, b.value, he, termSum_perm h]
  exact ⟨rfl, rfl⟩

/-- A fold keeps what its steps keep, of the state and of all that its steps have added to a list. -/
theorem foldl_grows {α β σ : Type} {P : σ → List β → Prop} {f : σ → α → σ} (g : α → List β) {l : List α} {x : σ} {bs : List β}
    (step : ∀ x bs, ∀ a ∈ l, P x bs → P (f x a) (bs ++ g a)) (h : P x bs) : P (l.foldl f x) (bs ++ l.flatMap g) := by
  induction l generalizing x bs with
  | nil => simpa using h
  | cons a l ih =>
    rw [List.foldl_cons, List.flatMap_cons, ← List.append_assoc]
    exact ih (fun x bs b hb => step x bs b (List.mem_cons_of_mem _ hb)) (step x bs a (List.mem_cons_self ..) h)

/-- A Ledger of a mode whose residue agrees, and that while it is in range holds the terms. -/
structure Ledger.Tallies (m : Nat) (e₀ : Int) (x : Ledger) (ts : List (Int × Int)) : Prop where
  mode : x.mode = m
  agrees : x.Agrees
  holds : x.flag 6 = false → x.Holds e₀ ts

theorem Ledger.tallies_clear (x : Ledger) {m : Nat} (w : Int) (h : m ≠ 2) (h4 : m < 4) :
    (x.clear m w).Tallies m (x.clear m w).e [] :=
  ⟨x.mode_clear w h4, x.agrees_clear w h, fun _ => x.holds_clear w h⟩

theorem Ledger.Tallies.accepts {m : Nat} {e₀ : Int} {x y : Ledger} {ts us : List (Int × Int)} (h : x.Tallies m e₀ ts)
    (a : x.Accepts y us) : y.Tallies m e₀ (ts ++ us) :=
  ⟨a.mode.trans h.mode, a.agrees h.agrees, fun inRange => (h.holds (a.inRange inRange)).accepts a inRange⟩

/-- Operands of a list, each accepted. -/
theorem Ledger.Tallies.foldl {α : Type} {m : Nat} {e₀ : Int} {x : Ledger} {ts : List (Int × Int)} (h : x.Tallies m e₀ ts)
    (f : Ledger → α → Ledger) (g : α → List (Int × Int)) (l : List α)
    (step : ∀ x : Ledger, x.mode = m → ∀ a ∈ l, x.Accepts (f x a) (g a)) : (l.foldl f x).Tallies m e₀ (ts ++ l.flatMap g) :=
  foldl_grows g (fun x _ a ha hx => hx.accepts (step x hx.mode a ha)) h

/-! ### Exact mode (R44) -/

/-- A magnitude with its sign. -/
def signed (neg : Bool) (m : Nat) : Int := (if neg then (-1 : Int) else 1) * (m : Nat)

/-- The term that a product enters in exact mode: none for 0, else its units of 2^(scale - 64). -/
def exactEntry (p : Exact × Int) : List (Int × Int) :=
  match p.1 with
  | .fin neg m e => if m = 0 then [] else [(signed neg (m * 2 ^ (64 + e).toNat), p.2)]
  | _ => []

theorem shiftNat_nonneg (m : Nat) {k : Int} (h : 0 ≤ k) : shiftNat m k = m * 2 ^ k.toNat := by
  obtain ⟨n, rfl⟩ := Int.eq_ofNat_of_zero_le h
  rfl

theorem alignInt_eq_signed (neg : Bool) (m : Nat) (k : Int) : alignInt neg m k = signed neg (shiftNat m k) := by
  cases neg <;> simp [alignInt, signed]

/-- A product aligned to a scale no greater than its own. -/
theorem alignInt_scaled (neg : Bool) (m : Nat) {e S s : Int} (he : -64 ≤ e) (hS : S ≤ s) :
    alignInt neg m (64 + e + (s - S)) = signed neg (m * 2 ^ (64 + e).toNat) * (2 ^ (s - S).toNat : Nat) := by
  have split : (64 + e + (s - S)).toNat = (64 + e).toNat + (s - S).toNat := by omega
  rw [alignInt_eq_signed, shiftNat_nonneg m (by omega), split, Nat.pow_add, ← Nat.mul_assoc, signed, Int.natCast_mul,
    ← Int.mul_assoc]
  rfl

/-- In exact mode a finite product of no finer unit than 2^-64 enters as its term. -/
theorem Ledger.accepts_addProduct (x : Ledger) (hx : x.mode = 0) {p : Exact × Int}
    (hp : ∃ neg n e, p.1 = .fin neg n e ∧ -64 ≤ e) : x.Accepts (x.addProduct p.1 p.2) (exactEntry p) := by
  obtain ⟨v, s⟩ := p
  obtain ⟨neg, n, e, rfl, he⟩ := hp
  have touched := x.touched_touch neg n e
  have run : x.addProduct (.fin neg n e) s = x.addExact (.fin neg n e) s := by simp [Ledger.addProduct, hx]
  unfold exactEntry
  dsimp only
  rw [run, Ledger.addExact]
  by_cases hn : n = 0
  · subst hn
    exact .zero touched
  · rw [bne_iff_ne.2 hn] at touched
    rw [if_neg hn]
    cases stuck : x.frozen
    · have enters := Accepts.enters (signed neg (n * 2 ^ (64 + e).toNat)) s touched
      have scale : ((x.touch (.fin neg n e)).rebase (x.flag 4) s).e ≤ s := by
        rw [e_rebase]
        split_ifs
        · exact min_le_right _ _
        · exact le_rfl
      simpa [hn, Ledger.enter, alignInt_scaled neg n he scale] using enters
    · simpa [hn] using Accepts.frozen _ s touched stuck

/-- The least combined scale of the products is that of their terms. -/
theorem leastOf_exactEntry {ps : List (Exact × Int)} {S : Int} :
    LeastOf (ps.flatMap exactEntry) S ↔ leastScale ps S := by
  have entry (p : Exact × Int) (t : Int × Int) : t ∈ exactEntry p → nonZero p ∧ t.2 = p.2 := by
    obtain ⟨v, s⟩ := p
    cases v with
    | fin neg m e =>
      unfold exactEntry
      dsimp only
      split_ifs with hm
      · exact fun h => absurd h List.not_mem_nil
      · intro h
        rw [List.mem_singleton.1 h]
        exact ⟨⟨neg, m, e, rfl, hm⟩, rfl⟩
    | inf => exact fun h => absurd h List.not_mem_nil
    | nan => exact fun h => absurd h List.not_mem_nil
  have term (p : Exact × Int) : nonZero p → ∃ t ∈ exactEntry p, t.2 = p.2 := by
    rintro ⟨neg, m, e, hp, hm⟩
    exact ⟨(signed neg (m * 2 ^ (64 + e).toNat), p.2), by simp [exactEntry, hp, hm], rfl⟩
  simp only [LeastOf, leastScale, List.mem_flatMap]
  constructor
  · rintro ⟨⟨t, ⟨p, hp, ht⟩, rfl⟩, le⟩
    refine ⟨⟨p, hp, (entry p t ht).1, (entry p t ht).2.symm⟩, fun q hq hz => ?_⟩
    obtain ⟨u, hu, hs⟩ := term q hz
    exact hs ▸ le u ⟨q, hq, hu⟩
  · rintro ⟨⟨p, hp, hz, rfl⟩, le⟩
    obtain ⟨t, ht, hs⟩ := term p hz
    refine ⟨⟨t, ⟨p, hp, ht⟩, hs⟩, ?_⟩
    rintro u ⟨q, hq, hu⟩
    obtain ⟨hq0, hs⟩ := entry q u hu
    exact hs ▸ le q hq hq0

/-- The terms of finite products sum to the products' exact sum. -/
theorem termSum_exactEntry {ps : List (Exact × Int)} {S : Int} (hp : ∀ p ∈ ps, ∃ neg n e, p.1 = .fin neg n e ∧ -64 ≤ e)
    (le : ∀ p ∈ ps, nonZero p → S ≤ p.2) : termSum S (ps.flatMap exactEntry) = (ps.map (exactTerm S)).sum := by
  rw [termSum_flatMap]
  congr 1
  refine List.map_congr_left fun p hmem => ?_
  obtain ⟨neg, n, e, hv, he⟩ := hp p hmem
  by_cases hn : n = 0
  · simp [exactEntry, exactTerm, hv, hn]
  · have scale := le p hmem ⟨neg, n, e, hv, hn⟩
    have term := alignInt_scaled neg n he scale
    rw [alignInt_eq_signed, shiftNat_nonneg n (by omega)] at term
    simp only [exactEntry, exactTerm, hv, hn, if_false, termSum_singleton]
    exact term.symm

/-- The Ledger after a clear to exact mode and some products. -/
theorem Ledger.tallies_exact (r : Ledger) (E : Int) {ps : List (Exact × Int)}
    (hp : ∀ p ∈ ps, ∃ neg n e, p.1 = .fin neg n e ∧ -64 ≤ e) :
    (ps.foldl (fun y p => y.addProduct p.1 p.2) (r.clear 0 E)).Tallies 0 r.e (ps.flatMap exactEntry) := by
  have start := r.tallies_clear (m := 0) E (by decide) (by decide)
  rw [r.e_clear] at start
  exact start.foldl _ exactEntry ps fun x hx p hmem => x.accepts_addProduct hx (hp p hmem)

/-- The Ledger of products with a least scale, in range: their exact sum at that scale. -/
theorem Ledger.Holds.exact {e₀ : Int} {x : Ledger} {ps : List (Exact × Int)} {S : Int} (h : x.Holds e₀ (ps.flatMap exactEntry))
    (hp : ∀ p ∈ ps, ∃ neg n e, p.1 = .fin neg n e ∧ -64 ≤ e) (hS : leastScale ps S) :
    x.e = S ∧ x.value = (ps.map (exactTerm S)).sum := by
  have least := leastOf_exactEntry.2 hS
  have nonempty : ps.flatMap exactEntry ≠ [] := by
    obtain ⟨⟨t, ht, -⟩, -⟩ := least
    exact List.ne_nil_of_mem ht
  have scale : x.e = S := (h.least nonempty).unique least (.refl _)
  exact ⟨scale, by rw [h.value, scale, termSum_exactEntry hp hS.2]⟩

/-! ### Window mode (R48) -/

/-- A window Ledger of an exponent whose residue agrees, and that while it is in range holds the sum. -/
structure Ledger.Windows (E : Int) (x : Ledger) (ns : List Int) : Prop where
  mode : x.mode = 1
  agrees : x.Agrees
  holds : x.flag 6 = false → x.e = E ∧ x.value = ns.sum

theorem alignInt_window (neg : Bool) (m : Nat) (k : Int) :
    alignInt neg m k = signed neg (m * 2 ^ k.toNat / 2 ^ (-k).toNat) := by
  rw [alignInt_eq_signed]
  cases k with
  | ofNat n => simp [shiftNat]
  | negSucc n => simp [shiftNat, Int.neg_negSucc]

/-- In window mode a finite product adds its truncated magnitude. -/
theorem Ledger.Windows.addProduct {E : Int} {x : Ledger} {ns : List Int} (h : x.Windows E ns) {p : Exact × Int}
    (hp : ∃ neg n e, p.1 = .fin neg n e) : (x.addProduct p.1 p.2).Windows E (ns ++ [windowTerm E p]) := by
  obtain ⟨v, s⟩ := p
  obtain ⟨neg, n, e, rfl⟩ := hp
  have touched := x.touched_touch neg n e
  have run : x.addProduct (.fin neg n e) s = x.addWindow (.fin neg n e) := by simp [Ledger.addProduct, h.mode]
  have keeps (still : x.flag 6 = false → windowTerm E (.fin neg n e, s) = 0) :
      (x.touch (.fin neg n e)).Windows E (ns ++ [windowTerm E (.fin neg n e, s)]) := by
    refine ⟨touched.mode.trans h.mode, touched.agrees h.agrees, fun hr => ?_⟩
    rw [touched.kept 6 (by decide)] at hr
    obtain ⟨he, hv⟩ := h.holds hr
    exact ⟨touched.e.trans he, by simp [touched.value, hv, still hr]⟩
  rw [run, Ledger.addWindow]
  dsimp only
  split
  case isTrue idle =>
    refine keeps fun hr => ?_
    rcases Bool.or_eq_true_iff.1 idle with hn | stuck
    · simp [windowTerm, of_decide_eq_true hn]
    · simp [Ledger.frozen, hr] at stuck
  case isFalse =>
    generalize hw : (if hasFraction n (64 + e - (x.touch (.fin neg n e)).e) = true
      then (x.touch (.fin neg n e)).setFlag 5 true else x.touch (.fin neg n e)) = w
    have same : w.mode = x.mode ∧ w.Agrees ∧ w.e = x.e ∧ w.value = x.value ∧ w.flag 6 = x.flag 6 := by
      subst hw
      have six := touched.kept 6 (by decide)
      split
      · refine ⟨(mode_congr fun i hi => ?_).trans touched.mode, touched.agrees h.agrees, touched.e, touched.value, ?_⟩
        · rw [flag_setFlag _ _ _ (by decide), if_neg (by omega)]
        · rw [flag_setFlag _ _ _ (by decide), if_neg (by decide), six]
      · exact ⟨touched.mode, touched.agrees h.agrees, touched.e, touched.value, six⟩
    obtain ⟨mode, agrees, we, wv, six⟩ := same
    have latched := latches_addAligned w (alignInt neg n (64 + e - (x.touch (.fin neg n e)).e))
    refine ⟨latched.mode.trans (mode.trans h.mode), agrees.addAligned _, fun hr => ?_⟩
    obtain ⟨he, hv⟩ := addAligned_inRange _ _ hr
    obtain ⟨xe, xv⟩ := h.holds (six ▸ latched.2 hr)
    refine ⟨he.trans (we.trans xe), ?_⟩
    rw [hv, wv, xv, touched.e, xe, alignInt_window, List.sum_append, List.sum_singleton]
    have neg64 : -(64 + e - E) = E - 64 - e := by omega
    rw [neg64]
    rfl

/-- The Ledger after a clear to window mode and some finite products. -/
theorem Ledger.windows_foldl (r : Ledger) (E : Int) {ps : List (Exact × Int)}
    (hp : ∀ p ∈ ps, ∃ neg n e, p.1 = .fin neg n e) :
    (ps.foldl (fun y p => y.addProduct p.1 p.2) (r.clear 1 E)).Windows E (ps.map (windowTerm E)) := by
  have start : (r.clear 1 E).Windows E [] :=
    ⟨r.mode_clear E (by decide), r.agrees_clear E (by decide), fun _ => ⟨r.e_clear 1 E, r.value_clear E (by decide)⟩⟩
  have all := foldl_grows (fun p => [windowTerm E p]) (fun x ns p hmem hx => hx.addProduct (hp p hmem)) start (l := ps)
  rwa [List.nil_append, ← List.map_eq_flatMap] at all

end Sys2Proof.Machine
end

section
/-! The E slot's accumulation (02 R42-R48, R67, 03 R91-R97): products, clears, slices and their sums. -/

namespace Sys2Proof.Machine

/-- The execution fault of a Ledger whose mode does not suit the slot, where there is one (R95). -/
def State.modeFault (s : State) (x : Slot) (lane : Option Nat) : State :=
  lane.elim s fun l => s.execFault x 0x03 (some l) 0

theorem calmMoves_modeFault {s : State} (x : Slot) (lane : Option Nat) {calm : Prop} (hl : Live s x.g)
    (quiet : calm → lane = none) : CalmMoves x.g s (s.modeFault x lane) id calm := by
  cases lane with
  | none => exact CalmMoves.refl x.g s calm
  | some l =>
    have faults : SameRun s (s.modeFault x (some l)) := sameRun_execFault x 0x03 (some l) 0 hl
    exact .faulting faults fun hc => nomatch quiet hc

/-- A slot that names its heads, enters results and then faults where a mode does not suit it. -/
theorem slotLands_modeFault {s : State} {i : Issue} {acts : Bool} {ns : List Naming} (ls : List Landing) (lane : Option Nat)
    {calm : Prop} (hi : Issues s i) (quiet : calm → lane = none) :
    SlotLands i.cluster.toNat s (((s.named i 0 acts ns).land i.cluster.toNat ls).modeFault (slotOf s i) lane) acts ns ls calm :=
  have landed := calmMoves_land (s.named i 0 acts ns) i.cluster.toNat ls calm
  (landed.trans (calmMoves_modeFault (slotOf s i) lane (landed.live (live_named hi 0 acts ns)) quiet)).slotChanges hi

/-- What EMAC and EMACC enter in the active lanes (R43, R93). -/
def emacLandings (x : Slot) (o : EmacOps) (clear : Bool) : List Landing :=
  x.lanes.flatMap fun l => (emacLane o clear x.c l).1

/-- EMAC and EMACC in a cluster that can issue. -/
theorem emac_eq {i : Issue} {s : State} (hi : Issues s i) (o : EmacOps) (clear : Bool) :
    let x := slotOf s i
    s.emac i o clear =
      ((s.named i 0 x.acts (namesV o.srcA.toNat ++ namesV o.srcB.toNat)).land i.cluster.toNat
        (emacLandings x o clear)).modeFault x (x.lanes.find? fun l => (emacLane o clear x.c l).2) := by
  intro x
  unfold State.emac
  rw [issue_eq _ hi]
  dsimp only
  rw [List.flatMap_map, List.find?_map]
  simp only [Function.comp_def]
  cases x.lanes.find? fun l => (emacLane o clear x.c l).2 <;> rfl

/-- What EMAC and EMACC do, but for the execution fault of a Ledger whose mode does not fit (R95). -/
theorem slotLands_emac {i : Issue} {s : State} (hi : Issues s i) (o : EmacOps) (clear : Bool) :
    let x := slotOf s i
    SlotLands i.cluster.toNat s (s.emac i o clear) x.acts (namesV o.srcA.toNat ++ namesV o.srcB.toNat)
      (emacLandings x o clear)
      (∀ l ∈ x.lanes, ∀ e ≤ o.elast.toNat, ∀ r ∈ (x.c.lane l).ledgers e, r.modeFits (o.fmtA == 7#4) = true) := by
  intro x
  rw [emac_eq hi]
  refine slotLands_modeFault _ _ hi fun fits => List.find?_eq_none.2 fun l hl => ?_
  simp only [emacLane, List.any_eq_true, List.mem_range, Bool.not_eq_true']
  rintro ⟨e, he, r, hr, misfit⟩
  rw [fits l hl e (by omega) r hr] at misfit
  cases misfit

/-- What an ESLICE enters in the active lanes (R67). -/
def sliceLandings (x : Slot) (elast sstep : BitVec 3) (srcA srcB : BitVec 6) : List Landing :=
  x.lanes.flatMap fun l => (List.range (elast.toNat + 1)).map fun e =>
    ⟨1, .ledgers l e (((x.c.lane l).ledgers e).zipIdx.map fun p =>
      if p.1.mode = 3 then
        p.1.sliceStep (p.2 % 4) sstep.toNat ((x.c.vop l srcA.toNat).extractLsb' (64 * e) 64)
          ((x.c.vop l srcB.toNat).extractLsb' (64 * (p.2 / 4)) 64)
      else p.1)⟩

/-- ESLICE in a cluster that can issue. -/
theorem eslice_eq {i : Issue} {s : State} (hi : Issues s i) (elast sstep : BitVec 3) (srcA srcB : BitVec 6) :
    let x := slotOf s i
    s.eslice i elast sstep srcA srcB =
      ((s.named i 0 x.acts (namesV srcA.toNat ++ namesV srcB.toNat)).land i.cluster.toNat
        (sliceLandings x elast sstep srcA srcB)).modeFault x (x.lanes.find? fun l =>
          (List.range (elast.toNat + 1)).any fun e => ((x.c.lane l).ledgers e).any (·.mode != 3)) := by
  intro x
  unfold State.eslice
  rw [issue_eq _ hi]
  dsimp only
  cases x.lanes.find? fun l => (List.range (elast.toNat + 1)).any fun e => ((x.c.lane l).ledgers e).any (·.mode != 3) <;> rfl

/-- What an ESLICE does, but for the fault of a Ledger in another mode. -/
theorem slotLands_eslice {i : Issue} {s : State} (hi : Issues s i) (elast sstep : BitVec 3) (srcA srcB : BitVec 6) :
    let x := slotOf s i
    SlotLands i.cluster.toNat s (s.eslice i elast sstep srcA srcB) x.acts (namesV srcA.toNat ++ namesV srcB.toNat)
      (sliceLandings x elast sstep srcA srcB)
      (∀ l ∈ x.lanes, ∀ e ≤ elast.toNat, ∀ r ∈ (x.c.lane l).ledgers e, r.mode = 3) := by
  intro x
  rw [eslice_eq hi]
  refine slotLands_modeFault _ _ hi fun sliced => List.find?_eq_none.2 fun l hl => ?_
  simp only [List.any_eq_true, List.mem_range, bne_iff_ne]
  rintro ⟨e, he, r, hr, other⟩
  exact other (sliced l hl e (by omega) r hr)

/-- What an ECLR enters in the active lanes (R42, R97). -/
def clearLandings (x : Slot) (emask : BitVec 8) (mode : BitVec 2) (w : BitVec 10) : List Landing :=
  x.lanes.flatMap fun l => ((List.range 8).filter fun e => emask.getLsbD e).map fun e =>
    ⟨1, .ledgers l e (((x.c.lane l).ledgers e).map (·.clear mode.toNat w.toInt))⟩

theorem slotLands_eclr {i : Issue} {s : State} (hi : Issues s i) (emask : BitVec 8) (mode : BitVec 2) (w : BitVec 10) :
    SlotLands i.cluster.toNat s (s.eclr i emask mode w) (slotOf s i).acts [] (clearLandings (slotOf s i) emask mode w) :=
  slotLands_of hi 0 Slot.acts (fun _ => []) fun x => clearLandings x emask mode w

/-- The sum of products in a Ledger cleared to exact or window mode: residue, exact sum, window sum, any order. -/
theorem sum_addProduct (r : Ledger) (ps qs : List (Exact × Int)) (m : Nat) (E : Int) (hm : m < 2)
    (hp : ∀ p ∈ ps, ∃ neg n e, p.1 = .fin neg n e ∧ (m = 0 → -64 ≤ e)) :
    let sum (ps : List (Exact × Int)) : Ledger := ps.foldl (fun y p => y.addProduct p.1 p.2) (r.clear m E)
    (sum ps).residueOk = true ∧
    ((sum ps).flag 6 = false → m = 0 → ∀ S, leastScale ps S → (sum ps).e = S ∧ (sum ps).value = (ps.map (exactTerm S)).sum) ∧
    ((sum ps).flag 6 = false → m = 1 → (sum ps).e = E ∧ (sum ps).value = (ps.map (windowTerm E)).sum) ∧
    (ps.Perm qs → (sum ps).flag 6 = false → (sum qs).flag 6 = false →
      (sum qs).l = (sum ps).l ∧ (sum qs).e = (sum ps).e ∧ (sum qs).residue = (sum ps).residue) := by
  have same {x y : Ledger} (hx : x.Agrees) (hy : y.Agrees) (h : y.value = x.value ∧ y.e = x.e) :
      y.l = x.l ∧ y.e = x.e ∧ y.residue = x.residue := ⟨Ledger.eq_of_value h.1, h.2, hy.residue_eq hx h.1⟩
  rcases (by omega : m = 0 ∨ m = 1) with rfl | rfl
  · have fin : ∀ p ∈ ps, ∃ neg n e, p.1 = .fin neg n e ∧ -64 ≤ e := fun p h => by simpa using hp p h
    have held := r.tallies_exact E fin
    refine ⟨held.agrees.residueOk, fun hr _ S hS => (held.holds hr).exact fin hS, nofun, fun perm hr hq => ?_⟩
    have other := r.tallies_exact E fun q h => fin q (perm.mem_iff.2 h)
    exact same held.agrees other.agrees ((held.holds hr).perm (other.holds hq) (perm.flatMap_right _))
  · have fin : ∀ p ∈ ps, ∃ neg n e, p.1 = .fin neg n e := fun p h =>
      have ⟨neg, n, e, hv, _⟩ := hp p h
      ⟨neg, n, e, hv⟩
    have held := r.windows_foldl E fin
    refine ⟨held.agrees.residueOk, nofun, fun hr _ => held.holds hr, fun perm hr hq => ?_⟩
    have other := r.windows_foldl E fun q h => fin q (perm.mem_iff.2 h)
    obtain ⟨pe, pv⟩ := held.holds hr
    obtain ⟨qe, qv⟩ := other.holds hq
    exact same held.agrees other.agrees ⟨by rw [pv, qv, (perm.map _).sum_eq], qe.trans pe.symm⟩

/-- Settles O8: the slots by what each enters, the sum by what a Ledger holds of the terms that it accepted. -/
theorem engineAccumulate : Obligations.EngineAccumulate := by
  intro i o emask mode w elast sstep srcA srcB s
  exact ⟨fun _ hi => ⟨_, rfl, slotLands_empty hi _⟩,
    slotRuns_of rfl fun hi => slotLands_emac hi o false,
    slotRuns_of rfl fun hi => slotLands_emac hi o true,
    slotRuns_of rfl fun hi => slotLands_eclr hi emask mode w,
    slotRuns_of rfl fun hi => slotLands_eslice hi elast sstep srcA srcB,
    fun r ps qs m E hm hp => sum_addProduct r ps qs m E hm hp⟩

end Sys2Proof.Machine
end

section
/-! ERD (02 R43, R51-R59, R63-R69): the readout, and what the readout of an exact Ledger rounds. -/

namespace Sys2Proof.Machine

/-- Residue faults of a lane, none where no check fails. -/
theorem calmMoves_residueFaults {s : State} (x : Slot) (lane acc : Nat) (bad : List ResFault) {calm : Prop}
    (hl : Live s x.g) (quiet : calm → bad = []) : CalmMoves x.g s (s.residueFaults x lane acc bad) id calm :=
  .faulting (sameRun_residueFaults x lane acc bad hl) fun hc => by rw [quiet hc]; rfl

/-- What an ERD makes of a lane: Ledgers, registers, failed checks. -/
def readOut (x : Slot) (acc : BitVec 3) (r : Rctl) (g : BitVec 32) (l : Nat) :
    List Ledger × List (BitVec 512) × List ResFault :=
  readLane r (fun j => (srWord g (l * 32 + j)).toNat) (x.c.badRounders l acc.toNat) ((x.c.lane l).ledgers acc.toNat)

/-- No check of an ERD fails in an active lane. -/
def ReadsClean (x : Slot) (acc : BitVec 3) (r : Rctl) (g : BitVec 32) : Prop := ∀ l ∈ x.lanes, (readOut x acc r g l).2.2 = []

/-- The beats of a readout (R82). -/
def readBeats (r : Rctl) : Nat := if r.fmt = 0xA then 8 else 4

/-- What an ERD enters for one lane. -/
def readLandings (x : Slot) (acc : BitVec 3) (vd : BitVec 5) (r : Rctl) (g : BitVec 32) (l : Nat) : List Landing :=
  ⟨1, .ledgers l acc.toNat (readOut x acc r g l).1⟩ ::
    (readOut x acc r g l).2.1.zipIdx.map fun p => ⟨readBeats r, .vreg l (vd.toNat + p.2) p.1⟩

/-- One lane of an ERD: its results, then its faults. -/
def State.readOne (x : Slot) (acc : BitVec 3) (vd : BitVec 5) (r : Rctl) (g : BitVec 32) (s : State) (l : Nat) : State :=
  (s.land x.g (readLandings x acc vd r g l)).residueFaults x l acc.toNat (readOut x acc r g l).2.2

/-- ERD in a cluster that can issue: the generator, the place in the pipeline, the lanes. -/
theorem erd_eq {i : Issue} {s : State} (hi : Issues s i) (acc : BitVec 3) (vd : BitVec 5) (rctl : BitVec 20) :
    let x := slotOf s i
    let r := rctlOf rctl
    let drawn := (s.named i 0 x.acts []).drawSr i.cluster.toNat r.rnd
    s.erd i acc vd rctl =
      x.lanes.foldl (State.readOne x acc vd r drawn.1) (drawn.2.land i.cluster.toNat [drainMark (readBeats r)]) :=
  issue_eq _ hi

theorem calmMoves_readOne {s : State} (x : Slot) (acc : BitVec 3) (vd : BitVec 5) (r : Rctl) (g : BitVec 32) (l : Nat)
    {calm : Prop} (hl : Live s x.g) (quiet : calm → (readOut x acc r g l).2.2 = []) :
    CalmMoves x.g s (s.readOne x acc vd r g l) (entered (readLandings x acc vd r g l)) calm :=
  have landed := calmMoves_land s x.g (readLandings x acc vd r g l) calm
  landed.trans (calmMoves_residueFaults x l acc.toNat _ (landed.live hl) quiet)

/-- What an ERD does in a cluster that can issue. -/
theorem slotChanges_erd {i : Issue} {s : State} (hi : Issues s i) (acc : BitVec 3) (vd : BitVec 5) (rctl : BitVec 20) :
    let x := slotOf s i
    let r := rctlOf rctl
    let g := if r.rnd = 4 then srStep x.c.sr else 0#32
    SlotChanges i.cluster.toNat s (s.erd i acc vd rctl) x.acts []
      (fun c => { c with
        sr := if r.rnd = 4 then srStep c.sr else c.sr
        pend := c.pend ++ drainMark (readBeats r) :: x.lanes.flatMap (readLandings x acc vd r g) })
      (ReadsClean x acc r g) := by
  intro x r g
  obtain ⟨word, steps⟩ := drawSr_eq (s.named i 0 x.acts []) i.cluster.toNat r.rnd (ReadsClean x acc r g)
  rw [cluster_named hi, sr_namedBy] at word
  have marked := steps.trans (calmMoves_land _ i.cluster.toNat [drainMark (readBeats r)] _)
  have lanes := calmMoves_foldl (calm := ReadsClean x acc r g) (State.readOne x acc vd r g) (readLandings x acc vd r g) x.lanes
    (fun u hu l hl => calmMoves_readOne x acc vd r g l hu fun hc => hc l hl) (marked.live (live_named hi 0 x.acts []))
  rw [erd_eq hi, word]
  refine CalmMoves.slotChanges hi ((marked.trans lanes).congr (funext fun c => ?_))
  rw [entered_entered]
  rfl

/-- A Ledger that in range holds a sum other than 0 delivers that sum, rounded (R51, R54). -/
theorem Ledger.Holds.readElement {e₀ : Int} {x : Ledger} {ts : List (Int × Int)} (h : x.Holds e₀ ts) (hm : x.mode ≠ 2)
    (inRange : x.flag 6 = false) (hts : ts ≠ []) (hv : x.value ≠ 0) (c : Rctl) (sr : Nat) :
    x.readElement c sr =
      roundCode c.fmt c.rnd c.sat sr ((Exact.fin (decide (x.value < 0)) x.value.natAbs (x.e - 64)).scale c.shift) := by
  have row : x.classify c.rnd = (.fin (decide (x.value < 0)) x.value.natAbs (x.e - 64), false) := by
    simp [Ledger.classify, h.used hts, hm, inRange, hv, h.finite 7 (by decide), h.finite 8 (by decide), h.finite 9 (by decide)]
  simp [Ledger.readElement, row]

/-- A readout of an exact Ledger in range rounds the exact sum of its products (R47, R51, R54). -/
theorem readElement_exact (y : Ledger) {ps : List (Exact × Int)} {S : Int} (c : Rctl) (sr : Nat)
    (hp : ∀ p ∈ ps, ∃ neg n e, p.1 = .fin neg n e ∧ -64 ≤ e) (hS : leastScale ps S) :
    let held := ps.foldl (fun y p => y.addProduct p.1 p.2) (y.clear 0 0)
    let sum := (ps.map (exactTerm S)).sum
    held.flag 6 = false → sum ≠ 0 →
      held.readElement c sr =
        roundCode c.fmt c.rnd c.sat sr ((Exact.fin (decide (sum < 0)) sum.natAbs (S - 64)).scale c.shift) := by
  intro held sum inRange hsum
  have tallied : held.Tallies 0 y.e _ := y.tallies_exact 0 hp
  have holds := tallied.holds inRange
  obtain ⟨he, hv : held.value = sum⟩ := holds.exact hp hS
  have nonempty : ps.flatMap exactEntry ≠ [] := fun empty => hsum (by rw [← hv, holds.value, empty, termSum_nil])
  rw [holds.readElement (by rw [tallied.mode]; decide) inRange nonempty (hv ▸ hsum) c sr, he, hv]

end Sys2Proof.Machine
end

section
/-! Slice mode (02 R66, R67, R69): the four Ledgers of a group, fed every step of every term, recombine to the exact sum
of the products of the significands. -/

namespace Sys2Proof.Machine

/-! ### One product from its slices -/

/-- What step n contributes in lane q of a group to the product of two numbers given by their slices (R67). -/
def sliceTerm (q n : Nat) (A B : Nat → Int) : Int :=
  if q = 0 then A n * B n * (2 ^ (8 * n) : Nat)
  else
    let (i, j) := slicePair q n
    (A i - A j) * (B i - B j) * (2 ^ (8 * (i + j) - sliceBase q) : Nat)

/-- Z of R69 from the values of the four Ledgers. -/
def recombine (v : Nat → Int) : Int := sliceSigma * v 0 - 2 ^ 8 * v 1 - 2 ^ 40 * v 2 - 2 ^ 56 * v 3

/-- A number from its seven slices. -/
def fromSlices (A : Nat → Int) : Int := ((List.range 7).map fun i => A i * (2 ^ (8 * i) : Nat)).sum

/-- The four Ledgers' sums over the seven steps recombine to the product: for i < j, a_i b_j + a_j b_i is
a_i b_i + a_j b_j - (a_i - a_j) (b_i - b_j), the first two counted by σ, the last by the pair's Q lane (R67, R69). -/
theorem recombine_sliceTerm (A B : Nat → Int) :
    recombine (fun q => ((List.range 7).map fun n => sliceTerm q n A B).sum) = fromSlices A * fromSlices B := by
  have steps : List.range 7 = [0, 1, 2, 3, 4, 5, 6] := rfl
  simp only [recombine, fromSlices, steps, List.map_cons, List.map_nil, List.sum_cons, List.sum_nil, sliceTerm, slicePair,
    sliceBase, sliceSigma, if_true, one_ne_zero, OfNat.ofNat_ne_zero, if_false]
  norm_num
  ring

/-- A significand of at most 56 bits is the number of its slices. -/
theorem fromSlices_sliceOf {m : Nat} (h : m < 2 ^ 56) : fromSlices (sliceOf m) = m := by
  have steps : List.range 7 = [0, 1, 2, 3, 4, 5, 6] := rfl
  simp only [fromSlices, steps, List.map_cons, List.map_nil, List.sum_cons, List.sum_nil, sliceOf]
  norm_num
  omega

/-- Recombination is linear. -/
theorem recombine_sum {α : Type} (f : Nat → α → Int) (l : List α) :
    recombine (fun q => (l.map (f q)).sum) = (l.map fun a => recombine fun q => f q a).sum := by
  induction l with
  | nil => rfl
  | cons a l ih =>
    rw [List.map_cons, List.sum_cons, ← ih]
    simp only [recombine, List.map_cons, List.sum_cons]
    ring

theorem recombine_mul (c d : Int) (v : Nat → Int) : recombine (fun q => c * v q * d) = c * recombine v * d := by
  simp only [recombine]
  ring

/-! ### Operands and steps -/

/-- The sign of a product of two operands. -/
def signOf (p : BitVec 64 × BitVec 64) : Int := if p.1.msb = p.2.msb then 1 else -1

/-- The product of the significands of two operands. -/
def significands (p : BitVec 64 × BitVec 64) : Nat := (sliceOperand p.1).1 * (sliceOperand p.2).1

/-- The ulp-exponent sum of two operands. -/
def ulps (p : BitVec 64 × BitVec 64) : Int := (sliceOperand p.1).2 + (sliceOperand p.2).2

/-- The slice product that lane q takes in step n (R67). -/
def sliceProduct (q : Nat) (p : BitVec 64 × BitVec 64) (n : Nat) : Int :=
  signOf p * sliceTerm q n (sliceOf (sliceOperand p.1).1) (sliceOf (sliceOperand p.2).1)

/-- The term that step n of two operands enters in lane q: none for a product that is 0. -/
def sliceEntry (q : Nat) (p : BitVec 64 × BitVec 64) (n : Nat) : List (Int × Int) :=
  if significands p = 0 then [] else [(sliceProduct q p n, ulps p)]

theorem sliceOperand_lt (x : BitVec 64) : (sliceOperand x).1 < 2 ^ 56 := by
  have low := (x.extractLsb' 0 52).isLt
  unfold sliceOperand
  dsimp only
  split_ifs <;> omega

/-- An operand that is no infinity and no NaN is its significand at some exponent (R66). -/
theorem decodeFloat_sliceOperand (x : BitVec 64) (h : x.extractLsb' 52 11 ≠ 0x7FF#11) :
    ∃ neg e, decodeFloat ⟨11, 52, 1023, true, false⟩ x.toNat = .fin neg (sliceOperand x).1 e := by
  have be : x.toNat / 2 ^ 52 % 2 ^ 11 = (x.extractLsb' 52 11).toNat := by
    simp [BitVec.extractLsb'_toNat, Nat.shiftRight_eq_div_pow]
  have frac : x.toNat % 2 ^ 52 = (x.extractLsb' 0 52).toNat := by simp [BitVec.extractLsb'_toNat]
  have finite : (x.extractLsb' 52 11).toNat ≠ 2 ^ 11 - 1 := fun e => h (BitVec.eq_of_toNat_eq e)
  unfold decodeFloat sliceOperand
  simp only [be, frac, Bool.true_and, Bool.false_and, beq_iff_eq, finite, if_false, Bool.false_eq_true]
  split <;> exact ⟨_, _, rfl⟩

/-- A step of finite operands enters its term (R67). -/
theorem Ledger.accepts_sliceStep (x : Ledger) (q n : Nat) {p : BitVec 64 × BitVec 64}
    (h : p.1.extractLsb' 52 11 ≠ 0x7FF#11 ∧ p.2.extractLsb' 52 11 ≠ 0x7FF#11) :
    x.Accepts (x.sliceStep q n p.1 p.2) (sliceEntry q p n) := by
  obtain ⟨na, ea, fa⟩ := decodeFloat_sliceOperand p.1 h.1
  obtain ⟨nb, eb, fb⟩ := decodeFloat_sliceOperand p.2 h.2
  have sign : (if p.1.msb != p.2.msb then (-1 : Int) else 1) = signOf p := by
    by_cases same : p.1.msb = p.2.msb <;> simp [signOf, same]
  have run : x.sliceStep q n p.1 p.2 =
      x.addSlice (q == 0) (.fin (na != nb) (significands p) (ea + eb)) (sliceProduct q p n) (ulps p) := by
    unfold Ledger.sliceStep
    rw [fa, fb]
    dsimp only
    rw [sign]
    congr 1
    unfold sliceProduct sliceTerm
    split_ifs <;> ring
  have touched := x.touched_touch (na != nb) (significands p) (ea + eb)
  rw [run, Ledger.addSlice, sliceEntry]
  dsimp only
  by_cases zero : significands p = 0
  · rw [if_pos zero, if_pos zero]
    rw [zero] at touched
    split
    · rw [zero]; exact .zero touched
    · exact .zero (.refl x)
  · rw [if_neg zero, if_neg zero]
    rw [bne_iff_ne.2 zero] at touched
    cases stuck : x.frozen
    · exact .enters _ _ touched
    · exact .frozen _ _ touched stuck

/-! ### The group -/

/-- The Ledger of lane q after a clear to slice mode and every step of every term. -/
def sliceHeld (y : Ledger) (ts : List (BitVec 64 × BitVec 64)) (q : Nat) : Ledger :=
  ts.foldl (fun x p => (List.range 7).foldl (fun x n => x.sliceStep q n p.1 p.2) x) (y.clear 3 0)

/-- The terms that it accepted. -/
def sliceTerms (ts : List (BitVec 64 × BitVec 64)) (q : Nat) : List (Int × Int) :=
  ts.flatMap fun p => (List.range 7).flatMap (sliceEntry q p)

theorem tallies_sliceHeld (y : Ledger) {ts : List (BitVec 64 × BitVec 64)} (q : Nat)
    (hts : ∀ p ∈ ts, p.1.extractLsb' 52 11 ≠ 0x7FF#11 ∧ p.2.extractLsb' 52 11 ≠ 0x7FF#11) :
    (sliceHeld y ts q).Tallies 3 (y.clear 3 0).e (sliceTerms ts q) :=
  foldl_grows (P := Ledger.Tallies 3 (y.clear 3 0).e) (fun p => (List.range 7).flatMap (sliceEntry q p))
    (fun _ _ p hp hx => hx.foldl (fun x n => x.sliceStep q n p.1 p.2) (sliceEntry q p) _ fun x _ n _ =>
      x.accepts_sliceStep q n (hts p hp))
    (y.tallies_clear 0 (by decide) (by decide))

/-- Every lane's terms have the same scales. -/
theorem scales_sliceTerms (ts : List (BitVec 64 × BitVec 64)) (q : Nat) :
    (sliceTerms ts q).map (·.2) = (sliceTerms ts 0).map (·.2) := by
  simp only [sliceTerms, List.map_flatMap]
  congr 1
  funext p
  congr 1
  funext n
  unfold sliceEntry
  split_ifs <;> rfl

/-- Terms of the same scales have the same least scale. -/
theorem LeastOf.congr {ts us : List (Int × Int)} {S : Int} (h : ts.map (·.2) = us.map (·.2)) (a : LeastOf ts S) :
    LeastOf us S := by
  obtain ⟨⟨t, ht, rfl⟩, le⟩ := a
  have scale : t.2 ∈ us.map (·.2) := h ▸ List.mem_map_of_mem ht
  refine ⟨List.mem_map.1 scale, fun v hv => ?_⟩
  have other : v.2 ∈ ts.map (·.2) := h ▸ List.mem_map_of_mem hv
  obtain ⟨w, hw, hs⟩ := List.mem_map.1 other
  exact hs ▸ le w hw

/-- One pair of operands, over its seven steps, in lane q. -/
theorem termSum_sliceEntry (u : Int) (q : Nat) (p : BitVec 64 × BitVec 64) :
    termSum u ((List.range 7).flatMap (sliceEntry q p)) =
      if significands p = 0 then 0
      else signOf p * ((List.range 7).map fun n =>
        sliceTerm q n (sliceOf (sliceOperand p.1).1) (sliceOf (sliceOperand p.2).1)).sum * (2 ^ (ulps p - u).toNat : Nat) := by
  rw [termSum_flatMap]
  unfold sliceEntry
  split_ifs
  · simp
  · simp only [termSum_singleton, sliceProduct]
    rw [List.sum_map_mul_right, List.sum_map_mul_left]

/-- The sums of the four lanes recombine to the sum of the products (R69). -/
theorem recombine_sliceTerms (u : Int) (ts : List (BitVec 64 × BitVec 64)) :
    recombine (fun q => termSum u (sliceTerms ts q)) =
      (ts.map fun p => signOf p * (significands p : Nat) * (2 ^ (ulps p - u).toNat : Nat)).sum := by
  have lanes (q : Nat) : termSum u (sliceTerms ts q) =
      (ts.map fun p => termSum u ((List.range 7).flatMap (sliceEntry q p))).sum := termSum_flatMap u _ ts
  rw [funext lanes, recombine_sum]
  congr 1
  refine List.map_congr_left fun p _ => ?_
  simp only [termSum_sliceEntry]
  by_cases zero : significands p = 0
  · simp [zero, recombine]
  · simp only [zero, if_false]
    rw [recombine_mul, recombine_sliceTerm, fromSlices_sliceOf (sliceOperand_lt p.1), fromSlices_sliceOf (sliceOperand_lt p.2),
      significands, Int.natCast_mul]

/-- A group whose Ledgers stay in range: their common exponent, and what they recombine to (R69). -/
theorem sliceSum_sliceHeld (y : Ledger) {ts : List (BitVec 64 × BitVec 64)} {u : Int}
    (hts : ∀ p ∈ ts, p.1.extractLsb' 52 11 ≠ 0x7FF#11 ∧ p.2.extractLsb' 52 11 ≠ 0x7FF#11)
    (inRange : ∀ q < 4, (sliceHeld y ts q).flag 6 = false)
    (hu : sliceExp (sliceHeld y ts 0) (sliceHeld y ts 1) (sliceHeld y ts 2) (sliceHeld y ts 3) = some u) :
    sliceSum (sliceHeld y ts 0) (sliceHeld y ts 1) (sliceHeld y ts 2) (sliceHeld y ts 3) u =
      (ts.map fun p => signOf p * (significands p : Nat) * (2 ^ (ulps p - u).toNat : Nat)).sum := by
  have holds (q : Nat) (hq : q < 4) := (tallies_sliceHeld y q hts).holds (inRange q hq)
  have emptyIff (q : Nat) : sliceTerms ts q = [] ↔ sliceTerms ts 0 = [] := by
    rw [← List.map_eq_nil_iff (f := (·.2)), scales_sliceTerms, List.map_eq_nil_iff]
  by_cases noTerm : sliceTerms ts 0 = []
  · have unseen (q : Nat) (hq : q < 4) : (sliceHeld y ts q).flag 4 = false :=
      Bool.eq_false_iff.2 fun seen => (holds q hq).seen.1 seen ((emptyIff q).2 noTerm)
    simp [sliceExp, unseen] at hu
  · have seen (q : Nat) (hq : q < 4) : (sliceHeld y ts q).flag 4 = true := (holds q hq).seen.2 fun h => noTerm ((emptyIff q).1 h)
    have common (q : Nat) (hq : q < 4) : (sliceHeld y ts q).e = (sliceHeld y ts 0).e :=
      (((holds q hq).least fun h => noTerm ((emptyIff q).1 h)).congr (scales_sliceTerms ts q)).unique
        ((holds 0 (by decide)).least noTerm) (.refl _)
    have first : (sliceHeld y ts 0).e = u := by
      simpa [sliceExp, seen, common, List.min?] using hu
    have aligned (q : Nat) (hq : q < 4) : (sliceHeld y ts q).alignedTo u = termSum u (sliceTerms ts q) := by
      have he : (sliceHeld y ts q).e = u := (common q hq).trans first
      rw [Ledger.alignedTo, if_pos (seen q hq), (holds q hq).value, he]
      simp
    rw [sliceSum, aligned 0 (by decide), aligned 1 (by decide), aligned 2 (by decide), aligned 3 (by decide)]
    exact recombine_sliceTerms u ts

/-- Settles O9: the readout slot, the readout of an exact Ledger, the recombination of a slice group. -/
theorem engineRead : Obligations.EngineRead := by
  intro i acc vd rctl s x r g beats out
  exact ⟨slotRuns_of rfl fun hi => slotChanges_erd hi acc vd rctl,
    fun y ps S sr hp hS => readElement_exact y r sr hp hS,
    fun y ts u hts inRange hu => sliceSum_sliceHeld y hts inRange hu⟩

end Sys2Proof.Machine
end

section
/-! LSAVE and LREST (02 R60-R64): the records of a Ledger register to and from lane SRAM. -/

namespace Sys2Proof.Machine

/-! ### The Ledgers whose residue fails -/

/-- The engine lanes whose residue fails (R63). -/
def failing (ls : List Ledger) : List Nat := (ls.zipIdx.filter fun p => !p.1.residueOk).map (·.2)

/-- A Ledger marked where its residue fails (R64). -/
def Ledger.checked (x : Ledger) : Ledger := if x.residueOk then x else x.setFlag 13 true

theorem idx_resFaults (cause : Nat) (ls : List Ledger) : (resFaults cause ls).map (·.idx) = failing ls := by
  rw [resFaults, List.map_map]
  rfl

theorem resFaults_eq_nil {cause : Nat} {ls : List Ledger} : resFaults cause ls = [] ↔ failing ls = [] := by
  rw [← idx_resFaults cause ls, List.map_eq_nil_iff]

theorem mem_failing {ls : List Ledger} {j : Nat} (h : j < ls.length) : j ∈ failing ls ↔ ls[j].residueOk = false := by
  simp [failing, List.mem_zipIdx_iff_getElem?, h]

theorem failing_eq_nil {ls : List Ledger} (h : ∀ x ∈ ls, x.residueOk = true) : failing ls = [] := by
  rw [failing, List.map_eq_nil_iff, List.filter_eq_nil_iff]
  intro p hp
  simp [h p.1 (List.fst_mem_of_mem_zipIdx hp)]

/-- Marking the failing engine lanes is marking each Ledger by its own check. -/
theorem map_mark_failing (ls : List Ledger) :
    (ls.zipIdx.map fun p => if (failing ls).contains p.2 then p.1.setFlag 13 true else p.1) = ls.map (·.checked) := by
  refine List.ext_getElem (by simp) fun j hj _ => ?_
  have h : j < ls.length := by simpa using hj
  simp only [List.getElem_map, List.getElem_zipIdx, Nat.zero_add, List.contains_iff_mem, mem_failing h, Ledger.checked]
  cases ls[j].residueOk <;> rfl

/-- The residue checks mark each Ledger by its own check; only the group check of R69 marks others (R64). -/
theorem markFaults_resFaults {cause : Nat} (hc : cause ≠ 3) (ls : List Ledger) :
    markFaults (resFaults cause ls) ls = ls.map (·.checked) := by
  have named (j : Nat) : ((resFaults cause ls).any fun f => f.idx == j || (f.cause == 3 && f.idx / 4 == j / 4)) =
      (failing ls).contains j := by
    rw [← idx_resFaults cause ls, List.contains_eq_any_beq, List.any_map, resFaults, List.any_map, List.any_map]
    congr 1
    funext p
    simp [hc, BEq.comm (a := j)]
  rw [← map_mark_failing, markFaults]
  simp only [named]

/-! ### LSAVE -/

variable {i : Issue} {s : State}

/-- What LSAVE leaves to mark in one lane after the records are stored (R64). -/
def saveMarks (x : Slot) (acc : BitVec 3) (l : Nat) : List Landing :=
  let bad := failing ((x.c.lane l).ledgers acc.toNat)
  if bad.isEmpty then [] else [⟨1, .ledgerFault l acc.toNat bad⟩]

/-- The marks and the faults of one lane of an LSAVE. -/
def State.saveOne (x : Slot) (acc : BitVec 3) (s : State) (l : Nat) : State :=
  let bad := resFaults 0x01 ((x.c.lane l).ledgers acc.toNat)
  (if bad.isEmpty then s else s.land x.g [⟨1, .ledgerFault l acc.toNat (bad.map (·.idx))⟩]).residueFaults x l acc.toNat bad

theorem calmMoves_saveOne (x : Slot) (acc : BitVec 3) (l : Nat) {calm : Prop} (hl : Live s x.g)
    (quiet : calm → failing ((x.c.lane l).ledgers acc.toNat) = []) :
    CalmMoves x.g s (s.saveOne x acc l) (entered (saveMarks x acc l)) calm := by
  unfold State.saveOne saveMarks
  dsimp only
  rw [idx_resFaults]
  by_cases clean : failing ((x.c.lane l).ledgers acc.toNat) = []
  · rw [resFaults_eq_nil.2 clean, clean]
    exact (CalmMoves.refl x.g s calm).congr entered_nil.symm
  · rw [if_neg (by simpa [resFaults_eq_nil] using clean), if_neg (by simpa using clean)]
    exact ⟨(moves_land s x.g _).trans ((sameRun_residueFaults x l _ _ ((moves_land s x.g _).live hl)).moves _),
      fun hc => absurd (quiet hc) clean⟩

/-- The records that LSAVE stores in the active lanes (R60). -/
def saveTargets (x : Slot) (acc : BitVec 3) (a : Nat) : List Target :=
  x.lanes.map fun l =>
    .mem l a ((((x.c.lane l).ledgers acc.toNat).map (·.checked)).flatMap fun r => natLe r.record.toNat 32)

/-- The beats of LSAVE and LREST (R82). -/
def ledgerBeats (x : Slot) (a : Nat) : Nat := if isUnder (kindOf x.g) a then 8 else 4

/-- LSAVE where every active lane may make the transfer: the increment, the records, the marks and faults by lane. -/
theorem lsave_eq (hi : Issues s i) (o : LMemOps) :
    let x := slotOf s i
    let a := x.c.ea o.sb o.off 64
    TransferOk x x.lanes a 1024 1024 → s.lsave i o =
      x.lanes.foldl (State.saveOne x o.acc)
        (((s.named i 2 x.acts []).postInc x o.inc o.sb 1024).landAll i.cluster.toNat (ledgerBeats x a) (saveTargets x o.acc a)) := by
  intro x a ok
  obtain ⟨u, hu⟩ := transfer_ok ((s.named i 2 x.acts []).postInc x o.inc o.sb 1024) x x.lanes a 1024 1024 ok
  have records : saveTargets x o.acc a = x.lanes.map fun l =>
      .mem l a ((markFaults (resFaults 0x01 ((x.c.lane l).ledgers o.acc.toNat)) ((x.c.lane l).ledgers o.acc.toNat)).flatMap
        fun r => natLe r.record.toNat 32) := by
    simp only [saveTargets, markFaults_resFaults (by decide : 1 ≠ 3)]
  unfold State.lsave
  rw [issue_eq _ hi, records]
  show (match ((s.named i 2 x.acts []).postInc x o.inc o.sb 1024).transfer x x.lanes a 1024 1024 with
    | (some _, _) => _ | (none, _) => _) = _
  rw [hu]
  rfl

/-- No residue fails in an active lane. -/
def SavesClean (x : Slot) (acc : BitVec 3) : Prop := ∀ l ∈ x.lanes, failing ((x.c.lane l).ledgers acc.toNat) = []

/-- What an LSAVE does. -/
theorem slotLands_lsave (hi : Issues s i) (o : LMemOps) :
    let x := slotOf s i
    let a := x.c.ea o.sb o.off 64
    TransferOk x x.lanes a 1024 1024 →
      SlotLands i.cluster.toNat s (s.lsave i o) x.acts []
        (postLanding x o.inc o.sb 1024 ++ together (ledgerBeats x a) (saveTargets x o.acc a) ++ x.lanes.flatMap (saveMarks x o.acc))
        (SavesClean x o.acc) := by
  intro x a ok
  have stored := (calmMoves_postInc (s.named i 2 x.acts []) x o.inc o.sb 1024 (SavesClean x o.acc)).trans
    (calmMoves_land _ x.g (together (ledgerBeats x a) (saveTargets x o.acc a)) _)
  have lanes := calmMoves_foldl (calm := SavesClean x o.acc) (State.saveOne x o.acc) (saveMarks x o.acc) x.lanes
    (fun u hu l hl => calmMoves_saveOne x o.acc l hu fun clean => clean l hl) (stored.live (live_named hi 2 x.acts []))
  rw [lsave_eq hi o ok]
  exact CalmMoves.slotChanges hi ((stored.trans lanes).congr (funext fun c => by
    rw [entered_entered, entered_entered, List.append_assoc]))

/-- The marks of all lanes are those of the lanes in which a residue fails. -/
theorem flatMap_saveMarks (x : Slot) (acc : BitVec 3) (lanes : List Nat) :
    lanes.flatMap (saveMarks x acc) =
      (lanes.filter fun l => !(failing ((x.c.lane l).ledgers acc.toNat)).isEmpty).map fun l =>
        ⟨1, .ledgerFault l acc.toNat (failing ((x.c.lane l).ledgers acc.toNat))⟩ := by
  induction lanes with
  | nil => rfl
  | cons l lanes ih =>
    rw [List.flatMap_cons, ih, saveMarks, List.filter_cons]
    cases (failing ((x.c.lane l).ledgers acc.toNat)).isEmpty <;> rfl

/-- The mark that LSAVE leaves sets residue_fault in each Ledger whose check fails (R64). -/
theorem lane_apply_ledgerFault (c : Cluster) (l acc : Nat) :
    (c.apply (.ledgerFault l acc (failing ((c.lane l).ledgers acc)))).lane l =
      (c.lane l).setLedgers acc (((c.lane l).ledgers acc).map (·.checked)) := by
  rw [← map_mark_failing, Cluster.apply]
  exact AMap.get_set_same ..

/-! ### LREST -/

/-- The Ledgers that LREST reads in a lane (R61). -/
def restored (x : Slot) (a l : Nat) : List Ledger :=
  (List.range 32).map fun j => Ledger.ofRecord (BitVec.ofNat 256 (readLe (x.c.lane l).sram (a + 32 * j) 32))

/-- LREST where every active lane may make the transfer: the increment, the reads, the Ledgers, the faults by lane. -/
theorem lrest_eq (hi : Issues s i) (o : LMemOps) :
    let x := slotOf s i
    let a := x.c.ea o.sb o.off 64
    TransferOk x x.lanes a 1024 1024 → s.lrest i o =
      x.lanes.foldl (fun s l => s.residueFaults x l o.acc.toNat (resFaults 0x02 (restored x a l)))
        ((((s.named i 2 x.acts []).postInc x o.inc o.sb 1024).sramRead x x.lanes fun _ => [(a, 1024)]).landAll
          i.cluster.toNat (ledgerBeats x a) (x.lanes.map fun l => .ledgers l o.acc.toNat (restored x a l))) := by
  intro x a ok
  obtain ⟨u, hu⟩ := transfer_ok ((s.named i 2 x.acts []).postInc x o.inc o.sb 1024) x x.lanes a 1024 1024 ok
  unfold State.lrest
  rw [issue_eq _ hi]
  show (match ((s.named i 2 x.acts []).postInc x o.inc o.sb 1024).transfer x x.lanes a 1024 1024 with
    | (some _, _) => _ | (none, _) => _) = _
  rw [hu]
  rfl

/-- Every record that LREST reads in an active lane passes its check. -/
def RestoresClean (x : Slot) (a : Nat) : Prop := ∀ l ∈ x.lanes, ∀ r ∈ restored x a l, r.residueOk = true

/-- What an LREST does. -/
theorem slotChanges_lrest (hi : Issues s i) (o : LMemOps) :
    let x := slotOf s i
    let a := x.c.ea o.sb o.off 64
    TransferOk x x.lanes a 1024 1024 → Readable x x.lanes (fun _ => [(a, 1024)]) →
      SlotChanges i.cluster.toNat s (s.lrest i o) x.acts []
        (readLands (correctedIn x x.lanes fun _ => [(a, 1024)])
          (postLanding x o.inc o.sb 1024 ++
            together (ledgerBeats x a) (x.lanes.map fun l => .ledgers l o.acc.toNat (restored x a l))))
        (RestoresClean x a) := by
  intro x a ok readable
  have read := (calmMoves_postInc (s.named i 2 x.acts []) x o.inc o.sb 1024 (RestoresClean x a)).trans
    (calmMoves_sramRead _ x x.lanes _ _ readable)
  have stored := read.trans (calmMoves_land _ x.g
    (together (ledgerBeats x a) (x.lanes.map fun l => .ledgers l o.acc.toNat (restored x a l))) _)
  have faults := calmMoves_foldl (calm := RestoresClean x a)
    (fun s l => s.residueFaults x l o.acc.toNat (resFaults 0x02 (restored x a l))) (fun _ => []) x.lanes
    (fun u hu l hl => (calmMoves_residueFaults x l _ _ hu fun clean =>
      resFaults_eq_nil.2 (failing_eq_nil (clean l hl))).congr entered_nil.symm) (stored.live (live_named hi 2 x.acts []))
  rw [lrest_eq hi o ok]
  refine CalmMoves.slotChanges hi ((stored.trans faults).congr (funext fun c => ?_))
  simp [entered, readLands]

/-- Settles O12: what LSAVE stores and marks, and what LREST restores. -/
theorem ledgerTransfers : Obligations.LedgerTransfers := by
  intro i o s x a beats marked bad stored ok
  refine ⟨slotRuns_of rfl fun hi => ⟨?_, fun l _ => lane_apply_ledgerFault x.c l o.acc.toNat⟩,
    fun readable => slotRuns_of rfl fun hi => ?_⟩
  · have saved := slotLands_lsave hi o ok
    rw [flatMap_saveMarks] at saved
    exact saved
  · have done := slotChanges_lrest hi o ok readable
    refine ⟨done.cluster, done.others, done.only, fun clean => done.quiet fun l hl r hr => ?_⟩
    obtain ⟨j, hj, rfl⟩ := List.mem_map.1 hr
    exact clean l hl j (List.mem_range.1 hj)

end Sys2Proof.Machine
end

section
/-! Slots whose answer is not checked or is traced, what a slot's own heads leave of its cluster, and Q slots (03 R87). -/

namespace Sys2Proof.Machine

variable {i : Issue} {s t : State} {f h : Cluster → Cluster} {calm : Prop}

/-- A slot command without a reserved operand to refuse. -/
theorem slotRuns_next {c : Instr} {P : State → Prop} (run : exec c s = .next t) (holds : Issues s i → P t) :
    SlotRuns c i s P := fun _ issues => ⟨t, run, holds issues⟩

/-- A slot command on which the probes look. -/
theorem slotRuns_next_traced {c : Instr} {P : State → Prop} (run : exec c s = .next (s.traced t))
    (holds : Issues s i → P t) : SlotRuns c i s (Noted P) :=
  slotRuns_next run fun issues => ⟨t, holds issues, probesOnly_traced s t⟩

/-- One that may hold a reserved operand, on which the probes look. -/
theorem slotRuns_traced {c : Instr} {P : State → Prop} {m : String} (run : exec c s = whenLegal c m (s.traced t))
    (holds : Issues s i → P t) : SlotRuns c i s (Noted P) :=
  slotRuns_of run fun issues => ⟨t, holds issues, probesOnly_traced s t⟩

/-- The same change of the cluster under another name. -/
theorem slotChanges_congr {g : Nat} {acts : Bool} {ns : List Naming} (a : SlotChanges g s t acts ns f calm)
    (e : ∀ c, f c = h c) : SlotChanges g s t acts ns h calm := funext e ▸ a

/-- Naming a head adds to the record of consumption only. -/
theorem noteHead_rest (k : Cluster) (acts : Bool) (c : Cluster) (n : Naming) :
    noteHead k acts c n = { c with consumed := (noteHead k acts c n).consumed } := by
  unfold noteHead Cluster.note
  dsimp only
  split_ifs <;> rfl

/-- The record of consumption does not depend on the results in flight. -/
theorem noteHead_entered (k : Cluster) (acts : Bool) (ls : List Landing) (c : Cluster) (n : Naming) :
    noteHead k acts (entered ls c) n = entered ls (noteHead k acts c n) := by
  unfold noteHead Cluster.note entered
  dsimp only
  split_ifs <;> rfl

/-- The heads that a slot names leave the cluster as its issue does, but for the record of consumption. -/
theorem namedBy_rest (acts : Bool) (ns : List Naming) (c : Cluster) :
    namedBy acts ns c = { c.begun with consumed := (namedBy acts ns c).consumed } :=
  List.foldlRecOn (motive := fun k : Cluster => k = { c.begun with consumed := k.consumed }) (namedOnce ns) _ rfl
    fun k hk n _ => by
      rw [noteHead_rest, hk]

/-- A Q slot of a cluster that can issue, its heads named: its effect where it executes (R87). -/
theorem calmMoves_qslot (hi : Issues s i) (ns : List Naming) {f : Slot → State → State} {k : Cluster → Cluster} :
    let x := slotOf s i
    let ex := qExecutes i x.mask
    CalmMoves i.cluster.toNat (s.named i 3 ex ns) (f x (s.named i 3 ex ns)) k calm →
      CalmMoves i.cluster.toNat (s.named i 3 ex ns) (s.qslot i ns f) (fun c => if ex then k c else c) calm := by
  intro x ex acts
  unfold State.qslot
  rw [issue_eq _ hi]
  show CalmMoves _ _ (if ex then f x (s.named i 3 ex ns) else s.named i 3 ex ns) _ _
  by_cases executes : ex = true
  · simp only [executes, if_true] at acts ⊢
    exact acts
  · simp only [executes]
    exact CalmMoves.refl ..

/-- A Q slot that, where it executes, writes its cluster. -/
theorem slotChanges_qslot (hi : Issues s i) (ns : List Naming) (f : Slot → Cluster → Cluster) :
    let x := slotOf s i
    let ex := qExecutes i x.mask
    SlotChanges i.cluster.toNat s (s.qslot i ns fun x s => s.modCluster x.g (f x)) ex ns
      (fun c => if ex then f x c else c) :=
  CalmMoves.slotChanges hi (calmMoves_qslot hi ns (calmMoves_modCluster ..))

/-- Results of a Q slot enter where it executes. -/
theorem entered_whenExecutes (x : Slot) (ls : List Landing) (c : Cluster) :
    (if qExecutes x.i x.mask then entered ls c else c) = entered (whenExecutes x ls) c := by
  unfold whenExecutes
  split
  · rfl
  · simp [entered]

/-- A Q slot that, where it executes, enters results. -/
theorem slotLands_qslot (hi : Issues s i) (ns : List Naming) (ls : Slot → List Landing) :
    SlotLands i.cluster.toNat s (s.qslot i ns fun x s => s.land x.g (ls x)) (qExecutes i (slotOf s i).mask) ns
      (whenExecutes (slotOf s i) (ls (slotOf s i))) :=
  slotChanges_congr (slotChanges_qslot hi ns fun x => entered (ls x)) fun c => entered_whenExecutes (slotOf s i) _ c

/-! ### A second issue in the same beat -/

/-- The cluster of a slot has issued in this beat and can still issue. -/
structure HasIssued (t : State) (i : Issue) : Prop where
  live : Live t i.cluster.toNat
  issued : (t.cluster i.cluster.toNat).issued = true
  parked : (t.cluster i.cluster.toNat).parked = false

/-- A cluster that can issue is not parked. -/
theorem parked_of_issues (hi : Issues s i) : (s.cluster i.cluster.toNat).parked = false := by
  unfold Issues State.canIssue at hi
  split at hi
  · simp only [Bool.and_eq_true, Bool.not_eq_true'] at hi
    exact hi.1.2
  · cases hi

/-- A cluster that has named its heads has issued. -/
theorem hasIssued_named (hi : Issues s i) (slotNo : Nat) (acts : Bool) (ns : List Naming) :
    HasIssued (s.named i slotNo acts ns) i := by
  refine ⟨live_named hi slotNo acts ns, ?_, ?_⟩ <;> rw [cluster_named hi, namedBy_rest]
  · rfl
  · exact parked_of_issues hi

theorem HasIssued.canIssue (a : HasIssued t i) : t.canIssue i.cluster.toNat = true := by
  obtain ⟨k, owner, running⟩ := a.live
  simp [State.canIssue, owner, running, a.issued, a.parked]

/-- A move that keeps the cluster issued and unparked. -/
theorem CalmMoves.hasIssued (m : CalmMoves i.cluster.toNat s t f calm) (a : HasIssued s i)
    (keeps : ∀ c : Cluster, (f c).issued = c.issued ∧ (f c).parked = c.parked) : HasIssued t i := by
  refine ⟨m.live a.live, ?_, ?_⟩ <;> rw [m.moves.at_]
  · exact (keeps _).1.trans a.issued
  · exact (keeps _).2.trans a.parked

theorem begun_of_issued {c : Cluster} (hc : c.issued = true) : c.begun = c := by
  cases c
  simp_all [Cluster.begun]

/-- A slot that issues again in its cluster's beat does there what it does. -/
theorem CalmMoves.issue_again (a : HasIssued t i) {f : Slot → State → State}
    (acts : ∀ u, CalmMoves i.cluster.toNat u (f (slotOf t i) u) h calm) :
    CalmMoves i.cluster.toNat t (t.issue i f) h calm := by
  have begins := moves_issued t i.cluster.toNat
  have same := begins.at_.trans (begun_of_issued a.issued)
  have self : CalmMoves i.cluster.toNat t (t.setCluster i.cluster.toNat (t.cluster i.cluster.toNat).begun) id calm :=
    ⟨{ begins with at_ := same }, fun _ => rfl⟩
  rw [issue_eq _ a.canIssue]
  exact self.trans (acts _)

/-- A Q slot that issues again, names no head and, where it executes, writes its cluster. -/
theorem calmMoves_qslot_again (a : HasIssued t i) {ex : Bool} {f : Slot → Cluster → Cluster} {k : Cluster → Cluster}
    (executes : qExecutes i (slotOf t i).mask = ex) (writes : f (slotOf t i) = k) (calm : Prop) :
    CalmMoves i.cluster.toNat t (t.qslot i [] fun x s => s.modCluster x.g (f x)) (fun c => if ex then k c else c) calm := by
  subst executes writes
  refine CalmMoves.issue_again a fun u => ?_
  let x := slotOf t i
  show CalmMoves _ u (if qExecutes i x.mask then u.modCluster x.g (f x) else u) _ calm
  split
  · exact calmMoves_modCluster ..
  · exact CalmMoves.refl ..

end Sys2Proof.Machine
end

section
/-! The Q slot (03 R87, R88, R103-R107, 06 R188-R194, R205): scalars, predicates, injections, repeat blocks, waits, marks. -/

namespace Sys2Proof.Machine

variable {i : Issue} {s : State}

/-! ### Scalars and predicates -/

/-- The beats of a scalar operation (R82). -/
def aluBeats (fn : BitVec 4) : Nat := if fn = 8#4 then 3 else 1

/-- The result of a scalar operation. -/
def aluResult (fn : BitVec 4) (sd : BitVec 5) (a b : Slot → BitVec 64) (x : Slot) : List Landing :=
  [⟨aluBeats fn, sregTarget sd (saluResult fn.toNat (a x) (b x))⟩]

/-- SALU and SALUI: the result where the slot executes, the place in the pipeline either way. -/
theorem slotLands_saluOp (hi : Issues s i) (ns : List Naming) (fn : BitVec 4) (sd : BitVec 5) (a b : Slot → BitVec 64) :
    let x := slotOf s i
    SlotLands i.cluster.toNat s (s.saluOp i ns fn sd a b) (qExecutes i x.mask) ns
      (whenExecutes x (aluResult fn sd a b x) ++ together (aluBeats fn) []) := by
  intro x
  have result := (calmMoves_qslot hi ns (f := fun x s => s.land x.g (aluResult fn sd a b x))
    (calmMoves_land _ _ _ True)).congr (funext (entered_whenExecutes x _))
  have issued := result.hasIssued (hasIssued_named hi ..) fun c => ⟨rfl, rfl⟩
  have place := CalmMoves.issue_again issued (f := fun x s => s.landAll x.g (aluBeats fn) [])
    fun u => calmMoves_land u _ (together (aluBeats fn) []) True
  exact CalmMoves.slotChanges hi ((result.trans place).congr (funext (entered_entered _ _)))

/-- A predicate operation. -/
theorem slotLands_predOp (hi : Issues s i) (ns : List Naming) (pd : BitVec 3) (v : Slot → BitVec 16) :
    SlotLands i.cluster.toNat s (s.predOp i ns pd v) (qExecutes i (slotOf s i).mask) ns
      (whenExecutes (slotOf s i) [⟨1, .pred pd.toNat 0xFFFF#16 (v (slotOf s i))⟩]) :=
  slotLands_qslot hi ns fun x => [⟨1, .pred pd.toNat 0xFFFF#16 (v x)⟩]

/-- Settles O14: scalar operations, predicate operations, and moves of one result. -/
theorem scalarOps : Obligations.ScalarOps := by
  intro i fn sd sa sb cpl imm8 imm hw pfn pd pa pb cond s
  refine ⟨slotRuns_next rfl fun hi => slotLands_empty hi _, ?salu, ?salui, ?sli, ?pcmp, ?plog, ?pfroms, ?ptos, ?cread⟩
  case salu | salui => exact slotRuns_of rfl fun hi => slotLands_saluOp hi _ fn sd _ _
  case pcmp | plog | pfroms => exact slotRuns_of rfl fun hi => slotLands_predOp hi _ pd _
  case sli | ptos | cread => exact slotRuns_next rfl fun hi => slotLands_qslot hi [] _

/-! ### Injections and the sequencer -/

/-- An injection: one entry, 0 where the slot does not execute (R88). -/
theorem calmMoves_injectOp (hi : Issues s i) (ns : List Naming) (net : Nat) (v : Slot → BitVec 512) (calm : Prop) :
    let ex := qExecutes i (slotOf s i).mask
    CalmMoves i.cluster.toNat (s.named i 3 ex ns) (s.injectOp i ns net v)
      (injected net (if ex then v (slotOf s i) else 0) 1) calm := by
  unfold State.injectOp
  rw [issue_eq _ hi]
  exact calmMoves_modCluster ..

theorem slotChanges_injectOp (hi : Issues s i) (ns : List Naming) (net : Nat) (v : Slot → BitVec 512) :
    let ex := qExecutes i (slotOf s i).mask
    SlotChanges i.cluster.toNat s (s.injectOp i ns net v) ex ns (injected net (if ex then v (slotOf s i) else 0) 1) :=
  CalmMoves.slotChanges hi (calmMoves_injectOp hi ns net v True)

/-- A slot that names no head and writes its cluster. -/
theorem slotChanges_unnamed (hi : Issues s i) (acts : Bool) (f : Slot → Cluster → Cluster) :
    SlotChanges i.cluster.toNat s (s.issue i fun x s => s.modCluster x.g (f x)) acts [] (f (slotOf s i)) :=
  slotChanges_of hi 3 (fun _ => acts) (fun _ => []) f

/-- Settles O15: injections, and slots that write the sequencer of their cluster. -/
theorem sequencerOps : Obligations.SequencerOps := by
  intro i sa vs lane count lenM1 lp cpl sub amount s
  refine ⟨?rep, ?ssend, ?csend, ?vsend, ?remote, ?signal, ?stop⟩
  case rep | stop => exact slotRuns_of rfl fun hi => slotChanges_unnamed hi _ _
  case ssend | csend => exact slotRuns_of rfl fun hi => slotChanges_injectOp hi _ _ _
  case vsend => exact slotRuns_next rfl fun hi => slotChanges_injectOp hi [] 0 _
  case remote =>
    exact slotRuns_of rfl fun hi => slotChanges_injectOp hi [] 2 fun _ => (signalEntry cpl amount).setWidth 512
  case signal =>
    exact slotRuns_of rfl fun hi => slotChanges_qslot hi [] fun _ c =>
      { c with sig := some { cpl := cpl, sub := sub, amount := amount } }

/-! ### Waits and marks -/

/-- A wait on the cluster's own coupling or queue (R190). -/
theorem slotChanges_localWait (hi : Issues s i) (cpl : BitVec 6) (cond : BitVec 3) (val : BitVec 8) (take : Bool)
    (path : BitVec 3) :
    let x := slotOf s i
    let ex := qExecutes i x.mask
    SlotChanges i.cluster.toNat s (s.cwait i cpl false cond val take path) ex [] fun c =>
      if ex then { c with hold := .wait cpl cond val take x.mask x.c.drain } else c :=
  slotChanges_qslot hi [] fun x c => { c with hold := .wait cpl cond val take x.mask x.c.drain }

/-- A wait on another cluster: the watch, then the hold where the slot executes (R194). -/
theorem slotChanges_remoteWait (hi : Issues s i) (cpl : BitVec 6) (cond : BitVec 3) (val : BitVec 8) (take : Bool)
    (path : BitVec 3) :
    let x := slotOf s i
    let ex := qExecutes i x.mask
    let sent := injected 2 (if ex then (watchEntry cpl path).setWidth 512 else 0) 1
    SlotChanges i.cluster.toNat s (s.cwait i cpl true cond val take path) ex [] fun c =>
      if ex then { sent c with hold := .remote cpl x.c.drain } else sent c := by
  intro x ex sent
  have watch := calmMoves_injectOp hi [] 2 (fun _ => (watchEntry cpl path).setWidth 512) True
  have issued := watch.hasIssued (hasIssued_named hi ..) fun c => ⟨rfl, rfl⟩
  have seen := watch.moves.at_.trans (congrArg sent (cluster_named hi 3 ex []))
  have mask : (slotOf (s.injectOp i [] 2 fun _ => (watchEntry cpl path).setWidth 512) i).mask = x.mask :=
    (congrArg (Cluster.laneMask · i) seen).trans rfl
  have drain : ((s.injectOp i [] 2 fun _ => (watchEntry cpl path).setWidth 512).cluster i.cluster.toNat).drain = x.c.drain :=
    (congrArg Cluster.drain seen).trans rfl
  have hold := calmMoves_qslot_again issued (f := fun y c => { c with hold := .remote cpl y.c.drain })
    (congrArg (qExecutes i) mask) (congrArg (fun n (c : Cluster) => { c with hold := .remote cpl n }) drain) True
  exact CalmMoves.slotChanges hi (watch.trans hold)

/-- A cluster that has entered no round enters the lowest unreleased one (R202, R205). -/
theorem enterMark_first (s : State) {x : Slot} (w : Bool) (first : x.c.mark = none) :
    s.enterMark x w = s.modCluster x.g fun c =>
      { c with
        mark := some (x.c.snapshot s.toll.oldest)
        hold := if w then .toll s.toll.oldest x.c.drain else c.hold } := by
  simp only [State.enterMark, first]

/-- A cluster that has entered one round enters the one after. -/
theorem enterMark_second (s : State) {x : Slot} (w : Bool) {m : Mark} (first : x.c.mark = some m)
    (second : x.c.pendMark = none) :
    s.enterMark x w = s.modCluster x.g fun c =>
      { c with
        pendMark := some (x.c.snapshot (s.toll.oldest + 1))
        hold := if w then .toll (s.toll.oldest + 1) x.c.drain else c.hold } := by
  simp only [State.enterMark, first, second]

/-- The fault of a cluster that has entered two rounds (R205). -/
def State.markFault (s : State) (g : Nat) : State :=
  s.clusterFault g { s.eventOf g 0x07 0x01 with p0 := BitVec.ofNat 32 ((s.toll.oldest + 2) % 256 + 2 ^ 8 * 2) }

theorem enterMark_third (s : State) {x : Slot} (w : Bool) {m p : Mark} (first : x.c.mark = some m)
    (second : x.c.pendMark = some p) : s.enterMark x w = s.markFault x.g := by
  simp only [State.enterMark, first, second, State.markFault]

/-- The fault of a mark keeps the run and logs one event. -/
theorem markFault_logs {g : Nat} (hl : Live s g) :
    SameRun s (s.markFault g) ∧
      ∃ r, (s.markFault g).ev.atSource = s.ev.atSource ++ [r] ∧ r.cls = 0x07#8 ∧ r.cause = 0x01#8 := by
  refine ⟨sameRun_clusterFault _ hl, ?_⟩
  obtain ⟨tag, flags, logged⟩ := clusterFault_atSource (g := g) { s.eventOf g 0x07 0x01 with
    p0 := BitVec.ofNat 32 ((s.toll.oldest + 2) % 256 + 2 ^ 8 * 2) } hl
  exact ⟨_, logged, rfl, rfl⟩

/-- A CTOLL does what its mark does, where the slot executes. -/
theorem slotChanges_ctoll (hi : Issues s i) (w : Bool) {k : Cluster → Cluster} {calm : Prop} :
    let ex := qExecutes i (slotOf s i).mask
    CalmMoves i.cluster.toNat (s.named i 3 ex []) ((s.named i 3 ex []).enterMark (slotOf s i) w) k calm →
      SlotChanges i.cluster.toNat s (s.ctoll i w) ex [] (fun c => if ex then k c else c) calm :=
  fun enters => CalmMoves.slotChanges hi (calmMoves_qslot hi [] (f := fun x s => s.enterMark x w) enters)

/-- CTOLL in a cluster that has entered two rounds, where the slot executes. -/
theorem ctoll_third (hi : Issues s i) (w : Bool) {m p : Mark} (first : (slotOf s i).c.mark = some m)
    (second : (slotOf s i).c.pendMark = some p) (executes : qExecutes i (slotOf s i).mask = true) :
    s.ctoll i w = (s.named i 3 true []).markFault i.cluster.toNat := by
  unfold State.ctoll State.qslot
  rw [issue_eq _ hi]
  simp only [executes, if_true]
  exact enterMark_third _ w first second

/-- Settles O16: waits, the watch of a remote wait, marks and the fault of a third. -/
theorem waitsAndMarks : Obligations.WaitsAndMarks := by
  intro i cpl cond val take w path s x n ex changes
  refine ⟨slotRuns_traced rfl fun hi => slotChanges_localWait hi cpl cond val take path,
    slotRuns_traced rfl fun hi => slotChanges_remoteWait hi cpl cond val take path,
    fun first => ?first, fun ⟨m, first⟩ second => ?second, fun ⟨m, first⟩ ⟨p, second⟩ executes => ?third⟩
  case first =>
    refine slotRuns_next_traced rfl fun hi => slotChanges_ctoll hi w ?_
    rw [enterMark_first _ w first]
    exact calmMoves_modCluster ..
  case second =>
    refine slotRuns_next_traced rfl fun hi => slotChanges_ctoll hi w ?_
    rw [enterMark_second _ w first second]
    exact calmMoves_modCluster ..
  case third =>
    have marked (hi : Issues s i) := markFault_logs (live_named hi 3 true [])
    refine ⟨slotRuns_next_traced rfl fun hi => ?_, slotRuns_next rfl fun hi => ?_⟩
    · rw [ctoll_third hi w first second executes, executes]
      exact CalmMoves.slotChanges hi (.faulting (marked hi).1 nofun)
    · rw [traced_ev, ctoll_third hi w first second executes]
      exact (marked hi).2

end Sys2Proof.Machine
end

section
/-! The M slot (03 R102, R110-R114, 04 R130): transfers of registers, their address faults, streams. -/

namespace Sys2Proof.Machine

variable {i : Issue} {s : State}

/-! ### Transfers -/

/-- A transfer of n bytes, and what follows where it may be made and where it may not (R110, R111). -/
def State.transferring (s : State) (x : Slot) (lanes : List Nat) (a n maxUnder : Nat) (made refused : State → State) :
    State :=
  match s.transfer x lanes a n maxUnder with
  | (some _, s) => made s
  | (none, s) => refused s

theorem transferring_ok {x : Slot} {lanes : List Nat} {a n maxUnder : Nat} (ok : TransferOk x lanes a n maxUnder)
    (made refused : State → State) : s.transferring x lanes a n maxUnder made refused = made s := by
  obtain ⟨u, transfer⟩ := transfer_ok s x lanes a n maxUnder ok
  rw [State.transferring, transfer]

/-- A transfer that no lane may make: it lies in no one region, or is too long for under SRAM (R110, R111). -/
def OffLimits (x : Slot) (a n maxUnder : Nat) : Prop :=
  sramSpan (kindOf x.g) a n = none ∨ (sramSpan (kindOf x.g) a n = some true ∧ maxUnder < n)

theorem transferring_refused {x : Slot} {lanes : List Nat} {a n maxUnder : Nat} (off : OffLimits x a n maxUnder)
    (some_lane : lanes ≠ []) (made refused : State → State) :
    s.transferring x lanes a n maxUnder made refused = refused (s.execFault x 0x02 lanes.head? a) := by
  have some : lanes.isEmpty = false := by simpa using some_lane
  unfold State.transferring State.transfer
  rcases off with outside | ⟨under, long⟩
  · simp [outside, some]
  · simp [under, long, some]

/-- An M slot in a cluster that can issue begins with nothing named and its base stepped (R102). -/
def State.stepped (s : State) (i : Issue) (inc : Bool) (sb : BitVec 5) (n : Nat) : State :=
  (s.named i 2 (Sys2Proof.slotOf s i).acts []).postInc (Sys2Proof.slotOf s i) inc sb n

theorem calmMoves_stepped (s : State) (i : Issue) (inc : Bool) (sb : BitVec 5) (n : Nat) (calm : Prop) :
    CalmMoves i.cluster.toNat (s.named i 2 (slotOf s i).acts []) (s.stepped i inc sb n)
      (entered (postLanding (slotOf s i) inc sb n)) calm := calmMoves_postInc _ (slotOf s i) inc sb n calm

/-- What a VLD of n registers reads in a lane (R102). -/
def vectorLoads (x : Slot) (o : MemOps) (l : Nat) : List Target :=
  (List.range (o.cntM1.toNat + 1)).map fun k =>
    .vreg l (o.reg.toNat + k) (BitVec.ofNat 512 (readLe (x.c.lane l).sram (x.c.ea o.sb o.off 64 + 64 * k) 64))

/-- What a VST writes in a lane (R102). -/
def vectorStore (x : Slot) (o : MemOps) (l : Nat) : Landing :=
  ⟨1, .mem l (x.c.ea o.sb o.off 64) ((List.range (o.cntM1.toNat + 1)).flatMap fun k =>
    regBytes ((x.c.lane l).vreg (o.reg.toNat + k)))⟩

/-- The beats of a load (R82). -/
def loadBeats (x : Slot) (a : Nat) : Nat := if isUnder (kindOf x.g) a then 6 else 2

theorem vld_eq (hi : Issues s i) (o : MemOps) :
    let x := slotOf s i
    let n := 64 * (o.cntM1.toNat + 1)
    let a := x.c.ea o.sb o.off 64
    s.vld i o = (s.stepped i o.inc o.sb n).transferring x x.lanes a n 128
      (fun t => (t.sramRead x x.lanes fun _ => [(a, n)]).landAll x.g (loadBeats x a) (x.lanes.flatMap (vectorLoads x o)))
      fun t => t.landAll x.g (loadBeats x a) [] := by
  unfold State.vld
  rw [issue_eq _ hi]
  rfl

theorem vst_eq (hi : Issues s i) (o : MemOps) :
    let x := slotOf s i
    let n := 64 * (o.cntM1.toNat + 1)
    s.vst i o = (s.stepped i o.inc o.sb n).transferring x x.lanes (x.c.ea o.sb o.off 64) n 128
      (fun t => t.land x.g (x.lanes.map (vectorStore x o))) id := by
  unfold State.vst
  rw [issue_eq _ hi]
  rfl

theorem sld_eq (hi : Issues s i) (o : SMemOps) :
    let x := slotOf s i
    let a := x.c.ea o.sb o.off 8
    let ls := namedLane x o.lane
    s.sld i o = (s.named i 2 x.acts []).transferring x ls a 8 8
      (fun t => (t.sramRead x ls fun _ => [(a, 8)]).landAll x.g (loadBeats x a) (ls.map fun l =>
        .sreg o.reg.toNat (BitVec.allOnes 64) (BitVec.ofNat 64 (readLe (x.c.lane l).sram a 8))))
      fun t => t.landAll x.g (loadBeats x a) [] := by
  unfold State.sld
  rw [issue_eq _ hi]
  rfl

theorem sst_eq (hi : Issues s i) (o : SMemOps) :
    let x := slotOf s i
    let a := x.c.ea o.sb o.off 8
    let ls := namedLane x o.lane
    s.sst i o = (s.named i 2 x.acts []).transferring x ls a 8 8
      (fun t => t.land x.g (ls.map fun l => ⟨1, .mem l a (natLe (x.c.sreg o.reg.toNat).toNat 8)⟩)) id := by
  unfold State.sst
  rw [issue_eq _ hi]
  rfl

/-- A read of lane SRAM and the results that it enters. -/
theorem calmMoves_read (t : State) {x : Slot} {lanes : List Nat} {spans : Nat → List (Nat × Nat)} (ls : List Landing)
    (readable : Readable x lanes spans) (calm : Prop) :
    CalmMoves x.g t ((t.sramRead x lanes spans).land x.g ls) (readLands (correctedIn x lanes spans) ls) calm :=
  (calmMoves_sramRead t x lanes spans calm readable).trans (calmMoves_land _ x.g ls calm)

/-- Results entered before a read stand before its own. -/
theorem readLands_entered (ones : Nat) (ls ks : List Landing) (c : Cluster) :
    readLands ones ks (entered ls c) = readLands ones (ls ++ ks) c := by
  simp [readLands, entered]

theorem slotChanges_vld (hi : Issues s i) (o : MemOps) :
    let x := slotOf s i
    let n := 64 * (o.cntM1.toNat + 1)
    let a := x.c.ea o.sb o.off 64
    TransferOk x x.lanes a n 128 → Readable x x.lanes (fun _ => [(a, n)]) →
      SlotChanges i.cluster.toNat s (s.vld i o) x.acts [] (readLands (correctedIn x x.lanes fun _ => [(a, n)])
        (postLanding x o.inc o.sb n ++ together (loadBeats x a) (x.lanes.flatMap (vectorLoads x o)))) := by
  intro x n a ok readable
  have base := calmMoves_stepped s i o.inc o.sb n True
  have loads := calmMoves_read (s.stepped i o.inc o.sb n) (together (loadBeats x a) (x.lanes.flatMap (vectorLoads x o)))
    readable True
  rw [vld_eq hi, transferring_ok ok]
  exact CalmMoves.slotChanges hi ((base.trans loads).congr (funext (readLands_entered _ _ _)))

theorem slotLands_vst (hi : Issues s i) (o : MemOps) :
    let x := slotOf s i
    let n := 64 * (o.cntM1.toNat + 1)
    TransferOk x x.lanes (x.c.ea o.sb o.off 64) n 128 →
      SlotLands i.cluster.toNat s (s.vst i o) x.acts [] (postLanding x o.inc o.sb n ++ x.lanes.map (vectorStore x o)) := by
  intro x n ok
  have base := calmMoves_stepped s i o.inc o.sb n True
  have stores := calmMoves_land (s.stepped i o.inc o.sb n) x.g (x.lanes.map (vectorStore x o)) True
  rw [vst_eq hi, transferring_ok ok]
  exact CalmMoves.slotChanges hi ((base.trans stores).congr (funext (entered_entered _ _)))

theorem slotChanges_sld (hi : Issues s i) (o : SMemOps) :
    let x := slotOf s i
    let a := x.c.ea o.sb o.off 8
    let ls := namedLane x o.lane
    TransferOk x ls a 8 8 → Readable x ls (fun _ => [(a, 8)]) →
      SlotChanges i.cluster.toNat s (s.sld i o) x.acts [] (readLands (correctedIn x ls fun _ => [(a, 8)])
        (together (loadBeats x a) (ls.map fun l =>
          .sreg o.reg.toNat (BitVec.allOnes 64) (BitVec.ofNat 64 (readLe (x.c.lane l).sram a 8))))) := by
  intro x a ls ok readable
  rw [sld_eq hi, transferring_ok ok]
  exact CalmMoves.slotChanges hi (calmMoves_read _ _ readable True)

theorem slotLands_sst (hi : Issues s i) (o : SMemOps) :
    let x := slotOf s i
    let a := x.c.ea o.sb o.off 8
    let ls := namedLane x o.lane
    TransferOk x ls a 8 8 →
      SlotLands i.cluster.toNat s (s.sst i o) x.acts []
        (ls.map fun l => ⟨1, .mem l a (natLe (x.c.sreg o.reg.toNat).toNat 8)⟩) := by
  intro x a ls ok
  rw [sst_eq hi, transferring_ok ok]
  exact CalmMoves.slotChanges hi (calmMoves_land ..)

/-- Settles O10: the empty slot, vector and scalar loads and stores. -/
theorem memoryTransfers : Obligations.MemoryTransfers := by
  intro i o q s x cnt a b ls
  exact ⟨slotRuns_next rfl fun hi => slotLands_empty hi _,
    fun ok readable => slotRuns_of rfl fun hi => slotChanges_vld hi o ok readable,
    fun ok => slotRuns_of rfl fun hi => slotLands_vst hi o ok,
    fun ok readable => slotRuns_next rfl fun hi => slotChanges_sld hi q ok readable,
    fun ok => slotRuns_next rfl fun hi => slotLands_sst hi q ok⟩

/-! ### Address faults -/

/-- A mask that is not 0 has an active lane. -/
theorem lanes_ne_nil {x : Slot} (active : x.mask ≠ 0#16) : x.lanes ≠ [] := fun none =>
  active (BitVec.eq_of_getLsbD_eq fun l hl => by
    simpa using List.filter_eq_nil_iff.1 none l (List.mem_range.2 hl))

/-- One more event: an address fault of a lane (R118). -/
def AddressFault (s t : State) (lane a : Nat) : Prop :=
  ∃ r, t.ev.atSource = s.ev.atSource ++ [r] ∧ r.cls = 0x01#8 ∧ r.cause = 0x02#8 ∧ r.lane = BitVec.ofNat 8 lane ∧
    r.p1 = BitVec.ofNat 64 a

/-- A refused transfer names the lowest active lane. -/
theorem addressFault_refused {x : Slot} (hl : Live s x.g) (active : x.lanes ≠ []) (a : Nat) :
    AddressFault s (s.execFault x 0x02 x.lanes.head? a) (x.lanes.headD 0) a := by
  have lowest : x.lanes.head? = some (x.lanes.headD 0) := by
    rw [List.head?_eq_some_head active, List.headD_eq_head?_getD, List.head?_eq_some_head active, Option.getD_some]
  obtain ⟨r, logged, cls, cause, lane, address⟩ := execFault_atSource x 0x02 x.lanes.head? a hl
  exact ⟨r, logged, cls, cause, lane _ lowest, address⟩

theorem ev_stepped (s : State) (i : Issue) (inc : Bool) (sb : BitVec 5) (n : Nat) : (s.stepped i inc sb n).ev = s.ev := by
  have quiet := (calmMoves_stepped s i inc sb n True).quiet trivial
  rw [quiet]
  rfl

theorem live_stepped (hi : Issues s i) (inc : Bool) (sb : BitVec 5) (n : Nat) :
    Live (s.stepped i inc sb n) i.cluster.toNat :=
  (calmMoves_stepped s i inc sb n True).live (live_named hi ..)

/-- An M slot whose transfer is refused faults; its base has stepped. -/
theorem calmMoves_refused (hi : Issues s i) (inc : Bool) (sb : BitVec 5) (n a : Nat) (active : (slotOf s i).lanes ≠ []) :
    let x := slotOf s i
    let t := (s.stepped i inc sb n).execFault x 0x02 x.lanes.head? a
    AddressFault s t (x.lanes.headD 0) a ∧
      CalmMoves i.cluster.toNat (s.named i 2 x.acts []) t (entered (postLanding x inc sb n)) False := by
  intro x t
  have live := live_stepped hi inc sb n
  have fault := addressFault_refused (x := x) live active a
  have faults := CalmMoves.faulting (g := x.g) (calm := False) (sameRun_execFault x 0x02 x.lanes.head? a live) nofun
  refine ⟨?_, (calmMoves_stepped s i inc sb n False).trans faults⟩
  unfold AddressFault at fault ⊢
  rw [ev_stepped] at fault
  exact fault

/-- Settles O11: a vector load, which keeps its place, and a vector store, their transfer refused. -/
theorem memoryAddressFault : Obligations.MemoryAddressFault := by
  intro i o s x n a faults off mask
  have active : x.lanes ≠ [] := lanes_ne_nil mask
  have refused (hi : Issues s i) := calmMoves_refused hi o.inc o.sb n a active
  refine ⟨slotRuns_of rfl fun hi => ?load, slotRuns_of rfl fun hi => ?store⟩
  case load =>
    obtain ⟨fault, moves⟩ := refused hi
    have place := calmMoves_land ((s.stepped i o.inc o.sb n).execFault x 0x02 x.lanes.head? a) x.g
      (together (loadBeats x a) []) False
    rw [vld_eq hi, transferring_refused off active]
    exact ⟨fault, CalmMoves.slotChanges hi ((moves.trans place).congr (funext (entered_entered _ _)))⟩
  case store =>
    obtain ⟨fault, moves⟩ := refused hi
    rw [vst_eq hi, transferring_refused off active]
    exact ⟨fault, CalmMoves.slotChanges hi moves⟩

/-! ### Streams -/

/-- The bytes that an SOUT injects (R102). -/
def streamOut (x : Slot) (lane : BitVec 4) (a : Nat) : BitVec 512 :=
  if x.mask.getLsbD lane.toNat then BitVec.ofNat 512 (readLe (x.c.lane lane.toNat).sram a 64) else 0

theorem sout_eq (hi : Issues s i) (lane : BitVec 4) (sb : BitVec 5) (off : BitVec 10) (inc : Bool) :
    let x := slotOf s i
    let a := x.c.ea sb off 64
    let ls := namedLane x lane
    s.sout i lane sb off inc = (s.stepped i inc sb 64).transferring x ls a 64 64
      (fun t => (t.sramRead x ls fun _ => [(a, 64)]).inject x.g 0 (streamOut x lane a) false (loadBeats x a))
      fun t => t.inject x.g 0 0 false (loadBeats x a) := by
  unfold State.sout streamOut namedLane
  rw [issue_eq _ hi]
  by_cases active : (slotOf s i).mask.getLsbD lane.toNat = true
  · simp only [active, if_true]
    rfl
  · simp only [active]
    rfl

theorem slotChanges_sout (hi : Issues s i) (lane : BitVec 4) (sb : BitVec 5) (off : BitVec 10) (inc : Bool) :
    let x := slotOf s i
    let a := x.c.ea sb off 64
    let ls := namedLane x lane
    TransferOk x ls a 64 64 → Readable x ls (fun _ => [(a, 64)]) →
      SlotChanges i.cluster.toNat s (s.sout i lane sb off inc) x.acts [] fun c =>
        injected 0 (streamOut x lane a) (loadBeats x a)
          (readLands (correctedIn x ls fun _ => [(a, 64)]) (postLanding x inc sb 64) c) := by
  intro x a ls ok readable
  have base := calmMoves_stepped s i inc sb 64 True
  have read := calmMoves_sramRead (s.stepped i inc sb 64) x ls _ True readable
  have out := calmMoves_modCluster ((s.stepped i inc sb 64).sramRead x ls fun _ => [(a, 64)]) x.g
    (injected 0 (streamOut x lane a) (loadBeats x a)) True
  rw [sout_eq hi, transferring_ok ok]
  exact CalmMoves.slotChanges hi ((base.trans read).trans out)

/-- The queue that a SIN names (R102). -/
def streamName (queue : BitVec 2) : Naming := ⟨queue.toNat, 0x3F, true⟩

/-- What a SIN stores (R102). -/
def streamStores (x : Slot) (queue : BitVec 2) (a : Nat) : List Landing :=
  x.lanes.map fun l => ⟨1, .mem l a (regBytes (x.c.head queue.toNat))⟩

theorem sinOp_eq (hi : Issues s i) (queue : BitVec 2) (sb : BitVec 5) (off : BitVec 10) (inc : Bool) :
    let x := slotOf s i
    let a := x.c.ea sb off 64
    s.sinOp i queue sb off inc =
      ((s.stepped i inc sb 64).nameQueues x 2 x.acts [streamName queue]).transferring x x.lanes a 64 64
        (fun t => t.land x.g (streamStores x queue a)) id := by
  unfold State.sinOp
  rw [issue_eq _ hi]
  rfl

/-- A SIN: its base steps before it names its queue, which comes to the same. -/
theorem slotLands_sinOp (hi : Issues s i) (queue : BitVec 2) (sb : BitVec 5) (off : BitVec 10) (inc : Bool) :
    let x := slotOf s i
    let a := x.c.ea sb off 64
    TransferOk x x.lanes a 64 64 →
      SlotLands i.cluster.toNat s (s.sinOp i queue sb off inc) x.acts [streamName queue]
        (postLanding x inc sb 64 ++ streamStores x queue a) := by
  intro x a ok
  have base := calmMoves_stepped s i inc sb 64 True
  have names := moves_nameQueues x 2 x.acts [streamName queue] (live_stepped hi inc sb 64)
  have stores := calmMoves_land ((s.stepped i inc sb 64).nameQueues x 2 x.acts [streamName queue]) x.g
    (streamStores x queue a) True
  rw [sinOp_eq hi, transferring_ok ok]
  refine ((((moves_named hi 2 x.acts []).trans base.moves).trans names).trans stores.moves).slotChanges ?_ fun _ ready => ?_
  · show entered _ (noteHead x.c x.acts (entered (postLanding x inc sb 64) x.c.begun) (streamName queue)) = _
    rw [noteHead_entered, entered_entered]
    rfl
  · have issued : ClustersOnly s (s.named i 2 x.acts []) := rfl
    have named := clustersOnly_nameQueues (s.stepped i inc sb 64) x 2 x.acts [streamName queue] ready
    have stepped : ClustersOnly s (s.stepped i inc sb 64) := ClustersOnly.trans issued (base.quiet trivial)
    exact ClustersOnly.trans (ClustersOnly.trans stepped named) (stores.quiet trivial)

/-- Settles O13: SOUT and SIN. -/
theorem memoryStreams : Obligations.MemoryStreams := by
  intro i lane queue sb off inc s x a ls
  exact ⟨fun ok readable => slotRuns_next rfl fun hi => slotChanges_sout hi lane sb off inc ok readable,
    fun ok => slotRuns_next rfl fun hi => slotLands_sinOp hi queue sb off inc ok⟩

end Sys2Proof.Machine
end

section
/-! FCMP (03 R98): the bits of its lanes, gathered into a mask. -/

namespace Sys2Proof.Machine

/-- The number whose bits below n say for which places p holds. -/
def gather (p : Nat → Bool) (n : Nat) : Nat := (List.range n).foldl (fun v l => if p l then v + 2 ^ l else v) 0

theorem gather_succ (p : Nat → Bool) (n : Nat) : gather p (n + 1) = if p n then gather p n + 2 ^ n else gather p n := by
  rw [gather, List.range_succ, List.foldl_append]
  rfl

theorem gather_lt (p : Nat → Bool) (n : Nat) : gather p n < 2 ^ n := by
  induction n with
  | zero => exact Nat.one_pos
  | succ n ih =>
    rw [gather_succ, Nat.pow_succ]
    split <;> omega

theorem testBit_gather (p : Nat → Bool) (n l : Nat) : (gather p n).testBit l = (decide (l < n) && p l) := by
  induction n with
  | zero => simp [gather]
  | succ n ih =>
    have top : (gather p n).testBit n = false := Nat.testBit_lt_two_pow (gather_lt p n)
    rw [gather_succ]
    rcases Nat.lt_trichotomy l n with below | rfl | above
    · cases p n <;> simp [Nat.add_comm, Nat.testBit_two_pow_add_gt below, ih, below, Nat.lt_succ_of_lt below]
    · cases p l <;> simp [Nat.add_comm, Nat.testBit_two_pow_add_eq, top]
    · have none : ¬l < n + 1 := by omega
      have small : (if p n then gather p n + 2 ^ n else gather p n) < 2 ^ l := by
        rw [← gather_succ]
        exact (gather_lt p (n + 1)).trans_le (Nat.pow_le_pow_right (by decide) above)
      simp [Nat.testBit_lt_two_pow small, none]

/-- What the active lanes give, gathered: a bit is set where its lane is active and p holds. -/
theorem getLsbD_gatherLanes (x : Slot) (p : Nat → Bool) (l : Nat) :
    (BitVec.ofNat 16 (x.lanes.foldl (fun v l => if p l then v + 2 ^ l else v) 0)).getLsbD l = (x.mask.getLsbD l && p l) := by
  have all : x.lanes.foldl (fun v l => if p l then v + 2 ^ l else v) 0 = gather (fun l => x.mask.getLsbD l && p l) 16 := by
    rw [Slot.lanes, activeLanes, List.foldl_filter, gather]
    congr 1
    funext v l
    cases x.mask.getLsbD l <;> rfl
  rw [all, BitVec.getLsbD_ofNat, testBit_gather]
  by_cases inside : l < 16
  · simp [inside]
  · simp [inside, BitVec.getLsbD_of_ge x.mask l (by omega)]

/-- The comparison of one lane (R98). -/
def compareLane (x : Slot) (va vb : BitVec 6) (cond : BitVec 3) (red : BitVec 2) (l : Nat) : Bool :=
  fcmpReduce red.toNat (((x.c.elems (kindOf x.g) l va.toNat).zip (x.c.elems (kindOf x.g) l vb.toNat)).map fun p =>
    fcmpHolds cond.toNat p.1 p.2)

/-- The comparisons of the active lanes. -/
def compareLanes (x : Slot) (va vb : BitVec 6) (cond : BitVec 3) (red : BitVec 2) : BitVec 16 :=
  BitVec.ofNat 16 (x.lanes.foldl (fun v l => if compareLane x va vb cond red l then v + 2 ^ l else v) 0)

theorem slotLands_fcmp {i : Issue} {s : State} (hi : Issues s i) (va vb : BitVec 6) (pd cond : BitVec 3) (red : BitVec 2) :
    let x := slotOf s i
    SlotLands i.cluster.toNat s (s.fcmp i va vb pd cond red) x.acts (namesV va.toNat ++ namesV vb.toNat)
      (together 4 [.pred pd.toNat x.mask (compareLanes x va vb cond red)]) :=
  slotLands_of hi 1 Slot.acts (fun _ => namesV va.toNat ++ namesV vb.toNat) fun x =>
    together 4 [.pred pd.toNat x.mask (compareLanes x va vb cond red)]

/-- Settles O5: the mask of the comparisons is that of the active lanes whose comparison holds. -/
theorem vectorCompare : Obligations.VectorCompare := by
  intro i va vb pd cond red s x
  exact slotRuns_of rfl fun hi => ⟨compareLanes x va vb cond red, slotLands_fcmp hi va vb pd cond red,
    getLsbD_gatherLanes x (compareLane x va vb cond red)⟩

end Sys2Proof.Machine
end

section
/-! Couplings (06 R188-R196): what the messages and the end of a wait leave of a cluster. -/

namespace Sys2Proof.Machine

variable {g : Nat} {s : State}

/-! ### Control entries (R192) -/

theorem cplMsg_signalEntry (k : BitVec 6) {n : BitVec 8} (hn : n ≠ 0#8) :
    cplMsg (signalEntry k n) = .signal k.toNat n.toNat := by
  have kind : (signalEntry k n).extractLsb' 0 2 = 0#2 := BitVec.extractLsb'_append_eq_right
  have name : (signalEntry k n).extractLsb' 2 6 = k :=
    (BitVec.extractLsb'_append_eq_of_le (by decide)).trans BitVec.extractLsb'_append_eq_right
  have amount : (signalEntry k n).extractLsb' 8 8 = n :=
    (BitVec.extractLsb'_append_eq_of_le (by decide)).trans BitVec.extractLsb'_append_eq_left
  have entry : signalEntry k n ≠ 0#16 := fun zero => hn (by rw [← amount, zero]; rfl)
  simp [cplMsg, entry, kind, name, amount, hn]

theorem cplMsg_watchEntry (k : BitVec 6) {path : BitVec 3} (hp : path.toNat ≤ 4) :
    cplMsg (watchEntry k path) = .watch k.toNat path := by
  have kind : (watchEntry k path).extractLsb' 0 2 = 1#2 := BitVec.extractLsb'_append_eq_right
  have name : (watchEntry k path).extractLsb' 2 6 = k :=
    (BitVec.extractLsb'_append_eq_of_le (by decide)).trans BitVec.extractLsb'_append_eq_right
  have line : (watchEntry k path).extractLsb' 8 3 = path :=
    (BitVec.extractLsb'_append_eq_of_le (by decide)).trans
      ((BitVec.extractLsb'_append_eq_of_le (by decide)).trans BitVec.extractLsb'_append_eq_right)
  have rest : (watchEntry k path).extractLsb' 11 5 = 0#5 :=
    (BitVec.extractLsb'_append_eq_of_le (by decide)).trans
      ((BitVec.extractLsb'_append_eq_of_le (by decide)).trans BitVec.extractLsb'_append_eq_left)
  have entry : watchEntry k path ≠ 0#16 := fun zero => by rw [zero] at kind; cases kind
  simp [cplMsg, entry, kind, name, line, rest, hp]

/-! ### Signals -/

/-- A coupling after a signal (R189). -/
def Coupling.signalled (k : Coupling) (n : BitVec 8) (src : BitVec 20) (ms : Nat) : Coupling :=
  { k with
    count := k.count + n.setWidth 32
    total := k.total + 1
    lastSrc := src
    lastMs := BitVec.ofNat 24 ms
    lastValid := true }

/-- A signal that leaves the count in range (R189). -/
theorem Coupling.apply_signal (k : Coupling) (n : BitVec 8) (src : BitVec 20) (ms : Nat)
    (fits : k.count.toNat + n.toNat < 2 ^ 32) :
    k.apply [((n.toNat : Int), src)] ms none = .ok (k.signalled n src ms) := by
  have count : BitVec.ofInt 32 (k.count.toNat + n.toNat : Int) = k.count + n.setWidth 32 := by
    apply BitVec.eq_of_toNat_eq
    have := n.isLt
    rw [BitVec.toNat_ofInt, BitVec.toNat_add, BitVec.toNat_setWidth]
    omega
  have low : ¬(k.count.toNat + n.toNat : Int) < 0 := by omega
  have high : ¬(k.count.toNat + n.toNat : Int) > 2 ^ 32 - 1 := by omega
  simp only [Coupling.apply, List.foldl_cons, List.foldl_nil, low, high, if_false, count]
  rfl

/-- A signal between two beats, whatever holds issue: the probes see it, the coupling takes it (R189, R191). -/
theorem cplSteps_signal (k : Nat) (n : BitVec 8) (src : BitVec 20) (ms : Nat)
    (fits : ((s.cluster g).coupling k).count.toNat + n.toNat < 2 ^ 32) :
    s.cplSteps g k ms [((n.toNat : Int), src)] false 1 =
      (s.probeSignal g k src n.toNat).modCluster g fun c =>
        c.setCoupling k (((s.cluster g).coupling k).signalled n src ms) := by
  have applied := ((s.cluster g).coupling k).apply_signal n src ms fits
  unfold State.cplSteps
  cases hold : (s.cluster g).hold <;> simp [applied, hold]

/-- The probes see a signal; the clusters are as before. -/
theorem cluster_probeSignal (s : State) (g k : Nat) (src : BitVec 20) (n h : Nat) :
    (s.probeSignal g k src n).cluster h = s.cluster h := by
  rw [(probesOnly_probeSignal s g k src n).rest]
  rfl

/-! ### Messages to a cluster whose job runs (R191) -/

section
variable {m : Nat} (owner : s.slotOfCluster g = some m) (runs : (s.job m).beating = true)
include owner runs

theorem message_signal (k : BitVec 6) {n : BitVec 8} (hn : n ≠ 0#8) (src : BitVec 20) :
    s.message g (signalEntry k n) src =
      (s.cplSteps g k.toNat (max s.ms ((s.job m).cycleMs ((s.job m).beat + (s.job m).skipped))) [((n.toNat : Int), src)]
        false 1).modCluster g Cluster.wakeWaiters := by
  simp only [State.message, owner, runs, if_true, cplMsg_signalEntry k hn]

theorem message_watch (k : BitVec 6) {path : BitVec 3} (hp : path.toNat ≤ 4) (src : BitVec 20) :
    s.message g (watchEntry k path) src = (s.watchCluster g k.toNat path 1).modCluster g Cluster.wakeWaiters := by
  simp only [State.message, owner, runs, if_true, cplMsg_watchEntry k hp]

theorem message_wake (src : BitVec 20) : s.message g wakeEntry src = s.wakeBetween g := by
  have wake : cplMsg wakeEntry = .wake := by decide
  simp only [State.message, owner, runs, if_true, wake]

end

/-- The cluster of a state becomes c, and no other cluster changes. -/
theorem sets_modCluster_of_same {t : State} (f : Cluster → Cluster) (same : ∀ h, t.cluster h = s.cluster h) :
    Sets s.cluster (t.modCluster g f).cluster g (f (s.cluster g)) :=
  ⟨(State.modCluster_same ..).trans (congrArg f (same g)),
    fun h hne => (State.modCluster_other _ _ _ _ hne).trans (same h)⟩

/-- A cluster written twice. -/
theorem sets_modCluster {t : State} {c : Cluster} (a : Sets s.cluster t.cluster g c) (f : Cluster → Cluster) :
    Sets s.cluster (t.modCluster g f).cluster g (f c) :=
  ⟨(State.modCluster_same ..).trans (congrArg f a.1),
    fun h hne => (State.modCluster_other _ _ _ _ hne).trans (a.2 h hne)⟩

/-- A watch takes the first free slot (R194). -/
theorem watchCluster_free {k j back : Nat} (path : BitVec 3)
    (free : (List.range 8).find? (fun j => !(((s.cluster g).coupling k).slot j).valid) = some j) :
    s.watchCluster g k path back = s.modCluster g fun c =>
      c.setCoupling k (((s.cluster g).coupling k).setSlot j { valid := true, path := path }) := by
  simp only [State.watchCluster, free]

/-! ### The end of a wait -/

/-- Where a woken hold stands between two beats: over where its drain is (R85, R190). -/
def wokenHold (left : Nat) : Hold := if left = 0 then .resume 3 else .woken left

theorem settle_woken (c : Cluster) (left : Nat) :
    { c with hold := .woken left }.settle = { c with hold := wokenHold left } := by
  cases left <;> rfl

/-- A wake between two beats ends a remote wait once its drain is complete (R85, R194). -/
theorem sets_wakeBetween {k : BitVec 6} {left : Nat} (hold : (s.cluster g).hold = .remote k left) :
    Sets s.cluster (s.wakeBetween g).cluster g { s.cluster g with hold := wokenHold left } := by
  have woken : s.wakeCluster g 1 = s.modCluster g fun c => { c with hold := .woken left } := by
    simp only [State.wakeCluster, hold]
  rw [State.wakeBetween, woken, ← settle_woken]
  exact sets_modCluster (sets_modCluster_of_same _ fun _ => rfl) Cluster.settle

/-- What a satisfied wait takes of its coupling (R189). -/
def Cluster.taken (c : Cluster) (w : BitVec 6) (cond : BitVec 3) (val : BitVec 8) (take : Bool) : Cluster :=
  let k := c.coupling w.toNat
  if cond.toNat < 2 then c.setCoupling w.toNat (if take then { k with count := k.count - val.setWidth 32 } else k) else c

theorem count_taken (c : Cluster) (w : BitVec 6) (cond : BitVec 3) (val : BitVec 8) (take : Bool) :
    ((c.taken w cond val take).coupling w.toNat).count =
      (c.coupling w.toNat).count - (if take = true ∧ cond.toNat < 2 then val.setWidth 32 else 0) := by
  unfold Cluster.taken
  by_cases coupled : cond.toNat < 2
  · cases take <;> simp [coupled]
  · simp [coupled]

/-- The waiter fields of a coupling apart, its count stands. -/
theorem count_clearWaiter (c : Cluster) (k cond : Nat) :
    ((c.clearWaiter k cond).coupling k).count = (c.coupling k).count := by
  unfold Cluster.clearWaiter
  split
  · rw [Cluster.setCoupling_same]
  · rfl

/-- A held local wait whose drain is over and whose condition holds (R189, R190). -/
theorem waitSatisfied_met {w : BitVec 6} {cond : BitVec 3} {val : BitVec 8} {take : Bool} {mask : BitVec 16}
    (hold : (s.cluster g).hold = .wait w cond val take mask 0) (issued : (s.cluster g).issued = false)
    (holds : waitHolds (s.cluster g) w.toNat cond.toNat val.toNat
      (((s.cluster g).coupling w.toNat).count.toNat : Int) = true) :
    s.waitSatisfied g =
      s.setCluster g (((s.cluster g).taken w cond val take).clearWaiter w.toNat cond.toNat).resume := by
  by_cases coupled : cond.toNat < 2 <;> simp [State.waitSatisfied, hold, issued, holds, Cluster.taken, coupled]

/-- A pulse on a wake line of a cluster whose job runs (R194, R196). -/
theorem wakeLinePulse_runs {c : BitVec 16} {m : Nat} (owner : s.slotOfCluster c.toNat = some m)
    (runs : (s.job m).beating = true) (dir : BitVec 2) :
    exec (.wakeLinePulse c dir) s = .next (s.traced (s.wakeBetween c.toNat)) := by
  show execWakeLinePulse c dir s = _
  simp only [execWakeLinePulse, owner, runs, if_true]

/-- The probes leave the clusters. -/
theorem sets_traced {t u : State} {c : Cluster} (a : Sets s.cluster t.cluster g c) :
    Sets s.cluster (u.traced t).cluster g c :=
  ⟨(traced_clusterAt ..).trans a.1, fun h hne => (traced_clusterAt ..).trans (a.2 h hne)⟩

/-- Settles O21: the end of a local wait, a signal, a watch, and a wake as a message or on a line. -/
theorem couplingEvents : Obligations.CouplingEvents := by
  intro c s g runs
  refine ⟨fun w cond val take mask hold issued holds => ?wait, fun m k n origin owner beats hn fits => ?signal,
    fun k path j ⟨m, owner, beats⟩ hp free => ?watch, fun k left ⟨m, owner, beats⟩ hold => ?wake,
    fun k left dir ⟨m, owner, beats⟩ hold => ?line⟩
  case wait =>
    refine ⟨_, rfl, ?_⟩
    rw [waitSatisfied_met hold issued holds]
    simp only [traced_clusterAt, cluster_setCluster_same]
    exact ⟨rfl, (count_clearWaiter ..).trans (count_taken ..), fun h hne => cluster_setCluster_other _ _ _ _ hne⟩
  case signal =>
    refine ⟨_, rfl, ?_⟩
    have entry := message_signal owner beats k hn origin
    rw [cplSteps_signal k.toNat n origin _ fits] at entry
    exact entry ▸ sets_modCluster (sets_modCluster_of_same _ (cluster_probeSignal s g k.toNat origin n.toNat)) _
  case watch =>
    have entry := message_watch owner beats k hp 0
    rw [watchCluster_free path free] at entry
    exact ⟨_, rfl, entry ▸ sets_modCluster (sets_modCluster_of_same _ fun _ => rfl) _⟩
  case wake => exact ⟨_, rfl, sets_traced (message_wake owner beats 0 ▸ sets_wakeBetween hold)⟩
  case line => exact ⟨_, wakeLinePulse_runs owner beats dir, sets_traced (sets_wakeBetween hold)⟩

end Sys2Proof.Machine
end

section
/-! BROADCAST_WAKE (06 R196, R198): the clusters of a die when a round is released. -/

namespace Sys2Proof.Machine

variable {s : State}

/-- What a broadcast wake leaves of a cluster of its die, whose job runs or not (R196, R198). -/
def Cluster.broadcast (oldest : Nat) (run : Bool) (c : Cluster) : Cluster :=
  if run then
    match c.hold with
    | .toll n left => if n < oldest then { c with hold := wokenHold left } else c
    | _ => c
  else if c.held then { c with hold := .none, stall := .none, parked := true } else c

theorem broadcast_released {c : Cluster} {n left oldest : Nat} (hold : c.hold = .toll n left) (released : n < oldest) :
    c.broadcast oldest true = { c with hold := wokenHold left } := by
  simp [Cluster.broadcast, hold, released]

theorem broadcast_unreleased {c : Cluster} {n left oldest : Nat} (hold : c.hold = .toll n left) (later : oldest ≤ n) :
    c.broadcast oldest true = c := by
  simp [Cluster.broadcast, hold, Nat.not_lt.2 later]

theorem broadcast_untolled {c : Cluster} (oldest : Nat) (hold : ∀ n left, c.hold ≠ .toll n left) :
    c.broadcast oldest true = c := by
  unfold Cluster.broadcast
  split
  · split
    · exact absurd ‹_› (hold _ _)
    · rfl
  · contradiction

theorem broadcast_parks {c : Cluster} (oldest : Nat) (held : c.held = true) :
    c.broadcast oldest false = { c with hold := .none, stall := .none, parked := true } := by
  simp [Cluster.broadcast, held]

theorem broadcast_unheld {c : Cluster} (oldest : Nat) (held : c.held = false) : c.broadcast oldest false = c := by
  simp [Cluster.broadcast, held]

/-- A broadcast wake leaves a cluster of which nothing is stored. -/
theorem broadcast_default (oldest : Nat) (run : Bool) : ({} : Cluster).broadcast oldest run = {} := by
  cases run <;> rfl

/-- Does the job of a die run? -/
def State.wakesDie (s : State) (die : Nat) : Bool :=
  match s.slotOfDie die with
  | some k => (s.job k).beating
  | none => false

/-- A broadcast wake at one listed cluster. -/
def State.broadcastAt (die : Nat) (run : Bool) (s : State) (p : Nat × Cluster) : State :=
  if gidDie p.1 = die then
    if !run then
      if p.2.held then s.setCluster p.1 { p.2 with hold := .none, stall := .none, parked := true } else s
    else
      match p.2.hold with
      | .toll n left => if n < s.toll.oldest then s.setCluster p.1 { p.2 with hold := .woken left }.settle else s
      | _ => s
  else s

theorem broadcastWake_eq (s : State) (die : Nat) :
    s.broadcastWake die = s.clusters.foldl (State.broadcastAt die (s.wakesDie die)) s := rfl

/-- One listed cluster: where it is of the die it is left as `Cluster.broadcast` says. -/
theorem broadcastAt_leaves (die : Nat) (run : Bool) {t : State} {p : Nat × Cluster} (listed : t.cluster p.1 = p.2) :
    (t.broadcastAt die run p).toll = t.toll ∧
      Sets t.cluster (t.broadcastAt die run p).cluster p.1
        (if gidDie p.1 = die then p.2.broadcast t.toll.oldest run else p.2) := by
  have stays : Sets t.cluster t.cluster p.1 p.2 := ⟨listed, fun _ _ => rfl⟩
  have writes (c : Cluster) : Sets t.cluster (t.setCluster p.1 c).cluster p.1 c :=
    ⟨cluster_setCluster_same .., fun h hne => cluster_setCluster_other _ _ _ _ hne⟩
  unfold State.broadcastAt Cluster.broadcast
  by_cases own : gidDie p.1 = die
  · simp only [own, if_true]
    cases run
    · cases held : p.2.held
      · exact ⟨rfl, stays⟩
      · exact ⟨rfl, writes _⟩
    · simp only [Bool.not_true, Bool.false_eq_true, if_false, if_true]
      split
      next n left hold =>
        rw [settle_woken]
        split
        · exact ⟨rfl, writes _⟩
        · exact ⟨rfl, stays⟩
      next => exact ⟨rfl, stays⟩
  · simp only [own, if_false]
    exact ⟨trivial, stays⟩

/-- Listed clusters, each once: those of the die are left as `Cluster.broadcast` says, and no other changes. -/
theorem cluster_foldl_broadcastAt (die : Nat) (run : Bool) {l : AMap Cluster} (rise : KeysRise l) {t : State}
    (listed : ∀ p ∈ l, t.cluster p.1 = p.2) (g : Nat) :
    (l.foldl (State.broadcastAt die run) t).cluster g =
      if g ∈ l.map (·.1) ∧ gidDie g = die then (t.cluster g).broadcast t.toll.oldest run else t.cluster g := by
  induction l generalizing t with
  | nil => simp
  | cons p l ih =>
    obtain ⟨later, rise⟩ := (keysRise_cons p l).1 rise
    have own := listed p (List.mem_cons_self ..)
    obtain ⟨toll, at_p, others⟩ := broadcastAt_leaves die run own
    have apart : p.1 ∉ l.map (·.1) := fun h => by
      obtain ⟨q, hq, e⟩ := List.mem_map.1 h
      exact absurd e (Nat.ne_of_gt (later q hq))
    have rest := ih rise (t := t.broadcastAt die run p) fun q hq =>
      (others q.1 (Nat.ne_of_gt (later q hq))).trans (listed q (List.mem_cons_of_mem _ hq))
    rw [List.foldl_cons, rest, toll]
    by_cases first : g = p.1
    · subst first
      simp [apart, at_p, own]
    · simp only [List.map_cons, List.mem_cons, first, false_or, others g first]

/-- A broadcast wake on the clusters of its die, and no others. -/
theorem cluster_broadcastWake (rise : KeysRise s.clusters) (die g : Nat) :
    (s.broadcastWake die).cluster g =
      if gidDie g = die then (s.cluster g).broadcast s.toll.oldest (s.wakesDie die) else s.cluster g := by
  have listed : ∀ p ∈ s.clusters, s.cluster p.1 = p.2 := fun p hp => AMap.get_of_mem rise hp
  rw [broadcastWake_eq, cluster_foldl_broadcastAt die _ rise listed]
  by_cases stored : g ∈ s.clusters.map (·.1)
  · simp [stored]
  · have absent : s.cluster g = {} := by
      by_contra present
      exact stored (List.mem_map.2 ⟨_, AMap.mem_of_get_ne present, rfl⟩)
    rw [if_neg fun h => stored h.1, absent, broadcast_default, ite_self]

theorem cluster_broadcastWake_other (rise : KeysRise s.clusters) {die g : Nat} (other : gidDie g ≠ die) :
    (s.broadcastWake die).cluster g = s.cluster g := by
  rw [cluster_broadcastWake rise, if_neg other]

/-- A cluster that a broadcast wake of its die leaves alone stands, whatever its die. -/
theorem cluster_broadcastWake_stands (rise : KeysRise s.clusters) {die g : Nat}
    (stands : (s.cluster g).broadcast s.toll.oldest (s.wakesDie die) = s.cluster g) :
    (s.broadcastWake die).cluster g = s.cluster g := by
  rw [cluster_broadcastWake rise, stands, ite_self]

/-- Settles O22: the clusters of the die whose job runs, and those of a die on which no job runs. -/
theorem broadcastWake : Obligations.BroadcastWake := by
  intro die s rise
  refine ⟨fun k owner beats => ⟨_, rfl, ?runs⟩, fun idle => ⟨_, rfl, ?parks⟩⟩ <;> simp only [traced_clusterAt]
  case runs =>
    have run : s.wakesDie die.toNat = true := by simp only [State.wakesDie, owner, beats]
    refine ⟨fun g n left own hold released => ?_, fun g other => cluster_broadcastWake_other rise other,
      fun g n left hold later => cluster_broadcastWake_stands rise ?_, fun g hold => cluster_broadcastWake_stands rise ?_⟩
    · rw [cluster_broadcastWake rise, if_pos own, run, broadcast_released hold released]
      rfl
    · rw [run, broadcast_unreleased hold later]
    · rw [run, broadcast_untolled _ hold]
  case parks =>
    have run : s.wakesDie die.toNat = false := by
      unfold State.wakesDie
      split
      · exact idle _ ‹_›
      · rfl
    refine ⟨fun g own held => ?_, fun g spared => ?_⟩
    · rw [cluster_broadcastWake rise, if_pos own, run, broadcast_parks _ held]
    · rcases spared with other | free
      · exact cluster_broadcastWake_other rise other
      · exact cluster_broadcastWake_stands rise (by rw [run, broadcast_unheld _ free])

end Sys2Proof.Machine
end

section
/-! Crossings (03 R140-R142, R157): the registers of a crossing, what a drift leaves in them, and a crossing that goes
down. -/

namespace Sys2Proof.Machine

/-- An access that reaches its register acts. -/
theorem gate_granted {s : State} {via : Via} {off : Nat} (reached : s.grants via off = true) (act : State → State) :
    s.gate via off act = act s := by
  simp [State.gate, State.admits, reached]

/-- The registers of the die windows are none that faults write. -/
theorem not_mem_faultRegs {a : Nat} (window : 0x400000 ≤ a) : a ∉ faultRegs := by
  simp only [faultRegs, Reg.EVT_POISON, Reg.PST_PAIR_STATUS, Reg.PST_PAIR_COUNTS, List.mem_cons, List.not_mem_nil, or_false]
  omega

theorem faultOnly_slotFaults (s : State) (ks : List Nat) (r : Nat → EventRec) : FaultOnly s (s.slotFaults ks r) := by
  refine FaultOnly.trans (faultOnly_foldl _ (fun t k => ?_) ks s) (faultOnly_failOrSettle _ _)
  split
  · exact faultOnly_slotFault t k _
  · exact (faultOnly_logEvent t _).trans (faultOnly_faultJob _ k)

/-! ### Registers of a crossing -/

/-- The two sides of a crossing have status registers of their own, whatever the dies. -/
theorem xingStatus_opposite (die dst e : Nat) :
    Reg.FAB_XING_STATUS dst (opposite e) ≠ Reg.FAB_XING_STATUS die e := by
  unfold Reg.FAB_XING_STATUS opposite
  omega

theorem xingDrift_ne_status (die e d f : Nat) : Reg.FAB_XING_DRIFT die e ≠ Reg.FAB_XING_STATUS d f := by
  unfold Reg.FAB_XING_DRIFT Reg.FAB_XING_STATUS
  omega

theorem xingCount_ne_status (die e d f : Nat) : Reg.FAB_XING_COUNT die e ≠ Reg.FAB_XING_STATUS d f := by
  unfold Reg.FAB_XING_COUNT Reg.FAB_XING_STATUS
  omega

theorem xingCount_ne_drift (die e d f : Nat) : Reg.FAB_XING_COUNT die e ≠ Reg.FAB_XING_DRIFT d f := by
  unfold Reg.FAB_XING_COUNT Reg.FAB_XING_DRIFT
  omega

/-! ### A crossing goes down -/

/-- One side of a crossing is down, with the cause (R141). -/
def State.edgeDown (s : State) (die e cause : Nat) : State :=
  ((s.setField (Reg.FAB_XING_STATUS die e) 0 2 3).setField (Reg.FAB_XING_STATUS die e) 3 1 1).setField
    (Reg.FAB_XING_STATUS die e) 4 4 cause

section
variable (s : State) (die e : Nat) {cause : Nat}

theorem edgeMode_edgeDown : (s.edgeDown die e cause).edgeMode die e = 3 := by
  rw [State.edgeMode, State.edgeDown, field_setField_apart _ _ _ _ _ _ _ (by decide) (by decide),
    field_setField_apart _ _ _ _ _ _ _ (by decide) (by decide), field_setField_same _ _ _ _ _ (by decide)]
  rfl

theorem cause_edgeDown (known : cause < 16) : (s.edgeDown die e cause).field (Reg.FAB_XING_STATUS die e) 4 4 = cause := by
  rw [State.edgeDown, field_setField_same _ _ _ _ _ (by decide)]
  exact Nat.mod_eq_of_lt known

theorem field_edgeDown_other {a : Nat} (lo w : Nat) (other : a ≠ Reg.FAB_XING_STATUS die e) :
    (s.edgeDown die e cause).field a lo w = s.field a lo w := by
  simp only [State.edgeDown, field_setField_other _ _ _ _ _ _ _ _ other]

end

section
variable {s : State} {die e dst cause : Nat}

/-- A fault of a trained crossing takes both sides down and empties it; what follows for jobs and the log is a fault's
(R141, R142). -/
theorem crossingFault_sides (beyond : dieNeighbour die e = some dst)
    (trained : s.edgeMode die e = 1 ∨ s.edgeMode die e = 2) :
    ∃ u, FaultOnly u (s.crossingFault die e cause) ∧ u.chsMem = s.chsMem ∧
      u.regs = ((s.edgeDown die e cause).edgeDown dst (opposite e) cause).regs := by
  have up : ¬(s.edgeMode die e = 3 ∨ s.edgeMode die e = 0) := by omega
  unfold State.crossingFault
  simp only [beyond, if_neg up]
  split
  · exact ⟨_, faultOnly_logEvent _ _, by simp, by simp [State.edgeDown]⟩
  · exact ⟨_, faultOnly_slotFaults _ _ _, by simp, by simp [State.edgeDown]⟩

/-- What a fault of a trained crossing leaves in a register of the die windows. -/
theorem field_crossingFault (beyond : dieNeighbour die e = some dst)
    (trained : s.edgeMode die e = 1 ∨ s.edgeMode die e = 2) {a : Nat} (window : 0x400000 ≤ a) (lo w : Nat) :
    (s.crossingFault die e cause).field a lo w =
      ((s.edgeDown die e cause).edgeDown dst (opposite e) cause).field a lo w := by
  obtain ⟨u, only, -, sides⟩ := crossingFault_sides beyond trained (cause := cause)
  rw [only.field a lo w (not_mem_faultRegs window), field_of_regs sides]

theorem xingStatus_window (die e : Nat) : 0x400000 ≤ Reg.FAB_XING_STATUS die e := by
  unfold Reg.FAB_XING_STATUS
  omega

theorem xingCount_window (die e : Nat) : 0x400000 ≤ Reg.FAB_XING_COUNT die e := by
  unfold Reg.FAB_XING_COUNT
  omega

/-- Both sides are down with the cause, and the Coachhouse stands. -/
theorem crossingFault_down (beyond : dieNeighbour die e = some dst)
    (trained : s.edgeMode die e = 1 ∨ s.edgeMode die e = 2) (known : cause < 16) :
    (s.crossingFault die e cause).edgeMode die e = 3 ∧
    (s.crossingFault die e cause).edgeMode dst (opposite e) = 3 ∧
    (s.crossingFault die e cause).field (Reg.FAB_XING_STATUS die e) 4 4 = cause ∧
    (s.crossingFault die e cause).field (Reg.FAB_XING_STATUS dst (opposite e)) 4 4 = cause ∧
    (s.crossingFault die e cause).chsMem = s.chsMem := by
  have apart := (xingStatus_opposite die dst e).symm
  obtain ⟨u, only, memory, -⟩ := crossingFault_sides beyond trained (cause := cause)
  refine ⟨?_, ?_, ?_, ?_, only.chsMem.trans memory⟩
  · rw [State.edgeMode, field_crossingFault beyond trained (xingStatus_window _ _), field_edgeDown_other _ _ _ _ _ apart]
    exact edgeMode_edgeDown s die e
  · rw [State.edgeMode, field_crossingFault beyond trained (xingStatus_window _ _)]
    exact edgeMode_edgeDown _ _ _
  · rw [field_crossingFault beyond trained (xingStatus_window _ _), field_edgeDown_other _ _ _ _ _ apart,
      cause_edgeDown _ _ _ known]
  · rw [field_crossingFault beyond trained (xingStatus_window _ _), cause_edgeDown _ _ _ known]

theorem field_crossingFault_count (beyond : dieNeighbour die e = some dst)
    (trained : s.edgeMode die e = 1 ∨ s.edgeMode die e = 2) (lo w : Nat) :
    (s.crossingFault die e cause).field (Reg.FAB_XING_COUNT die e) lo w = s.field (Reg.FAB_XING_COUNT die e) lo w := by
  rw [field_crossingFault beyond trained (xingCount_window _ _),
    field_edgeDown_other _ _ _ _ _ (xingCount_ne_status _ _ _ _), field_edgeDown_other _ _ _ _ _ (xingCount_ne_status _ _ _ _)]

end

/-! ### A drift -/

/-- The magnitude of the drift that stands for a crossing (R157). -/
def State.driftSize (s : State) (die e : Nat) : Nat := ((s.reg (Reg.FAB_XING_DRIFT die e)).extractLsb' 0 8).toInt.natAbs

/-- What a drift leaves in the registers of a trained crossing: the drift with its extremes, and a warning counted where
it rises to 32 or above (R140, R157). -/
def State.noteDrift (s : State) (die e : Nat) (d : BitVec 8) : State :=
  if 32 ≤ d.toInt.natAbs ∧ s.driftSize die e < 32 then (s.setDrift die e d).bump (Reg.FAB_XING_COUNT die e) 0 16 1
  else s.setDrift die e d

section
variable (s : State) (die e : Nat) (d : BitVec 8)

theorem drift_setDrift : ((s.setDrift die e d).reg (Reg.FAB_XING_DRIFT die e)).extractLsb' 0 8 = d := by
  rw [State.setDrift, reg_setReg_same, slotField_append_low _ _ (by decide), slotField_whole]

theorem lowest_setDrift : ((s.setDrift die e d).reg (Reg.FAB_XING_DRIFT die e)).extractLsb' 8 8 =
    if d.slt ((s.reg (Reg.FAB_XING_DRIFT die e)).extractLsb' 8 8) then d
    else (s.reg (Reg.FAB_XING_DRIFT die e)).extractLsb' 8 8 := by
  rw [State.setDrift, reg_setReg_same, slotField_append_high _ _ (by decide), slotField_append_low _ _ (by decide),
    slotField_whole]

theorem highest_setDrift : ((s.setDrift die e d).reg (Reg.FAB_XING_DRIFT die e)).extractLsb' 16 8 =
    if ((s.reg (Reg.FAB_XING_DRIFT die e)).extractLsb' 16 8).slt d then d
    else (s.reg (Reg.FAB_XING_DRIFT die e)).extractLsb' 16 8 := by
  rw [State.setDrift, reg_setReg_same, slotField_append_high _ _ (by decide), slotField_append_high _ _ (by decide),
    slotField_append_low _ _ (by decide), slotField_whole]

theorem reg_noteDrift_drift : (s.noteDrift die e d).reg (Reg.FAB_XING_DRIFT die e) =
    (s.setDrift die e d).reg (Reg.FAB_XING_DRIFT die e) := by
  unfold State.noteDrift
  split
  · exact reg_bump_other _ _ _ _ _ _ (xingCount_ne_drift _ _ _ _).symm
  · rfl

theorem field_setDrift_other {a : Nat} (lo w : Nat) (other : a ≠ Reg.FAB_XING_DRIFT die e) :
    (s.setDrift die e d).field a lo w = s.field a lo w := field_setReg_other _ _ _ _ _ _ other

theorem edgeMode_noteDrift (f : Nat) : (s.noteDrift die e d).edgeMode die f = s.edgeMode die f := by
  unfold State.noteDrift State.edgeMode
  split
  · rw [field_bump_other _ _ _ _ _ _ _ _ (xingCount_ne_status _ _ _ _).symm,
      field_setDrift_other _ _ _ _ _ _ (xingDrift_ne_status _ _ _ _).symm]
  · exact field_setDrift_other _ _ _ _ _ _ (xingDrift_ne_status _ _ _ _).symm

theorem chsMem_noteDrift : (s.noteDrift die e d).chsMem = s.chsMem := by
  unfold State.noteDrift
  split <;> rfl

/-- The count of warnings goes up, to its end, where the drift rises to 32 or above. -/
theorem warnings_noteDrift : (s.noteDrift die e d).field (Reg.FAB_XING_COUNT die e) 0 16 =
    if 32 ≤ s.driftSize die e ∨ d.toInt.natAbs < 32 then s.field (Reg.FAB_XING_COUNT die e) 0 16
    else min (s.field (Reg.FAB_XING_COUNT die e) 0 16 + 1) 65535 := by
  have stands := field_setDrift_other s die e d 0 16 (xingCount_ne_drift die e die e)
  unfold State.noteDrift
  by_cases rises : 32 ≤ d.toInt.natAbs ∧ s.driftSize die e < 32
  · rw [if_pos rises, if_neg (by omega), field_bump_same _ _ _ _ _ (by decide), stands]
    rfl
  · rw [if_neg rises, if_pos (by omega), stands]

variable {s die e d}

/-- A drift of 64 or more faults the crossing (R140). -/
theorem drifts_limit (trained : s.edgeMode die e = 1 ∨ s.edgeMode die e = 2) (limit : 64 ≤ d.toInt.natAbs) :
    s.drifts die e d = (s.noteDrift die e d).crossingFault die e 1 := by
  have up : ¬(s.edgeMode die e = 0 ∨ s.edgeMode die e = 3) := by omega
  unfold State.drifts State.noteDrift State.driftSize
  simp only [if_neg up, ge_iff_le, if_pos limit]

/-- Short of 64 a drift is noted, and its warning concerns the log only (R140, R142). -/
theorem regs_drifts_short (trained : s.edgeMode die e = 1 ∨ s.edgeMode die e = 2) (short : d.toInt.natAbs < 64) :
    (s.drifts die e d).regs = (s.noteDrift die e d).regs := by
  have up : ¬(s.edgeMode die e = 0 ∨ s.edgeMode die e = 3) := by omega
  unfold State.drifts State.noteDrift State.driftSize
  simp only [if_neg up, ge_iff_le, if_neg (Nat.not_le.2 short)]
  by_cases rises : 32 ≤ d.toInt.natAbs ∧ ((s.reg (Reg.FAB_XING_DRIFT die e)).extractLsb' 0 8).toInt.natAbs < 32
  · simp only [if_pos rises, if_neg (not_not_intro rises)]
    split
    · rfl
    · rw [regs_logEvent, State.modDie_regs]
  · simp only [if_neg rises, if_pos rises]

end

/-! ### A lane is lost (R142) -/

theorem laneLoss_spared {s : State} {die e dst lane : Nat} (beyond : dieNeighbour die e = some dst)
    (spared : ∃ p ∈ (s.die die).lanePairs e ++ (s.die dst).lanePairs (opposite e), p.1 = lane) :
    s.laneLoss die e lane = s := by
  unfold State.laneLoss
  rw [beyond, Option.getD_some, if_pos (by simpa only [List.any_eq_true, beq_iff_eq] using spared)]

theorem laneLoss_unspared {s : State} {die e dst lane : Nat} (beyond : dieNeighbour die e = some dst)
    (unspared : ¬∃ p ∈ (s.die die).lanePairs e ++ (s.die dst).lanePairs (opposite e), p.1 = lane) :
    s.laneLoss die e lane = s.crossingFault die e 3 := by
  unfold State.laneLoss
  rw [beyond, Option.getD_some, if_neg (by simpa only [List.any_eq_true, beq_iff_eq] using unspared)]

/-! ### The obligations -/

/-- Settles O25: a drift by its magnitude, an error of the beat check, and the loss of a lane. -/
theorem crossingEvents : Obligations.CrossingEvents := by
  intro die edge d lane dst s x count mode was spared down (trained : s.edgeMode _ _ = 1 ∨ s.edgeMode _ _ = 2)
  have faulted {u : State} {cause : Nat} (beyond : dieNeighbour die.toNat edge.toNat = some dst)
      (same : u.edgeMode die.toNat edge.toNat = s.edgeMode die.toNat edge.toNat) (memory : u.chsMem = s.chsMem)
      (known : cause < 16) : down cause (u.crossingFault die.toNat edge.toNat cause) := by
    obtain ⟨near, far, nearCause, farCause, kept⟩ := crossingFault_down beyond (same.symm ▸ trained) known
    exact ⟨near, far, nearCause, farCause, kept.trans memory⟩
  refine ⟨fun short => ⟨_, rfl, ?short⟩, fun beyond limit => ⟨_, rfl, ?limit⟩, fun beyond => ⟨_, rfl, ?check⟩,
    fun beyond unspared => ⟨_, rfl, ?loss⟩, fun beyond served => ⟨_, rfl, laneLoss_spared beyond served⟩⟩
  case short =>
    have regs : (s.driftWarning die.toNat edge.toNat d).regs = _ := regs_drifts_short trained short
    have stored : (s.driftWarning die.toNat edge.toNat d).reg x = (s.setDrift die.toNat edge.toNat d).reg x :=
      (reg_of_regs regs x).trans (reg_noteDrift_drift _ _ _ _)
    dsimp only
    rw [stored, field_of_regs regs]
    exact ⟨drift_setDrift _ _ _ _, lowest_setDrift _ _ _ _, highest_setDrift _ _ _ _, warnings_noteDrift _ _ _ _⟩
  case limit =>
    have same := edgeMode_noteDrift s die.toNat edge.toNat d edge.toNat
    have rising : 32 ≤ was ∨ d.toInt.natAbs < 32 ↔ 32 ≤ was := or_iff_left (by omega)
    rw [State.driftLimit, drifts_limit trained limit]
    refine ⟨faulted beyond same (chsMem_noteDrift _ _ _ _) (by decide), ?_⟩
    rw [field_crossingFault_count beyond (same.symm ▸ trained), warnings_noteDrift]
    exact if_congr rising rfl rfl
  case check =>
    have up : ¬(s.edgeMode die.toNat edge.toNat = 0 ∨ s.edgeMode die.toNat edge.toNat = 3) := by omega
    have same : (s.bump count 16 16 1).edgeMode die.toNat edge.toNat = s.edgeMode die.toNat edge.toNat :=
      field_bump_other _ _ _ _ _ _ _ _ (xingCount_ne_status _ _ _ _).symm
    rw [State.beatCheck, if_neg up]
    refine ⟨faulted beyond same rfl (by decide), ?_⟩
    rw [field_crossingFault_count beyond (same.symm ▸ trained), field_bump_same _ _ _ _ _ (by decide)]
    rfl
  case loss =>
    rw [laneLoss_unspared beyond unspared]
    exact faulted beyond rfl rfl (by decide)

/-- Settles O26: CLEAR_MINMAX writes two fields of one register, CLEAR_COUNT the whole of another. -/
theorem crossingClears : Obligations.CrossingClears := by
  intro via die edge s x count reached
  refine ⟨⟨_, rfl, ?minmax⟩, ⟨_, rfl, ?count⟩⟩ <;> rw [gate_granted reached]
  case minmax =>
    have fits : s.field x 0 8 % 2 ^ 8 = s.field x 0 8 := Nat.mod_eq_of_lt (field_lt s x 0 8)
    refine ⟨?_, ?_, ?_, fun a other => ?_, regsOnly_trans (regsOnly_setField _ _ _ _ _) (regsOnly_setField _ _ _ _ _)⟩
    · rw [State.clearMinmax, field_setField_apart _ _ _ _ _ _ _ (by decide) (by decide),
        field_setField_apart _ _ _ _ _ _ _ (by decide) (by decide)]
    · rw [State.clearMinmax, field_setField_apart _ _ _ _ _ _ _ (by decide) (by decide),
        field_setField_same _ _ _ _ _ (by decide), fits]
    · rw [State.clearMinmax, field_setField_same _ _ _ _ _ (by decide), fits]
    · rw [State.clearMinmax, reg_setField_other _ _ _ _ _ _ other, reg_setField_other _ _ _ _ _ _ other]
  case count =>
    exact ⟨reg_setReg_same _ _ _, fun a other => reg_setReg_other _ _ _ _ other, regsOnly_setReg _ _ _⟩

end Sys2Proof.Machine
end

section
/-! Registers of 64 bits (00 R12): what they and others read after a write, alone and of a list. -/

namespace Sys2Proof.Machine

variable (s : State) {a b : Nat}

theorem reg_setReg64_other (v : Nat) (low : b ≠ a) (high : b ≠ a + 4) : (s.setReg64 a v).reg b = s.reg b := by
  rw [State.setReg64, reg_setReg_other _ _ _ _ high, reg_setReg_other _ _ _ _ low]

/-- A wide register reads what was written to it. -/
theorem reg64_setReg64_same (v : Nat) : (s.setReg64 a v).reg64 a = v % 2 ^ 64 := by
  rw [State.reg64, State.setReg64, reg_setReg_same, reg_setReg_other _ _ _ _ (by omega), reg_setReg_same, BitVec.toNat_ofNat,
    BitVec.toNat_ofNat]
  omega

/-- A wide register whose two words stand. -/
theorem reg64_of_reg {s t : State} (low : t.reg a = s.reg a) (high : t.reg (a + 4) = s.reg (a + 4)) :
    t.reg64 a = s.reg64 a := by
  rw [State.reg64, State.reg64, low, high]

/-- A list written leaves the words outside its place. -/
theorem reg_setRegs64_outside (l : List Nat) (outside : b < a ∨ a + 8 * l.length ≤ b) :
    (s.setRegs64 a l).reg b = s.reg b := by
  induction l generalizing s a with
  | nil => rfl
  | cons v vs ih =>
    rw [List.length_cons] at outside
    rw [State.setRegs64, ih _ (by omega), reg_setReg64_other _ _ (by omega) (by omega)]

theorem reg64_setReg_other (w : Word) (low : b ≠ a) (high : b + 4 ≠ a) : (s.setReg a w).reg64 b = s.reg64 b :=
  reg64_of_reg (reg_setReg_other _ _ _ _ low) (reg_setReg_other _ _ _ _ high)

theorem reg64_setReg64_apart (v : Nat) (apart : b + 4 < a ∨ a + 4 < b) : (s.setReg64 a v).reg64 b = s.reg64 b :=
  reg64_of_reg (reg_setReg64_other _ _ (by omega) (by omega)) (reg_setReg64_other _ _ (by omega) (by omega))

theorem reg64_setRegs64_outside (l : List Nat) (outside : b + 4 < a ∨ a + 8 * l.length ≤ b) :
    (s.setRegs64 a l).reg64 b = s.reg64 b :=
  reg64_of_reg (reg_setRegs64_outside _ _ (by omega)) (reg_setRegs64_outside _ _ (by omega))

/-- A list written is read back number by number. -/
theorem reg64_setRegs64 (l : List Nat) {i : Nat} (inside : i < l.length) :
    (s.setRegs64 a l).reg64 (a + 8 * i) = l[i] % 2 ^ 64 := by
  induction l generalizing s a i with
  | nil => exact absurd inside (Nat.not_lt_zero i)
  | cons v vs ih =>
    cases i with
    | zero =>
      rw [State.setRegs64, reg64_setRegs64_outside _ _ (by omega)]
      exact reg64_setReg64_same s v
    | succ i =>
      rw [State.setRegs64, show a + 8 * (i + 1) = a + 8 + 8 * i by omega, ih _ (Nat.lt_of_succ_lt_succ inside)]
      rfl

end Sys2Proof.Machine
end

section
/-! The sparse map: many entries written. -/

namespace Sys2Proof

/-- Entries written one after another, each with a value that depends on its key. -/
theorem AMap.get_foldl_set {α : Type} [DecidableEq α] (d : α) (f : Nat → α) (l : List Nat) (m : AMap α) (n : Nat) :
    AMap.get d (l.foldl (fun m k => AMap.set d m k (f k)) m) n = if n ∈ l then f n else AMap.get d m n := by
  induction l generalizing m with
  | nil => rfl
  | cons k l ih =>
    rw [List.foldl_cons, ih, AMap.get_set]
    by_cases rest : n ∈ l <;> by_cases first : n = k <;> simp [rest, first]

end Sys2Proof
end

section
/-! The fabric view (04 R132, R155, R156): what a start write stores, what a job beat captures, what the capture shows. -/

namespace Sys2Proof.Machine

/-! ### A start write -/

section
variable {s : State} {die : Nat} {value : BitVec 32}

/-- The view that a start write leaves pending (R155). -/
def State.pendingView (s : State) (die : Nat) (value : BitVec 32) : FabView :=
  let target := s.reg64 (Reg.FAB_VIEW_TARGET_LO die)
  let passed := match (s.slotOfDie die).filter fun k => (s.job k).beating with
    | some k => decide (target < (s.job k).beat)
    | none => false
  { cluster := bitsOf value.toNat 0 10
    target := if bitAt value.toNat 12 && !passed then some target else none
    late := bitAt value.toNat 12 && passed }

/-- The selection stored in the control register. -/
def State.selectView (s : State) (die : Nat) (value : BitVec 32) : State :=
  (s.setField (Reg.FAB_VIEW_CTRL die) 0 10 (bitsOf value.toNat 0 10)).setField (Reg.FAB_VIEW_CTRL die) 12 1
    (bitsOf value.toNat 12 1)

theorem reg_selectView_other {a : Nat} (other : a ≠ Reg.FAB_VIEW_CTRL die) : (s.selectView die value).reg a = s.reg a := by
  rw [State.selectView, reg_setField_other _ _ _ _ _ _ other, reg_setField_other _ _ _ _ _ _ other]

theorem cluster_selectView : (s.selectView die value).field (Reg.FAB_VIEW_CTRL die) 0 10 = value.toNat % 1024 := by
  rw [State.selectView, field_setField_apart _ _ _ _ _ _ _ (by decide) (by decide),
    field_setField_same _ _ _ _ _ (by decide)]
  simp [bitsOf]

theorem viewStatus_ne_ctrl (die : Nat) : Reg.FAB_VIEW_STATUS die ≠ Reg.FAB_VIEW_CTRL die := by
  unfold Reg.FAB_VIEW_STATUS Reg.FAB_VIEW_CTRL
  omega

theorem reg64_target_selectView :
    (s.selectView die value).reg64 (Reg.FAB_VIEW_TARGET_LO die) = s.reg64 (Reg.FAB_VIEW_TARGET_LO die) := by
  refine reg64_of_reg (reg_selectView_other ?_) (reg_selectView_other ?_) <;>
    (unfold Reg.FAB_VIEW_TARGET_LO Reg.FAB_VIEW_CTRL; omega)

/-- A start write while no capture is pending (R155). -/
theorem fabViewCapture_starts (start : value.msb = true) (free : s.field (Reg.FAB_VIEW_STATUS die) 0 1 = 0) :
    s.fabViewCapture die value = { (s.selectView die value).setField (Reg.FAB_VIEW_STATUS die) 0 1 1 with
      fabViews := AMap.set {} s.fabViews die (s.pendingView die value) } := by
  have idle : (s.selectView die value).field (Reg.FAB_VIEW_STATUS die) 0 1 = 0 :=
    (field_of_reg (reg_selectView_other (viewStatus_ne_ctrl die)) 0 1).trans free
  unfold State.pendingView
  rw [← reg64_target_selectView (value := value)]
  exact if_pos ⟨start, idle⟩

theorem regs_fabViewCapture (start : value.msb = true) (free : s.field (Reg.FAB_VIEW_STATUS die) 0 1 = 0) :
    (s.fabViewCapture die value).regs = ((s.selectView die value).setField (Reg.FAB_VIEW_STATUS die) 0 1 1).regs := by
  rw [fabViewCapture_starts start free]

theorem fabView_fabViewCapture (start : value.msb = true) (free : s.field (Reg.FAB_VIEW_STATUS die) 0 1 = 0) :
    AMap.get {} (s.fabViewCapture die value).fabViews die = s.pendingView die value := by
  rw [fabViewCapture_starts start free, AMap.get_set_same]

theorem fabViewCapture_rest (start : value.msb = true) (free : s.field (Reg.FAB_VIEW_STATUS die) 0 1 = 0) :
    s.fabViewCapture die value =
      { s with regs := (s.fabViewCapture die value).regs, fabViews := (s.fabViewCapture die value).fabViews } := by
  rw [fabViewCapture_starts start free]
  rfl

theorem bitAt_toNat (i : Nat) : bitAt value.toNat i = value.getLsbD i := by
  rw [bitAt, BitVec.getLsbD, Nat.testBit_eq_decide_div_mod_eq, beq_eq_decide]

theorem cluster_pendingView : (s.pendingView die value).cluster = value.toNat % 1024 := by
  simp [State.pendingView, bitsOf]

theorem target_pendingView (soon : value.getLsbD 12 = false) : (s.pendingView die value).target = none := by
  simp only [State.pendingView, bitAt_toNat, soon, Bool.false_and, Bool.false_eq_true, if_false]

theorem late_pendingView {k : Nat} (timed : value.getLsbD 12 = true) (owner : s.slotOfDie die = some k)
    (beats : (s.job k).beating = true) :
    (s.pendingView die value).late = decide (s.reg64 (Reg.FAB_VIEW_TARGET_LO die) < (s.job k).beat) := by
  simp only [State.pendingView, bitAt_toNat, timed, owner, Option.filter_some, beats, if_true, Bool.true_and]

end

/-! ### A job beat captures -/

/-- The view of a die after a job beat: captured where it is pending without a capture, on a die of the job, and its
target is not to come (R155). -/
theorem fabView_shoot (s : State) (slot : Nat) (j : Job) (b : Nat) {die : Nat} (site : die < 64) :
    AMap.get {} (s.shoot slot j b).fabViews die =
      if j.covers die = true ∧ s.field (Reg.FAB_VIEW_STATUS die) 0 1 = 1 ∧ (AMap.get {} s.fabViews die).shot = none ∧
          ∀ x, (AMap.get {} s.fabViews die).target = some x → x ≤ b then
        { AMap.get {} s.fabViews die with
          shot := some (s.shotOf j (1024 * die + (AMap.get {} s.fabViews die).cluster) b) }
      else AMap.get {} s.fabViews die := by
  unfold State.shoot
  simp only [AMap.get_foldl_set, List.mem_filter, List.mem_range, site, true_and, Bool.and_eq_true, beq_iff_eq,
    Option.isNone_iff_eq_none, Option.all_eq_true, decide_eq_true_eq, and_assoc, Nat.mul_comm die]

/-! ### A capture is shown -/

/-- The words of a view about occupancies, the beat and its time, and injection (R155). -/
def State.viewBeat (s : State) (die lo hi beat ms inj : Nat) : State :=
  ((((s.setReg (Reg.FAB_VIEW_OCC_LO die) (BitVec.ofNat 32 lo)).setReg (Reg.FAB_VIEW_OCC_HI die)
    (BitVec.ofNat 32 hi)).setReg64 (Reg.FAB_VIEW_BEAT_LO die) beat).setReg64 (Reg.FAB_VIEW_MS_LO die) ms).setReg
      (Reg.FAB_VIEW_INJ die) (BitVec.ofNat 32 inj)

/-- Where the words of a die's queues begin in its view. -/
def viewQueuesAt (die : Nat) : Nat := 0x400000 + 0x20000 * die + 0x8100

/-- The heads of the four data queues as one list of words. -/
def Cluster.headWords (c : Cluster) : List Nat :=
  (List.range 32).map fun i => ((c.headData (i / 8)).extractLsb' (64 * (i % 8)) 64).toNat

/-- The counts of the ten queues. -/
def Cluster.queueCounts (c : Cluster) : List Nat :=
  (List.range 10).map fun q => (c.queue q).arrivals.toNat + 2 ^ 32 * (c.queue q).consumed.toNat

/-- The words of a view about the cluster's queues (R155): the data heads, the other heads, the counts. -/
def State.viewQueues (s : State) (die : Nat) (c : Cluster) : State :=
  (((s.setRegs64 (viewQueuesAt die) c.headWords).setRegs64 (viewQueuesAt die + 0x100)
    ((List.range 4).map fun q => ((c.headData (4 + q)).setWidth 64).toNat)).setRegs64 (viewQueuesAt die + 0x120)
      [((c.headData 8).setWidth 16).toNat + 2 ^ 32 * ((c.headData 9).setWidth 16).toNat]).setRegs64
        (viewQueuesAt die + 0x200) c.queueCounts

/-- The status at the end of a capture. -/
def State.viewDone (s : State) (die : Nat) (noJob late : Bool) : State :=
  let st := Reg.FAB_VIEW_STATUS die
  let s := ((s.setField st 0 1 0).setField st 1 1 1).setField st 2 1 (if noJob then 1 else 0)
  if late then s.setField st 3 1 1 else s

section
variable (s : State) (die : Nat) (x : Shot) (c : Cluster) (noJob late : Bool)

/-- A capture writes its beat, its queues and its status. -/
theorem fabViewWrite_eq : ∃ lo hi inj, s.fabViewWrite die x noJob late =
    ((s.viewBeat die lo hi x.beat x.ms inj).viewQueues die x.c).viewDone die noJob late := ⟨_, _, _, rfl⟩

/-! #### What the parts leave alone -/

theorem reg_viewBeat_outside (lo hi beat ms inj : Nat) {a : Nat} (outside : ¬inFabView die a) :
    (s.viewBeat die lo hi beat ms inj).reg a = s.reg a := by
  unfold inFabView at outside
  unfold State.viewBeat Reg.FAB_VIEW_OCC_LO Reg.FAB_VIEW_OCC_HI Reg.FAB_VIEW_BEAT_LO Reg.FAB_VIEW_MS_LO Reg.FAB_VIEW_INJ
  rw [reg_setReg_other _ _ _ _ (by omega), reg_setReg64_other _ _ (by omega) (by omega),
    reg_setReg64_other _ _ (by omega) (by omega), reg_setReg_other _ _ _ _ (by omega), reg_setReg_other _ _ _ _ (by omega)]

theorem length_headWords : c.headWords.length = 32 := by simp [Cluster.headWords]

theorem length_queueCounts : c.queueCounts.length = 10 := by simp [Cluster.queueCounts]

theorem reg_viewQueues_outside {a : Nat} (outside : ¬inFabView die a) : (s.viewQueues die c).reg a = s.reg a := by
  have heads := length_headWords c
  have counts := length_queueCounts c
  unfold inFabView at outside
  unfold State.viewQueues viewQueuesAt
  rw [reg_setRegs64_outside _ _ (by omega), reg_setRegs64_outside _ _ (by simp; omega),
    reg_setRegs64_outside _ _ (by simp; omega), reg_setRegs64_outside _ _ (by omega)]

theorem reg_viewDone_other {a : Nat} (other : a ≠ Reg.FAB_VIEW_STATUS die) :
    (s.viewDone die noJob late).reg a = s.reg a := by
  unfold State.viewDone
  cases late <;> simp only [Bool.false_eq_true, if_true, if_false, reg_setField_other _ _ _ _ _ _ other]

theorem reg_fabViewWrite_outside {a : Nat} (outside : ¬inFabView die a) :
    (s.fabViewWrite die x noJob late).reg a = s.reg a := by
  have status : a ≠ Reg.FAB_VIEW_STATUS die := by
    unfold inFabView at outside
    unfold Reg.FAB_VIEW_STATUS
    omega
  obtain ⟨lo, hi, inj, parts⟩ := fabViewWrite_eq s die x noJob late
  rw [parts, reg_viewDone_other _ _ _ _ status, reg_viewQueues_outside _ _ _ outside,
    reg_viewBeat_outside _ _ _ _ _ _ _ outside]

theorem regsOnly_viewBeat (lo hi beat ms inj : Nat) : RegsOnly s (s.viewBeat die lo hi beat ms inj) :=
  regsOnly_trans (regsOnly_trans (regsOnly_trans (regsOnly_trans (regsOnly_setReg _ _ _) (regsOnly_setReg _ _ _))
    (regsOnly_setReg64 _ _ _)) (regsOnly_setReg64 _ _ _)) (regsOnly_setReg _ _ _)

theorem regsOnly_viewQueues : RegsOnly s (s.viewQueues die c) :=
  regsOnly_trans (regsOnly_trans (regsOnly_trans (regsOnly_setRegs64 _ _ _) (regsOnly_setRegs64 _ _ _))
    (regsOnly_setRegs64 _ _ _)) (regsOnly_setRegs64 _ _ _)

theorem regsOnly_viewDone : RegsOnly s (s.viewDone die noJob late) := by
  have ended (st : Nat) := regsOnly_trans (regsOnly_trans (regsOnly_setField s st 0 1 0) (regsOnly_setField _ st 1 1 1))
    (regsOnly_setField _ st 2 1 (if noJob then 1 else 0))
  cases late
  · exact ended _
  · exact regsOnly_trans (ended _) (regsOnly_setField _ _ _ _ _)

theorem regsOnly_fabViewWrite : RegsOnly s (s.fabViewWrite die x noJob late) := by
  obtain ⟨lo, hi, inj, parts⟩ := fabViewWrite_eq s die x noJob late
  rw [parts]
  exact regsOnly_trans (regsOnly_trans (regsOnly_viewBeat _ _ _ _ _ _ _) (regsOnly_viewQueues _ _ _))
    (regsOnly_viewDone _ _ _ _)

/-! #### What the view shows -/

/-- The capture is done; no_job says whether it found a job (R156). -/
theorem status_fabViewWrite :
    (s.fabViewWrite die x noJob late).field (Reg.FAB_VIEW_STATUS die) 0 1 = 0 ∧
    (s.fabViewWrite die x noJob late).field (Reg.FAB_VIEW_STATUS die) 1 1 = 1 ∧
    (s.fabViewWrite die x noJob late).field (Reg.FAB_VIEW_STATUS die) 2 1 = if noJob then 1 else 0 := by
  have bit : (if noJob then 1 else 0) % 2 = if noJob then 1 else 0 := by cases noJob <;> rfl
  obtain ⟨lo, hi, inj, parts⟩ := fabViewWrite_eq s die x noJob late
  rw [parts, State.viewDone]
  cases late <;>
    simp (disch := decide) only [Bool.false_eq_true, if_true, if_false, field_setField_apart, field_setField_same, bit,
      Nat.reduceMod, Nat.reducePow, and_self]

/-- The status apart, the queues are what a capture writes last. -/
theorem reg64_fabViewWrite {a : Nat} (above : Reg.FAB_VIEW_STATUS die < a) : ∃ lo hi inj,
    (s.fabViewWrite die x noJob late).reg64 a =
      ((s.viewBeat die lo hi x.beat x.ms inj).viewQueues die x.c).reg64 a := by
  obtain ⟨lo, hi, inj, parts⟩ := fabViewWrite_eq s die x noJob late
  refine ⟨lo, hi, inj, ?_⟩
  rw [parts]
  exact reg64_of_reg (reg_viewDone_other _ _ _ _ (by omega)) (reg_viewDone_other _ _ _ _ (by omega))

/-- The wide words before the queues are those of the beat. -/
theorem reg64_viewQueues_low {a : Nat} (below : a + 4 < viewQueuesAt die) : (s.viewQueues die c).reg64 a = s.reg64 a := by
  unfold State.viewQueues
  rw [reg64_setRegs64_outside _ _ (by omega), reg64_setRegs64_outside _ _ (by omega),
    reg64_setRegs64_outside _ _ (by omega), reg64_setRegs64_outside _ _ (by omega)]

/-- The beat of the capture (R155). -/
theorem beat_fabViewWrite : (s.fabViewWrite die x noJob late).reg64 (Reg.FAB_VIEW_BEAT_LO die) = x.beat % 2 ^ 64 := by
  obtain ⟨lo, hi, inj, word⟩ := reg64_fabViewWrite s die x noJob late (a := Reg.FAB_VIEW_BEAT_LO die)
    (by unfold Reg.FAB_VIEW_STATUS Reg.FAB_VIEW_BEAT_LO; omega)
  rw [word, reg64_viewQueues_low _ _ _ (by unfold Reg.FAB_VIEW_BEAT_LO viewQueuesAt; omega), State.viewBeat,
    reg64_setReg_other _ _ (by unfold Reg.FAB_VIEW_BEAT_LO Reg.FAB_VIEW_INJ; omega)
      (by unfold Reg.FAB_VIEW_BEAT_LO Reg.FAB_VIEW_INJ; omega),
    reg64_setReg64_apart _ _ (by unfold Reg.FAB_VIEW_BEAT_LO Reg.FAB_VIEW_MS_LO; omega), reg64_setReg64_same]

/-- Its Milestone value (R155). -/
theorem ms_fabViewWrite : (s.fabViewWrite die x noJob late).reg64 (Reg.FAB_VIEW_MS_LO die) = x.ms % 2 ^ 64 := by
  obtain ⟨lo, hi, inj, word⟩ := reg64_fabViewWrite s die x noJob late (a := Reg.FAB_VIEW_MS_LO die)
    (by unfold Reg.FAB_VIEW_STATUS Reg.FAB_VIEW_MS_LO; omega)
  rw [word, reg64_viewQueues_low _ _ _ (by unfold Reg.FAB_VIEW_MS_LO viewQueuesAt; omega), State.viewBeat,
    reg64_setReg_other _ _ (by unfold Reg.FAB_VIEW_MS_LO Reg.FAB_VIEW_INJ; omega)
      (by unfold Reg.FAB_VIEW_MS_LO Reg.FAB_VIEW_INJ; omega), reg64_setReg64_same]

/-- Word j of the head of data queue q. -/
theorem head_fabViewWrite {q j : Nat} (queue : q < 4) (word : j < 8) :
    (s.fabViewWrite die x noJob late).reg64 (viewQueuesAt die + 8 * (8 * q + j)) =
      ((x.c.headData q).extractLsb' (64 * j) 64).toNat := by
  have inside : 8 * q + j < x.c.headWords.length := by rw [length_headWords]; omega
  have at_q : (8 * q + j) / 8 = q := by omega
  have at_j : (8 * q + j) % 8 = j := by omega
  have value : x.c.headWords[8 * q + j] = ((x.c.headData q).extractLsb' (64 * j) 64).toNat := by
    simp only [Cluster.headWords, List.getElem_map, List.getElem_range, at_q, at_j]
  obtain ⟨lo, hi, inj, last⟩ := reg64_fabViewWrite s die x noJob late (a := viewQueuesAt die + 8 * (8 * q + j))
    (by unfold Reg.FAB_VIEW_STATUS viewQueuesAt; omega)
  rw [last, State.viewQueues, reg64_setRegs64_outside _ _ (by omega), reg64_setRegs64_outside _ _ (by omega),
    reg64_setRegs64_outside _ _ (by omega), reg64_setRegs64 _ _ inside, value, Nat.mod_eq_of_lt (BitVec.isLt _)]

/-- The counts of queue q. -/
theorem counts_fabViewWrite {q : Nat} (queue : q < 10) :
    (s.fabViewWrite die x noJob late).reg64 (viewQueuesAt die + 0x200 + 8 * q) =
      (x.c.queue q).arrivals.toNat + 2 ^ 32 * (x.c.queue q).consumed.toNat := by
  have inside : q < x.c.queueCounts.length := by rw [length_queueCounts]; exact queue
  have value : x.c.queueCounts[q] = (x.c.queue q).arrivals.toNat + 2 ^ 32 * (x.c.queue q).consumed.toNat := by
    simp only [Cluster.queueCounts, List.getElem_map, List.getElem_range]
  have arrivals := (x.c.queue q).arrivals.isLt
  have consumed := (x.c.queue q).consumed.isLt
  obtain ⟨lo, hi, inj, last⟩ := reg64_fabViewWrite s die x noJob late (a := viewQueuesAt die + 0x200 + 8 * q)
    (by unfold Reg.FAB_VIEW_STATUS viewQueuesAt; omega)
  rw [last, State.viewQueues, reg64_setRegs64 _ _ inside, value, Nat.mod_eq_of_lt (by omega)]

end

section
variable {s : State} {die : Nat}

/-- The capture that a job beat left is shown, and ends (R155, R156). -/
theorem fabViewTaken_shot {x : Shot} (pending : s.field (Reg.FAB_VIEW_STATUS die) 0 1 = 1)
    (shot : (AMap.get {} s.fabViews die).shot = some x) :
    s.fabViewTaken die = { s.fabViewWrite die x false (AMap.get {} s.fabViews die).late with
      fabViews := AMap.set {} s.fabViews die {} } := by
  have views := congrArg State.fabViews (regsOnly_fabViewWrite s die x false (AMap.get {} s.fabViews die).late).rest
  unfold State.fabViewTaken
  simp only [pending, Nat.one_ne_zero, if_false, shot, views]

/-- Without a running job on the die the capture ends too, and shows an empty cluster (R155). -/
theorem fabViewTaken_idle (pending : s.field (Reg.FAB_VIEW_STATUS die) 0 1 = 1)
    (waiting : (AMap.get {} s.fabViews die).shot = none)
    (idle : ∀ k, s.slotOfDie die = some k → (s.job k).beating = false) :
    s.fabViewTaken die = { s.fabViewWrite die { c := {}, beat := 0, ridx := 0, len := 0, ms := s.ms } true false with
      fabViews := AMap.set {} s.fabViews die {} } := by
  have nobody : ((s.slotOfDie die).filter fun k => (s.job k).beating) = none := by
    rw [Option.filter_eq_none_iff]
    exact fun k owner => by rw [idle k owner]; decide
  have views := congrArg State.fabViews
    (regsOnly_fabViewWrite s die { c := {}, beat := 0, ridx := 0, len := 0, ms := s.ms } true false).rest
  unfold State.fabViewTaken
  simp only [pending, Nat.one_ne_zero, if_false, waiting, nobody, views]

end

/-! ### The obligation -/

/-- Settles O27: the start write, the job beat, the capture of a job, and the capture without one. -/
theorem captures : Obligations.Captures := by
  intro via die value s st base v done
  have ends (x : Shot) (noJob late : Bool) : done (if noJob then 1 else 0)
      { s.fabViewWrite die.toNat x noJob late with fabViews := AMap.set {} s.fabViews die.toNat {} } := by
    obtain ⟨pending, finished, found⟩ := status_fabViewWrite s die.toNat x noJob late
    refine ⟨pending, finished, found, fun a outside => reg_fabViewWrite_outside s _ x noJob late outside, ?_⟩
    conv_lhs => rw [(regsOnly_fabViewWrite s die.toNat x noJob late).rest]
  refine ⟨fun reached start free => ⟨_, rfl, ?start⟩, fun k b pending waiting covers => ?beat,
    fun x pending shot => ⟨_, rfl, ?shown⟩, fun pending waiting idle => ⟨_, rfl, ?idle⟩⟩
  case start =>
    have regs := regs_fabViewCapture start free
    have view := fabView_fabViewCapture start free
    rw [gate_granted reached]
    refine ⟨?_, ?_, fun a status ctrl => ?_, fabViewCapture_rest start free, ?_, fun soon => ?_,
      fun k timed owner beats => ?_⟩
    · rw [field_of_regs regs, field_setField_other _ _ _ _ _ _ _ _ (viewStatus_ne_ctrl _).symm, cluster_selectView]
    · exact (field_of_regs regs _ _ _).trans (field_setField_same _ _ _ _ _ (by decide))
    · rw [reg_of_regs regs, reg_setField_other _ _ _ _ _ _ status, reg_selectView_other ctrl]
    · rw [view, cluster_pendingView]
    · rw [view, target_pendingView soon]
    · rw [view, late_pendingView timed owner beats]
  case beat =>
    refine ⟨fun due => ?_, fun x target early => ?_⟩
    · exact (fabView_shoot s k _ b die.isLt).trans (if_pos ⟨covers, pending, waiting, due⟩)
    · exact (fabView_shoot s k _ b die.isLt).trans
        (if_neg fun ⟨_, _, _, due⟩ => absurd (due x target) (Nat.not_le.2 early))
  case shown =>
    have ended : done 0 (s.fabViewTaken die.toNat) := fabViewTaken_shot pending shot ▸ ends x false v.late
    have regs := congrArg State.regs (fabViewTaken_shot pending shot)
    have words (a : Nat) : (s.fabViewTaken die.toNat).reg64 a = (s.fabViewWrite die.toNat x false v.late).reg64 a :=
      reg64_of_reg (reg_of_regs regs _) (reg_of_regs regs _)
    refine ⟨ended, (words _).trans (beat_fabViewWrite ..), (words _).trans (ms_fabViewWrite ..),
      fun q j queue word => ?_, fun q queue => (words _).trans (counts_fabViewWrite s _ x false v.late queue)⟩
    have place : base + 0x8100 + 64 * q + 8 * j = viewQueuesAt die.toNat + 8 * (8 * q + j) := by
      unfold viewQueuesAt base
      omega
    rw [place, words, head_fabViewWrite s _ x false v.late queue word]
  case idle =>
    rw [fabViewTaken_idle pending waiting idle]
    exact ends _ true false

end Sys2Proof.Machine
end

section
/-! The home index of a key (05 R175). -/

namespace Sys2Proof.Machine

/-- The key folded onto its low half, as a number. -/
theorem toNat_foldKey (key : BitVec 40) : (key ^^^ (key >>> 20)).toNat = key.toNat ^^^ key.toNat / 2 ^ 20 := by
  rw [BitVec.toNat_xor, BitVec.toNat_ushiftRight, Nat.shiftRight_eq_div_pow]

/-- Its two parts of 32 bits folded, as a number; the upper part has 8 bits. -/
theorem toNat_foldWord (f : BitVec 40) :
    (f.setWidth 32 ^^^ (f >>> 32).setWidth 32).toNat = f.toNat % 2 ^ 32 ^^^ f.toNat / 2 ^ 32 := by
  have upper : f.toNat / 2 ^ 32 < 2 ^ 32 := by have := f.isLt; omega
  rw [BitVec.toNat_xor, BitVec.toNat_setWidth, BitVec.toNat_setWidth, BitVec.toNat_ushiftRight, Nat.shiftRight_eq_div_pow,
    Nat.mod_eq_of_lt upper]

/-- The top 11 bits of the product of a word, as a number. -/
theorem toNat_hashWord (g : BitVec 32) : ((g * 0x9E3779B1#32) >>> 21).toNat = g.toNat * 0x9E3779B1 % 2 ^ 32 / 2 ^ 21 := by
  rw [BitVec.toNat_ushiftRight, Nat.shiftRight_eq_div_pow, BitVec.toNat_mul]
  rfl

/-- Settles O35: the folds, the product, and the bound of what 11 bits hold. -/
theorem hashHome : Obligations.HashHome := by
  intro key f g
  have home : haHome key = g * 0x9E3779B1 % 2 ^ 32 / 2 ^ 21 := by
    rw [haHome, toNat_hashWord, toNat_foldWord, toNat_foldKey]
  exact ⟨home, by omega⟩

end Sys2Proof.Machine
end

section
/-! The sparse operations (05 R163-R174, R183): walks, gathers, unpacking, HCLR and HSTAT. -/

namespace Sys2Proof.Machine

variable {i : Issue} {s : State}

/-! ### Results that land together -/

/-- A V slot that names heads and enters results that land together. -/
theorem slotLands_vslot (hi : Issues s i) (ns : List Naming) (beats : Nat) (ts : Slot → List Target) :
    SlotLands i.cluster.toNat s
      (s.issue i fun x s => (s.nameQueues x 1 x.acts ns).landAll x.g beats (ts x))
      (slotOf s i).acts ns (together beats (ts (slotOf s i))) :=
  slotLands_of hi 1 Slot.acts (fun _ => ns) fun x => together beats (ts x)

/-- What XSET writes in the active lanes: the walk state and the number of matches (R165). -/
def xsetTargets (x : Slot) (o : VOps) (dense : Bool) (ha hb range : BitVec 2) : List Target :=
  x.lanes.flatMap fun l =>
    let m := xsetMasks (x.c.vop l o.va.toNat) (x.c.vop l o.vb.toNat) dense ha hb range
    [.walk l m.1 m.2.1 m.2.2, .vreg l o.vd.toNat (BitVec.ofNat 512 (rankBelow m.2.2 64))]

/-- What HSTAT reports of a table of a lane (R183). -/
def tableStatus (n : Lane) (which : Bool) : BitVec 512 :=
  let t := n.table which
  ofElements [t.valid, t.spills, t.probe, t.status.setWidth 32, n.orderErr]

/-- HSTAT names no head. -/
theorem slotLands_hstat (hi : Issues s i) (vd : BitVec 5) (which : Bool) :
    let x := slotOf s i
    SlotLands i.cluster.toNat s (s.hstat i vd which) x.acts []
      (together 2 (laneTargets x vd fun l => tableStatus (x.c.lane l) which)) :=
  slotLands_vslot hi [] 2 fun x => laneTargets x vd fun l => tableStatus (x.c.lane l) which

/-- Settles O17: each operation names the heads of its operands and enters what it makes of them in the active lanes. -/
theorem sparseOps : Obligations.SparseOps := by
  intro i o vd va vb width ha hb range fmt dense rankB which clear s
  refine ⟨?xset, ?xgath, ?x24, ?values, ?hclr, ?hstat⟩
  case xset => exact slotRuns_of rfl fun hi => slotLands_vslot hi _ 1 fun x => xsetTargets x o dense ha hb range
  case xgath =>
    exact slotRuns_of rfl fun hi =>
      slotLands_vslot hi _ 2 fun x => laneTargets x o.vd fun l => xgathResult x.c l o rankB (sparseWidth width)
  case x24 =>
    exact slotRuns_of rfl fun hi =>
      slotLands_vslot hi _ 2 fun x => laneTargets x o.vd fun l => x24Result x.c l o (sparseWidth width)
  case values =>
    exact slotRuns_of rfl fun hi => slotLands_vslot hi _ 2 fun x => laneTargets x vd fun l =>
      ofElements ((cslRecords (x.c.vop l va.toNat)).map (xcsluValue fmt.toNat))
  case hclr =>
    exact slotRuns_of rfl fun hi => slotLands_vslot hi _ 1 fun x =>
      x.lanes.map fun l => .table l which (HashTable.cleared (x.c.sop x.g vb.toNat))
  case hstat => exact slotRuns_of rfl fun hi => slotLands_hstat hi vd which

/-! ### XWALK (R166, R170) -/

/-- The matches that an XWALK takes in a lane: the eight lowest. -/
def walkTaken (n : Lane) : List Nat := (setBitsOf n.walkM).take 8

/-- The matches that it leaves. -/
def walkRest (n : Lane) : BitVec 64 := (walkTaken n).foldl (fun m k => m &&& ~~~(1#64 <<< k)) n.walkM

/-- The bits of a list taken out of a mask. -/
theorem getLsbD_foldl_clearBit (ks : List Nat) (m : BitVec 64) (n : Nat) :
    (ks.foldl (fun m k => m &&& ~~~(1#64 <<< k)) m).getLsbD n = (m.getLsbD n && !ks.contains n) := by
  induction ks generalizing m with
  | nil => simp
  | cons k ks ih =>
    have bit : (m &&& ~~~(1#64 <<< k)).getLsbD n = (m.getLsbD n && !(n == k)) := by
      have one : (1#64 <<< k).getLsbD n = (decide (k < 64) && decide (k = n)) := BitVec.getLsbD_twoPow k n
      by_cases inside : n < 64
      · rw [BitVec.getLsbD_and, BitVec.getLsbD_not, one]
        by_cases same : k = n
        · simp [← same, same ▸ inside]
        · simp [inside, same, Ne.symm same]
      · simp [BitVec.getLsbD_of_ge m n (by omega)]
    rw [List.foldl_cons, ih, bit, List.contains_cons, Bool.not_or, Bool.and_assoc]

/-- The bits of pd: the active lanes whose mask still holds a match. -/
def walkMore (x : Slot) : BitVec 16 :=
  BitVec.ofNat 16 (x.lanes.foldl (fun v l => if (walkRest (x.c.lane l) != 0#64) = true then v + 2 ^ l else v) 0)

/-- The walk state lands after one beat, the records and pd after two. -/
def walkLandings (x : Slot) (vd : BitVec 5) (pd : BitVec 3) : List Landing :=
  (x.lanes.map fun l => ⟨1, .walk l (x.c.lane l).walkA (x.c.lane l).walkB (walkRest (x.c.lane l))⟩) ++
    together 2 ((laneTargets x vd fun l => BitVec.ofNat 512 (packBits 64
      ((walkTaken (x.c.lane l)).map (walkRecord (x.c.lane l).walkA (x.c.lane l).walkB)))) ++ [.pred pd.toNat x.mask (walkMore x)])

theorem slotLands_xwalk (hi : Issues s i) (vd : BitVec 5) (pd : BitVec 3) :
    SlotLands i.cluster.toNat s (s.xwalk i vd pd) (slotOf s i).acts [] (walkLandings (slotOf s i) vd pd) := by
  unfold State.xwalk
  rw [issue_eq _ hi]
  exact CalmMoves.slotChanges hi (slotNo := 1) (((calmMoves_land _ _ _ True).trans (calmMoves_land _ _ _ True)).congr
    (funext (entered_entered _ _)))

/-- Settles O18: what is left of a mask, bit by bit, and the lanes whose mask holds a bit. -/
theorem sparseWalk : Obligations.SparseWalk := by
  intro i vd pd s x taken
  exact slotRuns_of rfl fun hi => ⟨fun l => walkRest (x.c.lane l), walkMore x,
    fun l => getLsbD_foldl_clearBit (walkTaken (x.c.lane l)) (x.c.lane l).walkM,
    getLsbD_gatherLanes x fun l => walkRest (x.c.lane l) != 0#64, slotLands_xwalk hi vd pd⟩

/-! ### XCSLU on keys (R169, R170) -/

/-- A cluster written once for each of a list. -/
theorem calmMoves_foldl_modCluster {α : Type} (s : State) (g : Nat) (f : α → Cluster → Cluster) (l : List α) (calm : Prop) :
    CalmMoves g s (l.foldl (fun s a => s.modCluster g (f a)) s) (fun c => l.foldl (fun c a => f a c) c) calm := by
  induction l generalizing s with
  | nil => exact CalmMoves.refl g s calm
  | cons a l ih => exact (calmMoves_modCluster s g (f a) calm).trans (ih _)

/-- The lanes' order state is written in the issue beat, then the key words enter. -/
theorem slotChanges_xcsluOnKeys (hi : Issues s i) (vd : BitVec 5) (va : BitVec 6) (clear : Bool) :
    let x := slotOf s i
    let keys := x.c.keysOf va clear
    SlotChanges i.cluster.toNat s (s.xcsluOnKeys i vd va clear) x.acts (namesV va.toNat) fun c =>
      entered (together 2 (laneTargets x vd fun l => BitVec.ofNat 512 (packBits 64 ((keys l).1.map (·.toNat)))))
        (x.lanes.foldl (fun c l => c.keysSeen keys l) c) := by
  intro x keys
  have seen (u : State) := calmMoves_foldl_modCluster u x.g (fun l c => c.keysSeen keys l) x.lanes True
  unfold State.xcsluOnKeys
  rw [issue_eq _ hi]
  exact CalmMoves.slotChanges hi ((seen _).trans (calmMoves_land ..))

/-- Settles O19: XCSLU with its key bit is XCSLU on keys. -/
theorem sparseKeys : Obligations.SparseKeys := fun _ vd va _ clear _ =>
  slotRuns_of rfl fun hi => slotChanges_xcsluOnKeys hi vd va clear

end Sys2Proof.Machine
end

section
/-! HACC (05 R170, R176-R180): what contributions leave of a table, and how the records of a spill are written. -/

namespace Sys2Proof.Machine

variable {i : Issue} {s : State} {t u : HashTable}

/-! ### What contributions leave alone -/

/-- A table that contributions have changed: its descriptor and the records that stand outside it are as they were. -/
structure HashTable.Kept (t u : HashTable) : Prop where
  desc : u.desc = t.desc
  under : u.underRecs = t.underRecs
  chs : u.chsRecs = t.chsRecs

theorem kept_addAt (t : HashTable) (n : Nat) (key : BitVec 40) (p : Exact) (probe : Nat) : t.Kept (t.addAt n key p probe) :=
  ⟨rfl, rfl, rfl⟩

/-- A spill empties the table; the contribution that caused it goes into the empty one. -/
theorem kept_spilled_addAt (t : HashTable) (n : Nat) (key : BitVec 40) (p : Exact) (probe : Nat) :
    t.Kept (t.spilled.addAt n key p probe) := ⟨rfl, rfl, rfl⟩

theorem kept_contribute (t : HashTable) (which : Bool) (word : BitVec 64) (p : Exact) :
    t.Kept (t.contribute which word p).1 := by
  unfold HashTable.contribute
  split
  · exact ⟨rfl, rfl, rfl⟩
  · split
    · dsimp only
      split
      · exact kept_addAt ..
      · split
        · exact kept_spilled_addAt ..
        · exact kept_addAt ..
      · exact kept_spilled_addAt ..
    · exact ⟨rfl, rfl, rfl⟩

theorem HashTable.Kept.trans {v : HashTable} (a : t.Kept u) (b : u.Kept v) : t.Kept v :=
  ⟨b.desc.trans a.desc, b.under.trans a.under, b.chs.trans a.chs⟩

theorem kept_haccLane (t : HashTable) (which : Bool) (ins : List (BitVec 64 × Exact)) : t.Kept (haccLane t which ins).1 :=
  List.foldlRecOn (motive := fun r : HashTable × List SpillRec × Nat => t.Kept r.1) ins.zipIdx _ ⟨rfl, rfl, rfl⟩
    fun _ kept _ _ => kept.trans (kept_contribute ..)

/-! ### The records of a spill (R178) -/

/-- The records that the under-SRAM area still has room for. -/
abbrev HashTable.near (t : HashTable) (recs : List SpillRec) : List SpillRec := recs.take (t.ulen - t.underRecs)

/-- The records that go to the window. -/
abbrev HashTable.far (t : HashTable) (recs : List SpillRec) : List SpillRec := recs.drop (t.ulen - t.underRecs)

/-- A table once the records of a spill of t are written. -/
def HashTable.wrote (u t : HashTable) (recs : List SpillRec) : HashTable :=
  { u.noteSpilled recs with
    underRecs := t.underRecs + (t.near recs).length, chsRecs := t.chsRecs + (t.far recs).length }

/-- The writes to the under-SRAM area. -/
def underWrites (l : Nat) (t : HashTable) (recs : List SpillRec) : List Target :=
  if t.near recs = [] then []
  else [.mem l (t.ubase + 32 * t.underRecs) ((t.near recs).flatMap fun r => natLe r.1.toNat 32)]

/-- The entries for the window, from where a lane's segment of it is filled to. -/
def farOuts (g : Nat) (W : Window) (l : Nat) (which : Bool) (t : HashTable) (recs : List SpillRec) : List SpillOut :=
  spillOuts g t.cwin ((2 * l + if which then 1 else 0) * (W.bytes / 32) + 32 * t.chsRecs) (t.far recs)

/-- The hold of issue that a spill begins (R180). -/
def spillHold (g : Nat) (W : Window) (l : Nat) (which : Bool) (t : HashTable) (recs : List SpillRec) : List Target :=
  if recs = [] then []
  else [.spill (if t.near recs = [] then 0 else spillBeats (t.near recs).length) (!(t.far recs).isEmpty)
    (farOuts g W l which t recs)]

/-- What HACC enters in a lane: the table, and with the pair of elements that caused it, the spill. -/
def haccLandings (g : Nat) (W : Window) (l : Nat) (which : Bool) (t : HashTable)
    (out : HashTable × List SpillRec × Nat) : List Landing :=
  ⟨4, .table l which (out.1.wrote t out.2.1)⟩ ::
    (underWrites l t out.2.1 ++ spillHold g W l which t out.2.1).map fun t => ⟨out.2.2 + 1, t⟩

/-- A spill that can be written: the area lies in under SRAM, and the window, which has the spill right and an ingress
slot, has room. -/
def SpillFits (s : State) (g : Nat) (W : Window) (t : HashTable) (recs : List SpillRec) : Prop :=
  (t.near recs ≠ [] → 0x20000 ≤ t.ubase ∧ t.ubase + 32 * t.ulen ≤ 0x38000) ∧
  (t.far recs ≠ [] → s.clusterWindow g t.cwin = some W ∧ W.has 5 = true ∧
    (∃ key, s.spillSlot g t.cwin true = some key) ∧ t.chsRecs + (t.far recs).length ≤ W.bytes / 32 / 32)

theorem near_append_far (t : HashTable) (recs : List SpillRec) : t.near recs ++ t.far recs = recs :=
  List.take_append_drop ..

theorem noteSpilled_nil (t : HashTable) : t.noteSpilled [] = t := by
  simp [HashTable.noteSpilled]

/-- Records noted in two parts, those of the area first, stand as if noted at once. -/
theorem noteSpilled_append (t : HashTable) (a b : List SpillRec) :
    { ({ t.noteSpilled a with underRecs := t.underRecs + a.length } : HashTable).noteSpilled b with
      chsRecs := t.chsRecs + b.length } =
    { t.noteSpilled (a ++ b) with underRecs := t.underRecs + a.length, chsRecs := t.chsRecs + b.length } := by
  have position : t.underRecs + a.length + t.chsRecs = t.underRecs + t.chsRecs + a.length := by omega
  simp [HashTable.noteSpilled, position, List.zipIdx_append, BitVec.ofNat_add, BitVec.add_assoc]

/-- No record leaves the table as it is. -/
theorem wrote_nil (t : HashTable) : t.wrote t [] = t := by
  simp [HashTable.wrote, noteSpilled_nil]

/-- Entries for a window with an ingress slot wait in the hash unit (R228). -/
theorem sendSpill_slot {g win key : Nat} (base off : Nat) (recs : List SpillRec) (slot : s.spillSlot g win true = some key) :
    s.sendSpill g win base off recs = (spillOuts g win off recs, s) := by
  simp only [State.sendSpill, slot]

/-- A spill that can be written is written, and nothing else of the state differs. -/
theorem writeSpill_fits {x : Slot} {W : Window} {recs : List SpillRec} (l : Nat) (which : Bool)
    (fits : SpillFits s x.g W t recs) :
    s.writeSpill x l which t recs =
      { t := t.wrote t recs, chs := !(t.far recs).isEmpty, outs := farOuts x.g W l which t recs
        under := underWrites l t recs, s := s } := by
  obtain ⟨area, room⟩ := fits
  have placed : ¬(!(t.near recs).isEmpty && !(decide (0x20000 ≤ t.ubase) && decide (t.ubase + 32 * t.ulen ≤ 0x38000))) = true := by
    by_cases none : t.near recs = []
    · simp only [none, List.isEmpty_nil, Bool.not_true, Bool.false_and, Bool.false_eq_true, not_false_iff]
    · simp only [area none, decide_true, Bool.and_self, Bool.not_true, Bool.and_false, Bool.false_eq_true, not_false_iff]
  have writes : (if (t.near recs).isEmpty = true then []
      else [Target.mem l (t.ubase + 32 * t.underRecs) ((t.near recs).flatMap fun r => natLe r.1.toNat 32)]) =
      underWrites l t recs := if_congr List.isEmpty_iff rfl rfl
  have noted := noteSpilled_append t (t.near recs) (t.far recs)
  rw [near_append_far] at noted
  unfold State.writeSpill
  dsimp only
  rw [if_neg placed, writes]
  by_cases none : t.far recs = []
  · rw [if_pos (List.isEmpty_iff.2 none), Spill.mk.injEq]
    refine ⟨Eq.trans ?_ noted, by rw [none]; rfl, by rw [farOuts, none]; rfl, rfl, rfl⟩
    rw [none, noteSpilled_nil]
    rfl
  · obtain ⟨declared, right, ⟨key, slot⟩, capacity⟩ := room none
    have filtered : (s.clusterWindow x.g t.cwin).filter (·.has 5) = some W := by simp [declared, right]
    have all : (t.far recs).take (W.bytes / 32 / 32 - t.chsRecs) = t.far recs := List.take_of_length_le (by omega)
    have from_ : (W.segment l which).1 - W.base = (2 * l + if which then 1 else 0) * (W.bytes / 32) := by
      simp [Window.segment]
    rw [if_neg fun empty => none (List.isEmpty_iff.1 empty)]
    split
    · rename_i w found
      obtain rfl : W = w := Option.some.inj (filtered.symm.trans found)
      have fit : (t.far recs).take ((W.segment l which).2 / 32 - (t.noteSpilled (t.near recs)).chsRecs) = t.far recs := all
      have sent : s.sendSpill x.g t.cwin W.base ((W.segment l which).1 - W.base + 32 * t.chsRecs) (t.far recs) =
          (farOuts x.g W l which t recs, s) := by rw [sendSpill_slot _ _ _ slot, from_, farOuts]
      rw [fit, if_neg (Nat.lt_irrefl _), Spill.mk.injEq]
      refine ⟨noted, ?_, congrArg (·.1) sent, rfl, congrArg (·.2) sent⟩
      rw [eq_comm, Bool.not_eq_true', List.isEmpty_eq_false_iff]
      exact none
    · rename_i missing
      exact absurd (filtered.symm.trans missing) (by simp)

/-! ### A spill of a table whose descriptor and outer records contributions have kept -/

section
variable (kept : t.Kept u) (recs : List SpillRec)
include kept

theorem HashTable.Kept.near : u.near recs = t.near recs := by
  simp only [HashTable.near, HashTable.ulen, kept.desc, kept.under]

theorem HashTable.Kept.far : u.far recs = t.far recs := by
  simp only [HashTable.far, HashTable.ulen, kept.desc, kept.under]

theorem HashTable.Kept.wrote : u.wrote u recs = u.wrote t recs := by
  rw [HashTable.wrote, kept.near, kept.far, kept.under, kept.chs, HashTable.wrote]

theorem HashTable.Kept.underWrites (l : Nat) : underWrites l u recs = Machine.underWrites l t recs := by
  rw [Machine.underWrites, kept.near, kept.under, HashTable.ubase, kept.desc]
  rfl

theorem HashTable.Kept.farOuts (g : Nat) (W : Window) (l : Nat) (which : Bool) :
    farOuts g W l which u recs = Machine.farOuts g W l which t recs := by
  rw [Machine.farOuts, kept.far, kept.chs, HashTable.cwin, kept.desc]
  rfl

theorem HashTable.Kept.spillFits {g : Nat} {W : Window} {recs : List SpillRec} (fits : SpillFits s g W t recs) :
    SpillFits s g W u recs := by
  rw [SpillFits, kept.near, kept.far, kept.chs, HashTable.ubase, HashTable.ulen, HashTable.cwin, kept.desc]
  exact fits

end

/-! ### The lanes of an HACC -/

/-- What HACC makes of a table of a lane: the table, the records that it spills, the pair of elements that spills them. -/
def haccOut (x : Slot) (o : VOps) (which mul : Bool) (l : Nat) : HashTable × List SpillRec × Nat :=
  haccLane ((x.c.lane l).table which) which (haccInputs x.c l o mul)

/-- The hold of a spill, as HACC computes it from the number of records that the area takes. -/
theorem spillHold_eq {g : Nat} {W : Window} (l : Nat) (which : Bool) {recs : List SpillRec} (spills : recs ≠ []) :
    (if (min recs.length (t.ulen - t.underRecs) = 0 && !(!(t.far recs).isEmpty)) = true then []
      else [.spill (if min recs.length (t.ulen - t.underRecs) = 0 then 0 else spillBeats (min recs.length (t.ulen - t.underRecs)))
        (!(t.far recs).isEmpty) (farOuts g W l which t recs)]) = spillHold g W l which t recs := by
  have count : min recs.length (t.ulen - t.underRecs) = (t.near recs).length := by rw [List.length_take, Nat.min_comm]
  have whole := near_append_far t recs
  have held : ¬((t.near recs).length = 0 && !(!(t.far recs).isEmpty)) = true := by
    intro none
    simp only [Bool.and_eq_true, decide_eq_true_eq, Bool.not_not, List.isEmpty_iff, List.length_eq_zero_iff] at none
    rw [none.1, none.2] at whole
    exact spills whole.symm
  rw [count, if_neg held, spillHold, if_neg spills]
  simp only [List.length_eq_zero_iff]

/-- What enters where nothing is spilled. -/
theorem haccLandings_unspilled {g : Nat} {W : Window} {l : Nat} {which : Bool} {out : HashTable × List SpillRec × Nat}
    (kept : t.Kept out.1) (none : out.2.1 = []) : haccLandings g W l which t out = [⟨4, .table l which out.1⟩] := by
  rw [haccLandings, none, ← kept.wrote, wrote_nil]
  simp [underWrites, spillHold]

/-- HACC in a lane enters its results and changes nothing else where its spill, if any, can be written. -/
theorem lane_fits {r : HaccRun} {x : Slot} {o : VOps} {which mul : Bool} {l : Nat} {W : Window}
    (fits : SpillFits r.s x.g W ((x.c.lane l).table which) (haccOut x o which mul l).2.1) :
    r.lane x o which mul l =
      { lands := r.lands ++ haccLandings x.g W l which ((x.c.lane l).table which) (haccOut x o which mul l), s := r.s } := by
  have kept : ((x.c.lane l).table which).Kept (haccOut x o which mul l).1 := kept_haccLane ..
  unfold HaccRun.lane
  dsimp only
  rw [← haccOut]
  generalize haccOut x o which mul l = out at *
  generalize (x.c.lane l).table which = t at *
  obtain ⟨u, recs, pair⟩ := out
  have same : { u with underRecs := t.underRecs } = u := by rw [← kept.under]
  dsimp only
  by_cases none : recs = []
  · subst none
    rw [if_pos List.isEmpty_nil, haccLandings_unspilled kept rfl]
  · have hold := spillHold_eq (g := x.g) (t := t) (W := W) l which none
    have spill := writeSpill_fits (s := r.s) l which (kept.spillFits fits)
    rw [kept.wrote, kept.far, kept.farOuts, kept.underWrites] at spill
    rw [if_neg (by simpa using none), same, spill, haccLandings, ← hold]
    simp

/-- The lanes one after the other. -/
theorem foldl_lane_fits {x : Slot} {o : VOps} {which mul : Bool} {W : Nat → Window} (ls : List Nat) (r : HaccRun)
    (fits : ∀ l ∈ ls, SpillFits r.s x.g (W l) ((x.c.lane l).table which) (haccOut x o which mul l).2.1) :
    ls.foldl (fun r l => r.lane x o which mul l) r =
      { lands := r.lands ++ ls.flatMap fun l =>
          haccLandings x.g (W l) l which ((x.c.lane l).table which) (haccOut x o which mul l), s := r.s } := by
  induction ls generalizing r with
  | nil => simp
  | cons l ls ih =>
    have first := lane_fits (fits l (List.mem_cons_self ..))
    have rest := ih (r.lane x o which mul l) fun k hk => by
      rw [first]
      exact fits k (List.mem_cons_of_mem _ hk)
    rw [List.foldl_cons, rest, first, List.flatMap_cons, List.append_assoc]

/-! ### The windows and the slots of a job that the heads of a slot leave alone -/

theorem Moves.clusterWindow {g : Nat} {s t : State} {f : Cluster → Cluster} (a : Moves g s t f) (h w : Nat) :
    t.clusterWindow h w = s.clusterWindow h w := by
  have same (k : Nat) : (t.job k).window w = (s.job k).window w := by rw [Job.window, a.win, Job.window]
  unfold State.clusterWindow State.slotOfCluster
  rw [a.owner]
  cases s.slotOfDie (gidDie h) with
  | none => rfl
  | some k =>
    dsimp only
    rw [same]

theorem Moves.strips {g : Nat} {s t : State} {f : Cluster → Cluster} (a : Moves g s t f) : t.strips = s.strips := by
  rw [a.only.rest]

theorem Moves.spillSlot {g : Nat} {s t : State} {f : Cluster → Cluster} (a : Moves g s t f) (h w : Nat) (ingress : Bool) :
    t.spillSlot h w ingress = s.spillSlot h w ingress := by
  simp only [State.spillSlot, State.slotOfCluster, a.strips, a.owner]

theorem Moves.spillFits {g h : Nat} {s u : State} {f : Cluster → Cluster} {W : Window} {recs : List SpillRec}
    (a : Moves g s u f) (fits : SpillFits s h W t recs) : SpillFits u h W t recs := by
  rw [SpillFits, a.clusterWindow, a.spillSlot]
  exact fits

/-- HACC whose spills, if any, can be written. -/
theorem slotLands_hacc (hi : Issues s i) {o : VOps} {which mul : Bool} {W : Nat → Window} :
    let x := slotOf s i
    (∀ l ∈ x.lanes, SpillFits s x.g (W l) ((x.c.lane l).table which) (haccOut x o which mul l).2.1) →
    SlotLands i.cluster.toNat s (s.hacc i o which mul) x.acts (namesV o.va.toNat ++ namesV o.vb.toNat)
      (drainMark 4 :: x.lanes.flatMap fun l =>
        haccLandings x.g (W l) l which ((x.c.lane l).table which) (haccOut x o which mul l)) := by
  intro x fits
  have named := moves_named hi 1 x.acts (namesV o.va.toNat ++ namesV o.vb.toNat)
  have run := foldl_lane_fits x.lanes { s := s.named i 1 x.acts (namesV o.va.toNat ++ namesV o.vb.toNat) }
    fun l hl => named.spillFits (fits l hl)
  unfold State.hacc
  rw [issue_eq _ hi]
  have lands := congrArg (fun r : HaccRun => r.s.land x.g (drainMark 4 :: r.lands)) run
  exact lands ▸ CalmMoves.slotChanges hi (calmMoves_land _ _ _ True)

/-- HACC that spills nothing. -/
theorem slotLands_hacc_unspilled (hi : Issues s i) {o : VOps} {which mul : Bool}
    (none : ∀ l ∈ (slotOf s i).lanes, (haccOut (slotOf s i) o which mul l).2.1 = []) :
    SlotLands i.cluster.toNat s (s.hacc i o which mul) (slotOf s i).acts (namesV o.va.toNat ++ namesV o.vb.toNat)
      (together 4 ((slotOf s i).lanes.map fun l => .table l which (haccOut (slotOf s i) o which mul l).1)) := by
  have lands := slotLands_hacc (o := o) (which := which) (mul := mul) (W := fun _ => {}) hi fun l hl => by
    simp [SpillFits, none l hl]
  have tables : ((slotOf s i).lanes.flatMap fun l => haccLandings (slotOf s i).g {} l which
      (((slotOf s i).c.lane l).table which) (haccOut (slotOf s i) o which mul l)) =
      ((slotOf s i).lanes.map fun l => Target.table l which (haccOut (slotOf s i) o which mul l).1).map fun t => ⟨4, t⟩ := by
    rw [List.map_map, List.map_eq_flatMap]
    exact List.flatMap_congr fun l hl => haccLandings_unspilled (kept_haccLane ..) (none l hl)
  rw [tables] at lands
  exact lands

end Sys2Proof.Machine
end

section
/-! HMERGE and the ends of spills and merges (05 R180-R182, R228): what holds issue, and what ends its hold. -/

namespace Sys2Proof.Machine

variable {i : Issue} {s : State}

/-! ### HMERGE -/

/-- A request for spilled records goes to a slot. -/
theorem askSpill_rest (s : State) (g : Nat) (c : Cluster) (l : Nat) (which : Bool) :
    s.askSpill g c l which = { s with strips := (s.askSpill g c l which).strips } := by
  unfold State.askSpill
  dsimp only
  split <;> rfl

theorem askSpills_rest (s : State) (g : Nat) (c : Cluster) (which : Bool) (ls : List Nat) :
    ls.foldl (fun s l => s.askSpill g c l which) s =
      { s with strips := (ls.foldl (fun s l => s.askSpill g c l which) s).strips } :=
  List.foldlRecOn (motive := fun t : State => t = { s with strips := t.strips }) ls _ rfl fun t asked l _ => by
    rw [askSpill_rest, asked]

/-- The hold of issue that HMERGE begins. -/
def mergeHold (x : Slot) (vd : BitVec 5) (vb : BitVec 6) (which : Bool) (c : Cluster) : Cluster :=
  let word := x.c.sop x.g vb.toNat
  { c with
    stall := .merge which vd (word.extractLsb' 0 8) (x.c.cvt.getD (word.extractLsb' 8 4).toNat 0#20) x.mask x.c.pc x.c.execBeat
    mergeIn := [] }

/-- HMERGE to a window that may be written asks for the spilled records of its lanes, and holds issue. -/
theorem hmerge_writable (hi : Issues s i) (vd : BitVec 5) (vb : BitVec 6) (which : Bool) {W : Window} :
    let x := slotOf s i
    let named := s.named i 1 x.acts (namesS vb.toNat)
    named.clusterWindow x.g ((x.c.sop x.g vb.toNat).extractLsb' 0 8).toNat = some W → W.has 1 = true →
      s.hmerge i vd vb which =
        (x.lanes.foldl (fun s l => s.askSpill x.g x.c l which) named).modCluster x.g (mergeHold x vd vb which) := by
  intro x named window right
  unfold State.hmerge
  rw [issue_eq _ hi]
  unfold named State.named at window
  simp only [x] at window
  simp only [window, right, if_true]
  rfl

/-- But for the requests in the slots, what HMERGE leaves is its heads and its hold. -/
theorem slotChanges_hmerge (hi : Issues s i) (vd : BitVec 5) (vb : BitVec 6) (which : Bool) :
    let x := slotOf s i
    (∃ W, s.clusterWindow x.g ((x.c.sop x.g vb.toNat).extractLsb' 0 8).toNat = some W ∧ W.has 1 = true) →
      SlotChanges i.cluster.toNat s { s.hmerge i vd vb which with strips := s.strips } x.acts (namesS vb.toNat)
        (mergeHold x vd vb which) := by
  rintro x ⟨W, declared, right⟩
  have moves := moves_named hi 1 x.acts (namesS vb.toNat)
  have strips : (s.named i 1 x.acts (namesS vb.toNat)).strips = s.strips := moves.strips
  have held : { s.hmerge i vd vb which with strips := s.strips } =
      (s.named i 1 x.acts (namesS vb.toNat)).modCluster x.g (mergeHold x vd vb which) := by
    rw [hmerge_writable hi vd vb which ((moves.clusterWindow ..).trans declared) right, askSpills_rest, ← strips]
    rfl
  exact held ▸ CalmMoves.slotChanges hi (calmMoves_modCluster _ _ _ True)

/-! ### The end of a spill (R180) -/

variable {g : Nat}

theorem spillComplete_over {chs : Bool} (stall : (s.cluster g).stall = .spill 0 chs) (out : (s.cluster g).spillOut = [])
    (moves : s.spillMoves g = false) : s.spillComplete g = s.setCluster g { s.cluster g with stall := .none } := by
  simp [State.spillComplete, stall, out, moves]

theorem spillComplete_moving {chs : Bool} (stall : (s.cluster g).stall = .spill 0 chs)
    (still : (s.cluster g).spillOut ≠ [] ∨ s.spillMoves g = true) : s.spillComplete g = s := by
  rcases still with out | moves
  · simp [State.spillComplete, stall, out]
  · simp [State.spillComplete, stall, moves]

end Sys2Proof.Machine
end

section
/-! The sparse map: a key written twice, and the keys after insertions. -/

namespace Sys2Proof

variable {α : Type}

theorem AMap.insert_insert (m : AMap α) (k : Nat) (v w : α) : (m.insert k v).insert k w = m.insert k w := by
  induction m with
  | nil => simp [AMap.insert]
  | cons p m ih =>
    obtain ⟨n, a⟩ := p
    rcases Nat.lt_trichotomy k n with below | rfl | above
    · simp [AMap.insert, below]
    · simp [AMap.insert]
    · simp [AMap.insert, Nat.not_lt_of_gt above, Nat.ne_of_gt above, ih]

theorem AMap.erase_insert (m : AMap α) (k : Nat) (v : α) : (m.insert k v).erase k = m.erase k := by
  induction m with
  | nil => simp [AMap.insert, AMap.erase]
  | cons p m ih =>
    obtain ⟨n, a⟩ := p
    rcases Nat.lt_trichotomy k n with below | rfl | above
    · simp [AMap.insert, AMap.erase, below]
    · simp [AMap.insert, AMap.erase]
    · simp [AMap.insert, AMap.erase, Nat.not_lt_of_gt above, Nat.ne_of_gt above, Nat.ne_of_lt above, ih]

/-- A key written twice stands as if written once, where the first value was not the default. -/
theorem AMap.set_set [DecidableEq α] {d v : α} (m : AMap α) (k : Nat) (w : α) (listed : v ≠ d) :
    AMap.set d (AMap.set d m k v) k w = AMap.set d m k w := by
  simp only [AMap.set, if_neg listed, AMap.insert_insert, AMap.erase_insert]

theorem AMap.mem_keys_insert (m : AMap α) (k : Nat) (w : α) (n : Nat) :
    n ∈ (m.insert k w).map (·.1) ↔ n = k ∨ n ∈ m.map (·.1) := by
  induction m with
  | nil => simp [AMap.insert]
  | cons p m ih =>
    obtain ⟨a, v⟩ := p
    simp only [AMap.insert]
    split
    · simp
    · split
      · rename_i same
        simp [same]
      · simp only [List.map_cons, List.mem_cons, ih]
        exact or_left_comm

end Sys2Proof
end

section
/-! HMERGE_COMPLETE (05 R181, R182): the merge of a lane whose records all stand in its table. -/

namespace Sys2Proof.Machine

variable {s : State} {g : Nat}

/-! ### The keys of a merge -/

/-- The distinct keys in ascending order are the one ascending list of them. -/
theorem sortKeys_eq {ks ns : List Nat} (rising : ns.Pairwise (· < ·)) (same : ∀ n, n ∈ ks ↔ n ∈ ns) : sortKeys ks = ns := by
  have inserted (ks : List Nat) (m : AMap Unit) (rise : KeysRise m) :
      KeysRise (ks.foldl (fun m k => m.insert k ()) m) ∧
        ∀ n, n ∈ (ks.foldl (fun m k => m.insert k ()) m).map (·.1) ↔ n ∈ ks ∨ n ∈ m.map (·.1) := by
    induction ks generalizing m with
    | nil => exact ⟨rise, fun n => by simp⟩
    | cons k ks ih =>
      obtain ⟨ordered, listed⟩ := ih (m.insert k ()) (keysRise_insert m k () rise)
      refine ⟨ordered, fun n => ?_⟩
      rw [List.foldl_cons, listed, AMap.mem_keys_insert, List.mem_cons, or_left_comm, or_assoc]
  obtain ⟨ordered, listed⟩ := inserted ks [] List.Pairwise.nil
  exact List.Pairwise.eq_of_mem_iff ordered rising fun n => by rw [sortKeys, listed, same]; simp

/-! ### The sum of a key -/

/-- The sum of one record whose own sum has not left the range. -/
theorem mergeSum_single {m : MergeRec} (fits : m.sat = false) :
    mergeSum [m] = (m.value.toInt, m.residue.toNat % 255, false) := by
  have low := BitVec.le_toInt m.value
  have high := BitVec.toInt_lt (x := m.value)
  have range : inLedgerRange m.value.toInt = true := by
    rw [inLedgerRange, Bool.and_eq_true, decide_eq_true_eq, decide_eq_true_eq]
    omega
  simp [mergeSum, fits, range]

/-- A residue that agrees with its value is below 255. -/
theorem residue_mod {v : BitVec 128} {r : BitVec 8} (agrees : mod255 v = r) : BitVec.ofNat 8 (r.toNat % 255) = r := by
  have small : r.toNat < 255 := by
    rw [← agrees, mod255, BitVec.toNat_ofInt]
    omega
  rw [Nat.mod_eq_of_lt small, BitVec.ofNat_toNat, BitVec.setWidth_eq]

/-- The record of an entry of a table. -/
def MergeRec.ofEntry (n : Nat) (e : HEntry) : MergeRec :=
  { key := e.key, value := e.value, residue := e.residue, idx := n, pos := 2 ^ 64 - 1, sat := e.frozen }

/-- The records of a table that stand in it. -/
def HashTable.standing (t : HashTable) : List MergeRec :=
  (t.entries.filter fun p => p.2.valid).map fun p => .ofEntry p.1 p.2

theorem mergeRecs_standing {t : HashTable} (y : Lane) (back : List Byte) (under : t.underRecs = 0) (chs : t.chsRecs = 0) :
    mergeRecs y t back = t.standing := by
  simp [mergeRecs, under, chs, HashTable.standing, MergeRec.ofEntry]

/-- What a merge makes of a key's records: the key, the Ledger that rounds to its output, whether it is saturated. -/
def mergeOut (t : HashTable) (recs : List MergeRec) (k : Nat) : Nat × Ledger × Bool :=
  let sum := mergeSum (recs.filter fun m => m.key.toNat == k)
  (k, { ({} : Ledger).setE t.w with
    l := BitVec.ofInt 128 sum.1, residue := BitVec.ofNat 8 sum.2.1, status := withFlag t.status 6 sum.2.2 }, sum.2.2)

/-- A merge's output goes to the lane's segment of its window, as much of it as fits (R182). -/
def State.mergeWrite (s : State) (x : Slot) (lane : Nat) (which : Bool) (owin : Nat) (bytes : List Byte) : State :=
  match s.clusterWindow x.g owin with
  | some w =>
    let fit := (w.segment lane which).2 / 16 * 16
    let t := (s.hashWrite x.g owin w.base (w.segment lane which).1 (bytes.take fit)).1
    if bytes.length > fit then t.sparseEvent x 0x03 lane which else t
  | none => s.sparseEvent x 0x03 lane which

/-- A merge of a lane in its steps: the checks of the records and of the sums, the output, the cleared table. -/
theorem mergeLane_eq (s : State) (x : Slot) (lane : Nat) (which : Bool) (owin : Nat) (rctl : BitVec 20)
    (recs : List MergeRec) :
    s.mergeLane x lane which owin rctl recs =
      let t := ((s.cluster x.g).lane lane).table which
      let slotNo := if which then 1 else 0
      let keys := sortKeys (recs.map (·.key.toNat))
      let outs := keys.map (mergeOut t recs)
      let s := (recs.filter fun m => mod255 m.value != m.residue).foldl (fun s m =>
        s.residueFault x 0x05 lane slotNo m.idx true m.pos m.residue (mod255 m.value)) s
      let s := (outs.filter fun p => !p.2.2 && p.2.1.computedResidue != p.2.1.residue).foldl (fun s p =>
        s.residueFault x 0x05 lane slotNo 0 true (2 ^ 64 - 1) p.2.1.residue p.2.1.computedResidue) s
      let s := s.mergeWrite x lane which owin
        (outs.flatMap fun p => mergeRecord (BitVec.ofNat 40 p.1) (p.2.1.readElement (rctlOf rctl) 0))
      (keys.length, s.modCluster x.g fun c =>
        c.setLane lane ((c.lane lane).setTable which (HashTable.cleared t.desc))) := rfl

/-! ### A lane whose records all stand in its table -/

/-- The valid entries of a table in the order of their keys, none frozen, every residue in agreement. -/
structure HashTable.Lists (t : HashTable) (es : List HEntry) : Prop where
  perm : es.Perm ((t.entries.filter fun p => p.2.valid).map (·.2))
  rising : es.Pairwise fun a b => a.key < b.key
  sound : ∀ e ∈ es, e.frozen = false ∧ mod255 e.value = e.residue

/-- Where no two have the same key, one is all that has its key. -/
theorem filter_key_eq_singleton {α : Type} (key : α → Nat) {l : List α} (apart : (l.map key).Nodup) {a : α} (inside : a ∈ l) :
    l.filter (fun b => key b == key a) = [a] := by
  induction l with
  | nil => exact absurd inside List.not_mem_nil
  | cons b l ih =>
    rw [List.map_cons, List.nodup_cons, List.mem_map] at apart
    obtain ⟨other, rest⟩ := apart
    rcases List.mem_cons.1 inside with rfl | later
    · have none : l.filter (fun b => key b == key a) = [] := by
        rw [List.filter_eq_nil_iff]
        exact fun c hc same => other ⟨c, hc, beq_iff_eq.1 same⟩
      rw [List.filter_cons, if_pos (beq_self_eq_true _), none]
    · rw [List.filter_cons, if_neg fun same => other ⟨a, later, (beq_iff_eq.1 same).symm⟩, ih rest later]

section
variable {t : HashTable} {es : List HEntry} (lists : t.Lists es)
include lists

theorem HashTable.Lists.keys_rise : (es.map fun e => e.key.toNat).Pairwise (· < ·) :=
  List.pairwise_map.2 (lists.rising.imp fun below => BitVec.lt_def.1 below)

theorem HashTable.Lists.keys_perm : (t.standing.map fun m => m.key.toNat).Perm (es.map fun e => e.key.toNat) := by
  have keys : t.standing.map (fun m => m.key.toNat) =
      ((t.entries.filter fun p => p.2.valid).map (·.2)).map fun e => e.key.toNat := by
    simp [HashTable.standing, MergeRec.ofEntry, Function.comp_def]
  rw [keys]
  exact (lists.perm.map _).symm

/-- The records are those of the entries. -/
theorem HashTable.Lists.mem_standing {m : MergeRec} : m ∈ t.standing → ∃ n, ∃ e ∈ es, m = .ofEntry n e := by
  intro inside
  obtain ⟨p, listed, rfl⟩ := List.mem_map.1 inside
  exact ⟨p.1, p.2, lists.perm.mem_iff.2 (List.mem_map_of_mem listed), rfl⟩

theorem HashTable.Lists.standing_of_mem {e : HEntry} (inside : e ∈ es) : ∃ n, .ofEntry n e ∈ t.standing := by
  obtain ⟨p, listed, rfl⟩ := List.mem_map.1 (lists.perm.mem_iff.1 inside)
  exact ⟨p.1, List.mem_map_of_mem listed⟩

theorem HashTable.Lists.sortKeys : sortKeys (t.standing.map fun m => m.key.toNat) = es.map fun e => e.key.toNat :=
  sortKeys_eq lists.keys_rise fun _ => lists.keys_perm.mem_iff

/-- A key's sum is its one entry. -/
theorem HashTable.Lists.mergeOut {e : HEntry} (inside : e ∈ es) :
    mergeOut t t.standing e.key.toNat = (e.key.toNat, t.ledger e, false) := by
  obtain ⟨n, stands⟩ := lists.standing_of_mem inside
  obtain ⟨live, agrees⟩ := lists.sound e inside
  have apart : (t.standing.map fun m => m.key.toNat).Nodup :=
    lists.keys_perm.nodup_iff.2 (lists.keys_rise.imp Nat.ne_of_lt)
  have alone : t.standing.filter (fun m => m.key.toNat == e.key.toNat) = [.ofEntry n e] :=
    filter_key_eq_singleton (fun m : MergeRec => m.key.toNat) apart stands
  have sum := mergeSum_single (m := .ofEntry n e) live
  simp only [Machine.mergeOut, alone, sum, HashTable.ledger, live]
  simp only [MergeRec.ofEntry, residue_mod agrees, BitVec.ofInt_toInt]

theorem HashTable.Lists.mergeOuts :
    (es.map fun e => e.key.toNat).map (Machine.mergeOut t t.standing) = es.map fun e => (e.key.toNat, t.ledger e, false) := by
  rw [List.map_map]
  exact List.map_congr_left fun e inside => lists.mergeOut inside

end

/-- The bytes of the output, one record a key. -/
theorem flatMap_mergeRecord (t : HashTable) (es : List HEntry) (rctl : BitVec 20) :
    (es.map fun e => (e.key.toNat, t.ledger e, false)).flatMap
      (fun p => mergeRecord (BitVec.ofNat 40 p.1) (p.2.1.readElement (rctlOf rctl) 0)) =
    es.flatMap fun e => mergeRecord e.key ((t.ledger e).readElement (rctlOf rctl) 0) := by
  simp [List.flatMap_map, BitVec.ofNat_toNat]

theorem length_mergeRecord (key : BitVec 40) (r : Rounded) : (mergeRecord key r).length = 16 := by simp [mergeRecord]

theorem length_output (es : List HEntry) (f : HEntry → Rounded) :
    (es.flatMap fun e => mergeRecord e.key (f e)).length = 16 * es.length := by
  simp [List.length_flatMap, length_mergeRecord, Nat.mul_comm]

/-! ### The output -/

/-- The hash unit's write of bytes under the tag of the cluster's job: the state after it, the lines that it lost. -/
def State.hashWritten (s : State) (g addr : Nat) (bytes : List Byte) : State × List Nat :=
  s.chsWrite addr bytes (fun _ => false) (s.tagOfDie (gidDie g)) (s.pairedTag (s.tagOfDie (gidDie g)))

theorem hashWrite_kept {win base addr : Nat} {bytes : List Byte} (kept : (s.hashWritten g addr bytes).2 = []) :
    s.hashWrite g win base addr bytes = ((s.hashWritten g addr bytes).1, true) := by
  unfold State.hashWritten at kept
  unfold State.hashWrite State.hashWritten
  dsimp only
  split
  · rename_i lost
    exact absurd (lost.symm.trans kept) (List.cons_ne_nil _ _)
  · rfl

/-- Output of whole records that fits the lane's segment is written there. -/
theorem mergeWrite_fits {x : Slot} {lane owin n : Nat} {which : Bool} {bytes : List Byte} {W : Window}
    (window : s.clusterWindow x.g owin = some W) (records : bytes.length = 16 * n) (room : 16 * n ≤ W.bytes / 32)
    (kept : (s.hashWritten x.g (W.segment lane which).1 bytes).2 = []) :
    s.mergeWrite x lane which owin bytes = (s.hashWritten x.g (W.segment lane which).1 bytes).1 := by
  have fit : bytes.length ≤ (W.segment lane which).2 / 16 * 16 := by
    have : (W.segment lane which).2 = W.bytes / 32 := rfl
    omega
  simp only [State.mergeWrite, window, List.take_of_length_le fit, if_neg (Nat.not_lt.2 fit), hashWrite_kept kept]

/-- A merge of a lane whose records all stand in its table. -/
theorem mergeLane_standing {x : Slot} {lane owin : Nat} {which : Bool} {rctl : BitVec 20} {es : List HEntry} {W : Window}
    (lists : (((s.cluster x.g).lane lane).table which).Lists es) (window : s.clusterWindow x.g owin = some W)
    (room : 16 * es.length ≤ W.bytes / 32) :
    let t := ((s.cluster x.g).lane lane).table which
    let written := s.hashWritten x.g (W.segment lane which).1
      (es.flatMap fun e => mergeRecord e.key ((t.ledger e).readElement (rctlOf rctl) 0))
    written.2 = [] →
      s.mergeLane x lane which owin rctl t.standing =
        (es.length, written.1.modCluster x.g fun c =>
          c.setLane lane ((c.lane lane).setTable which (HashTable.cleared t.desc))) := by
  intro t written kept
  have agree : t.standing.filter (fun m => mod255 m.value != m.residue) = [] := by
    rw [List.filter_eq_nil_iff]
    intro m inside
    obtain ⟨n, e, listed, rfl⟩ := lists.mem_standing inside
    simpa [MergeRec.ofEntry] using (lists.sound e listed).2
  have sums : (es.map fun e => (e.key.toNat, t.ledger e, false)).filter
      (fun p => !p.2.2 && p.2.1.computedResidue != p.2.1.residue) = [] := by
    rw [List.filter_eq_nil_iff]
    intro p inside
    obtain ⟨e, listed, rfl⟩ := List.mem_map.1 inside
    have agrees : (t.ledger e).computedResidue = (t.ledger e).residue := (lists.sound e listed).2
    simp [agrees]
  rw [mergeLane_eq, lists.sortKeys]
  dsimp only
  rw [lists.mergeOuts, agree, sums, flatMap_mergeRecord, List.length_map]
  exact congrArg (fun u => (es.length, u)) (congrArg (State.modCluster · x.g _)
    (mergeWrite_fits window (length_output es _) room kept))

/-! ### Writes of the Coachhouse leave the clusters -/

theorem clusters_logEvent (s : State) (r : EventRec) : (s.logEvent r).clusters = s.clusters := (sameRun_logEvent s r).clusters

theorem clusters_ueFirst (s : State) (a k : Nat) : (s.ueFirst a k).clusters = s.clusters := by
  unfold State.ueFirst
  split
  · rfl
  · rw [State.setReg_clusters, State.setReg_clusters]

theorem clusters_stackRead (s : State) (k loc : Nat) (tag : BitVec 16) :
    (s.stackRead k loc tag).2.2.2.clusters = s.clusters := by
  unfold State.stackRead
  dsimp only
  split
  · rfl
  · split
    · rename_i w fixed _
      cases fixed
      · rfl
      · simp only [Bool.not_true, Bool.false_eq_true, if_false, if_true]
        split
        · rfl
        · exact clusters_logEvent ..
    · split
      · rfl
      · exact (clusters_logEvent ..).trans (clusters_ueFirst ..)

theorem clusters_readLine (s : State) (a : Nat) (tag : BitVec 16) : (s.readLine a tag).2.2.clusters = s.clusters := by
  unfold State.readLine
  split
  · split
    · exact clusters_stackRead ..
    · rfl
  · rfl

theorem clusters_writeLine (s : State) (a : Nat) (d : BitVec 512) (poison both : Bool) :
    (s.writeLine a d poison both).1.clusters = s.clusters := by
  unfold State.writeLine
  split
  · split
    · rw [stackWrite_rest]
    · rfl
  · rfl

theorem clusters_chsWrite (s : State) (a : Nat) (bs : List Byte) (poison : Nat → Bool) (tag : BitVec 16) (both : Bool) :
    (s.chsWrite a bs poison tag both).1.clusters = s.clusters :=
  List.foldlRecOn (motive := fun r : State × List Nat => r.1.clusters = s.clusters) (linesOf a bs.length) _ rfl
    fun r same p _ => by
      dsimp only
      rw [clusters_writeLine]
      split
      · exact same
      · exact (clusters_readLine ..).trans same

/-! ### The merge of the lanes -/

/-- No byte is read where none is asked for. -/
theorem chsRead_none (s : State) (a : Nat) (tag : BitVec 16) : s.chsRead a 0 tag = ([], [], s) := rfl

/-- A table without records in its window takes no entry back. -/
theorem spilledBack_none (s : State) (g l : Nat) (which : Bool) {t : HashTable} (es : List Entry) (chs : t.chsRecs = 0) :
    s.spilledBack g l which t es = ([], false, es, s) := by
  have entries : t.spillEntries = 0 := by rw [HashTable.spillEntries, chs]
  unfold State.spilledBack
  split
  · rw [entries]
    rfl
  · rw [chs]
    rfl
  · rfl

/-- The records of a lane that has none outside its table are read without a read of memory. -/
theorem mergeRead_standing (r : MergeRead) (x : Slot) (which : Bool) (l : Nat) :
    let t := ((r.s.cluster x.g).lane l).table which
    t.underRecs = 0 → t.chsRecs = 0 → r.lane x which l = { r with lanes := r.lanes ++ [(l, t.standing)] } := by
  intro t under chs
  have nothing (spans : Nat → List (Nat × Nat)) : r.s.sramRead x [] spans = r.s := rfl
  unfold MergeRead.lane
  dsimp only
  rw [if_pos under, nothing, spilledBack_none _ _ _ _ _ chs, mergeRecs_standing _ _ under chs]
  simp

/-! ### The end of a merge -/

/-- A cluster whose merge has ended. -/
def Cluster.merged (c : Cluster) : Cluster := { c with stall := .none, mergeIn := [] }

/-- A merge that lacks no entry and behind which no spill moves is not held on. -/
theorem not_waiting {c : Cluster} {n : Nat} (back : n ≤ c.mergeIn.length) (out : c.spillOut = [])
    (moves : s.spillMoves g = false) :
    ¬(c.mergeIn.length < n ∨ (!c.spillOut.isEmpty) = true ∨ s.spillMoves g = true) := by
  simp [out, moves, back]

section
variable {w : Bool} {d : BitVec 5} {ow : BitVec 8} {r : BitVec 20} {m : BitVec 16} {pc : Nat} {beat : BitVec 64}
  (stall : (s.cluster g).stall = .merge w d ow r m pc beat)
include stall

/-- A merge that lacks entries, or behind which a spill still moves, holds on. -/
theorem mergeComplete_waits
    (waits : (s.cluster g).mergeIn.length < s.mergeNeeds (mergeSlot g (s.cluster g) m pc beat) w ∨
      ¬((s.cluster g).spillOut = [] ∧ s.spillMoves g = false)) : s.mergeComplete g = s := by
  have waiting : (s.cluster g).mergeIn.length < s.mergeNeeds (mergeSlot g (s.cluster g) m pc beat) w ∨
      (!(s.cluster g).spillOut.isEmpty) = true ∨ s.spillMoves g = true := by
    simpa [imp_iff_not_or] using waits
  simp only [State.mergeComplete, stall, if_pos waiting]

variable (back : s.mergeNeeds (mergeSlot g (s.cluster g) m pc beat) w ≤ (s.cluster g).mergeIn.length)
  (out : (s.cluster g).spillOut = []) (moves : s.spillMoves g = false)
include back out moves

/-- Otherwise it ends, whatever it finds. -/
theorem mergeComplete_ends : ∃ u, s.mergeComplete g = State.modCluster u g Cluster.merged := by
  simp only [State.mergeComplete, stall, if_neg (not_waiting back out moves)]
  exact ⟨_, rfl⟩

/-- The merge of one lane whose records all stand in its table. -/
theorem mergeComplete_standing {l : Nat} {es : List HEntry} {W : Window} (lanes : activeLanes m = [l]) :
    let t := ((s.cluster g).lane l).table w
    let written := s.hashWritten g (W.segment l w).1
      (es.flatMap fun e => mergeRecord e.key ((t.ledger e).readElement (rctlOf r) 0))
    t.underRecs = 0 → t.chsRecs = 0 → t.Lists es → s.clusterWindow g ow.toNat = some W → 16 * es.length ≤ W.bytes / 32 →
    written.2 = [] →
      s.mergeComplete g =
        ((written.1.modCluster g fun c => c.setLane l ((c.lane l).setTable w (HashTable.cleared t.desc))).modCluster g
          fun c => c.setLane l ((c.lane l).setVreg d.toNat (BitVec.ofNat 512 es.length))).modCluster g Cluster.merged := by
  intro t written under chs lists window room kept
  have read := mergeRead_standing { left := (s.cluster g).mergeIn, s := s } (mergeSlot g (s.cluster g) m pc beat) w l under chs
  have merge := mergeLane_standing (s := s) (x := mergeSlot g (s.cluster g) m pc beat) (rctl := r) lists window room kept
  have one : (mergeSlot g (s.cluster g) m pc beat).lanes = [l] := lanes
  simp only [State.mergeComplete, stall, if_neg (not_waiting back out moves), one, List.foldl_cons, List.foldl_nil, read,
    Bool.false_eq_true, if_false, List.nil_append, merge]
  rfl

end

/-! ### The cluster after a merge of one lane -/

theorem setLane_setLane (c : Cluster) (l : Nat) {x : Lane} (y : Lane) (listed : x ≠ {}) :
    (c.setLane l x).setLane l y = c.setLane l y :=
  congrArg (fun m => { c with lanes := m }) (AMap.set_set c.lanes l y listed)

@[simp] theorem table_setTable_same (x : Lane) (which : Bool) (t : HashTable) : (x.setTable which t).table which = t := by
  cases which <;> rfl

/-- A lane with a table after an HCLR is none as after reset: the table is in window mode. -/
theorem setTable_cleared_ne (x : Lane) (which : Bool) (desc : BitVec 64) : x.setTable which (HashTable.cleared desc) ≠ {} := by
  intro same
  have cleared := table_setTable_same x which (HashTable.cleared desc)
  rw [same] at cleared
  have status : 0#16 = 1#16 := by
    have field := congrArg HashTable.status cleared
    cases which <;> exact field
  exact absurd status (by decide)

/-- A lane whose table is cleared and whose register takes the count is written as if at once. -/
theorem merged_lane (c : Cluster) (l d n : Nat) (which : Bool) (desc : BitVec 64) :
    let k := c.setLane l ((c.lane l).setTable which (HashTable.cleared desc))
    k.setLane l ((k.lane l).setVreg d (BitVec.ofNat 512 n)) =
      c.setLane l (((c.lane l).setTable which (HashTable.cleared desc)).setVreg d (BitVec.ofNat 512 n)) := by
  intro k
  rw [Cluster.setLane_same]
  exact setLane_setLane _ _ _ (setTable_cleared_ne (c.lane l) which desc)

/-- The cluster of a merged lane, and the clusters beside it. -/
theorem sets_merged {u : State} (same : ∀ g, u.cluster g = s.cluster g) {l d n : Nat} {which : Bool} {desc : BitVec 64} :
    Sets s.cluster (((u.modCluster g fun c => c.setLane l ((c.lane l).setTable which (HashTable.cleared desc))).modCluster g
      fun c => c.setLane l ((c.lane l).setVreg d (BitVec.ofNat 512 n))).modCluster g Cluster.merged).cluster g
      ((s.cluster g).setLane l ((((s.cluster g).lane l).setTable which (HashTable.cleared desc)).setVreg d
        (BitVec.ofNat 512 n))).merged := by
  have own := sets_modCluster (sets_modCluster (sets_modCluster_of_same (g := g)
    (fun c => c.setLane l ((c.lane l).setTable which (HashTable.cleared desc))) same)
    fun c => c.setLane l ((c.lane l).setVreg d (BitVec.ofNat 512 n))) Cluster.merged
  rwa [merged_lane] at own

/-- A table that has spilled nothing needs no entry back (R228). -/
theorem mergeNeeds_standing {x : Slot} {l : Nat} {which : Bool} (lanes : x.lanes = [l])
    (chs : ((x.c.lane l).table which).chsRecs = 0) : s.mergeNeeds x which = 0 := by
  have entries : ((x.c.lane l).table which).spillEntries = 0 := by rw [HashTable.spillEntries, chs]
  simp [State.mergeNeeds, lanes, entries]

/-- The cluster and the Coachhouse after the merge of one lane whose records all stand in its table. -/
theorem hmergeComplete_standing {c : BitVec 16} {w : Bool} {d : BitVec 5} {ow : BitVec 8} {r : BitVec 20} {m : BitVec 16}
    {pc : Nat} {beat : BitVec 64} {l : Nat} {es : List HEntry} {W : Window}
    (stall : (s.cluster c.toNat).stall = .merge w d ow r m pc beat) (lanes : activeLanes m = [l])
    (out : (s.cluster c.toNat).spillOut = []) (moves : s.spillMoves c.toNat = false) :
    let t := ((s.cluster c.toNat).lane l).table w
    let written := s.hashWritten c.toNat (W.segment l w).1
      (es.flatMap fun e => mergeRecord e.key ((t.ledger e).readElement (rctlOf r) 0))
    t.underRecs = 0 → t.chsRecs = 0 → t.Lists es → s.clusterWindow c.toNat ow.toNat = some W →
    16 * es.length ≤ W.bytes / 32 → written.2 = [] →
      Answers (.hmergeComplete c) s fun u =>
        u.cluster c.toNat = ((s.cluster c.toNat).setLane l ((((s.cluster c.toNat).lane l).setTable w
          (HashTable.cleared t.desc)).setVreg d.toNat (BitVec.ofNat 512 es.length))).merged ∧
        (∀ g, g ≠ c.toNat → u.cluster g = s.cluster g) ∧ u.chsMem = written.1.chsMem := by
  intro t written under chs lists window room kept
  have back : s.mergeNeeds (mergeSlot c.toNat (s.cluster c.toNat) m pc beat) w ≤ (s.cluster c.toNat).mergeIn.length := by
    rw [mergeNeeds_standing (x := mergeSlot c.toNat (s.cluster c.toNat) m pc beat) lanes chs]
    exact Nat.zero_le _
  have ends := mergeComplete_standing stall back out moves lanes under chs lists window room kept
  have clusters : written.1.clusters = s.clusters := clusters_chsWrite ..
  have same (g : Nat) : written.1.cluster g = s.cluster g := by
    rw [State.cluster, clusters, State.cluster]
  have own := sets_merged (g := c.toNat) same (l := l) (d := d.toNat) (n := es.length) (which := w) (desc := t.desc)
  refine ⟨_, rfl, ?_⟩
  simp only [traced_clusterAt, traced_chsMem]
  rw [ends]
  exact ⟨own.1, own.2, by simp only [State.modCluster_chsMem, written, t]⟩

/-- Settles O20: HACC with and without spills, HMERGE, the end of a spill and the end of a merge. -/
theorem hashTables : Obligations.HashTables := by
  intro i o vd vb which mul c s
  dsimp only
  refine ⟨fun none => ?calm, fun fits => ?spills, fun window => ?hmerge, fun chs stall empty still => ?complete,
    fun chs stall busy => ?moving, fun w d ow r m pc beat stall => ⟨fun back still => ?ends, fun waits => ?waits,
      fun l W es lanes still under chs perm rising sound window room kept => ?merge⟩⟩
  case calm => exact slotRuns_traced rfl fun hi => slotLands_hacc_unspilled hi none
  case spills =>
    have each : ∀ l ∈ (slotOf s i).lanes, SpillFits s (slotOf s i).g
        ((s.clusterWindow (slotOf s i).g (((slotOf s i).c.lane l).table which).cwin).getD {})
        (((slotOf s i).c.lane l).table which) (haccOut (slotOf s i) o which mul l).2.1 := fits
    refine slotRuns_traced (t := s.hacc i o which mul) rfl fun hi => ?_
    have lands := slotLands_hacc hi each
    exact lands
  case hmerge => exact slotRuns_traced rfl fun hi => slotChanges_hmerge hi vd vb which window
  case complete =>
    refine ⟨_, rfl, ?_⟩
    simp only [traced_clusterAt, spillComplete_over stall empty still]
    exact ⟨cluster_setCluster_same .., fun g other => cluster_setCluster_other _ _ _ _ other⟩
  case moving =>
    refine ⟨_, rfl, fun g => ?_⟩
    rw [traced_clusterAt, spillComplete_moving stall busy]
  case ends =>
    obtain ⟨u, ends⟩ := mergeComplete_ends stall back still.1 still.2
    refine ⟨_, rfl, ?_⟩
    dsimp only
    rw [traced_clusterAt, ends, State.modCluster_same]
    exact ⟨rfl, rfl⟩
  case waits =>
    refine ⟨_, rfl, fun g => ?_⟩
    rw [traced_clusterAt, mergeComplete_waits stall waits]
  case merge =>
    exact hmergeComplete_standing stall lanes still.1 still.2 under chs ⟨perm, rising, sound⟩ window room kept

end Sys2Proof.Machine
end

section
/-! WITHHELD_BEAT (06 R207, 13 R375, R376): a cycle passes without a job beat. -/

namespace Sys2Proof.Machine

/-- Between beats of a job that has nothing under way to a strip no transit entry moves (R143). -/
theorem transitMove_of_none {s : State} {slot : Nat} (none : ∀ p ∈ s.transitIn, p.job.toNat ≠ slot) :
    s.transitMove slot = s := by
  have mine : s.transitIn.filter (fun t => t.job.toNat == slot) = [] :=
    List.filter_eq_nil_iff.2 fun t ht => by simpa using none t ht
  have rest : s.transitIn.filter (not ∘ fun t => t.job.toNat == slot) = s.transitIn :=
    List.filter_eq_self.2 fun t ht => by simpa using none t ht
  simp [State.transitMove, List.partition_eq_filter_filter, mine, rest]

theorem transitIn_openWindow (s : State) (slot : Nat) : (s.openWindow slot).transitIn = s.transitIn := by
  unfold State.openWindow
  dsimp only
  split <;> rfl

theorem cluster_openWindow (s : State) (slot g : Nat) : (s.openWindow slot).cluster g = s.cluster g := by
  unfold State.openWindow
  dsimp only
  split <;> rfl

/-- A cycle without a job beat leaves the clusters alone where nothing of the job is under way to a strip. -/
theorem cluster_passCycle {s : State} {slot : Nat} (none : ∀ p ∈ s.transitIn, p.job.toNat ≠ slot) (g : Nat) :
    (s.passCycle slot).cluster g = s.cluster g := by
  have still (j : Job) : (s.setJob slot j).transitMove slot = s.setJob slot j := transitMove_of_none none
  unfold State.passCycle
  dsimp only
  rw [State.advanceTo_clusterAt, still, State.setJob_clusterAt]

theorem withheldBeat_passes {s : State} {slot : Nat} (beats : (s.job slot).beating = true)
    (withholds : ((s.openWindow slot).job slot).withholds = true) :
    s.withheldBeat slot = (s.openWindow slot).passCycle slot := by
  rw [State.withheldBeat, if_pos beats]
  exact if_pos withholds

/-- Settles O24: the window opens where its first cycle comes, then the cycle passes. -/
theorem withheldBeat : Obligations.WithheldBeat := by
  intro slot s u j beats withholds
  refine ⟨_, rfl, u.passCycle slot.toNat, ⟨rfl, fun none g => ?clusters, ?beat⟩, ?probes⟩
  case clusters =>
    rw [cluster_passCycle (by rwa [transitIn_openWindow]), cluster_openWindow]
  case beat =>
    exact ((sameBeats_openWindow s slot.toNat).trans (sameBeats_passCycle u slot.toNat)).beat slot.toNat
  case probes =>
    rw [withheldBeat_passes beats withholds]
    exact probesOnly_traced s _

end Sys2Proof.Machine
end

section
/-! TG_PERIOD_WRITE (06 R206): a Tollgate period staged, ignored, or locked while a pair is active. -/

namespace Sys2Proof.Machine

section

variable {s : State} {via : Via} {value : BitVec 32}

/-- A field shown while the Tollgate changes: the field reads as written, and of the rest only registers differ. -/
theorem setField_toll_shows (s : State) (x : Toll) (a lo w v : Nat) (h : lo + w ≤ 32) :
    { s.setField a lo w v with toll := x }.field a lo w = v % 2 ^ w ∧
      RegsOnly { s with toll := x } { s.setField a lo w v with toll := x } :=
  ⟨(field_of_regs (s := s.setField a lo w v) rfl a lo w).trans (field_setField_same s a lo w v h), ⟨rfl⟩⟩

theorem writePeriod_staged (alone : s.pairActive = false) (least : 12 ≤ bitsOf value.toNat 0 5)
    (most : bitsOf value.toNat 0 5 ≤ 24) :
    s.writePeriod via value = { s.setField Reg.CLK_TG_STATUS 9 1 1 with
      toll := { s.toll with staged := some (bitsOf value.toNat 0 5) } } := by
  have within : ¬(bitsOf value.toNat 0 5 < 12 ∨ 24 < bitsOf value.toNat 0 5) := by omega
  simp only [State.writePeriod, alone, Bool.false_eq_true, if_false, within]

theorem writePeriod_ignored (alone : s.pairActive = false)
    (outside : bitsOf value.toNat 0 5 < 12 ∨ 24 < bitsOf value.toNat 0 5) : s.writePeriod via value = s := by
  simp only [State.writePeriod, alone, Bool.false_eq_true, if_false, outside, if_true]

/-- The lock-write event waits at its source; the Tollgate and the registers stand (R8). -/
theorem logLockWrite_stands (off : Nat) :
    (s.logLockWrite via off).toll = s.toll ∧ (s.logLockWrite via off).regs = s.regs := by
  have event (r : EventRec) : (s.logEvent r).toll = s.toll ∧ (s.logEvent r).regs = s.regs := by
    unfold State.logEvent
    dsimp only
    split <;> exact ⟨rfl, rfl⟩
  cases via <;> exact event _

theorem writePeriod_locked (paired : s.pairActive = true) :
    (s.writePeriod via value).toll = s.toll ∧ (s.writePeriod via value).regs = s.regs := by
  unfold State.writePeriod
  dsimp only
  rw [if_pos paired]
  split
  · exact ⟨rfl, rfl⟩
  · exact logLockWrite_stands _

end

/-- Settles O30: a period in range is staged, one out of range ignored, and a pair locks the register. -/
theorem periodWrites : Obligations.PeriodWrites := by
  intro via value s k granted
  have log2 : bitsOf value.toNat 0 5 = k := by simp [bitsOf, k]
  refine ⟨fun alone least most => ⟨_, rfl, ?staged⟩, fun alone outside => ⟨_, rfl, ?ignored⟩,
    fun paired => ⟨_, rfl, ?locked⟩⟩ <;> rw [gate_granted granted]
  case staged =>
    rw [writePeriod_staged alone (log2.symm ▸ least) (log2.symm ▸ most), log2]
    exact ⟨rfl, setField_toll_shows s { s.toll with staged := some k } Reg.CLK_TG_STATUS 9 1 1 (by decide)⟩
  case ignored => exact writePeriod_ignored alone (log2.symm ▸ outside)
  case locked => exact writePeriod_locked paired

end Sys2Proof.Machine
end

section
/-! The sync-object view (06 R210): what a start write stores, what a job beat captures, what the capture shows. -/

namespace Sys2Proof.Machine

/-! ### Registers one after another -/

/-- Words written to registers one after another. -/
def State.setWords (s : State) (a : Nat) : List Word → State
  | [] => s
  | w :: ws => State.setWords (s.setReg a w) (a + 4) ws

theorem reg_setWords_outside (l : List Word) (s : State) {a b : Nat} (outside : b < a ∨ a + 4 * l.length < b + 4) :
    (s.setWords a l).reg b = s.reg b := by
  induction l generalizing s a with
  | nil => rfl
  | cons w ws ih =>
    rw [List.length_cons] at outside
    rw [State.setWords, ih _ (by omega), reg_setReg_other _ _ _ _ (by omega)]

theorem reg_setWords (l : List Word) (s : State) (a : Nat) {i : Nat} (inside : i < l.length) :
    (s.setWords a l).reg (a + 4 * i) = l[i] := by
  induction l generalizing s a i with
  | nil => exact absurd inside (Nat.not_lt_zero i)
  | cons w ws ih =>
    cases i with
    | zero =>
      rw [State.setWords, reg_setWords_outside _ _ (by omega)]
      exact reg_setReg_same s a w
    | succ i =>
      rw [State.setWords, show a + 4 * (i + 1) = a + 4 + 4 * i by omega, ih _ _ (Nat.lt_of_succ_lt_succ inside)]
      rfl

theorem regsOnly_setWords (l : List Word) (s : State) (a : Nat) : RegsOnly s (s.setWords a l) := by
  induction l generalizing s a with
  | nil => exact regsOnly_refl s
  | cons w ws ih => exact regsOnly_trans (regsOnly_setReg s a w) (ih _ _)

/-- Only registers differ, and what belongs to the view. -/
theorem rest_of_regsOnly {s t : State} (h : RegsOnly s t) (f : Nat) (v : DbgView) :
    { t with dbgFn := f, dbgView := v } = { s with regs := t.regs, dbgFn := f, dbgView := v } := by
  conv_lhs => rw [h.rest]

/-! ### A start write -/

section
variable {s : State} {via : Via} {value : BitVec 32}

/-- The registers of a start write: the selection, and a capture pending. -/
def State.startSync (s : State) (value : BitVec 32) : State :=
  (s.setField Reg.DBG_SEL 0 22 (bitsOf value.toNat 0 22)).setField Reg.DBG_STATUS 0 1 1

theorem regsOnly_startSync : RegsOnly s (s.startSync value) :=
  regsOnly_trans (regsOnly_setField ..) (regsOnly_setField ..)

theorem startSync_shows : (s.startSync value).field Reg.DBG_SEL 0 22 = value.toNat % 2 ^ 22 ∧
    (s.startSync value).field Reg.DBG_STATUS 0 1 = 1 := by
  refine ⟨?_, field_setField_same _ _ _ _ _ (by decide)⟩
  rw [State.startSync, field_setField_other _ _ _ _ _ _ _ _ (by decide), field_setField_same _ _ _ _ _ (by decide)]
  simp [bitsOf]

/-- A start write while no capture is pending (R210). -/
theorem dbgCapture_starts (start : value.msb = true) (free : s.field Reg.DBG_STATUS 0 1 = 0) :
    s.dbgCapture via value = { s.startSync value with
      dbgFn := viaFn via
      dbgView := { cluster := bitsOf value.toNat 0 16, cpl := bitsOf value.toNat 16 6, shot := none } } := by
  have idle : (s.setField Reg.DBG_SEL 0 22 (bitsOf value.toNat 0 22)).field Reg.DBG_STATUS 0 1 = 0 :=
    (field_setField_other _ _ _ _ _ _ _ _ (by decide)).trans free
  exact if_pos ⟨start, idle⟩

end

/-! ### A job beat captures -/

/-- The pending view after a job beat: captured where the job runs on its cluster and the function sees it (R210). -/
theorem dbgView_shoot {s : State} (k : Nat) (j : Job) (b : Nat) (pending : s.field Reg.DBG_STATUS 0 1 = 1)
    (waiting : s.dbgView.shot = none) :
    (s.shoot k j b).dbgView =
      if j.covers (gidDie s.dbgView.cluster) = true ∧ s.mayUse s.dbgFn k = true then
        { s.dbgView with shot := some (s.shotOf j s.dbgView.cluster b) }
      else s.dbgView := by
  unfold State.shoot
  simp only [pending, waiting, beq_self_eq_true, Option.isNone_none, Bool.true_and, Bool.and_eq_true]

/-! ### A capture is shown -/

/-- The words of DBG_WAITERS, DBG_PATHS and DBG_LAST (R210). -/
def Coupling.waitersWord (k : Coupling) : Nat :=
  k.lanes.toNat + (if k.seqWaiter then 2 ^ 16 else 0) +
    2 ^ 17 * (List.range 8).foldl (fun n j => if (k.slot j).valid then n + 2 ^ j else n) 0
def Coupling.pathsWord (k : Coupling) : Nat :=
  (List.range 8).foldl (fun n j => n + 2 ^ (3 * j) * (k.slot j).path.toNat) 0
def Coupling.lastWord (k : Coupling) : Nat := k.lastSrc.toNat + if k.lastValid then 2 ^ 31 else 0

/-- The word of DBG_TOLL (R210). -/
def Cluster.tollWord (c : Cluster) : Nat :=
  (match c.mark with
    | some m => m.round % 256 + 2 ^ 8
    | none => 0) + (match c.pendMark with
    | some m => 2 ^ 9 * (m.round % 256) + 2 ^ 17
    | none => 0) + (match c.hold with
    | .toll _ _ => 2 ^ 18
    | _ => 0)

/-- The words that a capture shows, from DBG_COUNT on. -/
def Cluster.syncWords (c : Cluster) (cpl beat ms : Nat) (noJob : Bool) : List Word :=
  let k := c.coupling cpl
  [BitVec.ofNat 32 (if noJob then 0 else k.count.toNat), BitVec.ofNat 32 (if noJob then 0 else k.thresh.toNat), k.total,
    BitVec.ofNat 32 k.waitersWord, BitVec.ofNat 32 k.pathsWord, BitVec.ofNat 32 k.lastWord, k.lastMs.setWidth 32,
    BitVec.ofNat 32 c.tollWord, BitVec.ofNat 32 beat, BitVec.ofNat 32 (beat / 2 ^ 32), BitVec.ofNat 32 ms,
    BitVec.ofNat 32 (ms / 2 ^ 32)]

/-- The status at the end of a capture. -/
def State.syncDone (s : State) (noJob : Bool) : State :=
  ((s.setField Reg.DBG_STATUS 0 1 0).setField Reg.DBG_STATUS 1 1 1).setField Reg.DBG_STATUS 2 1 (if noJob then 1 else 0)

section
variable (s : State) (c : Cluster) (cpl beat ms : Nat) (noJob : Bool)

theorem dbgWrite_eq : s.dbgWrite c cpl beat ms noJob =
    (s.setWords Reg.DBG_COUNT (c.syncWords cpl beat ms noJob)).syncDone noJob := rfl

theorem regsOnly_dbgWrite : RegsOnly s (s.dbgWrite c cpl beat ms noJob) := by
  rw [dbgWrite_eq]
  exact regsOnly_trans (regsOnly_setWords ..)
    (regsOnly_trans (regsOnly_trans (regsOnly_setField ..) (regsOnly_setField ..)) (regsOnly_setField ..))

/-- The capture is done; no_job says whether it found a job (R210). -/
theorem status_dbgWrite :
    (s.dbgWrite c cpl beat ms noJob).field Reg.DBG_STATUS 0 1 = 0 ∧
    (s.dbgWrite c cpl beat ms noJob).field Reg.DBG_STATUS 1 1 = 1 ∧
    (s.dbgWrite c cpl beat ms noJob).field Reg.DBG_STATUS 2 1 = if noJob then 1 else 0 := by
  have bit : (if noJob then 1 else 0) % 2 = if noJob then 1 else 0 := by cases noJob <;> rfl
  rw [dbgWrite_eq, State.syncDone]
  simp (disch := decide) only [field_setField_apart, field_setField_same, bit, Nat.reduceMod, Nat.reducePow, and_self]

theorem reg_syncDone_other {a : Nat} (other : a ≠ Reg.DBG_STATUS) : (s.syncDone noJob).reg a = s.reg a := by
  simp only [State.syncDone, reg_setField_other _ _ _ _ _ _ other]

/-- A capture writes the view's registers only. -/
theorem reg_dbgWrite_outside {a : Nat} (outside : a < Reg.DBG_STATUS ∨ Reg.DBG_MS_HI < a) :
    (s.dbgWrite c cpl beat ms noJob).reg a = s.reg a := by
  unfold Reg.DBG_STATUS Reg.DBG_MS_HI at outside
  rw [dbgWrite_eq, reg_syncDone_other _ _ (by unfold Reg.DBG_STATUS; omega), reg_setWords_outside]
  simp only [Reg.DBG_COUNT, Cluster.syncWords, List.length_cons, List.length_nil]
  omega

/-- What a capture shows, word by word. -/
theorem reg_dbgWrite {i : Nat} (inside : i < 12) :
    (s.dbgWrite c cpl beat ms noJob).reg (Reg.DBG_COUNT + 4 * i) = (c.syncWords cpl beat ms noJob)[i]'inside := by
  rw [dbgWrite_eq, reg_syncDone_other _ _ (by unfold Reg.DBG_COUNT Reg.DBG_STATUS; omega)]
  exact reg_setWords _ _ _ inside

/-- Two neighbouring words of a capture that hold a number show it (R12). -/
theorem reg64_dbgWrite {i v : Nat} (inside : i + 1 < 12)
    (low : (c.syncWords cpl beat ms noJob)[i]'(Nat.lt_of_succ_lt inside) = BitVec.ofNat 32 v)
    (high : (c.syncWords cpl beat ms noJob)[i + 1]'inside = BitVec.ofNat 32 (v / 2 ^ 32)) :
    (s.dbgWrite c cpl beat ms noJob).reg64 (Reg.DBG_COUNT + 4 * i) = v % 2 ^ 64 := by
  rw [State.reg64, reg_dbgWrite s c cpl beat ms noJob (Nat.lt_of_succ_lt inside), low,
    show Reg.DBG_COUNT + 4 * i + 4 = Reg.DBG_COUNT + 4 * (i + 1) by omega, reg_dbgWrite s c cpl beat ms noJob inside, high,
    BitVec.toNat_ofNat, BitVec.toNat_ofNat]
  omega

end

/-- Without a job every word of the view reads 0 (R210). -/
theorem syncWords_idle : ({} : Cluster).syncWords 0 0 0 true = List.replicate 12 0#32 := rfl

section
variable {s : State}

/-- The capture that a job beat left is shown, and ends (R210). -/
theorem dbgTaken_shot {x : Shot} (pending : s.field Reg.DBG_STATUS 0 1 = 1) (shot : s.dbgView.shot = some x) :
    s.dbgTaken = { s.dbgWrite x.c s.dbgView.cpl x.beat x.ms false with dbgView := {} } := by
  unfold State.dbgTaken
  simp only [pending, Nat.one_ne_zero, if_false, shot]

/-- Where the function sees no running job on the cluster the capture ends too (R210). -/
theorem dbgTaken_idle (pending : s.field Reg.DBG_STATUS 0 1 = 1) (waiting : s.dbgView.shot = none)
    (idle : ∀ k, s.slotOfCluster s.dbgView.cluster = some k → (s.job k).beating = false ∨ s.mayUse s.dbgFn k = false) :
    s.dbgTaken = { s.dbgWrite {} 0 0 0 true with dbgView := {} } := by
  have nobody : ((s.slotOfCluster s.dbgView.cluster).filter fun k => (s.job k).beating && s.mayUse s.dbgFn k) = none := by
    rw [Option.filter_eq_none_iff]
    intro k owner
    rcases idle k owner with still | hidden
    · simp [still]
    · simp [hidden]
  unfold State.dbgTaken
  simp only [pending, Nat.one_ne_zero, if_false, waiting, nobody]

end

/-! ### The obligation -/

theorem lanes_waitersWord (k : Coupling) : bitsOf (BitVec.ofNat 32 k.waitersWord).toNat 0 16 = k.lanes.toNat := by
  have lanes := k.lanes.isLt
  unfold bitsOf Coupling.waitersWord
  rw [BitVec.toNat_ofNat]
  split <;> omega

theorem lastSrc_lastWord (k : Coupling) : bitsOf (BitVec.ofNat 32 k.lastWord).toNat 0 20 = k.lastSrc.toNat := by
  have src := k.lastSrc.isLt
  unfold bitsOf Coupling.lastWord
  rw [BitVec.toNat_ofNat]
  split <;> omega

/-- A capture that is shown and ends reads as what it wrote, and changes the registers of the view only. -/
theorem shown_of_eq {s t : State} {c : Cluster} {cpl beat ms : Nat} {noJob : Bool}
    (taken : t = { s.dbgWrite c cpl beat ms noJob with dbgView := {} }) :
    (∀ a, t.reg a = (s.dbgWrite c cpl beat ms noJob).reg a) ∧ t = { s with regs := t.regs, dbgView := {} } := by
  have regs : t.regs = (s.dbgWrite c cpl beat ms noJob).regs := by rw [taken]
  refine ⟨reg_of_regs regs, ?_⟩
  rw [regs, taken]
  conv_lhs => rw [(regsOnly_dbgWrite s c cpl beat ms noJob).rest]

/-- Settles O40: the start write, the job beat, the capture of a job, and the capture without one. -/
theorem syncViews : Obligations.SyncViews := by
  intro via value s v done
  have ends {t : State} {c : Cluster} {cpl beat ms : Nat} {noJob : Bool}
      (taken : t = { s.dbgWrite c cpl beat ms noJob with dbgView := {} }) : done (if noJob then 1 else 0) t := by
    obtain ⟨pending, finished, found⟩ := status_dbgWrite s c cpl beat ms noJob
    obtain ⟨regs, rest⟩ := shown_of_eq taken
    have field (lo w : Nat) := field_of_reg (regs Reg.DBG_STATUS) lo w
    exact ⟨(field 0 1).trans pending, (field 1 1).trans finished, (field 2 1).trans found,
      fun a outside => (regs a).trans (reg_dbgWrite_outside s c cpl beat ms noJob outside), rest⟩
  refine ⟨fun reached start free => ⟨_, rfl, ?start⟩, fun k b pending waiting => dbgView_shoot k (s.job k) b pending waiting,
    fun x pending shot => ⟨_, rfl, ?shown⟩, fun pending waiting idle => ⟨_, rfl, ?idle⟩⟩
  case start =>
    obtain ⟨sel, status⟩ := startSync_shows (s := s) (value := value)
    rw [gate_granted reached, dbgCapture_starts start free]
    refine ⟨sel, status, rest_of_regsOnly regsOnly_startSync _ _, ?_, ?_, rfl⟩
    · simp [bitsOf]
    · simp [bitsOf]
  case shown =>
    have taken := dbgTaken_shot pending shot
    have word (i : Nat) (inside : i < 12) :=
      ((shown_of_eq taken).1 _).trans (reg_dbgWrite s x.c v.cpl x.beat x.ms false inside)
    have wide (i n : Nat) (inside : i + 1 < 12) low high := (reg64_of_reg ((shown_of_eq taken).1 _) ((shown_of_eq taken).1 _)).trans
      (reg64_dbgWrite s x.c v.cpl x.beat x.ms false (i := i) (v := n) inside low high)
    have part (i lo w : Nat) (inside : i < 12) := congrArg (fun r : Word => bitsOf r.toNat lo w) (word i inside)
    refine ⟨ends taken, (word 0 (by decide)).trans (BitVec.ofNat_toNat ..), (word 1 (by decide)).trans (BitVec.ofNat_toNat ..),
      word 2 (by decide), ?_, ?_, word 6 (by decide), wide 8 x.beat (by decide) rfl rfl, wide 10 x.ms (by decide) rfl rfl⟩
    · exact (part 3 0 16 (by decide)).trans (lanes_waitersWord _)
    · exact (part 5 0 20 (by decide)).trans (lastSrc_lastWord _)
  case idle =>
    have taken := dbgTaken_idle pending waiting idle
    refine ⟨ends taken, fun a low high aligned => ?_⟩
    unfold Reg.DBG_COUNT at low
    unfold Reg.DBG_MS_HI at high
    obtain ⟨i, rfl⟩ : ∃ i, a = Reg.DBG_COUNT + 4 * i := ⟨(a - 0xD0008) / 4, by unfold Reg.DBG_COUNT; omega⟩
    have inside : i < 12 := by unfold Reg.DBG_COUNT at high; omega
    rw [(shown_of_eq taken).1, reg_dbgWrite s {} 0 0 0 true inside]
    simp only [syncWords_idle, List.getElem_replicate]
    rfl

end Sys2Proof.Machine
end

section
/-! What a part that leaves service, a fault and a release leave of the oldest round (06 R199-R203): only the pair unit may
enter it. -/

namespace Sys2Proof.Machine

/-- The Tollgate stands, but for an entry of the pair unit into the oldest round while a pair is active (R338, R345). -/
structure RoundKept (s t : State) : Prop where
  active : t.pairActive = s.pairActive
  toll : t.toll = { s.toll with entered := t.toll.entered, lastEntryMs := t.toll.lastEntryMs }
  entered : ∀ p, p ≠ pairUnit → (p ∈ t.toll.entered ↔ p ∈ s.toll.entered)
  alone : s.pairActive = false → t.toll = s.toll

/-- The same where neither the time nor the references change, and no event leaves its source. -/
structure PartOnly (s t : State) : Prop extends RoundKept s t where
  ms : t.ms = s.ms
  clock : t.reg Reg.CLK_STATUS = s.reg Reg.CLK_STATUS
  events : s.ev.atSource <+: t.ev.atSource

theorem RoundKept.refl (s : State) : RoundKept s s := ⟨rfl, rfl, fun _ _ => Iff.rfl, fun _ => rfl⟩

theorem RoundKept.trans {s t u : State} (a : RoundKept s t) (b : RoundKept t u) : RoundKept s u := by
  refine ⟨b.active.trans a.active, ?_, fun p hp => (b.entered p hp).trans (a.entered p hp),
    fun h => (b.alone (a.active.trans h)).trans (a.alone h)⟩
  rw [b.toll, a.toll]

theorem PartOnly.refl (s : State) : PartOnly s s := ⟨RoundKept.refl s, rfl, rfl, List.prefix_rfl⟩

theorem PartOnly.trans {s t u : State} (a : PartOnly s t) (b : PartOnly t u) : PartOnly s u :=
  ⟨a.toRoundKept.trans b.toRoundKept, b.ms.trans a.ms, b.clock.trans a.clock, a.events.trans b.events⟩

theorem roundKept_foldl {α : Type} (f : State → α → State) (h : ∀ s x, RoundKept s (f s x)) (l : List α) (s : State) :
    RoundKept s (l.foldl f s) := by
  induction l generalizing s with
  | nil => exact RoundKept.refl s
  | cons a l ih => exact (h s a).trans (ih _)

theorem partOnly_foldl {α : Type} (f : State → α → State) (h : ∀ s x, PartOnly s (f s x)) (l : List α) (s : State) :
    PartOnly s (l.foldl f s) := by
  induction l generalizing s with
  | nil => exact PartOnly.refl s
  | cons a l ih => exact (h s a).trans (ih _)

/-- A step that is taken or not. -/
theorem PartOnly.ite {s t u : State} {c : Prop} [Decidable c] (a : PartOnly s t) (b : PartOnly s u) :
    PartOnly s (if c then t else u) := by
  split
  · exact a
  · exact b

/-! ### Single steps -/

theorem pairActive_of_reg {s t : State} (h : t.reg Reg.PST_PAIR_STATUS = s.reg Reg.PST_PAIR_STATUS) :
    t.pairActive = s.pairActive := by
  simp only [State.pairActive, State.pairState, field_of_reg h]

theorem roundKept_of_toll {s t : State} (toll : t.toll = s.toll) (pair : t.pairActive = s.pairActive) : RoundKept s t :=
  ⟨pair, by rw [toll], fun _ _ => by rw [toll], fun _ => toll⟩

/-- What leaves the registers, the Tollgate, the time and the events alone. -/
theorem partOnly_of_same {s t : State} (regs : t.regs = s.regs) (toll : t.toll = s.toll) (ms : t.ms = s.ms) (ev : t.ev = s.ev) :
    PartOnly s t :=
  ⟨roundKept_of_toll toll (pairActive_of_reg (reg_of_regs regs _)), ms, reg_of_regs regs _, by rw [ev]⟩

theorem Outward.partOnly {s t : State} (h : Outward s t) : PartOnly s t := by
  refine partOnly_of_same ?_ ?_ h.ms h.ev <;> rw [h.rest]

/-- The registers that tell whether a pair is active and which references are lost. -/
def roundRegs : List Nat := [Reg.PST_PAIR_STATUS, Reg.CLK_STATUS]

theorem partOnly_setReg (s : State) {a : Nat} (w : Word) (h : a ∉ roundRegs) : PartOnly s (s.setReg a w) := by
  simp only [roundRegs, List.mem_cons, List.not_mem_nil, or_false, not_or] at h
  exact ⟨roundKept_of_toll rfl (pairActive_of_reg (reg_setReg_other _ _ _ _ (Ne.symm h.1))), rfl,
    reg_setReg_other _ _ _ _ (Ne.symm h.2), List.prefix_rfl⟩

theorem partOnly_setField (s : State) {a : Nat} (lo w v : Nat) (h : a ∉ roundRegs) : PartOnly s (s.setField a lo w v) :=
  partOnly_setReg s _ h

theorem partOnly_bump (s : State) {a : Nat} (lo w n : Nat) (h : a ∉ roundRegs) : PartOnly s (s.bump a lo w n) :=
  partOnly_setReg s _ h

/-- A register of a function's view (R255). -/
theorem partOnly_setFnReg (s : State) (f : Nat) {a : Nat} (w : Word) (h : a < 0x100) : PartOnly s (s.setFnReg f a w) := by
  have other {b : Nat} (low : 0x100 ≤ b) (high : b < 2 ^ 24) : (s.setFnReg f a w).reg b = s.reg b :=
    fnReg_setFnReg_other s w (by omega) high (.inr (by omega))
  exact ⟨roundKept_of_toll rfl (pairActive_of_reg (other (by decide) (by decide))), rfl, other (by decide) (by decide),
    List.prefix_rfl⟩

theorem partOnly_setFnField (s : State) (f : Nat) {a : Nat} (lo w v : Nat) (h : a < 0x100) :
    PartOnly s (s.setFnField f a lo w v) := partOnly_setFnReg s f _ h

theorem partOnly_fnBump (s : State) (f : Nat) {a : Nat} (lo w n : Nat) (h : a < 0x100) :
    PartOnly s (s.fnBump f a lo w n) := partOnly_setFnReg s f _ h

theorem partOnly_setJob (s : State) (k : Nat) (x : Job) : PartOnly s (s.setJob k x) := partOnly_of_same rfl rfl rfl rfl
theorem partOnly_setStrip (s : State) (k : Nat) (x : StreamSlot) : PartOnly s (s.setStrip k x) := partOnly_of_same rfl rfl rfl rfl
theorem partOnly_setPort (s : State) (k : Nat) (x : Port) : PartOnly s (s.setPort k x) := partOnly_of_same rfl rfl rfl rfl
theorem partOnly_setStream (s : State) (k : Nat) (x : TStream) : PartOnly s (s.setStream k x) := partOnly_of_same rfl rfl rfl rfl
theorem partOnly_setRing (s : State) (k : Nat) (x : Ring) : PartOnly s (s.setRing k x) := partOnly_of_same rfl rfl rfl rfl
theorem partOnly_setEngine (s : State) (k : Nat) (x : Engine) : PartOnly s (s.setEngine k x) := partOnly_of_same rfl rfl rfl rfl
theorem partOnly_setStack (s : State) (k : Nat) (x : Stack) : PartOnly s (s.setStack k x) := partOnly_of_same rfl rfl rfl rfl
theorem partOnly_modCluster (s : State) (g : Nat) (f : Cluster → Cluster) : PartOnly s (s.modCluster g f) :=
  partOnly_of_same rfl rfl rfl rfl
theorem partOnly_modJob (s : State) (k : Nat) (f : Job → Job) : PartOnly s (s.modJob k f) := partOnly_setJob s k _
theorem partOnly_fresh (s : State) : PartOnly s s.fresh.2 := partOnly_of_same rfl rfl rfl rfl
theorem partOnly_leave (s : State) (src : Nat) : PartOnly s (s.leave src) := partOnly_of_same rfl rfl rfl rfl
theorem partOnly_send (s : State) (m : Msg) : PartOnly s (s.send m) := partOnly_of_same rfl rfl rfl rfl

/-- An event waits at its source, behind those that wait already. -/
theorem partOnly_logEvent (s : State) (r : EventRec) : PartOnly s (s.logEvent r) := by
  obtain ⟨f, last⟩ := logEvent_atSource s r
  have toll : (s.logEvent r).toll = s.toll ∧ (s.logEvent r).ms = s.ms := by
    unfold State.logEvent
    dsimp only
    split <;> exact ⟨rfl, rfl⟩
  exact ⟨roundKept_of_toll toll.1 (pairActive_of_reg (reg_logEvent s r _)), toll.2, reg_logEvent s r _,
    last ▸ List.prefix_append _ _⟩

theorem partOnly_logPlain (s : State) (src cls cause p0 p1 p2 : Nat) : PartOnly s (s.logPlain src cls cause p0 p1 p2) :=
  partOnly_logEvent s _

theorem partOnly_logMarked (s : State) (evidence : Bool) (src cls cause p0 p1 p2 : Nat) :
    PartOnly s (s.logMarked evidence src cls cause p0 p1 p2) := partOnly_logEvent s _

/-! ### The pair unit (R338, R345) -/

/-- The pair unit enters the oldest round of an active pair. -/
theorem partOnly_enterPair {s : State} (paired : s.pairActive = true) : PartOnly s s.enterPair := by
  unfold State.enterPair
  split
  · refine ⟨⟨rfl, rfl, fun p other => ?_, fun alone => ?_⟩, rfl, rfl, List.prefix_rfl⟩
    · simp [other]
    · rw [paired] at alone
      cases alone
  · exact PartOnly.refl s

theorem pairState_setField (s : State) {v : Nat} (h : v < 2 ^ 4) : (s.setField Reg.PST_PAIR_STATUS 0 4 v).pairState = v :=
  (field_setField_same _ _ _ _ _ (by decide)).trans (Nat.mod_eq_of_lt h)

/-- An active pair takes another state in which it is active. -/
theorem partOnly_setPairState {s : State} {v : Nat} (paired : s.pairActive = true) (v0 : v ≠ 0) (v16 : v < 2 ^ 4) :
    PartOnly s (s.setPairState v) := by
  have state : (s.setField Reg.PST_PAIR_STATUS 0 4 v).pairActive = true := by
    rw [State.pairActive, pairState_setField s v16]
    simp [v0]
  have shown : PartOnly s (s.setField Reg.PST_PAIR_STATUS 0 4 v) :=
    ⟨roundKept_of_toll rfl (state.trans paired.symm), rfl, reg_setField_other _ _ _ _ _ _ (by decide), List.prefix_rfl⟩
  have told := shown.trans (outward_signalZero (s.setField Reg.PST_PAIR_STATUS 0 4 v) 0).partOnly
  unfold State.setPairState
  dsimp only
  split
  · exact PartOnly.refl s
  · split
    · exact told.trans (partOnly_enterPair (told.active.trans paired))
    · exact told

/-! ### Faults and stops of jobs (R292-R296, R346) -/

theorem partOnly_countPoison (s : State) (k : Nat) : PartOnly s (s.countPoison k) := by
  have marked : PartOnly s (s.modJob k fun j => { j with poisonCounted := true }) := partOnly_modJob s k _
  unfold State.countPoison
  dsimp only
  generalize (if (s.job k).poisonCounted = true then 0 else s.poisonLeft (s.job k)) = n
  split
  · exact marked
  · exact marked.trans (partOnly_bump _ _ _ _ (by decide))

theorem partOnly_endIssue (s : State) (k : Nat) : PartOnly s (s.endIssue k) :=
  (partOnly_countPoison s k).trans (partOnly_of_same rfl rfl rfl rfl)

theorem partOnly_stopStrips (s : State) (k : Nat) (discard : Bool) : PartOnly s (s.stopStrips k discard) :=
  partOnly_foldl _ (fun s k => partOnly_setStrip s k _) _ s

theorem partOnly_closeStreams (s : State) (slot arg : Nat) (p : TStream → Bool) : PartOnly s (s.closeStreams slot arg p) :=
  (outward_closeStreams s slot arg p).partOnly

theorem partOnly_markDone (s : State) (ref : DescRef) (st : Byte) (tag : BitVec 16) (det : BitVec 32) :
    PartOnly s (s.markDone ref st tag det) := (outward_markDone s ref st tag det).partOnly

theorem partOnly_settleDone (s : State) : PartOnly s s.settleDone := (outward_settleDone s).partOnly

/-- Issue ends, the strips stop, and CLOSE goes to streams: what every stop of a job begins with. -/
theorem partOnly_halt (s : State) (k arg : Nat) (discard : Bool) (p : TStream → Bool) :
    PartOnly s (((s.endIssue k).stopStrips k discard).closeStreams k arg p) :=
  ((partOnly_endIssue s k).trans (partOnly_stopStrips _ k discard)).trans (partOnly_closeStreams _ k arg p)

theorem partOnly_becomeStopped (s : State) (k : Nat) : PartOnly s (s.becomeStopped k) :=
  ((partOnly_setJob s k _).trans (outward_markOpt _ _ _ _ _).partOnly).trans
    (partOnly_foldl _ (fun s r => partOnly_markDone s r _ _ _) _ _)

theorem partOnly_stopNow (s : State) (k : Nat) : PartOnly s (s.stopNow k) := by
  have halted (discard : Bool) (arg : Nat) (p : TStream → Bool) :=
    (partOnly_halt s k arg discard p).trans (partOnly_modJob _ k fun j => { j with st := .stopping, stopAt := none })
  unfold State.stopNow
  dsimp only
  split
  · exact PartOnly.ite ((halted _ _ _).trans (partOnly_becomeStopped _ k)) (halted _ _ _)
  · exact PartOnly.ite ((halted _ _ _).trans (partOnly_becomeStopped _ k)) (halted _ _ _)

theorem partOnly_killJob (s : State) (k : Nat) (kind : BitVec 8) : PartOnly s (s.killJob k kind) := by
  unfold State.killJob
  dsimp only
  split
  · exact (((partOnly_stopStrips s k true).trans (partOnly_closeStreams _ _ _ _)).trans (partOnly_modJob _ _ _)).trans
      (partOnly_becomeStopped _ k)
  · exact partOnly_setJob s k _
  · exact PartOnly.ite (PartOnly.refl s) ((partOnly_setJob s k _).trans (partOnly_stopNow _ k))
  · exact PartOnly.refl s

theorem partOnly_drainQuiet (s : State) : PartOnly s s.drainQuiet :=
  partOnly_foldl _ (fun s k => partOnly_killJob s k 3#8) _ s

theorem partOnly_pairFails (s : State) (cause : Nat) : PartOnly s (s.pairFails cause) := by
  unfold State.pairFails
  split
  next paired =>
    have told := partOnly_foldl _ (fun s p => (outward_sendMsg s p 0 0x22 0 0 cause []).partOnly) s.activePairPorts s
    have active := told.active.trans (Bool.and_eq_true_iff.1 paired).1
    exact ((((told.trans (partOnly_setPairState active (by decide) (by decide))).trans
      (partOnly_bump _ _ _ _ (by decide))).trans (partOnly_drainQuiet _))).trans (partOnly_logEvent _ _)
  next => exact PartOnly.refl s

theorem partOnly_pairDeclareFailed (s : State) (cause : Nat) : PartOnly s (s.pairDeclareFailed cause) :=
  (partOnly_pairFails s cause).trans (partOnly_settleDone _)

theorem partOnly_failOrSettle (s : State) (fail : Option Nat) : PartOnly s (s.failOrSettle fail) := by
  cases fail with
  | none => exact partOnly_settleDone s
  | some cause => exact partOnly_pairDeclareFailed s cause

theorem partOnly_markStart (s : State) (k : Nat) : PartOnly s (s.markStart k) := by
  unfold State.markStart
  dsimp only
  split
  · exact (partOnly_modJob s k _).trans (outward_markOpt _ _ _ _ _).partOnly
  · exact PartOnly.refl s

theorem partOnly_faultJob (s : State) (k : Nat) : PartOnly s (s.faultJob k) := by
  have faulted {u : State} (v : Nat) (h : PartOnly s u) := ((h.trans (partOnly_modJob u k fun j =>
    { j with st := .faulted, stopAt := none, stopRefs := [] })).trans (partOnly_markStart _ k)).trans
      (partOnly_foldl _ (fun w r => partOnly_markDone w r (BitVec.ofNat 8 v) (s.job k).tag (BitVec.ofNat 32 (v / 256)))
        (s.job k).stopRefs _)
  have halted := partOnly_halt s k 1 true fun _ => true
  unfold State.faultJob
  dsimp only
  split
  case h_4 => exact PartOnly.refl s
  all_goals
    cases (s.job k).stopRefs.isEmpty
    · exact faulted _ (halted.trans (partOnly_fresh _))
    · exact faulted _ halted

theorem partOnly_stopWith (s : State) (k : Nat) (r : EventRec) (fail : Option Nat) : PartOnly s (s.stopWith k r fail) :=
  ((partOnly_logEvent s _).trans (partOnly_faultJob _ k)).trans (partOnly_failOrSettle _ fail)

theorem partOnly_slotFault (s : State) (k : Nat) (r : EventRec) : PartOnly s (s.slotFault k r) := by
  unfold State.slotFault
  dsimp only
  split
  · exact (partOnly_logEvent s _).trans (partOnly_modJob _ k _)
  · exact partOnly_stopWith s k r _

theorem partOnly_slotFaults (s : State) (ks : List Nat) (r : Nat → EventRec) : PartOnly s (s.slotFaults ks r) :=
  (partOnly_foldl _ (fun s k => PartOnly.ite (partOnly_slotFault s k _)
    ((partOnly_logEvent s _).trans (partOnly_faultJob _ k))) ks s).trans (partOnly_failOrSettle _ _)

theorem partOnly_partFault (s : State) (k : Nat) (r : EventRec) : PartOnly s (s.partFault k r) := by
  unfold State.partFault
  dsimp only
  split
  · exact partOnly_slotFault s k r
  · exact PartOnly.ite ((partOnly_slotFault s k _).trans (partOnly_pairDeclareFailed _ 2)) (partOnly_stopWith s k _ _)

theorem partOnly_clusterFault (s : State) (g : Nat) (r : EventRec) : PartOnly s (s.clusterFault g r) := by
  unfold State.clusterFault
  dsimp only
  split
  · exact partOnly_slotFault s _ _
  · exact partOnly_logEvent s _

end Sys2Proof.Machine
end

section
/-! A part that leaves service (06 R200, R203, 12 R355, R359): dies, stacks, engines, host ports, and the pair's link. -/

namespace Sys2Proof.Machine

/-! ### Dies (R154, R200, R280, R448) -/

theorem partOnly_distChanged (s : State) : PartOnly s s.distChanged :=
  partOnly_foldl _ (fun s d => partOnly_bump s 0 32 1 (by
    simp only [roundRegs, Reg.FAB_DIST_GEN, Reg.PST_PAIR_STATUS, Reg.CLK_STATUS, List.mem_cons, List.not_mem_nil, or_false]
    omega)) _ s

theorem partOnly_setExcl (s : State) (d : Nat) (b : Bool) : PartOnly s (s.setExcl d b) := by
  have apart : (if d < 32 then Reg.FUS_EXCL_LO else Reg.FUS_EXCL_HI) ∉ roundRegs := by split <;> decide
  exact PartOnly.ite (PartOnly.refl s) ((partOnly_setField s _ _ _ apart).trans (partOnly_setField _ _ _ _ (by decide)))

theorem partOnly_dieLeaves (s : State) (d : Nat) : PartOnly s (s.dieLeaves d) :=
  have excluded := partOnly_setExcl s d true
  PartOnly.ite ((excluded.trans (partOnly_leave _ _)).trans (partOnly_distChanged _)) excluded

theorem partOnly_setDrained (s : State) (b : Bool) : PartOnly s (s.setDrained b) := by
  unfold State.setDrained
  refine PartOnly.ite (PartOnly.refl s) ?_
  dsimp only
  refine (PartOnly.trans ?_ (partOnly_setField _ _ _ _ (by decide))).trans (partOnly_distChanged _)
  exact partOnly_of_same rfl rfl rfl rfl

theorem partOnly_drainModule (s : State) : PartOnly s s.drainModule :=
  (((((partOnly_logPlain s _ _ _ _ _ _).trans (partOnly_setDrained _ true)).trans (partOnly_drainQuiet _)).trans
    (partOnly_pairFails _ 2)).trans (partOnly_settleDone _)).trans (partOnly_send _ _)

theorem partOnly_checkDies (s : State) : PartOnly s s.checkDies := PartOnly.ite (partOnly_drainModule s) (PartOnly.refl s)

theorem partOnly_dieOut (s : State) (d : Nat) (ev : EventRec) : PartOnly s (s.dieOut d ev) := by
  have gone := partOnly_dieLeaves s d
  unfold State.dieOut
  refine PartOnly.ite (PartOnly.refl s) ?_
  dsimp only
  split
  · exact (gone.trans (partOnly_partFault _ _ ev)).trans (partOnly_checkDies _)
  · exact (gone.trans (partOnly_logEvent _ ev)).trans (partOnly_checkDies _)

/-! ### Stacks (R241) -/

/-- A fold that gathers something beside. -/
theorem partOnly_foldl_snd {α β : Type} (f : β × State → α → β × State) (h : ∀ u x, PartOnly u.2 (f u x).2) (l : List α)
    (u : β × State) : PartOnly u.2 (l.foldl f u).2 := by
  induction l generalizing u with
  | nil => exact PartOnly.refl u.2
  | cons a l ih => exact (h u a).trans (ih _)

theorem partOnly_poisonEntries (s : State) (n : Nat) : PartOnly s (s.poisonEntries n).2 := by
  exact partOnly_foldl_snd (β := List Entry) _ (fun u _ => partOnly_fresh u.2) (List.range n) ([], s)

theorem outward_grant (s : State) (k : Nat) (force : Bool) : Outward s (s.grant k force) := by
  unfold State.grant
  dsimp only
  split
  · exact (outward_sendMsg ..).trans (outward_setStream ..)
  · exact Outward.refl s

theorem outward_gateRead (s : State) (key : Nat) : Outward s (s.gateRead key) :=
  outward_foldl _ (fun s (p : Nat × TStream) => outward_grant s p.1 false) _ s

theorem partOnly_deliverEgress (s : State) (key : Nat) (job : BitVec 16) (first : Nat) (es : List Entry) :
    PartOnly s (s.deliverEgress key job first es) :=
  PartOnly.ite ((partOnly_setStrip s key _).trans (outward_gateRead _ key).partOnly) (PartOnly.refl s)

theorem partOnly_loseTxn (s : State) (t : Txn) : PartOnly s (s.loseTxn t) := by
  have written (key : Nat) (job : BitVec 16) (first : Nat) :
      PartOnly s (if s.slotOf key job then s.streamFault key 0x05 ((s.strip key).desc.offset first) else s) :=
    PartOnly.ite (partOnly_slotFault s _ _) (PartOnly.refl s)
  cases t with
  | egress job key first count _ => exact (partOnly_poisonEntries s count).trans (partOnly_deliverEgress _ key job first _)
  | ingress job key first _ => exact written key job first
  | partialLine job key first _ => exact written key job first
  | none => exact PartOnly.refl s

theorem partOnly_loseStack (s : State) {k : Nat} (cause : Nat) (bound : k < 0x100) : PartOnly s (s.loseStack k cause) := by
  have apart : Reg.CHS_STACK k ∉ roundRegs := by
    simp only [roundRegs, Reg.CHS_STACK, Reg.PST_PAIR_STATUS, Reg.CLK_STATUS, List.mem_cons, List.not_mem_nil, or_false]
    omega
  have out (x : Stack) : PartOnly s ((((((s.setField (Reg.CHS_STACK k) 0 3 4).setField (Reg.CHS_STACK k) 4 8
      cause).setStack k x).countStacks).leave (srcStack k)).distChanged) :=
    ((((partOnly_setField s 0 3 4 apart).trans (partOnly_setField _ 4 8 cause apart)).trans (partOnly_setStack _ k x)).trans
      (partOnly_setReg _ _ (by decide))).trans ((partOnly_leave _ _).trans (partOnly_distChanged _))
  unfold State.loseStack
  refine PartOnly.ite (PartOnly.refl s) ?_
  dsimp only
  refine PartOnly.trans ?_ (partOnly_foldl _ (fun s (t : Nat × Txn) => partOnly_loseTxn s t.2) _ _)
  exact PartOnly.ite (((out _).trans (partOnly_logEvent _ _)).trans (partOnly_pairDeclareFailed _ 2))
    ((out _).trans (partOnly_logEvent _ _))

/-! ### Engines and their ports (R312, R315, R318) -/

theorem partOnly_notePairLink (s : State) : PartOnly s s.notePairLink := by
  unfold State.notePairLink
  repeat' split
  all_goals exact partOnly_of_same rfl rfl rfl rfl

/-- The registers of a port are none of the clock's and none of the pair's. -/
theorem portRegs_not_roundRegs (p : Nat) :
    Reg.LTN_PORT_LOST p ∉ roundRegs ∧ Reg.LTN_PORT_EVENTS p ∉ roundRegs ∧ Reg.LTN_PORT_DOWN p ∉ roundRegs := by
  simp only [roundRegs, Reg.LTN_PORT_LOST, Reg.LTN_PORT_EVENTS, Reg.LTN_PORT_DOWN, Reg.PST_PAIR_STATUS, Reg.CLK_STATUS,
    List.mem_cons, List.not_mem_nil, or_false]
  omega

theorem partOnly_portDown (s : State) (p : Nat) (reason : Option Nat) (evidence : Bool) :
    PartOnly s (s.portDown p reason evidence) := by
  obtain ⟨lost, events, down⟩ := portRegs_not_roundRegs p
  have falls {u : State} (h : PartOnly s u) (n r : Nat) (x : Port) (src p0 p1 : Nat) : PartOnly s
      ((((((u.bump (Reg.LTN_PORT_LOST p) 0 32 n).bump (Reg.LTN_PORT_EVENTS p) 16 8 1).setField (Reg.LTN_PORT_DOWN p) 0 4
        r).setPort p x).logMarked evidence src 0x0C 0x01 p0 p1 0).suspendStreams p) :=
    ((((h.trans (partOnly_bump u 0 32 n lost)).trans (partOnly_bump _ 16 8 1 events)).trans
      (partOnly_setField _ 0 4 r down)).trans (partOnly_setPort _ p x)).trans
      ((partOnly_logMarked _ evidence src 0x0C 0x01 p0 p1 0).trans (partOnly_of_same rfl rfl rfl rfl))
  unfold State.portDown
  cases reason with
  | some r => exact PartOnly.ite ((falls (PartOnly.refl s) ..).trans (partOnly_notePairLink _)) (falls (PartOnly.refl s) ..)
  | none => exact PartOnly.ite ((falls (partOnly_fresh s) ..).trans (partOnly_notePairLink _)) (falls (partOnly_fresh s) ..)

theorem partOnly_portFails (s : State) (p : Nat) (reason : Option Nat) (evidence : Bool) :
    PartOnly s (s.portFails p reason evidence) :=
  (partOnly_portDown s p reason evidence).trans (PartOnly.ite (partOnly_setPort _ p _) (PartOnly.refl _))

theorem partOnly_engineOut (s : State) (k : Nat) (reason : Option Nat) : PartOnly s (s.engineOut k reason) := by
  have out (x : Engine) := (((partOnly_leave s (srcEngine k)).trans (partOnly_setEngine _ k x)).trans
    (partOnly_distChanged _)).trans (partOnly_foldl (fun (s : State) p =>
      let st := (s.port p).st.toNat
      if 2 ≤ st ∧ st ≤ 8 then s.portFails p reason (s.pairActive && s.portPaired p) else s)
      (fun s p => PartOnly.ite (partOnly_portFails s p reason _) (PartOnly.refl s)) [2 * k, 2 * k + 1] _)
  unfold State.engineOut
  exact PartOnly.ite (PartOnly.ite ((out _).trans (partOnly_pairDeclareFailed _ 2)) (out _)) (PartOnly.refl s)

/-! ### Host ports (R270, R271) -/

theorem partOnly_ringError (s : State) (rn code : Nat) (evidence : Bool) : PartOnly s (s.ringError rn code evidence) := by
  have shown (u : State) (fn : Nat) (w : Word) :
      PartOnly u (if u.fnField fn Reg.HIF_RING_ERR 31 1 = 0 then u.setFnReg fn Reg.HIF_RING_ERR w else u) :=
    PartOnly.ite (partOnly_setFnReg u fn w (by decide)) (PartOnly.refl u)
  have told (u : State) (b : Bool) (m : Mem) : PartOnly u (if b then { u with hostMem := m } else u) :=
    PartOnly.ite (partOnly_of_same rfl rfl rfl rfl) (PartOnly.refl u)
  unfold State.ringError
  exact ((((((partOnly_setRing s rn _).trans (partOnly_setFnField _ _ 2 1 1 (by decide))).trans
    (partOnly_fnBump _ _ 16 16 1 (by decide))).trans (shown _ _ _)).trans
    (partOnly_of_same (t := State.setFn _ _ _) rfl rfl rfl rfl)).trans (told _ _ _)).trans
    ((outward_signalZero _ _).partOnly.trans (partOnly_logMarked _ _ _ _ _ _ _ _))

theorem partOnly_ringPortDown (s : State) (rn : Nat) (evidence : Bool) : PartOnly s (s.ringPortDown rn evidence) :=
  (((partOnly_of_same (s := s) (t := s.dropRefs rn) rfl rfl rfl rfl).trans (partOnly_ringError _ rn 0x03 evidence)).trans
    (partOnly_setRing _ rn _)).trans (outward_finishDestroy _ rn).partOnly

theorem partOnly_doorbellError (s : State) (fn : Nat) (evidence : Bool) : PartOnly s (s.doorbellError fn evidence) := by
  have shown := ((partOnly_setFnField s fn (a := Reg.HIF_FN_CTRL) 0 1 0 (by decide)).trans
    (partOnly_setFnField _ fn (a := Reg.HIF_STATUS) 0 1 0 (by decide))).trans
    (partOnly_setFnField _ fn (a := Reg.HIF_STATUS) 1 1 1 (by decide))
  exact (PartOnly.ite (shown.trans (outward_signalVector _ _ _ _).partOnly) shown).trans (partOnly_logMarked _ _ _ _ _ _ _ _)

theorem partOnly_portLost (s : State) (p : Bool) : PartOnly s (s.portLost p) := by
  have failed : PartOnly s (if s.pairActive then
      ({ s with pair := { s.pair with evidence := true } } : State).pairDeclareFailed 3 else s) := by
    refine PartOnly.ite (PartOnly.trans ?_ (partOnly_pairDeclareFailed _ 3)) (PartOnly.refl s)
    exact partOnly_of_same rfl rfl rfl rfl
  exact (failed.trans (partOnly_foldl _ (fun s rn => partOnly_ringPortDown s rn _) _ _)).trans
    (partOnly_foldl _ (fun s fn => PartOnly.ite (partOnly_doorbellError s fn _) (PartOnly.refl s)) _ _)

/-! ### Any part (R202, R203) -/

theorem partOnly_participantOut (s : State) (src : Nat) : PartOnly s (s.participantOut src) := by
  have hostPort : Reg.HIF_PORT_STATUS (if src == srcHostPort true then 1 else 0) ∉ roundRegs := by
    split <;> decide
  unfold State.participantOut
  split
  next => exact (partOnly_dieLeaves s _).trans (partOnly_checkDies _)
  split
  next => exact (partOnly_fresh s).trans (partOnly_loseStack _ _ (by omega))
  split
  next => exact partOnly_engineOut s _ none
  split
  next =>
    exact (PartOnly.ite ((partOnly_setField s 0 12 0 hostPort).trans (partOnly_portLost _ _)) (PartOnly.refl s)).trans
      (partOnly_leave _ src)
  next => exact partOnly_leave s src

end Sys2Proof.Machine
end

section
/-! The pair's link is lost (11 R346, R349), and the pair unit's duty in a round (11 R345, R347, R348). -/

namespace Sys2Proof.Machine

/-! ### Lines that a survivor sends again (R238-R241, R328, R342) -/

/-- The map gives stacks by numbers of 8 bits (R212, R213). -/
theorem chsDecode_lt {s : State} {a k loc : Nat} (h : s.chsDecode a = some (k, loc)) : k < 0x100 := by
  have entry (i : Nat) : s.spreadEntry i < 2 ^ 8 := field_lt s _ _ 8
  unfold State.chsDecode at h
  dsimp only at h
  split at h
  · cases h
  split at h
  · cases h
    exact entry _
  split at h
  · cases h
  split at h
  next near =>
    cases h
    exact near.1.trans (by decide)
  next => cases h

theorem partOnly_ueFirst (s : State) (a k : Nat) : PartOnly s (s.ueFirst a k) :=
  PartOnly.ite (PartOnly.refl s) ((partOnly_setReg s _ (by decide)).trans (partOnly_setReg _ _ (by decide)))

theorem partOnly_stackRead (s : State) {k : Nat} (loc : Nat) (tag : BitVec 16) (bound : k < 0x100) :
    PartOnly s (s.stackRead k loc tag).2.2.2 := by
  have counters : Reg.CHS_CE k ∉ roundRegs ∧ Reg.CHS_UE k ∉ roundRegs := by
    simp only [roundRegs, Reg.CHS_CE, Reg.CHS_UE, Reg.PST_PAIR_STATUS, Reg.CLK_STATUS, List.mem_cons, List.not_mem_nil, or_false]
    omega
  have counted (u : State) (r : EventRec) (x : Stack) (b : Bool) :
      PartOnly u (if b then u.bump (Reg.CHS_CE k) 0 32 1 else ((u.bump (Reg.CHS_CE k) 0 32 1).setStack k x).logEvent r) :=
    PartOnly.ite (partOnly_bump u _ _ _ counters.1)
      (((partOnly_bump u _ _ _ counters.1).trans (partOnly_setStack _ k x)).trans (partOnly_logEvent _ r))
  unfold State.stackRead
  dsimp only
  split
  next => exact PartOnly.refl s
  split
  next w fixed _ =>
    cases fixed
    · exact PartOnly.refl s
    · simp only [Bool.not_true, Bool.false_eq_true, if_false, if_true]
      refine PartOnly.trans ?_ (counted _ _ _ _)
      exact partOnly_of_same rfl rfl rfl rfl
  next =>
    split
    · exact partOnly_fresh s
    · refine PartOnly.trans ?_ (partOnly_logEvent _ _)
      refine PartOnly.trans (PartOnly.trans ?_ (partOnly_bump _ 0 32 1 counters.2)) (partOnly_ueFirst _ _ k)
      exact partOnly_of_same rfl rfl rfl rfl

theorem partOnly_readLine (s : State) (a : Nat) (tag : BitVec 16) : PartOnly s (s.readLine a tag).2.2 := by
  unfold State.readLine
  split
  next k loc found =>
    split
    · exact partOnly_stackRead s loc tag (chsDecode_lt found)
    · exact partOnly_fresh s
  next => exact partOnly_fresh s

theorem partOnly_pump (s : State) (k n : Nat) : PartOnly s (s.pump k n) := by
  induction n generalizing s with
  | zero => exact PartOnly.refl s
  | succ n ih =>
    unfold State.pump
    dsimp only
    split
    next l count _ =>
      refine PartOnly.trans (PartOnly.trans (PartOnly.trans ?_ (outward_sendMsg ..).partOnly) (partOnly_setStream _ k _)) (ih _)
      exact partOnly_foldl_snd (β := List Seg) _ (fun u i => partOnly_readLine u.2 _ _) (List.range count) ([], s)
    next => exact PartOnly.refl s

/-! ### The survivor stands alone (R346, R349) -/

theorem outward_writeQuiet (s : State) (rn idx : Nat) (entry : BitVec 256) : Outward s (s.writeQuiet rn idx entry) :=
  outward_of_jobs rfl rfl

theorem outward_releaseHeld (s : State) : Outward s s.releaseHeld := by
  have signalled (s : State) (rn : Nat) : Outward s (
      let r := s.ring rn
      if r.vector = 0xFF#8 then s
      else (s.setRing rn { r with unsignalled := 0 }).signalVector r.port r.fn.toNat (r.vector.toNat % 32)) := by
    dsimp only
    split
    · exact Outward.refl s
    · exact (outward_setRing s rn _).trans (outward_signalVector ..)
  have written := (outward_foldl _ (fun s (h : HeldCpl) => outward_writeQuiet s h.ring h.idx h.entry) s.pair.held s).trans
    (outward_foldl _ signalled (s.pair.held.map (·.ring)).eraseDups _)
  exact written.trans (outward_of_jobs rfl rfl)

theorem partOnly_setLeads (s : State) (v : Nat) : PartOnly s (s.setField Reg.PST_PAIR_STATUS 4 1 v) := by
  have active : (s.setField Reg.PST_PAIR_STATUS 4 1 v).pairActive = s.pairActive := by
    simp only [State.pairActive, State.pairState, field_setField_apart s Reg.PST_PAIR_STATUS 4 1 v 0 4 (by decide) (by decide)]
  exact ⟨roundKept_of_toll rfl active, rfl, reg_setField_other _ _ _ _ _ _ (by decide), List.prefix_rfl⟩

theorem partOnly_takeOverWrites (s : State) : PartOnly s s.takeOverWrites :=
  partOnly_foldl _ (fun s k => (partOnly_setStream s k _).trans (partOnly_pump _ k _)) _ s

theorem partOnly_becomeSingle {s : State} (paired : s.pairActive = true) : PartOnly s s.becomeSingle := by
  have leads : PartOnly s (((List.range 64).foldl (fun s k =>
      if (s.job k).paired then s.modJob k fun j => { j with paired := false } else s) s.releaseHeld).setField
        Reg.PST_PAIR_STATUS 4 1 1) :=
    ((outward_releaseHeld s).partOnly.trans (partOnly_foldl _ (fun s k =>
      PartOnly.ite (partOnly_modJob s k _) (PartOnly.refl s)) _ _)).trans (partOnly_setLeads _ 1)
  unfold State.becomeSingle
  dsimp only
  refine PartOnly.trans ?_ (partOnly_takeOverWrites _)
  refine (leads.trans (partOnly_setPairState (leads.active.trans paired) (v := 3) (by decide) (by decide))).trans ?_
  exact partOnly_of_same rfl rfl rfl rfl

theorem crystalsLost_of_partOnly {s t : State} (h : PartOnly s t) : t.crystalsLost = s.crystalsLost := by
  simp only [State.crystalsLost, State.refStatus, field_of_reg h.clock]

/-- The loss of the pair's link while a crystal stands (R349, R393). -/
theorem partOnly_loseLink {s : State} (crystal : s.crystalsLost = false) : PartOnly s s.loseLink := by
  unfold State.loseLink
  dsimp only
  split
  next linked =>
    have paired : s.pairActive = true := by
      simp only [State.pairActive, bne_iff_ne]
      omega
    have told := partOnly_logEvent s (s.pairEvent 0x04)
    have alone : PartOnly s (if (s.logEvent (s.pairEvent 0x04)).pairLeads then (s.logEvent (s.pairEvent 0x04)).becomeSingle
        else (s.logEvent (s.pairEvent 0x04)).pairDeclareFailed 1) :=
      PartOnly.ite (told.trans (partOnly_becomeSingle (told.active.trans paired))) (told.trans (partOnly_pairDeclareFailed _ 1))
    rw [if_neg (by rw [crystalsLost_of_partOnly alone, crystal]; decide)]
    exact alone
  next =>
    rw [if_neg (by rw [crystal]; decide)]
    exact PartOnly.refl s

/-! ### The pair unit's duty (R345, R347, R348) -/

theorem outward_sendSigs (s : State) (round n : Nat) (us : List SigUnit) : Outward s (s.sendSigs round us n) := by
  induction n generalizing s us with
  | zero => exact Outward.refl s
  | succ n ih =>
    unfold State.sendSigs
    dsimp only
    split
    · exact outward_sendPair ..
    · exact (outward_sendPair ..).trans (ih _ _)

theorem outward_listSigs (s : State) (n : Nat) : Outward s (s.listSigs n) := by
  unfold State.listSigs
  dsimp only
  split
  · exact (outward_sendSigs ..).trans (outward_of_jobs rfl rfl)
  · exact Outward.refl s

theorem partOnly_undecided (s : State) : PartOnly s s.undecided :=
  have counted := partOnly_bump s (a := Reg.PST_PAIR_COUNTS) 8 8 1 (by decide)
  PartOnly.ite (counted.trans (partOnly_logEvent _ _)) (counted.trans (partOnly_slotFaults _ _ _))

theorem partOnly_weighEvidence (s : State) : PartOnly s s.weighEvidence := by
  unfold State.weighEvidence
  split
  next theirs _ _ =>
    have weighed : PartOnly s { s with pair := { s.pair with mismatch := false, peerEvidence := none } } :=
      partOnly_of_same rfl rfl rfl rfl
    have counted := weighed.trans (partOnly_bump _ (a := Reg.PST_PAIR_COUNTS) 16 8 1 (by decide))
    exact PartOnly.ite (PartOnly.ite (counted.trans (partOnly_pairDeclareFailed _ 5)) counted)
      (weighed.trans (partOnly_undecided _))
  next => exact PartOnly.refl s

theorem partOnly_sigMismatch (s : State) : PartOnly s s.sigMismatch := by
  unfold State.sigMismatch
  refine PartOnly.ite (PartOnly.refl s) ?_
  dsimp only
  refine PartOnly.trans (PartOnly.trans ?_ (outward_sendPair ..).partOnly) (partOnly_weighEvidence _)
  exact partOnly_of_same rfl rfl rfl rfl

theorem partOnly_compareSigs (s : State) (n : Nat) : PartOnly s (s.compareSigs n) := by
  unfold State.compareSigs
  dsimp only
  refine PartOnly.ite (PartOnly.trans ?_ (partOnly_sigMismatch _)) ?_ <;> exact partOnly_of_same rfl rfl rfl rfl

theorem partOnly_pairDuties (s : State) : PartOnly s s.pairDuties := by
  unfold State.pairDuties
  by_cases paired : s.pairActive = true
  · have listed : PartOnly s (if s.pair.ownListed then s else s.listSigs s.toll.oldest) :=
      PartOnly.ite (PartOnly.refl s) (outward_listSigs s _).partOnly
    have compared := listed.trans (partOnly_compareSigs _ (State.toll (if s.pair.ownListed then s else s.listSigs s.toll.oldest)).oldest)
    rw [if_neg (by simp [paired])]
    exact PartOnly.ite (PartOnly.ite (compared.trans (partOnly_enterPair (compared.active.trans paired))) listed)
      (partOnly_enterPair paired)
  · rw [if_pos (by simpa using paired)]
    exact PartOnly.refl s

/-- Without a pair the pair unit has no duty. -/
theorem pairDuties_alone {s : State} (alone : s.pairActive = false) : s.pairDuties = s := by
  rw [State.pairDuties, if_pos (by simp [alone])]

/-- The duties of the oldest round, where it is open (R345, R391). -/
theorem partOnly_roundDuties (s : State) : PartOnly s s.roundDuties := by
  unfold State.roundDuties
  dsimp only
  refine PartOnly.ite (PartOnly.trans ?_ (partOnly_pairDuties _)) (PartOnly.refl s)
  exact partOnly_of_same rfl rfl rfl rfl

end Sys2Proof.Machine
end

section
/-! TOLLGATE_ROUND_OPEN (06 R199, 09 R322): a round opens, and its entries and late re-centrings with it. -/

namespace Sys2Proof.Machine

theorem mem_insertNat {p n : Nat} {l : List Nat} : p ∈ insertNat n l ↔ p = n ∨ p ∈ l := by
  induction l with
  | nil => simp [insertNat]
  | cons m l ih =>
    unfold insertNat
    split
    · simp
    split
    next same => simp [same]
    next => rw [List.mem_cons, ih, List.mem_cons, or_left_comm]

/-! ### Late re-centrings (R322) -/

/-- What the opening of a round does to one engine. -/
def State.lateAt (s : State) (p : Nat × Engine) : State :=
  if p.2.recentring && !p.2.late then
    (s.bump (Reg.LTN_ENG_RING p.1) 24 8 1).setEngine p.1 { p.2 with late := true }
  else s

theorem recentreLate_eq (s : State) : s.recentreLate = s.engines.foldl State.lateAt s := rfl

/-- An engine counts as late, once for a re-centring. -/
structure CountedLate (s t : State) (k : Nat) : Prop where
  late : (t.engine k).late = true
  stands : (s.engine k).late = true → t.field (Reg.LTN_ENG_RING k) 24 8 = s.field (Reg.LTN_ENG_RING k) 24 8
  counts : (s.engine k).late = false → Counts s t (Reg.LTN_ENG_RING k) 24 8

/-- An engine and its ring register stand. -/
structure EngineStands (s t : State) (k : Nat) : Prop where
  engine : t.engine k = s.engine k
  ring : t.field (Reg.LTN_ENG_RING k) 24 8 = s.field (Reg.LTN_ENG_RING k) 24 8

theorem CountedLate.after {s t u : State} {k : Nat} (a : EngineStands s t k) (b : CountedLate t u k) : CountedLate s u k where
  late := b.late
  stands h := (b.stands (by rw [a.engine, h])).trans a.ring
  counts h := by
    have counted := b.counts (by rw [a.engine, h])
    rwa [Counts, a.ring] at counted

theorem CountedLate.stays {s t u : State} {k : Nat} (a : CountedLate s t k) (b : EngineStands t u k) : CountedLate s u k where
  late := by rw [b.engine, a.late]
  stands h := b.ring.trans (a.stands h)
  counts h := by rw [Counts, b.ring]; exact a.counts h

theorem lateAt_other (s : State) {p : Nat × Engine} {k : Nat} (other : k ≠ p.1) : EngineStands s (s.lateAt p) k := by
  unfold State.lateAt
  split
  · have apart : Reg.LTN_ENG_RING k ≠ Reg.LTN_ENG_RING p.1 := by
      unfold Reg.LTN_ENG_RING
      omega
    exact ⟨(engine_setEngine_other _ _ _ _ other).trans (State.bump_engineAt ..),
      (State.setEngine_fieldAt ..).trans (field_bump_other s _ _ _ _ _ _ _ apart)⟩
  · exact ⟨rfl, rfl⟩

theorem lateAt_same {s : State} {p : Nat × Engine} (listed : s.engine p.1 = p.2) (recentring : p.2.recentring = true) :
    CountedLate s (s.lateAt p) p.1 := by
  unfold State.lateAt
  split
  next now =>
    have early : p.2.late = false := by simpa [recentring] using now
    refine ⟨by rw [engine_setEngine_same], fun late => ?_, fun _ => ?_⟩
    · rw [listed, early] at late
      cases late
    · rw [Counts, State.setEngine_fieldAt]
      exact field_bump_same s _ 24 8 1 (by decide)
  next before =>
    have late : p.2.late = true := by simpa [recentring] using before
    exact ⟨by rw [listed, late], fun _ => rfl, fun early => by rw [listed, late] at early; cases early⟩

theorem foldl_lateAt_other (l : AMap Engine) (t : State) {k : Nat} (apart : ∀ p ∈ l, k ≠ p.1) :
    EngineStands t (l.foldl State.lateAt t) k := by
  induction l generalizing t with
  | nil => exact ⟨rfl, rfl⟩
  | cons p l ih =>
    have first := lateAt_other t (apart p (List.mem_cons_self ..))
    have rest := ih (t.lateAt p) fun q hq => apart q (List.mem_cons_of_mem _ hq)
    exact ⟨rest.engine.trans first.engine, rest.ring.trans first.ring⟩

/-- Listed engines, each once. -/
theorem foldl_lateAt_listed {l : AMap Engine} (rise : KeysRise l) {t : State} (listed : ∀ p ∈ l, t.engine p.1 = p.2)
    {p : Nat × Engine} (mem : p ∈ l) (recentring : p.2.recentring = true) :
    CountedLate t (l.foldl State.lateAt t) p.1 := by
  induction l generalizing t with
  | nil => cases mem
  | cons q l ih =>
    obtain ⟨later, rise⟩ := (keysRise_cons q l).1 rise
    rcases List.mem_cons.1 mem with rfl | mem
    · exact (lateAt_same (listed p (List.mem_cons_self ..)) recentring).stays
        (foldl_lateAt_other l _ fun x hx => Nat.ne_of_lt (later x hx))
    · have others (x : Nat × Engine) (hx : x ∈ l) := lateAt_other t (Nat.ne_of_gt (later x hx))
      exact (ih rise (fun x hx => (others x hx).engine.trans (listed x (List.mem_cons_of_mem _ hx))) mem).after
        (others p mem)

theorem countedLate_recentreLate {s : State} (rise : KeysRise s.engines) {k : Nat} (recentring : (s.engine k).recentring = true) :
    CountedLate s s.recentreLate k := by
  have stored : (k, s.engine k) ∈ s.engines := AMap.mem_of_get_ne fun none => by
    rw [State.engine, none] at recentring
    cases recentring
  exact foldl_lateAt_listed rise (fun _ hp => AMap.get_of_mem rise hp) stored recentring

theorem partOnly_recentreLate (s : State) : PartOnly s s.recentreLate := by
  have ring (k : Nat) : Reg.LTN_ENG_RING k ∉ roundRegs := by
    simp only [roundRegs, Reg.LTN_ENG_RING, Reg.PST_PAIR_STATUS, Reg.CLK_STATUS, List.mem_cons, List.not_mem_nil, or_false]
    omega
  exact partOnly_foldl State.lateAt (fun s p =>
    PartOnly.ite ((partOnly_bump s _ _ _ (ring p.1)).trans (partOnly_setEngine _ _ _)) (PartOnly.refl s)) _ s

theorem outOf_recentreLate (s : State) : s.recentreLate.outOf = s.outOf := by
  rw [recentreLate_eq]
  refine List.foldlRecOn s.engines State.lateAt (motive := fun t => t.outOf = s.outOf) rfl fun t kept p _ => ?_
  unfold State.lateAt
  split
  · rw [State.setEngine_outOf, State.bump_outOf, kept]
  · exact kept

/-! ### Entries into the round (R202) -/

/-- Only the entries of the oldest and of the next round differ. -/
structure EntriesOnly (s t : State) : Prop where
  rest : t = { s with toll := { s.toll with
    entered := t.toll.entered, pending := t.toll.pending, lastEntryMs := t.toll.lastEntryMs } }

theorem EntriesOnly.trans {s t u : State} (a : EntriesOnly s t) (b : EntriesOnly t u) : EntriesOnly s u :=
  ⟨by rw [b.rest, a.rest]⟩

theorem entriesOnly_enters (s : State) (src : Nat) : EntriesOnly s (s.enters src) := by
  unfold State.enters
  split <;> exact ⟨rfl⟩

theorem mem_entered_enters {s : State} {p src : Nat} : p ∈ (s.enters src).toll.entered ↔ p = src ∨ p ∈ s.toll.entered := by
  unfold State.enters
  split
  next already =>
    refine ⟨.inr, fun h => h.elim ?_ id⟩
    rintro rfl
    exact List.contains_iff_mem.1 already
  next => exact mem_insertNat

/-- An entry of a participant that serves. -/
theorem entriesOnly_entersIf (s : State) (src : Nat) : EntriesOnly s (if s.serves src then s.enters src else s) := by
  split
  · exact entriesOnly_enters s src
  · exact ⟨rfl⟩

theorem entriesOnly_enterAlone (s : State) : EntriesOnly s s.enterAlone :=
  (entriesOnly_entersIf s srcDrag).trans (entriesOnly_entersIf _ srcClock)

theorem entriesOnly_enterAhead (s : State) : EntriesOnly s s.enterAhead := by
  have waits (s : State) (src : Nat) : EntriesOnly s (
      if s.serves src then { s with toll := { s.toll with pending := insertNat src s.toll.pending } } else s) := by
    split <;> exact ⟨rfl⟩
  exact (waits s srcDrag).trans (waits _ srcClock)

theorem mem_entered_entersIf {s : State} {p src : Nat} :
    p ∈ (if s.serves src then s.enters src else s).toll.entered ↔ (p = src ∧ s.serves src = true) ∨ p ∈ s.toll.entered := by
  split
  next serves => simp [mem_entered_enters, serves]
  next out => simp [out]

/-- Drag and the clock controller have entered a round once it is open. -/
theorem mem_entered_enterAlone {s : State} {p : Nat} (who : p ∈ [srcDrag, srcClock]) (serves : s.serves p = true) :
    p ∈ s.enterAlone.toll.entered := by
  have kept : (if s.serves srcDrag then s.enters srcDrag else s).outOf = s.outOf := by rw [(entriesOnly_entersIf s srcDrag).rest]
  have clock : p ∈ s.enterAlone.toll.entered ↔ _ := mem_entered_entersIf (s := if s.serves srcDrag then s.enters srcDrag else s)
  rw [clock, mem_entered_entersIf, State.serves, kept, ← State.serves]
  rcases List.mem_pair.1 who with rfl | rfl
  · exact .inr (.inl ⟨rfl, serves⟩)
  · exact .inl ⟨rfl, serves⟩

/-! ### The opening (R199) -/

/-- A new Tollgate period begins: time reaches its opening, late re-centrings count, warnings and logged corrections are
forgotten, and one more round is open. -/
def State.periodBegins (s : State) : State :=
  let s := (s.advanceTo (s.roundOpens s.toll.opened)).recentreLate
  { s with
    dstacks := (s.dstacks.map fun (p : Nat × Stack) => (p.1, { p.2 with ceLogged := false })).filter fun p => p.2 != ({} : Stack)
    dies := (s.dies.map fun (p : Nat × Die) => (p.1, { p.2 with warned := [] })).filter fun p => p.2 != ({} : Die)
    toll := { s.toll with opened := s.toll.opened + 1 } }

theorem pairActive_of_regs {s t : State} (same : t.regs = s.regs) : t.pairActive = s.pairActive :=
  pairActive_of_reg (reg_of_regs same _)

theorem pairActive_advanceTo (s : State) (t : Nat) : (s.advanceTo t).pairActive = s.pairActive :=
  pairActive_of_regs (State.advanceTo_regs ..)

/-- The Tollgate as late re-centrings leave it. -/
theorem toll_recentreLate (s : State) : s.recentreLate.toll = s.toll := by
  rw [recentreLate_eq]
  refine List.foldlRecOn s.engines State.lateAt (motive := fun t => t.toll = s.toll) rfl fun t kept p _ => ?_
  unfold State.lateAt
  split
  · rw [State.setEngine_toll, State.bump_toll, kept]
  · exact kept

theorem toll_periodBegins (s : State) : s.periodBegins.toll = { s.toll with opened := s.toll.opened + 1 } := by
  simp only [State.periodBegins, toll_recentreLate, State.advanceTo_toll]

theorem ms_periodBegins (s : State) : s.periodBegins.ms = max s.ms (s.roundOpens s.toll.opened) := by
  simp only [State.periodBegins, (partOnly_recentreLate _).ms, advanceTo_ms]

theorem outOf_periodBegins (s : State) : s.periodBegins.outOf = s.outOf := by
  simp only [State.periodBegins, outOf_recentreLate, State.advanceTo_outOf]

theorem pairActive_periodBegins (s : State) : s.periodBegins.pairActive = s.pairActive :=
  (partOnly_recentreLate _).active.trans (pairActive_advanceTo s _)

theorem countedLate_periodBegins {s : State} (rise : KeysRise s.engines) {k : Nat}
    (recentring : (s.engine k).recentring = true) : CountedLate s s.periodBegins k := by
  have advanced : EngineStands s (s.advanceTo (s.roundOpens s.toll.opened)) k :=
    ⟨State.advanceTo_engineAt .., State.advanceTo_fieldAt ..⟩
  have counted := countedLate_recentreLate (s := s.advanceTo (s.roundOpens s.toll.opened))
    (by rwa [State.advanceTo_engines]) (by rwa [State.advanceTo_engineAt])
  exact (counted.after advanced).stays ⟨rfl, field_of_regs rfl _ _ _⟩

theorem roundOpen_of_started {s : State} (started : s.toll.started = true) :
    s.roundOpen =
      if s.toll.opened = s.toll.oldest then s.periodBegins.enterAlone.roundDuties
      else if s.toll.opened = s.toll.oldest + 1 then s.periodBegins.enterAhead
      else s.periodBegins := by
  rw [State.roundOpen, if_neg (by simp [started])]
  simp only [toll_recentreLate, State.advanceTo_toll, State.periodBegins]

/-- Without a pair the duties of a round are the clock controller's alone (R391). -/
theorem roundDuties_alone {s : State} (alone : s.pairActive = false) :
    s.roundDuties = { s with clock := s.roundDuties.clock } := by
  unfold State.roundDuties
  dsimp only
  split
  · rw [pairDuties_alone (s := { s with clock := s.clock.carry (s.roundOpens s.toll.oldest) }) alone]
  · rfl

/-- What the opening leaves of what it says. -/
structure RoundOpened (s t : State) : Prop where
  opened : t.toll.opened = s.toll.opened + 1
  oldest : t.toll.oldest = s.toll.oldest
  k : t.toll.k = s.toll.k
  ms : s.roundOpens s.toll.opened ≤ t.ms

theorem roundOpened_periodBegins (s : State) : RoundOpened s s.periodBegins := by
  have toll := toll_periodBegins s
  exact ⟨by rw [toll], by rw [toll], by rw [toll], by rw [ms_periodBegins]; exact Nat.le_max_right _ _⟩

theorem RoundOpened.entries {s t u : State} (a : RoundOpened s t) (b : EntriesOnly t u) : RoundOpened s u := by
  rw [b.rest]
  exact ⟨a.opened, a.oldest, a.k, a.ms⟩

theorem RoundOpened.part {s t u : State} (a : RoundOpened s t) (b : PartOnly t u) : RoundOpened s u := by
  refine ⟨?_, ?_, ?_, b.ms ▸ a.ms⟩ <;> rw [b.toll]
  exacts [a.opened, a.oldest, a.k]

theorem roundOpened_roundOpen {s : State} (started : s.toll.started = true) : RoundOpened s s.roundOpen := by
  have begun := roundOpened_periodBegins s
  rw [roundOpen_of_started started]
  split
  · exact (begun.entries (entriesOnly_enterAlone _)).part (partOnly_roundDuties _)
  split
  · exact begun.entries (entriesOnly_enterAhead _)
  · exact begun

theorem EntriesOnly.engineStands {s t : State} (h : EntriesOnly s t) (k : Nat) : EngineStands s t k := by
  rw [h.rest]
  exact ⟨rfl, field_of_regs rfl _ _ _⟩

theorem EntriesOnly.active {s t : State} (h : EntriesOnly s t) : t.pairActive = s.pairActive :=
  pairActive_of_regs (by rw [h.rest])

theorem engineStands_clockOnly (s : State) (c : Clock) (k : Nat) : EngineStands s { s with clock := c } k :=
  ⟨rfl, field_of_regs rfl _ _ _⟩

theorem countedLate_roundOpen {s : State} (started : s.toll.started = true) (alone : s.pairActive = false)
    (rise : KeysRise s.engines) {k : Nat} (recentring : (s.engine k).recentring = true) : CountedLate s s.roundOpen k := by
  have begun := countedLate_periodBegins rise recentring
  rw [roundOpen_of_started started]
  split
  · have still : s.periodBegins.enterAlone.pairActive = false :=
      (entriesOnly_enterAlone s.periodBegins).active.trans ((pairActive_periodBegins s).trans alone)
    rw [roundDuties_alone still]
    exact (begun.stays ((entriesOnly_enterAlone _).engineStands k)).stays (engineStands_clockOnly _ _ k)
  split
  · exact begun.stays ((entriesOnly_enterAhead _).engineStands k)
  · exact begun

theorem mem_entered_roundOpen {s : State} (started : s.toll.started = true) (first : s.toll.opened = s.toll.oldest) {p : Nat}
    (who : p ∈ [srcDrag, srcClock]) (serves : s.serves p = true) : p ∈ s.roundOpen.toll.entered := by
  have other : p ≠ pairUnit := by
    rcases List.mem_pair.1 who with rfl | rfl <;> decide
  rw [roundOpen_of_started started, if_pos first, (partOnly_roundDuties _).entered p other]
  exact mem_entered_enterAlone who (by rw [State.serves, outOf_periodBegins]; exact serves)

end Sys2Proof.Machine
end

section
/-! TOLLGATE_ENTRY (06 R202): an entry judged by its distance from the oldest round. -/

namespace Sys2Proof.Machine

/-! ### Protocol faults -/

/-- A fault of a slot's job leaves its record at the source, with the job's tag. -/
theorem mem_atSource_slotFault (s : State) (k : Nat) (r : EventRec) :
    ∃ tag f, { r with jobTag := tag, flags := f } ∈ (s.slotFault k r).ev.atSource := by
  obtain ⟨marks, record⟩ := stopRec_eq s k r
  obtain ⟨flags, logged⟩ := logEvent_atSource s (s.stopRec k r)
  refine ⟨(s.job k).tag, flags, ?_⟩
  have stands : { r with jobTag := (s.job k).tag, flags := flags } ∈ (s.logEvent (s.stopRec k r)).ev.atSource := by
    rw [logged, record]
    exact List.mem_append_right _ (List.mem_singleton_self _)
  unfold State.slotFault
  dsimp only
  split
  · exact stands
  · exact ((partOnly_faultJob _ k).trans (partOnly_failOrSettle _ _)).events.subset stands

/-- The record of a protocol fault, with the job's tag where one stops. -/
theorem mem_atSource_tollFault (s : State) (src cause round e : Nat) :
    ∃ tag f, { s.tollEvent src cause round e with jobTag := tag, flags := f } ∈ (s.tollFault src cause round e).ev.atSource := by
  unfold State.tollFault
  dsimp only
  split
  next k _ => exact mem_atSource_slotFault s k _
  next =>
    obtain ⟨flags, logged⟩ := logEvent_atSource s (s.tollEvent src cause round e)
    refine ⟨(s.tollEvent src cause round e).jobTag, flags, (partOnly_participantOut _ src).events.subset ?_⟩
    rw [logged]
    exact List.mem_append_right _ (List.mem_singleton_self _)

/-- A protocol fault is logged, of class tollgate, with its round and distance. -/
theorem tollFault_logs (s : State) (src cause : Nat) {round e : Nat} (byte : round < 2 ^ 8) (near : e < 2 ^ 8) :
    ∃ r ∈ (s.tollFault src cause round e).ev.atSource,
      r.cls = 0x07 ∧ r.cause = BitVec.ofNat 8 cause ∧ r.p0.toNat = round + 256 * e := by
  obtain ⟨tag, flags, logged⟩ := mem_atSource_tollFault s src cause round e
  refine ⟨_, logged, rfl, rfl, ?_⟩
  change (BitVec.ofNat 32 (round % 256 + 2 ^ 8 * e)).toNat = _
  rw [BitVec.toNat_ofNat]
  omega

/-! ### What an entry does, by its distance -/

/-- The distance of a round's number from the oldest round (R202). -/
def State.entryDistance (s : State) (round : BitVec 8) : Nat := (round.toNat + 256 - s.toll.oldest % 256) % 256

/-- A participant whose entries count: the Tollgate runs and the participant serves. -/
structure Enrolled (s : State) (src : Nat) : Prop where
  started : s.toll.started = true
  known : src ∈ participants
  inService : src ∉ s.outOf

theorem tollEntry_of_enrolled {s : State} {src : Nat} (h : Enrolled s src) (round : BitVec 8) (ok : Bool) :
    s.tollEntry src round ok =
      if !ok ∨ s.entryDistance round ≥ 3 then s.tollFault src 0x02 round.toNat (s.entryDistance round)
      else if s.entryDistance round = 2 then s.tollFault src 0x01 round.toNat (s.entryDistance round)
      else if s.entryDistance round = 1 then { s with toll := { s.toll with pending := insertNat src s.toll.pending } }
      else if s.dutyOpen src then s
      else s.enters src := by
  have enrolled : ¬((!s.toll.started) = true ∨ (!participants.contains src) = true ∨ (!s.serves src) = true) := by
    simp [h.started, h.known, State.serves, h.inService]
  exact if_neg enrolled

section

variable {s : State} {src : Nat} {round : BitVec 8} {ok : Bool}

theorem tollEntry_oldest (h : Enrolled s src) (parity : ok = true) (oldest : s.entryDistance round = 0) :
    s.tollEntry src round ok = if s.dutyOpen src then s else s.enters src := by
  simp [tollEntry_of_enrolled h, parity, oldest]

theorem tollEntry_next (h : Enrolled s src) (parity : ok = true) (next : s.entryDistance round = 1) :
    s.tollEntry src round ok = { s with toll := { s.toll with pending := insertNat src s.toll.pending } } := by
  simp [tollEntry_of_enrolled h, parity, next]

theorem tollEntry_faulty (h : Enrolled s src) (fault : ok = false ∨ 2 ≤ s.entryDistance round) :
    s.tollEntry src round ok =
      s.tollFault src (if ok = true ∧ s.entryDistance round = 2 then 0x01 else 0x02) round.toNat (s.entryDistance round) := by
  rw [tollEntry_of_enrolled h]
  split
  next far => rw [if_neg (by rintro ⟨rfl, two⟩; simp [two] at far)]
  next near =>
    obtain ⟨parity, close⟩ := not_or.1 near
    have good : ok = true := by simpa using parity
    have two : s.entryDistance round = 2 := by
      simp only [good, Bool.true_eq_false, false_or] at fault
      omega
    rw [if_pos two, if_pos ⟨good, two⟩]

theorem enters_of_entered (already : src ∈ s.toll.entered) : s.enters src = s :=
  if_pos (List.contains_iff_mem.2 already)

theorem enters_of_missing (missing : src ∉ s.toll.entered) :
    s.enters src =
      { s with toll := { s.toll with entered := insertNat src s.toll.entered, lastEntryMs := s.ms } } :=
  if_neg fun already => missing (List.contains_iff_mem.1 already)

/-- What holds of an entry holds of the command's answer but for the probes. -/
theorem tollgateEntry_noted {x : BitVec 20} {t : State} (value : s.tollEntry x.toNat round ok = t) :
    Answers (.tollgateEntry x round ok) s (Noted fun u => u = t) :=
  ⟨_, rfl, _, value, probesOnly_traced s _⟩

theorem tollgateEntry_logs {x : BitVec 20} (h : Enrolled s x.toNat) (fault : ok = false ∨ 2 ≤ s.entryDistance round) :
    Answers (.tollgateEntry x round ok) s fun t => ∃ r ∈ t.ev.atSource, r.cls = 0x07 ∧
      r.cause = (if ok = true ∧ s.entryDistance round = 2 then 0x01 else 0x02) ∧
      r.p0.toNat = round.toNat + 256 * s.entryDistance round := by
  refine answers_of_eq rfl rfl ?_
  rw [traced_ev, tollEntry_faulty h fault]
  obtain ⟨r, logged, cls, cause, p0⟩ := tollFault_logs s x.toNat
    (if ok = true ∧ s.entryDistance round = 2 then 0x01 else 0x02) round.isLt (Nat.mod_lt _ (by decide) : s.entryDistance round < _)
  refine ⟨r, logged, cls, cause.trans ?_, p0⟩
  split <;> rfl

/-! ### The opening of a round -/

/-- A counter of late re-centrings as the probes leave it. -/
theorem CountedLate.traced {t : State} {k : Nat} (known : k < 64) (h : CountedLate s t k) : CountedLate s (s.traced t) k := by
  have apart : Reg.LTN_ENG_RING k ≠ Reg.WAY_COUNTS := by
    unfold Reg.LTN_ENG_RING Reg.WAY_COUNTS
    omega
  exact h.stays ⟨traced_engineAt s t k, field_traced s t _ 24 8 apart⟩

theorem RoundOpened.traced {t : State} (h : RoundOpened s t) : RoundOpened s (s.traced t) :=
  ⟨by rw [traced_toll, h.opened], by rw [traced_toll, h.oldest], by rw [traced_toll, h.k], by rw [traced_ms]; exact h.ms⟩

end

/-- Settles O28: the opening of a round through `periodBegins` and what enters it; an entry by its distance. -/
theorem tollgateEntries : Obligations.TollgateEntries := by
  intro s src round ok n e in_
  have enrolled (h : in_) : Enrolled s src.toNat := ⟨h.1, h.2.1, h.2.2⟩
  refine ⟨fun started => ⟨_, rfl, ?opens⟩, fun h parity oldest duty => tollgateEntry_noted ?_,
    fun h parity oldest already => tollgateEntry_noted ?_, fun h parity oldest free missing => tollgateEntry_noted ?_,
    fun h parity next => tollgateEntry_noted (tollEntry_next (enrolled h) parity next),
    fun h fault => tollgateEntry_logs (enrolled h) fault⟩
  case opens =>
    obtain ⟨opened, oldest, k, ms⟩ := (roundOpened_roundOpen started).traced
    refine ⟨opened, oldest, k, ms, fun alone rise k known recentring => ?_, fun first p who serves => ?_⟩
    · obtain ⟨late, stands, counts⟩ := (countedLate_roundOpen started alone rise recentring).traced known
      exact ⟨late, stands, counts⟩
    · rw [traced_toll]
      exact mem_entered_roundOpen started first who serves
  · rw [tollEntry_oldest (enrolled h) parity oldest, if_pos duty]
  · rw [tollEntry_oldest (enrolled h) parity oldest, enters_of_entered already, ite_self]
  · rw [tollEntry_oldest (enrolled h) parity oldest, if_neg (by simp [free]), enters_of_missing missing]

end Sys2Proof.Machine
end

section
/-! The steps of a release (06 R201): what each leaves of the Tollgate. -/

namespace Sys2Proof.Machine

theorem RoundKept.ite {s t u : State} {c : Prop} [Decidable c] (a : RoundKept s t) (b : RoundKept s u) :
    RoundKept s (if c then t else u) := by
  split
  · exact a
  · exact b

theorem roundKept_of_same {s t : State} (regs : t.regs = s.regs) (toll : t.toll = s.toll) : RoundKept s t :=
  roundKept_of_toll toll (pairActive_of_regs regs)

/-! ### Marks and rotation (R205, R471) -/

theorem partOnly_setCluster (s : State) (g : Nat) (c : Cluster) : PartOnly s (s.setCluster g c) :=
  partOnly_of_same rfl rfl rfl rfl

theorem partOnly_checkMark (s : State) (g : Nat) : PartOnly s (s.checkMark g) := by
  unfold State.checkMark
  dsimp only
  split
  next => exact PartOnly.refl s
  next =>
    exact PartOnly.ite (partOnly_setCluster s g _) ((partOnly_setCluster s g _).trans
      (partOnly_foldl _ (fun s o => partOnly_clusterFault s g _) _ _))

theorem partOnly_checkMarks (s : State) : PartOnly s s.checkMarks := partOnly_foldl _ partOnly_checkMark _ s

theorem partOnly_moveLane (s : State) (g lane : Nat) : PartOnly s (s.moveLane g lane) := by
  unfold State.moveLane
  split
  · exact PartOnly.refl s
  · exact partOnly_modCluster s g _

theorem partOnly_fixDie (s : State) (d : Nat) : PartOnly s (s.fixDie d) :=
  partOnly_foldl _ (fun s g => partOnly_foldl _ (fun s l => partOnly_moveLane s g l) (s.strandedLanes g) s) _ s

theorem partOnly_takeCore (s : State) (g : Nat) : PartOnly s (s.takeCore g) := by
  unfold State.takeCore
  split
  next => exact PartOnly.refl s
  next k _ =>
    dsimp only
    split
    next l _ =>
      have moved : PartOnly s (if (s.spares g).isEmpty then s else s.moveLane g l) :=
        PartOnly.ite (PartOnly.refl s) (partOnly_moveLane s g l)
      exact PartOnly.ite moved (moved.trans (partOnly_modCluster _ g _))
    next => exact PartOnly.ite (PartOnly.refl s) (partOnly_modCluster s g _)

theorem partOnly_returnCore (s : State) (g : Nat) : PartOnly s (s.returnCore g) := by
  unfold State.returnCore
  exact partOnly_modCluster s g _

theorem partOnly_rotateCluster (s : State) (g : Nat) : PartOnly s (s.rotateCluster g) := by
  have takes (u : State) : PartOnly u (if (u.cluster g).whl.core = none then u.takeCore g else u) :=
    PartOnly.ite (partOnly_takeCore u g) (PartOnly.refl u)
  unfold State.rotateCluster
  extract_lets on returned taken n
  have back : PartOnly s returned := by
    unfold returned
    split
    · exact PartOnly.ite (partOnly_returnCore s g) (PartOnly.refl s)
    · exact PartOnly.refl s
  exact PartOnly.ite ((back.trans (takes returned)).trans (partOnly_modCluster taken g _)) back

theorem partOnly_rotateDie (s : State) (d : Nat) : PartOnly s (s.rotateDie d) := by
  have rotated : PartOnly s ((List.range 1024).foldl (fun s i => s.rotateCluster (1024 * d + i)) (s.fixDie d)) :=
    (partOnly_fixDie s d).trans (partOnly_foldl _ (fun s i => partOnly_rotateCluster s _) _ _)
  unfold State.rotateDie
  dsimp only
  refine PartOnly.ite (PartOnly.refl s) (PartOnly.ite rotated ?_)
  split
  next k _ => exact rotated.trans (partOnly_modJob _ k _)
  next => exact rotated

theorem partOnly_countRotations (s : State) : PartOnly s s.countRotations := by
  unfold State.countRotations
  refine PartOnly.ite (PartOnly.trans (partOnly_bump s (a := Reg.FUS_WHL_STATUS) 16 16 1 (by decide)) ?_) (PartOnly.refl s)
  exact partOnly_of_same rfl rfl rfl rfl

theorem partOnly_whlRelease (s : State) : PartOnly s s.whlRelease :=
  (partOnly_foldl _ partOnly_rotateDie (List.range 64) s).trans (partOnly_countRotations _)

/-! ### References (R391-R394) -/

theorem roundKept_setField {s : State} {a : Nat} (lo w v : Nat) (h : Reg.PST_PAIR_STATUS ≠ a) : RoundKept s (s.setField a lo w v) :=
  roundKept_of_toll rfl (pairActive_of_reg (reg_setField_other _ _ _ _ _ _ h))

theorem roundKept_setRef (s : State) (r v : Nat) : RoundKept s (s.setRef r v) := roundKept_setField _ _ _ (by decide)

theorem roundKept_startMove (s : State) (new : Nat) : RoundKept s (s.startMove new) := roundKept_of_same rfl rfl

theorem roundKept_clockOnly (s : State) (c : Clock) : RoundKept s { s with clock := c } := roundKept_of_same rfl rfl

/-- The carried outlier leaves the vote, and a reference that the root PLL needs is replaced (R391). -/
theorem roundKept_clockRelease (s : State) : RoundKept s s.clockRelease := by
  unfold State.clockRelease
  extract_lets sel voted _ gated returned _ settled _ moved close _
  have outlier : RoundKept s voted := by
    unfold voted
    split
    next => exact RoundKept.refl s
    next r _ =>
      have deselected := ((roundKept_setRef s r.toNat 1).trans
        (partOnly_bump _ (a := Reg.CLK_COUNTS) 0 8 1 (by decide)).toRoundKept).trans
        (partOnly_logEvent _ (s.clockEvent 0x01 r.toNat none)).toRoundKept
      exact RoundKept.ite (RoundKept.ite (deselected.trans (roundKept_startMove _ _)) deselected) (RoundKept.refl s)
  have back : RoundKept s settled :=
    ((outlier.trans (roundKept_clockOnly voted _)).trans
      (roundKept_foldl _ (fun s r => roundKept_setRef s _ 0) gated.clock.returning gated)).trans (roundKept_clockOnly returned _)
  have replaced : RoundKept s moved :=
    RoundKept.ite (RoundKept.ite back (back.trans (roundKept_startMove settled _))) back
  have shown (v : Nat) : RoundKept s (moved.setField Reg.CLK_STATUS 8 2 v) :=
    replaced.trans (roundKept_setField 8 2 v (by decide))
  have told := replaced.trans (partOnly_logEvent moved (moved.clockEvent 0x04 2 none)).toRoundKept
  refine RoundKept.ite (shown 1) (RoundKept.ite ?_ (shown 0))
  exact (RoundKept.ite replaced told).trans (roundKept_setField 8 2 3 (by decide))

/-! ### Re-centring, Manifest, mirror (R320, R350, R490) -/

theorem partOnly_recentred (s : State) (k : Nat) : PartOnly s (s.recentred k) :=
  PartOnly.ite (partOnly_setEngine s k _) (PartOnly.refl s)

theorem partOnly_startRecentre (s : State) : PartOnly s s.startRecentre :=
  partOnly_foldl _ (fun s k => PartOnly.ite (PartOnly.ite ((partOnly_setEngine s k _).trans (partOnly_recentred _ k))
    (partOnly_setEngine s k _)) (PartOnly.refl s)) _ s

theorem partOnly_manifestRelease (s : State) (n : Nat) : PartOnly s (s.manifestRelease n) := by
  have refused := (partOnly_setField s (a := Reg.MAN_STATUS) 0 3 4 (by decide))
  unfold State.manifestRelease
  dsimp only
  refine PartOnly.ite (PartOnly.ite ?_ (refused.trans (partOnly_logPlain ..))) (PartOnly.refl s)
  refine PartOnly.trans ((partOnly_setField s (a := Reg.MAN_STATUS) 0 3 2 (by decide)).trans
    (partOnly_setField _ (a := Reg.MAN_STATUS) 4 10 0 (by decide))) ?_
  exact partOnly_of_same rfl rfl rfl rfl

theorem partOnly_countReleases (s : State) : PartOnly s s.countReleases :=
  partOnly_foldl _ (fun s k => PartOnly.ite (partOnly_setStack s k _) (PartOnly.refl s)) _ s

theorem partOnly_replaceCeilings (s : State) : PartOnly s s.replaceCeilings := partOnly_of_same rfl rfl rfl rfl

theorem partOnly_pairRelease (s : State) : PartOnly s s.pairRelease := partOnly_of_same rfl rfl rfl rfl

theorem partOnly_mirrorPhase {s : State} {v : Nat} (paired : s.pairActive = true) (v0 : v ≠ 0) (v16 : v < 2 ^ 4) :
    PartOnly s (s.mirrorPhase v) := by
  have from_ : PartOnly s (if v = 7 then { s with pair := { s.pair with sigFrom := s.nextRound } } else s) := by
    split
    · exact partOnly_of_same rfl rfl rfl rfl
    · exact PartOnly.refl s
  exact (from_.trans (partOnly_setPairState (from_.active.trans paired) v0 v16)).trans (outward_sendPair ..).partOnly

theorem partOnly_mirrorRelease (s : State) : PartOnly s s.mirrorRelease := by
  have active (h : s.pairState ≠ 0) : s.pairActive = true := by simp [State.pairActive, h]
  have count {u : State} (h : PartOnly s u) (n : Nat) : PartOnly s (u.setReg Reg.PST_PAIR_DIRTY (BitVec.ofNat 32 n)) :=
    h.trans (partOnly_setReg u _ (by decide))
  unfold State.mirrorRelease
  refine PartOnly.ite (PartOnly.refl s) ?_
  split
  next => exact count (PartOnly.refl s) _
  next delta =>
    extract_lets gs all _ queued shown
    have sent : PartOnly s shown := count (u := queued) (partOnly_of_same rfl rfl rfl rfl) _
    have paired := active (by rw [delta]; decide)
    exact PartOnly.ite (sent.trans (partOnly_mirrorPhase (sent.active.trans paired) (by decide) (by decide))) sent
  next mirrored =>
    have paired := active (by rw [mirrored]; decide)
    exact PartOnly.ite ((partOnly_mirrorPhase paired (by decide) (by decide)).trans (partOnly_logEvent _ _)) (PartOnly.refl s)
  next => exact PartOnly.refl s

end Sys2Proof.Machine
end

section
/-! TOLLGATE_RELEASE and TOLLGATE_STALL (06 R201-R203): the oldest round releases. -/

namespace Sys2Proof.Machine

/-! ### What a release leaves -/

/-- The oldest round of a state has released at a Milestone value. -/
structure Released (s : State) (r : Nat) (t : State) : Prop where
  active : t.pairActive = s.pairActive
  oldest : t.toll.oldest = s.toll.oldest + 1
  opened : t.toll.opened = s.toll.opened
  lastRelease : t.toll.lastRelease = r
  entered : ∀ p, p ≠ pairUnit → (p ∈ t.toll.entered ↔ p ∈ s.toll.pending)
  alone : s.pairActive = false → t.toll.entered = s.toll.pending
  pending : t.toll.pending = []
  k : t.toll.k = s.toll.staged.getD s.toll.k
  staged : t.toll.staged = none

/-- Before the release the round may have been entered by the pair unit. -/
theorem Released.of_kept {s u t : State} {r : Nat} (kept : RoundKept s u) (h : Released u r t) : Released s r t where
  active := h.active.trans kept.active
  oldest := h.oldest.trans (by rw [kept.toll])
  opened := h.opened.trans (by rw [kept.toll])
  lastRelease := h.lastRelease
  entered p other := (h.entered p other).trans (by rw [kept.toll])
  alone none := (h.alone (kept.active.trans none)).trans (by rw [kept.toll])
  pending := h.pending
  k := h.k.trans (by rw [kept.toll])
  staged := h.staged

/-- After the release the next round may be entered by the pair unit. -/
theorem Released.keep {s t u : State} {r : Nat} (h : Released s r t) (kept : RoundKept t u) : Released s r u where
  active := kept.active.trans h.active
  oldest := by rw [kept.toll]; exact h.oldest
  opened := by rw [kept.toll]; exact h.opened
  lastRelease := by rw [kept.toll]; exact h.lastRelease
  entered p other := (kept.entered p other).trans (h.entered p other)
  alone none := by rw [kept.alone (h.active.trans none)]; exact h.alone none
  pending := by rw [kept.toll]; exact h.pending
  k := by rw [kept.toll]; exact h.k
  staged := by rw [kept.toll]; exact h.staged

theorem Released.admitReturning {s t : State} {r : Nat} (h : Released s r t) (at_ : Nat) : Released s r (t.admitReturning at_) :=
  ⟨h.active, h.oldest, h.opened, h.lastRelease, h.entered, h.alone, h.pending, h.k, h.staged⟩

theorem Released.traced {s t : State} {r : Nat} (h : Released s r t) (u : State) : Released s r (u.traced t) :=
  h.keep (roundKept_of_toll (traced_toll u t) (pairActive_of_reg (reg_traced u t _ (by decide))))

/-! ### The release (R201) -/

/-- Steps 1 to 5 of a release: all that stands before the period applies. -/
def State.beforePeriod (s : State) (r : Nat) : State :=
  let late (s : State) : State := if r > s.roundOpens (s.toll.oldest + 1) then s.bump Reg.CLK_TG_COUNTS 0 16 1 else s
  (late (s.advanceTo r)).checkMarks.whlRelease.clockRelease.startRecentre.manifestRelease s.toll.oldest

/-- The release of a round as it is shown, in CLK_TG_RELEASE too. -/
def State.showRelease (s : State) (r : Nat) : State :=
  { s.setReg64 Reg.CLK_TG_RELEASE_LO r with toll := { s.toll with lastRelease := r } }

theorem releaseAt_eq (s : State) (r : Nat) :
    s.releaseAt r =
      ((((((s.beforePeriod r).applyPeriod s.toll.oldest).promote s.toll.oldest r).showRelease
        r).countReleases.replaceCeilings.mirrorRelease.pairRelease).admitReturning r).roundDuties := by
  simp only [State.releaseAt, State.beforePeriod, State.showRelease, State.advanceTo_toll]

theorem roundKept_advanceTo (s : State) (t : Nat) : RoundKept s (s.advanceTo t) :=
  roundKept_of_same (State.advanceTo_regs ..) (State.advanceTo_toll ..)

theorem roundKept_beforePeriod (s : State) (r : Nat) : RoundKept s (s.beforePeriod r) := by
  have late (u : State) : PartOnly u (if r > u.roundOpens (u.toll.oldest + 1) then u.bump Reg.CLK_TG_COUNTS 0 16 1 else u) :=
    PartOnly.ite (partOnly_bump u 0 16 1 (by decide)) (PartOnly.refl u)
  have turned := ((late (s.advanceTo r)).trans (partOnly_checkMarks _)).trans (partOnly_whlRelease _)
  have clocked := ((roundKept_advanceTo s r).trans turned.toRoundKept).trans (roundKept_clockRelease _)
  exact (clocked.trans (partOnly_startRecentre _).toRoundKept).trans (partOnly_manifestRelease _ s.toll.oldest).toRoundKept

/-- A staged period applies (R206). -/
theorem applyPeriod_toll (s : State) (n : Nat) :
    (s.applyPeriod n).toll.k = s.toll.staged.getD s.toll.k ∧ (s.applyPeriod n).toll.staged = none ∧
      (s.applyPeriod n).toll.opened = s.toll.opened ∧ (s.applyPeriod n).toll.pending = s.toll.pending := by
  unfold State.applyPeriod
  split
  next none => exact ⟨by rw [none]; rfl, none, rfl, rfl⟩
  next k some => exact ⟨by rw [some]; rfl, rfl, rfl, rfl⟩

theorem pairActive_applyPeriod (s : State) (n : Nat) : (s.applyPeriod n).pairActive = s.pairActive := by
  unfold State.applyPeriod
  split
  · rfl
  · exact pairActive_of_reg (reg_setField_other s Reg.CLK_TG_STATUS Reg.PST_PAIR_STATUS 9 1 0 (by decide))

theorem pairActive_showRelease (s : State) (r : Nat) : (s.showRelease r).pairActive = s.pairActive :=
  pairActive_of_reg ((reg_setReg_other (s.setReg Reg.CLK_TG_RELEASE_LO _) _ _ _ (by decide)).trans
    (reg_setReg_other s _ _ _ (by decide)))

/-- Steps 6 and 7 of a release: the period applies, and the entries that waited are those of the round now oldest. -/
theorem released_promote (s : State) (r : Nat) :
    Released s r (((s.applyPeriod s.toll.oldest).promote s.toll.oldest r).showRelease r) := by
  obtain ⟨k, staged, opened, pending⟩ := applyPeriod_toll s s.toll.oldest
  have active : ((s.applyPeriod s.toll.oldest).promote s.toll.oldest r).pairActive = s.pairActive :=
    (pairActive_of_regs rfl).trans (pairActive_applyPeriod s _)
  exact ⟨(pairActive_showRelease _ r).trans active, rfl, opened, rfl, fun p _ => by rw [← pending]; rfl, fun _ => pending, rfl, k,
    staged⟩

theorem released_releaseAt (s : State) (r : Nat) : Released s r (s.releaseAt r) := by
  have before := roundKept_beforePeriod s r
  have same : (s.beforePeriod r).toll.oldest = s.toll.oldest := by rw [before.toll]
  have promoted := released_promote (s.beforePeriod r) r
  rw [same] at promoted
  rw [releaseAt_eq]
  have counted := (promoted.of_kept before).keep
    ((((partOnly_countReleases _).trans (partOnly_replaceCeilings _)).trans (partOnly_mirrorRelease _)).trans
      (partOnly_pairRelease _)).toRoundKept
  exact (counted.admitReturning r).keep (partOnly_roundDuties _).toRoundKept

/-! ### The stall (R203) -/

theorem missing_advanceTo (s : State) (t : Nat) : (s.advanceTo t).missing = s.missing := by
  simp only [State.missing, State.roster, State.waitedFor, State.serves, State.advanceTo_toll, State.advanceTo_outOf,
    pairActive_advanceTo]

theorem crystalsLost_advanceTo (s : State) (t : Nat) : (s.advanceTo t).crystalsLost = s.crystalsLost := by
  simp only [State.crystalsLost, State.refStatus, State.advanceTo_fieldAt]

/-- A missing participant leaves; the pair unit only where a crystal stands (R393). -/
theorem partOnly_stallOut {s : State} {src : Nat} (spared : src ≠ pairUnit ∨ s.crystalsLost = false) :
    PartOnly s (s.stallOut src) := by
  have told := partOnly_logEvent s (s.tollEvent (speaker src) 0x03 s.toll.oldest 0)
  unfold State.stallOut
  dsimp only
  split
  next unit =>
    have crystal := spared.resolve_left (not_not_intro unit)
    exact told.trans (partOnly_loseLink ((crystalsLost_of_partOnly told).trans crystal))
  next => exact PartOnly.ite (partOnly_dieOut s _ _) (told.trans (partOnly_participantOut _ src))

theorem partOnly_foldl_stallOut {l : List Nat} {s : State} (spared : pairUnit ∉ l ∨ s.crystalsLost = false) :
    PartOnly s (l.foldl State.stallOut s) := by
  induction l generalizing s with
  | nil => exact PartOnly.refl s
  | cons src l ih =>
    have first : PartOnly s (s.stallOut src) :=
      partOnly_stallOut (spared.imp_left fun apart e => apart (e ▸ List.mem_cons_self ..))
    refine first.trans (ih (spared.imp (fun apart mem => apart (List.mem_cons_of_mem _ mem)) fun crystal => ?_))
    exact (crystalsLost_of_partOnly first).trans crystal

/-- A stall: the missing leave at the deadline, and the round releases at once. -/
theorem released_tollStall {s : State} (started : s.toll.started = true) (opened : s.toll.oldest < s.toll.opened)
    (missing : s.missing ≠ []) (spared : pairUnit ∉ s.missing ∨ s.crystalsLost = false) :
    Released s (max s.ms s.stallTime) s.tollStall := by
  have stalls : ¬((!s.toll.started) = true ∨ s.allEntered = true ∨ s.toll.opened ≤ s.toll.oldest) := by
    simp [started, State.allEntered, missing, Nat.not_le.2 opened]
  rw [State.tollStall, if_neg stalls]
  extract_lets due gone counted low shown left
  have advanced : RoundKept s due := roundKept_advanceTo s s.stallTime
  have noted : PartOnly due shown :=
    PartOnly.ite (partOnly_bump due _ _ _ (by decide)) ((partOnly_bump due _ _ _ (by decide)).trans (partOnly_setReg _ _ (by decide)))
  have leave : PartOnly shown left := by
    refine partOnly_foldl_stallOut (spared.imp (fun apart => ?_) fun crystal => ?_)
    · rwa [show gone = s.missing from missing_advanceTo s s.stallTime]
    · exact (crystalsLost_of_partOnly noted).trans ((crystalsLost_advanceTo s s.stallTime).trans crystal)
  have time : left.ms = max s.ms s.stallTime := (noted.trans leave).ms.trans (advanceTo_ms s s.stallTime)
  rw [← time]
  exact (released_releaseAt left left.ms).of_kept (advanced.trans (noted.trans leave).toRoundKept)

/-- Settles O29: a release is `releaseAt` at its time, a stall the same after the missing have left. -/
theorem tollgateReleases : Obligations.TollgateReleases := by
  intro s started opened released
  have answers {r : Nat} {t : State} (h : Released s r t) : released r (s.traced t) := by
    obtain ⟨_, oldest, opened, last, entered, alone, pending, k, staged⟩ := h.traced s
    exact ⟨oldest, opened, last, entered, alone, pending, k, staged⟩
  refine ⟨fun all => answers_of_eq rfl rfl (answers ?_),
    fun missing spared => answers_of_eq rfl rfl (answers (released_tollStall started opened missing spared))⟩
  rw [State.tollRelease, if_pos (by simp [started, all, opened])]
  exact released_releaseAt s _

end Sys2Proof.Machine
end

section
/-! The pattern of a stream (07 R222): where its entries lie, and in which order they go. -/

namespace Sys2Proof.Machine

/-- Entry k of row r of a pass, counted from the stream's first entry, lies in that row at that place. -/
theorem StreamDesc.offset_entry (d : StreamDesc) {k r : Nat} (pass : Nat) (hk : k < d.rowLen) (hr : r < d.rows) :
    d.offset (k + d.rowLen * (r + d.rows * pass)) = ((d.start : Int) + r * d.stride + k * d.size).toNat := by
  have column : (k + d.rowLen * (r + d.rows * pass)) % d.rowLen = k := by
    rw [Nat.add_mul_mod_self_left, Nat.mod_eq_of_lt hk]
  have row : (k + d.rowLen * (r + d.rows * pass)) / d.rowLen % d.rows = r := by
    rw [Nat.add_mul_div_left _ _ (Nat.zero_lt_of_lt hk), Nat.div_eq_of_lt hk, Nat.zero_add, Nat.add_mul_mod_self_left,
      Nat.mod_eq_of_lt hr]
  rw [StreamDesc.offset, column, row]

/-- Settles O36: the entry's number modulo the row's length is its place, the quotient modulo the rows its row. -/
theorem patternOrder : Obligations.PatternOrder :=
  fun d _ _ pass hk hr => d.offset_entry pass hk hr

end Sys2Proof.Machine
end

section
/-! Stacks and their lines (07 R238-R240): what a stack reads after a write of one, and what a read of a line leaves. -/

namespace Sys2Proof.Machine

theorem logEvent_rest (s : State) (r : EventRec) :
    s.logEvent r = { s with ev := (s.logEvent r).ev, pair := (s.logEvent r).pair } := by
  unfold State.logEvent
  dsimp only
  split <;> rfl

theorem dstacks_logEvent (s : State) (r : EventRec) : (s.logEvent r).dstacks = s.dstacks :=
  (congrArg State.dstacks (logEvent_rest s r)).trans rfl

theorem regsOnly_ueFirst (s : State) (a k : Nat) : RegsOnly s (s.ueFirst a k) := by
  unfold State.ueFirst
  split
  · exact regsOnly_refl s
  · exact regsOnly_trans (regsOnly_setReg s _ _) (regsOnly_setReg _ _ _)

/-- A line written is the line read. -/
theorem readLe_writeLe_line (m : Mem) (a : Nat) (d : BitVec 512) : readLe (writeLe m a 64 d.toNat) a 64 = d.toNat := by
  have bytes (n : Nat) : 256 ^ n = 2 ^ (8 * n) := (pow_mul 2 8 n).symm
  have bits : 8 * 64 = 512 := rfl
  rw [readLe_writeLe, bytes, bits, Nat.mod_eq_of_lt d.isLt]

/-! ### The state of a stack and its registers -/

theorem chsLink_ne_chsStack (k j : Nat) (known : j < 32) : Reg.CHS_LINK k ≠ Reg.CHS_STACK j := by
  unfold Reg.CHS_LINK Reg.CHS_STACK
  omega

theorem stackState_setField (s : State) (k : Nat) {v : Nat} (small : v < 2 ^ 3) :
    (s.setField (Reg.CHS_STACK k) 0 3 v).stackState k = v :=
  (field_setField_same s _ 0 3 v (by decide)).trans (Nat.mod_eq_of_lt small)

/-- The stacks are those of another state whose part for them is the same. -/
theorem stack_of_dstacks {s t : State} (same : t.dstacks = s.dstacks) (k : Nat) : t.stack k = s.stack k := by
  rw [State.stack, same]
  rfl

theorem sets_setStack {s t : State} (same : t.dstacks = s.dstacks) (k : Nat) (x : Stack) :
    Sets s.stack (t.setStack k x).stack k x := by
  refine ⟨stack_setStack_same t k x, fun j other => ?_⟩
  rw [stack_setStack_other t k j x other, stack_of_dstacks same]

theorem sets_of_dstacks {s t u : State} {k : Nat} {x : Stack} (h : Sets s.stack t.stack k x) (same : u.dstacks = t.dstacks) :
    Sets s.stack u.stack k x :=
  ⟨(stack_of_dstacks same k).trans h.1, fun j other => (stack_of_dstacks same j).trans (h.2 j other)⟩

/-- Registers written, then a stack. -/
theorem setStack_rest {s t : State} (h : RegsOnly s t) (k : Nat) (x : Stack) :
    t.setStack k x = { s with regs := (t.setStack k x).regs, dstacks := (t.setStack k x).dstacks } := by
  unfold State.setStack
  rw [h.rest]

/-- Registers and stacks written, and then what is logged. -/
theorem rest_with_events {s t : State} (h : t = { s with regs := t.regs, dstacks := t.dstacks }) (ev : Events)
    (pair : Pair) :
    { t with ev := ev, pair := pair } = { s with regs := t.regs, dstacks := t.dstacks, ev := ev, pair := pair } := by
  rw [h]

/-! ### Reads -/

/-- A line without errors reads as it stands. -/
theorem stackRead_clean {s : State} {k loc : Nat} (tag : BitVec 16) (clean : AMap.get 0 s.symErr (lineKey k loc) = 0) :
    s.stackRead k loc tag =
      (BitVec.ofNat 512 (readLe s.chsMem (64 * lineKey k loc) 64), AMap.get false s.poisoned (lineKey k loc), false, s) :=
  if_pos clean

/-- A line with the word that the decoder made of it, written back and counted (R238, R239). -/
def State.lineCorrected (s : State) (k loc : Nat) (w : BitVec 576) : State :=
  State.bump { s with
    chsMem := writeLe s.chsMem (64 * lineKey k loc) 64 (w.extractLsb' 0 512).toNat
    poisoned := AMap.set false s.poisoned (lineKey k loc) (w.getLsbD 512)
    symErr := AMap.set 0 s.symErr (lineKey k loc) 0 } (Reg.CHS_CE k) 0 32 1

/-- The first correction in a stack since the last look at its count is logged (R239). -/
def State.logCorrected (s : State) (k loc : Nat) (tag : BitVec 16) : State :=
  if (s.stack k).ceLogged then s
  else (s.setStack k { s.stack k with ceLogged := true }).logEvent
    { s.eventOf (srcStack k) 0x0A 0x02 with
      p0 := BitVec.ofNat 32 k, p1 := BitVec.ofNat 64 (s.chsAddress k loc), jobTag := tag }

theorem stackRead_corrects {s : State} {k loc : Nat} {w : BitVec 576} (tag : BitVec 16)
    (err : AMap.get 0 s.symErr (lineKey k loc) ≠ 0)
    (decoded : rsDecode (codeword (BitVec.ofNat 512 (readLe s.chsMem (64 * lineKey k loc) 64))
      (AMap.get false s.poisoned (lineKey k loc)) ^^^ AMap.get 0 s.symErr (lineKey k loc)) = some (w, true)) :
    (s.stackRead k loc tag).2.2.2 = (s.lineCorrected k loc w).logCorrected k loc tag := by
  simp only [State.stackRead, if_neg err, decoded, Bool.not_true, Bool.false_eq_true, if_false, if_true]
  split
  next logged => exact (if_pos logged).symm
  next fresh => exact (if_neg fresh).symm

theorem logCorrected_rest (s : State) (k loc : Nat) (tag : BitVec 16) :
    ∃ links ev pair, s.logCorrected k loc tag = { s with dstacks := links, ev := ev, pair := pair } := by
  unfold State.logCorrected
  split
  · exact ⟨_, _, _, rfl⟩
  · exact ⟨_, _, _, logEvent_rest _ _⟩

/-- What a read of a line may leave changed. -/
structure LineRead (s t : State) (k : Nat) : Prop where
  rest : t = { s with
    freeCtr := t.freeCtr, regs := t.regs, chsMem := t.chsMem, poisoned := t.poisoned, symErr := t.symErr
    dstacks := t.dstacks, ev := t.ev, pair := t.pair }
  stack : ∃ logged, Sets s.stack t.stack k { s.stack k with ceLogged := logged }

theorem lineRead_of_dstacks {s t : State} {k : Nat}
    (rest : t = { s with
      freeCtr := t.freeCtr, regs := t.regs, chsMem := t.chsMem, poisoned := t.poisoned, symErr := t.symErr
      dstacks := t.dstacks, ev := t.ev, pair := t.pair })
    (same : t.dstacks = s.dstacks) : LineRead s t k := by
  refine ⟨rest, (s.stack k).ceLogged, ?_, fun j _ => ?_⟩ <;> rw [State.stack, same] <;> rfl

theorem lineRead_logCorrected (s : State) (k loc : Nat) (tag : BitVec 16) : LineRead s (s.logCorrected k loc tag) k := by
  refine ⟨by obtain ⟨_, _, _, rest⟩ := logCorrected_rest s k loc tag; rw [rest], ?_⟩
  unfold State.logCorrected
  split
  · exact ⟨_, rfl, fun _ _ => rfl⟩
  · refine ⟨true, ?_, fun j other => ?_⟩ <;> rw [State.stack, dstacks_logEvent]
    · exact stack_setStack_same s k _
    · exact stack_setStack_other s k j _ other

theorem lineRead_stackRead (s : State) (k loc : Nat) (tag : BitVec 16) : LineRead s (s.stackRead k loc tag).2.2.2 k := by
  by_cases err : AMap.get 0 s.symErr (lineKey k loc) = 0
  · rw [stackRead_clean tag err]
    exact lineRead_of_dstacks rfl rfl
  match decoded : rsDecode (codeword (BitVec.ofNat 512 (readLe s.chsMem (64 * lineKey k loc) 64))
      (AMap.get false s.poisoned (lineKey k loc)) ^^^ AMap.get 0 s.symErr (lineKey k loc)) with
  | some (w, fixed) =>
    cases fixed with
    | true =>
      rw [stackRead_corrects tag err decoded]
      obtain ⟨rest, stack⟩ := lineRead_logCorrected (s.lineCorrected k loc w) k loc tag
      exact ⟨rest.trans rfl, stack⟩
    | false =>
      simp only [State.stackRead, if_neg err, decoded, Bool.not_false, Bool.false_eq_true, if_false, if_true]
      exact lineRead_of_dstacks rfl rfl
  | none =>
    simp only [State.stackRead, if_neg err, decoded]
    split
    · exact lineRead_of_dstacks rfl rfl
    · refine lineRead_of_dstacks ?_ ?_
      · rw [logEvent_rest, (regsOnly_ueFirst _ _ _).rest]
        rfl
      · rw [dstacks_logEvent, (regsOnly_ueFirst _ _ _).rest]
        rfl

end Sys2Proof.Machine
end

section
/-! The upkeep of a stack (07 R236, R237, R239-R241, R246): re-centring, retraining, loss, patrol scrub. -/

namespace Sys2Proof.Machine

/-! ### Re-centring and retraining (R236, R237) -/

/-- A stack whose link re-centres at a temperature. -/
def Stack.recentring (x : Stack) (temp : Nat) : Stack :=
  { x with link := .phyretrain, afterReplay := false, releases := 0, centreTemp := temp }

theorem linkRecentre_due {s : State} {k temp : Nat} (up : s.stackState k = 2)
    (due : 1024 ≤ (s.stack k).releases ∨ (s.stack k).centreTemp + 5 < temp ∨ temp + 5 < (s.stack k).centreTemp) :
    s.linkRecentre k temp = (s.setField (Reg.CHS_STACK k) 0 3 3).setStack k ((s.stack k).recentring temp) :=
  if_pos ⟨up, by simpa using due⟩

theorem linkRecentre_answers {s : State} {stack : BitVec 5} {temp : Nat} (up : s.stackState stack.toNat = 2)
    (due : 1024 ≤ (s.stack stack.toNat).releases ∨ (s.stack stack.toNat).centreTemp + 5 < temp ∨
      temp + 5 < (s.stack stack.toNat).centreTemp) :
    Answers (.linkRecentre stack temp) s fun t =>
      t.stackState stack.toNat = 3 ∧ (∀ a, a ≠ Reg.CHS_STACK stack.toNat → t.reg a = s.reg a) ∧
      t = { s with regs := t.regs, dstacks := t.dstacks } ∧
      Sets s.stack t.stack stack.toNat ((s.stack stack.toNat).recentring temp) := by
  refine answers_of_eq rfl (linkRecentre_due up due)
    ⟨(State.setStack_fieldAt ..).trans (stackState_setField s _ (by decide)),
      fun a other => (State.setStack_reg ..).trans (reg_setField_other s _ a 0 3 3 other),
      setStack_rest (regsOnly_setField s _ 0 3 3) _ _, ?_⟩
  exact sets_setStack (State.setField_dstacks s _ 0 3 3) stack.toNat _

/-- A direction that sends what is unacknowledged again, as if for the first time (R236). -/
def LinkDir.resent (d : LinkDir) : LinkDir :=
  { d with wire := d.unacked.map (·.1), unacked := d.unacked.map fun p => (p.1, 1) }

/-- A stack whose link has come back from a retraining. -/
def Stack.retrained (x : Stack) : Stack :=
  { x with link := .active, afterReplay := false, toStack := x.toStack.resent, toCtl := x.toCtl.resent }

/-- The state after that: the stack is active, and the retraining is counted. -/
def State.retrained (s : State) (k : Nat) : State :=
  ((s.setField (Reg.CHS_STACK k) 0 3 2).bump (Reg.CHS_LINK k) 16 8 1).setStack k (s.stack k).retrained

theorem phyretrainComplete_ok {s : State} {k : Nat} (retraining : s.stackState k = 3) :
    s.phyretrainComplete k true =
      if (s.stack k).afterReplay then (s.retrained k).logPlain (srcStack k) 0x0A 0x04 k 0 0 else s.retrained k :=
  if_pos retraining

theorem logPlain_if_rest (s : State) (b : Bool) (src cls cause p0 p1 p2 : Nat) :
    ∃ ev pair, (if b then s.logPlain src cls cause p0 p1 p2 else s) = { s with ev := ev, pair := pair } := by
  split
  · exact ⟨_, _, logEvent_rest s _⟩
  · exact ⟨s.ev, s.pair, rfl⟩

/-- A retraining that ends well leaves the same whether or not it is logged. -/
theorem phyretrainComplete_ok_rest {s : State} {k : Nat} (retraining : s.stackState k = 3) :
    ∃ ev pair, s.phyretrainComplete k true = { s.retrained k with ev := ev, pair := pair } := by
  rw [phyretrainComplete_ok retraining]
  exact logPlain_if_rest ..

theorem regs_retrained (s : State) {k : Nat} (known : k < 32) :
    (s.retrained k).stackState k = 2 ∧
      (s.retrained k).field (Reg.CHS_LINK k) 16 8 = min (s.field (Reg.CHS_LINK k) 16 8 + 1) 255 ∧
      ∀ a, a ≠ Reg.CHS_STACK k → a ≠ Reg.CHS_LINK k → (s.retrained k).reg a = s.reg a := by
  have apart := chsLink_ne_chsStack k k known
  refine ⟨?_, ?_, fun a other unlinked => ?_⟩
  · rw [State.stackState, State.retrained, State.setStack_fieldAt, field_bump_other _ _ _ _ _ _ _ _ apart.symm]
    exact stackState_setField s k (by decide)
  · rw [State.retrained, State.setStack_fieldAt, field_bump_same _ _ 16 8 1 (by decide),
      field_setField_other s _ _ 0 3 2 16 8 apart]
    rfl
  · rw [State.retrained, State.setStack_reg, reg_bump_other _ _ a _ _ _ unlinked, reg_setField_other s _ a 0 3 2 other]

theorem sets_retrained (s : State) (k : Nat) :
    Sets s.stack (s.retrained k).stack k (s.stack k).retrained :=
  sets_setStack ((State.bump_dstacks ..).trans (State.setField_dstacks ..)) k _

theorem retrained_rest (s : State) (k : Nat) :
    s.retrained k = { s with regs := (s.retrained k).regs, dstacks := (s.retrained k).dstacks } :=
  setStack_rest (regsOnly_trans (regsOnly_setField s _ 0 3 2) (regsOnly_bump ..)) k _

theorem phyretrainComplete_answers {s : State} {stack : BitVec 5} (retraining : s.stackState stack.toNat = 3) :
    Answers (.phyretrainComplete stack true) s fun t =>
      t.stackState stack.toNat = 2 ∧
      t.field (Reg.CHS_LINK stack.toNat) 16 8 = min (s.field (Reg.CHS_LINK stack.toNat) 16 8 + 1) 255 ∧
      (∀ a, a ≠ Reg.CHS_STACK stack.toNat → a ≠ Reg.CHS_LINK stack.toNat → t.reg a = s.reg a) ∧
      t = { s with regs := t.regs, dstacks := t.dstacks, ev := t.ev, pair := t.pair } ∧
      Sets s.stack t.stack stack.toNat (s.stack stack.toNat).retrained := by
  obtain ⟨ev, pair, eq⟩ := phyretrainComplete_ok_rest retraining
  obtain ⟨active, counted, others⟩ := regs_retrained s stack.isLt
  refine answers_of_eq rfl eq ⟨(field_of_regs ?_ _ 0 3).trans active, (field_of_regs ?_ _ 16 8).trans counted,
    fun a other unlinked => (reg_of_regs ?_ a).trans (others a other unlinked),
    rest_with_events (retrained_rest s stack.toNat) ev pair, sets_of_dstacks (sets_retrained s stack.toNat) ?_⟩ <;> rfl

/-! ### The loss of a stack (R241, R246) -/

theorem distChanged_rest (s : State) : RegsOnly s s.distChanged :=
  List.foldlRecOn (motive := RegsOnly s) (List.range 64) _ (regsOnly_refl s) fun _ same _ _ =>
    regsOnly_trans same (regsOnly_bump ..)

theorem reg_distChanged (s : State) {a : Nat} (apart : ∀ d, a ≠ Reg.FAB_DIST_GEN d) : s.distChanged.reg a = s.reg a :=
  List.foldlRecOn (motive := fun t : State => t.reg a = s.reg a) (List.range 64) _ rfl fun t same d _ =>
    (reg_bump_other t _ a 0 32 1 (apart d)).trans same

theorem reg_leave (s : State) (src a : Nat) : (s.leave src).reg a = s.reg a := rfl

/-- A stack whose link has failed. -/
def Stack.failed (x : Stack) : Stack :=
  { x with link := .trainerror, toStack := {}, toCtl := {}, answers := [], txns := [] }

/-- The state after that: the stack's register holds state 4 and the cause. -/
def State.linkFailed (s : State) (k cause : Nat) : State :=
  ((s.setField (Reg.CHS_STACK k) 0 3 4).setField (Reg.CHS_STACK k) 4 8 cause).setStack k (s.stack k).failed

/-- A stack that has left service, before anything is logged of it or faults with it. -/
def State.stackOut (s : State) (k cause : Nat) : State :=
  ((s.linkFailed k cause).countStacks.leave (srcStack k)).distChanged

/-- The loss of a stack as it stands in the events. -/
def State.logStackLost (s : State) (k : Nat) (evidence : Bool) : State :=
  s.logEvent (s.asEvidence evidence { s.eventOf (srcStack k) 0x0A 0x03 with p0 := BitVec.ofNat 32 k })

/-- The same, and the module has failed with it where a paired job uses the stack (R346). -/
def State.stackLost (s : State) (k cause : Nat) : State :=
  if s.stackPaired k then ((s.stackOut k cause).logStackLost k (s.stackPaired k)).pairDeclareFailed 2
  else (s.stackOut k cause).logStackLost k (s.stackPaired k)

theorem loseStack_eq {s : State} {k : Nat} (cause : Nat) (standing : s.stackState k ≠ 4) :
    s.loseStack k cause = (s.stack k).txns.foldl (fun s t => s.loseTxn t.2) (s.stackLost k cause) :=
  if_neg standing

theorem FaultOnly.ite {s t u : State} {c : Prop} [Decidable c] (a : FaultOnly s t) (b : FaultOnly s u) :
    FaultOnly s (if c then t else u) := by
  split
  · exact a
  · exact b

theorem faultOnly_poisonEntries (s : State) (n : Nat) : FaultOnly s (s.poisonEntries n).2 :=
  List.foldlRecOn (motive := fun r : List Entry × State => FaultOnly s r.2) (List.range n) _ (FaultOnly.refl s)
    fun _ same _ _ => same.trans (faultOnly_fresh _)

theorem faultOnly_deliverEgress (s : State) (key : Nat) (job : BitVec 16) (first : Nat) (es : List Entry) :
    FaultOnly s (s.deliverEgress key job first es) :=
  FaultOnly.ite ((faultOnly_setStrip s key _).trans (outward_gateRead _ key).faultOnly) (FaultOnly.refl s)

theorem faultOnly_loseTxn (s : State) (t : Txn) : FaultOnly s (s.loseTxn t) := by
  have written (key : Nat) (job : BitVec 16) (first : Nat) :
      FaultOnly s (if s.slotOf key job then s.streamFault key 0x05 ((s.strip key).desc.offset first) else s) :=
    FaultOnly.ite (faultOnly_slotFault s _ _) (FaultOnly.refl s)
  cases t with
  | egress job key first count _ => exact (faultOnly_poisonEntries s count).trans (faultOnly_deliverEgress _ key job first _)
  | ingress job key first _ => exact written key job first
  | partialLine job key first _ => exact written key job first
  | none => exact FaultOnly.refl s

theorem faultOnly_stackLost (s : State) (k cause : Nat) : FaultOnly (s.stackOut k cause) (s.stackLost k cause) := by
  have logged (evidence : Bool) : FaultOnly (s.stackOut k cause) ((s.stackOut k cause).logStackLost k evidence) :=
    faultOnly_logEvent _ _
  exact FaultOnly.ite ((logged _).trans (faultOnly_pairDeclareFailed _ 2)) (logged _)

/-- What is logged of a lost stack, and what faults with it, leaves the stack out of service. -/
theorem faultOnly_loseStack {s : State} {k : Nat} (cause : Nat) (standing : s.stackState k ≠ 4) :
    FaultOnly (s.stackOut k cause) (s.loseStack k cause) := by
  rw [loseStack_eq cause standing]
  exact (faultOnly_stackLost s k cause).trans (faultOnly_foldl _ (fun s (t : Nat × Txn) => faultOnly_loseTxn s t.2) _ _)

/-- A lost stack is logged of its class and cause, and the event carries the stack (R453). -/
theorem mem_atSource_logStackLost (s : State) {k : Nat} (evidence : Bool) (known : k < 32) :
    ∃ e ∈ (s.logStackLost k evidence).ev.atSource, e.cls = 0x0A ∧ e.cause = 0x03 ∧ e.p0.toNat = k := by
  obtain ⟨flags, logged⟩ := logEvent_atSource s
    (s.asEvidence evidence { s.eventOf (srcStack k) 0x0A 0x03 with p0 := BitVec.ofNat 32 k })
  have number : (BitVec.ofNat 32 k).toNat = k := toNat_ofNat_of_lt (by omega)
  refine ⟨_, by rw [State.logStackLost, logged]; exact List.mem_append_right _ (List.mem_singleton_self _), ?_⟩
  unfold State.asEvidence
  split <;> exact ⟨rfl, rfl, number⟩

theorem mem_atSource_loseStack {s : State} {k : Nat} (cause : Nat) (standing : s.stackState k ≠ 4) (known : k < 32) :
    ∃ e ∈ (s.loseStack k cause).ev.atSource, e.cls = 0x0A ∧ e.cause = 0x03 ∧ e.p0.toNat = k := by
  obtain ⟨e, logged, what⟩ := mem_atSource_logStackLost (s.stackOut k cause) (s.stackPaired k) known
  have lost : PartOnly ((s.stackOut k cause).logStackLost k (s.stackPaired k)) (s.stackLost k cause) :=
    PartOnly.ite (partOnly_pairDeclareFailed _ 2) (PartOnly.refl _)
  have after := lost.trans (partOnly_foldl _ (fun s (t : Nat × Txn) => partOnly_loseTxn s t.2) (s.stack k).txns _)
  rw [loseStack_eq cause standing]
  exact ⟨e, after.events.subset logged, what⟩

/-- The register of a lost stack holds state 4 and the cause. -/
theorem field_stackOut (s : State) {k : Nat} (cause lo w : Nat) (known : k < 32) :
    (s.stackOut k cause).field (Reg.CHS_STACK k) lo w = (s.linkFailed k cause).field (Reg.CHS_STACK k) lo w := by
  have fabric (d : Nat) : Reg.CHS_STACK k ≠ Reg.FAB_DIST_GEN d := by
    unfold Reg.CHS_STACK Reg.FAB_DIST_GEN
    omega
  have count : Reg.CHS_STACK k ≠ Reg.CHS_STATUS := by
    unfold Reg.CHS_STACK Reg.CHS_STATUS
    omega
  refine field_of_reg ((reg_distChanged _ fabric).trans ((reg_leave _ _ _).trans ?_)) lo w
  rw [State.countStacks, reg_setField_other _ _ _ _ _ _ count]

theorem fields_linkFailed (s : State) {k cause : Nat} (byte : cause < 2 ^ 8) :
    (s.linkFailed k cause).field (Reg.CHS_STACK k) 0 3 = 4 ∧
      (s.linkFailed k cause).field (Reg.CHS_STACK k) 4 8 = cause := by
  rw [State.linkFailed, State.setStack_fieldAt, State.setStack_fieldAt,
    field_setField_apart _ _ 4 8 cause 0 3 (by decide) (by decide), field_setField_same _ _ 0 3 4 (by decide),
    field_setField_same _ _ 4 8 cause (by decide)]
  exact ⟨rfl, Nat.mod_eq_of_lt byte⟩

theorem mem_outOf_stackOut (s : State) (k cause : Nat) : srcStack k ∈ (s.stackOut k cause).outOf := by
  rw [State.stackOut, (distChanged_rest _).rest]
  exact mem_insertNat.2 (.inl rfl)

theorem link_stackOut (s : State) (k cause : Nat) : ((s.stackOut k cause).stack k).link = .trainerror := by
  have same : (s.stackOut k cause).dstacks = (s.linkFailed k cause).dstacks := by
    rw [State.stackOut, (distChanged_rest _).rest]
    rfl
  rw [stack_of_dstacks same, State.linkFailed, stack_setStack_same]
  rfl

/-- The register of a stack is none of those that faults write. -/
theorem chsStack_not_mem_faultRegs {k : Nat} (known : k < 32) : Reg.CHS_STACK k ∉ faultRegs := by
  simp only [faultRegs, Reg.CHS_STACK, Reg.EVT_POISON, Reg.PST_PAIR_STATUS, Reg.PST_PAIR_COUNTS, List.mem_cons,
    List.not_mem_nil, or_false]
  omega

theorem phyretrainFails_answers {s : State} {stack : BitVec 5} (retraining : s.stackState stack.toNat = 3) :
    Answers (.phyretrainComplete stack false) s fun t =>
      t.stackState stack.toNat = 4 ∧ t.field (Reg.CHS_STACK stack.toNat) 4 8 = 0x08 ∧
      srcStack stack.toNat ∈ t.outOf ∧
      (t.stack stack.toNat).link = .trainerror ∧
      ∃ e ∈ t.ev.atSource, e.cls = 0x0A ∧ e.cause = 0x03 ∧ e.p0.toNat = stack.toNat := by
  have standing : s.stackState stack.toNat ≠ 4 := by omega
  have known := stack.isLt
  have lost := faultOnly_loseStack 0x08 standing
  have shows (lo w : Nat) : (s.loseStack stack.toNat 0x08).field (Reg.CHS_STACK stack.toNat) lo w =
      (s.linkFailed stack.toNat 0x08).field (Reg.CHS_STACK stack.toNat) lo w :=
    (lost.field _ lo w (chsStack_not_mem_faultRegs known)).trans (field_stackOut s 0x08 lo w known)
  obtain ⟨failed, cause⟩ := fields_linkFailed s (k := stack.toNat) (by decide : 0x08 < 2 ^ 8)
  have out := mem_outOf_stackOut s stack.toNat 0x08
  have link := link_stackOut s stack.toNat 0x08
  rw [← lost.outOf] at out
  rw [← lost.stack] at link
  exact answers_of_eq rfl (if_pos retraining)
    ⟨(shows 0 3).trans failed, (shows 4 8).trans cause, out, link, mem_atSource_loseStack 0x08 standing known⟩

/-! ### The patrol scrub (R239, R240) -/

/-- A stack whose scrub has gone on to the next line. -/
def Stack.scrubbed (x : Stack) : Stack := { x with scrubPos := (x.scrubPos + 1) % 2 ^ 30 }

def State.scrubOn (s : State) (k : Nat) : State := s.setStack k (s.stack k).scrubbed

theorem patrolScrub_on {s : State} {k : Nat} (on : s.field Reg.CHS_CFG 16 1 = 1) (up : s.stackUp k = true) :
    s.patrolScrub k =
      if AMap.get false s.poisoned (lineKey k ((s.stack k).scrubPos * 64)) then s.scrubOn k
      else ((s.scrubOn k).stackRead k ((s.stack k).scrubPos * 64) 0).2.2.2 :=
  if_pos ⟨on, up⟩

/-- A scrub that passes over a line changes nothing but the place. -/
theorem patrolScrub_passes {s : State} {k : Nat} (on : s.field Reg.CHS_CFG 16 1 = 1) (up : s.stackUp k = true)
    (passes : AMap.get 0 s.symErr (lineKey k ((s.stack k).scrubPos * 64)) = 0 ∨
      AMap.get false s.poisoned (lineKey k ((s.stack k).scrubPos * 64)) = true) :
    s.patrolScrub k = s.scrubOn k := by
  rw [patrolScrub_on on up]
  rcases passes with clean | poisoned
  · rw [stackRead_clean (s := s.scrubOn k) 0 clean, ite_self]
  · rw [if_pos poisoned]

/-- Wherever the scrub stands, it goes on in its own stack alone. -/
theorem stack_patrolScrub {s : State} {k : Nat} (on : s.field Reg.CHS_CFG 16 1 = 1) (up : s.stackUp k = true) :
    ((s.patrolScrub k).stack k).scrubPos = ((s.stack k).scrubPos + 1) % 2 ^ 30 ∧
      ∀ j, j ≠ k → (s.patrolScrub k).stack j = s.stack j := by
  have moved : Sets s.stack (s.scrubOn k).stack k (s.stack k).scrubbed := sets_setStack rfl k _
  rw [patrolScrub_on on up]
  split
  · exact ⟨congrArg Stack.scrubPos moved.1, moved.2⟩
  · obtain ⟨_, own, others⟩ := (lineRead_stackRead (s.scrubOn k) k ((s.stack k).scrubPos * 64) 0).stack
    exact ⟨(congrArg Stack.scrubPos own).trans (congrArg Stack.scrubPos moved.1),
      fun j other => (others j other).trans (moved.2 j other)⟩

/-- What a correction leaves of the line and of the count (R238, R239). -/
theorem lineCorrected_line (s : State) (k loc : Nat) (w : BitVec 576) :
    AMap.get 0 (s.lineCorrected k loc w).symErr (lineKey k loc) = 0 ∧
      readLe (s.lineCorrected k loc w).chsMem (64 * lineKey k loc) 64 = (w.extractLsb' 0 512).toNat ∧
      AMap.get false (s.lineCorrected k loc w).poisoned (lineKey k loc) = w.getLsbD 512 ∧
      (s.lineCorrected k loc w).field (Reg.CHS_CE k) 0 32 = min (s.field (Reg.CHS_CE k) 0 32 + 1) (2 ^ 32 - 1) := by
  refine ⟨?_, ?_, ?_, field_bump_same _ _ 0 32 1 (by decide)⟩
  · rw [State.lineCorrected, State.bump_symErr, AMap.get_set_same]
  · rw [State.lineCorrected, State.bump_chsMem, readLe_writeLe_line]
  · rw [State.lineCorrected, State.bump_poisoned, AMap.get_set_same]

theorem patrolScrub_answers {s : State} {stack : BitVec 5} (on : s.field Reg.CHS_CFG 16 1 = 1)
    (up : s.stackUp stack.toNat = true) :
    let key := lineKey stack.toNat ((s.stack stack.toNat).scrubPos * 64)
    Answers (.patrolScrub stack) s fun t =>
      (t.stack stack.toNat).scrubPos = ((s.stack stack.toNat).scrubPos + 1) % 2 ^ 30 ∧
      (∀ j, j ≠ stack.toNat → t.stack j = s.stack j) ∧
      (AMap.get 0 s.symErr key = 0 ∨ AMap.get false s.poisoned key = true → t = { s with dstacks := t.dstacks }) ∧
      (∀ w, AMap.get 0 s.symErr key ≠ 0 → AMap.get false s.poisoned key = false →
        rsDecode (codeword (BitVec.ofNat 512 (readLe s.chsMem (64 * key) 64)) (AMap.get false s.poisoned key) ^^^
          AMap.get 0 s.symErr key) = some (w, true) →
        AMap.get 0 t.symErr key = 0 ∧ readLe t.chsMem (64 * key) 64 = (w.extractLsb' 0 512).toNat ∧
        AMap.get false t.poisoned key = w.getLsbD 512 ∧
        t.field (Reg.CHS_CE stack.toNat) 0 32 = min (s.field (Reg.CHS_CE stack.toNat) 0 32 + 1) (2 ^ 32 - 1)) := by
  obtain ⟨place, others⟩ := stack_patrolScrub on up
  refine ⟨_, rfl, place, others, fun passes => ?_, fun w err clean decoded => ?_⟩
  · rw [patrolScrub_passes on up passes]
    rfl
  · rw [patrolScrub_on on up, if_neg (by rw [clean]; decide), stackRead_corrects (s := s.scrubOn stack.toNat) 0 err decoded]
    have corrected := lineCorrected_line (s.scrubOn stack.toNat) stack.toNat ((s.stack stack.toNat).scrubPos * 64) w
    generalize (s.scrubOn stack.toNat).lineCorrected stack.toNat ((s.stack stack.toNat).scrubPos * 64) w = u at corrected
    obtain ⟨links, ev, pair, eq⟩ := logCorrected_rest u stack.toNat ((s.stack stack.toNat).scrubPos * 64) 0
    rw [eq]
    exact corrected

/-- Settles O43: each command of the upkeep by what it answers. -/
theorem stackUpkeep : Obligations.StackUpkeep := fun _ _ _ =>
  ⟨linkRecentre_answers, phyretrainComplete_answers, phyretrainFails_answers, patrolScrub_answers⟩

end Sys2Proof.Machine
end

section
/-! The stream engines (07 R222-R227, R231, R240): prefetch, expansion, credits, line writes. -/

namespace Sys2Proof.Machine

theorem sets_setStrip {s t : State} (same : t.strips = s.strips) (key : Nat) (x : StreamSlot) :
    Sets s.strip (t.setStrip key x).strip key x := by
  refine ⟨strip_setStrip_same t key x, fun j other => ?_⟩
  rw [strip_setStrip_other t key j x other, State.strip, same]
  rfl

/-! ### Transactions on a link -/

/-- A stack to which a transaction's frame was posted under a tag (R235, R236). -/
def Stack.posted (x : Stack) (tag : BitVec 12) (t : Txn) (f : Frame) : Stack :=
  { x with toStack := x.toStack.post x.toCtl f, txns := AMap.set .none x.txns tag.toNat t, nextTag := tag + 1 }

theorem postTxn_some {s : State} {k : Nat} {tag : BitVec 12} (t : Txn) (f : BitVec 12 → Frame)
    (free : (s.stack k).freeTag = some tag) (room : (s.stack k).toStack.room = true) :
    s.postTxn k t f = some (s.setStack k ((s.stack k).posted tag t (f tag))) := by
  unfold State.postTxn
  dsimp only
  rw [free]
  exact if_pos room

/-- A transaction posted, and then its slot written. -/
theorem setStrip_setStack_answers (s : State) (k key : Nat) (y : Stack) (x : StreamSlot) :
    Sets s.strip ((s.setStack k y).setStrip key x).strip key x ∧
      (s.setStack k y).setStrip key x = { s with
        strips := ((s.setStack k y).setStrip key x).strips, dstacks := ((s.setStack k y).setStrip key x).dstacks } ∧
      Sets s.stack ((s.setStack k y).setStrip key x).stack k y :=
  ⟨sets_setStrip rfl key x, rfl, sets_setStack rfl k y⟩

/-! ### Prefetch (R223) -/

/-- Does the next granule fit its slot's room whole and in order, all of it landed? -/
def State.granuleNext (s : State) (key : Nat) : Bool :=
  let x := s.strip key
  let full := 4096 / x.desc.size
  decide (x.desc.offset x.fetched % 4096 = 0) && decide (full ≤ x.desc.depth - (x.fetched - x.driven)) &&
    decide (x.desc.run x.fetched 4096 full = full) && (List.range full).all fun i => s.mayFetch key (x.fetched + i)

/-- The entries that the next prefetch asks for. -/
def State.prefetchCount (s : State) (key : Nat) : Nat :=
  let x := s.strip key
  if s.granuleNext key then 4096 / x.desc.size
  else ((List.range (min (x.desc.depth - (x.fetched - x.driven)) (x.desc.run x.fetched 64 (64 / x.desc.size)))).takeWhile
    fun i => s.mayFetch key (x.fetched + i)).length

theorem egressPrefetch_plain {s : State} {key k loc : Nat} {tag : BitVec 12} (opens : (s.strip key).egressOpen = true)
    (plain : (s.strip key).desc.conv = 0) (asks : 0 < s.prefetchCount key)
    (place : s.chsDecode (s.streamBase (s.strip key) + (s.strip key).desc.offset (s.strip key).fetched) = some (k, loc))
    (up : s.stackUp k = true) (free : (s.stack k).freeTag = some tag) (room : (s.stack k).toStack.room = true) :
    s.egressPrefetch key =
      (s.setStack k ((s.stack k).posted tag
        (.egress (s.job (s.strip key).job.toNat).tag key (s.strip key).fetched (s.prefetchCount key)
          (if s.granuleNext key then 0 else loc % 64))
        (frame 1 (s.granuleNext key) tag
          (loc / (64 * frameLines (s.granuleNext key)) * (64 * frameLines (s.granuleNext key)))))).setStrip key
      { s.strip key with fetched := (s.strip key).fetched + s.prefetchCount key } := by
  have bytes : (if s.granuleNext key then 4096 else 64) = 64 * frameLines (s.granuleNext key) := by
    cases s.granuleNext key <;> rfl
  have counted : ¬s.prefetchCount key = 0 := by omega
  unfold State.egressPrefetch
  extract_lets x d depth n off full granule line count a job unit
  rw [if_neg (by rw [plain]; decide), if_neg (by rw [opens]; decide), if_neg (by rw [plain]; decide)]
  have granule_eq : granule = s.granuleNext key := rfl
  have count_eq : count = s.prefetchCount key := rfl
  rw [if_neg (count_eq ▸ counted), place]
  dsimp only
  have unit_eq : unit = 64 * frameLines (s.granuleNext key) := bytes
  rw [if_pos up, postTxn_some _ _ free room, count_eq, granule_eq, unit_eq]

theorem egressPrefetch_expands {s : State} {key : Nat} (opens : (s.strip key).egressOpen = true)
    (conv : (s.strip key).desc.conv = 1 ∨ (s.strip key).desc.conv = 2)
    (fits : (s.strip key).desc.perElement ≤ (s.strip key).desc.depth - ((s.strip key).fetched - (s.strip key).driven)) :
    s.egressPrefetch key = s.expandGroup key := by
  have packed : ¬(s.strip key).desc.conv = 3 ∧ ((s.strip key).desc.conv != 0) = true := by
    rcases conv with conv | conv <;> rw [conv] <;> decide
  unfold State.egressPrefetch
  extract_lets x d depth
  rw [if_neg packed.1, if_neg (by rw [opens]; decide), if_pos packed.2, if_pos fits]

/-! ### Expansion (R227) -/

theorem gatedBy_of_streams {s t : State} (same : t.streams = s.streams) (key : Nat) : t.gatedBy key = s.gatedBy key := by
  unfold State.gatedBy
  rw [same]

/-- No stream waits for a slot that gates none. -/
theorem gateRead_ungated {s : State} {key : Nat} (gates : s.gatedBy key = []) : s.gateRead key = s := by
  unfold State.gateRead
  rw [gates]
  rfl

theorem mayExpand_ungated {s : State} {key : Nat} (gates : s.gatedBy key = []) (pass win : Nat) :
    s.mayExpand key pass win = true := by
  unfold State.mayExpand
  rw [gates]
  rfl

theorem streams_readLine (s : State) (a : Nat) (tag : BitVec 16) : (s.readLine a tag).2.2.streams = s.streams := by
  unfold State.readLine
  split
  · split
    next k loc _ _ => exact (congrArg State.streams (lineRead_stackRead s k loc tag).rest).trans rfl
    next => rfl
  · rfl

theorem streams_chsRead (s : State) (a n : Nat) (tag : BitVec 16) : (s.chsRead a n tag).2.2.streams = s.streams :=
  List.foldlRecOn (motive := fun r : List Byte × List Nat × State => r.2.2.streams = s.streams) (linesOf a n) _ rfl
    fun _ same _ _ => (streams_readLine ..).trans same

theorem streams_readBlock (s : State) (base bytes rowEnd off w : Nat) (tag : BitVec 16) :
    (s.readBlock base bytes rowEnd off w tag).2.streams = s.streams := by
  have head := streams_chsRead s (base + off) 16 tag
  have kept {c : Prop} [Decidable c] {a b : Except Nat Block × State} (ha : a.2.streams = s.streams)
      (hb : b.2.streams = s.streams) : (if c then a else b).2.streams = s.streams := by
    split
    · exact ha
    · exact hb
  unfold State.readBlock
  split
  · rfl
  · generalize s.chsRead (base + off) 16 tag = r at head
    obtain ⟨h, bad, t⟩ := r
    dsimp only
    exact kept head (kept head (kept head (kept head ((streams_chsRead ..).trans head))))

theorem streams_readBlocks (base bytes rowEnd w : Nat) (tag : BitVec 16) (n : Nat) :
    ∀ (s : State) (off : Nat), (s.readBlocks base bytes rowEnd off w tag n).2.streams = s.streams := by
  induction n with
  | zero => exact fun _ _ => rfl
  | succ n ih =>
    intro s off
    have first := streams_readBlock s base bytes rowEnd off w tag
    unfold State.readBlocks
    generalize s.readBlock base bytes rowEnd off w tag = r at first
    obtain ⟨b | b, t⟩ := r
    · exact first
    · have others := ih t (off + b.packed)
      dsimp only
      generalize t.readBlocks base bytes rowEnd (off + b.packed) w tag n = r at others
      obtain ⟨bs | bs, u⟩ := r
      all_goals
        dsimp only
        split
        · exact first
        · exact others.trans first

/-- The pattern element that a converting slot expands next. -/
def StreamSlot.element (x : StreamSlot) : Nat := x.fetched / x.desc.perElement

/-- Where its row starts in the window. -/
def StreamSlot.rowStart (x : StreamSlot) : Int :=
  (x.desc.start : Int) + (x.element / x.desc.rowLen % x.desc.rows : Nat) * x.desc.stride

/-- The byte of the row at which it stands. -/
def StreamSlot.rowPos (x : StreamSlot) : Nat := if x.element % x.desc.rowLen = 0 then 0 else x.rowByte

theorem nextGroup_eq (x : StreamSlot) :
    x.nextGroup = (x.element / (x.desc.rowLen * x.desc.rows), x.rowStart, x.rowPos) := rfl

/-- A slot into whose buffer the blocks of its next group were expanded (R161, R227). -/
def StreamSlot.expanded (x : StreamSlot) (bs : List Block) : StreamSlot :=
  { x with
    fetched := x.fetched + x.desc.perElement
    ready := x.fetched + x.desc.perElement
    rowByte := x.rowPos + (bs.map (·.packed)).sum
    rowBad := false
    buf := x.buf ++ { data := BitVec.ofNat 512 (leNat (bs.flatMap (·.head))), poison := false } ::
      groupAreas x.desc.conv bs }

/-- The bytes of its window at which the row of a converting slot ends. -/
def State.rowEnd (s : State) (key : Nat) : Nat :=
  if 1 < (s.strip key).desc.rows ∧ 0 < (s.strip key).desc.stride then
    (s.strip key).rowStart.toNat + (s.strip key).desc.stride.toNat
  else ((s.job (s.strip key).job.toNat).window (s.strip key).desc.window).bytes

theorem expandGroup_reads {s u : State} {key : Nat} {bs : List Block} (gates : s.gatedBy key = [])
    (good : (s.strip key).rowBad = false ∨ (s.strip key).element % (s.strip key).desc.rowLen = 0)
    (start : 0 ≤ (s.strip key).rowStart)
    (read : s.readBlocks (s.streamBase (s.strip key))
      ((s.job (s.strip key).job.toNat).window (s.strip key).desc.window).bytes (s.rowEnd key)
      ((s.strip key).rowStart.toNat + (s.strip key).rowPos) (s.packedWidth key) (s.job (s.strip key).job.toNat).tag 4 =
        (.ok bs, u))
    (heads : ∀ b ∈ bs, b.headBad = false) :
    s.expandGroup key = u.setStrip key ((s.strip key).expanded bs) := by
  have streams : u.streams = s.streams := by
    rw [← streams_readBlocks _ _ _ _ _ 4 s _, read]
  have none_bad : bs.any (·.headBad) = false := List.any_eq_false.2 fun b mem => by simp [heads b mem]
  have all_good : (bs.filter fun b => !b.headBad) = bs := List.filter_eq_self.2 fun b mem => by simp [heads b mem]
  have sum : (bs.map (·.packed)).foldl (· + ·) 0 = (bs.map (·.packed)).sum := List.sum_eq_foldl.symm
  unfold State.expandGroup
  extract_lets x d base win tag first n put
  have sound : ¬(x.rowBad = true ∧ (!decide first) = true) := by
    rintro ⟨bad, later⟩
    rcases good with good | start
    · exact absurd bad (by rw [show x.rowBad = false from good]; decide)
    · exact absurd (show first from start) (by simpa using later)
  have blocks : s.readBlocks base win.bytes
      (if d.rows > 1 ∧ d.stride > 0 then x.rowStart.toNat + d.stride.toNat else win.bytes)
      (x.rowStart.toNat + x.rowPos) (s.packedWidth key) tag 4 = (.ok bs, u) := read
  rw [nextGroup_eq]
  dsimp only
  rw [if_neg sound, if_neg (not_lt.2 start), if_neg (by rw [mayExpand_ungated gates]; decide), blocks]
  dsimp only
  rw [none_bad, if_neg (by decide), all_good, sum]
  exact gateRead_ungated ((gatedBy_of_streams streams key).trans gates)

/-! ### Credits (R223) -/

/-- A signal at the control input of a declared slot returns credits to the egress slot that it names, of the same job. -/
theorem creditReturn_signal {s : State} {named dst : Nat} {cpl : BitVec 6} {n : BitVec 8} (returns : n ≠ 0#8)
    (names : named / 64 * 64 + cpl.toNat = dst) (declared : (s.strip named).used = true) (used : (s.strip dst).used = true)
    (egress : (s.strip dst).desc.ingress = false) (job : (s.strip dst).job = (s.strip named).job)
    (fits : (s.strip dst).credit + n.toNat ≤ (s.strip dst).desc.credits) :
    s.creditReturn named (n ++ cpl ++ 0#2) =
      s.setStrip dst { s.strip dst with credit := (s.strip dst).credit + n.toNat } := by
  have mine : ((s.strip dst).used && !(s.strip dst).desc.ingress && (s.strip dst).job == (s.strip named).job) = true := by
    simp [used, egress, job]
  rw [State.creditReturn, show cplMsg (n ++ cpl ++ 0#2) = _ from cplMsg_signalEntry cpl returns]
  dsimp only
  rw [names, if_neg (by rw [declared]; decide), if_pos mine, if_neg (not_lt.2 fits)]

/-- The slot that a coupling field names stands on the same strip. -/
theorem stripKey_named (die edge : Nat) (slot cpl : BitVec 6) :
    stripKey die edge slot.toNat / 64 * 64 + cpl.toNat = stripKey die edge cpl.toNat := by
  unfold stripKey
  omega

/-! ### Line writes (R225) -/

/-- The entries of the next line. -/
def StreamSlot.nextRun (x : StreamSlot) : Nat := x.desc.run x.written 64 (64 / x.desc.size)

/-- The frame that writes the next line, where the entries fill it (R235). -/
def StreamSlot.lineFrame (x : StreamSlot) (tag : BitVec 12) (loc : Nat) : Frame :=
  { frame 2 false tag (loc / 64 * 64) with
    data := [lineWith x (x.buf.take x.nextRun) x.written 0#512]
    poison := if (x.buf.take x.nextRun).any (·.poison) then 1 else 0 }

/-- A slot that has all entries of its next line and may write them. -/
structure StreamSlot.Writes (x : StreamSlot) : Prop where
  used : x.used = true
  ingress : x.desc.ingress = true
  notDone : x.done = false
  idle : x.pendingWrite = false
  entries : 0 < x.nextRun
  there : x.nextRun ≤ x.buf.length

theorem ingressLineWrite_posts {s : State} {key k loc : Nat} {tag : BitVec 12} (writes : (s.strip key).Writes)
    (place : s.chsDecode (s.streamBase (s.strip key) + (s.strip key).desc.offset (s.strip key).written) = some (k, loc))
    (up : s.stackUp k = true) (free : (s.stack k).freeTag = some tag) (room : (s.stack k).toStack.room = true) :
    s.ingressLineWrite key =
      if (s.strip key).nextRun * (s.strip key).desc.size = 64 then
        (s.setStack k ((s.stack k).posted tag
          (.ingress (s.job (s.strip key).job.toNat).tag key (s.strip key).written
            ((s.strip key).written + (s.strip key).nextRun))
          ((s.strip key).lineFrame tag loc))).setStrip key
            { s.strip key with
              buf := (s.strip key).buf.drop (s.strip key).nextRun
              written := (s.strip key).written + (s.strip key).nextRun }
      else
        (s.setStack k ((s.stack k).posted tag
          (.partialLine (s.job (s.strip key).job.toNat).tag key (s.strip key).written
            ((s.strip key).written + (s.strip key).nextRun))
          (frame 1 false tag (loc / 64 * 64)))).setStrip key { s.strip key with pendingWrite := true } := by
  obtain ⟨used, ingress, notDone, idle, entries, there⟩ := writes
  have takes : ¬(!(s.strip key).used || !(s.strip key).desc.ingress || (s.strip key).done ||
      (s.strip key).pendingWrite) = true := by
    simp [used, ingress, notDone, idle]
  have whole : ¬(decide ((s.strip key).buf.length < (s.strip key).nextRun) && (s.strip key).stopped) = true := by
    simp [not_lt.2 there]
  have ready : ¬((s.strip key).nextRun = 0 ∨ (s.strip key).buf.length < (s.strip key).nextRun) := by omega
  unfold State.ingressLineWrite
  extract_lets x d n run ending m a es
  have m_eq : m = x.nextRun := if_neg whole
  have es_eq : es = x.buf.take x.nextRun := congrArg (x.buf.take ·) m_eq
  rw [if_neg takes, if_neg (m_eq ▸ ready), place]
  dsimp only
  rw [if_pos up, State.postLine, postTxn_some _ _ free room, postTxn_some _ _ free room, m_eq, es_eq]
  rfl

/-! ### What the commands answer -/

/-- A transaction posted under a tag, and the slot that asked for it written: the rest of the state stands. -/
theorem posted_answers {c : Instr} {s : State} {k key : Nat} {y : Stack} {x : StreamSlot}
    (run : exec c s = .next ((s.setStack k y).setStrip key x)) :
    Answers c s fun t => Sets s.strip t.strip key x ∧ t = { s with strips := t.strips, dstacks := t.dstacks } ∧
      Sets s.stack t.stack k y :=
  ⟨_, run, setStrip_setStack_answers s k key y x⟩

/-- Settles O41: each slot command is one post on the stack's link, or one write of its slot. -/
theorem streamEngines : Obligations.StreamEngines := by
  intro die edge slot cpl n s key x d tag room dst run element first pos row win full lands granule count posts writes
  refine ⟨fun k loc tx opens plain asks place up free space => ?_,
    fun bs u opens conv fits gates good start read heads => ?_,
    fun returns declared used egress job fits => ?_,
    fun k loc tx may place up free space => ?_⟩
  · exact posted_answers (congrArg _ (egressPrefetch_plain opens plain asks place up free space))
  · refine answers_of_eq rfl ((egressPrefetch_expands opens conv fits).trans
      (expandGroup_reads gates good start read heads)) ⟨rfl, sets_setStrip rfl _ _⟩
  · exact ⟨_, rfl, _, ⟨sets_setStrip rfl _ _, rfl⟩,
      creditReturn_signal returns (stripKey_named ..) declared used egress job fits ▸ probesOnly_traced s _⟩
  · obtain ⟨used, ingress, notDone, idle, entries, there⟩ := may
    have answer := ingressLineWrite_posts ⟨used, ingress, notDone, idle, entries, there⟩ place up free space
    exact ⟨fun whole => posted_answers (congrArg _ (answer.trans (if_pos whole))),
      fun part => posted_answers (congrArg _ (answer.trans (if_neg part)))⟩

end Sys2Proof.Machine
end

section
/-! The frames of a stack's link (07 R235, R236): what taking one does, and what answers or acknowledges it. -/

namespace Sys2Proof.Machine

theorem sets_setStack_of_sets {s t : State} {k : Nat} {y : Stack} (h : Sets s.stack t.stack k y) (x : Stack) :
    Sets s.stack (t.setStack k x).stack k x :=
  ⟨stack_setStack_same t k x, fun j other => (stack_setStack_other t k j x other).trans (h.2 j other)⟩

theorem sets_setStrip_of_sets {s t : State} {key : Nat} {y : StreamSlot} (h : Sets s.strip t.strip key y) (x : StreamSlot) :
    Sets s.strip (t.setStrip key x).strip key x :=
  ⟨strip_setStrip_same t key x, fun j other => (strip_setStrip_other t key j x other).trans (h.2 j other)⟩

/-- A slot written, where only stacks and slots were. -/
theorem setStrip_rest {s t : State} (only : t = { s with dstacks := t.dstacks, strips := t.strips }) (key : Nat)
    (x : StreamSlot) :
    t.setStrip key x = { s with dstacks := (t.setStrip key x).dstacks, strips := (t.setStrip key x).strips } := by
  unfold State.setStrip
  rw [only]

/-! ### Directions -/

@[simp] theorem dirs_setDirs (x : Stack) (toStack : Bool) (d back : LinkDir) :
    (x.setDirs toStack d back).dirs toStack = (d, back) := by
  cases toStack <;> rfl

@[simp] theorem dirs_setDirs_not (x : Stack) (toStack : Bool) (d back : LinkDir) :
    (x.setDirs toStack d back).dirs (!toStack) = (back, d) := by
  cases toStack <;> rfl

@[simp] theorem setDirs_setDirs_not (x : Stack) (toStack : Bool) (d back d' back' : LinkDir) :
    (x.setDirs toStack d back).setDirs (!toStack) back' d' = x.setDirs toStack d' back' := by
  cases toStack <;> rfl

@[simp] theorem answers_setDirs (x : Stack) (toStack : Bool) (d back : LinkDir) :
    (x.setDirs toStack d back).answers = x.answers := by
  cases toStack <;> rfl

/-- A stack with no answers that wait sends none. -/
theorem sendAnswers_none {x : Stack} (none : x.answers = []) : x.sendAnswers x.answers.length = x := by
  rw [none]
  rfl

/-! ### Taking a frame -/

/-- A stack that has taken a sequenced frame from the head of a direction. -/
def Stack.taken (x : Stack) (toStack : Bool) (f : Frame) (rest : List Frame) : Stack :=
  x.setDirs toStack { (x.dirs toStack).1 with wire := rest, rxNext := (x.dirs toStack).1.rxNext + 1 }
    ((x.dirs toStack).2.acked f.ack)

/-- A stack that has taken a frame without a number, an ACK or a NAK (log entry 21). -/
def Stack.heard (x : Stack) (toStack : Bool) (f : Frame) (rest : List Frame) : Stack :=
  x.setDirs toStack { (x.dirs toStack).1 with wire := rest } ((x.dirs toStack).2.acked f.ack)

/-- An intact frame of a kind stands at the head of a direction, the link is up, and no answers wait. -/
structure Heads (s : State) (k : Nat) (toStack : Bool) (kind : Nat) (f : Frame) (rest : List Frame) : Prop where
  up : s.stackState k = 2
  kind : f.kind.toNat = kind
  intact : f.crc = f.check
  answers : (s.stack k).answers = []
  wire : ((s.stack k).dirs toStack).1.wire = f :: rest

theorem txSeq_acked (d : LinkDir) (ack : BitVec 12) : (d.acked ack).txSeq = d.txSeq := by
  unfold LinkDir.acked
  split
  · dsimp only
    split <;> rfl
  · rfl

theorem txSeq_taken (x : Stack) (toStack : Bool) (f : Frame) (rest : List Frame) :
    ((x.taken toStack f rest).dirs toStack).2.txSeq = (x.dirs toStack).2.txSeq := by
  rw [Stack.taken, dirs_setDirs, txSeq_acked]

theorem receive_sequenced {s : State} {k kind : Nat} {toStack : Bool} {f : Frame} {rest : List Frame}
    (h : Heads s k toStack kind f rest) (low : kind < 5) (order : f.seq = ((s.stack k).dirs toStack).1.rxNext)
    (act : Frame → State → State) :
    s.receive k toStack true kind act = (act f (s.setStack k ((s.stack k).taken toStack f rest))).ackAlone k toStack
      ((s.stack k).dirs toStack).2.txSeq := by
  obtain ⟨up, kinds, intact, answers, wire⟩ := h
  have none : ((s.stack k).taken toStack f rest).answers = [] := (answers_setDirs ..).trans answers
  have stands : ¬(s.stackState k ≠ 2 ∨ f.kind.toNat ≠ kind) := by simp [up, kinds]
  have good : ¬(!(true && f.crc == f.check) || decide (f.seq ≠ ((s.stack k).dirs toStack).1.rxNext)) = true := by
    simp [intact, order]
  unfold State.receive
  dsimp only
  rw [wire]
  dsimp only
  rw [if_neg stands, if_neg (not_le.2 low), if_neg good]
  change (act f (s.setStack k (((s.stack k).taken toStack f rest).sendAnswers
    ((s.stack k).taken toStack f rest).answers.length))).ackAlone k toStack
      ((((s.stack k).taken toStack f rest).sendAnswers
        ((s.stack k).taken toStack f rest).answers.length).dirs toStack).2.txSeq = _
  rw [sendAnswers_none none, txSeq_taken]

theorem receive_signal {s : State} {k kind : Nat} {toStack : Bool} {f : Frame} {rest : List Frame}
    (h : Heads s k toStack kind f rest) (high : 5 ≤ kind) (act : Frame → State → State) :
    s.receive k toStack true kind act = act f (s.setStack k ((s.stack k).heard toStack f rest)) := by
  obtain ⟨up, kinds, intact, answers, wire⟩ := h
  have none : ((s.stack k).heard toStack f rest).answers = [] := (answers_setDirs ..).trans answers
  have stands : ¬(s.stackState k ≠ 2 ∨ f.kind.toNat ≠ kind) := by simp [up, kinds]
  have good : (true && f.crc == f.check) = true := by simp [intact]
  unfold State.receive
  dsimp only
  rw [wire]
  dsimp only
  rw [if_neg stands, if_pos high, if_pos good]
  change act f (s.setStack k (((s.stack k).heard toStack f rest).sendAnswers
    ((s.stack k).heard toStack f rest).answers.length)) = _
  rw [sendAnswers_none none]

/-! ### Answers and acknowledgements -/

/-- A stack that has answered with a frame, where no other waited. -/
def Stack.answered (x : Stack) (f : Frame) : Stack := { x with toCtl := x.toCtl.post x.toStack f }

theorem answer_none {s : State} {k : Nat} (f : Frame) (none : (s.stack k).answers = [])
    (room : (s.stack k).toCtl.room = true) : s.answer k f = s.setStack k ((s.stack k).answered f) := by
  have only : { (s.stack k).answered f with answers := [] } = (s.stack k).answered f :=
    congrArg (fun l => { (s.stack k).answered f with answers := l }) none.symm
  unfold State.answer
  dsimp only
  rw [none]
  change s.setStack k (if (s.stack k).toCtl.room = true then { (s.stack k).answered f with answers := [] } else _) = _
  rw [if_pos room, only]

/-- An answer takes a number, and acknowledges what it answers. -/
theorem ackAlone_answered {s : State} {k : Nat} {toStack : Bool} {sent : BitVec 12}
    (answered : ((s.stack k).dirs toStack).2.txSeq ≠ sent) : s.ackAlone k toStack sent = s :=
  if_neg fun h => answered h.2

theorem ackAlone_unanswered {s : State} {k : Nat} {toStack : Bool} {sent : BitVec 12} (up : s.stackState k = 2)
    (unanswered : ((s.stack k).dirs toStack).2.txSeq = sent) :
    s.ackAlone k toStack sent = s.setStack k ((s.stack k).setDirs toStack ((s.stack k).dirs toStack).1
      (((s.stack k).dirs toStack).2.signal ((s.stack k).dirs toStack).1 5)) :=
  if_pos ⟨up, unanswered⟩

/-- A request that is answered: the stack has taken it and answered it, and nothing else of its own is changed. -/
theorem sets_answered {s u : State} {k kind : Nat} {f : Frame} {rest : List Frame} (g : Frame)
    (taken : Sets s.stack u.stack k ((s.stack k).taken true f rest)) (h : Heads s k true kind f rest)
    (room : ((s.stack k).toCtl.acked f.ack).room = true) :
    (u.answer k g).ackAlone k true ((s.stack k).dirs true).2.txSeq =
        u.setStack k (((s.stack k).taken true f rest).answered g) ∧
      Sets s.stack (u.setStack k (((s.stack k).taken true f rest).answered g)).stack k
        (((s.stack k).taken true f rest).answered g) := by
  have none : (u.stack k).answers = [] := by rw [taken.1]; exact h.answers
  have next : ((s.stack k).toCtl.acked f.ack).txSeq + 1 ≠ (s.stack k).toCtl.txSeq := by
    rw [txSeq_acked]
    bv_omega
  refine ⟨?_, sets_setStack_of_sets taken _⟩
  rw [answer_none g none (by rw [taken.1]; exact room), taken.1]
  refine ackAlone_answered ?_
  rw [stack_setStack_same]
  exact next

/-! ### Reads -/

/-- The data that a stack reads of lines without errors: the lines, and their poison as a number. -/
theorem foldl_stackRead_clean {s : State} {k : Nat} (loc : Nat → Nat) (tag : BitVec 16) :
    ∀ (l : List Nat) (ds : List (BitVec 512)) (p c : Nat), (∀ i ∈ l, AMap.get 0 s.symErr (lineKey k (loc i)) = 0) →
      l.foldl (fun (r : List (BitVec 512) × Nat × Nat × State) i =>
        (r.1 ++ [(r.2.2.2.stackRead k (loc i) tag).1],
          if (r.2.2.2.stackRead k (loc i) tag).2.1 then r.2.1 + 2 ^ i else r.2.1,
          if (r.2.2.2.stackRead k (loc i) tag).2.2.1 then r.2.2.1 + 2 ^ i else r.2.2.1,
          (r.2.2.2.stackRead k (loc i) tag).2.2.2)) (ds, p, c, s) =
        (ds ++ l.map fun i => BitVec.ofNat 512 (readLe s.chsMem (64 * lineKey k (loc i)) 64),
          l.foldl (fun p i => if AMap.get false s.poisoned (lineKey k (loc i)) then p + 2 ^ i else p) p, c, s) := by
  intro l
  induction l with
  | nil => intro ds p c _; simp
  | cons i l ih =>
    intro ds p c clean
    rw [List.foldl_cons, stackRead_clean tag (clean i (List.mem_cons_self ..)),
      ih _ _ _ fun j mem => clean j (List.mem_cons_of_mem _ mem)]
    simp

/-- The poison flags of the lines that a frame asks for, as a number. -/
def poisonFlags (s : State) (k : Nat) (f : Frame) : Nat :=
  gather (fun i => AMap.get false s.poisoned (lineKey k (f.addr.toNat + 64 * i))) (frameLines f.granule)

/-- The frame that answers a read of lines without errors (R235). -/
def readAnswer (s : State) (k : Nat) (f : Frame) : Frame :=
  { frame 3 f.granule f.tag f.addr.toNat with
    data := (List.range (frameLines f.granule)).map fun i =>
      BitVec.ofNat 512 (readLe s.chsMem (64 * lineKey k (f.addr.toNat + 64 * i)) 64)
    poison := BitVec.ofNat 64 (poisonFlags s k f)
    status := if poisonFlags s k f = 0 then 0 else 1 }

theorem serveRead_clean {s : State} {k : Nat} {f : Frame} {rest : List Frame} (h : Heads s k true 1 f rest)
    (order : f.seq = (s.stack k).toStack.rxNext) (aligned : f.aligned = true)
    (clean : ∀ i, i < frameLines f.granule → AMap.get 0 s.symErr (lineKey k (f.addr.toNat + 64 * i)) = 0) :
    s.serveRead k true = ((s.setStack k ((s.stack k).taken true f rest)).answer k (readAnswer s k f)).ackAlone k true
      ((s.stack k).dirs true).2.txSeq := by
  unfold State.serveRead
  rw [receive_sequenced h (by decide) order]
  dsimp only
  rw [if_neg (by rw [aligned]; decide), foldl_stackRead_clean]
  · rfl
  · exact fun i mem => clean i (List.mem_range.1 mem)

/-- A frame's lines are at most as many as its poison flags. -/
theorem poisonFlags_lt (s : State) (k : Nat) (f : Frame) : poisonFlags s k f < 2 ^ 64 := by
  have few : frameLines f.granule ≤ 64 := by
    unfold frameLines
    split <;> decide
  exact (gather_lt _ _).trans_le (Nat.pow_le_pow_right (by decide) few)

theorem readRequest_answers {s : State} {stack : BitVec 5} {f : Frame} {rest : List Frame}
    (h : Heads s stack.toNat true 1 f rest) (order : f.seq = (s.stack stack.toNat).toStack.rxNext)
    (aligned : f.aligned = true) (room : ((s.stack stack.toNat).toCtl.acked f.ack).room = true)
    (clean : ∀ i, i < frameLines f.granule → AMap.get 0 s.symErr (lineKey stack.toNat (f.addr.toNat + 64 * i)) = 0) :
    Answers (.readRequest stack true) s fun t => t = { s with dstacks := t.dstacks } ∧ ∃ p : BitVec 64,
      (∀ i, i < frameLines f.granule →
        p.getLsbD i = AMap.get false s.poisoned (lineKey stack.toNat (f.addr.toNat + 64 * i))) ∧
      Sets s.stack t.stack stack.toNat (((s.stack stack.toNat).taken true f rest).answered
        { frame 3 f.granule f.tag f.addr.toNat with
          data := (List.range (frameLines f.granule)).map fun i =>
            BitVec.ofNat 512 (readLe s.chsMem (64 * lineKey stack.toNat (f.addr.toNat + 64 * i)) 64)
          poison := p
          status := if p = 0 then 0 else 1 }) := by
  obtain ⟨answer, sets⟩ := sets_answered (readAnswer s stack.toNat f) (sets_setStack (s := s) rfl stack.toNat _) h room
  have zero : (BitVec.ofNat 64 (poisonFlags s stack.toNat f) = 0) ↔ poisonFlags s stack.toNat f = 0 := by
    have small := poisonFlags_lt s stack.toNat f
    constructor
    · intro none
      rw [← toNat_ofNat_of_lt small, none]
      rfl
    · intro none
      rw [none]
      rfl
  refine answers_of_eq rfl ((serveRead_clean h order aligned clean).trans answer)
    ⟨rfl, BitVec.ofNat 64 (poisonFlags s stack.toNat f), fun i line => ?_, ?_⟩
  · have few : i < 64 := line.trans_le (by unfold frameLines; split <;> decide)
    rw [BitVec.getLsbD_ofNat, poisonFlags, testBit_gather]
    simp [few, line]
  · simp only [zero]
    exact sets

/-! ### Writes -/

/-- What a line reads depends on its bytes alone. -/
theorem readBytes_congr {m m' : Mem} (n : Nat) :
    ∀ a, (∀ b, a ≤ b → b < a + n → AMap.get 0 m b = AMap.get 0 m' b) → readBytes m a n = readBytes m' a n := by
  induction n with
  | zero => exact fun _ _ => rfl
  | succ n ih =>
    intro a same
    rw [readBytes, readBytes, same a le_rfl (by omega), ih (a + 1) fun b low high => same b (by omega) (by omega)]

/-- A line of the Coachhouse, by its key, holds data and a poison flag, and no error. -/
structure LineHolds (s : State) (key : Nat) (d : BitVec 512) (poison : Bool) : Prop where
  data : readLe s.chsMem (64 * key) 64 = d.toNat
  poison : AMap.get false s.poisoned key = poison
  clean : AMap.get 0 s.symErr key = 0

theorem chsMem_stackWrite (s : State) (k loc : Nat) (d : BitVec 512) (poison both : Bool) :
    (s.stackWrite k loc d poison both).chsMem = writeLe s.chsMem (64 * lineKey k loc) 64 d.toNat := by
  unfold State.stackWrite
  dsimp only
  rw [noteWrite_rest]

theorem poisoned_eq_of_stackWrite (s : State) (k loc : Nat) (d : BitVec 512) (poison both : Bool) :
    (s.stackWrite k loc d poison both).poisoned = AMap.set false s.poisoned (lineKey k loc) poison := by
  unfold State.stackWrite
  dsimp only
  rw [noteWrite_rest]

theorem symErr_eq_of_stackWrite (s : State) (k loc : Nat) (d : BitVec 512) (poison both : Bool) :
    (s.stackWrite k loc d poison both).symErr = AMap.set 0 s.symErr (lineKey k loc) 0 := by
  unfold State.stackWrite
  dsimp only
  rw [noteWrite_rest]

/-- A byte outside a line reads as before the line was written. -/
theorem get_stackWrite_apart (s : State) (k loc : Nat) (d : BitVec 512) (poison both : Bool) {a : Nat}
    (apart : a < 64 * lineKey k loc ∨ 64 * lineKey k loc + 64 ≤ a) :
    AMap.get 0 (s.stackWrite k loc d poison both).chsMem a = AMap.get 0 s.chsMem a := by
  rw [chsMem_stackWrite]
  rcases apart with below | above
  · exact get_writeBytes_below _ _ _ _ below
  · exact get_writeBytes_above _ _ _ _ (by rw [natLe_length]; exact above)

theorem lineHolds_stackWrite (s : State) (k loc : Nat) (d : BitVec 512) (poison both : Bool) :
    LineHolds (s.stackWrite k loc d poison both) (lineKey k loc) d poison where
  data := by rw [chsMem_stackWrite, readLe_writeLe_line]
  poison := poisoned_stackWrite ..
  clean := by rw [symErr_eq_of_stackWrite, AMap.get_set_same]

theorem LineHolds.stackWrite_other {s : State} {key : Nat} {d : BitVec 512} {poison : Bool} (h : LineHolds s key d poison)
    (k loc : Nat) (e : BitVec 512) (bad both : Bool) (other : key ≠ lineKey k loc) :
    LineHolds (s.stackWrite k loc e bad both) key d poison where
  data := by
    rw [readLe, readBytes_congr 64 _ fun b low high => get_stackWrite_apart s k loc e bad both (by omega)]
    exact h.data
  poison := by rw [poisoned_eq_of_stackWrite, AMap.get_set_other _ _ _ _ _ other, h.poison]
  clean := by rw [symErr_eq_of_stackWrite, AMap.get_set_other _ _ _ _ _ other, h.clean]

/-- Lines of a frame, each with its number, written one after another from an address on. -/
def writeLines (s : State) (k addr : Nat) (poison : Nat → Bool) (both : Bool) (ls : List (BitVec 512 × Nat)) : State :=
  ls.foldl (fun s p => s.stackWrite k (addr + 64 * p.2) p.1 (poison p.2) both) s

theorem writeLines_cons (s : State) (k addr : Nat) (poison : Nat → Bool) (both : Bool) (p : BitVec 512 × Nat)
    (ls : List (BitVec 512 × Nat)) :
    writeLines s k addr poison both (p :: ls) =
      writeLines (s.stackWrite k (addr + 64 * p.2) p.1 (poison p.2) both) k addr poison both ls := rfl

theorem lineKey_line (k addr i : Nat) : lineKey k (addr + 64 * i) = lineKey k addr + i := by
  unfold lineKey
  omega

section

variable (k addr : Nat) (poison : Nat → Bool) (both : Bool)

theorem writeLines_rest (ls : List (BitVec 512 × Nat)) (s : State) :
    ∃ mem bad err pair, writeLines s k addr poison both ls =
      { s with chsMem := mem, poisoned := bad, symErr := err, pair := pair } := by
  induction ls generalizing s with
  | nil => exact ⟨_, _, _, _, rfl⟩
  | cons p ls ih =>
    obtain ⟨mem, bad, err, pair, eq⟩ := ih (s.stackWrite k (addr + 64 * p.2) p.1 (poison p.2) both)
    refine ⟨mem, bad, err, pair, eq.trans ?_⟩
    rw [stackWrite_rest]

theorem get_writeLines_apart (ls : List (BitVec 512 × Nat)) (s : State) {a : Nat}
    (apart : ∀ p ∈ ls, a < 64 * lineKey k (addr + 64 * p.2) ∨ 64 * lineKey k (addr + 64 * p.2) + 64 ≤ a) :
    AMap.get 0 (writeLines s k addr poison both ls).chsMem a = AMap.get 0 s.chsMem a := by
  induction ls generalizing s with
  | nil => rfl
  | cons p ls ih =>
    exact (ih _ fun q mem => apart q (List.mem_cons_of_mem _ mem)).trans
      (get_stackWrite_apart s _ _ _ _ _ (apart p (List.mem_cons_self ..)))

theorem LineHolds.writeLines_other {ls : List (BitVec 512 × Nat)} {s : State} {key : Nat} {d : BitVec 512} {flag : Bool}
    (h : LineHolds s key d flag) (other : ∀ p ∈ ls, key ≠ lineKey k (addr + 64 * p.2)) :
    LineHolds (writeLines s k addr poison both ls) key d flag := by
  induction ls generalizing s with
  | nil => exact h
  | cons p ls ih =>
    exact ih (h.stackWrite_other _ _ _ _ _ (other p (List.mem_cons_self ..)))
      fun q mem => other q (List.mem_cons_of_mem _ mem)

/-- Each of several lines with different numbers holds what was written to it. -/
theorem lineHolds_writeLines {ls : List (BitVec 512 × Nat)} (apart : (ls.map (·.2)).Nodup) (s : State)
    {p : BitVec 512 × Nat} (mem : p ∈ ls) :
    LineHolds (writeLines s k addr poison both ls) (lineKey k (addr + 64 * p.2)) p.1 (poison p.2) := by
  induction ls generalizing s with
  | nil => cases mem
  | cons q ls ih =>
    rw [List.map_cons, List.nodup_cons] at apart
    obtain ⟨fresh, rest⟩ := apart
    rw [writeLines_cons]
    rcases List.mem_cons.1 mem with rfl | mem
    · refine LineHolds.writeLines_other k addr poison both (lineHolds_stackWrite ..) fun r there same => fresh ?_
      rw [lineKey_line, lineKey_line, Nat.add_left_cancel_iff] at same
      exact same ▸ List.mem_map_of_mem there
    · exact ih rest _ mem

end

/-- Are the lines that a frame brings written for both of a pair (R344)? -/
def State.framePaired (s : State) (k : Nat) (f : Frame) : Bool :=
  s.pairedTag (AMap.get .none (s.stack k).txns f.tag.toNat).job

/-- The state in which a stack has taken a write and put its lines into the Coachhouse. -/
def State.frameWritten (s : State) (k : Nat) (f : Frame) (rest : List Frame) : State :=
  writeLines (s.setStack k ((s.stack k).taken true f rest)) k f.addr.toNat (fun i => f.poison.getLsbD i)
    ((s.setStack k ((s.stack k).taken true f rest)).framePaired k f) f.data.zipIdx

theorem frameWritten_rest (s : State) (k : Nat) (f : Frame) (rest : List Frame) :
    ∃ mem bad err pair, s.frameWritten k f rest =
      { s.setStack k ((s.stack k).taken true f rest) with chsMem := mem, poisoned := bad, symErr := err, pair := pair } :=
  writeLines_rest ..

theorem sets_frameWritten (s : State) (k : Nat) (f : Frame) (rest : List Frame) :
    Sets s.stack (s.frameWritten k f rest).stack k ((s.stack k).taken true f rest) := by
  obtain ⟨mem, bad, err, pair, eq⟩ := frameWritten_rest s k f rest
  exact sets_of_dstacks (sets_setStack (s := s) rfl k _) (by rw [eq])

theorem lineHolds_frameWritten (s : State) (k : Nat) {f : Frame} (rest : List Frame) {i : Nat} {d : BitVec 512}
    (at_ : f.data[i]? = some d) :
    LineHolds (s.frameWritten k f rest) (lineKey k (f.addr.toNat + 64 * i)) d (f.poison.getLsbD i) :=
  lineHolds_writeLines (p := (d, i)) k f.addr.toNat _ _ (List.nodup_zipIdx_map_snd f.data) _
    (List.mk_mem_zipIdx_iff_getElem?.2 at_)

theorem get_frameWritten_apart {s : State} {k : Nat} {f : Frame} (rest : List Frame) {a : Nat}
    (apart : ∀ i, i < f.data.length →
      a < 64 * lineKey k (f.addr.toNat + 64 * i) ∨ 64 * lineKey k (f.addr.toNat + 64 * i) + 64 ≤ a) :
    AMap.get 0 (s.frameWritten k f rest).chsMem a = AMap.get 0 s.chsMem a :=
  get_writeLines_apart _ _ _ _ _ _ fun _ mem => apart _ (List.snd_lt_of_mem_zipIdx mem)

theorem serveWrite_aligned {s : State} {k : Nat} {f : Frame} {rest : List Frame} (h : Heads s k true 2 f rest)
    (order : f.seq = (s.stack k).toStack.rxNext) (aligned : f.aligned = true) :
    s.serveWrite k true = ((s.frameWritten k f rest).answer k (frame 4 f.granule f.tag f.addr.toNat)).ackAlone k true
      ((s.stack k).dirs true).2.txSeq := by
  unfold State.serveWrite
  rw [receive_sequenced h (by decide) order]
  dsimp only
  rw [if_neg (by rw [aligned]; decide)]
  rfl

theorem writeFrame_answers {s : State} {stack : BitVec 5} {f : Frame} {rest : List Frame}
    (h : Heads s stack.toNat true 2 f rest) (order : f.seq = (s.stack stack.toNat).toStack.rxNext)
    (aligned : f.aligned = true) (lines : f.data.length = frameLines f.granule)
    (room : ((s.stack stack.toNat).toCtl.acked f.ack).room = true) :
    Answers (.writeFrame stack true) s fun t =>
      t = { s with dstacks := t.dstacks, chsMem := t.chsMem, poisoned := t.poisoned, symErr := t.symErr, pair := t.pair } ∧
      Sets s.stack t.stack stack.toNat (((s.stack stack.toNat).taken true f rest).answered
        (frame 4 f.granule f.tag f.addr.toNat)) ∧
      (∀ i d, f.data[i]? = some d → LineHolds t (lineKey stack.toNat (f.addr.toNat + 64 * i)) d (f.poison.getLsbD i)) ∧
      ∀ a, (∀ i, i < frameLines f.granule →
        a < 64 * lineKey stack.toNat (f.addr.toNat + 64 * i) ∨
          64 * lineKey stack.toNat (f.addr.toNat + 64 * i) + 64 ≤ a) →
        AMap.get 0 t.chsMem a = AMap.get 0 s.chsMem a := by
  obtain ⟨answer, sets⟩ := sets_answered (frame 4 f.granule f.tag f.addr.toNat) (sets_frameWritten s _ f rest) h room
  refine answers_of_eq rfl ((serveWrite_aligned h order aligned).trans answer)
    ⟨?_, sets, fun i d at_ => ?_, fun a apart => ?_⟩
  · obtain ⟨mem, bad, err, pair, eq⟩ := frameWritten_rest s stack.toNat f rest
    rw [eq]
    rfl
  · obtain ⟨data, flag, clean⟩ := lineHolds_frameWritten s stack.toNat rest at_
    exact ⟨data, flag, clean⟩
  · exact get_frameWritten_apart rest fun i line => apart i (lines ▸ line)

/-! ### Transactions that end -/

/-- A stack at which the transaction of a tag has ended. -/
def Stack.ended (x : Stack) (tag : Nat) : Stack := { x with txns := AMap.set .none x.txns tag .none }

/-- The controller has taken the end of a transaction from a stack, and acknowledged it alone (log entry 125). -/
def Stack.freed (x : Stack) (f : Frame) (rest : List Frame) : Stack :=
  { x with
    toCtl := { x.toCtl with wire := rest, rxNext := x.toCtl.rxNext + 1 }
    toStack := (x.toStack.acked f.ack).signal { x.toCtl with wire := rest, rxNext := x.toCtl.rxNext + 1 } 5
    txns := AMap.set .none x.txns f.tag.toNat .none }

/-- The state in which the controller has taken the end of a transaction. -/
def State.txnEnded (s : State) (k : Nat) (f : Frame) (rest : List Frame) : State :=
  (s.setStack k ((s.stack k).taken false f rest)).setStack k (((s.stack k).taken false f rest).ended f.tag.toNat)

theorem sets_txnEnded (s : State) (k : Nat) (f : Frame) (rest : List Frame) :
    Sets s.stack (s.txnEnded k f rest).stack k (((s.stack k).taken false f rest).ended f.tag.toNat) :=
  sets_setStack_of_sets (sets_setStack (s := s) rfl k _) _

@[simp] theorem strip_txnEnded (s : State) (k : Nat) (f : Frame) (rest : List Frame) (key : Nat) :
    (s.txnEnded k f rest).strip key = s.strip key := rfl

@[simp] theorem gatedBy_txnEnded (s : State) (k : Nat) (f : Frame) (rest : List Frame) (key : Nat) :
    (s.txnEnded k f rest).gatedBy key = s.gatedBy key := rfl

@[simp] theorem slotOf_txnEnded (s : State) (k : Nat) (f : Frame) (rest : List Frame) (key : Nat) (job : BitVec 16) :
    (s.txnEnded k f rest).slotOf key job = s.slotOf key job := rfl

theorem txnEnded_rest (s : State) (k : Nat) (f : Frame) (rest : List Frame) :
    s.txnEnded k f rest =
      { s with dstacks := (s.txnEnded k f rest).dstacks, strips := (s.txnEnded k f rest).strips } := by
  unfold State.txnEnded
  generalize (s.stack k).taken false f rest = y
  rfl

theorem strips_txnEnded (s : State) (k : Nat) (f : Frame) (rest : List Frame) :
    (s.txnEnded k f rest).strips = s.strips := rfl

/-- What ends a transaction of a slot's writes that slot, and is acknowledged alone. -/
theorem freed_answers {c : Instr} {s t u : State} {k key kind : Nat} {x : StreamSlot} {f : Frame} {rest : List Frame}
    (h : Heads s k false kind f rest) (run : exec c s = .next t)
    (alone : t = u.ackAlone k false ((s.stack k).dirs false).2.txSeq)
    (ended : u.dstacks = (s.txnEnded k f rest).dstacks) (written : Sets s.strip u.strip key x)
    (only : u = { s with dstacks := u.dstacks, strips := u.strips }) :
    Answers c s fun t => t = { s with dstacks := t.dstacks, strips := t.strips } ∧
      Sets s.stack t.stack k ((s.stack k).freed f rest) ∧ Sets s.strip t.strip key x := by
  have taken := sets_of_dstacks (sets_txnEnded s k f rest) ended
  have up : u.stackState k = 2 := by
    rw [only]
    exact h.up
  have acknowledged : u.ackAlone k false ((s.stack k).dirs false).2.txSeq = u.setStack k ((s.stack k).freed f rest) := by
    rw [ackAlone_unanswered up (by rw [taken.1]; exact txSeq_taken (s.stack k) false f rest), taken.1]
    rfl
  refine answers_of_eq run (alone.trans acknowledged) ⟨?_, sets_setStack_of_sets taken _, written⟩
  rw [only]
  rfl

/-! ### Entries that arrive -/

/-- A slot that entries have reached in pattern order; a control entry has no poison flag (R119). -/
def StreamSlot.delivered (x : StreamSlot) (es : List Entry) : StreamSlot :=
  { x with
    buf := x.buf ++ es.map fun e => if x.desc.net = 2 then { e with poison := false } else e
    ready := x.ready + es.length }

theorem joinEarly_next {x : StreamSlot} {es : List Entry} (none : x.early = []) (there : es ≠ []) :
    { x with early := x.early.insert x.ready es }.joinEarly (x.early.length + 1) =
      { x with buf := x.buf ++ es, ready := x.ready + es.length } := by
  have only (buf : List Entry) (ready : Nat) : { x with early := [], buf := buf, ready := ready } =
      { x with buf := buf, ready := ready } :=
    congrArg (fun l => { x with early := l, buf := buf, ready := ready }) none.symm
  obtain ⟨e, es, rfl⟩ := List.exists_cons_of_ne_nil there
  rw [none]
  simp [StreamSlot.joinEarly, AMap.insert, AMap.get, AMap.erase, only]

theorem gatedBy_setStrip (s : State) (k key : Nat) (x : StreamSlot) : (s.setStrip k x).gatedBy key = s.gatedBy key :=
  gatedBy_of_streams (State.setStrip_streams ..) key

theorem deliverEgress_next {s : State} {key : Nat} {job : BitVec 16} {es : List Entry} (mine : s.slotOf key job = true)
    (runs : (s.strip key).stopped = false) (none : (s.strip key).early = []) (there : es ≠ [])
    (gates : s.gatedBy key = []) :
    s.deliverEgress key job (s.strip key).ready es = s.setStrip key ((s.strip key).delivered es) := by
  have takes : (s.slotOf key job && !(s.strip key).stopped &&
      decide ((s.strip key).ready ≤ (s.strip key).ready)) = true := by
    simp [mine, runs]
  have control : (if (s.strip key).desc.net = 2 then es.map fun e => { e with poison := false } else es) =
      es.map fun e => if (s.strip key).desc.net = 2 then { e with poison := false } else e := by
    split <;> simp
  unfold State.deliverEgress
  dsimp only
  rw [if_pos takes, control, joinEarly_next none (by simpa using there), List.length_map]
  exact gateRead_ungated ((gatedBy_setStrip ..).trans gates)

theorem takeData_egress {s : State} {k key count off : Nat} {job : BitVec 16} {f : Frame} {rest : List Frame}
    (h : Heads s k false 3 f rest) (order : f.seq = (s.stack k).toCtl.rxNext)
    (asked : AMap.get .none (s.stack k).txns f.tag.toNat = .egress job key (s.strip key).ready count off) :
    s.takeData k true = ((s.txnEnded k f rest).deliverEgress key job (s.strip key).ready
      (entriesOf f (s.strip key).desc.size off count)).ackAlone k false ((s.stack k).dirs false).2.txSeq := by
  have same : AMap.get .none ((s.stack k).taken false f rest).txns f.tag.toNat =
      .egress job key (s.strip key).ready count off := asked
  unfold State.takeData
  rw [receive_sequenced h (by decide) order]
  dsimp only
  rw [stack_setStack_same, same]
  rfl

theorem length_entriesOf (f : Frame) (size off n : Nat) : (entriesOf f size off n).length = n := by
  rw [entriesOf, List.length_map, List.length_range]

theorem readData_answers {s : State} {stack : BitVec 5} {key count off : Nat} {job : BitVec 16} {f : Frame}
    {rest : List Frame} (h : Heads s stack.toNat false 3 f rest) (order : f.seq = (s.stack stack.toNat).toCtl.rxNext)
    (asked : AMap.get .none (s.stack stack.toNat).txns f.tag.toNat = .egress job key (s.strip key).ready count off)
    (some : 0 < count) (mine : s.slotOf key job = true) (runs : (s.strip key).stopped = false)
    (none : (s.strip key).early = []) (gates : s.gatedBy key = []) :
    Answers (.readData stack true) s fun t =>
      t = { s with dstacks := t.dstacks, strips := t.strips } ∧
      Sets s.stack t.stack stack.toNat ((s.stack stack.toNat).freed f rest) ∧
      Sets s.strip t.strip key ((s.strip key).delivered (entriesOf f (s.strip key).desc.size off count)) := by
  have there : entriesOf f (s.strip key).desc.size off count ≠ [] := by
    rw [← List.length_pos_iff, length_entriesOf]
    exact some
  have delivered := deliverEgress_next (s := s.txnEnded stack.toNat f rest) ((slotOf_txnEnded ..).trans mine) runs none there
    ((gatedBy_txnEnded ..).trans gates)
  rw [strip_txnEnded] at delivered
  have takes := takeData_egress h order asked
  rw [delivered] at takes
  exact freed_answers h rfl takes (State.setStrip_dstacks ..) (sets_setStrip (strips_txnEnded ..) key _)
    (setStrip_rest (txnEnded_rest ..) ..)

/-! ### Lines that are written -/

/-- A slot all of whose entries up to one are acknowledged. -/
def StreamSlot.ackedTo (x : StreamSlot) (upto : Nat) : StreamSlot := { x with acked := upto }

theorem joinSpans_next {x : StreamSlot} {upto : Nat} (none : x.spans = []) (some : 0 < upto) :
    { x with spans := x.spans.insert x.acked upto }.joinSpans (x.spans.length + 1) = x.ackedTo upto := by
  have only : { x with spans := [], acked := upto } = x.ackedTo upto :=
    congrArg (fun l => { x with spans := l, acked := upto }) none.symm
  obtain ⟨n, rfl⟩ := Nat.exists_eq_add_of_lt some
  rw [none, ← only]
  simp [StreamSlot.joinSpans, AMap.insert, AMap.get, AMap.erase]

theorem creditLimit_ungated {s : State} {key : Nat} (gates : s.gatedBy key = []) :
    s.creditLimit key = (s.strip key).acked := by
  unfold State.creditLimit
  rw [gates]

/-- No stream waits for a slot that gates none. -/
theorem gateWrote_ungated {s : State} {key : Nat} (gates : s.gatedBy key = []) : s.gateWrote key = s := by
  unfold State.gateWrote
  rw [gates]
  rfl

theorem sigCount_queueCredits (x : StreamSlot) (upto : Nat) : (x.queueCredits upto).sigCount = x.sigCount := by
  unfold StreamSlot.queueCredits
  dsimp only
  split <;> rfl

theorem finishStopping_runs {s : State} {slot : Nat} (runs : (s.job slot).st ≠ .stopping) : s.finishStopping slot = s := by
  refine if_neg fun h => runs ?_
  simp only [Bool.and_eq_true, decide_eq_true_eq] at h
  exact h.1.1

/-- Credits are given up to what is acknowledged; a slot without open entries closes no signature block (R344). -/
theorem giveCredits_ungated {s : State} {key : Nat} (gates : s.gatedBy key = []) (used : (s.strip key).used = true)
    (unsigned : (s.strip key).sigCount = 0) :
    s.giveCredits key = s.setStrip key ((s.strip key).queueCredits (s.strip key).acked) := by
  have closed : (s.setStrip key ((s.strip key).queueCredits (s.strip key).acked)).closeBlock key =
      s.setStrip key ((s.strip key).queueCredits (s.strip key).acked) := by
    refine if_pos ?_
    rw [strip_setStrip_same, sigCount_queueCredits, unsigned]
  unfold State.giveCredits
  dsimp only
  rw [if_pos used, creditLimit_ungated gates, closed, ite_self]

theorem ackIngress_next {s : State} {key upto : Nat} {job : BitVec 16} (mine : s.slotOf key job = true)
    (none : (s.strip key).spans = []) (some : 0 < upto) (unsigned : (s.strip key).sigCount = 0) (gates : s.gatedBy key = [])
    (runs : (s.job (s.strip key).job.toNat).st ≠ .stopping) :
    s.ackIngress key job (s.strip key).acked upto =
      (s.setStrip key ((s.strip key).ackedTo upto)).setStrip key (((s.strip key).ackedTo upto).queueCredits upto) := by
  have used : (s.strip key).used = true := by
    rw [State.slotOf, Bool.and_eq_true] at mine
    exact mine.1
  have credited := giveCredits_ungated (s := s.setStrip key ((s.strip key).ackedTo upto)) (key := key)
    (by rw [gatedBy_setStrip, gates]) (by rw [strip_setStrip_same]; exact used)
    (by rw [strip_setStrip_same]; exact unsigned)
  rw [strip_setStrip_same] at credited
  unfold State.ackIngress
  dsimp only
  rw [if_pos mine, joinSpans_next none some, credited, gateWrote_ungated (by rw [gatedBy_setStrip, gatedBy_setStrip, gates])]
  exact finishStopping_runs runs

theorem takeAck_ingress {s : State} {k key first upto : Nat} {job : BitVec 16} {f : Frame} {rest : List Frame}
    (h : Heads s k false 4 f rest) (order : f.seq = (s.stack k).toCtl.rxNext) (good : f.status ≠ 2)
    (wrote : AMap.get .none (s.stack k).txns f.tag.toNat = .ingress job key first upto) :
    s.takeAck k true =
      ((s.txnEnded k f rest).ackIngress key job first upto).ackAlone k false ((s.stack k).dirs false).2.txSeq := by
  have same : AMap.get .none ((s.stack k).taken false f rest).txns f.tag.toNat = .ingress job key first upto := wrote
  unfold State.takeAck
  rw [receive_sequenced h (by decide) order]
  dsimp only
  rw [stack_setStack_same, same]
  dsimp only
  rw [if_neg good]
  rfl

theorem writeAcknowledge_answers {s : State} {stack : BitVec 5} {key upto : Nat} {job : BitVec 16} {f : Frame}
    {rest : List Frame} (h : Heads s stack.toNat false 4 f rest) (order : f.seq = (s.stack stack.toNat).toCtl.rxNext)
    (good : f.status ≠ 2)
    (wrote : AMap.get .none (s.stack stack.toNat).txns f.tag.toNat = .ingress job key (s.strip key).acked upto)
    (some : 0 < upto) (mine : s.slotOf key job = true) (none : (s.strip key).spans = [])
    (unsigned : (s.strip key).sigCount = 0) (gates : s.gatedBy key = [])
    (runs : (s.job (s.strip key).job.toNat).st ≠ .stopping) :
    Answers (.writeAcknowledge stack true) s fun t =>
      t = { s with dstacks := t.dstacks, strips := t.strips } ∧
      Sets s.stack t.stack stack.toNat ((s.stack stack.toNat).freed f rest) ∧
      Sets s.strip t.strip key (((s.strip key).ackedTo upto).queueCredits upto) := by
  have credited := ackIngress_next (s := s.txnEnded stack.toNat f rest) ((slotOf_txnEnded ..).trans mine) none some unsigned
    ((gatedBy_txnEnded ..).trans gates) runs
  rw [strip_txnEnded] at credited
  have takes := takeAck_ingress h order good wrote
  rw [credited] at takes
  exact freed_answers h rfl takes (State.setStrip_dstacks ..)
    (sets_setStrip_of_sets (sets_setStrip (strips_txnEnded ..) key _) _)
    (setStrip_rest (setStrip_rest (txnEnded_rest ..) ..) ..)

/-! ### Frames without a number -/

theorem acknowledgeOnly_answers {s : State} {stack : BitVec 5} {toStack : Bool} {f : Frame} {rest : List Frame}
    (h : Heads s stack.toNat toStack 5 f rest) :
    Answers (.acknowledgeOnly stack toStack true) s fun t =>
      t = { s with dstacks := t.dstacks } ∧
      Sets s.stack t.stack stack.toNat ((s.stack stack.toNat).heard toStack f rest) :=
  answers_of_eq rfl (receive_signal h le_rfl _) ⟨rfl, sets_setStack rfl _ _⟩

/-- The unacknowledged frames as they are sent again, with the number of their sendings. -/
def LinkDir.again (d : LinkDir) (last : BitVec 12) : List (Frame × Nat) :=
  d.unacked.map fun p => ({ p.1 with ack := last }.sealed, p.2 + 1)

/-- A direction that has gone back to its first unacknowledged frame (R236). -/
def LinkDir.replayed (d : LinkDir) (last : BitVec 12) : LinkDir :=
  { d with
    wire := d.wire.filter (fun g => decide (5 ≤ g.kind.toNat)) ++ (d.again last).map (·.1)
    unacked := d.again last }

/-- The replay of a direction of a stack's link, counted (R236). -/
def State.replayed (s : State) (k : Nat) (toStack : Bool) : State :=
  (s.bump (Reg.CHS_LINK k) 0 16 ((s.stack k).dirs toStack).1.unacked.length).setStack k
    ((s.stack k).setDirs toStack
      (((s.stack k).dirs toStack).1.replayed (((s.stack k).dirs toStack).2.rxNext - 1)) ((s.stack k).dirs toStack).2)

/-- A replay retrains no link while no frame has gone out four times. -/
theorem replay_few {s : State} {k : Nat} {toStack : Bool} (few : ∀ p ∈ ((s.stack k).dirs toStack).1.unacked, p.2 < 4) :
    s.replay k toStack = s.replayed k toStack := by
  have calm : ¬((((s.stack k).dirs toStack).1.again (((s.stack k).dirs toStack).2.rxNext - 1)).any
      fun p => decide (p.2 ≥ 5)) = true := by
    simp only [LinkDir.again, List.any_map, List.any_eq_true, not_exists, not_and, Function.comp_apply, decide_eq_true_eq]
    exact fun p mem => by have := few p mem; omega
  have counted : (((s.stack k).dirs toStack).1.again (((s.stack k).dirs toStack).2.rxNext - 1)).length =
      ((s.stack k).dirs toStack).1.unacked.length := List.length_map ..
  unfold State.replay State.replayed
  rw [← counted]
  exact if_neg calm

theorem field_replayed (s : State) (k : Nat) (toStack : Bool) :
    (s.replayed k toStack).field (Reg.CHS_LINK k) 0 16 =
      min (s.field (Reg.CHS_LINK k) 0 16 + ((s.stack k).dirs toStack).1.unacked.length) 65535 := by
  rw [State.replayed, State.setStack_fieldAt, field_bump_same _ _ _ _ _ (by decide)]
  rfl

theorem reg_replayed (s : State) (k : Nat) (toStack : Bool) {a : Nat} (other : a ≠ Reg.CHS_LINK k) :
    (s.replayed k toStack).reg a = s.reg a := by
  rw [State.replayed, State.setStack_reg, reg_bump_other _ _ _ _ _ _ other]

theorem replayed_rest (s : State) (k : Nat) (toStack : Bool) :
    s.replayed k toStack =
      { s with regs := (s.replayed k toStack).regs, dstacks := (s.replayed k toStack).dstacks } :=
  setStack_rest (regsOnly_bump ..) _ _

theorem stack_replayed (s : State) (k : Nat) (toStack : Bool) :
    (s.replayed k toStack).stack k = (s.stack k).setDirs toStack
      (((s.stack k).dirs toStack).1.replayed (((s.stack k).dirs toStack).2.rxNext - 1)) ((s.stack k).dirs toStack).2 :=
  stack_setStack_same ..

theorem sets_replayed {s t : State} {k : Nat} {y : Stack} (h : Sets s.stack t.stack k y) (toStack : Bool) :
    Sets s.stack (t.replayed k toStack).stack k ((t.replayed k toStack).stack k) := by
  rw [stack_replayed]
  exact sets_setStack_of_sets (sets_of_dstacks h (State.bump_dstacks ..)) _

theorem dirs_heard_not (x : Stack) (toStack : Bool) (f : Frame) (rest : List Frame) :
    (x.heard toStack f rest).dirs (!toStack) =
      ((x.dirs toStack).2.acked f.ack, { (x.dirs toStack).1 with wire := rest }) :=
  dirs_setDirs_not ..

theorem setDirs_heard_not (x : Stack) (toStack : Bool) (f : Frame) (rest : List Frame) (d back : LinkDir) :
    (x.heard toStack f rest).setDirs (!toStack) back d = x.setDirs toStack d back :=
  setDirs_setDirs_not ..

theorem nak_answers {s : State} {stack : BitVec 5} {toStack : Bool} {f : Frame} {rest : List Frame}
    (h : Heads s stack.toNat toStack 6 f rest)
    (few : ∀ p ∈ (((s.stack stack.toNat).dirs toStack).2.acked f.ack).unacked, p.2 < 4) :
    Answers (.nak stack toStack true) s fun t =>
      t = { s with dstacks := t.dstacks, regs := t.regs } ∧
      t.field (Reg.CHS_LINK stack.toNat) 0 16 = min (s.field (Reg.CHS_LINK stack.toNat) 0 16 +
        (((s.stack stack.toNat).dirs toStack).2.acked f.ack).unacked.length) 65535 ∧
      (∀ a, a ≠ Reg.CHS_LINK stack.toNat → t.reg a = s.reg a) ∧
      Sets s.stack t.stack stack.toNat ((s.stack stack.toNat).setDirs toStack
        { ((s.stack stack.toNat).dirs toStack).1 with wire := rest }
        ((((s.stack stack.toNat).dirs toStack).2.acked f.ack).replayed
          (((s.stack stack.toNat).dirs toStack).1.rxNext - 1))) := by
  have heard : (s.setStack stack.toNat ((s.stack stack.toNat).heard toStack f rest)).stack stack.toNat =
      (s.stack stack.toNat).heard toStack f rest := stack_setStack_same ..
  have field := field_replayed (s.setStack stack.toNat ((s.stack stack.toNat).heard toStack f rest)) stack.toNat (!toStack)
  have sets := stack_replayed (s.setStack stack.toNat ((s.stack stack.toNat).heard toStack f rest)) stack.toNat (!toStack)
  rw [heard, dirs_heard_not] at field sets
  rw [setDirs_heard_not] at sets
  refine answers_of_eq rfl ((receive_signal h (by decide) _).trans (replay_few (by rw [heard, dirs_heard_not]; exact few)))
    ⟨?_, ?_, fun a other => ?_, ?_⟩
  · exact (replayed_rest ..).trans rfl
  · rw [field, State.setStack_fieldAt]
  · rw [reg_replayed _ _ _ other, State.setStack_reg]
  · exact sets ▸ sets_replayed (sets_setStack (s := s) rfl stack.toNat _) _

/-! ### What the frames answer -/

/-- Settles O42: each frame is received by its sequence number and CRC, served, and acknowledged by its answer or alone. -/
theorem linkFrames : Obligations.LinkFrames := by
  intro stack s f rest k x n line heads took answers atCtl freed
  have head {toStack : Bool} {kind : Nat} (h : heads toStack kind) : Heads s stack.toNat toStack kind f rest := by
    obtain ⟨up, same, intact, none, wire⟩ := h
    exact ⟨up, same, intact, none, wire⟩
  refine ⟨fun h order aligned room clean => readRequest_answers (head h) order aligned room clean,
    fun h order aligned lines room => ?_,
    fun job key count off h order asked some mine runs none gates => ?_,
    fun job key upto h order good wrote some mine none unsigned gates runs =>
      writeAcknowledge_answers (head h) order good wrote some mine none unsigned gates runs,
    fun toStack h => acknowledgeOnly_answers (head h), fun toStack h few => nak_answers (head h) few⟩
  · obtain ⟨t, run, only, answered, holds, apart⟩ := writeFrame_answers (head h) order aligned lines room
    refine ⟨t, run, only, answered, fun i d at_ => ?_, apart⟩
    obtain ⟨data, flag, clean⟩ := holds i d at_
    exact ⟨data, flag, clean⟩
  · obtain ⟨t, run, only, taken, delivered⟩ := readData_answers (head h) order asked some mine runs none gates
    rw [StreamSlot.delivered, length_entriesOf] at delivered
    exact ⟨t, run, only, taken, delivered⟩

end Sys2Proof.Machine
end

section
/-! Descriptors that run, retire and are passed over (08 R260-R265): which do, what that leaves of their ring, and that no
other ring changes. -/

namespace Sys2Proof.Machine

/-- A list each of whose members leaves a state as it is. -/
theorem foldl_eq_of_fixed {α : Type} {f : State → α → State} {s : State} {l : List α} (h : ∀ a ∈ l, f s a = s) :
    l.foldl f s = s := by
  induction l with
  | nil => rfl
  | cons a l ih =>
    rw [List.foldl_cons, h a List.mem_cons_self]
    exact ih fun b hb => h b (List.mem_cons_of_mem _ hb)

/-! ### The next descriptor -/

/-- A ring that has a next descriptor is used, fetches, and is not being destroyed. -/
theorem ring_of_next {r : Ring} {d : Desc} (h : r.next = some d) :
    r.used = true ∧ r.stopped = false ∧ r.destroyRef = none := by
  by_cases idle : (!r.used || r.stopped || r.destroyRef.isSome) = true
  · simp [Ring.next, idle] at h
  · simpa [and_assoc] using idle

/-- The next descriptor of a ring is one that it holds. -/
theorem mem_of_next {r : Ring} {d : Desc} (h : r.next = some d) : d ∈ r.descs := by
  unfold Ring.next at h
  split at h
  · cases h
  · split at h
    · cases h
    · split at h
      · cases h
      · rename_i x found
        dsimp only at h
        generalize (x.raw.getLsbD 8 && !_) = waits at h
        cases waits
        · cases h
          exact List.mem_of_find?_eq_some found
        · cases h

/-- No field fails its test where every test passes. -/
theorem firstBad_eq_none_iff {l : List (Nat × Bool)} : firstBad l = none ↔ ∀ p ∈ l, p.2 = false := by
  induction l with
  | nil => simp [firstBad]
  | cons p l ih =>
    obtain ⟨o, bad⟩ := p
    cases rest : firstBad l with
    | none =>
      have good := ih.1 rest
      cases bad
      · simpa [firstBad, rest] using good
      · simp [firstBad, rest]
    | some a =>
      have some_bad : ¬∀ p ∈ l, p.2 = false := fun all => by simp [ih.2 all] at rest
      constructor
      · intro h
        cases bad <;> simp [firstBad, rest] at h
      · exact fun all => absurd (fun p hp => all p (List.mem_cons_of_mem _ hp)) some_bad

theorem ring_started (s : State) (rn : Nat) (d : Desc) :
    (started s rn d).ring rn = { s.ring rn with
      descs := (s.ring rn).descs.map fun x => if x.idx = d.idx then { x with phase := .started } else x } :=
  ring_setRing_same _ _ _

theorem ring_started_other (s : State) {rn k : Nat} (d : Desc) (h : k ≠ rn) : (started s rn d).ring k = s.ring k :=
  ring_setRing_other _ _ _ _ h

/-- A descriptor that starts changes of every ring only what it holds. -/
theorem ring_started_eq (s : State) (rn : Nat) (d : Desc) (k : Nat) :
    (started s rn d).ring k = { s.ring k with descs := ((started s rn d).ring k).descs } := by
  by_cases e : k = rn
  · subst e
    rw [ring_started]
  · rw [ring_started_other s d e]

/-- A ring that is listed once a descriptor of a ring in use has started was listed before. -/
theorem mem_rings_started {s : State} {rn : Nat} (used : (s.ring rn).used = true) (d : Desc) {k : Nat} {x : Ring}
    (h : (k, x) ∈ (started s rn d).rings) : ∃ y, (k, y) ∈ s.rings ∧ x = { y with descs := x.descs } := by
  have listed : (rn, s.ring rn) ∈ s.rings := AMap.mem_of_get_ne fun e => by
    have unused : (s.ring rn).used = false := by rw [State.ring, e]
    simp [used] at unused
  have written : (started s rn d).rings = AMap.set {} s.rings rn ((started s rn d).ring rn) := by
    rw [ring_started]
    rfl
  rw [written, AMap.set] at h
  split at h
  · exact ⟨x, mem_erase _ _ _ h, rfl⟩
  · rcases mem_insert _ _ _ _ h with e | h
    · cases e
      exact ⟨_, listed, ring_started_eq s rn d rn⟩
    · exact ⟨x, h, rfl⟩

/-- What runs where a descriptor starts: its refusal at its first bad field, or its effect. -/
theorem runDesc_of_starts {s : State} {rn op : Nat} {d : Desc} (h : Starts s rn op d)
    (tests : State → Ring → Desc → List (Nat × Bool)) (act : State → DescRef → Ring → Desc → State) :
    s.runDesc rn op tests act =
      match firstBad (d.reservedTests ++ tests (started s rn d) (s.ring rn) d) with
      | some o => (started s rn d).complete (refOf rn d) 0x02 ((started s rn d).descTag d) o
      | none => (act (started s rn d) (refOf rn d) (s.ring rn) d).settleRing rn := by
  obtain ⟨next, opcode, kind, -⟩ := h
  have same : (d.opcode != op) = false := by simp [opcode]
  have ownKind : (op != 0 && ((s.ring rn).loc == 0#16) != decide (op ≤ 4)) = false := by
    rcases kind with rfl | kind
    · rfl
    · by_cases small : op ≤ 4
      · simp [small, kind.2 small]
      · have loc : (s.ring rn).loc ≠ 0#16 := fun e => small (kind.1 e)
        simp [small, loc]
  simp only [State.runDesc, State.runDescAfter, next, same, ownKind, Bool.false_eq_true, if_false]
  rfl

/-- A descriptor whose fields pass their tests acts. -/
theorem runDesc_acts {s : State} {rn op : Nat} {d : Desc} (h : Starts s rn op d)
    {tests : State → Ring → Desc → List (Nat × Bool)} (act : State → DescRef → Ring → Desc → State)
    (ok : ∀ p ∈ tests (started s rn d) (s.ring rn) d, p.2 = false) :
    s.runDesc rn op tests act = (act (started s rn d) (refOf rn d) (s.ring rn) d).settleRing rn := by
  have good : firstBad (d.reservedTests ++ tests (started s rn d) (s.ring rn) d) = none :=
    firstBad_eq_none_iff.2 fun p hp => (List.mem_append.1 hp).elim (h.clean p) (ok p)
  rw [runDesc_of_starts h, good]

/-- A descriptor with a bad field completes with status 0x02 at a field. -/
theorem runDesc_refused {s : State} {rn op : Nat} {d : Desc} (h : Starts s rn op d)
    {tests : State → Ring → Desc → List (Nat × Bool)} (act : State → DescRef → Ring → Desc → State)
    {p : Nat × Bool} (hp : p ∈ tests (started s rn d) (s.ring rn) d) (bad : p.2 = true) :
    ∃ o, s.runDesc rn op tests act = (started s rn d).complete (refOf rn d) 0x02 ((started s rn d).descTag d) o := by
  rw [runDesc_of_starts h]
  cases first : firstBad (d.reservedTests ++ tests (started s rn d) (s.ring rn) d) with
  | some o => exact ⟨o, rfl⟩
  | none =>
    have good := firstBad_eq_none_iff.1 first p (List.mem_append_right _ hp)
    simp [bad] at good

/-! ### Nothing to retire -/

/-- A ring none of whose descriptors is done retires none. -/
theorem retireRing_of_open {s : State} {rn : Nat}
    (h : ∀ x ∈ (s.ring rn).descs, x.phase = .fetched ∨ x.phase = .started) (n : Nat) : s.retireRing rn n = s := by
  cases n with
  | zero => rfl
  | succ n =>
    cases held : (s.ring rn).descs with
    | nil => simp [State.retireRing, held]
    | cons x rest =>
      have phase := h x (by simp [held])
      rcases phase with phase | phase <;> simp [State.retireRing, held, phase]

/-- A ring that holds known opcodes only passes over none. -/
theorem skipReserved_of_known {s : State} {rn : Nat} (h : ∀ x ∈ (s.ring rn).descs, opcodeKnown x.opcode = true) (n : Nat) :
    s.skipReserved rn n = s := by
  cases n with
  | zero => rfl
  | succ n =>
    cases turn : (s.ring rn).next with
    | none => simp [State.skipReserved, turn]
    | some d => simp [State.skipReserved, turn, h d (mem_of_next turn)]

/-- A ring that is not being destroyed stays. -/
theorem finishDestroy_of_none {s : State} {rn : Nat} (h : (s.ring rn).destroyRef = none) : s.finishDestroy rn = s := by
  simp [State.finishDestroy, h]

/-- A ring with nothing done, no reserved opcode and no destruction under way is settled. -/
theorem settleRing_of_open {s : State} {rn : Nat}
    (undone : ∀ x ∈ (s.ring rn).descs, x.phase = .fetched ∨ x.phase = .started)
    (known : ∀ x ∈ (s.ring rn).descs, opcodeKnown x.opcode = true) (stays : (s.ring rn).destroyRef = none) :
    s.settleRing rn = s := by
  simp only [State.settleRing, retireRing_of_open undone, skipReserved_of_known known, finishDestroy_of_none stays]

theorem settleRing_of_empty {s : State} {rn : Nat} (empty : (s.ring rn).descs = [])
    (stays : (s.ring rn).destroyRef = none) : s.settleRing rn = s :=
  settleRing_of_open (by simp [empty]) (by simp [empty]) stays

/-! ### What retirement leaves of the rings -/

/-- One ring alone may change, and of it only what it holds, has retired and has not signalled. -/
structure RetiresOn (rn : Nat) (s t : State) : Prop where
  others : ∀ k, k ≠ rn → t.ring k = s.ring k
  own : t.ring rn = { s.ring rn with
    descs := (t.ring rn).descs, retired := (t.ring rn).retired
    unsignalled := (t.ring rn).unsignalled, firstUnsig := (t.ring rn).firstUnsig }

theorem retiresOn_of_rings {rn : Nat} {s t : State} (h : t.rings = s.rings) : RetiresOn rn s t := by
  have same (k : Nat) : t.ring k = s.ring k := by rw [State.ring, h]; rfl
  exact ⟨fun k _ => same k, by rw [same]⟩

theorem RetiresOn.refl (rn : Nat) (s : State) : RetiresOn rn s s := retiresOn_of_rings rfl

theorem RetiresOn.trans {rn : Nat} {s t u : State} (a : RetiresOn rn s t) (b : RetiresOn rn t u) : RetiresOn rn s u :=
  ⟨fun k hk => (b.others k hk).trans (a.others k hk), by rw [b.own, a.own]⟩

theorem retiresOn_setRing (s : State) (rn : Nat) (ds : List Desc) (n m first : Nat) :
    RetiresOn rn s (s.setRing rn { s.ring rn with descs := ds, retired := n, unsignalled := m, firstUnsig := first }) :=
  ⟨fun _ hk => ring_setRing_other _ _ _ _ hk, by rw [ring_setRing_same]⟩

theorem retiresOn_markDone (s : State) (ref : DescRef) (st : Byte) (tag : BitVec 16) (det : BitVec 32) :
    RetiresOn ref.ring.toNat s (s.markDone ref st tag det) := retiresOn_setRing ..

/-- A completion entry written changes of its ring what it has not signalled, and no other ring. -/
theorem ring_writeEntry (s : State) (rn idx : Nat) (entry : BitVec 256) (irq : Bool) :
    ∃ n first, Sets s.ring (s.writeEntry rn idx entry irq).ring rn { s.ring rn with unsignalled := n, firstUnsig := first } := by
  have written : ∀ (t : State) (n first : Nat),
      t.rings = (s.setRing rn { s.ring rn with unsignalled := n, firstUnsig := first }).rings →
      Sets s.ring t.ring rn { s.ring rn with unsignalled := n, firstUnsig := first } := by
    intro t n first h
    refine ⟨?_, fun k hk => ?_⟩
    · rw [State.ring, h]; exact ring_setRing_same ..
    · rw [State.ring, h]; exact ring_setRing_other _ _ _ _ hk
  unfold State.writeEntry
  dsimp only
  split
  · exact ⟨_, _, rfl, fun _ _ => rfl⟩
  · split
    · exact ⟨_, _, written _ _ _ (rings_signalVector ..)⟩
    · exact ⟨_, _, written _ _ _ rfl⟩

theorem retiresOn_writeEntry (s : State) (rn idx : Nat) (entry : BitVec 256) (irq : Bool) :
    RetiresOn rn s (s.writeEntry rn idx entry irq) := by
  obtain ⟨n, first, own, others⟩ := ring_writeEntry s rn idx entry irq
  exact ⟨others, by rw [own]⟩

theorem retiresOn_writeCompletion (s : State) (rn : Nat) (d : Desc) (st : Byte) (tag : BitVec 16) (det : BitVec 32) :
    RetiresOn rn s (s.writeCompletion rn d st tag det) := by
  have led : ∀ (u : State) (e : BitVec 256) (irq : Bool) (arg : Nat), u.rings = s.rings → RetiresOn rn s
      (if (u.writeEntry rn d.idx e irq).pairState = 2 || (u.writeEntry rn d.idx e irq).pairState = 7 then
        (u.writeEntry rn d.idx e irq).sendPair 0x23 0 arg [] else u.writeEntry rn d.idx e irq) := by
    intro u e irq arg hu
    have written := (retiresOn_of_rings hu).trans (retiresOn_writeEntry u rn d.idx e irq)
    split
    · exact written.trans (retiresOn_of_rings (rings_sendPair ..))
    · exact written
  unfold State.writeCompletion
  dsimp only
  split
  · split
    · exact RetiresOn.refl rn s
    · split
      all_goals
        split
        · split <;> exact retiresOn_of_rings rfl
        · exact led _ _ _ _ rfl
  · exact retiresOn_writeEntry ..

theorem retiresOn_retireRing (s : State) (rn n : Nat) : RetiresOn rn s (s.retireRing rn n) := by
  induction n generalizing s with
  | zero => exact RetiresOn.refl rn s
  | succ n ih =>
    unfold State.retireRing
    split
    · split
      · refine RetiresOn.trans ?_ (ih _)
        refine RetiresOn.trans ?_ (retiresOn_of_rings (rings_tagsRetire ..))
        exact (retiresOn_writeCompletion ..).trans (retiresOn_setRing ..)
      · exact RetiresOn.refl rn s
    · exact RetiresOn.refl rn s

theorem retiresOn_skipReserved (s : State) (ring : BitVec 16) (n : Nat) :
    RetiresOn ring.toNat s (s.skipReserved ring.toNat n) := by
  induction n generalizing s with
  | zero => exact RetiresOn.refl _ s
  | succ n ih =>
    have marked (d : Desc) : RetiresOn ring.toNat s
        (s.markDone { ring := BitVec.ofNat 16 ring.toNat, idx := d.idx } 0x02 0 0) := by
      rw [BitVec.ofNat_toNat, BitVec.setWidth_eq]
      exact retiresOn_markDone s ⟨ring, d.idx⟩ ..
    unfold State.skipReserved
    split
    · split
      · exact RetiresOn.refl _ s
      · exact ((marked _).trans (retiresOn_retireRing ..)).trans (ih _)
    · exact RetiresOn.refl _ s

/-- A ring that retires stays where it was, or goes on being destroyed. -/
theorem RetiresOn.destroyRef {rn : Nat} {s t : State} (h : RetiresOn rn s t) :
    (t.ring rn).destroyRef = (s.ring rn).destroyRef := by
  rw [h.own]

/-- A ring that is not being destroyed settles without touching another. -/
theorem retiresOn_settleRing {s : State} {ring : BitVec 16} (stays : (s.ring ring.toNat).destroyRef = none) :
    RetiresOn ring.toNat s (s.settleRing ring.toNat) := by
  have settled := (retiresOn_retireRing s ring.toNat (s.ring ring.toNat).descs.length).trans
    (retiresOn_skipReserved _ ring (((s.retireRing ring.toNat (s.ring ring.toNat).descs.length).ring ring.toNat).descs.length))
  unfold State.settleRing
  dsimp only
  rw [finishDestroy_of_none (settled.destroyRef.trans stays)]
  exact settled

/-- A completion on a ring that is not being destroyed touches no other ring. -/
theorem retiresOn_complete {s : State} {ref : DescRef} (stays : (s.ring ref.ring.toNat).destroyRef = none) (st : Nat)
    (tag : BitVec 16) (det : Nat) : RetiresOn ref.ring.toNat s (s.complete ref st tag det) := by
  have marked := retiresOn_markDone s ref (BitVec.ofNat 8 st) tag (BitVec.ofNat 32 det)
  exact marked.trans (retiresOn_settleRing (marked.destroyRef.trans stays))

/-- A ring that retirement leaves is used where it was. -/
theorem RetiresOn.used {rn : Nat} {s t : State} (h : RetiresOn rn s t) (k : Nat) : (t.ring k).used = (s.ring k).used := by
  by_cases e : k = rn
  · subst e
    rw [h.own]
  · rw [h.others k e]

/-! ### One completion written -/

theorem hostMem_foldl {α : Type} (f : State → α → State) (h : ∀ s x, (f s x).hostMem = s.hostMem) (l : List α) (s : State) :
    (l.foldl f s).hostMem = s.hostMem := by
  induction l generalizing s with
  | nil => rfl
  | cons a l ih => rw [List.foldl_cons, ih, h]

theorem hostMem_signalVector (s : State) (p : Bool) (fn vec : Nat) : (s.signalVector p fn vec).hostMem = s.hostMem := by
  unfold State.signalVector
  dsimp only
  split <;> rfl

theorem hostMem_sendMsg (s : State) (port chan kind flags key arg : Nat) (body : List Seg) :
    (s.sendMsg port chan kind flags key arg body).hostMem = s.hostMem := by
  unfold State.sendMsg
  dsimp only
  split <;> rfl

theorem hostMem_matchOpen (s : State) (k : Nat) : (s.matchOpen k).hostMem = s.hostMem := by
  unfold State.matchOpen
  dsimp only
  split
  · split
    · split
      · exact hostMem_sendMsg ..
      · rfl
    · rfl
  · rfl

theorem hostMem_openStreams (s : State) (slot : Nat) : (s.openStreams slot).hostMem = s.hostMem := by
  refine hostMem_foldl _ (fun s k => ?_) _ _
  dsimp only
  split
  · exact hostMem_matchOpen ..
  · exact hostMem_sendMsg ..

theorem hostMem_tagsRetire (s : State) (ref : DescRef) : (s.tagsRetire ref).hostMem = s.hostMem := by
  refine hostMem_foldl _ (fun s k => ?_) _ _
  dsimp only
  split
  · split
    · exact hostMem_openStreams ..
    · rfl
  · rfl

theorem hostMem_writeEntry (s : State) (rn idx : Nat) (entry : BitVec 256) (irq : Bool) :
    (s.writeEntry rn idx entry irq).hostMem =
      writeLe s.hostMem ((s.ring rn).cplBase.toNat + 32 * (idx % 2 ^ (s.ring rn).log2)) 32 entry.toNat := by
  unfold State.writeEntry
  dsimp only
  split
  · rfl
  · split
    · exact hostMem_signalVector ..
    · rfl

/-- What a completion entry's 32 bytes read after they were written. -/
theorem readLe_writeLe_entry (m : Mem) (a : Nat) (entry : BitVec 256) :
    readLe (writeLe m a 32 entry.toNat) a 32 = entry.toNat := by
  have bits : 256 ^ 32 = 2 ^ 256 := by norm_num
  rw [readLe_writeLe, bits, Nat.mod_eq_of_lt entry.isLt]

/-- A ring outside a pair whose only descriptor is done retires it, and its completion stands in its slot (R262, R263). -/
theorem retireRing_single {s : State} {rn : Nat} {d : Desc} {st : Byte} {tag : BitVec 16} {det : BitVec 32}
    (held : (s.ring rn).descs = [d]) (done : d.phase = .done st tag det) (alone : s.pairedRing rn = false) :
    ((s.retireRing rn 1).ring rn).descs = [] ∧ ((s.retireRing rn 1).ring rn).retired = (s.ring rn).retired + 1 ∧
      readLe (s.retireRing rn 1).hostMem ((s.ring rn).cplBase.toNat + 32 * (d.idx % 2 ^ (s.ring rn).log2)) 32 =
        (completionEntry (d.raw.extractLsb' 64 64).toNat d.idx st tag det s.ms (s.ring rn).log2).toNat := by
  let entry := completionEntry (d.raw.extractLsb' 64 64).toNat d.idx st tag det s.ms (s.ring rn).log2
  let w := s.writeEntry rn d.idx entry (d.raw.getLsbD 9)
  have retires : s.retireRing rn 1 = (w.setRing rn { w.ring rn with descs := [], retired := (w.ring rn).retired + 1 }).tagsRetire
      { ring := BitVec.ofNat 16 rn, idx := d.idx } := by
    simp only [State.retireRing, held, done, State.writeCompletion, alone, Bool.false_eq_true, if_false, w, entry]
  have ring : (s.retireRing rn 1).ring rn = { w.ring rn with descs := [], retired := (w.ring rn).retired + 1 } := by
    rw [retires, State.ring, rings_tagsRetire]
    exact ring_setRing_same ..
  have count : (w.ring rn).retired = (s.ring rn).retired := by
    obtain ⟨n, first, own, -⟩ := ring_writeEntry s rn d.idx entry (d.raw.getLsbD 9)
    have same := congrArg Ring.retired own
    exact same
  refine ⟨by rw [ring], by rw [ring]; exact congrArg (· + 1) count, ?_⟩
  rw [retires, hostMem_tagsRetire]
  exact (congrArg (readLe · _ 32) (hostMem_writeEntry ..)).trans (readLe_writeLe_entry ..)

end Sys2Proof.Machine
end

section
/-! Descriptors fetched, NOP, and messages of vectors (08 R258, R261-R264, R269, R270). -/

namespace Sys2Proof.Machine

/-! ### A ring error (R270) -/

/-- A ring that stops with an error, which its function's registers show. -/
def State.errorShown (s : State) (rn code : Nat) : State :=
  let r := s.ring rn
  let fn := r.fn.toNat
  let s := s.setRing rn { r with stopped := true }
  let s := (s.setFnField fn Reg.HIF_STATUS 2 1 1).fnBump fn Reg.HIF_ERR_COUNT 16 16 1
  if s.fnField fn Reg.HIF_RING_ERR 31 1 = 0 then
    s.setFnReg fn Reg.HIF_RING_ERR (BitVec.ofNat 32 (r.loc.toNat + 2 ^ 16 * code + 2 ^ 31))
  else s

/-- The error words of a doorbell area. -/
def errorWords (m : Mem) (base loc code n ms : Nat) : Mem :=
  writeLe (writeLe (writeLe (writeLe m (base + 200) 2 loc) (base + 202) 2 code) (base + 204) 4 n) (base + 208) 8 ms

/-- A ring error counted by its function, and noted in the doorbell area where the doorbell port is up. -/
def State.errorNoted (s : State) (fn loc code : Nat) : State :=
  let n := (s.fn fn).errCount + 1
  let s := s.setFn fn { s.fn fn with errCount := n }
  if s.hostPortUp (s.dbPort fn) then
    { s with hostMem := errorWords s.hostMem (s.dbBase fn) loc code n.toNat s.ms }
  else s

/-- A ring error in its steps. -/
theorem ringError_eq (s : State) (rn code : Nat) (evidence : Bool) :
    s.ringError rn code evidence =
      (((s.errorShown rn code).errorNoted (s.ring rn).fn.toNat (s.ring rn).loc.toNat code).signalZero
        (s.ring rn).fn.toNat).logMarked evidence (srcHostPort (s.ring rn).port) 0x0B code
        ((s.ring rn).loc.toNat + 2 ^ 16 * (s.ring rn).fn.toNat) 0 0 := rfl

theorem rings_errorShown (s : State) (rn code : Nat) :
    (s.errorShown rn code).rings = (s.setRing rn { s.ring rn with stopped := true }).rings := by
  unfold State.errorShown
  dsimp only
  split <;> rfl

theorem rings_errorNoted (s : State) (fn loc code : Nat) : (s.errorNoted fn loc code).rings = s.rings := by
  unfold State.errorNoted
  dsimp only
  split <;> rfl

/-- A ring error stops its ring, and changes nothing else of any ring. -/
theorem rings_ringError (s : State) (rn code : Nat) (evidence : Bool) :
    (s.ringError rn code evidence).rings = (s.setRing rn { s.ring rn with stopped := true }).rings := by
  rw [ringError_eq, rings_logMarked, rings_signalZero, rings_errorNoted, rings_errorShown]

theorem ring_ringError_same (s : State) (rn code : Nat) (evidence : Bool) :
    (s.ringError rn code evidence).ring rn = { s.ring rn with stopped := true } := by
  rw [State.ring, rings_ringError]
  exact ring_setRing_same ..

theorem ring_ringError_other (s : State) {rn k : Nat} (code : Nat) (evidence : Bool) (h : k ≠ rn) :
    (s.ringError rn code evidence).ring k = s.ring k := by
  rw [State.ring, rings_ringError]
  exact ring_setRing_other _ _ _ _ h

/-! ### Fetching (R258, R261) -/

/-- May the next descriptor of a ring be fetched? -/
structure Fetches (s : State) (rn : Nat) : Prop where
  used : (s.ring rn).used = true
  runs : (s.ring rn).stopped = false
  stays : (s.ring rn).destroyRef = none
  new : (s.ring rn).ci % 2 ^ 32 ≠ (s.ring rn).piSeen
  room : (s.ring rn).descs.length < 256
  free : s.fetchHeld rn = false
  function : s.fnField (s.ring rn).fn.toNat Reg.HIF_FN_CTRL 0 1 = 1

/-- The descriptor that a ring fetches next. -/
def fetchedDesc (s : State) (rn : Nat) : Desc where
  idx := (s.ring rn).ci
  raw := BitVec.ofNat 512
    (readLe s.hostMem ((s.ring rn).descBase.toNat + 64 * ((s.ring rn).ci % 2 ^ (s.ring rn).log2)) 64)
  phase := .fetched

/-- A ring that has fetched its next descriptor. -/
def State.fetched (s : State) (rn : Nat) : State :=
  s.setRing rn { s.ring rn with ci := (s.ring rn).ci + 1, descs := (s.ring rn).descs ++ [fetchedDesc s rn] }

/-- A fetch whose read fails is a ring error (R270); another enters the descriptor, and the ring settles. -/
theorem descriptorFetch_eq {s : State} {rn : Nat} (h : Fetches s rn) (good : Bool) :
    s.descriptorFetch rn good = bif good then (s.fetched rn).settleRing rn else s.ringError rn 0x02 := by
  obtain ⟨used, runs, stays, new, room, free, function⟩ := h
  have few : ¬256 ≤ (s.ring rn).descs.length := Nat.not_le.2 room
  have differs : ¬(s.ring rn).ci % 4294967296 = (s.ring rn).piSeen := new
  cases good
  · simp [State.descriptorFetch, used, runs, stays, differs, few, free, function]
  · simp [State.descriptorFetch, used, runs, stays, differs, few, free, function, State.fetched, fetchedDesc]

/-- A fetch on a ring with nothing done and known opcodes only. -/
theorem descriptorFetch_open {s : State} {rn : Nat} (h : Fetches s rn)
    (undone : ∀ x ∈ (s.ring rn).descs, x.phase = .fetched ∨ x.phase = .started)
    (known : ∀ x ∈ (s.ring rn).descs ++ [fetchedDesc s rn], opcodeKnown x.opcode = true) :
    s.descriptorFetch rn true = s.fetched rn := by
  have ring : (s.fetched rn).ring rn =
      { s.ring rn with ci := (s.ring rn).ci + 1, descs := (s.ring rn).descs ++ [fetchedDesc s rn] } := ring_setRing_same ..
  rw [descriptorFetch_eq h, cond_true]
  refine settleRing_of_open ?_ (by rw [ring]; exact known) (by rw [ring]; exact h.stays)
  rw [ring]
  intro x hx
  rcases List.mem_append.1 hx with hx | hx
  · exact undone x hx
  · rw [List.mem_singleton.1 hx]
    exact .inl rfl

/-! ### NOP (R264) -/

theorem nopDesc_of_starts {s : State} {rn : Nat} {d : Desc} (h : Starts s rn 0 d) :
    s.nopDesc rn = ((started s rn d).complete (refOf rn d) 0 0 0).settleRing rn :=
  runDesc_acts h _ fun _ hp => nomatch hp

/-- The reference of a descriptor of a ring names the ring. -/
theorem refOf_ring (ring : BitVec 16) (d : Desc) : (refOf ring.toNat d).ring = ring := by
  simp [refOf]

/-- The ring's only descriptor, once its NOP is marked done. -/
theorem ring_markDone_started {s : State} {ring : BitVec 16} {d : Desc} (only : (s.ring ring.toNat).descs = [d])
    (st : Byte) (tag : BitVec 16) (det : BitVec 32) :
    ((started s ring.toNat d).markDone (refOf ring.toNat d) st tag det).ring ring.toNat =
      { s.ring ring.toNat with descs := [{ d with phase := .done st tag det }] } := by
  have idx : (refOf ring.toNat d).idx = d.idx := rfl
  simp [State.markDone, refOf_ring, idx, ring_started, only]

/-- A NOP that is its ring's only descriptor, outside a pair: it retires and its completion stands in its slot. -/
theorem nop_single {s : State} {ring : BitVec 16} {d : Desc} (h : Starts s ring.toNat 0 d)
    (only : (s.ring ring.toNat).descs = [d]) (alone : s.pairedRing ring.toNat = false) :
    ((s.nopDesc ring.toNat).ring ring.toNat).descs = [] ∧
      ((s.nopDesc ring.toNat).ring ring.toNat).retired = (s.ring ring.toNat).retired + 1 ∧
      readLe (s.nopDesc ring.toNat).hostMem
          ((s.ring ring.toNat).cplBase.toNat + 32 * (d.idx % 2 ^ (s.ring ring.toNat).log2)) 32 =
        (completionEntry (d.raw.extractLsb' 64 64).toNat d.idx 0 0 0 s.ms (s.ring ring.toNat).log2).toNat := by
  let v := (started s ring.toNat d).markDone (refOf ring.toNat d) 0 0 0
  have mine : v.ring ring.toNat = { s.ring ring.toNat with descs := [{ d with phase := .done 0 0 0 }] } :=
    ring_markDone_started only 0 0 0
  have facts := retireRing_single (s := v) (rn := ring.toNat) (by rw [mine]) rfl alone
  have stays : ((v.retireRing ring.toNat 1).ring ring.toNat).destroyRef = none := by
    rw [(retiresOn_retireRing v ring.toNat 1).destroyRef, mine]
    exact (ring_of_next h.next).2.2
  have settles : v.settleRing ring.toNat = v.retireRing ring.toNat 1 := by
    have count : (v.ring ring.toNat).descs.length = 1 := by rw [mine]; rfl
    have known : ∀ n, (v.retireRing ring.toNat 1).skipReserved ring.toNat n = v.retireRing ring.toNat 1 :=
      skipReserved_of_known (by simp [facts.1])
    simp only [State.settleRing, count, known, finishDestroy_of_none stays]
  have all : s.nopDesc ring.toNat = v.retireRing ring.toNat 1 := by
    have completes : (started s ring.toNat d).complete (refOf ring.toNat d) 0 0 0 = v.settleRing ring.toNat := by
      rw [State.complete, refOf_ring]
      rfl
    rw [nopDesc_of_starts h, completes, settles, settleRing_of_empty facts.1 stays]
  rw [mine] at facts
  rw [all]
  exact facts

/-! ### Messages (R269) -/

/-- A vector that is not masked sends its message; a masked one becomes pending. -/
theorem signalVector_eq (s : State) (port : Bool) (fn : BitVec 6) (vec : Nat) :
    s.signalVector port fn.toNat vec =
      if AMap.get false s.msixOpen (vectorKey port fn.toNat vec) then s.send (.msix port fn (BitVec.ofNat 5 vec))
      else { s with msixPend := AMap.set false s.msixPend (vectorKey port fn.toNat vec) true } := by
  unfold State.signalVector
  dsimp only
  rw [BitVec.ofNat_toNat, BitVec.setWidth_eq]
  cases AMap.get false s.msixOpen (vectorKey port fn.toNat vec) <;> rfl

/-- A ring whose coalesced message falls due: it counts completions, its vector may signal, its port is up. -/
structure Coalesces (s : State) (rn : Nat) (r : Ring) : Prop where
  ring : s.ring rn = r
  used : r.used = true
  counts : r.unsignalled ≠ 0
  timed : r.coalTime ≠ 0#16
  signals : r.vector ≠ 0xFF#8
  up : s.hostPortUp r.port = true
  loud : s.quietRing rn = false

theorem coalesceTimer_eq {s : State} {rn : Nat} {r : Ring} (h : Coalesces s rn r) :
    s.coalesceTimer rn = ((s.advanceTo (r.firstUnsig + 1000 * r.coalTime.toNat)).setRing rn
      { r with unsignalled := 0 }).signalVector r.port r.fn.toNat (r.vector.toNat % 32) := by
  obtain ⟨rfl, used, counts, timed, signals, up, loud⟩ := h
  simp [State.coalesceTimer, used, counts, timed, signals, up, loud]

/-- COALESCE_TIMER where it acts: time moves to when the message is due, and the vector is signalled. -/
theorem coalesceTimer_answers {s : State} {ring : BitVec 16} {r : Ring} (h : Coalesces s ring.toNat r) :
    Answers (.coalesceTimer ring) s fun t =>
      t.ms = max s.ms (r.firstUnsig + 1000 * r.coalTime.toNat) ∧
      Sets s.ring t.ring ring.toNat { r with unsignalled := 0 } ∧
      t = { s with ms := t.ms, msOff := t.msOff, up := t.up, man := t.man, rings := t.rings, sent := t.sent,
                   msixPend := t.msixPend } ∧
      (if AMap.get false s.msixOpen (vectorKey r.port r.fn.toNat (r.vector.toNat % 32)) then
        t.sent = .msix r.port r.fn (BitVec.ofNat 5 (r.vector.toNat % 32)) :: s.sent ∧ t.msixPend = s.msixPend
      else AMap.get false t.msixPend (vectorKey r.port r.fn.toNat (r.vector.toNat % 32)) = true ∧ t.sent = s.sent) := by
  refine answers_of_eq rfl (coalesceTimer_eq h) ?_
  generalize r.firstUnsig + 1000 * r.coalTime.toNat = due
  generalize hv : (s.advanceTo due).setRing ring.toNat { r with unsignalled := 0 } = v
  have time : v.ms = max s.ms due := by rw [← hv]; exact advanceTo_ms s due
  have sets : Sets s.ring v.ring ring.toNat { r with unsignalled := 0 } := by
    rw [← hv]
    exact ⟨ring_setRing_same .., fun k hk => (ring_setRing_other _ _ _ _ hk).trans (State.advanceTo_ringAt s due k)⟩
  have moved : v = { s with ms := v.ms, msOff := v.msOff, up := v.up, man := v.man, rings := v.rings } := by
    rw [← hv, advanceTo_eq]
    rfl
  have masks : v.msixOpen = s.msixOpen := by rw [moved]
  have pends : v.msixPend = s.msixPend := by rw [moved]
  have sent : v.sent = s.sent := by rw [moved]
  rw [signalVector_eq, masks]
  split
  · refine ⟨time, sets, ?_, congrArg _ sent, pends⟩
    rw [moved]
    rfl
  · refine ⟨time, sets, ?_, AMap.get_set_same false v.msixPend _ true, sent⟩
    rw [moved]

/-- VECTOR_UNMASK where it is not quiet: a pending vector sends its one message. -/
theorem vectorUnmask_answers {s : State} {port : Bool} {fn : BitVec 6} {vec : BitVec 5}
    (loud : s.quietVector port fn.toNat vec.toNat = false) :
    Answers (.vectorUnmask port fn vec) s fun t =>
      AMap.get false t.msixOpen (vectorKey port fn.toNat vec.toNat) = true ∧
      t = { s with msixOpen := t.msixOpen, msixPend := t.msixPend, sent := t.sent } ∧
      (AMap.get false s.msixPend (vectorKey port fn.toNat vec.toNat) = true →
        t.sent = .msix port fn vec :: s.sent ∧ AMap.get false t.msixPend (vectorKey port fn.toNat vec.toNat) = false) ∧
      (AMap.get false s.msixPend (vectorKey port fn.toNat vec.toNat) = false →
        t.sent = s.sent ∧ t.msixPend = s.msixPend) := by
  refine ⟨_, rfl, ?_⟩
  generalize key : vectorKey port fn.toNat vec.toNat = k
  have loud' : ({ s with msixOpen := AMap.set false s.msixOpen k true } : State).quietVector port fn.toNat vec.toNat = false :=
    loud
  have opened := AMap.get_set_same false s.msixOpen k true
  cases pend : AMap.get false s.msixPend k with
  | true =>
    have sends : s.vectorUnmask port fn.toNat vec.toNat =
        { s with msixOpen := AMap.set false s.msixOpen k true, msixPend := AMap.set false s.msixPend k false,
                 sent := .msix port fn vec :: s.sent } := by
      simp [State.vectorUnmask, key, pend, loud', State.send]
    rw [sends]
    exact ⟨opened, rfl, fun _ => ⟨rfl, AMap.get_set_same false s.msixPend k false⟩, fun h => absurd h (by decide)⟩
  | false =>
    have silent : s.vectorUnmask port fn.toNat vec.toNat = { s with msixOpen := AMap.set false s.msixOpen k true } := by
      simp [State.vectorUnmask, key, pend]
    rw [silent]
    exact ⟨opened, rfl, fun h => absurd h (by decide), fun _ => ⟨rfl, rfl⟩⟩

end Sys2Proof.Machine
end

section
/-! Polling (08 R256-R258): what the poll of one function reads and writes, and a poll cycle in which one function runs. -/

namespace Sys2Proof.Machine

/-! ### Numbers in memory -/

/-- A number that n bytes hold. -/
theorem readLe_lt (m : Mem) (a n : Nat) : readLe m a n < 256 ^ n := by
  have h := leNat_lt (readBytes m a n)
  rwa [readBytes_length, pow_mul] at h

/-- A number read depends on its bytes alone. -/
theorem readLe_congr {m m' : Mem} {a n : Nat} (h : ∀ b, a ≤ b → b < a + n → AMap.get 0 m b = AMap.get 0 m' b) :
    readLe m a n = readLe m' a n := congrArg leNat (readBytes_congr n a h)

/-- A byte apart from a number written reads as before. -/
theorem get_writeLe_apart (m : Mem) {a n b : Nat} (v : Nat) (h : b < a ∨ a + n ≤ b) :
    AMap.get 0 (writeLe m a n v) b = AMap.get 0 m b := by
  rcases h with h | h
  · exact get_writeBytes_below _ _ _ _ h
  · exact get_writeBytes_above _ _ _ _ (by rwa [natLe_length])

/-! ### What polling touches -/

/-- The bytes of a doorbell area that a poll of its group-map words lo to hi writes: those words, and the error words
(R256). -/
def PollWrites (base lo hi b : Nat) : Prop :=
  base + 64 + 8 * lo ≤ b ∧ b < base + 64 + 8 * hi ∨ base + 200 ≤ b ∧ b < base + 216

/-- What the poll of a function's words lo to hi leaves: time, every register but those that show an error, the rest of
host memory, and of every ring all but its producer index and whether it has stopped. -/
structure Polls (base lo hi : Nat) (s t : State) : Prop where
  ms : t.ms = s.ms
  due : t.pollDue = s.pollDue
  regs : ∀ h a, a < 2 ^ 24 → a ≠ Reg.HIF_STATUS → a ≠ Reg.HIF_ERR_COUNT → a ≠ Reg.HIF_RING_ERR →
    t.fnReg h a = s.fnReg h a
  mem : ∀ b, ¬PollWrites base lo hi b → AMap.get 0 t.hostMem b = AMap.get 0 s.hostMem b
  keys : KeysRise s.rings → KeysRise t.rings
  ring : ∀ k, t.ring k = { s.ring k with piSeen := (t.ring k).piSeen, stopped := (t.ring k).stopped }

variable {base lo hi : Nat} {s t u : State}

theorem polls_of_same (rings : t.rings = s.rings) (regs : t.regs = s.regs) (mem : t.hostMem = s.hostMem) (ms : t.ms = s.ms)
    (due : t.pollDue = s.pollDue) : Polls base lo hi s t := by
  refine ⟨ms, due, fun h a _ _ _ _ => ?_, fun b _ => by rw [mem], fun hk => by rwa [rings], fun k => ?_⟩
  · unfold State.fnReg
    rw [regs]
  · have same : t.ring k = s.ring k := by rw [State.ring, rings]; rfl
    rw [same]

theorem Polls.refl (base lo hi : Nat) (s : State) : Polls base lo hi s s := polls_of_same rfl rfl rfl rfl rfl

theorem Polls.trans (a : Polls base lo hi s t) (b : Polls base lo hi t u) : Polls base lo hi s u where
  ms := b.ms.trans a.ms
  due := b.due.trans a.due
  regs h r h1 h2 h3 h4 := (b.regs h r h1 h2 h3 h4).trans (a.regs h r h1 h2 h3 h4)
  mem x hx := (b.mem x hx).trans (a.mem x hx)
  keys hk := b.keys (a.keys hk)
  ring k := by rw [b.ring k, a.ring k]

/-- A poll of some words is one of more. -/
theorem Polls.mono {lo' hi' : Nat} (h : Polls base lo hi s t) (hw : ∀ b, PollWrites base lo hi b → PollWrites base lo' hi' b) :
    Polls base lo' hi' s t :=
  ⟨h.ms, h.due, h.regs, fun b hb => h.mem b fun w => hb (hw b w), h.keys, h.ring⟩

theorem Polls.field (h : Polls base lo hi s t) (f lo' w : Nat) :
    t.fnField f Reg.HIF_FN_CTRL lo' w = s.fnField f Reg.HIF_FN_CTRL lo' w := by
  rw [State.fnField, h.regs f _ (by decide) (by decide) (by decide) (by decide)]
  rfl

theorem Polls.dbBase (h : Polls base lo hi s t) (f : Nat) : t.dbBase f = s.dbBase f := by
  rw [State.dbBase, h.regs f _ (by decide) (by decide) (by decide) (by decide),
    h.regs f _ (by decide) (by decide) (by decide) (by decide)]
  rfl

theorem Polls.ringFn (h : Polls base lo hi s t) (k : Nat) : (t.ring k).fn = (s.ring k).fn := by rw [h.ring]
theorem Polls.ringLoc (h : Polls base lo hi s t) (k : Nat) : (t.ring k).loc = (s.ring k).loc := by rw [h.ring]
theorem Polls.ringUsed (h : Polls base lo hi s t) (k : Nat) : (t.ring k).used = (s.ring k).used := by rw [h.ring]

/-- A number apart from what polling writes reads as before. -/
theorem Polls.number (h : Polls base lo hi s t) {a n : Nat} (apart : ∀ b, a ≤ b → b < a + n → ¬PollWrites base lo hi b) :
    readLe t.hostMem a n = readLe s.hostMem a n :=
  readLe_congr fun b low high => h.mem b (apart b low high)

/-- A ring's producer index lies apart from every word of a group map of 16. -/
theorem Polls.producer (h : Polls base lo hi s t) (small : hi ≤ 16) (loc : Nat) :
    readLe t.hostMem (base + 4096 + 4 * loc) 4 = readLe s.hostMem (base + 4096 + 4 * loc) 4 :=
  h.number fun b low high w => by
    unfold PollWrites at w
    omega

theorem polls_setRing (s : State) (rn : Nat) (seen : Nat) (stopped : Bool) :
    Polls base lo hi s (s.setRing rn { s.ring rn with piSeen := seen, stopped := stopped }) := by
  refine ⟨rfl, rfl, fun _ _ _ _ _ _ => rfl, fun _ _ => rfl, fun hk => keysRise_set _ _ _ _ hk, fun k => ?_⟩
  by_cases e : k = rn
  · subst e
    rw [ring_setRing_same]
  · rw [ring_setRing_other _ _ _ _ e]

/-- A register that shows an error written. -/
theorem polls_setFnReg (s : State) (f a : Nat) (w : Word)
    (ha : a = Reg.HIF_STATUS ∨ a = Reg.HIF_ERR_COUNT ∨ a = Reg.HIF_RING_ERR) : Polls base lo hi s (s.setFnReg f a w) := by
  have small : a < 2 ^ 24 := by rcases ha with rfl | rfl | rfl <;> decide
  refine ⟨rfl, rfl, fun h r hr h1 h2 h3 => ?_, fun _ _ => rfl, id, fun _ => rfl⟩
  refine fnReg_setFnReg_other s w small hr (.inr fun e => ?_)
  rcases ha with ha | ha | ha
  · exact h1 (e.trans ha)
  · exact h2 (e.trans ha)
  · exact h3 (e.trans ha)

/-- A number written within what polling writes. -/
theorem polls_writeLe (s : State) {a n : Nat} (v : Nat) (within : ∀ b, a ≤ b → b < a + n → PollWrites base lo hi b) :
    Polls base lo hi s { s with hostMem := writeLe s.hostMem a n v } := by
  refine ⟨rfl, rfl, fun _ _ _ _ _ _ => rfl, fun b hb => get_writeLe_apart _ _ ?_, id, fun _ => rfl⟩
  by_contra inside
  exact hb (within b (by omega) (by omega))

theorem hostMem_signalZero (s : State) (fn : Nat) : (s.signalZero fn).hostMem = s.hostMem := by
  refine hostMem_foldl _ (fun s p => ?_) _ _
  split
  · exact hostMem_signalVector ..
  · rfl

theorem polls_signalZero (s : State) (fn : Nat) : Polls base lo hi s (s.signalZero fn) := by
  have out := (outward_signalZero s fn).rest
  exact polls_of_same (rings_signalZero s fn) (by rw [out]) (hostMem_signalZero s fn) (by rw [out]) (by rw [out])

theorem polls_logMarked (s : State) (evidence : Bool) (src cls cause p0 p1 p2 : Nat) :
    Polls base lo hi s (s.logMarked evidence src cls cause p0 p1 p2) := by
  unfold State.logMarked State.logEvent
  dsimp only
  split <;> exact polls_of_same rfl rfl rfl rfl rfl

/-- The error words lie within what polling writes (R256). -/
theorem polls_errorWords (s : State) (loc code n ms : Nat) :
    Polls base lo hi s { s with hostMem := errorWords s.hostMem base loc code n ms } := by
  have first := polls_writeLe (base := base) (lo := lo) (hi := hi) s (a := base + 200) (n := 2) loc fun b _ _ => .inr (by omega)
  have second := first.trans (polls_writeLe _ (a := base + 202) (n := 2) code fun b _ _ => .inr (by omega))
  have third := second.trans (polls_writeLe _ (a := base + 204) (n := 4) n fun b _ _ => .inr (by omega))
  exact third.trans (polls_writeLe _ (a := base + 208) (n := 8) ms fun b _ _ => .inr (by omega))

theorem polls_errorShown (s : State) (rn code : Nat) : Polls base lo hi s (s.errorShown rn code) := by
  have stopped := polls_setRing (base := base) (lo := lo) (hi := hi) s rn (s.ring rn).piSeen true
  have shown (u : State) (fn : Nat) :
      Polls base lo hi u ((u.setFnField fn Reg.HIF_STATUS 2 1 1).fnBump fn Reg.HIF_ERR_COUNT 16 16 1) :=
    (polls_setFnReg u fn _ _ (.inl rfl)).trans (polls_setFnReg _ fn _ _ (.inr (.inl rfl)))
  unfold State.errorShown
  dsimp only
  split
  · exact (stopped.trans (shown _ _)).trans (polls_setFnReg _ _ _ _ (.inr (.inr rfl)))
  · exact stopped.trans (shown _ _)

theorem polls_errorNoted {fn : Nat} (loc code : Nat) (hb : s.dbBase fn = base) :
    Polls base lo hi s (s.errorNoted fn loc code) := by
  have counted (x : FnState) : Polls base lo hi s (s.setFn fn x) := polls_of_same rfl rfl rfl rfl rfl
  unfold State.errorNoted
  dsimp only
  split
  · rw [(counted _).dbBase fn, hb]
    exact (counted _).trans (polls_errorWords ..)
  · exact counted _

/-- A ring error of a function whose doorbell area stands at `base`. -/
theorem polls_ringError {rn : Nat} (code : Nat) (evidence : Bool) (hb : s.dbBase (s.ring rn).fn.toNat = base) :
    Polls base lo hi s (s.ringError rn code evidence) := by
  have shown := polls_errorShown (base := base) (lo := lo) (hi := hi) s rn code
  rw [ringError_eq]
  exact ((shown.trans (polls_errorNoted _ _ ((shown.dbBase _).trans hb))).trans (polls_signalZero ..)).trans (polls_logMarked ..)

/-! ### One ring -/

/-- A ring whose producer index is read (R258). -/
theorem pollRing_eq (s : State) (base rn : Nat) :
    s.pollRing base rn = if 2 ^ (s.ring rn).log2 < ringNew s base (s.ring rn) then s.ringError rn 0x01
      else s.setRing rn { s.ring rn with
        piSeen := readLe s.hostMem (base + 4096 + 4 * (s.ring rn).loc.toNat) 4 } := rfl

theorem polls_pollRing {rn : Nat} (hb : s.dbBase (s.ring rn).fn.toNat = base) : Polls base lo hi s (s.pollRing base rn) := by
  rw [pollRing_eq]
  split
  · exact polls_ringError _ _ hb
  · exact polls_setRing s rn _ (s.ring rn).stopped

/-- The producer index of ring k that a poll takes from a state is seen. -/
def Seen (s : State) (base k : Nat) (t : State) : Prop :=
  (t.ring k).piSeen = readLe s.hostMem (base + 4096 + 4 * (s.ring k).loc.toNat) 4

/-- The poll of a ring whose new descriptors fit sees its producer index, and that of another ring leaves it. -/
theorem seen_pollRing {k rn : Nat} (h : Polls base lo hi s u) (small : hi ≤ 16)
    (fits : ringNew s base (s.ring k) ≤ 2 ^ (s.ring k).log2) (hk : k = rn ∨ Seen s base k u) :
    Seen s base k (u.pollRing base rn) := by
  rw [pollRing_eq]
  by_cases e : k = rn
  · subst e
    have index := h.producer small (s.ring k).loc.toNat
    have new : ringNew u base (u.ring k) = ringNew s base (s.ring k) := by
      rw [ringNew, ringNew, h.ring k]
      exact congrArg (fun n => (n + 2 ^ 32 - (s.ring k).ci % 2 ^ 32) % 2 ^ 32) index
    have room : ¬2 ^ (u.ring k).log2 < ringNew u base (u.ring k) := by
      rw [new, h.ring k]
      exact Nat.not_lt.2 fits
    rw [if_neg room, Seen, ring_setRing_same, h.ringLoc]
    exact index
  · have seen := hk.resolve_left e
    split
    · rw [Seen, ring_ringError_other _ _ _ e]
      exact seen
    · rw [Seen, ring_setRing_other _ _ _ _ e]
      exact seen

/-- One ring of a function, polled after others. -/
theorem Polls.pollRing {fn rn : Nat} (h : Polls base lo hi s u) (mine : (s.ring rn).fn.toNat = fn) (hb : s.dbBase fn = base) :
    Polls base lo hi s (u.pollRing base rn) :=
  h.trans (polls_pollRing (by rw [h.dbBase, h.ringFn, mine, hb]))

/-- The rings of a function, polled one after another. -/
theorem polls_foldl_pollRing {fn : Nat} (l : List Nat) (mine : ∀ rn ∈ l, (s.ring rn).fn.toNat = fn)
    (hb : s.dbBase fn = base) : ∀ u, Polls base lo hi s u → Polls base lo hi s (l.foldl (fun s rn => s.pollRing base rn) u) := by
  induction l with
  | nil => exact fun _ h => h
  | cons a l ih =>
    intro u h
    exact ih (fun rn hr => mine rn (List.mem_cons_of_mem _ hr)) _ (h.pollRing (mine a List.mem_cons_self) hb)

theorem seen_foldl_pollRing {fn k : Nat} (small : hi ≤ 16) (fits : ringNew s base (s.ring k) ≤ 2 ^ (s.ring k).log2)
    (hb : s.dbBase fn = base) (l : List Nat) (mine : ∀ rn ∈ l, (s.ring rn).fn.toNat = fn) :
    ∀ u, Polls base lo hi s u → k ∈ l ∨ Seen s base k u → Seen s base k (l.foldl (fun s rn => s.pollRing base rn) u) := by
  induction l with
  | nil => exact fun _ _ hk => hk.resolve_left List.not_mem_nil
  | cons a l ih =>
    intro u h hk
    have others : ∀ rn ∈ l, (s.ring rn).fn.toNat = fn := fun rn hr => mine rn (List.mem_cons_of_mem _ hr)
    refine ih others _ (h.pollRing (mine a List.mem_cons_self) hb) ?_
    by_cases later : k ∈ l
    · exact .inl later
    · refine .inr (seen_pollRing h small fits ?_)
      exact hk.imp (fun m => (List.mem_cons.1 m).resolve_right later) id

/-! ### One word of a group map -/

/-- A word of the group map, swapped with 0 where the function does not scan. -/
def State.swapWord (s : State) (fn base w : Nat) : State :=
  if s.fnField fn Reg.HIF_FN_CTRL 1 1 == 1 then s
  else { s with hostMem := writeLe s.hostMem (base + 64 + 8 * w) 8 0 }

/-- Is a ring one that a word of its function's group map asks to poll (R258)? -/
def asked (s : State) (fn base w : Nat) (r : Ring) : Bool :=
  r.fn.toNat == fn && decide (r.loc.toNat / 4096 = w) && (s.fnField fn Reg.HIF_FN_CTRL 1 1 == 1 ||
    bitAt (readLe s.hostMem (base + 64 + 8 * w) 8) (r.loc.toNat / 64 % 64))

theorem pollWord_eq (s : State) (fn base w : Nat) :
    s.pollWord fn base w =
      ((s.swapWord fn base w).ringsWhere (asked s fn base w)).foldl (fun s rn => s.pollRing base rn) (s.swapWord fn base w) :=
  rfl

theorem polls_swapWord (s : State) (fn base w : Nat) : Polls base w (w + 1) s (s.swapWord fn base w) := by
  unfold State.swapWord
  split
  · exact Polls.refl ..
  · exact polls_writeLe s 0 fun b _ _ => .inl (by omega)

/-- What a word asks to poll are rings of its function. -/
theorem fn_of_mem_asked {fn w rn : Nat} (keys : KeysRise s.rings)
    (h : rn ∈ (s.swapWord fn base w).ringsWhere (asked s fn base w)) : (s.ring rn).fn.toNat = fn := by
  have swapped := polls_swapWord s fn base w
  have test := of_mem_ringsWhere (swapped.keys keys) h
  simp only [asked, Bool.and_eq_true, beq_iff_eq] at test
  rw [← swapped.ringFn]
  exact test.1.1

theorem polls_pollWord {fn : Nat} (keys : KeysRise s.rings) (hb : s.dbBase fn = base) (w : Nat) :
    Polls base w (w + 1) s (s.pollWord fn base w) :=
  polls_foldl_pollRing _ (fun _ h => fn_of_mem_asked keys h) hb _ (polls_swapWord s fn base w)

/-- After the words below n of a function's group map. -/
def State.pollWords (s : State) (fn base n : Nat) : State :=
  (List.range n).foldl (fun s w => s.pollWord fn base w) s

theorem pollWords_succ (s : State) (fn base n : Nat) :
    s.pollWords fn base (n + 1) = (s.pollWords fn base n).pollWord fn base n := by
  simp [State.pollWords, List.range_succ]

theorem polls_pollWords {fn : Nat} (keys : KeysRise s.rings) (hb : s.dbBase fn = base) (n : Nat) :
    Polls base 0 n s (s.pollWords fn base n) := by
  induction n with
  | zero => exact Polls.refl ..
  | succ n ih =>
    rw [pollWords_succ]
    have word := polls_pollWord (fn := fn) (ih.keys keys) ((ih.dbBase fn).trans hb) n
    refine (ih.mono fun b hw => ?_).trans (word.mono fun b hw => ?_)
    all_goals
      unfold PollWrites at hw ⊢
      omega

/-- A ring of a function that its group map or scan mode asks to poll, and whose new descriptors fit it. -/
structure Polled (s : State) (fn base k : Nat) : Prop where
  used : (s.ring k).used = true
  own : (s.ring k).fn.toNat = fn
  named : asked s fn base ((s.ring k).loc.toNat / 4096) (s.ring k) = true
  fits : ringNew s base (s.ring k) ≤ 2 ^ (s.ring k).log2

/-- What a word asks of a ring does not change as lower words are polled. -/
theorem Polls.asked_eq {fn w : Nat} (h : Polls base 0 w s u) (small : w < 16) (k : Nat) :
    asked u fn base w (u.ring k) = asked s fn base w (s.ring k) := by
  have word : readLe u.hostMem (base + 64 + 8 * w) 8 = readLe s.hostMem (base + 64 + 8 * w) 8 :=
    h.number fun b low high w => by
      unfold PollWrites at w
      omega
  unfold asked
  rw [h.ringFn, h.ringLoc, h.field, word]

/-- The word of a polled ring's group is among those below n: its producer index is seen. -/
theorem seen_pollWords {fn k : Nat} (keys : KeysRise s.rings) (hb : s.dbBase fn = base) (hk : Polled s fn base k) :
    ∀ n ≤ 16, (s.ring k).loc.toNat / 4096 < n → Seen s base k (s.pollWords fn base n) := by
  intro n
  induction n with
  | zero => exact fun _ h => absurd h (Nat.not_lt_zero _)
  | succ n ih =>
    intro small below
    have before := polls_pollWords keys hb n
    have swapped := polls_swapWord (s.pollWords fn base n) fn base n
    have upTo : Polls base 0 (n + 1) s ((s.pollWords fn base n).swapWord fn base n) := by
      refine (before.mono fun b hw => ?_).trans (swapped.mono fun b hw => ?_)
      all_goals
        unfold PollWrites at hw ⊢
        omega
    have mine : ∀ rn ∈ ((s.pollWords fn base n).swapWord fn base n).ringsWhere (asked (s.pollWords fn base n) fn base n),
        (s.ring rn).fn.toNat = fn := fun rn h => by
      rw [← before.ringFn]
      exact fn_of_mem_asked (before.keys keys) h
    rw [pollWords_succ, pollWord_eq]
    refine seen_foldl_pollRing small hk.fits hb _ mine _ upTo ?_
    by_cases here : (s.ring k).loc.toNat / 4096 = n
    · refine .inl (mem_ringsWhere ?_ ?_)
      · rw [upTo.ringUsed]
        exact hk.used
      · have named := hk.named
        rw [here] at named
        rw [swapped.ring k]
        exact (before.asked_eq (by omega) k).trans named
    · have seen := ih (by omega) (by omega)
      right
      unfold Seen State.swapWord
      split
      · exact seen
      · exact seen

/-! ### One function -/

/-- The words of a function's group map (R256). -/
def State.groupWords (s : State) (fn : Nat) : Nat := ((s.ringCount fn + 63) / 64 + 63) / 64

theorem groupWords_le (s : State) (fn : Nat) : s.groupWords fn ≤ 16 := by
  have count : s.fnField fn Reg.HIF_FN_INFO 16 16 < 2 ^ 16 := Nat.mod_lt _ (by decide)
  unfold State.groupWords State.ringCount
  omega

theorem lt_groupWords {fn loc : Nat} (h : loc < s.ringCount fn) : loc / 4096 < s.groupWords fn := by
  unfold State.groupWords
  omega

/-- A function's generation taken, and written to its doorbell area (R256). -/
def State.takeGeneration (s : State) (fn base g : Nat) : State :=
  { s.setFn fn { s.fn fn with seenGen := BitVec.ofNat 64 g } with hostMem := writeLe s.hostMem (base + 192) 8 g }

theorem takeGeneration_ms (s : State) (fn base g : Nat) : (s.takeGeneration fn base g).ms = s.ms := rfl
theorem takeGeneration_due (s : State) (fn base g : Nat) : (s.takeGeneration fn base g).pollDue = s.pollDue := rfl
theorem takeGeneration_ring (s : State) (fn base g k : Nat) : (s.takeGeneration fn base g).ring k = s.ring k := rfl
theorem takeGeneration_fnField (s : State) (fn base g f a l w : Nat) :
    (s.takeGeneration fn base g).fnField f a l w = s.fnField f a l w := rfl

theorem seenGen_takeGeneration (s : State) (fn base : Nat) {g : Nat} (h : g < 256 ^ 8) :
    ((s.takeGeneration fn base g).fn fn).seenGen.toNat = g := by
  have stored : (s.takeGeneration fn base g).fn fn = { s.fn fn with seenGen := BitVec.ofNat 64 g } := fn_setFn_same ..
  have width : 256 ^ 8 = 2 ^ 64 := by norm_num
  rw [stored]
  exact toNat_ofNat_of_lt (width ▸ h)

theorem echo_takeGeneration (s : State) (fn base : Nat) {g : Nat} (h : g < 256 ^ 8) :
    readLe (s.takeGeneration fn base g).hostMem (base + 192) 8 = g :=
  (readLe_writeLe ..).trans (Nat.mod_eq_of_lt h)

/-- A function whose generation has changed. -/
theorem pollFunction_new {fn : Nat} (new : readLe s.hostMem (s.dbBase fn) 8 ≠ (s.fn fn).seenGen.toNat) :
    s.pollFunction fn none = (s.pollWords fn (s.dbBase fn) (s.groupWords fn)).takeGeneration fn (s.dbBase fn)
      (readLe s.hostMem (s.dbBase fn) 8) := by
  simp only [State.pollFunction, new, if_false, Option.filter_none, Option.getD_none, Option.isSome_none, Bool.false_eq_true]
  unfold State.pollWords State.groupWords
  generalize List.foldl _ s _ = u
  generalize readLe s.hostMem (s.dbBase fn) 8 = g
  rfl

/-- What the poll of a function with a changed generation leaves. -/
structure FunctionPolled (s : State) (fn : Nat) (t : State) : Prop where
  ms : t.ms = s.ms
  due : t.pollDue = s.pollDue
  ctrl : ∀ h, t.fnField h Reg.HIF_FN_CTRL 0 1 = s.fnField h Reg.HIF_FN_CTRL 0 1
  generation : (t.fn fn).seenGen.toNat = readLe s.hostMem (s.dbBase fn) 8
  echo : readLe t.hostMem (s.dbBase fn + 192) 8 = readLe s.hostMem (s.dbBase fn) 8
  seen : ∀ k, Polled s fn (s.dbBase fn) k → (s.ring k).loc.toNat < s.ringCount fn → Seen s (s.dbBase fn) k t

theorem pollFunction_polled {fn : Nat} (keys : KeysRise s.rings)
    (new : readLe s.hostMem (s.dbBase fn) 8 ≠ (s.fn fn).seenGen.toNat) :
    FunctionPolled s fn (s.pollFunction fn none) := by
  have words := polls_pollWords (fn := fn) keys rfl (s.groupWords fn)
  have seen := fun k hk below => seen_pollWords (fn := fn) (k := k) keys rfl hk _ (groupWords_le s fn) (lt_groupWords below)
  have size := readLe_lt s.hostMem (s.dbBase fn) 8
  rw [pollFunction_new new]
  generalize s.pollWords fn (s.dbBase fn) (s.groupWords fn) = u at words seen ⊢
  refine ⟨?_, ?_, fun h => ?_, seenGen_takeGeneration _ _ _ size, echo_takeGeneration _ _ _ size, fun k hk below => ?_⟩
  · rw [takeGeneration_ms]
    exact words.ms
  · rw [takeGeneration_due]
    exact words.due
  · rw [takeGeneration_fnField]
    exact words.field h 0 1
  · rw [Seen, takeGeneration_ring]
    exact seen k hk below

/-! ### A poll cycle -/

/-- One function's turn in a poll cycle in which no access fails. -/
def State.pollTurn (s : State) (fn : Nat) : State :=
  if s.fnField fn Reg.HIF_FN_CTRL 0 1 = 0 then s
  else if !s.hostPortUp (s.dbPort fn) then s.doorbellError fn
  else s.pollFunction fn none

/-- The state in which the functions have their turns: at the time of the cycle, the next one set. -/
def State.atPoll (s : State) : State :=
  { s.advanceTo s.pollDue with pollDue := (s.advanceTo s.pollDue).ms + (s.advanceTo s.pollDue).pollInterval }

theorem pollCycle_nil (s : State) : s.pollCycle [] = (List.range 64).foldl State.pollTurn s.atPoll := by
  simp only [State.pollCycle, List.find?_nil, Option.map_none]
  rfl

/-- A function that does not run has no turn. -/
theorem pollTurn_idle {fn : Nat} (h : s.fnField fn Reg.HIF_FN_CTRL 0 1 ≠ 1) : s.pollTurn fn = s := by
  have bit : s.fnField fn Reg.HIF_FN_CTRL 0 1 < 2 ^ 1 := Nat.mod_lt _ (by decide)
  rw [State.pollTurn, if_pos (by omega)]

theorem foldl_pollTurn_idle (l : List Nat) (h : ∀ fn ∈ l, s.fnField fn Reg.HIF_FN_CTRL 0 1 ≠ 1) :
    l.foldl State.pollTurn s = s :=
  foldl_eq_of_fixed fun fn hf => pollTurn_idle (h fn hf)

/-- The turns of all functions where one runs, its doorbell port is up and its generation has changed. -/
theorem pollTurns_alone {fn : Nat} (hf : fn < 64) (alone : ∀ h < 64, s.fnField h Reg.HIF_FN_CTRL 0 1 = 1 ↔ h = fn)
    (up : s.hostPortUp (s.dbPort fn) = true) (after : ∀ h, (s.pollFunction fn none).fnField h Reg.HIF_FN_CTRL 0 1 =
      s.fnField h Reg.HIF_FN_CTRL 0 1) :
    (List.range 64).foldl State.pollTurn s = s.pollFunction fn none := by
  obtain ⟨l, r, parts⟩ := List.append_of_mem (List.mem_range.2 hf)
  have once : (l ++ fn :: r).Nodup := by
    rw [← parts]
    exact List.nodup_range
  have others : ∀ h ∈ l ++ r, s.fnField h Reg.HIF_FN_CTRL 0 1 ≠ 1 := by
    intro h hm runs
    have listed : h ∈ List.range 64 := by
      rw [parts]
      exact (List.sublist_cons_self fn r).append_left l |>.subset hm
    rw [(alone h (List.mem_range.1 listed)).1 runs] at hm
    exact (List.nodup_middle.1 once).notMem hm
  have turn : s.pollTurn fn = s.pollFunction fn none := by
    have runs := (alone fn hf).2 rfl
    simp [State.pollTurn, runs, up]
  rw [parts, List.foldl_append, foldl_pollTurn_idle l fun h hm => others h (List.mem_append_left _ hm), List.foldl_cons, turn]
  refine foldl_pollTurn_idle r fun h hm => ?_
  rw [after]
  exact others h (List.mem_append_right _ hm)

/-- What polling reads of host memory, registers and functions is as it was before the time of the cycle. -/
theorem atPoll_fnReg (s : State) (f a : Nat) : s.atPoll.fnReg f a = s.fnReg f a := by
  have regs : s.atPoll.regs = s.regs := State.advanceTo_regs ..
  unfold State.fnReg
  rw [regs]

theorem atPoll_dbBase (s : State) (f : Nat) : s.atPoll.dbBase f = s.dbBase f := by
  simp only [State.dbBase, atPoll_fnReg]

theorem atPoll_fnField (s : State) (f a l w : Nat) : s.atPoll.fnField f a l w = s.fnField f a l w := by
  simp only [State.fnField, atPoll_fnReg]

theorem atPoll_hostMem (s : State) : s.atPoll.hostMem = s.hostMem := State.advanceTo_hostMem ..
theorem atPoll_fn (s : State) (f : Nat) : s.atPoll.fn f = s.fn f := State.advanceTo_fnAt ..
theorem atPoll_ring (s : State) (k : Nat) : s.atPoll.ring k = s.ring k := State.advanceTo_ringAt ..
theorem atPoll_rings (s : State) : s.atPoll.rings = s.rings := State.advanceTo_rings ..
theorem atPoll_ms (s : State) : s.atPoll.ms = max s.ms s.pollDue := advanceTo_ms ..

theorem atPoll_due (s : State) : s.atPoll.pollDue = max s.ms s.pollDue + 250 * s.field Reg.HIF_POLL_INTERVAL 0 12 := by
  rw [← State.advanceTo_fieldAt s s.pollDue, ← advanceTo_ms]
  rfl

theorem atPoll_hostPortUp (s : State) (p : Bool) : s.atPoll.hostPortUp p = s.hostPortUp p := by
  have field (a : Nat) : s.atPoll.field a 11 1 = s.field a 11 1 := atPoll_fnField s 0 a 11 1
  simp only [State.hostPortUp, field]

theorem atPoll_dbPort (s : State) (f : Nat) : s.atPoll.dbPort f = s.dbPort f := by
  simp only [State.dbPort, atPoll_fnField]

theorem atPoll_ringNew (s : State) (base : Nat) (r : Ring) : ringNew s.atPoll base r = ringNew s base r := by
  simp only [ringNew, atPoll_hostMem]

/-- A poll cycle in which one function runs, with a new generation: its rings' producer indices are taken (R256-R258). -/
theorem pollCycle_answers {fn : BitVec 6} (keys : KeysRise s.rings)
    (alone : ∀ h, h < 64 → (s.fnField h Reg.HIF_FN_CTRL 0 1 = 1 ↔ h = fn.toNat))
    (up : s.hostPortUp (s.dbPort fn.toNat) = true)
    (new : readLe s.hostMem (s.dbBase fn.toNat) 8 ≠ (s.fn fn.toNat).seenGen.toNat) :
    Answers (.pollCycle []) s fun t =>
      t.ms = max s.ms s.pollDue ∧ t.pollDue = max s.ms s.pollDue + 250 * s.field Reg.HIF_POLL_INTERVAL 0 12 ∧
      (t.fn fn.toNat).seenGen.toNat = readLe s.hostMem (s.dbBase fn.toNat) 8 ∧
      readLe t.hostMem (s.dbBase fn.toNat + 192) 8 = readLe s.hostMem (s.dbBase fn.toNat) 8 ∧
      ∀ p ∈ s.rings, p.2.used = true → p.2.fn = fn → p.2.loc.toNat < s.ringCount fn.toNat →
        s.fnField fn.toNat Reg.HIF_FN_CTRL 1 1 = 1 ∨
          bitAt (readLe s.hostMem (s.dbBase fn.toNat + 64 + 8 * (p.2.loc.toNat / 4096)) 8)
            (p.2.loc.toNat / 64 % 64) = true →
        ringNew s (s.dbBase fn.toNat) p.2 ≤ 2 ^ p.2.log2 →
        (t.ring p.1).piSeen = readLe s.hostMem (s.dbBase fn.toNat + 4096 + 4 * p.2.loc.toNat) 4 := by
  have polled := pollFunction_polled (s := s.atPoll) (fn := fn.toNat) (by rw [atPoll_rings]; exact keys)
    (by rw [atPoll_dbBase, atPoll_hostMem, atPoll_fn]; exact new)
  have turns : s.pollCycle [] = s.atPoll.pollFunction fn.toNat none := by
    refine (pollCycle_nil s).trans (pollTurns_alone fn.isLt (fun h hh => ?_) ?_ polled.ctrl)
    · rw [atPoll_fnField]
      exact alone h hh
    · rw [atPoll_hostPortUp, atPoll_dbPort]
      exact up
  obtain ⟨ms, due, -, generation, echo, seen⟩ := polled
  rw [atPoll_dbBase, atPoll_hostMem] at generation echo
  rw [atPoll_dbBase] at seen
  refine answers_of_eq rfl turns ⟨ms.trans (atPoll_ms s), due.trans (atPoll_due s), generation, echo, ?_⟩
  rintro ⟨k, r⟩ listed used rfl below named fits
  have value : s.ring k = r := AMap.get_of_mem keys listed
  subst value
  have taken := seen k ⟨?_, ?_, ?_, ?_⟩ ?_
  · rw [Seen, atPoll_hostMem, atPoll_ring] at taken
    exact taken
  · rw [atPoll_ring]
    exact used
  · rw [atPoll_ring]
  · rw [atPoll_ring, asked, atPoll_fnField, atPoll_hostMem]
    simpa using named
  · rw [atPoll_ring, atPoll_ringNew]
    exact fits
  · rw [atPoll_ring, State.ringCount, atPoll_fnField]
    exact below

/-- Settles O45: the poll cycle, the fetch, NOP, the coalesced message and the unmasked vector, each by its own lemma. -/
theorem ringService : Obligations.RingService := by
  intro ring fn vec port d s rn r f base g fetches got vkey rkey
  have may (h : fetches) : Fetches s rn := by
    obtain ⟨used, runs, stays, new, room, free, function⟩ := h
    exact ⟨used, runs, stays, new, room, free, function⟩
  refine ⟨fun keys alone up new => pollCycle_answers keys alone up new,
    fun h undone known => ⟨_, rfl, descriptorFetch_open (may h) undone known⟩,
    fun h => answers_of_eq rfl ((descriptorFetch_eq (may h) false).trans (cond_false ..)) ?_,
    fun h => ⟨_, rfl, _, rfl, nopDesc_of_starts h⟩, fun h only alone => ⟨_, rfl, nop_single h only alone⟩,
    fun used counted timed signals up loud => coalesceTimer_answers ⟨rfl, used, counted, timed, signals, up, loud⟩,
    fun loud => vectorUnmask_answers loud⟩
  have error := ring_ringError_same s rn 0x02 false
  rw [error]
  exact ⟨rfl, rfl, rfl⟩

end Sys2Proof.Machine
end

section
/-! The admin commands (08 R252, R259, R263-R265): rings created and destroyed, ranges assigned, apertures placed. -/

namespace Sys2Proof.Machine

/-! ### CREATE_RING (R259, R263, R265) -/

/-- A CREATE_RING whose fields are in range, of a ring that its function may create. -/
structure Creates (s : State) (rn : Nat) (d : Desc) : Prop where
  starts : Starts s rn 1 d
  notAdmin : d.num 16 2 ≠ 0
  inRange : d.num 16 2 < s.ringCount (s.ring rn).fn.toNat
  unused : (s.ring (s.globalRing (s.ring rn).fn.toNat (d.num 16 2))).used = false
  deep : 4 ≤ d.num 18 1
  shallow : d.num 18 1 ≤ 16
  port : d.num 19 1 ≤ 1
  vector : d.num 20 1 ≤ 31 ∨ d.num 20 1 = 0xFF
  count : d.num 21 1 ≠ 0
  descs : d.num 24 8 % min (64 * 2 ^ d.num 18 1) 4096 = 0
  cpls : d.num 32 8 % min (32 * 2 ^ d.num 18 1) 4096 = 0
  own : (s.ring rn).fn.toNat ≠ 0 ∨ s.groupOwner (d.num 16 2 / 64) = false

/-- The ring that a CREATE_RING describes (R265). -/
def createdRing (fn : BitVec 6) (d : Desc) : Ring where
  used := true
  fn := fn
  loc := BitVec.ofNat 16 (d.num 16 2)
  port := d.num 19 1 == 1
  vector := BitVec.ofNat 8 (d.num 20 1)
  coalCount := BitVec.ofNat 8 (d.num 21 1)
  coalTime := BitVec.ofNat 16 (d.num 22 2)
  descBase := BitVec.ofNat 64 (d.num 24 8)
  cplBase := BitVec.ofNat 64 (d.num 32 8)
  log2 := d.num 18 1

theorem createRing_eq {s : State} {rn : Nat} {d : Desc} (h : Creates s rn d) :
    s.createRing rn = (((started s rn d).setRing (s.globalRing (s.ring rn).fn.toNat (d.num 16 2))
      (createdRing (s.ring rn).fn d)).complete (refOf rn d) 0 0 0).settleRing rn := by
  obtain ⟨starts, notAdmin, inRange, unused, deep, shallow, port, vector, count, descs, cpls, own⟩ := h
  have depth : min (max (d.num 18 1) 4) 16 = d.num 18 1 := by omega
  have free : ((started s rn d).ring (s.globalRing (s.ring rn).fn.toNat (d.num 16 2))).used = false := by
    rw [ring_started_eq]
    exact unused
  have below : ¬s.ringCount (s.ring rn).fn.toNat ≤ d.num 16 2 := Nat.not_le.2 inRange
  have signals : (decide (d.num 20 1 > 31) && d.num 20 1 != 0xFF) = false := by
    rcases vector with v | v
    · simp [Nat.not_lt.2 v]
    · simp [v]
  have allowed : ((s.ring rn).fn.toNat == 0 && s.groupOwner (d.num 16 2 / 64)) = false := by
    rcases own with o | o
    · simp [o]
    · simp [o]
  refine (runDesc_acts starts _ ?fields).trans ?act
  case fields =>
    have ring : (d.num 16 2 == 0 || decide (d.num 16 2 ≥ s.ringCount (s.ring rn).fn.toNat) ||
        ((started s rn d).ring (s.globalRing (s.ring rn).fn.toNat (d.num 16 2))).used) = false := by
      simp [notAdmin, below, free]
    have size : (decide (d.num 18 1 < 4) || decide (d.num 18 1 > 16)) = false := by
      simp [Nat.not_lt.2 deep, Nat.not_lt.2 shallow]
    have side : decide (d.num 19 1 > 1) = false := decide_eq_false (Nat.not_lt.2 port)
    have each : (d.num 21 1 == 0) = false := beq_eq_false_iff_ne.2 count
    simp only [List.forall_mem_cons]
    refine ⟨ring, size, side, signals, each, ?_, ?_, fun _ hp => nomatch hp⟩
    · rw [depth, descs]
      rfl
    · rw [depth, cpls]
      rfl
  case act => exact congrArg (State.settleRing · rn) (if_neg (by rw [Bool.not_eq_true]; exact allowed))

/-! ### DESTROY_RING (R259, R265) -/

/-- No job start of a ring is pending: destroying the ring ends none. -/
theorem abortStarts_of_none {s : State} {rn : Nat}
    (h : ∀ p ∈ s.jobs, ∀ x, p.2.startRef = some x → x.ring.toNat ≠ rn) : s.abortStarts rn = s := by
  refine foldl_eq_of_fixed fun p hp => ?_
  cases start : p.2.startRef with
  | none => simp [start]
  | some x => simp [start, h p hp x start]

/-- A ring that is being destroyed and holds nothing ceases to exist, and only the ring of its DESTROY_RING retires. -/
theorem finishDestroy_of_some {s : State} {rn : Nat} {ref : DescRef} (h : (s.ring rn).destroyRef = some ref)
    (empty : (s.ring rn).descs = []) : RetiresOn ref.ring.toNat (s.setRing rn {}) (s.finishDestroy rn) := by
  unfold State.finishDestroy
  simp only [h, empty, List.any_nil, Bool.false_eq_true, if_false]
  exact ((retiresOn_markDone _ ref _ _ _).trans (retiresOn_retireRing ..)).trans (retiresOn_skipReserved ..)

/-- The state in which a ring that has nothing started is being destroyed. -/
def State.destroying (s : State) (rn : Nat) (ref : DescRef) : State :=
  s.setRing rn { s.ring rn with destroyRef := some ref, descs := [] }

/-- A DESTROY_RING of another ring than its own, with nothing started and no job start pending. -/
structure Destroys (s : State) (rn g : Nat) (d : Desc) : Prop where
  starts : Starts s rn 2 d
  names : s.globalRing (s.ring rn).fn.toNat (d.num 16 2) = g
  notAdmin : d.num 16 2 ≠ 0
  inRange : d.num 16 2 < s.ringCount (s.ring rn).fn.toNat
  other : g ≠ rn
  used : (s.ring g).used = true
  notFirst : (s.ring g).loc ≠ 0#16
  stays : (s.ring g).destroyRef = none
  fetched : ∀ x ∈ (s.ring g).descs, x.phase = .fetched
  noStart : ∀ p ∈ s.jobs, ∀ x, p.2.startRef = some x → x.ring.toNat ≠ g

theorem destroyRing_eq {s : State} {rn g : Nat} {d : Desc} (h : Destroys s rn g d) :
    s.destroyRing rn = ((((started s rn d).destroying g (refOf rn d))).finishDestroy g).settleRing rn := by
  obtain ⟨starts, names, notAdmin, inRange, other, used, notFirst, stays, fetched, noStart⟩ := h
  have same : (started s rn d).ring g = s.ring g := ring_started_other s d other
  have names' : (started s rn d).globalRing (s.ring rn).fn.toNat (d.num 16 2) = g := names
  have below : ¬(started s rn d).ringCount (s.ring rn).fn.toNat ≤ d.num 16 2 := Nat.not_le.2 inRange
  have noneLeft : (s.ring g).descs.filter (fun x => x.phase != .fetched) = [] :=
    List.filter_eq_nil_iff.2 fun x hx => by simp [fetched x hx]
  have aborts : (started s rn d).abortStarts g = started s rn d := abortStarts_of_none noStart
  refine (runDesc_acts starts _ ?fields).trans ?act
  case fields => simp [names', same, notAdmin, notFirst, below, used, stays]
  case act =>
    have empty : (((started s rn d).destroying g (refOf rn d)).ring g).descs = [] := by
      rw [State.destroying, ring_setRing_same]
    have nothing (n : Nat) : ((started s rn d).destroying g (refOf rn d)).retireRing g n =
        (started s rn d).destroying g (refOf rn d) :=
      retireRing_of_open (by simp [empty]) n
    unfold State.destroying at nothing ⊢
    dsimp only
    rw [names', aborts]
    rw [same] at nothing ⊢
    rw [noneLeft, nothing]

theorem destroyRing_answers {s : State} {ring : BitVec 16} {g : Nat} {d : Desc} (h : Destroys s ring.toNat g d) :
    Answers (.destroyRing ring) s (Settled ring.toNat fun t => t.ring g = {} ∧
      t = { s with rings := t.rings, hostMem := t.hostMem, sent := t.sent, msixPend := t.msixPend, pair := t.pair,
                   ports := t.ports, jobs := t.jobs, streams := t.streams, opens := t.opens }) := by
  have destroying : ((started s ring.toNat d).destroying g (refOf ring.toNat d)).ring g =
      { (started s ring.toNat d).ring g with destroyRef := some (refOf ring.toNat d), descs := [] } := ring_setRing_same ..
  have retires := finishDestroy_of_some (congrArg Ring.destroyRef destroying) (congrArg Ring.descs destroying)
  rw [refOf_ring] at retires
  refine ⟨_, rfl, _, ⟨?_, ?_⟩, destroyRing_eq h⟩
  · exact (retires.others g h.other).trans (ring_setRing_same ..)
  · exact (((outward_setRing ..).trans (outward_setRing ..)).trans (outward_finishDestroy ..)).rest

/-- No admin ring is destroyed, whichever number names it (R259). -/
theorem destroyRing_admin {s : State} {ring : BitVec 16} {d : Desc} (h : Starts s ring.toNat 2 d) {g : Nat}
    (names : s.globalRing (s.ring ring.toNat).fn.toNat (d.num 16 2) = g) (used : (s.ring g).used = true)
    (admin : (s.ring g).loc = 0#16) : Answers (.destroyRing ring) s fun t => (t.ring g).used = true := by
  have names' : (started s ring.toNat d).globalRing (s.ring ring.toNat).fn.toNat (d.num 16 2) = g := names
  have own : ((started s ring.toNat d).ring g).loc = 0#16 := by rw [ring_started_eq]; exact admin
  have stays : ((started s ring.toNat d).ring (refOf ring.toNat d).ring.toNat).destroyRef = none := by
    rw [ring_started_eq, refOf_ring]
    exact (ring_of_next h.next).2.2
  obtain ⟨o, refused⟩ := runDesc_refused h (tests := fun s r d =>
      let t := s.ring (s.globalRing r.fn.toNat (d.num 16 2))
      [(16, d.num 16 2 == 0 || t.loc == 0#16 || decide (d.num 16 2 ≥ s.ringCount r.fn.toNat) || !t.used || t.destroyRef.isSome)])
    _ List.mem_cons_self (by simp [names', own])
  refine answers_of_eq rfl refused ?_
  rw [(retiresOn_complete stays _ _ _).used, ring_started_eq]
  exact used

/-! ### ASSIGN_VF (R249, R265) -/

/-- An ASSIGN_VF by the physical function whose fields are in range, of a function that holds no ring but its admin ring, to
groups and a slot that no other function holds. -/
structure Assigns (s : State) (rn : Nat) (d : Desc) : Prop where
  starts : Starts s rn 3 d
  physical : (s.ring rn).fn.toNat = 0
  virtual : d.num 16 1 ≠ 0
  inVfs : d.num 16 1 ≤ s.numVfs
  idle : s.fnField (d.num 16 1) Reg.HIF_FN_CTRL 0 1 = 0
  bare : ∀ p ∈ s.rings, p.2.used = true → p.2.fn.toNat = d.num 16 1 → p.2.loc = 0#16
  slot : d.num 17 1 ≤ 63
  others : ∀ f, f ≠ 0 → f ≠ d.num 16 1 → f < 64 → (s.fn f).slot ≠ some (BitVec.ofNat 6 (d.num 17 1)) ∧
    ((s.fn f).groupCount = 0 ∨ (s.fn f).groupFirst + (s.fn f).groupCount ≤ d.num 20 2 ∨
      d.num 20 2 + d.num 22 2 ≤ (s.fn f).groupFirst)
  clear : ∀ p ∈ s.rings, p.2.used = true → p.2.fn = 0#6 → p.1 < 64 * d.num 20 2 ∨ 64 * (d.num 20 2 + d.num 22 2) ≤ p.1
  first : d.num 20 2 ≤ 1023
  count : d.num 22 2 ≠ 0
  last : d.num 20 2 + d.num 22 2 ≤ 1024
  aligned : d.num 24 8 % 4096 = 0
  base : d.num 24 8 < 2 ^ 41
  granules : d.num 32 4 ≠ 0

/-- What an ASSIGN_VF gives a function (R265). -/
def FnState.assigned (f : FnState) (d : Desc) : FnState :=
  { f with
    slot := some (BitVec.ofNat 6 (d.num 17 1))
    groupFirst := d.num 20 2
    groupCount := d.num 22 2
    chsBase := d.num 24 8
    chsGranules := d.num 32 4 }

/-- The admin ring of a function that has run goes with its range (R259). -/
def State.moveAdmin (s : State) (vf : Nat) (d : Desc) : State :=
  let f := s.fn vf
  let kept := if f.groupCount = 0 then ({} : Ring) else s.ring (64 * f.groupFirst)
  (if f.groupCount = 0 then s else s.setRing (64 * f.groupFirst) {}).setRing (64 * d.num 20 2) kept

/-- A function with its slot, its rings and its part of the Coachhouse. -/
def State.assign (s : State) (vf : Nat) (d : Desc) : State :=
  (((s.moveAdmin vf d).setFn vf ((s.fn vf).assigned d)).setFnField vf Reg.HIF_FN_INFO 8 8 (d.num 17 1)).setFnField vf
    Reg.HIF_FN_INFO 16 16 (64 * d.num 22 2 - 1)

theorem moveAdmin_rest (s : State) (vf : Nat) (d : Desc) :
    s.moveAdmin vf d = { s with rings := (s.moveAdmin vf d).rings } := by
  unfold State.moveAdmin
  dsimp only
  split <;> rfl

theorem fn_moveAdmin (s : State) (vf : Nat) (d : Desc) (f : Nat) : (s.moveAdmin vf d).fn f = s.fn f := by
  rw [moveAdmin_rest]
  rfl

theorem fn_assign (s : State) (vf : Nat) (d : Desc) : Sets s.fn (s.assign vf d).fn vf ((s.fn vf).assigned d) := by
  refine ⟨?_, fun k hk => ?_⟩
  · rw [State.assign, State.setFnField_fnAt, State.setFnField_fnAt, fn_setFn_same]
  · rw [State.assign, State.setFnField_fnAt, State.setFnField_fnAt, fn_setFn_other _ _ _ _ hk, fn_moveAdmin]

theorem slot_assign (s : State) (vf : Nat) (d : Desc) :
    (s.assign vf d).fnField vf Reg.HIF_FN_INFO 8 8 = d.num 17 1 := by
  have byte : d.num 17 1 < 2 ^ 8 := Nat.mod_lt _ (by decide)
  rw [State.assign, fnField_setFnField_apart _ _ _ _ _ _ _ _ (by decide) (by decide),
    fnField_setFnField_same _ _ _ _ _ _ (by decide), Nat.mod_eq_of_lt byte]

theorem rings_assign (s : State) (vf : Nat) {d : Desc} (count : d.num 22 2 ≤ 1024) :
    (s.assign vf d).fnField vf Reg.HIF_FN_INFO 16 16 = 64 * d.num 22 2 - 1 := by
  rw [State.assign, fnField_setFnField_same _ _ _ _ _ _ (by decide), Nat.mod_eq_of_lt (by omega)]

/-- No ring but an admin ring is one of the function's. -/
theorem ringsWhere_bare {s : State} {rn vf : Nat} (d : Desc) (used : (s.ring rn).used = true)
    (bare : ∀ p ∈ s.rings, p.2.used = true → p.2.fn.toNat = vf → p.2.loc = 0#16) :
    ((started s rn d).ringsWhere fun r => r.fn.toNat == vf && r.loc != 0#16) = [] := by
  refine List.map_eq_nil_iff.2 (List.filter_eq_nil_iff.2 ?_)
  rintro ⟨k, x⟩ hx
  obtain ⟨y, listed, same⟩ := mem_rings_started used d hx
  simp only [Bool.and_eq_true, beq_iff_eq, bne_iff_ne, not_and, not_not]
  intro inUse own
  rw [same] at inUse own ⊢
  exact bare _ listed inUse own

section Assigns

variable {s : State} {rn : Nat} {d : Desc} (h : Assigns s rn d)
include h

/-- The function that is given a range exists, does not run, and holds no ring but its admin ring. -/
theorem Assigns.functionOk : (d.num 16 1 == 0 || decide (d.num 16 1 > (started s rn d).numVfs) ||
    (started s rn d).fnField (d.num 16 1) Reg.HIF_FN_CTRL 0 1 == 1 ||
    !((started s rn d).ringsWhere fun r => r.fn.toNat == d.num 16 1 && r.loc != 0#16).isEmpty) = false := by
  have counted : ¬(started s rn d).numVfs < d.num 16 1 := Nat.not_lt.2 h.inVfs
  have idle : (started s rn d).fnField (d.num 16 1) Reg.HIF_FN_CTRL 0 1 = 0 := h.idle
  rw [ringsWhere_bare d (ring_of_next h.starts.next).1 h.bare, idle]
  simp [h.virtual, counted]

/-- The slot exists, and no other function holds it. -/
theorem Assigns.slotOk : (decide (d.num 17 1 > 63) || (List.range 64).any fun f => f != 0 && f != d.num 16 1 &&
    ((started s rn d).fn f).slot == some (BitVec.ofNat 6 (d.num 17 1))) = false := by
  rw [decide_eq_false (Nat.not_lt.2 h.slot), Bool.false_or, List.any_eq_false]
  intro f hf
  simp only [Bool.and_eq_true, bne_iff_ne, beq_iff_eq, not_and, and_imp]
  exact fun zero vf => (h.others f zero vf (List.mem_range.1 hf)).1

/-- No other function's groups overlap the range. -/
theorem Assigns.groupsFree : ((List.range 64).any fun f => f != 0 && f != d.num 16 1 &&
    decide (((started s rn d).fn f).groupCount ≠ 0) &&
    decide (d.num 20 2 < ((started s rn d).fn f).groupFirst + ((started s rn d).fn f).groupCount) &&
    decide (((started s rn d).fn f).groupFirst < d.num 20 2 + d.num 22 2)) = false := by
  refine List.any_eq_false.2 fun f hf => ?_
  have same : (started s rn d).fn f = s.fn f := rfl
  rw [same]
  simp only [Bool.and_eq_true, bne_iff_ne, decide_eq_true_eq]
  rintro ⟨⟨⟨⟨zero, vf⟩, holds⟩, below⟩, above⟩
  have apart := (h.others f zero vf (List.mem_range.1 hf)).2
  omega

/-- The physical function has no ring in the range. -/
theorem Assigns.ringsFree : ((started s rn d).rings.any fun (k, r) => r.used && r.fn == 0#6 &&
    decide (64 * d.num 20 2 ≤ k) && decide (k < 64 * (d.num 20 2 + d.num 22 2))) = false := by
  refine List.any_eq_false.2 ?_
  rintro ⟨k, x⟩ hx
  obtain ⟨y, listed, same⟩ := mem_rings_started (ring_of_next h.starts.next).1 d hx
  simp only [Bool.and_eq_true, beq_iff_eq, decide_eq_true_eq]
  rintro ⟨⟨⟨inUse, physical⟩, low⟩, high⟩
  rw [same] at inUse physical
  have apart : k < 64 * d.num 20 2 ∨ 64 * (d.num 20 2 + d.num 22 2) ≤ k := h.clear _ listed inUse physical
  omega

theorem assignVf_eq :
    s.assignVf rn = (((started s rn d).assign (d.num 16 1) d).complete (refOf rn d) 0 0 0).settleRing rn := by
  have own : ((s.ring rn).fn != 0#6) = false := bne_eq_false_iff_eq.2 (BitVec.eq_of_toNat_eq h.physical)
  rw [State.assignVf, own, if_neg Bool.false_ne_true]
  refine (runDesc_acts h.starts _ ?_).trans rfl
  simp only [List.forall_mem_cons]
  refine ⟨h.functionOk, h.slotOk, decide_eq_false (Nat.not_lt.2 h.first), ?_, ?_, beq_eq_false_iff_ne.2 h.granules,
    fun _ hp => nomatch hp⟩
  · rw [h.groupsFree, h.ringsFree, beq_eq_false_iff_ne.2 h.count, decide_eq_false (Nat.not_lt.2 h.last)]
    rfl
  · rw [h.aligned, decide_eq_false (Nat.not_le.2 h.base)]
    rfl

end Assigns

theorem Outward.fnReg {s t : State} (h : Outward s t) (f a : Nat) : t.fnReg f a = s.fnReg f a := by
  unfold State.fnReg
  rw [h.rest]

theorem Outward.fnField {s t : State} (h : Outward s t) (f a lo w : Nat) : t.fnField f a lo w = s.fnField f a lo w := by
  rw [State.fnField, h.fnReg]
  rfl

theorem assignVf_answers {s : State} {ring : BitVec 16} {d : Desc} (h : Assigns s ring.toNat d) :
    Answers (.assignVf ring) s (Settled ring.toNat fun t =>
      Sets s.fn t.fn (d.num 16 1) ((s.fn (d.num 16 1)).assigned d) ∧
      t.fnField (d.num 16 1) Reg.HIF_FN_INFO 8 8 = d.num 17 1 ∧
      t.fnField (d.num 16 1) Reg.HIF_FN_INFO 16 16 = 64 * d.num 22 2 - 1) := by
  have few : d.num 22 2 ≤ 1024 := (Nat.le_add_left ..).trans h.last
  have out := outward_complete ((started s ring.toNat d).assign (d.num 16 1) d) (refOf ring.toNat d) 0 0 0
  obtain ⟨own, others⟩ := fn_assign (started s ring.toNat d) (d.num 16 1) d
  refine ⟨_, rfl, _, ⟨⟨?_, fun k hk => ?_⟩, ?_, ?_⟩, assignVf_eq h⟩
  · exact (out.fn _).trans own
  · exact (out.fn _).trans (others k hk)
  · exact (out.fnField ..).trans (slot_assign ..)
  · exact (out.fnField ..).trans (rings_assign _ _ few)

/-! ### SET_APERTURE (R252, R265) -/

/-- A function's aperture placed at a base. -/
def State.placeAperture (s : State) (fn b : Nat) : State :=
  (s.setFnReg fn Reg.HIF_BAR2_BASE_LO (BitVec.ofNat 32 b)).setFnReg fn Reg.HIF_BAR2_BASE_HI (BitVec.ofNat 32 (b / 2 ^ 32))

theorem placeAperture_base (s : State) (fn : Nat) {b : Nat} (h : b < 2 ^ 64) :
    ((s.placeAperture fn b).fnReg fn Reg.HIF_BAR2_BASE_LO).toNat +
      2 ^ 32 * ((s.placeAperture fn b).fnReg fn Reg.HIF_BAR2_BASE_HI).toNat = b := by
  have low : (s.placeAperture fn b).fnReg fn Reg.HIF_BAR2_BASE_LO = BitVec.ofNat 32 b := by
    rw [State.placeAperture, fnReg_setFnReg_other _ _ (by decide) (by decide) (.inr (by decide)),
      fnReg_setFnReg _ _ _ _ _ _ (fun _ => ⟨rfl, rfl⟩), if_pos ⟨rfl, rfl⟩]
  have high : (s.placeAperture fn b).fnReg fn Reg.HIF_BAR2_BASE_HI = BitVec.ofNat 32 (b / 2 ^ 32) := by
    rw [State.placeAperture, fnReg_setFnReg _ _ _ _ _ _ (fun _ => ⟨rfl, rfl⟩), if_pos ⟨rfl, rfl⟩]
  rw [low, high, BitVec.toNat_ofNat, BitVec.toNat_ofNat]
  omega

theorem placeAperture_other (s : State) (fn b : Nat) {a : Nat} (ha : a < 2 ^ 24) (low : a ≠ Reg.HIF_BAR2_BASE_LO)
    (high : a ≠ Reg.HIF_BAR2_BASE_HI) : (s.placeAperture fn b).fnReg fn a = s.fnReg fn a := by
  rw [State.placeAperture, fnReg_setFnReg_other _ _ (by decide) ha (.inr high),
    fnReg_setFnReg_other _ _ (by decide) ha (.inr low)]

theorem setAperture_eq {s : State} {rn : Nat} {d : Desc} (h : Starts s rn 4 d)
    (aligned : d.num 16 8 % apertureSize (s.ring rn).fn.toNat = 0) :
    s.setAperture rn = (((started s rn d).placeAperture (s.ring rn).fn.toNat (d.num 16 8)).complete (refOf rn d) 0 0 0).settleRing
      rn := by
  refine (runDesc_acts h _ ?_).trans rfl
  simp [aligned]

theorem setAperture_answers {s : State} {ring : BitVec 16} {d : Desc} (h : Starts s ring.toNat 4 d)
    (aligned : d.num 16 8 % apertureSize (s.ring ring.toNat).fn.toNat = 0) :
    Answers (.setAperture ring) s (Settled ring.toNat fun t =>
      (t.fnReg (s.ring ring.toNat).fn.toNat Reg.HIF_BAR2_BASE_LO).toNat +
        2 ^ 32 * (t.fnReg (s.ring ring.toNat).fn.toNat Reg.HIF_BAR2_BASE_HI).toNat = d.num 16 8 ∧
      ∀ a, a ≠ Reg.HIF_BAR2_BASE_LO → a ≠ Reg.HIF_BAR2_BASE_HI → a < 2 ^ 24 →
        t.fnReg (s.ring ring.toNat).fn.toNat a = s.fnReg (s.ring ring.toNat).fn.toNat a) := by
  have out := outward_complete ((started s ring.toNat d).placeAperture (s.ring ring.toNat).fn.toNat (d.num 16 8))
    (refOf ring.toNat d) 0 0 0
  have size : d.num 16 8 < 2 ^ 64 := Nat.mod_lt _ (Nat.two_pow_pos _)
  refine ⟨_, rfl, _, ⟨?_, fun a low high ha => ?_⟩, setAperture_eq h aligned⟩
  · rw [out.fnReg, out.fnReg]
    exact placeAperture_base _ _ size
  · rw [out.fnReg]
    exact placeAperture_other _ _ _ ha low high

end Sys2Proof.Machine
end

section
/-! DMAs of the host (08 R266, R267, 09 R297): one whose range may be reached holds its job, and its end moves the bytes. -/

namespace Sys2Proof.Machine

/-- A DMA whose fields are in range, while the module serves. -/
structure DmaClean (s : State) (rn op : Nat) (d : Desc) : Prop where
  starts : Starts s rn op d
  serves : s.service ≠ 0
  offset : d.num 24 8 < 2 ^ 41
  nonempty : 0 < d.num 32 4
  size : d.num 32 4 ≤ 2 ^ 30
  tag : d.num 36 1 = 0xFF → d.num 38 2 = 0

/-- A job that a DMA through one of its windows holds (R297). -/
def State.dmaHeld (s : State) (d : Desc) (ref : DescRef) : State :=
  if d.num 36 1 = 0xFF then s
  else s.modJob (d.num 38 2 % 64) fun j => { j with dmas := j.dmas ++ [ref] }

/-- A job that a DMA no longer holds. -/
def State.dmaFreed (s : State) (d : Desc) (ref : DescRef) : State :=
  if d.num 36 1 = 0xFF then s
  else s.modJob (d.num 38 2 % 64) fun j => { j with dmas := j.dmas.filter (· != ref) }

/-- A descriptor that starts changes nothing of what a DMA may reach. -/
theorem dmaAddress_started (s : State) (rn : Nat) (d : Desc) (fn : Nat) :
    (started s rn d).dmaAddress fn d = s.dmaAddress fn d := rfl

theorem dmaTests_clean {s : State} {rn op : Nat} {d : Desc} (h : DmaClean s rn op d) : ∀ p ∈ dmaTests d, p.2 = false := by
  obtain ⟨-, -, offset, nonempty, size, tag⟩ := h
  have named : (d.num 36 1 == 0xFF && d.num 38 2 != 0) = false := by
    by_cases whole : d.num 36 1 = 0xFF
    · simp [tag whole]
    · simp [whole]
  have length : (d.num 32 4 == 0 || decide (d.num 32 4 > 2 ^ 30)) = false := by
    rw [beq_eq_false_iff_ne.2 nonempty.ne', decide_eq_false (Nat.not_lt.2 size)]
    rfl
  simp only [dmaTests, List.forall_mem_cons]
  exact ⟨decide_eq_false (Nat.not_le.2 offset), length, named, fun _ hp => nomatch hp⟩

/-- A DMA that may reach its range starts, and holds its job where it goes through a window. -/
theorem dmaStart_eq {s : State} {rn op : Nat} {d : Desc} (h : DmaClean s rn op d)
    (reach : s.dmaAddress (s.ring rn).fn.toNat d ≠ none) :
    s.dmaStart rn op = ((started s rn d).dmaHeld d (refOf rn d)).settleRing rn := by
  obtain ⟨a, found⟩ := Option.ne_none_iff_exists'.1 reach
  have serves : ¬(started s rn d).service = 0 := h.serves
  refine (runDesc_acts h.starts _ (dmaTests_clean h)).trans (congrArg (State.settleRing · rn) ?_)
  rw [if_neg serves, dmaAddress_started, found]
  rfl

/-- The descriptor of a DMA that has started and not ended. -/
def Moving (s : State) (rn op : Nat) (d : Desc) : Prop :=
  (s.ring rn).descs.find? (fun x => x.idx == d.idx && x.phase == .started && (x.opcode == 0x20 || x.opcode == 0x21)) = some d ∧
    d.opcode = op

/-- A DMA to the Coachhouse all of whose lines were written (R266, R267). -/
theorem dmaComplete_toChs {s v : State} {rn : Nat} {d : Desc} (h : Moving s rn 0x20 d)
    (written : s.chsWrite (s.dmaBase d) (readBytes s.hostMem (d.num 16 8) (d.num 32 4)) (fun _ => false)
      (BitVec.ofNat 16 (d.num 38 2)) (s.pairedRing rn) = (v, [])) :
    s.dmaComplete rn d.idx .ok = (v.dmaFreed d (refOf rn d)).complete (refOf rn d) 0 (BitVec.ofNat 16 (d.num 38 2)) 0 := by
  obtain ⟨found, opcode⟩ := h
  have other : ¬d.opcode = 0x21 := by rw [opcode]; decide
  simp only [State.dmaComplete, found, other, if_false, written]
  rfl

/-- A DMA from the Coachhouse all of whose lines were read (R266, R267). -/
theorem dmaComplete_fromChs {s v : State} {rn : Nat} {d : Desc} {bs : List Byte} (h : Moving s rn 0x21 d)
    (read : s.chsRead (s.dmaBase d) (d.num 32 4) (BitVec.ofNat 16 (d.num 38 2)) = (bs, [], v)) :
    s.dmaComplete rn d.idx .ok =
      (State.dmaFreed { v with hostMem := writeBytes v.hostMem (d.num 16 8) bs } d (refOf rn d)).complete (refOf rn d) 0
        (BitVec.ofNat 16 (d.num 38 2)) 0 := by
  obtain ⟨found, opcode⟩ := h
  simp only [State.dmaComplete, found, opcode, if_true, read]
  rfl

/-- Settles O46: each admin command by what it answers, a DMA by its start and its end. -/
theorem hostCommands : Obligations.HostCommands := by
  intro ring d s rn fn u ref loc g vf first count lg slot tag clean held freed moving
  have dma {op : Nat} (h : clean op) : DmaClean s rn op d := by
    obtain ⟨starts, serves, offset, nonempty, size, tag⟩ := h
    exact ⟨starts, serves, offset, nonempty, size, tag⟩
  refine ⟨fun starts notAdmin inRange unused deep shallow port vector each descs cpls own => ⟨_, rfl, _, rfl, createRing_eq
      ⟨starts, notAdmin, inRange, unused, deep, shallow, port, vector, each, descs, cpls, own⟩⟩,
    fun starts used admin => destroyRing_admin starts rfl used admin,
    fun starts notAdmin inRange other used notFirst stays fetched noStart => destroyRing_answers
      ⟨starts, rfl, notAdmin, inRange, other, used, notFirst, stays, fetched, noStart⟩,
    fun starts physical virtual inVfs _ idle bare slotOk others clear firstOk countOk last aligned base granules =>
      assignVf_answers ⟨starts, physical, virtual, inVfs, idle, bare, slotOk, others, clear, firstOk, countOk, last, aligned,
        base, granules⟩,
    fun starts aligned => setAperture_answers starts aligned,
    fun h reach => ⟨_, rfl, _, rfl, dmaStart_eq (dma h) reach⟩, fun h reach => ⟨_, rfl, _, rfl, dmaStart_eq (dma h) reach⟩,
    fun v h written => ⟨_, rfl, dmaComplete_toChs h written⟩, fun bs v h read => ⟨_, rfl, dmaComplete_fromChs h read⟩⟩

end Sys2Proof.Machine
end

section
/-! Lantern ports (10 R307-R319): what one operation leaves of its port, and of the state beside it. -/

namespace Sys2Proof.Machine

/-- A command on which the probes look answers what holds before they do. -/
theorem answers_traced {c : Instr} {s t : State} {P : State → Prop} (run : exec c s = .next (s.traced t)) (holds : P t) :
    Answers c s (Noted P) := ⟨_, run, t, holds, probesOnly_traced s t⟩

/-- The same where that state is known under another name. -/
theorem answers_traced_eq {c : Instr} {s t u : State} {P : State → Prop} (run : exec c s = .next (s.traced t)) (e : t = u)
    (holds : P u) : Answers c s (Noted P) := answers_traced run (e ▸ holds)

theorem port_of_ports {s t : State} (same : t.ports = s.ports) (q : Nat) : t.port q = s.port q := by
  rw [State.port, same]
  rfl

theorem sets_setPort {s t : State} (same : t.ports = s.ports) (p : Nat) (x : Port) : Sets s.port (t.setPort p x).port p x :=
  ⟨port_setPort_same t p x, fun j other => (port_setPort_other t p j x other).trans (port_of_ports same j)⟩

/-- Nothing differs but one port, which is now x. -/
structure PortIs (p : Nat) (s t : State) (x : Port) : Prop where
  rest : t = { s with ports := t.ports }
  sets : Sets s.port t.port p x

namespace PortIs

variable {p : Nat} {s t u : State} {x y : Port}

theorem port (h : PortIs p s t x) : t.port p = x := h.sets.1
theorem regs (h : PortIs p s t x) : t.regs = s.regs := by rw [h.rest]
theorem ms (h : PortIs p s t x) : t.ms = s.ms := by rw [h.rest]
theorem sent (h : PortIs p s t x) : t.sent = s.sent := by rw [h.rest]
theorem ev (h : PortIs p s t x) : t.ev = s.ev := by rw [h.rest]

theorem refl (p : Nat) (s : State) : PortIs p s s (s.port p) := ⟨rfl, rfl, fun _ _ => rfl⟩

theorem trans (a : PortIs p s t x) (b : PortIs p t u y) : PortIs p s u y :=
  ⟨by rw [b.rest, a.rest], b.sets.1, fun j other => (b.sets.2 j other).trans (a.sets.2 j other)⟩

theorem setPort (h : PortIs p s t x) (y : Port) : PortIs p s (t.setPort p y) y :=
  h.trans ⟨rfl, sets_setPort rfl p y⟩

theorem modPort (h : PortIs p s t x) (f : Port → Port) : PortIs p s (t.modPort p f) (f x) := by
  rw [State.modPort, h.port]
  exact h.setPort _

theorem sendCtl (h : PortIs p s t x) (m : List Byte) : PortIs p s (t.sendCtl p m) { x with ctlq := x.ctlq ++ [m] } :=
  h.modPort _

end PortIs

/-! ### Readers that depend on registers and one port -/

theorem maxPairs_of_regs {s t : State} (same : t.regs = s.regs) (p : Nat) : t.maxPairs p = s.maxPairs p := by
  rw [State.maxPairs, field_of_regs same]
  rfl

theorem maxPairs_of_reg {s t : State} {p : Nat} (same : t.reg (Reg.LTN_PORT_CTRL p) = s.reg (Reg.LTN_PORT_CTRL p)) :
    t.maxPairs p = s.maxPairs p := by
  rw [State.maxPairs, field_of_reg same]
  rfl

theorem sourceName_of_regs {s t : State} (same : t.regs = s.regs) (src : Nat) : t.sourceName src = s.sourceName src := by
  rw [State.sourceName, State.moduleId, field_of_regs same]
  rfl

/-- Since when a wider clean group exists for a port in ACTIVE, if it does (R317). -/
def State.wideFor (s : State) (p : Nat) (x : Port) : Option Nat :=
  if (match chooseGroup (min (s.maxPairs p) x.peerMax.toNat) x.bad with
    | some (w, _) => x.st == 7#4 && decide (x.width.toNat < w)
    | none => false) then some (x.wideSince.getD s.ms) else none

theorem PortIs.noteWider {p : Nat} {s t : State} {x : Port} (h : PortIs p s t x) :
    PortIs p s (t.noteWider p) { x with wideSince := s.wideFor p x } := by
  rw [State.noteWider, State.wideFor, State.targetWidth, h.port, h.ms, maxPairs_of_regs h.regs]
  exact h.setPort _

/-! ### Registers of a port (R322) -/

theorem ctrl_ne_events (p : Nat) : Reg.LTN_PORT_CTRL p ≠ Reg.LTN_PORT_EVENTS p := by
  unfold Reg.LTN_PORT_EVENTS Reg.LTN_PORT_CTRL
  omega

theorem counts_bump (s : State) (r lo w : Nat) (fits : lo + w ≤ 32) : Counts s (s.bump r lo w 1) r lo w :=
  field_bump_same s r lo w 1 fits

/-- A count after steps that leave the registers. -/
theorem counts_bump_of_regs {s u : State} (same : u.regs = s.regs) (r lo w : Nat) (fits : lo + w ≤ 32) :
    Counts s (u.bump r lo w 1) r lo w := by
  rw [Counts, field_bump_same u r lo w 1 fits, field_of_regs same]

theorem counts_of_regs {s t u : State} {r lo w : Nat} (h : Counts s t r lo w) (same : u.regs = t.regs) : Counts s u r lo w :=
  (field_of_regs same r lo w).trans h

/-! ### The header of a received flit (R309, R311) -/

/-- What the model frees is what the statement counts. -/
theorem takeHeader_eq (s : State) (p : Nat) (f : Flit) :
    s.takeHeader p f =
      if f.nak = true ∧ (headed s (s.port p) f.ack f.credit f.creditChan).unacked ≠ [] then
        (s.setPort p { headed s (s.port p) f.ack f.credit f.creditChan with
          replayLeft := (headed s (s.port p) f.ack f.credit f.creditChan).unacked.length }).bump (Reg.LTN_PORT_REPLAY p) 0 16 1
      else s.setPort p (headed s (s.port p) f.ack f.credit f.creditChan) := by
  have freed : ackFrees (s.port p) f.ack = match (s.port p).unacked with
      | t :: _ => if (f.ack - t.flit.seq.setWidth 12 + 1).toNat ≤ (s.port p).unacked.length then
          (f.ack - t.flit.seq.setWidth 12 + 1).toNat else 0
      | [] => 0 := rfl
  simp only [State.takeHeader, headed, freed, List.length_drop, ne_eq, Bool.not_eq_true', List.isEmpty_eq_false_iff, ite_not] <;> rfl

/-- A good flit that carries no nak, or finds nothing to send again. -/
theorem takeHeader_calm {s : State} {p : Nat} {f : Flit}
    (calm : f.nak = false ∨ (headed s (s.port p) f.ack f.credit f.creditChan).unacked = []) :
    s.takeHeader p f = s.setPort p (headed s (s.port p) f.ack f.credit f.creditChan) := by
  rw [takeHeader_eq, if_neg]
  rintro ⟨nak, waits⟩
  exact calm.elim (fun none => Bool.false_ne_true (none.symm.trans nak)) waits

/-- One that carries a nak: everything that waits is sent again. -/
theorem takeHeader_nak {s : State} {p : Nat} {f : Flit} (nak : f.nak = true)
    (waits : (headed s (s.port p) f.ack f.credit f.creditChan).unacked ≠ []) :
    s.takeHeader p f = (s.setPort p { headed s (s.port p) f.ack f.credit f.creditChan with
      replayLeft := (headed s (s.port p) f.ack f.credit f.creditChan).unacked.length }).bump (Reg.LTN_PORT_REPLAY p) 0 16 1 := by
  rw [takeHeader_eq, if_pos ⟨nak, waits⟩]

end Sys2Proof.Machine
end
section
/-! Flits that leave (10 R307-R311, R313, R314): the header that each carries, and what it leaves of its port. -/

namespace Sys2Proof.Machine

/-! ### The flit with its header -/

/-- A flit as it leaves a port: with the port's ack, nak and credit return, and its CRC (R307-R309). -/
def Port.heads (x : Port) (f : Flit) : Flit :=
  flitSealed { f with
    ack := x.rxNext - 1, nak := x.nakDue, credit := BitVec.ofNat 12 x.nextCredit.2, creditChan := BitVec.ofNat 2 x.nextCredit.1 }

/-- The port after that header has left. -/
def Port.afterHead (x : Port) (now : Nat) : Port :=
  { x with
    owed := AMap.set 0 x.owed x.nextCredit.1 (AMap.get 0 x.owed x.nextCredit.1 - x.nextCredit.2), nakDue := false
    nakHeldMs := if x.nakDue then some now else x.nakHeldMs }

theorem flitGood_sealed (f : Flit) : flitGood (flitSealed f) = true := beq_self_eq_true _

theorem nextCredit_lt (x : Port) : x.nextCredit.1 < 4 ∧ x.nextCredit.2 < 2 ^ 12 := by
  unfold Port.nextCredit
  split
  · rename_i c found
    exact ⟨List.mem_range.1 (List.mem_of_find?_eq_some found), by omega⟩
  · decide

theorem creditChan_heads (x : Port) (f : Flit) : (x.heads f).creditChan.toNat = x.nextCredit.1 :=
  (BitVec.toNat_ofNat ..).trans (Nat.mod_eq_of_lt (nextCredit_lt x).1)

theorem credit_heads (x : Port) (f : Flit) : (x.heads f).credit.toNat = x.nextCredit.2 :=
  (BitVec.toNat_ofNat ..).trans (Nat.mod_eq_of_lt (nextCredit_lt x).2)

/-! ### What a flit that leaves may touch -/

/-- Only registers, what leaves the module, and one port may differ. -/
structure LinkOnly (p : Nat) (s t : State) : Prop where
  rest : t = { s with ports := t.ports, sent := t.sent, regs := t.regs }
  others : ∀ q, q ≠ p → t.port q = s.port q

namespace LinkOnly

variable {p : Nat} {s t u : State}

theorem trans (a : LinkOnly p s t) (b : LinkOnly p t u) : LinkOnly p s u :=
  ⟨by rw [b.rest, a.rest], fun q other => (b.others q other).trans (a.others q other)⟩

theorem ms (h : LinkOnly p s t) : t.ms = s.ms := by rw [h.rest]

theorem regsOnly (h : RegsOnly s t) : LinkOnly p s t := ⟨by rw [h.rest], fun q _ => port_of_ports (by rw [h.rest]) q⟩

theorem setPort (s : State) (p : Nat) (x : Port) : LinkOnly p s (s.setPort p x) :=
  ⟨rfl, fun q other => port_setPort_other s p q x other⟩

end LinkOnly

/-- A flit has left a port on a set of pairs; the port is now y. -/
structure FlitLeft (p : Nat) (pairs : Byte) (g : Flit) (y : Port) (s t : State) : Prop where
  only : LinkOnly p s t
  port : t.port p = y
  sent : t.sent = .flit (BitVec.ofNat 7 p) pairs g :: s.sent

/-- A nak that leaves is counted (R322). -/
def State.countNak (s : State) (p : Nat) (nak : Bool) : State := if nak then s.bump (Reg.LTN_PORT_REPLAY p) 16 16 1 else s

theorem regsOnly_countNak (s : State) (p : Nat) (nak : Bool) : RegsOnly s (s.countNak p nak) := by
  unfold State.countNak
  split
  · exact regsOnly_bump ..
  · exact regsOnly_refl s

theorem reg_countNak (s : State) (p : Nat) (nak : Bool) {a : Nat} (other : a ≠ Reg.LTN_PORT_REPLAY p) :
    (s.countNak p nak).reg a = s.reg a := by
  unfold State.countNak
  split
  · exact reg_bump_other _ _ _ _ _ _ other
  · rfl

theorem emit_eq (s : State) (p : Nat) (pairs : Byte) (f : Flit) :
    s.emit p pairs f = ((s.countNak p (s.port p).nakDue).setPort p ((s.port p).afterHead (s.countNak p (s.port p).nakDue).ms)).send
      (.flit (BitVec.ofNat 7 p) pairs ((s.port p).heads f)) := rfl

theorem reg_emit (s : State) (p : Nat) (pairs : Byte) (f : Flit) {a : Nat} (other : a ≠ Reg.LTN_PORT_REPLAY p) :
    (s.emit p pairs f).reg a = s.reg a := by
  rw [emit_eq, State.send_reg, State.setPort_reg, reg_countNak s p _ other]

/-- A flit leaves (R307-R309). -/
theorem flitLeft_emit (s : State) (p : Nat) (pairs : Byte) (f : Flit) :
    FlitLeft p pairs ((s.port p).heads f) ((s.port p).afterHead s.ms) s (s.emit p pairs f) := by
  have counted := regsOnly_countNak s p (s.port p).nakDue
  have now : (s.countNak p (s.port p).nakDue).ms = s.ms := by rw [counted.rest]
  have before : (s.countNak p (s.port p).nakDue).sent = s.sent := by rw [counted.rest]
  rw [emit_eq, now]
  refine ⟨(LinkOnly.regsOnly counted).trans ⟨rfl, fun q other => port_setPort_other _ p q _ other⟩, port_setPort_same .., ?_⟩
  rw [← before]
  rfl

namespace FlitLeft

variable {p : Nat} {y : Port} {pairs : Byte} {g : Flit} {s t u : State}

/-- Steps before the flit of which nothing is sent. -/
theorem after (h : FlitLeft p pairs g y t u) (only : LinkOnly p s t) (sent : t.sent = s.sent) :
    FlitLeft p pairs g y s u := ⟨only.trans h.only, h.port, h.sent.trans (by rw [sent])⟩

/-- The port changes further. -/
theorem setPort (h : FlitLeft p pairs g y s t) (z : Port) : FlitLeft p pairs g z s (t.setPort p z) :=
  ⟨h.only.trans (LinkOnly.setPort t p z), port_setPort_same .., h.sent⟩

theorem modPort (h : FlitLeft p pairs g y s t) (f : Port → Port) : FlitLeft p pairs g (f y) s (t.modPort p f) := by
  rw [State.modPort, h.port]
  exact h.setPort _

end FlitLeft

/-- A flit of a port that has changed but for what a header is made of. -/
theorem flitLeft_setPort_emit (s : State) (p : Nat) (x : Port) (pairs : Byte) {f g : Flit} (same : x.heads f = g) :
    FlitLeft p pairs g (x.afterHead s.ms) s ((s.setPort p x).emit p pairs f) := by
  subst same
  have left := flitLeft_emit (s.setPort p x) p pairs f
  rw [port_setPort_same] at left
  exact left.after (LinkOnly.setPort ..) rfl

/-- What a flit slot answers where a flit leaves with the header of the port as it stands. -/
theorem flitSlot_leaves {port : BitVec 7} {s : State} {y : Port} {pairs : Byte} {f : Flit} {P : Flit → State → Prop}
    (left : FlitLeft port.toNat pairs ((s.port port.toNat).heads f) y s (s.flitSlot port.toNat)) (quiet : y.nakDue = false)
    (holds : (s.flitSlot port.toNat).sent = .flit port pairs ((s.port port.toNat).heads f) :: s.sent →
      P ((s.port port.toNat).heads f) (s.flitSlot port.toNat)) :
    Answers (.flitSlot port) s (Noted fun t =>
      (∀ q, q ≠ port.toNat → t.port q = s.port q) ∧ t = { s with ports := t.ports, sent := t.sent, regs := t.regs } ∧
      ∃ g, flitGood g = true ∧ g.ack = (s.port port.toNat).rxNext - 1 ∧ g.nak = (s.port port.toNat).nakDue ∧
        g.creditChan.toNat = (s.port port.toNat).nextCredit.1 ∧ g.credit.toNat = (s.port port.toNat).nextCredit.2 ∧
        (t.port port.toNat).nakDue = false ∧ P g t) := by
  obtain ⟨⟨rest, others⟩, stands, sent⟩ := left
  rw [BitVec.ofNat_toNat, BitVec.setWidth_eq] at sent
  exact answers_traced rfl ⟨others, rest, _, flitGood_sealed _, rfl, rfl, creditChan_heads _ f, credit_heads _ f,
    by rw [stands, quiet], holds sent⟩

/-! ### The flit slot of a port in ACTIVE -/

/-- A port in ACTIVE that has nothing to ask for (R316-R318). -/
structure Settled (s : State) (p : Nat) : Prop where
  active : (s.port p).st = 7#4
  want : (s.port p).want = none
  clean : ((s.port p).ownBad ||| (s.port p).permBad) &&& (s.port p).pairs = 0#8
  width : (s.port p).width.toNat ≤ s.maxPairs p

section
variable {s : State} {p : Nat}

theorem considerReq_settled (h : Settled s p) : s.considerReq p = s := by
  simp [State.considerReq, h.want, h.clean, Nat.not_lt.2 h.width]

theorem countStall_flowing {k : Nat} (next : (s.port p).nextChan = some k) : s.countStall p = s := by
  simp [State.countStall, next]

theorem regsOnly_countStall (s : State) (p : Nat) : RegsOnly s (s.countStall p) := by
  unfold State.countStall
  dsimp only
  split
  · exact regsOnly_bump ..
  · exact regsOnly_refl s

/-- Counting a stall leaves the ports and what is sent. -/
theorem port_countStall (s : State) (p q : Nat) : (s.countStall p).port q = s.port q :=
  port_of_ports (by rw [(regsOnly_countStall s p).rest]) q

theorem FlitLeft.afterStall {q : Nat} {y : Port} {pairs : Byte} {g : Flit} {u : State}
    (h : FlitLeft p pairs g y (s.countStall q) u) : FlitLeft p pairs g y s u :=
  h.after (LinkOnly.regsOnly (regsOnly_countStall s q)) (by rw [(regsOnly_countStall s q).rest])

theorem st_toNat {x : Port} {v : BitVec 4} (h : x.st = v) : x.st.toNat = v.toNat := by rw [h]

theorem flitSlot_replay (h : Settled s p) (replay : (s.port p).replayLeft ≠ 0) :
    s.flitSlot p = (s.countStall p).emitReplay p := by
  simp only [State.flitSlot, st_toNat h.active, considerReq_settled h, port_countStall, if_pos replay]
  rfl

theorem flitSlot_ctl (h : Settled s p) (none : (s.port p).replayLeft = 0) {m : List Byte} {rest : List (List Byte)}
    (waits : (s.port p).ctlq = m :: rest) : s.flitSlot p = (s.countStall p).emitCtl p m rest := by
  simp only [State.flitSlot, st_toNat h.active, considerReq_settled h, port_countStall, none, waits]
  rfl

theorem flitSlot_data (h : Settled s p) (none : (s.port p).replayLeft = 0) (quiet : (s.port p).ctlq = [])
    (room : (s.port p).unacked.length < 2048) {k : Nat} (next : (s.port p).nextChan = some k) :
    s.flitSlot p = s.emitData p k := by
  simp only [State.flitSlot, st_toNat h.active, considerReq_settled h, countStall_flowing next, none, quiet, if_pos room, next]
  rfl

theorem flitSlot_idle (h : Settled s p) (none : (s.port p).replayLeft = 0) (quiet : (s.port p).ctlq = [])
    (full : 2048 ≤ (s.port p).unacked.length ∨ (s.port p).nextChan = Option.none) :
    s.flitSlot p = (s.countStall p).emit p (s.port p).txPairs (plainFlit 0 []) := by
  have stays : (if (s.port p).unacked.length < 2048 then (s.port p).nextChan else Option.none) = Option.none := by
    split
    · exact full.resolve_left (by omega)
    · rfl
  simp only [State.flitSlot, st_toNat h.active, considerReq_settled h, port_countStall, none, quiet, stays]
  rfl

/-- A replay that is not the fifth of its flit (R309). -/
theorem flitLeft_emitReplay {o : TxFlit} (at_ : (s.port p).unacked[(s.port p).unacked.length - (s.port p).replayLeft]? = some o)
    (early : o.sends ≠ 4) :
    FlitLeft p (s.port p).txPairs ((s.port p).heads o.flit) (Port.afterHead { s.port p with
      replayLeft := (s.port p).replayLeft - 1
      unacked := (s.port p).unacked.set ((s.port p).unacked.length - (s.port p).replayLeft) { o with sends := o.sends + 1 } } s.ms)
      s (s.emitReplay p) := by
  have early' : ¬o.sends + 1 = 5 := by omega
  simp only [State.emitReplay, at_, if_neg early']
  exact flitLeft_setPort_emit _ _ _ _ (by rfl)

/-- A control flit that is neither a mark nor TIME (R308, R313). -/
theorem flitLeft_emitCtl {m : List Byte} (rest : List (List Byte)) (noMark : m.head? ≠ some 0x05#8) (noTime : m.head? ≠ some 0x06#8) :
    FlitLeft p (s.port p).txPairs ((s.port p).heads (plainFlit 2 m)) (Port.afterHead { s.port p with ctlq := rest } s.ms) s
      (s.emitCtl p m rest) := by
  have stays (t : State) : t.ctlLeft p m = t := by
    unfold State.ctlLeft
    split
    · exact absurd rfl noMark
    · exact absurd rfl noMark
    · rfl
  have chosen : (if m.head? = some 0x06 then timeBytes s.ms else m) = m := if_neg noTime
  simp only [State.emitCtl, chosen, stays]
  exact flitLeft_setPort_emit _ _ _ _ (by rfl)

/-! ### A data flit (R307, R308, R311, R324) -/

/-- A port after a data flit of a channel has left it, but for the header. -/
def Port.afterData (x : Port) (c now : Nat) : Port :=
  { x with
    txq := AMap.set [] x.txq c ((AMap.get [] x.txq c).drop 15)
    credits := AMap.set 0 x.credits c (AMap.get 0 x.credits c - 1)
    txSeq := x.txSeq + 1
    rr := (c + 1) % 4
    ackMs := if x.unacked.isEmpty then now else x.ackMs
    unacked := x.unacked ++ [{ flit := dataFlit c x.txSeq ((AMap.get [] x.txq c).take 15), sends := 1 }] }

theorem emitData_eq (s : State) (p c : Nat) :
    s.emitData p c = ((s.setPort p ((s.port p).afterData c s.ms)).setReg64 (Reg.LTN_PORT_TX_LO p)
      (min (s.reg64 (Reg.LTN_PORT_TX_LO p) + 1) (2 ^ 64 - 1))).emit p (s.port p).txPairs
        (dataFlit c (s.port p).txSeq ((AMap.get [] (s.port p).txq c).take 15)) := rfl

theorem flitLeft_emitData (s : State) (p c : Nat) :
    FlitLeft p (s.port p).txPairs ((s.port p).heads (dataFlit c (s.port p).txSeq ((AMap.get [] (s.port p).txq c).take 15)))
      (((s.port p).afterData c s.ms).afterHead s.ms) s (s.emitData p c) := by
  rw [emitData_eq]
  have left := flitLeft_emit ((s.setPort p ((s.port p).afterData c s.ms)).setReg64 (Reg.LTN_PORT_TX_LO p)
    (min (s.reg64 (Reg.LTN_PORT_TX_LO p) + 1) (2 ^ 64 - 1))) p (s.port p).txPairs
    (dataFlit c (s.port p).txSeq ((AMap.get [] (s.port p).txq c).take 15))
  rw [State.setReg64_portAt, port_setPort_same, State.setReg64_ms, State.setPort_ms] at left
  refine left.after ((LinkOnly.setPort ..).trans (LinkOnly.regsOnly (regsOnly_setReg64 ..))) ?_
  rw [State.setReg64_sent, State.setPort_sent]

/-- A flit that leaves counts naks only (R322). -/
theorem reg64_emit (s : State) (p : Nat) (pairs : Byte) (f : Flit) {a : Nat} (low : a ≠ Reg.LTN_PORT_REPLAY p)
    (high : a + 4 ≠ Reg.LTN_PORT_REPLAY p) : (s.emit p pairs f).reg64 a = s.reg64 a :=
  reg64_of_reg (reg_emit s p pairs f low) (reg_emit s p pairs f high)

/-- The data flits sent are counted (R322). -/
theorem sentCount_emitData (s : State) (p c : Nat) :
    (s.emitData p c).reg64 (Reg.LTN_PORT_TX_LO p) = min (s.reg64 (Reg.LTN_PORT_TX_LO p) + 1) (2 ^ 64 - 1) := by
  have apart : Reg.LTN_PORT_TX_LO p ≠ Reg.LTN_PORT_REPLAY p ∧ Reg.LTN_PORT_TX_LO p + 4 ≠ Reg.LTN_PORT_REPLAY p := by
    unfold Reg.LTN_PORT_TX_LO Reg.LTN_PORT_REPLAY
    omega
  rw [emitData_eq, reg64_emit _ _ _ _ apart.1 apart.2, reg64_setReg64_same, Nat.mod_eq_of_lt (by omega)]

theorem nextChan_some {x : Port} {k : Nat} (next : x.nextChan = some k) : k < 4 ∧ AMap.get 0 x.credits k ≠ 0 := by
  obtain ⟨i, -, rfl⟩ := List.mem_map.1 (List.mem_of_find?_eq_some next)
  have found := List.find?_some next
  simp only [Bool.and_eq_true, bne_iff_ne] at found
  exact ⟨Nat.mod_lt _ (by decide), found.2⟩

theorem chan_dataFlit {c : Nat} (small : c < 4) (seq : BitVec 12) (segs : List Seg) : (dataFlit c seq segs).chan.toNat = c :=
  (BitVec.toNat_ofNat ..).trans (Nat.mod_eq_of_lt (by omega))

/-- The poison marks of segments, gathered into a number. -/
theorem poisonMarks_eq (segs : List Seg) :
    segs.zipIdx.foldl (fun n (g, i) => if g.poison then n + 2 ^ i else n) 0 = gather (fun i => segs[i]?.any (·.poison)) segs.length := by
  induction segs using List.reverseRecOn with
  | nil => rfl
  | append_singleton segs g ih =>
    have early : gather (fun i => (segs ++ [g])[i]?.any (·.poison)) segs.length = gather (fun i => segs[i]?.any (·.poison)) segs.length := by
      refine List.foldl_ext _ _ _ fun v i inside => ?_
      simp only [List.getElem?_append_left (List.mem_range.1 inside)]
    rw [List.zipIdx_append, List.foldl_append, ih, List.length_append, List.length_singleton, gather_succ, early]
    simp

/-- Each segment's poison mark stands in the header at its place (R307). -/
theorem poison_dataFlit (c : Nat) (seq : BitVec 12) {segs : List Seg} (short : segs.length ≤ 16) {i : Nat} {d : Seg}
    (at_ : segs[i]? = some d) : (dataFlit c seq segs).poison.getLsbD i = d.poison := by
  have inside : i < segs.length := (List.getElem?_eq_some_iff.1 at_).1
  change (BitVec.ofNat 16 (segs.zipIdx.foldl (fun n (g, i) => if g.poison then n + 2 ^ i else n) 0)).getLsbD i = d.poison
  rw [poisonMarks_eq, BitVec.getLsbD_ofNat, testBit_gather, at_]
  simp [inside, Nat.lt_of_lt_of_le inside short]

/-! ### A port in training -/

/-- The state in which TS has left (R313). -/
def State.tsLeft (s : State) (p : Nat) : State :=
  (s.emit p 0xFF (plainFlit 2 (tsBytes (s.tsMsg p)))).modPort p fun y =>
    { y with tsSent := (s.port p).st.toNat == 5 || ((s.port p).st.toNat == 8 && (s.port p).locked != 0) }

/-- The state in which CONFIG has left (R313). -/
def State.configLeft (s : State) (p : Nat) : State :=
  (s.emit p (s.port p).pairs (plainFlit 2 (configBytes (s.configMsg p)))).modPort p fun y => { y with cfgSent := true }

theorem flitSlot_training (h : ((s.port p).st = 3#4 ∧ (s.port p).seekPause = false) ∨ (s.port p).st = 4#4 ∨ (s.port p).st = 5#4) :
    s.flitSlot p = (s.tsLeft p).tsExchanged p := by
  rcases h with ⟨st, unpaused⟩ | st | st
  · simp [State.flitSlot, State.tsLeft, st, unpaused]
  · simp [State.flitSlot, State.tsLeft, st]
  · simp [State.flitSlot, State.tsLeft, st]

theorem flitSlot_config (st : (s.port p).st = 6#4) : s.flitSlot p = (s.configLeft p).cfgExchanged p := by
  simp [State.flitSlot, State.configLeft, st]

theorem flitLeft_tsLeft (s : State) (p : Nat) :
    FlitLeft p 0xFF#8 ((s.port p).heads (plainFlit 2 (tsBytes (s.tsMsg p))))
      { (s.port p).afterHead s.ms with
        tsSent := (s.port p).st.toNat == 5 || ((s.port p).st.toNat == 8 && (s.port p).locked != 0) } s (s.tsLeft p) :=
  (flitLeft_emit s p 0xFF#8 _).modPort fun y =>
    { y with tsSent := (s.port p).st.toNat == 5 || ((s.port p).st.toNat == 8 && (s.port p).locked != 0) }

theorem flitLeft_configLeft (s : State) (p : Nat) :
    FlitLeft p (s.port p).pairs ((s.port p).heads (plainFlit 2 (configBytes (s.configMsg p))))
      { (s.port p).afterHead s.ms with cfgSent := true } s (s.configLeft p) :=
  (flitLeft_emit s p (s.port p).pairs _).modPort fun y => { y with cfgSent := true }

theorem tsExchanged_open (open_ : ¬((s.port p).tsSent = true ∧ (s.port p).tsSeen = true ∧ (s.port p).st = 5#4))
    (training : (s.port p).st ≠ 8#4) : s.tsExchanged p = s := by
  rw [State.tsExchanged, if_neg]
  rintro ⟨sent, seen, st⟩
  exact open_ ⟨sent, seen, st.resolve_right fun h => training h.1⟩

/-- TS has gone both ways: the widths of both ends give the group (R316). -/
theorem tsExchanged_check (sent : (s.port p).tsSent = true) (seen : (s.port p).tsSeen = true) (st : (s.port p).st = 5#4) {w : Nat}
    {g : Byte} (group : chooseGroup (s.targetWidth p) (s.port p).bad = some (w, g)) :
    s.tsExchanged p = s.setPort p { s.port p with
      width := BitVec.ofNat 4 w, pairs := g, checked := true, cfgSent := false, cfgSeen := false, st := 6, since := s.ms } := by
  rw [State.tsExchanged, if_pos ⟨sent, seen, .inl st⟩]
  simp only [State.pairCheck, group, if_pos st]

theorem cfgExchanged_open (unseen : (s.port p).cfgSeen = false ∨ (s.port p).cfgSent = false) : s.cfgExchanged p = s := by
  rw [State.cfgExchanged, if_neg]
  rintro ⟨sent, seen, -⟩
  simp [sent, seen] at unseen

end

end Sys2Proof.Machine
end
section
/-! Requests and ends of operations (10 R317-R319), and the port that becomes ACTIVE (R311, R312, R314). -/

namespace Sys2Proof.Machine

/-! ### Requests -/

/-- A port but for what asking changes: its request, what waits to be sent and what it still wants. -/
def Port.unasked (x : Port) : Port := { x with req := none, reqNo := 0, ctlq := [], want := none }

/-- What asking may change. -/
structure Asks (p : Nat) (s t : State) : Prop where
  rest : t = { s with ports := t.ports }
  others : ∀ q, q ≠ p → t.port q = s.port q
  port : (t.port p).unasked = (s.port p).unasked

section
variable {s t u : State} {p : Nat}

theorem Asks.refl (s : State) (p : Nat) : Asks p s s := ⟨rfl, fun _ _ => rfl, rfl⟩

theorem Asks.trans (a : Asks p s t) (b : Asks p t u) : Asks p s u :=
  ⟨by rw [b.rest, a.rest], fun q other => (b.others q other).trans (a.others q other), b.port.trans a.port⟩

theorem Asks.of_portIs {x : Port} (h : PortIs p s t x) (same : x.unasked = (s.port p).unasked) : Asks p s t :=
  ⟨h.rest, h.sets.2, by rw [h.port]; exact same⟩

/-- The REQ that a port starts (R313, R319). -/
def State.reqOf (s : State) (p op width reason : Nat) : ReqMsg where
  reqNo := (s.port p).reqNo + 1
  op := BitVec.ofNat 8 op
  width := BitVec.ofNat 8 width
  bad := (s.port p).ownBad ||| (s.port p).permBad
  reason := BitVec.ofNat 8 reason
  name := s.sourceName (srcEngine (portEngine p))
  reqPort := BitVec.ofNat 8 p

/-- A port that has asked. -/
def Port.asked (x : Port) (m : ReqMsg) (now : Nat) : Port :=
  { x with reqNo := m.reqNo, req := some { msg := m, sends := 1, lastMs := now }, ctlq := x.ctlq ++ [reqBytes m] }

/-- A port that may ask starts its REQ. -/
theorem startReq_may (may : s.mayRequest p = true) (op width reason : Nat) :
    PortIs p s (s.startReq p op width reason) ((s.port p).asked (s.reqOf p op width reason) s.ms) := by
  rw [State.startReq, if_pos may]
  exact ((PortIs.refl p s).setPort _).sendCtl _

theorem asks_startReq (s : State) (p op width reason : Nat) : Asks p s (s.startReq p op width reason) := by
  by_cases may : s.mayRequest p = true
  · exact Asks.of_portIs (startReq_may may op width reason) rfl
  · rw [State.startReq, if_neg may]
    split
    · exact Asks.of_portIs ((PortIs.refl p s).setPort _) rfl
    · exact Asks.refl s p

theorem requestWidth_some {w : Nat} {g : Byte} (reason : Nat) (group : chooseGroup (s.targetWidth p) (s.port p).bad = some (w, g)) :
    s.requestWidth p reason = s.startReq p 3 w reason := by
  rw [State.requestWidth, group]

theorem asks_requestWidth (s : State) (p reason : Nat) : Asks p s (s.requestWidth p reason) := by
  unfold State.requestWidth
  split <;> exact asks_startReq ..

theorem considerReq_not (may : s.mayRequest p = false) : s.considerReq p = s := by
  rw [State.considerReq, may]
  rfl

theorem asks_considerReq (s : State) (p : Nat) : Asks p s (s.considerReq p) := by
  unfold State.considerReq
  split
  · dsimp only
    split
    · exact Asks.trans (t := s.setPort p { s.port p with want := none }) (Asks.of_portIs ((PortIs.refl p s).setPort _) rfl)
        (asks_startReq ..)
    · split
      · exact asks_requestWidth ..
      · split
        · exact asks_requestWidth ..
        · exact Asks.refl s p
  · exact Asks.refl s p

/-! ### The end of an operation -/

/-- A port but for what the end of an operation changes, and what it may ask for then. -/
def Port.unoperated (x : Port) : Port :=
  { x.unasked with op := none, leading := false, heldReq := none, lost := false, notBefore := 0, wideSince := none }

theorem unoperated_of_unasked {x y : Port} (same : x.unasked = y.unasked) : x.unoperated = y.unoperated :=
  (congrArg Port.unoperated same :)

theorem op_of_unasked {x y : Port} (same : x.unasked = y.unasked) : x.op = y.op := (congrArg Port.op same :)

/-- A port whose operation ends while no REQ is held: a wanted retrain that the operation was is dropped, and after a lost
collision the port asks 10 µs later at the soonest (R317-R319). -/
def Port.operationOver (x : Port) (now : Nat) : Port :=
  let done := match x.op with
    | some m => m.op.toNat
    | none => 1
  { x with
    op := none, leading := false, heldReq := none, lost := false
    want := if done ≤ 2 then x.want.filter fun w => decide (done < w.1) else x.want
    notBefore := if x.lost then now + 10000 else x.notBefore }

theorem unoperated_widens (x : Port) (now : Nat) (since : Option Nat) :
    Port.unoperated { x.operationOver now with wideSince := since } = x.unoperated := rfl

/-- An operation of a port has ended, and the port may ask again. -/
structure OpEnds (p : Nat) (s t : State) : Prop where
  rest : t = { s with ports := t.ports }
  others : ∀ q, q ≠ p → t.port q = s.port q
  port : (t.port p).unoperated = (s.port p).unoperated
  op : (t.port p).op = none

theorem OpEnds.regs (h : OpEnds p s t) : t.regs = s.regs := by rw [h.rest]

/-- A port that has changed by the end of an operation may ask. -/
theorem OpEnds.of_asks {x : Port} (ended : PortIs p s t x) (same : x.unoperated = (s.port p).unoperated) (op : x.op = none)
    (asks : Asks p t u) : OpEnds p s u := by
  obtain ⟨rest, others, port⟩ := asks
  rw [ended.port] at port
  exact ⟨by rw [rest, ended.rest], fun q other => (others q other).trans (ended.sets.2 q other),
    (unoperated_of_unasked port).trans same, (op_of_unasked port).trans op⟩

theorem finishOp_free (free : (s.port p).heldReq = none) :
    s.finishOp p = ((s.setPort p ((s.port p).operationOver s.ms)).noteWider p).considerReq p := by
  unfold State.finishOp
  dsimp only
  rw [free]
  rfl

/-- An operation ends while no REQ is held (R319). -/
theorem opEnds_finishOp (free : (s.port p).heldReq = none) : OpEnds p s (s.finishOp p) := by
  rw [finishOp_free free]
  exact OpEnds.of_asks ((PortIs.refl p s).setPort _).noteWider (unoperated_widens ..) rfl (asks_considerReq ..)

/-! ### ACTIVE -/

theorem sendMsg_portIs (s : State) (p chan kind flags key arg : Nat) (body : List Seg) :
    ∃ txq, PortIs p s (s.sendMsg p chan kind flags key arg body) { s.port p with txq := txq } := by
  unfold State.sendMsg
  dsimp only
  split
  · exact ⟨_, (PortIs.refl p s).setPort _⟩
  · exact ⟨_, PortIs.refl p s⟩

theorem notePairLink_rest (s : State) : s.notePairLink = { s with pair := s.notePairLink.pair } := by
  unfold State.notePairLink
  split
  · split <;> rfl
  · rfl

/-- Where a port of the pair changed, the pair unit takes note. -/
def State.notePort (s : State) (p : Nat) : State := if p ≥ 120 then s.notePairLink else s

theorem notePort_rest (s : State) (p : Nat) : s.notePort p = { s with pair := (s.notePort p).pair } := by
  unfold State.notePort
  split
  · exact notePairLink_rest s
  · rfl

/-- A port whose first training ends, in a state (R311, R312, R314). -/
def Port.activated (x : Port) (s : State) (p : Nat) : Port :=
  { x with
    st := 7, since := s.ms, activeMs := s.ms, txSeq := 0, rxNext := 0, txPairs := x.pairs, ackMs := s.ms
    savedEq := if x.eqSaved then x.savedEq else some (s.eqRecord p), eqUnfit := x.eqUnfit && x.eqSaved
    credits := (List.range 4).foldl (fun m c => AMap.set 0 m c (chanBuffers c)) [] }

/-- The link epoch is counted (R312, R322). -/
def State.epochCounted (s : State) (p : Nat) : State :=
  s.setField (Reg.LTN_PORT_STATUS p) 24 8 (s.field (Reg.LTN_PORT_STATUS p) 24 8 + 1)

/-- The state in which a port has become ACTIVE for the first time, and its HELLO waits (R325). -/
def State.activated (s : State) (p : Nat) : State :=
  let t := (s.epochCounted p).setPort p ((s.port p).activated (s.epochCounted p) p)
  (t.sendMsg p 0 0x01 0 0 0 (segsOf t.helloBody)).notePort p

theorem becomeActive_first (st : (s.port p).st = 6#4) : s.becomeActive p = (s.activated p).finishOp p := by
  have training : ¬(s.port p).st = 8#4 := by rw [st]; decide
  unfold State.becomeActive
  dsimp only
  rw [if_neg training]
  rfl

/-- What the end of a first training leaves (R311, R312). -/
structure LinkUp (p : Nat) (s t : State) : Prop where
  sent : t.sent = s.sent
  regs : t.regs = (s.epochCounted p).regs
  st : (t.port p).st = 7#4
  txSeq : (t.port p).txSeq = 0#12
  rxNext : (t.port p).rxNext = 0#12
  txPairs : (t.port p).txPairs = (s.port p).pairs
  credits : ∀ c, c < 4 → AMap.get 0 (t.port p).credits c = chanBuffers c

theorem activated_rest (s : State) (p : Nat) :
    (s.activated p).sent = s.sent ∧ (s.activated p).regs = (s.epochCounted p).regs ∧
      ∃ txq, (s.activated p).port p = { (s.port p).activated (s.epochCounted p) p with txq := txq } := by
  unfold State.activated
  generalize stands : (s.epochCounted p).setPort p ((s.port p).activated (s.epochCounted p) p) = t
  obtain ⟨txq, sends⟩ := sendMsg_portIs t p 0 0x01 0 0 0 (segsOf t.helloBody)
  dsimp only
  generalize t.sendMsg p 0 0x01 0 0 0 (segsOf t.helloBody) = u at sends ⊢
  have noted := notePort_rest u p
  generalize u.notePort p = v at noted ⊢
  have sent : v.sent = u.sent := by rw [noted]
  have regs : v.regs = u.regs := by rw [noted]
  have ports : v.ports = u.ports := by rw [noted]
  refine ⟨?_, ?_, txq, ?_⟩
  · rw [sent, sends.sent, ← stands, State.setPort_sent, State.epochCounted, State.setField_sent]
  · rw [regs, sends.regs, ← stands, State.setPort_regs]
  · rw [port_of_ports ports, sends.port, ← stands, port_setPort_same]

theorem linkUp_of_ends {x y : Port} {now : State} {txq : AMap (List Seg)}
    (same : y.unoperated = Port.unoperated { x.activated now p with txq := txq }) :
    y.st = 7#4 ∧ y.txSeq = 0#12 ∧ y.rxNext = 0#12 ∧ y.txPairs = x.pairs ∧ ∀ c, c < 4 → AMap.get 0 y.credits c = chanBuffers c := by
  have credits : y.credits = (List.range 4).foldl (fun m c => AMap.set 0 m c (chanBuffers c)) [] := (congrArg Port.credits same :)
  refine ⟨(congrArg Port.st same :), (congrArg Port.txSeq same :), (congrArg Port.rxNext same :), (congrArg Port.txPairs same :),
    fun c inside => ?_⟩
  rw [credits, AMap.get_foldl_set, if_pos (List.mem_range.2 inside)]

theorem linkUp_becomeActive (st : (s.port p).st = 6#4) (free : (s.port p).heldReq = none) : LinkUp p s (s.becomeActive p) := by
  rw [becomeActive_first st]
  obtain ⟨sent, regs, txq, port⟩ := activated_rest s p
  have ends := opEnds_finishOp (s := s.activated p) (p := p) (by rw [port]; exact free)
  have same := ends.port
  rw [port] at same
  obtain ⟨active, first, next, pairs, credits⟩ := linkUp_of_ends same
  exact ⟨by rw [ends.rest]; exact sent, ends.regs.trans regs, active, first, next, pairs, credits⟩

/-- CONFIG has gone both ways in a first training (R314, R322). -/
theorem cfgExchanged_up (st : (s.port p).st = 6#4) (sent : (s.port p).cfgSent = true) (seen : (s.port p).cfgSeen = true) :
    s.cfgExchanged p = (s.setField (Reg.LTN_PORT_PEER p) 17 1 1).becomeActive p := by
  rw [State.cfgExchanged, if_pos ⟨sent, seen, .inl st⟩]

end

end Sys2Proof.Machine
end

section
/-! Flits that arrive (10 R307-R311, R324), and the two timers of the retry (R309). -/

namespace Sys2Proof.Machine

theorem sets_of_ports {s t u : State} {p : Nat} {x : Port} (h : Sets s.port t.port p x) (same : u.ports = t.ports) :
    Sets s.port u.port p x :=
  ⟨(port_of_ports same p).trans h.1, fun q other => (port_of_ports same q).trans (h.2 q other)⟩

/-- A port is written, then registers. -/
theorem rest_ports_regs {s u t : State} {p : Nat} {x : Port} (port : PortIs p s u x) (regs : RegsOnly u t) :
    t = { s with ports := t.ports, regs := t.regs } := by
  rw [regs.rest, port.rest]

section
variable {s : State} {p : Nat} {f : Flit}

theorem linked_states {x : Port} (linked : x.linked = true) : 3 ≤ x.st.toNat ∧ x.st.toNat ≤ 8 := by
  simp only [Port.linked, Bool.or_eq_true, beq_iff_eq] at linked
  rcases linked with st | st <;> rw [st] <;> decide

/-- A port that discards a flit: a nak is due, unless one is held off (R309). -/
def Port.discards (x : Port) : Port := if x.linked = true ∧ x.nakHeldMs = none then { x with nakDue := true } else x

theorem discards_linked {x : Port} (linked : x.linked = true) :
    x.discards = if x.nakHeldMs.isSome then x else { x with nakDue := true } := by
  unfold Port.discards
  cases held : x.nakHeldMs <;> simp [linked]

theorem discardFlit_linked (linked : (s.port p).linked = true) : s.discardFlit p = s.setPort p (s.port p).discards := by
  rw [discards_linked linked]
  rfl

/-- A flit with a bad CRC is counted and discarded (R309, R322). -/
theorem badCrc_damaged (on : 3 ≤ (s.port p).st.toNat) (off : (s.port p).st.toNat ≤ 8) :
    Counts s (s.badCrc p) (Reg.LTN_PORT_CRC p) 0 32 ∧
      s.badCrc p = { s with ports := (s.badCrc p).ports, regs := (s.badCrc p).regs } ∧
      Sets s.port (s.badCrc p).port p (s.port p).discards := by
  have counted := counts_bump s (Reg.LTN_PORT_CRC p) 0 32 (by decide)
  rw [State.badCrc, if_pos ⟨on, off⟩]
  by_cases linked : (s.port p).linked = true
  · rw [if_pos linked, discardFlit_linked (s := s.bump (Reg.LTN_PORT_CRC p) 0 32 1) linked]
    exact ⟨counted, rfl, sets_setPort rfl p _⟩
  · rw [if_neg linked, Port.discards, if_neg fun h => linked h.1]
    exact ⟨counted, rfl, rfl, fun _ _ => rfl⟩

/-- A port whose buffers have taken a data flit in sequence (R310, R311). -/
def Port.takes (x : Port) (f : Flit) : Port :=
  let c := f.chan.toNat % 4
  { x with
    rxNext := x.rxNext + 1
    nakHeldMs := none
    rxFill := AMap.set [] x.rxFill c (AMap.get [] x.rxFill c ++ [16 * (flitSegs f).length])
    rxq := AMap.set [] x.rxq c (AMap.get [] x.rxq c ++ flitSegs f) }

/-- A good data flit in sequence, for which its channel has a buffer (R309-R311). -/
theorem takeDataFlit_taken (linked : (s.port p).linked = true) (good : flitGood f = true)
    (calm : f.nak = false ∨ (headed s (s.port p) f.ack f.credit f.creditChan).unacked = []) (kind : f.kind = 1#8)
    (next : f.seq.setWidth 12 = (s.port p).rxNext)
    (room : (AMap.get [] (s.port p).rxFill (f.chan.toNat % 4)).length < chanBuffers (f.chan.toNat % 4)) :
    s.takeDataFlit p f = ((s.setPort p (headed s (s.port p) f.ack f.credit f.creditChan)).setPort p
      ((headed s (s.port p) f.ack f.credit f.creditChan).takes f)).setReg64 (Reg.LTN_PORT_RX_LO p)
        (min (s.reg64 (Reg.LTN_PORT_RX_LO p) + 1) (2 ^ 64 - 1)) := by
  have inSequence : (f.seq.setWidth 12 != (headed s (s.port p) f.ack f.credit f.creditChan).rxNext) = false := by
    rw [bne_eq_false_iff_eq]
    exact next
  have free : ¬(AMap.get [] (headed s (s.port p) f.ack f.credit f.creditChan).rxFill (f.chan.toNat % 4)).length ≥
      chanBuffers (f.chan.toNat % 4) := Nat.not_le.2 room
  simp only [State.takeDataFlit, good, linked, takeHeader_calm calm, kind, port_setPort_same, inSequence, if_neg free]
  rfl

/-- Nothing is taken from a channel whose first message has not arrived whole (R324). -/
theorem takeMessages_waits {c : Nat} {h : Seg} {rest : List Seg} (queue : AMap.get [] (s.port p).rxq c = h :: rest)
    (whole : h.bodyLen % 16 = 0) (fits : h.bodyLen ≤ 4096) (waits : rest.length < h.bodyLen / 16) (n : Nat) :
    s.takeMessages p c n = s := by
  cases n with
  | zero => rfl
  | succ n =>
    have formed : ¬(h.bodyLen % 16 ≠ 0 ∨ h.bodyLen > 4096) := by omega
    simp only [State.takeMessages, queue, if_neg formed, if_pos waits]

end

/-! ### The timers of the retry -/

/-- Only the two clocks, what is left of an offset and what a planned read samples differ: time has passed. -/
theorem timed_rest {s t : State} (T : Nat) (ports : t = { s.advanceTo T with ports := t.ports }) :
    t = { s with ports := t.ports, ms := t.ms, msOff := t.msOff, up := t.up, man := t.man } := by
  rw [ports, advanceTo_eq]

/-- Time has passed, and one port is now x. -/
theorem timed_setPort (s : State) (T p : Nat) (x : Port) :
    ((s.advanceTo T).setPort p x).ms = max s.ms T ∧
      (s.advanceTo T).setPort p x = { s with
        ports := ((s.advanceTo T).setPort p x).ports, ms := ((s.advanceTo T).setPort p x).ms
        msOff := ((s.advanceTo T).setPort p x).msOff, up := ((s.advanceTo T).setPort p x).up
        man := ((s.advanceTo T).setPort p x).man } ∧
      Sets s.port ((s.advanceTo T).setPort p x).port p x :=
  ⟨advanceTo_ms s T, timed_rest T rfl, sets_setPort (State.advanceTo_ports s T) p x⟩

/-- Time has passed and a port is written, then registers. -/
theorem timed_regs {s u t : State} (timed : u = { s with ports := u.ports, ms := u.ms, msOff := u.msOff, up := u.up, man := u.man })
    (regs : RegsOnly u t) :
    t = { s with ports := t.ports, regs := t.regs, ms := t.ms, msOff := t.msOff, up := t.up, man := t.man } := by
  rw [regs.rest, timed]

theorem replayTimeout_eq {s : State} {p : Nat} (st : (s.port p).st = 7#4) (waits : (s.port p).unacked ≠ []) :
    s.replayTimeout p = ((s.advanceTo ((s.port p).ackMs + 4000)).setPort p { s.port p with
      replayLeft := (s.port p).unacked.length, ackMs := (s.advanceTo ((s.port p).ackMs + 4000)).ms }).bump
        (Reg.LTN_PORT_REPLAY p) 0 16 1 := by
  have waiting : (!(s.port p).unacked.isEmpty) = true := by simpa using waits
  rw [State.replayTimeout, if_pos ⟨st, waiting⟩]

end Sys2Proof.Machine
end

section
/-! The flits of a port (10 R307-R311, R313, R314, R324). -/

namespace Sys2Proof.Machine

section
variable {port : BitVec 7} {s : State}

theorem ms_countStall (s : State) (p : Nat) : (s.countStall p).ms = s.ms := by rw [(regsOnly_countStall s p).rest]

/-- An idle flit leaves (R308). -/
theorem flitLeft_idle {p : Nat} (h : Settled s p) (none : (s.port p).replayLeft = 0) (quiet : (s.port p).ctlq = [])
    (full : 2048 ≤ (s.port p).unacked.length ∨ (s.port p).nextChan = Option.none) :
    FlitLeft p (s.port p).txPairs ((s.port p).heads (plainFlit 0 [])) ((s.port p).afterHead s.ms) s (s.flitSlot p) := by
  have left := (flitLeft_emit (s.countStall p) p (s.port p).txPairs (plainFlit 0 [])).afterStall
  rw [port_countStall, ms_countStall] at left
  rwa [flitSlot_idle h none quiet full]

/-- A control flit leaves, neither a mark nor TIME (R308, R313). -/
theorem flitLeft_ctl {p : Nat} (h : Settled s p) (none : (s.port p).replayLeft = 0) {m : List Byte} {rest : List (List Byte)}
    (waits : (s.port p).ctlq = m :: rest) (noMark : m.head? ≠ some 0x05#8) (noTime : m.head? ≠ some 0x06#8) :
    FlitLeft p (s.port p).txPairs ((s.port p).heads (plainFlit 2 m)) (Port.afterHead { s.port p with ctlq := rest } s.ms) s
      (s.flitSlot p) := by
  have left := (flitLeft_emitCtl (s := s.countStall p) (p := p) rest noMark noTime).afterStall
  rw [port_countStall, ms_countStall] at left
  rwa [flitSlot_ctl h none waits]

/-- A flit is sent again, not for the fifth time (R309). -/
theorem flitLeft_replay {p : Nat} (h : Settled s p) (replay : (s.port p).replayLeft ≠ 0) {o : TxFlit}
    (at_ : (s.port p).unacked[(s.port p).unacked.length - (s.port p).replayLeft]? = some o) (early : o.sends ≠ 4) :
    FlitLeft p (s.port p).txPairs ((s.port p).heads o.flit) (Port.afterHead { s.port p with
      replayLeft := (s.port p).replayLeft - 1
      unacked := (s.port p).unacked.set ((s.port p).unacked.length - (s.port p).replayLeft) { o with sends := o.sends + 1 } } s.ms)
      s (s.flitSlot p) := by
  have left := (flitLeft_emitReplay (s := s.countStall p) (p := p) (o := o) (by rwa [port_countStall]) early).afterStall
  rw [port_countStall, ms_countStall] at left
  rwa [flitSlot_replay h replay]

/-- TS leaves, and its exchange stays open (R313, R314). -/
theorem flitLeft_ts {p : Nat}
    (h : ((s.port p).st = 3#4 ∧ (s.port p).seekPause = false) ∨ (s.port p).st = 4#4 ∨ ((s.port p).st = 5#4 ∧ (s.port p).tsSeen = false)) :
    FlitLeft p 0xFF#8 ((s.port p).heads (plainFlit 2 (tsBytes (s.tsMsg p))))
      { (s.port p).afterHead s.ms with
        tsSent := (s.port p).st.toNat == 5 || ((s.port p).st.toNat == 8 && (s.port p).locked != 0) } s (s.flitSlot p) := by
  have left := flitLeft_tsLeft s p
  have unchecked : (s.tsLeft p).tsExchanged p = s.tsLeft p := by
    refine tsExchanged_open ?_ ?_ <;> rw [left.port]
    · rintro ⟨-, seen, st⟩
      rcases h with ⟨other, -⟩ | other | ⟨-, unseen⟩
      · exact absurd (other.symm.trans st) (by decide)
      · exact absurd (other.symm.trans st) (by decide)
      · exact Bool.false_ne_true (unseen.symm.trans seen)
    · rcases h with ⟨st, -⟩ | st | ⟨st, -⟩ <;> exact ne_of_eq_of_ne st (by decide)
  rwa [flitSlot_training (h.imp id (Or.imp id And.left)), unchecked]

theorem targetWidth_tsLeft (s : State) (p : Nat) : (s.tsLeft p).targetWidth p = s.targetWidth p := by
  have apart : Reg.LTN_PORT_CTRL p ≠ Reg.LTN_PORT_REPLAY p := by
    unfold Reg.LTN_PORT_CTRL Reg.LTN_PORT_REPLAY
    omega
  have same : (s.tsLeft p).maxPairs p = s.maxPairs p := by
    refine maxPairs_of_reg ?_
    rw [State.tsLeft, State.modPort_reg, reg_emit _ _ _ _ apart]
  rw [State.targetWidth, State.targetWidth, same, (flitLeft_tsLeft s p).port]
  rfl

/-- TS leaves, the peer's taken: the widths of both ends give the group (R314, R316). -/
theorem flitLeft_checked {p w : Nat} {group : Byte} (st : (s.port p).st = 5#4) (seen : (s.port p).tsSeen = true)
    (chosen : chooseGroup (s.targetWidth p) (s.port p).bad = some (w, group)) :
    FlitLeft p 0xFF#8 ((s.port p).heads (plainFlit 2 (tsBytes (s.tsMsg p))))
      { (s.port p).afterHead s.ms with
        tsSent := true, width := BitVec.ofNat 4 w, pairs := group, checked := true, cfgSent := false, cfgSeen := false, st := 6
        since := s.ms } s (s.flitSlot p) := by
  have left := flitLeft_tsLeft s p
  have sent : ((s.tsLeft p).port p).tsSent = true := by
    rw [left.port]
    simp [st]
  have chosen' : chooseGroup ((s.tsLeft p).targetWidth p) ((s.tsLeft p).port p).bad = some (w, group) := by
    rw [targetWidth_tsLeft, left.port]
    exact chosen
  rw [flitSlot_training (.inr (.inr st)), tsExchanged_check sent (by rw [left.port]; exact seen) (by rw [left.port]; exact st) chosen',
    left.only.ms, left.port]
  simp only [st]
  exact left.setPort _

/-- CONFIG leaves, before the peer's is taken (R314). -/
theorem flitLeft_config {p : Nat} (st : (s.port p).st = 6#4) (unseen : (s.port p).cfgSeen = false) :
    FlitLeft p (s.port p).pairs ((s.port p).heads (plainFlit 2 (configBytes (s.configMsg p))))
      { (s.port p).afterHead s.ms with cfgSent := true } s (s.flitSlot p) := by
  have left := flitLeft_configLeft s p
  rwa [flitSlot_config st, cfgExchanged_open (.inl (by rw [left.port]; exact unseen))]

/-- The first training of a port ends with its own CONFIG, the peer's taken (R314, R322). -/
theorem flitSlot_up (st : (s.port port.toNat).st = 6#4) (seen : (s.port port.toNat).cfgSeen = true)
    (free : (s.port port.toNat).heldReq = none) :
    Answers (.flitSlot port) s (Noted fun t => ∃ g, t.sent = .flit port (s.port port.toNat).pairs g :: s.sent ∧ g.kind = 2#8 ∧
      g.payload = configBytes (s.configMsg port.toNat) ∧ (t.port port.toNat).st = 7#4 ∧
      t.field (Reg.LTN_PORT_PEER port.toNat) 17 1 = 1) := by
  have left := flitLeft_configLeft s port.toNat
  have slot := flitSlot_config st
  generalize s.configLeft port.toNat = u at left slot
  have apart : Reg.LTN_PORT_PEER port.toNat ≠ Reg.LTN_PORT_STATUS port.toNat := by
    unfold Reg.LTN_PORT_PEER Reg.LTN_PORT_STATUS
    omega
  rw [cfgExchanged_up (by rw [left.port]; exact st) (by rw [left.port]) (by rw [left.port]; exact seen)] at slot
  have up := linkUp_becomeActive (s := u.setField (Reg.LTN_PORT_PEER port.toNat) 17 1 1) (p := port.toNat)
    (by rw [State.setField_portAt, left.port]; exact st) (by rw [State.setField_portAt, left.port]; exact free)
  refine answers_traced_eq rfl slot ⟨(s.port port.toNat).heads (plainFlit 2 (configBytes (s.configMsg port.toNat))),
    ?_, rfl, rfl, up.st, ?_⟩
  · rw [up.sent, State.setField_sent, left.sent, BitVec.ofNat_toNat, BitVec.setWidth_eq]
  · rw [field_of_regs up.regs, State.epochCounted, field_setField_other _ _ _ _ _ _ _ _ apart,
      field_setField_same _ _ _ _ _ (by decide)]
    rfl

/-- A good data flit in sequence that completes no message (R309-R311, R324). -/
theorem dataFlit_taken {f : Flit} {h : Seg} {rest : List Seg} (linked : (s.port port.toNat).linked = true)
    (good : flitGood f = true) (calm : f.nak = false ∨ (headed s (s.port port.toNat) f.ack f.credit f.creditChan).unacked = [])
    (kind : f.kind = 1#8) (next : f.seq.setWidth 12 = (s.port port.toNat).rxNext)
    (room : (AMap.get [] (s.port port.toNat).rxFill (f.chan.toNat % 4)).length < chanBuffers (f.chan.toNat % 4))
    (queue : AMap.get [] (s.port port.toNat).rxq (f.chan.toNat % 4) ++ flitSegs f = h :: rest) (whole : h.bodyLen % 16 = 0)
    (fits : h.bodyLen ≤ 4096) (waits : rest.length < h.bodyLen / 16) :
    Answers (.dataFlit port f) s (Noted fun t =>
      Sets s.port t.port port.toNat ((headed s (s.port port.toNat) f.ack f.credit f.creditChan).takes f) ∧
      t.reg64 (Reg.LTN_PORT_RX_LO port.toNat) = min (s.reg64 (Reg.LTN_PORT_RX_LO port.toNat) + 1) (2 ^ 64 - 1) ∧
      t = { s with ports := t.ports, regs := t.regs }) := by
  have taken := takeDataFlit_taken linked good calm kind next room
  have quiet : s.dataFlit port.toNat f = s.takeDataFlit port.toNat f := by
    rw [State.dataFlit]
    refine takeMessages_waits (h := h) (rest := rest) ?_ whole fits waits _
    rw [taken, State.setReg64_portAt, port_setPort_same]
    exact (AMap.get_set_same ..).trans queue
  refine answers_traced_eq rfl (quiet.trans taken) ⟨?_, ?_, ?_⟩
  · exact sets_of_ports (((PortIs.refl port.toNat s).setPort _).setPort _).sets (State.setReg64_ports ..)
  · rw [reg64_setReg64_same, Nat.mod_eq_of_lt (by omega)]
  · exact rest_ports_regs (((PortIs.refl port.toNat s).setPort _).setPort _) (regsOnly_setReg64 ..)

end

/-- Settles O48: a flit slot by the state of its port, a flit by its CRC and its sequence, the timers. -/
theorem lanternFlits : Obligations.LanternFlits := by
  intro port f s p x c y calm settled others leaves on segs
  have ready (st : x.st = 7#4) (h : settled) : Settled s p := ⟨st, h.1, h.2.1, h.2.2⟩
  refine ⟨fun k st h replay quiet room next => ?data, fun st h replay quiet full => ?idle,
    fun m rest st h replay waits noMark noTime => ?control, fun o st h replay at_ early => ?replay, fun training => ?ts,
    fun w group st seen chosen => ?checked, fun st unseen => ?config, fun st seen free => flitSlot_up st seen free,
    fun h rest linked good quiet kind next room queue whole fits waits =>
      dataFlit_taken linked good quiet kind next room queue whole fits waits,
    fun linked bad empty => ?damaged, fun linked good quiet => ?header, fun linked good nak waits => ?nak,
    fun st waits => ?timeout, fun w held => ?holdoff⟩
  case data =>
    have slot := flitSlot_data (ready st h) replay quiet room next
    have left : FlitLeft p _ _ _ s (s.flitSlot p) := slot ▸ flitLeft_emitData s p k
    obtain ⟨small, credit⟩ := nextChan_some next
    refine flitSlot_leaves left rfl fun sent => ⟨sent, rfl, chan_dataFlit small x.txSeq ((AMap.get [] x.txq k).take 15), rfl, rfl, fun i d at_ => ?_, ?_, ?_, ?_, ?_, ?_, ?_⟩
    · exact poison_dataFlit k x.txSeq (by simp) at_
    · rw [left.port]
      exact AMap.get_set_same ..
    · rw [left.port]
      exact (congrArg (· + 1) (AMap.get_set_same ..)).trans (Nat.sub_add_cancel (Nat.pos_of_ne_zero credit))
    · rw [left.port]; rfl
    · rw [left.port]; rfl
    · rw [left.port]; rfl
    · rw [slot]
      exact sentCount_emitData s p k
  case idle =>
    have left := flitLeft_idle (ready st h) replay quiet full
    exact flitSlot_leaves left rfl fun sent => ⟨sent, rfl, rfl, by rw [left.port]; rfl, by rw [left.port]; rfl⟩
  case control =>
    have left := flitLeft_ctl (ready st h) replay waits noMark noTime
    exact flitSlot_leaves left rfl fun sent => ⟨sent, rfl, rfl, by rw [left.port]; rfl, by rw [left.port]; rfl⟩
  case replay =>
    have left := flitLeft_replay (ready st h) replay at_ early
    exact flitSlot_leaves left rfl fun sent => ⟨sent, rfl, rfl, rfl,
      by rw [left.port]; exact Nat.sub_add_cancel (Nat.pos_of_ne_zero replay), by rw [left.port]; rfl⟩
  case ts =>
    have left := flitLeft_ts training
    refine flitSlot_leaves left rfl fun sent => ⟨sent, rfl, rfl, by rw [left.port]; rfl, ?_⟩
    rw [left.port]
    rcases training with ⟨st, -⟩ | st | ⟨st, -⟩ <;> simp [show (s.port p).st = _ from st, show x.st = _ from st]
  case checked =>
    have left := flitLeft_checked st seen chosen
    exact flitSlot_leaves left rfl fun sent => ⟨sent, rfl, rfl, by rw [left.port]; rfl, by rw [left.port], by rw [left.port]⟩
  case config =>
    have left := flitLeft_config st unseen
    exact flitSlot_leaves left rfl fun sent => ⟨sent, rfl, rfl, by rw [left.port]; exact st, by rw [left.port]⟩
  case damaged =>
    obtain ⟨on, off⟩ := linked_states linked
    obtain ⟨counted, rest, sets⟩ := badCrc_damaged on off
    have quiet : s.dataFlit p f = s.badCrc p := by
      have queue : AMap.get [] ((s.badCrc p).port p).rxq c = [] := by
        rw [sets.1, discards_linked linked]
        split <;> exact empty
      rw [State.dataFlit, State.takeDataFlit, bad]
      exact congrArg (fun l : List Seg => (s.badCrc p).takeMessages p c l.length) queue
    exact answers_traced_eq rfl quiet ⟨discards_linked linked ▸ sets, counted, rest⟩
  case header =>
    have taken : s.takeIdleFlit p f = s.setPort p y := by
      rw [State.takeIdleFlit, good, if_neg (by decide), if_pos linked, takeHeader_calm quiet]
    exact answers_traced_eq rfl taken ⟨sets_setPort rfl p y, rfl⟩
  case nak =>
    have taken : s.takeIdleFlit p f =
        (s.setPort p { y with replayLeft := y.unacked.length }).bump (Reg.LTN_PORT_REPLAY p) 0 16 1 := by
      rw [State.takeIdleFlit, good, if_neg (by decide), if_pos linked, takeHeader_nak nak waits]
    have written := (PortIs.refl p s).setPort { y with replayLeft := y.unacked.length }
    exact answers_traced_eq rfl taken ⟨sets_of_ports written.sets (State.bump_ports ..),
      counts_bump_of_regs written.regs _ 0 16 (by decide), rest_ports_regs written (regsOnly_bump ..)⟩
  case timeout =>
    obtain ⟨now, rest, sets⟩ := timed_setPort s (x.ackMs + 4000) p { x with
      replayLeft := x.unacked.length, ackMs := (s.advanceTo (x.ackMs + 4000)).ms }
    have replays := replayTimeout_eq st waits
    have regs := State.advanceTo_regs s (x.ackMs + 4000)
    refine answers_traced_eq rfl replays ⟨now, ?_, ?_, timed_regs rest (regsOnly_bump ..)⟩
    · exact sets_of_ports sets (State.bump_ports ..)
    · exact counts_bump_of_regs ((State.setPort_regs ..).trans regs) _ 0 16 (by decide)
  case holdoff =>
    have expires : s.nakHoldoff p = (s.advanceTo (w + 2000)).setPort p { x with nakHeldMs := none } := by
      rw [State.nakHoldoff, held]
    obtain ⟨now, rest, sets⟩ := timed_setPort s (w + 2000) p { x with nakHeldMs := none }
    exact answers_traced_eq rfl expires ⟨now, sets, rest⟩

end Sys2Proof.Machine
end

section
/-! What the pair unit and the streams send on ports (11 R325, R338, R339): of a port only what waits to be sent may differ. -/

namespace Sys2Proof.Machine

/-- A port but for the messages that wait in its channels. -/
def Port.unsent (x : Port) : Port := { x with txq := [] }

/-- Of every port only the messages that wait in its channels may differ. -/
structure Sends (s t : State) : Prop where
  ports : ∀ q, (t.port q).unsent = (s.port q).unsent

theorem Sends.refl (s : State) : Sends s s := ⟨fun _ => rfl⟩

theorem Sends.trans {s t u : State} (a : Sends s t) (b : Sends t u) : Sends s u := ⟨fun q => (b.ports q).trans (a.ports q)⟩

theorem Sends.of_ports {s t : State} (same : t.ports = s.ports) : Sends s t := ⟨fun q => by rw [port_of_ports same]⟩

theorem sends_sendMsg (s : State) (p chan kind flags key arg : Nat) (body : List Seg) :
    Sends s (s.sendMsg p chan kind flags key arg body) := by
  refine ⟨fun q => ?_⟩
  obtain ⟨txq, sends⟩ := sendMsg_portIs s p chan kind flags key arg body
  by_cases same : q = p
  · rw [same, sends.port]
    rfl
  · rw [sends.sets.2 q same]

theorem sends_sendPair (s : State) (kind flags arg : Nat) (body : List Seg) : Sends s (s.sendPair kind flags arg body) := by
  unfold State.sendPair
  split
  · exact Sends.refl s
  · exact sends_sendMsg ..

/-- A pair that tries to form sends its two messages (R339). -/
theorem sends_pairTry (s : State) : Sends s s.pairTry := by
  unfold State.pairTry
  split
  · dsimp only
    refine Sends.trans (Sends.trans (Sends.of_ports ?_) (sends_sendPair ..)) (sends_sendPair ..)
    rfl
  · exact Sends.refl s

theorem regs_pairTry (s : State) : s.pairTry.regs = s.regs := by
  unfold State.pairTry
  split
  · dsimp only
    rw [(outward_sendPair ..).rest, (outward_sendPair ..).rest]
  · rfl

end Sys2Proof.Machine
end

section
/-! Control flits (10 R308, R309, R313): the flit that carries a message, and the state in which its message acts. -/

namespace Sys2Proof.Machine

/-- The control flit that carries a message behind a header (R307, R313). -/
def controlFlit (h : FlitHead) (msg : List Byte) : Flit :=
  { plainFlit 2 msg with ack := h.ack, nak := h.nak, credit := h.credit, creditChan := h.creditChan, crc := h.crc }

/-- A port that has seen the header of a good control flit (R309, R311). -/
def State.headedBy (s : State) (p : Nat) (h : FlitHead) : Port :=
  if (s.port p).linked then headed s (s.port p) h.ack h.credit h.creditChan else s.port p

section
variable {s : State} {p : Nat} {h : FlitHead} {msg : List Byte} {act : State → State}

theorem headedBy_linked (linked : (s.port p).linked = true) :
    s.headedBy p h = headed s (s.port p) h.ack h.credit h.creditChan := if_pos linked

theorem linked_of_active {x : Port} (st : x.st = 7#4) : x.linked = true := by
  rw [Port.linked, st]
  rfl

theorem headedBy_unlinked (unlinked : (s.port p).linked = false) : s.headedBy p h = s.port p := by
  rw [State.headedBy, unlinked]
  rfl

theorem onControl_damaged (bad : flitGood (controlFlit h msg) = false) : s.onControl p h msg act = s.badCrc p := by
  change (if flitGood (controlFlit h msg) then _ else _) = _
  rw [bad]
  rfl

/-- The message of a good flit acts once its header has, where that asks for no replay. -/
theorem onControl_intact (good : flitGood (controlFlit h msg) = true) (calm : h.nak = false ∨ (s.headedBy p h).unacked = []) :
    ∃ u, PortIs p s u (s.headedBy p h) ∧ s.onControl p h msg act = act u := by
  change ∃ u, _ ∧ (if flitGood (controlFlit h msg) then
    act (if (s.port p).linked then s.takeHeader p (controlFlit h msg) else s) else s.badCrc p) = act u
  rw [good]
  cases linked : (s.port p).linked
  · rw [headedBy_unlinked linked]
    exact ⟨s, PortIs.refl p s, rfl⟩
  · rw [headedBy_linked linked] at calm ⊢
    exact ⟨_, (PortIs.refl p s).setPort _, congrArg act (takeHeader_calm (f := controlFlit h msg) calm)⟩

/-- A flit with a bad CRC, whatever its message (R309). -/
theorem control_damaged {c : Instr} (run : exec c s = .next (s.traced (s.onControl p h msg act)))
    (bad : flitGood (controlFlit h msg) = false) (on : 3 ≤ (s.port p).st.toNat) (off : (s.port p).st.toNat ≤ 8) :
    Answers c s (Noted fun t => Counts s t (Reg.LTN_PORT_CRC p) 0 32 ∧ t = { s with ports := t.ports, regs := t.regs } ∧
      Sets s.port t.port p (s.port p).discards) :=
  answers_traced_eq run (onControl_damaged bad) (badCrc_damaged on off)

end

end Sys2Proof.Machine
end

section
/-! Events of ports (10 R323), and a retrain (R314, R318). -/

namespace Sys2Proof.Machine

/-! ### What an event of a port may touch -/

/-- Only ports, registers, events and the pair's notes may differ. -/
structure LinkEvents (s t : State) : Prop where
  rest : t = { s with ports := t.ports, regs := t.regs, ev := t.ev, pair := t.pair }

section
variable {s t u : State} {p : Nat}

theorem LinkEvents.trans (a : LinkEvents s t) (b : LinkEvents t u) : LinkEvents s u := ⟨by rw [b.rest, a.rest]⟩

theorem LinkEvents.portIs {x : Port} (h : PortIs p s t x) : LinkEvents s t := ⟨by rw [h.rest]⟩

theorem LinkEvents.regsOnly (h : RegsOnly s t) : LinkEvents s t := ⟨by rw [h.rest]⟩

theorem linkEvents_setPort (s : State) (p : Nat) (x : Port) : LinkEvents s (s.setPort p x) := ⟨rfl⟩

theorem logPlain_rest (s : State) (src cls cause p0 p1 p2 : Nat) :
    s.logPlain src cls cause p0 p1 p2 =
      { s with ev := (s.logPlain src cls cause p0 p1 p2).ev, pair := (s.logPlain src cls cause p0 p1 p2).pair } :=
  logEvent_rest s _

theorem logLantern_rest (s : State) (p cause p1 : Nat) :
    s.logLantern p cause p1 = { s with ev := (s.logLantern p cause p1).ev, pair := (s.logLantern p cause p1).pair } :=
  logPlain_rest ..

theorem linkEvents_logLantern (s : State) (p cause p1 : Nat) : LinkEvents s (s.logLantern p cause p1) :=
  ⟨by rw [logLantern_rest]⟩
theorem ports_logLantern (s : State) (p cause p1 : Nat) : (s.logLantern p cause p1).ports = s.ports := by rw [logLantern_rest]
theorem regs_logLantern (s : State) (p cause p1 : Nat) : (s.logLantern p cause p1).regs = s.regs := by rw [logLantern_rest]

theorem linkEvents_notePort (s : State) (p : Nat) : LinkEvents s (s.notePort p) := ⟨by rw [notePort_rest]⟩
theorem ports_notePort (s : State) (p : Nat) : (s.notePort p).ports = s.ports := by rw [notePort_rest]
theorem regs_notePort (s : State) (p : Nat) : (s.notePort p).regs = s.regs := by rw [notePort_rest]
theorem ev_notePort (s : State) (p : Nat) : (s.notePort p).ev = s.ev := by rw [notePort_rest]

theorem logged_logPlain (same : u.ev = s.ev) (src p0 p1 p2 : Nat) {cls cause : Nat} (class8 : cls < 256)
    (cause8 : cause < 256) : Logged s (u.logPlain src cls cause p0 p1 p2) cls cause := by
  obtain ⟨f, appended⟩ := logEvent_atSource u { u.eventOf src cls cause with
    p0 := BitVec.ofNat 32 p0, p1 := BitVec.ofNat 64 p1, p2 := BitVec.ofNat 64 p2 }
  rw [same] at appended
  exact ⟨_, appended, (BitVec.toNat_ofNat ..).trans (Nat.mod_eq_of_lt class8), (BitVec.toNat_ofNat ..).trans (Nat.mod_eq_of_lt cause8)⟩

theorem logged_logLantern (same : u.ev = s.ev) (p p1 : Nat) {cause : Nat} (cause8 : cause < 256) :
    Logged s (u.logLantern p cause p1) 0x0C cause :=
  logged_logPlain same _ _ _ _ (by decide) cause8

theorem logged_of_ev {cls cause : Nat} (h : Logged s t cls cause) (same : u.ev = t.ev) : Logged s u cls cause := by
  unfold Logged
  rw [same]
  exact h

end

/-! ### RETRAIN -/

/-- A port that enters RETRAIN (R314, R318, R319). -/
def Port.retrains (x : Port) (now : Nat) (op : Option ReqMsg) : Port :=
  { x with
    st := 8, since := now, op := op, req := none, leading := false, locked := 0, checked := false, calDone := false
    wideSince := none, retrainTimes := (x.retrainTimes.filter fun t => decide (now < t + 1000000000)) ++ [now]
    tsSent := false, tsSeen := false, cfgSent := false, cfgSeen := false
    ctlq := x.ctlq.filter fun m => m.head? == some 0x04 || m.head? == some 0x06 }

/-- A retrain is counted, and its port is in RETRAIN. -/
def State.retrainCounted (s : State) (p : Nat) (op : Option ReqMsg) : State :=
  (s.bump (Reg.LTN_PORT_EVENTS p) 0 8 1).setPort p ((s.port p).retrains s.ms op)

/-- Has a port entered RETRAIN less than twice within the last second (R318)? -/
def Port.seldom (x : Port) (now : Nat) : Prop := (x.retrainTimes.filter fun t => decide (now < t + 1000000000)).length < 2

/-- A retrain without ring recalibration that is no third within 1 s. -/
theorem enterRetrain_seldom {s : State} {p : Nat} {op : Option ReqMsg} (st : (s.port p).st = 7#4)
    (rings : (op.any fun m => m.op == 2#8) = false) (seldom : (s.port p).seldom s.ms) :
    s.enterRetrain p op = ((s.retrainCounted p op).logLantern p 0x02 0).notePort p := by
  have active : ((s.port p).st != 7#4) = false := by rw [st]; rfl
  have few : ¬(((s.port p).retrainTimes.filter fun t => decide (s.ms < t + 1000000000)) ++ [s.ms]).length ≥ 3 := by
    rw [List.length_append, List.length_singleton]
    unfold Port.seldom at seldom
    omega
  unfold State.enterRetrain
  simp only [active, rings, if_neg few]
  rfl

/-- What the entry to RETRAIN leaves of a state and of its port y. -/
structure Retrained (p : Nat) (op : Option ReqMsg) (y : Port) (s t : State) : Prop where
  only : LinkEvents s t
  sets : Sets s.port t.port p (y.retrains s.ms op)
  counts : Counts s t (Reg.LTN_PORT_EVENTS p) 0 8
  logged : Logged s t 0x0C 0x02

theorem retrained_enterRetrain {p : Nat} {s u : State} {y : Port} {op : Option ReqMsg} (h : PortIs p s u y) (st : y.st = 7#4)
    (rings : (op.any fun m => m.op == 2#8) = false) (seldom : y.seldom s.ms) : Retrained p op y s (u.enterRetrain p op) := by
  rw [enterRetrain_seldom (by rw [h.port]; exact st) rings (by rw [h.port, h.ms]; exact seldom)]
  have written : Sets s.port (u.retrainCounted p op).port p (y.retrains s.ms op) := by
    rw [State.retrainCounted, h.port, h.ms]
    exact ⟨port_setPort_same .., fun q other => (port_setPort_other _ _ _ _ other).trans (h.sets.2 q other)⟩
  have counted : LinkEvents u (u.retrainCounted p op) :=
    (LinkEvents.regsOnly (regsOnly_bump u (Reg.LTN_PORT_EVENTS p) 0 8 1)).trans (linkEvents_setPort ..)
  have events : (u.retrainCounted p op).ev = s.ev := h.ev
  exact ⟨(((LinkEvents.portIs h).trans counted).trans (linkEvents_logLantern ..)).trans (linkEvents_notePort ..),
    sets_of_ports written ((ports_notePort ..).trans (ports_logLantern ..)),
    counts_of_regs (counts_bump_of_regs h.regs _ 0 8 (by decide)) ((regs_notePort ..).trans (regs_logLantern ..)),
    logged_of_ev (logged_logLantern events p 0 (by decide)) (ev_notePort ..)⟩

end Sys2Proof.Machine
end

section
/-! The control messages of training and of operations (10 R313-R319). -/

namespace Sys2Proof.Machine

section
variable {s u : State} {p : Nat} {x y : Port}

/-! ### TS -/

/-- A TS of a state from EQUALISE on, of an end that has locked pairs (R314). -/
def LateTs (m : TsMsg) : Prop := 5 ≤ m.state.toNat ∧ m.state ≠ 7#8 ∧ m.locked ≠ 0#8

/-- What a port learns of its peer from TS (R313, R316). -/
def Port.learns (x : Port) (m : TsMsg) : Port :=
  { x with
    peerBad := m.bad ||| ~~~m.locked
    peerMax := if m.maxWidth = 2#8 ∨ m.maxWidth = 4#8 then m.maxWidth else 8#8
    tsSeen := true }

/-- TS in ACTIVE begins a retrain (R314). -/
theorem takeTs_active (st : (s.port p).st = 7#4) (m : TsMsg) : s.takeTs p m = s.enterRetrain p none := by
  rw [State.takeTs, if_pos st]

theorem takeTs_late {m : TsMsg} (st : (s.port p).st = 4#4 ∨ (s.port p).st = 5#4) (late : LateTs m) :
    s.takeTs p m = (s.setPort p ((s.port p).learns m)).tsExchanged p := by
  have inactive : ¬(s.port p).st = 7#4 := by rcases st with st | st <;> rw [st] <;> decide
  have taken : (decide (m.state.toNat ≥ 5) && m.state != 7#8 && m.locked != 0) = true := by
    simpa [LateTs, and_assoc] using late
  unfold State.takeTs
  simp only [if_neg inactive, taken, and_true]
  rw [if_pos (st.imp_right Or.inl)]
  rfl

/-- A late TS, this end's sent: the pair check (R314, R316). -/
theorem takeTs_checks {m : TsMsg} {w : Nat} {g : Byte} (st : (s.port p).st = 5#4) (late : LateTs m) (sent : (s.port p).tsSent = true)
    (group : chooseGroup (min (s.maxPairs p) ((s.port p).learns m).peerMax.toNat) ((s.port p).learns m).bad = some (w, g)) :
    PortIs p s (s.takeTs p m) { (s.port p).learns m with
      width := BitVec.ofNat 4 w, pairs := g, checked := true, cfgSent := false, cfgSeen := false, st := 6, since := s.ms } := by
  have learnt := (PortIs.refl p s).setPort ((s.port p).learns m)
  rw [takeTs_late (.inr st) late]
  have checks := tsExchanged_check (s := s.setPort p ((s.port p).learns m)) (p := p) (w := w) (g := g) (by rwa [learnt.port])
    (by rw [learnt.port]; rfl) (by rwa [learnt.port]) (by rwa [State.targetWidth, maxPairs_of_regs learnt.regs, learnt.port])
  rw [checks, learnt.port, learnt.ms]
  exact learnt.setPort _

/-- A late TS before this end's own is kept (log entry 148). -/
theorem takeTs_keeps {m : TsMsg} (st : (s.port p).st = 4#4 ∨ ((s.port p).st = 5#4 ∧ (s.port p).tsSent = false)) (late : LateTs m) :
    PortIs p s (s.takeTs p m) ((s.port p).learns m) := by
  have learnt := (PortIs.refl p s).setPort ((s.port p).learns m)
  have unchecked : (s.setPort p ((s.port p).learns m)).tsExchanged p = s.setPort p ((s.port p).learns m) := by
    refine tsExchanged_open ?_ ?_ <;> rw [learnt.port]
    · rintro ⟨sent, -, st'⟩
      rcases st with other | ⟨-, unsent⟩
      · exact absurd (other.symm.trans st') (by decide)
      · exact Bool.false_ne_true (unsent.symm.trans sent)
    · rcases st with st | ⟨st, -⟩ <;> exact ne_of_eq_of_ne st (by decide)
  rw [takeTs_late (st.imp_right And.left) late, unchecked]
  exact learnt

/-! ### CONFIG -/

/-- The module and port that CONFIG names (R313, R321). -/
def configPeer (m : ConfigMsg) : Nat := m.moduleId.toNat + 2 ^ 10 * (m.port.toNat % 128)

theorem configPeer_lt (m : ConfigMsg) : configPeer m < 2 ^ 17 := by
  unfold configPeer
  omega

/-- The peer's CONFIG has been taken in a first training (R314, R322). -/
def State.configTaken (s : State) (p : Nat) (m : ConfigMsg) : State :=
  (s.setField (Reg.LTN_PORT_PEER p) 0 17 (configPeer m)).setPort p { s.port p with cfgSeen := true }

/-- CONFIG of version 1 in a first training whose saved equalisation, if used, is the peer's (R313, R321). -/
theorem takeConfig_taken {m : ConfigMsg} (st : (s.port p).st = 6#4) (version : m.version = 1#8)
    (known : (s.port p).eqSaved = false ∨ (s.port p).savedEq.map (·.peer) = some (configPeer m)) :
    s.takeConfig p m = (s.configTaken p m).cfgExchanged p := by
  have current : (m.version != 1#8) = false := by rw [version]; rfl
  have same : ¬((s.port p).eqSaved = true ∧ (s.port p).savedEq.map (·.peer) ≠ some (configPeer m)) := fun ⟨saved, other⟩ =>
    known.elim (fun unsaved => Bool.false_ne_true (unsaved.symm.trans saved)) other
  unfold State.takeConfig
  simp only [current, if_pos st]
  exact if_neg same

theorem port_configTaken (s : State) (p : Nat) (m : ConfigMsg) :
    (s.configTaken p m).port p = { s.port p with cfgSeen := true } := port_setPort_same ..

/-- The peer shown and linked stands in 18 bits. -/
theorem field_peer_linked (s : State) (p : Nat) (m : ConfigMsg) :
    (((s.configTaken p m).setField (Reg.LTN_PORT_PEER p) 17 1 1).field (Reg.LTN_PORT_PEER p) 0 18) = configPeer m + 2 ^ 17 := by
  have id : ((s.configTaken p m).setField (Reg.LTN_PORT_PEER p) 17 1 1).field (Reg.LTN_PORT_PEER p) 0 17 = configPeer m := by
    rw [field_setField_apart _ _ _ _ _ _ _ (by decide) (by decide), State.configTaken, State.setPort_fieldAt,
      field_setField_same _ _ _ _ _ (by decide)]
    exact Nat.mod_eq_of_lt (configPeer_lt m)
  have up : ((s.configTaken p m).setField (Reg.LTN_PORT_PEER p) 17 1 1).field (Reg.LTN_PORT_PEER p) 17 1 = 1 :=
    field_setField_same _ _ _ _ _ (by decide)
  generalize (s.configTaken p m).setField (Reg.LTN_PORT_PEER p) 17 1 1 = t at id up ⊢
  simp only [State.field, State.fnField, bitsOf] at id up ⊢
  generalize (t.fnReg 0 (Reg.LTN_PORT_PEER p)).toNat = v at id up ⊢
  omega

/-! ### REQ -/

/-- A REQ for a width says something of the peer's width, and of nothing else (R317). -/
theorem noteMax_width {m : ReqMsg} (op : m.op = 3#8) (x : Port) : ∃ n, x.noteMax m = { x with peerMax := n } := by
  have width : (m.op != 3#8) = false := by rw [op]; rfl
  rw [Port.noteMax, width]
  split
  · contradiction
  · split
    · exact ⟨_, rfl⟩
    · exact ⟨_, rfl⟩

/-- A port that a REQ has told of the peer's bad pairs (R316, R317). -/
def State.told (s : State) (p : Nat) (x : Port) (bad : Byte) : Port :=
  { x with peerBad := bad, wideSince := s.wideFor p { x with peerBad := bad } }

theorem told_active {s : State} {p : Nat} {x : Port} (st : x.st = 7#4) (bad : Byte) :
    s.told p x bad = { x with
      peerBad := bad
      wideSince := if (match chooseGroup (min (s.maxPairs p) x.peerMax.toNat) (x.ownBad ||| x.permBad ||| bad) with
        | some (w, _) => decide (x.width.toNat < w)
        | none => false) then some (x.wideSince.getD s.ms) else none } := by
  unfold State.told State.wideFor Port.bad
  simp only [st, beq_self_eq_true, Bool.true_and] <;> rfl

/-- What is told depends on the width that the registers permit and on the time. -/
theorem told_of_reg {s t : State} {p : Nat} (reg : t.reg (Reg.LTN_PORT_CTRL p) = s.reg (Reg.LTN_PORT_CTRL p)) (ms : t.ms = s.ms)
    (x : Port) (bad : Byte) : t.told p x bad = s.told p x bad := by
  unfold State.told State.wideFor
  rw [maxPairs_of_reg reg, ms]

/-- A port that grants a REQ for a width. -/
def State.granted (s : State) (p : Nat) (x : Port) (m : ReqMsg) : Port :=
  { s.told p x m.bad with ctlq := x.ctlq ++ [grantBytes m.reqNo], op := some m, leading := false }

theorem portIs_told (h : PortIs p s u x) (y : Port) (bad : Byte) :
    PortIs p s ((u.setPort p { y with peerBad := bad }).noteWider p) (s.told p y bad) :=
  (h.setPort { y with peerBad := bad }).noteWider

theorem portIs_grantReq {m : ReqMsg} (h : PortIs p s u x) (op : m.op = 3#8) : PortIs p s (u.grantReq p m) (s.granted p x m) := by
  have told := ((h.modPort fun y => { y with peerBad := m.bad }).noteWider).sendCtl (grantBytes m.reqNo)
  rw [State.grantReq, State.runOp, if_pos op, told.port]
  exact told.setPort _

section
variable {m : ReqMsg}

/-- A REQ for a width that reaches a linked port (R319). -/
theorem takeReq_width (op : m.op = 3#8) (linked : (s.port p).linked = true) :
    s.takeReq p m =
      if (s.port p).requesting then
        if decide ((s.sourceName (srcEngine (portEngine p))).toNat < m.name.toNat) ||
            ((s.sourceName (srcEngine (portEngine p))).toNat == m.name.toNat && decide (p < m.reqPort.toNat)) then
          (s.setPort p { (s.port p).noteMax m with peerBad := m.bad }).noteWider p
        else
          ((s.setPort p { (s.port p).noteMax m with
            req := none, lost := true
            want := ((s.port p).req.bind fun r =>
              if r.msg.op.toNat ≤ 2 then some (r.msg.op.toNat, r.msg.reason.toNat) else none).or (s.port p).want }).bump
            (Reg.LTN_PORT_EVENTS p) 24 8 1).grantReq p m
      else if (s.port p).op.isSome ∨ (s.port p).st = 8#4 then s.setPort p { (s.port p).noteMax m with heldReq := some m }
      else (s.setPort p ((s.port p).noteMax m)).grantReq p m := by
  obtain ⟨n, noted⟩ := noteMax_width op (s.port p)
  have width : ¬(m.op = 0#8 ∨ m.op.toNat > 3 ∨ (!(s.port p).linked) = true) := by
    rw [op, linked]
    decide
  unfold State.takeReq
  dsimp only
  rw [noted]
  exact if_neg width

theorem takeReq_grants (op : m.op = 3#8) (st : y.st = 7#4) (quiet : y.requesting = false) (free : y.op = none) (h : PortIs p s u y) :
    PortIs p s (u.takeReq p m) (s.granted p (y.noteMax m) m) := by
  have idle : ¬(y.op.isSome = true ∨ y.st = 8#4) := by
    rw [free, st]
    decide
  rw [takeReq_width op (by rw [h.port]; exact linked_of_active st), h.port, quiet, if_neg Bool.false_ne_true, if_neg idle]
  exact portIs_grantReq (h.setPort _) op

/-- The end with the lower name leads (R319): its own REQ stands. -/
theorem takeReq_leads (op : m.op = 3#8) (st : y.st = 7#4) (asks : y.requesting = true)
    (lower : (s.sourceName (srcEngine (portEngine p))).toNat < m.name.toNat) (h : PortIs p s u y) :
    PortIs p s (u.takeReq p m) (s.told p (y.noteMax m) m.bad) := by
  rw [takeReq_width op (by rw [h.port]; exact linked_of_active st), h.port, sourceName_of_regs h.regs, asks, if_pos rfl,
    decide_eq_true lower, Bool.true_or, if_pos rfl]
  exact portIs_told h (y.noteMax m) m.bad

/-- The state in which a REQ of a port for a width has lost a collision (R319, R322). -/
def State.collided (s : State) (p : Nat) (x : Port) (m : ReqMsg) : State :=
  (s.setPort p { x.noteMax m with req := none, lost := true }).bump (Reg.LTN_PORT_EVENTS p) 24 8 1

/-- The end with the higher name gives its REQ up (R319). -/
theorem takeReq_loses {r : ReqState} (op : m.op = 3#8) (st : y.st = 7#4) (asks : y.req = some r) (early : r.sends < 8)
    (own : r.msg.op = 3#8) (higher : m.name.toNat < (s.sourceName (srcEngine (portEngine p))).toNat) (h : PortIs p s u y) :
    u.takeReq p m = (u.collided p y m).grantReq p m := by
  obtain ⟨n, noted⟩ := noteMax_width op y
  have asking : y.requesting = true := by
    rw [Port.requesting, asks]
    exact decide_eq_true early
  have follows : ¬(decide ((s.sourceName (srcEngine (portEngine p))).toNat < m.name.toNat) ||
      ((s.sourceName (srcEngine (portEngine p))).toNat == m.name.toNat && decide (p < m.reqPort.toNat))) = true := by
    simp only [Bool.or_eq_true, Bool.and_eq_true, decide_eq_true_eq, beq_iff_eq]
    omega
  have width : ¬r.msg.op.toNat ≤ 2 := by rw [own]; decide
  rw [takeReq_width op (by rw [h.port]; exact linked_of_active st), h.port, sourceName_of_regs h.regs, asking, if_pos rfl,
    if_neg follows, asks, Option.bind_some, if_neg width, Option.none_or, State.collided, noted]

end

/-! ### GRANT -/

theorem takeGrant_starts {r : ReqState} (st : y.st = 7#4) (asks : y.req = some r) (free : y.op = none)
    (h : PortIs p s u y) : u.takeGrant p r.msg.reqNo = (u.setPort p { y with req := none }).runOp p r.msg true := by
  unfold State.takeGrant
  dsimp only
  rw [h.port, asks]
  exact if_pos ⟨rfl, st, by rw [free]; rfl⟩

/-- A width change starts at its leader (R317). -/
theorem takeGrant_width {r : ReqState} {w : Nat} {g : Byte} (st : y.st = 7#4) (asks : y.req = some r) (free : y.op = none)
    (op : r.msg.op = 3#8) (group : chooseGroup r.msg.width.toNat y.bad = some (w, g)) (h : PortIs p s u y) :
    PortIs p s (u.takeGrant p r.msg.reqNo) { y with
      op := some r.msg, leading := true, req := none, ctlq := y.ctlq ++ [markBytes (BitVec.ofNat 8 w) g r.msg.reqNo] } := by
  have given := h.setPort { y with req := none }
  have group' : chooseGroup r.msg.width.toNat (Port.bad { y with req := none }) = some (w, g) := group
  rw [takeGrant_starts st asks free h, State.runOp, if_pos op, given.port]
  simp only [if_true, group']
  exact (given.setPort _).sendCtl _

/-- A retrain starts at its leader (R318). -/
theorem takeGrant_retrain {r : ReqState} (st : y.st = 7#4) (asks : y.req = some r) (free : y.op = none)
    (op : r.msg.op = 1#8) (seldom : y.seldom s.ms) (h : PortIs p s u y) :
    Retrained p (some r.msg) { y with req := none } s (u.takeGrant p r.msg.reqNo) := by
  have retrain : ¬r.msg.op = 3#8 := by rw [op]; decide
  have alone : ¬r.msg.op = 2#8 := by rw [op]; decide
  have rings : ((some r.msg).any fun m => m.op == 2#8) = false := by
    rw [Option.any_some, op]
    rfl
  rw [takeGrant_starts st asks free h, State.runOp, if_neg retrain, State.runRetrain, if_neg alone]
  exact retrained_enterRetrain (h.setPort { y with req := none }) st rings seldom

/-! ### WIDTH_MARK -/

/-- A width change is complete at an end (R317). -/
structure Widened (p : Nat) (w g : Byte) (s t : State) : Prop where
  only : LinkEvents s t
  others : ∀ q, q ≠ p → t.port q = s.port q
  width : (t.port p).width = w.setWidth 4
  pairs : (t.port p).pairs = g
  txPairs : (t.port p).txPairs = g
  op : (t.port p).op = none
  counts : Counts s t (Reg.LTN_PORT_EVENTS p) 8 8
  logged : Logged s t 0x0C 0x03

theorem widened_widthDone (h : PortIs p s u y) (free : y.heldReq = none) (width pairs : Byte) :
    Widened p width pairs s (u.widthDone p width pairs) := by
  have written := h.setPort { y with width := width.setWidth 4, pairs := pairs, txPairs := pairs }
  have shape : ∃ old, u.widthDone p width pairs =
      (((u.setPort p { y with width := width.setWidth 4, pairs := pairs, txPairs := pairs }).bump
        (Reg.LTN_PORT_EVENTS p) 8 8 1).logLantern p 0x03 old).finishOp p := ⟨_, by unfold State.widthDone; rw [h.port]⟩
  obtain ⟨old, shape⟩ := shape
  rw [shape]
  generalize u.setPort p _ = v at written
  have bumped := regsOnly_bump v (Reg.LTN_PORT_EVENTS p) 8 8 1
  have counts := counts_bump_of_regs written.regs (Reg.LTN_PORT_EVENTS p) 8 8 (by decide)
  generalize v.bump (Reg.LTN_PORT_EVENTS p) 8 8 1 = b at bumped counts
  have ports : (b.logLantern p 0x03 old).ports = v.ports := by rw [ports_logLantern, bumped.rest]
  have events : b.ev = s.ev := by rw [bumped.rest, written.ev]
  have port : (b.logLantern p 0x03 old).port p = _ := (port_of_ports ports p).trans written.port
  have ends := opEnds_finishOp (s := b.logLantern p 0x03 old) (p := p) (by rw [port]; exact free)
  have same := ends.port
  rw [port] at same
  exact ⟨(((LinkEvents.portIs written).trans (LinkEvents.regsOnly bumped)).trans (linkEvents_logLantern ..)).trans ⟨by rw [ends.rest]⟩,
    fun q other => (ends.others q other).trans ((port_of_ports ports q).trans (written.sets.2 q other)),
    (congrArg Port.width same :), (congrArg Port.pairs same :), (congrArg Port.txPairs same :), ends.op,
    counts_of_regs counts (ends.regs.trans (regs_logLantern ..)),
    logged_of_ev (logged_logLantern events p old (by decide)) (by rw [ends.rest])⟩

section
variable {o : ReqMsg} {width pairs : Byte}

theorem takeMark_own (st : y.st = 7#4) (runs : y.op = some o) (op : o.op = 3#8) (group : pairs ∈ pairGroups width.toNat)
    (h : PortIs p s u y) : u.takeMark p width pairs o.reqNo =
      if y.leading then u.widthDone p width pairs else u.sendCtl p (markBytes width pairs o.reqNo) := by
  unfold State.takeMark
  dsimp only
  rw [h.port, runs]
  exact if_pos ⟨st, op, rfl, by simpa using group⟩

end

/-! ### TIME -/

/-- TIME is noted (R398): a follower of the pair draws the offset that it will correct (log entry 145). -/
theorem takeTime_linked (linked : y.linked = true) (h : PortIs p s u y) (value : BitVec 64) (arrival : Nat) :
    u.takeTime p value arrival = { s with
        ports := (u.takeTime p value arrival).ports, msOff := (u.takeTime p value arrival).msOff
        freeCtr := (u.takeTime p value arrival).freeCtr } ∧
      (if s.pairFollows = true ∧ 120 ≤ p then -20 ≤ (u.takeTime p value arrival).msOff ∧ (u.takeTime p value arrival).msOff ≤ 20
        else (u.takeTime p value arrival).msOff = s.msOff ∧ (u.takeTime p value arrival).freeCtr = s.freeCtr) ∧
      Sets s.port (u.takeTime p value arrival).port p { y with msOff := [(arrival : Int) - value.toNat] } := by
  have noted := h.modPort fun y => { y with msOff := [(arrival : Int) - value.toNat] }
  have follows : (u.modPort p fun y => { y with msOff := [(arrival : Int) - value.toNat] }).pairFollows = s.pairFollows := by
    rw [noted.rest]
    rfl
  unfold State.takeTime
  rw [if_pos (by rw [h.port]; exact linked)]
  dsimp only
  rw [follows]
  generalize u.modPort p _ = v at noted
  by_cases draws : s.pairFollows = true ∧ 120 ≤ p
  · rw [if_pos (by simpa using draws), if_pos draws]
    refine ⟨?_, ?_, noted.sets⟩
    · rw [noted.rest]
      rfl
    · generalize v.fresh.1 = n
      dsimp only
      omega
  · rw [if_neg (by simpa using draws), if_neg draws]
    exact ⟨by rw [noted.rest], ⟨by rw [noted.rest], by rw [noted.rest]⟩, noted.sets⟩

end

end Sys2Proof.Machine
end

section
/-! The control flits of a port (10 R309, R313-R319, R398). -/

namespace Sys2Proof.Machine

/-- A port but for what a header changes (R309, R311). -/
def Port.unheaded (x : Port) : Port := { x with credits := [], unacked := [], ackMs := 0, replayLeft := 0 }

section
variable {c : Instr} {s : State} {p : Nat} {h : FlitHead} {msg : List Byte} {act : State → State} {P : State → Prop}

/-- Time passes, and then nothing differs but one port. -/
theorem timed_portIs {t : State} {T : Nat} {x : Port} (h : PortIs p (s.advanceTo T) t x) :
    t.ms = max s.ms T ∧
      t = { s with ports := t.ports, ms := t.ms, msOff := t.msOff, up := t.up, man := t.man } ∧ Sets s.port t.port p x :=
  ⟨h.ms.trans (advanceTo_ms s T), timed_rest T h.rest, h.sets.1,
    fun q other => (h.sets.2 q other).trans (port_of_ports (State.advanceTo_ports s T) q)⟩

theorem unheaded_headedBy (s : State) (p : Nat) (h : FlitHead) : (s.headedBy p h).unheaded = (s.port p).unheaded := by
  unfold State.headedBy
  split
  · rfl
  · rfl

/-- What a good control flit answers is what its message does. -/
theorem answers_control (run : exec c s = .next (s.traced (s.onControl p h msg act))) (good : flitGood (controlFlit h msg) = true)
    (calm : h.nak = false ∨ (s.headedBy p h).unacked = []) (acts : ∀ u, PortIs p s u (s.headedBy p h) → P (act u)) :
    Answers c s (Noted P) := by
  obtain ⟨u, headed, eq⟩ := onControl_intact (act := act) good calm
  exact answers_traced_eq run eq (acts u headed)

/-- The header of a flit counts only while the link stands (R308). -/
theorem answers_control_training (run : exec c s = .next (s.traced (s.onControl p h msg act)))
    (good : flitGood (controlFlit h msg) = true) (unlinked : (s.port p).linked = false) (acts : P (act s)) :
    Answers c s (Noted P) := by
  refine answers_traced_eq run ?_ acts
  change (if flitGood (controlFlit h msg) then act (if (s.port p).linked then s.takeHeader p (controlFlit h msg) else s)
    else s.badCrc p) = act s
  rw [good, unlinked]
  rfl

theorem unlinked_of_st {x : Port} {v : BitVec 4} (st : x.st = v) (training : v ≠ 7#4) (first : v ≠ 8#4) : x.linked = false := by
  rw [Port.linked, st]
  simp [training, first]

end

section
variable {s u : State} {p : Nat} {y : Port}

/-- A port whose REQ for a width lost a collision grants the peer's (R319). -/
theorem collided_granted {m : ReqMsg} (op : m.op = 3#8) (h : PortIs p s u y) :
    (u.collided p y m).grantReq p m = { s with
        ports := ((u.collided p y m).grantReq p m).ports, regs := ((u.collided p y m).grantReq p m).regs } ∧
      Counts s ((u.collided p y m).grantReq p m) (Reg.LTN_PORT_EVENTS p) 24 8 ∧
      Sets s.port ((u.collided p y m).grantReq p m).port p (s.granted p { y.noteMax m with req := none, lost := true } m) := by
  have lost := h.setPort { y.noteMax m with req := none, lost := true }
  have counts := counts_bump_of_regs lost.regs (Reg.LTN_PORT_EVENTS p) 24 8 (by decide)
  have bumped := regsOnly_bump (u.setPort p { y.noteMax m with req := none, lost := true }) (Reg.LTN_PORT_EVENTS p) 24 8 1
  have ctrl := reg_bump_other (u.setPort p { y.noteMax m with req := none, lost := true }) (Reg.LTN_PORT_EVENTS p)
    (Reg.LTN_PORT_CTRL p) 24 8 1 (ctrl_ne_events p)
  unfold State.collided
  generalize u.setPort p { y.noteMax m with req := none, lost := true } = v at lost counts bumped ctrl
  generalize v.bump (Reg.LTN_PORT_EVENTS p) 24 8 1 = b at counts bumped ctrl
  have ports : b.ports = v.ports := by rw [bumped.rest]
  have granted := portIs_grantReq (PortIs.refl p b) op
  have told : b.told p (b.port p) m.bad = s.told p (b.port p) m.bad :=
    told_of_reg (ctrl.trans (reg_of_regs lost.regs _)) (by rw [bumped.rest, lost.ms]) _ _
  rw [State.granted, told, port_of_ports ports, lost.port] at granted
  exact ⟨by rw [granted.rest, bumped.rest, lost.rest], counts_of_regs counts granted.regs, granted.sets.1,
    fun q other => (granted.sets.2 q other).trans ((port_of_ports ports q).trans (lost.sets.2 q other))⟩

/-- A REQ goes out again (R319). -/
theorem reqResend_again {r : ReqState} (asks : (s.port p).req = some r) (early : r.sends < 8) :
    PortIs p (s.advanceTo (r.lastMs + 2000)) (s.reqResend p) { s.port p with
      req := some { r with sends := r.sends + 1, lastMs := (s.advanceTo (r.lastMs + 2000)).ms }
      ctlq := (s.port p).ctlq ++ [reqBytes r.msg] } := by
  have again : ¬r.sends ≥ 8 := Nat.not_le.2 early
  unfold State.reqResend
  dsimp only
  rw [asks]
  dsimp only
  rw [if_neg again]
  exact ((PortIs.refl p _).setPort _).sendCtl _

/-- After the eighth REQ the end enters RETRAIN (R318). -/
theorem reqResend_spent {r : ReqState} (asks : (s.port p).req = some r) (spent : 8 ≤ r.sends) :
    s.reqResend p = (s.advanceTo (r.lastMs + 2000)).enterRetrain p none := by
  unfold State.reqResend
  dsimp only
  rw [asks]
  exact if_pos spent

end

section
variable {port : BitVec 7} {h : FlitHead} {s : State}

/-- The peer's CONFIG is taken before this end's has left (R314). -/
theorem config_waits {m : ConfigMsg} (good : flitGood (controlFlit h (configBytes m)) = true) (st : (s.port port.toNat).st = 6#4)
    (version : m.version = 1#8)
    (known : (s.port port.toNat).eqSaved = false ∨ (s.port port.toNat).savedEq.map (·.peer) = some (configPeer m))
    (unsent : (s.port port.toNat).cfgSent = false) :
    Answers (.config port h m) s (Noted fun t => (t.port port.toNat).st = 6#4 ∧ (t.port port.toNat).cfgSeen = true ∧
      t.field (Reg.LTN_PORT_PEER port.toNat) 0 17 = configPeer m) := by
  refine answers_control_training rfl good (unlinked_of_st st (by decide) (by decide)) ?_
  have taken := takeConfig_taken st version known
  rw [cfgExchanged_open (.inr (by rw [port_configTaken]; exact unsent))] at taken
  rw [taken]
  have sends := (sends_pairTry (s.configTaken port.toNat m)).ports port.toNat
  rw [port_configTaken] at sends
  refine ⟨((congrArg Port.st sends :)).trans st, (congrArg Port.cfgSeen sends :), ?_⟩
  rw [field_of_regs (regs_pairTry _), State.configTaken, State.setPort_fieldAt, field_setField_same _ _ _ _ _ (by decide)]
  exact Nat.mod_eq_of_lt (configPeer_lt m)

/-- CONFIG has gone both ways: the link is ACTIVE (R311, R312, R314). -/
theorem config_up {m : ConfigMsg} (good : flitGood (controlFlit h (configBytes m)) = true) (st : (s.port port.toNat).st = 6#4)
    (version : m.version = 1#8)
    (known : (s.port port.toNat).eqSaved = false ∨ (s.port port.toNat).savedEq.map (·.peer) = some (configPeer m))
    (sent : (s.port port.toNat).cfgSent = true) (free : (s.port port.toNat).heldReq = none) :
    Answers (.config port h m) s (Noted fun t =>
      (t.port port.toNat).st = 7#4 ∧ (t.port port.toNat).txSeq = 0#12 ∧ (t.port port.toNat).rxNext = 0#12 ∧
      (t.port port.toNat).txPairs = (s.port port.toNat).pairs ∧
      (∀ c, c < 4 → AMap.get 0 (t.port port.toNat).credits c = chanBuffers c) ∧
      t.field (Reg.LTN_PORT_PEER port.toNat) 0 18 = configPeer m + 2 ^ 17 ∧
      t.field (Reg.LTN_PORT_STATUS port.toNat) 24 8 = (s.field (Reg.LTN_PORT_STATUS port.toNat) 24 8 + 1) % 256) := by
  refine answers_control_training rfl good (unlinked_of_st st (by decide) (by decide)) ?_
  have taken := takeConfig_taken st version known
  have port' := port_configTaken s port.toNat m
  rw [cfgExchanged_up (by rw [port']; exact st) (by rw [port']; exact sent) (by rw [port'])] at taken
  have peer := field_peer_linked s port.toNat m
  have status : ((s.configTaken port.toNat m).setField (Reg.LTN_PORT_PEER port.toNat) 17 1 1).field
      (Reg.LTN_PORT_STATUS port.toNat) 24 8 = s.field (Reg.LTN_PORT_STATUS port.toNat) 24 8 := by
    have apart : Reg.LTN_PORT_STATUS port.toNat ≠ Reg.LTN_PORT_PEER port.toNat := by
      unfold Reg.LTN_PORT_STATUS Reg.LTN_PORT_PEER
      omega
    rw [field_setField_other _ _ _ _ _ _ _ _ apart, State.configTaken, State.setPort_fieldAt,
      field_setField_other _ _ _ _ _ _ _ _ apart]
  have before : ((s.configTaken port.toNat m).setField (Reg.LTN_PORT_PEER port.toNat) 17 1 1).port port.toNat =
      { s.port port.toNat with cfgSeen := true } := (State.setField_portAt ..).trans port'
  rw [taken]
  generalize (s.configTaken port.toNat m).setField (Reg.LTN_PORT_PEER port.toNat) 17 1 1 = v at peer status before
  have up := linkUp_becomeActive (s := v) (p := port.toNat) (by rw [before]; exact st) (by rw [before]; exact free)
  generalize v.becomeActive port.toNat = t at up
  have sends := (sends_pairTry t).ports port.toNat
  have regs := (regs_pairTry t).trans up.regs
  generalize t.pairTry = w at sends regs
  have apart : Reg.LTN_PORT_PEER port.toNat ≠ Reg.LTN_PORT_STATUS port.toNat := by
    unfold Reg.LTN_PORT_PEER Reg.LTN_PORT_STATUS
    omega
  have credits : (w.port port.toNat).credits = (t.port port.toNat).credits := (congrArg Port.credits sends :)
  have pairs : (t.port port.toNat).txPairs = (s.port port.toNat).pairs := up.txPairs.trans (by rw [before])
  refine ⟨(congrArg Port.st sends :).trans up.st, (congrArg Port.txSeq sends :).trans up.txSeq,
    (congrArg Port.rxNext sends :).trans up.rxNext, (congrArg Port.txPairs sends :).trans pairs,
    fun c inside => by rw [credits]; exact up.credits c inside, ?_, ?_⟩
  · rw [field_of_regs regs, State.epochCounted, field_setField_other _ _ _ _ _ _ _ _ apart, peer]
  · rw [field_of_regs regs, State.epochCounted, field_setField_same _ _ _ _ _ (by decide), status]
    rfl

end

/-- Settles O49: each message by the state of its port and by the operation under way. -/
theorem lanternControl : Obligations.LanternControl := by
  intro port h m cm rm width pairs no value arrival s p x y good intact ports damaged retrains seldom lowest late learnt peer own
    told grants
  have kept : y.unheaded = x.unheaded := unheaded_headedBy s p h
  have ySt : y.st = x.st := (congrArg Port.st kept :)
  have yOp : y.op = x.op := (congrArg Port.op kept :)
  have yReq : y.req = x.req := (congrArg Port.req kept :)
  have yHeld : y.heldReq = x.heldReq := (congrArg Port.heldReq kept :)
  have yCtlq : y.ctlq = x.ctlq := (congrArg Port.ctlq kept :)
  have yLeads : y.leading = x.leading := (congrArg Port.leading kept :)
  have yTimes : y.retrainTimes = x.retrainTimes := (congrArg Port.retrainTimes kept :)
  have peerLow : peer % 2 ^ 17 = configPeer cm := by
    have := configPeer_lt cm
    change (configPeer cm + 2 ^ 17) % 2 ^ 17 = _
    omega
  have retrain {op : Option ReqMsg} {z : Port} {t : State} (same : z.unasked = y.unasked) (h : Retrained p op z s t) : retrains t := by
    obtain ⟨only, sets, counts, logged⟩ := h
    refine ⟨?_, ?_, ?_, ?_, ?_, ?_, sets.2, counts, logged, only.rest⟩ <;> rw [sets.1]
    · rfl
    · rfl
    · exact (congrArg Port.unacked same :)
    · exact (congrArg Port.txq same :).trans (congrArg Port.txq kept :)
    · rfl
    · rfl
  have tells {z : Port} (st : z.st = 7#4) : s.told p z rm.bad = told z := told_active st rm.bad
  have gives {z : Port} (st : z.st = 7#4) (ctlq : z.ctlq = x.ctlq) : s.granted p z rm = grants z := by
    rw [State.granted, tells st, ctlq]
  have notes (op : rm.op = 3#8) (st : x.st = 7#4) : (y.noteMax rm).st = 7#4 ∧ (y.noteMax rm).ctlq = x.ctlq := by
    obtain ⟨n, noted⟩ := noteMax_width op y
    rw [noted]
    exact ⟨ySt.trans st, yCtlq⟩
  have fits {z : Port} (times : z.retrainTimes = x.retrainTimes) (few : seldom) : z.seldom s.ms := by
    rw [Port.seldom, times]
    exact few
  refine ⟨fun on off bad => control_damaged rfl bad on off, fun on off bad => control_damaged rfl bad on off,
    fun on off bad => control_damaged rfl bad on off, fun on off bad => control_damaged rfl bad on off,
    fun w g given st after sent chosen => ?checks, fun given st after => ?keeps, fun given st few => ?restarts,
    fun given st version known unsent => ?waits, fun given st version known sent free => ?up,
    fun given st op quiet free => ?grants, fun given st op asks lower => ?leads, fun r given st op asks early same higher => ?loses,
    fun r w g given st asks same op free group => ?starts, fun r given st asks same op free few => ?retrains,
    fun o given st runs op same group leads free => ?widens, fun o given st runs op same group follows => ?marks,
    fun given linked => ?time, fun st => ?tells, fun r asks early => ?again, fun r asks spent st few => ?gives⟩
  case checks =>
    refine answers_control_training rfl given.1 (unlinked_of_st st (by decide) (by decide)) ?_
    have group : chooseGroup (min (s.maxPairs p) (x.learns m).peerMax.toNat) (x.learns m).bad = some (w, g) := by
      rw [← chosen, Port.learns, apply_ite BitVec.toNat]
      rfl
    obtain ⟨rest, sets⟩ := takeTs_checks st after sent group
    exact ⟨rest, sets⟩
  case keeps =>
    have unlinked : x.linked = false :=
      st.elim (unlinked_of_st · (by decide) (by decide)) fun st => unlinked_of_st st.1 (by decide) (by decide)
    obtain ⟨rest, sets⟩ := takeTs_keeps st after
    exact answers_control_training rfl given.1 unlinked ⟨rest, sets⟩
  case restarts =>
    refine answers_control rfl given.1 given.2 fun u headed => ?_
    rw [takeTs_active (by rw [headed.port]; exact ySt.trans st)]
    exact retrain rfl (retrained_enterRetrain headed (ySt.trans st) rfl (fits yTimes few))
  case waits =>
    rw [peerLow] at known ⊢
    exact config_waits given.1 st version known unsent
  case up =>
    rw [peerLow] at known
    exact config_up given.1 st version known sent free
  case grants =>
    obtain ⟨active, queue⟩ := notes op st
    refine answers_control rfl given.1 given.2 fun u headed => ?_
    obtain ⟨rest, sets⟩ := takeReq_grants op (ySt.trans st) (by rw [Port.requesting, yReq]; exact quiet) (yOp.trans free) headed
    exact ⟨rest, sets.1.trans (gives active queue), sets.2⟩
  case leads =>
    refine answers_control rfl given.1 given.2 fun u headed => ?_
    obtain ⟨rest, sets⟩ := takeReq_leads op (ySt.trans st) (by rw [Port.requesting, yReq]; exact asks) lower headed
    exact ⟨rest, sets.1.trans (tells (notes op st).1), sets.2⟩
  case loses =>
    obtain ⟨active, queue⟩ := notes op st
    refine answers_control rfl given.1 given.2 fun u headed => ?_
    obtain ⟨rest, counts, sets⟩ := collided_granted op headed
    rw [takeReq_loses op (ySt.trans st) (yReq.trans asks) early same higher headed]
    exact ⟨rest, counts, sets.1.trans (gives (z := { y.noteMax rm with req := none, lost := true }) active queue), sets.2⟩
  case starts =>
    subst same
    refine answers_control rfl given.1 given.2 fun u headed => ?_
    have merged : y.bad = x.bad := (congrArg Port.bad kept :)
    obtain ⟨rest, sets⟩ := takeGrant_width (ySt.trans st) (yReq.trans asks) (yOp.trans free) op (merged ▸ group) headed
    rw [yCtlq] at sets
    exact ⟨rest, sets⟩
  case retrains =>
    subst same
    refine answers_control rfl given.1 given.2 fun u headed => ?_
    exact retrain (z := { y with req := none }) rfl
      (takeGrant_retrain (ySt.trans st) (yReq.trans asks) (yOp.trans free) op (fits yTimes few) headed)
  case widens =>
    subst same
    refine answers_control rfl given.1 given.2 fun u headed => ?_
    have done := widened_widthDone headed (yHeld.trans free) width pairs
    rw [takeMark_own (ySt.trans st) (yOp.trans runs) op group headed, if_pos (yLeads.trans leads)]
    exact ⟨done.width, done.pairs, done.txPairs, done.op, done.others, done.counts, done.logged, done.only.rest⟩
  case marks =>
    subst same
    refine answers_control rfl given.1 given.2 fun u headed => ?_
    have waits : ¬y.leading = true := ne_true_of_eq_false (yLeads.trans follows)
    obtain ⟨rest, sets⟩ := headed.sendCtl (markBytes width pairs o.reqNo)
    rw [takeMark_own (ySt.trans st) (yOp.trans runs) op group headed, if_neg waits]
    exact ⟨rest, yCtlq ▸ sets⟩
  case time =>
    obtain ⟨u, headed, eq⟩ := onControl_intact (act := fun s => s.takeTime p value arrival) given.1 given.2
    have yLinked : y.linked = true := (congrArg Port.linked kept :).trans linked
    exact ⟨_, rfl, eq ▸ takeTime_linked yLinked headed value arrival⟩
  case tells =>
    have told : s.timeSend p = (s.advanceTo ((s.ms + 32767) / 32768 * 32768)).sendCtl p
        (timeBytes (s.advanceTo ((s.ms + 32767) / 32768 * 32768)).ms) := if_pos st
    have sent := (PortIs.refl p (s.advanceTo ((s.ms + 32767) / 32768 * 32768))).sendCtl
        (timeBytes (s.advanceTo ((s.ms + 32767) / 32768 * 32768)).ms)
    rw [port_of_ports (State.advanceTo_ports ..)] at sent
    obtain ⟨ms, rest, sets⟩ := timed_portIs sent
    exact answers_traced_eq rfl told ⟨ms, rest, sets⟩
  case again =>
    have resent := reqResend_again (s := s) (p := p) asks early
    obtain ⟨ms, rest, sets⟩ := timed_portIs resent
    exact answers_traced rfl ⟨ms, rest, by rw [resent.ms]; exact sets⟩
  case gives =>
    have spends := reqResend_spent (s := s) (p := p) asks spent
    have now := advanceTo_ms s (r.lastMs + 2000)
    have port := port_of_ports (State.advanceTo_ports s (r.lastMs + 2000)) p
    obtain ⟨-, sets, counts, logged⟩ := retrained_enterRetrain (PortIs.refl p (s.advanceTo (r.lastMs + 2000))) (op := none)
      (by rw [port]; exact st) rfl (by rw [port, now]; exact few)
    refine answers_traced_eq rfl spends ⟨?_, ?_, ?_, ?_⟩
    · rw [sets.1]; rfl
    · rw [sets.1, port]; rfl
    · exact counts.trans (by rw [field_of_regs (State.advanceTo_regs ..)])
    · unfold Logged at logged ⊢
      rwa [State.advanceTo_ev] at logged

end Sys2Proof.Machine
end

section
/-! Training by timers and locks (10 R314, R321). -/

namespace Sys2Proof.Machine

/-! ### Registers and one engine -/

/-- Only registers and one engine, which is now e, may differ. -/
structure EngineIs (k : Nat) (s t : State) (e : Engine) : Prop where
  rest : t = { s with regs := t.regs, engines := t.engines }
  sets : Sets s.engine t.engine k e

namespace EngineIs

variable {k : Nat} {s t u : State} {e : Engine}

theorem engine (h : EngineIs k s t e) : t.engine k = e := h.sets.1
theorem ports (h : EngineIs k s t e) : t.ports = s.ports := by rw [h.rest]
theorem port (h : EngineIs k s t e) (q : Nat) : t.port q = s.port q := port_of_ports h.ports q
theorem ms (h : EngineIs k s t e) : t.ms = s.ms := by rw [h.rest]
theorem ev (h : EngineIs k s t e) : t.ev = s.ev := by rw [h.rest]

theorem refl (k : Nat) (s : State) : EngineIs k s s (s.engine k) := ⟨rfl, rfl, fun _ _ => rfl⟩

theorem trans {x : Engine} (a : EngineIs k s t e) (b : EngineIs k t u x) : EngineIs k s u x :=
  ⟨by rw [b.rest, a.rest], b.sets.1, fun j other => (b.sets.2 j other).trans (a.sets.2 j other)⟩

theorem regsOnly (h : EngineIs k s t e) (regs : RegsOnly t u) : EngineIs k s u e := by
  have same (j : Nat) : u.engine j = t.engine j := by
    rw [regs.rest]
    rfl
  exact ⟨by rw [regs.rest, h.rest], (same k).trans h.sets.1, fun j other => (same j).trans (h.sets.2 j other)⟩

theorem setEngine (h : EngineIs k s t e) (x : Engine) : EngineIs k s (t.setEngine k x) x :=
  h.trans ⟨rfl, engine_setEngine_same .., fun _ other => engine_setEngine_other _ _ _ _ other⟩

end EngineIs

/-! ### An engine that trains fully (R421) -/

/-- An engine may have been counted as one that trains fully, in it and in registers of the bring-up. -/
structure Filled (k : Nat) (s t : State) : Prop where
  is : EngineIs k s t { s.engine k with full := (t.engine k).full }
  reg : ∀ a, a ≠ Reg.BRU_SAVED → a ≠ Reg.BRU_STATUS → a ≠ Reg.BRU_DEADLINE → t.reg a = s.reg a

section
variable {s : State} {k : Nat}

theorem Filled.of_is {t : State} {b : Bool} (h : EngineIs k s t { s.engine k with full := b })
    (reg : ∀ a, a ≠ Reg.BRU_SAVED → a ≠ Reg.BRU_STATUS → a ≠ Reg.BRU_DEADLINE → t.reg a = s.reg a) : Filled k s t := by
  have full : (t.engine k).full = b := (congrArg Engine.full h.engine :)
  exact ⟨by rwa [full], reg⟩

theorem Filled.refl (k : Nat) (s : State) : Filled k s s := ⟨EngineIs.refl k s, fun _ _ _ _ => rfl⟩

/-- An item that trains fully is counted, and its start marked. -/
def State.fullCounted (s : State) : State :=
  ((s.bump Reg.BRU_SAVED 24 7 1).setField Reg.BRU_STATUS 7 1 1).setReg Reg.BRU_DEADLINE 180000

theorem engineFull_counts (now : s.stepNow = 9) (open_ : s.stepState = 1) (first : (s.engine k).full = false) :
    s.engineFull k = s.fullCounted.setEngine k { s.engine k with full := true } := by
  rw [State.engineFull, if_pos ⟨now, open_, by rw [first]; rfl⟩, State.noteFull, if_neg (by decide), State.fullCounted]

theorem engineFull_stays (other : ¬(s.stepNow = 9 ∧ s.stepState = 1 ∧ (s.engine k).full = false)) : s.engineFull k = s := by
  rw [State.engineFull, if_neg]
  simpa using other

theorem regsOnly_fullCounted (s : State) : RegsOnly s s.fullCounted :=
  regsOnly_trans (regsOnly_trans (regsOnly_bump ..) (regsOnly_setField ..)) (regsOnly_setReg ..)

theorem reg_fullCounted (s : State) {a : Nat} (saved : a ≠ Reg.BRU_SAVED) (status : a ≠ Reg.BRU_STATUS)
    (deadline : a ≠ Reg.BRU_DEADLINE) : s.fullCounted.reg a = s.reg a := by
  rw [State.fullCounted, reg_setReg_other _ _ _ _ deadline, reg_setField_other _ _ _ _ _ _ status, reg_bump_other _ _ _ _ _ _ saved]

theorem filled_engineFull (s : State) (k : Nat) : Filled k s (s.engineFull k) := by
  by_cases counts : s.stepNow = 9 ∧ s.stepState = 1 ∧ (s.engine k).full = false
  · rw [engineFull_counts counts.1 counts.2.1 counts.2.2]
    have counted := (EngineIs.refl k s).regsOnly (regsOnly_fullCounted s)
    have reg := fun a => reg_fullCounted s (a := a)
    generalize s.fullCounted = u at counted reg
    have full := counted.setEngine { s.engine k with full := true }
    exact Filled.of_is full fun a saved status deadline => (State.setEngine_reg ..).trans (reg a saved status deadline)
  · rw [engineFull_stays counts]
    exact Filled.refl k s

/-- Within step 9 the engine is counted, unless it already was (R421). -/
theorem status_engineFull (now : s.stepNow = 9) (open_ : s.stepState = 1) :
    (s.engineFull k).field Reg.BRU_STATUS 7 1 = 1 ∨ (s.engine k).full = true := by
  cases full : (s.engine k).full
  · refine .inl ?_
    have apart : Reg.BRU_STATUS ≠ Reg.BRU_DEADLINE := by decide
    rw [engineFull_counts now open_ full, State.setEngine_fieldAt, State.fullCounted, field_of_reg (reg_setReg_other _ _ _ _ apart)]
    exact field_setField_same _ _ _ _ _ (by decide)
  · exact .inr rfl

end

/-! ### Locks and equalisation -/

/-- A port whose receiver has locked on some pairs (R314, R316, R321). -/
def Port.seekLocked (x : Port) (pairs : Byte) (saved : Bool) (now : Nat) : Port :=
  { x with
    st := 4, since := now, locked := pairs, ownBad := x.ownBad ||| ~~~pairs, tsSent := false, tsSeen := false, eqSaved := saved }

section
variable {s : State} {p : Nat}

/-- Pairs that hold a permitted group (R316). -/
def WholeGroup (pairs : Byte) : Prop := ∃ g ∈ [8, 4, 2].flatMap pairGroups, g &&& pairs = g

theorem wholeGroup_iff {pairs : Byte} : (([8, 4, 2].flatMap pairGroups).any fun g => g &&& pairs == g) = true ↔ WholeGroup pairs := by
  simp only [List.any_eq_true, beq_iff_eq, WholeGroup]

theorem seekLock_partial {pairs : Byte} (partial_ : ¬WholeGroup pairs) (peer : Nat) : s.seekLock p pairs peer = s := by
  have none : (([8, 4, 2].flatMap pairGroups).any fun g => g &&& pairs == g) = false :=
    Bool.eq_false_iff.2 (mt wholeGroup_iff.1 partial_)
  unfold State.seekLock
  dsimp only
  rw [none]
  rfl

/-- SEEK ends (R314): with equalisation that is not saved, the engine trains fully (R421). -/
theorem seekLock_whole {pairs : Byte} (whole : WholeGroup pairs) (st : (s.port p).st = 3#4) (unpaused : (s.port p).seekPause = false)
    (peer : Nat) : s.seekLock p pairs peer =
      if s.eqAccepted p peer then s.setPort p ((s.port p).seekLocked pairs (s.eqAccepted p peer) s.ms)
      else (s.setPort p ((s.port p).seekLocked pairs (s.eqAccepted p peer) s.ms)).engineFull (portEngine p) := by
  unfold State.seekLock
  dsimp only
  rw [wholeGroup_iff.2 whole, if_neg (by decide), if_pos ⟨st, by rw [unpaused]; rfl⟩]
  rfl

theorem seekLock_answers {port : BitVec 7} {pairs : Byte} (peer : BitVec 17) (whole : WholeGroup pairs)
    (st : (s.port port.toNat).st = 3#4) (unpaused : (s.port port.toNat).seekPause = false) :
    Answers (.seekLock port pairs peer) s (Noted fun t =>
      t = { s with ports := t.ports, regs := t.regs, engines := t.engines } ∧
      ((t.port port.toNat).eqSaved = true ∨ s.stepNow ≠ 9 → t = { s with ports := t.ports }) ∧
      Sets s.port t.port port.toNat
        ((s.port port.toNat).seekLocked pairs (s.eqAccepted port.toNat peer.toNat) s.ms)) := by
  have locked := (PortIs.refl port.toNat s).setPort
    ((s.port port.toNat).seekLocked pairs (s.eqAccepted port.toNat peer.toNat) s.ms)
  refine answers_traced_eq rfl (seekLock_whole whole st unpaused peer.toNat) ?_
  have early : (s.setPort port.toNat ((s.port port.toNat).seekLocked pairs (s.eqAccepted port.toNat peer.toNat) s.ms)).stepNow =
    s.stepNow := rfl
  generalize s.setPort port.toNat ((s.port port.toNat).seekLocked pairs (s.eqAccepted port.toNat peer.toNat) s.ms) = u
    at locked early
  by_cases saved : s.eqAccepted port.toNat peer.toNat = true
  · rw [if_pos saved]
    exact ⟨by rw [locked.rest], fun _ => locked.rest, locked.sets⟩
  · rw [if_neg saved]
    have filled := (filled_engineFull u (portEngine port.toNat)).is
    have stays (other : s.stepNow ≠ 9) : u.engineFull (portEngine port.toNat) = u :=
      engineFull_stays fun counts => other (early.symm.trans counts.1)
    generalize u.engineFull (portEngine port.toNat) = t at filled stays
    refine ⟨by rw [filled.rest, locked.rest], fun spare => ?_, sets_of_ports locked.sets filled.ports⟩
    have other := spare.resolve_left fun equalised => saved (by rwa [filled.port, locked.port] at equalised)
    rw [stays other]
    exact locked.rest

/-! ### Timers -/

theorem limit_seek (st : (s.port p).st = 3#4) (unpaused : (s.port p).seekPause = false) : s.trainingLimit p = some 500000000 := by
  rw [State.trainingLimit, st_toNat st, unpaused]
  rfl

theorem trainingTimeout_seek (st : (s.port p).st = 3#4) (unpaused : (s.port p).seekPause = false) :
    PortIs p (s.advanceTo ((s.port p).since + 500000000)) (s.trainingTimeout p) { s.port p with
      seekPause := true, seekTried := true, since := (s.advanceTo ((s.port p).since + 500000000)).ms } := by
  have port := port_of_ports (State.advanceTo_ports s ((s.port p).since + 500000000)) p
  have limit := limit_seek st unpaused
  unfold State.trainingTimeout
  rw [limit]
  dsimp only
  rw [port, st_toNat st]
  exact (PortIs.refl p _).setPort _

theorem trainingTimeout_stays (st : (s.port p).st = 0#4 ∨ (s.port p).st = 1#4 ∨ (s.port p).st = 7#4 ∨ (s.port p).st = 9#4) :
    s.trainingTimeout p = s := by
  have limit : s.trainingLimit p = none := by
    rw [State.trainingLimit]
    rcases st with st | st | st | st
    · rw [st_toNat st]; rfl
    · rw [st_toNat st]; rfl
    · rw [st_toNat st]; rfl
    · rw [st_toNat st]; rfl
  rw [State.trainingTimeout, limit]

theorem equaliseComplete_equalised (st : (s.port p).st = 4#4) :
    PortIs p s (s.equaliseComplete p) { s.port p with st := 5, since := s.ms, equalised := (s.port p).locked } := by
  rw [State.equaliseComplete, if_pos st]
  exact (PortIs.refl p s).setPort _

theorem seekPauseEnd_resumes (st : (s.port p).st = 3#4) (paused : (s.port p).seekPause = true) :
    PortIs p (s.advanceTo ((s.port p).since + 1000000000)) (s.seekPauseEnd p)
      { s.port p with seekPause := false, since := (s.advanceTo ((s.port p).since + 1000000000)).ms } := by
  rw [State.seekPauseEnd, if_pos ⟨st, paused⟩]
  exact (PortIs.refl p _).setPort _

theorem downTimer_down (st : (s.port p).st = 9#4) : s.downTimer p =
    if s.adminDown p ∨ !s.portEnabled p then s.setPort p { s.port p with st := 0, since := s.ms }
    else if !s.allLines (portEngine p) then s.darken p
    else if !s.serves (srcEngine (portEngine p)) then s
    else (s.advanceTo ((s.port p).since + 1000000000)).setPort p
      { s.port p with st := 3, since := (s.advanceTo ((s.port p).since + 1000000000)).ms, seekPause := false } := by
  have down : ((s.port p).st != 9#4) = false := by rw [st]; rfl
  unfold State.downTimer
  dsimp only
  rw [down]
  exact if_neg Bool.false_ne_true

theorem darken_dark (st : (s.port p).st = 9#4) (up : s.adminDown p = false) (dark : s.allLines (portEngine p) = false) :
    s.darken p = s.setPort p { s.port p with st := 1, since := s.ms } := by
  rw [State.darken, if_pos ⟨st, by rw [up, dark]; exact ⟨rfl, rfl⟩⟩]

theorem darken_light (light : (s.port p).st ≠ 9#4 ∨ s.adminDown p = true ∨ s.allLines (portEngine p) = true) : s.darken p = s := by
  rw [State.darken, if_neg]
  rintro ⟨st, up, dark⟩
  rcases light with other | down | light
  · exact other st
  · rw [down] at up
    contradiction
  · rw [light] at dark
    contradiction

end

/-! ### A change of several ports -/

/-- Only ports may differ, and each is now what f says. -/
structure PortsAre (f : Nat → Port) (s t : State) : Prop where
  rest : t = { s with ports := t.ports }
  ports : ∀ q, t.port q = f q

theorem PortsAre.refl (s : State) : PortsAre s.port s s := ⟨rfl, fun _ => rfl⟩

theorem PortsAre.trans {f g : Nat → Port} {s t u : State} (a : PortsAre f s t) (b : PortsAre g t u) : PortsAre g s u :=
  ⟨by rw [b.rest, a.rest], b.ports⟩

theorem PortsAre.congr {f g : Nat → Port} {s t : State} (a : PortsAre f s t) (same : ∀ q, f q = g q) : PortsAre g s t :=
  ⟨a.rest, fun q => (a.ports q).trans (same q)⟩

/-- Ports of a list change, each by what stands beside the ports. -/
theorem portsAre_foldl {g : State → Nat → Port → Port} (steady : ∀ (u : State) ps, g { u with ports := ps } = g u) (l : List Nat)
    (distinct : l.Nodup) (s : State) :
    PortsAre (fun q => if q ∈ l then g s q (s.port q) else s.port q) s (l.foldl (fun s p => s.modPort p (g s p)) s) := by
  induction l generalizing s with
  | nil => exact (PortsAre.refl s).congr fun q => (if_neg List.not_mem_nil).symm
  | cons p l ih =>
    obtain ⟨fresh, distinct⟩ := List.nodup_cons.1 distinct
    have first := (PortIs.refl p s).modPort (g s p)
    have later := ih distinct (s.modPort p (g s p))
    rw [List.foldl_cons]
    generalize s.modPort p (g s p) = u at first later
    have same : g u = g s := (congrArg g first.rest).trans (steady s u.ports)
    have only : PortsAre u.port s u := ⟨first.rest, fun _ => rfl⟩
    refine (only.trans later).congr fun q => ?_
    rw [same]
    by_cases here : q = p
    · rw [here, if_neg fresh, first.port, if_pos List.mem_cons_self]
    · rw [first.sets.2 q here]
      exact if_congr (by simp [here]) rfl rfl

/-! ### Training from saved settings (R421) -/

/-- The two ports of an engine. -/
theorem both_nodup (k : Nat) : [2 * k, 2 * k + 1].Nodup := by simp

/-- A port that waits for its engine's calibration starts its wait again. -/
def Port.waitsAgain (x : Port) (now : Nat) : Port := if x.calibrating then { x with since := now } else x

theorem waitsAgain_ringCal {x : Port} (st : x.st = 2#4) (now : Nat) : x.waitsAgain now = { x with since := now } := by
  have waits : x.calibrating = true := by
    rw [Port.calibrating, st]
    rfl
  rw [Port.waitsAgain, if_pos waits]

/-- What a calibration that goes on in full leaves. -/
structure GoesOn (k : Nat) (s t : State) : Prop where
  rest : t = { s with regs := t.regs, engines := t.engines, ports := t.ports }
  sets : Sets s.engine t.engine k { s.engine k with full := (t.engine k).full, usingSaved := false }
  ports : ∀ q ∈ [2 * k, 2 * k + 1], t.port q = (s.port q).waitsAgain s.ms

theorem goesOn_calInFull (s : State) (k : Nat) : GoesOn k s (s.calInFull k) := by
  have given := (EngineIs.refl k s).setEngine { s.engine k with usingSaved := false }
  have full := (filled_engineFull (s.setEngine k { s.engine k with usingSaved := false }) k).is
  have waits := portsAre_foldl (g := fun s _ x => if x.calibrating then { x with since := s.ms } else x) (fun _ _ => rfl)
    [2 * k, 2 * k + 1] (both_nodup k) ((s.setEngine k { s.engine k with usingSaved := false }).engineFull k)
  change PortsAre _ _ (s.calInFull k) at waits
  generalize s.setEngine k { s.engine k with usingSaved := false } = u at given full waits
  generalize u.engineFull k = v at full waits
  generalize s.calInFull k = t at waits
  have engine (j : Nat) : t.engine j = v.engine j := by rw [waits.rest]; rfl
  rw [given.engine] at full
  obtain ⟨rest, own, others⟩ := given.trans full
  refine ⟨by rw [waits.rest, rest], ⟨?_, fun j other => (engine j).trans (others j other)⟩, fun q here => ?_⟩
  · rw [engine]
    exact own
  · rw [waits.ports q, if_pos here, (given.trans full).port, (given.trans full).ms]
    rfl

section
variable {s : State} {p : Nat}

/-- A calibration from saved settings that takes 50 ms goes on in full. -/
theorem trainingTimeout_saved (st : (s.port p).st = 2#4) (saved : (s.engine (p / 2)).usingSaved = true) :
    s.trainingTimeout p = (s.advanceTo ((s.port p).since + 50000000)).calInFull (p / 2) := by
  have limit : s.trainingLimit p = some 50000000 := by
    rw [State.trainingLimit, st_toNat st, portEngine, saved]
    rfl
  have port := port_of_ports (State.advanceTo_ports s ((s.port p).since + 50000000)) p
  unfold State.trainingTimeout
  rw [limit]
  dsimp only
  rw [port, st_toNat st, portEngine, State.advanceTo_engineAt]
  exact if_pos saved

theorem mem_both (p : Nat) : p ∈ [2 * (p / 2), 2 * (p / 2) + 1] := by
  simp only [List.mem_cons, List.not_mem_nil, or_false]
  omega

/-- A calibration that goes on in full after a time. -/
theorem GoesOn.timed {t : State} {k T : Nat} (h : GoesOn k (s.advanceTo T) t) : t.ms = max s.ms T ∧
    (t.engine k).usingSaved = false ∧ ∀ q ∈ [2 * k, 2 * k + 1], t.port q = (s.port q).waitsAgain t.ms := by
  obtain ⟨rest, sets, ports⟩ := h
  have ms : t.ms = (s.advanceTo T).ms := by rw [rest]
  refine ⟨ms.trans (advanceTo_ms s T), by rw [sets.1], fun q here => ?_⟩
  rw [ports q here, ms, port_of_ports (State.advanceTo_ports s T)]

theorem trainingTimeout_saved_answers {port : BitVec 7} (st : (s.port port.toNat).st = 2#4)
    (saved : (s.engine (port.toNat / 2)).usingSaved = true) :
    Answers (.trainingTimeout port) s (Noted fun t => t.ms = max s.ms ((s.port port.toNat).since + 50000000) ∧
      (t.engine (port.toNat / 2)).usingSaved = false ∧ t.port port.toNat = { s.port port.toNat with since := t.ms }) := by
  obtain ⟨ms, unsaved, ports⟩ := (goesOn_calInFull (s.advanceTo ((s.port port.toNat).since + 50000000)) (port.toNat / 2)).timed
  exact answers_traced_eq rfl (trainingTimeout_saved st saved)
    ⟨ms, unsaved, (ports _ (mem_both port.toNat)).trans (waitsAgain_ringCal st _)⟩

/-- An equalisation from saved settings that takes 2 ms goes on in full. -/
theorem trainingTimeout_equalise (st : (s.port p).st = 4#4) (saved : (s.port p).eqSaved = true) :
    s.trainingTimeout p = ((s.advanceTo ((s.port p).since + 2000000)).setPort p { s.port p with
      eqSaved := false, since := (s.advanceTo ((s.port p).since + 2000000)).ms }).engineFull (p / 2) := by
  have limit : s.trainingLimit p = some 2000000 := by
    rw [State.trainingLimit, st_toNat st, saved]
    rfl
  have port := port_of_ports (State.advanceTo_ports s ((s.port p).since + 2000000)) p
  unfold State.trainingTimeout
  rw [limit]
  dsimp only
  rw [port, st_toNat st]
  exact if_pos saved

/-- A port is written after a time, and its engine may train fully. -/
theorem filled_timed {T k : Nat} (x : Nat → Port) :
    let t := ((s.advanceTo T).setPort p (x (s.advanceTo T).ms)).engineFull k
    t = { s with ports := t.ports, ms := t.ms, msOff := t.msOff, up := t.up, man := t.man, regs := t.regs, engines := t.engines } ∧
      (s.stepNow = 9 → s.stepState = 1 → t.field Reg.BRU_STATUS 7 1 = 1 ∨ (s.engine k).full = true) ∧
      t.ms = max s.ms T ∧ Sets s.port t.port p (x t.ms) := by
  obtain ⟨ms, rest, sets⟩ := timed_setPort s T p (x (s.advanceTo T).ms)
  have now := advanceTo_ms s T
  intro t
  have filled := (filled_engineFull ((s.advanceTo T).setPort p (x (s.advanceTo T).ms)) k).is
  have status := status_engineFull (s := (s.advanceTo T).setPort p (x (s.advanceTo T).ms)) (k := k)
  change EngineIs k _ t _ at filled
  change _ → _ → t.field _ 7 1 = 1 ∨ _ at status
  clear_value t
  generalize (s.advanceTo T).setPort p (x (s.advanceTo T).ms) = u at ms rest sets filled status
  have step : u.stepNow = s.stepNow ∧ u.stepState = s.stepState := by
    rw [rest]
    exact ⟨rfl, rfl⟩
  have engine : u.engine k = s.engine k := by
    rw [rest]
    rfl
  refine ⟨by rw [filled.rest, rest], fun now open_ => ?_, filled.ms.trans ms, ?_⟩
  · rw [← engine]
    exact status (step.1.trans now) (step.2.trans open_)
  · rw [filled.ms.trans (ms.trans now.symm)]
    exact sets_of_ports sets filled.ports

end

end Sys2Proof.Machine
end

section
/-! Calibration of rings (10 R315, R320, R321). -/

namespace Sys2Proof.Machine

/-! ### Pairs that are clear again (R316, R320) -/

/-- Bad-pair marks of ports may have been cleared. -/
structure Cleared (clears : Nat → Nat → Bool) (s t : State) : Prop where
  rest : t = { s with ports := t.ports }
  port : ∀ q, t.port q = { s.port q with ownBad := (t.port q).ownBad, wideSince := (t.port q).wideSince }
  bits : ∀ q i, i < 8 → (t.port q).ownBad.getLsbD i = ((s.port q).ownBad.getLsbD i && !clears q i)

section
variable {s t u : State} {p : Nat}

/-- A pair without a ring that is out is cleared. -/
theorem clearBad_clears {pair : Nat} (locked : s.ringOut p pair = false) :
    PortIs p s (s.clearBad p pair) { s.port p with
      ownBad := (s.port p).ownBad &&& ~~~(BitVec.ofNat 8 (2 ^ pair))
      wideSince := s.wideFor p { s.port p with ownBad := (s.port p).ownBad &&& ~~~(BitVec.ofNat 8 (2 ^ pair)) } } := by
  rw [State.clearBad, locked]
  exact ((PortIs.refl p s).setPort _).noteWider

theorem clearBad_out {pair : Nat} (out : s.ringOut p pair = true) : s.clearBad p pair = s := by
  rw [State.clearBad, if_pos out]

theorem getLsbD_unmarked (b : Byte) (pair : Nat) {i : Nat} (small : i < 8) :
    (b &&& ~~~(BitVec.ofNat 8 (2 ^ pair))).getLsbD i = (b.getLsbD i && !(pair == i)) := by
  rw [BitVec.getLsbD_and, BitVec.getLsbD_not, BitVec.getLsbD_ofNat, Nat.testBit_two_pow]
  simp [small, BEq.beq]

theorem Cleared.regs {clears : Nat → Nat → Bool} (h : Cleared clears s t) : t.regs = s.regs := by rw [h.rest]
theorem Cleared.engine {clears : Nat → Nat → Bool} (h : Cleared clears s t) (j : Nat) : t.engine j = s.engine j := by
  rw [h.rest]
  rfl

theorem Cleared.refl (s : State) : Cleared (fun _ _ => false) s s :=
  ⟨rfl, fun _ => rfl, fun q i _ => by rw [Bool.not_false, Bool.and_true]⟩

theorem Cleared.trans {a b : Nat → Nat → Bool} (first : Cleared a s t) (then_ : Cleared b t u) :
    Cleared (fun q i => a q i || b q i) s u := by
  refine ⟨by rw [then_.rest, first.rest], fun q => ?_, fun q i small => ?_⟩
  · rw [then_.port q, first.port q]
  · rw [then_.bits q i small, first.bits q i small, Bool.not_or, Bool.and_assoc]

theorem cleared_clearBad {pair : Nat} (locked : s.ringOut p pair = false) :
    Cleared (fun q i => p == q && pair == i) s (s.clearBad p pair) := by
  obtain ⟨rest, port, others⟩ := clearBad_clears locked
  refine ⟨rest, fun q => ?_, fun q i small => ?_⟩
  · by_cases here : q = p
    · rw [here, port]
    · rw [others q here]
  · by_cases here : q = p
    · rw [here, port, getLsbD_unmarked _ _ small]
      simp
    · rw [others q here, beq_false_of_ne (Ne.symm here), Bool.false_and, Bool.not_false, Bool.and_true]

theorem ringOut_locked {k i : Nat} (few : i < 16) (locked : (s.engine k).ringsOut = 0) : s.ringOut (2 * k + i / 8) (i % 8) = false := by
  have here : portEngine (2 * k + i / 8) = k := by
    unfold portEngine
    omega
  rw [State.ringOut, here, locked]
  simp

/-- Pairs of an engine with no ring out are cleared. -/
theorem cleared_foldl {k : Nat} (l : List Nat) (few : ∀ i ∈ l, i < 16) (s : State) (locked : (s.engine k).ringsOut = 0) :
    Cleared (fun q i => l.any fun j => 2 * k + j / 8 == q && j % 8 == i) s
      (l.foldl (fun s i => s.clearBad (2 * k + i / 8) (i % 8)) s) := by
  induction l generalizing s with
  | nil => exact Cleared.refl s
  | cons i l ih =>
    have first := cleared_clearBad (ringOut_locked (few i List.mem_cons_self) locked)
    have still : ((s.clearBad (2 * k + i / 8) (i % 8)).engine k).ringsOut = 0 := by
      rw [first.rest]
      exact locked
    exact first.trans (ih (fun j listed => few j (List.mem_cons_of_mem _ listed)) _ still)

theorem ringOut_eq (s : State) (q i : Nat) :
    s.ringOut q i = ((s.engine (q / 2)).ringsOut.extractLsb' (16 * (8 * (q % 2) + i)) 16 != 0) := rfl

theorem ringOut_of_engine {q : Nat} (same : t.engine (q / 2) = s.engine (q / 2)) (i : Nat) : t.ringOut q i = s.ringOut q i := by
  rw [ringOut_eq, ringOut_eq, same]

theorem engine_of_regsOnly (regs : RegsOnly s t) (j : Nat) : t.engine j = s.engine j := by
  rw [regs.rest]
  rfl

/-- The fibre pairs of an engine with a ring out are the pairs of its ports (R320). -/
theorem any_ringsOut (s : State) (k q : Nat) {i : Nat} (small : i < 8) :
    (((List.range 16).filter fun i => (s.engine k).ringsOut.extractLsb' (16 * i) 16 != 0).any fun j =>
      2 * k + j / 8 == q && j % 8 == i) = (q / 2 == k && s.ringOut q i) := by
  rw [Bool.eq_iff_iff, List.any_eq_true, Bool.and_eq_true, beq_iff_eq, ringOut_eq]
  simp only [List.mem_filter, List.mem_range, Bool.and_eq_true, beq_iff_eq]
  constructor
  · rintro ⟨j, ⟨few, out⟩, port, pair⟩
    have engine : q / 2 = k := by omega
    have fibre : 8 * (q % 2) + i = j := by omega
    exact ⟨engine, by rw [engine, fibre]; exact out⟩
  · rintro ⟨rfl, out⟩
    exact ⟨8 * (q % 2) + i, ⟨by omega, out⟩, by omega, by omega⟩

/-- Every ring of an engine is locked: no pair of it is marked for a ring that was out (R320). -/
theorem ringsLocked_clears (s : State) (k : Nat) :
    Cleared (fun q i => q / 2 == k && s.ringOut q i) (s.setEngine k { s.engine k with ringsOut := 0 }) (s.ringsLocked k) := by
  obtain ⟨rest, port, bits⟩ := cleared_foldl (k := k) ((List.range 16).filter fun i => (s.engine k).ringsOut.extractLsb' (16 * i) 16 != 0)
    (fun i listed => List.mem_range.1 (List.mem_filter.1 listed).1) (s.setEngine k { s.engine k with ringsOut := 0 })
    (by rw [engine_setEngine_same])
  exact ⟨rest, port, fun q i small => (bits q i small).trans (by rw [any_ringsOut s k q small])⟩

end

/-! ### The end of a calibration -/

/-- The engine's registers say how its rings were calibrated, and at which temperatures (R322). -/
def State.calShown (s : State) (k how temp cal : Nat) : State :=
  (((s.setField (Reg.LTN_ENG_STATUS k) 8 2 how).setField (Reg.LTN_ENG_STATUS k) 10 1 1).setField
    (Reg.LTN_ENG_STATUS k) 16 8 temp).setField (Reg.LTN_ENG_STATUS k) 24 8 cal

/-- What the status of an engine shows after a calibration. -/
structure CalShown (k how temp cal : Nat) (t : State) : Prop where
  how : t.field (Reg.LTN_ENG_STATUS k) 8 2 = how
  locked : t.field (Reg.LTN_ENG_STATUS k) 10 1 = 1
  temp : t.field (Reg.LTN_ENG_STATUS k) 16 8 = temp
  cal : t.field (Reg.LTN_ENG_STATUS k) 24 8 = cal

section
variable {s t : State} {k : Nat}

theorem regsOnly_calShown (s : State) (k how temp cal : Nat) : RegsOnly s (s.calShown k how temp cal) :=
  regsOnly_trans (regsOnly_trans (regsOnly_trans (regsOnly_setField ..) (regsOnly_setField ..)) (regsOnly_setField ..))
    (regsOnly_setField ..)

theorem reg_calShown (s : State) (k how temp cal : Nat) {a : Nat} (other : a ≠ Reg.LTN_ENG_STATUS k) :
    (s.calShown k how temp cal).reg a = s.reg a := by
  rw [State.calShown, reg_setField_other _ _ _ _ _ _ other, reg_setField_other _ _ _ _ _ _ other,
    reg_setField_other _ _ _ _ _ _ other, reg_setField_other _ _ _ _ _ _ other]

theorem calShown_shows (s : State) (k : Nat) {how temp cal : Nat} (how2 : how < 4) (temp8 : temp < 256) (cal8 : cal < 256) :
    CalShown k how temp cal (s.calShown k how temp cal) := by
  constructor
  · rw [State.calShown, field_setField_apart _ _ _ _ _ _ _ (by decide) (by decide), field_setField_apart _ _ _ _ _ _ _ (by decide) (by decide),
      field_setField_apart _ _ _ _ _ _ _ (by decide) (by decide), field_setField_same _ _ _ _ _ (by decide)]
    exact Nat.mod_eq_of_lt how2
  · rw [State.calShown, field_setField_apart _ _ _ _ _ _ _ (by decide) (by decide), field_setField_apart _ _ _ _ _ _ _ (by decide) (by decide)]
    exact field_setField_same _ _ _ _ _ (by decide)
  · rw [State.calShown, field_setField_apart _ _ _ _ _ _ _ (by decide) (by decide), field_setField_same _ _ _ _ _ (by decide)]
    exact Nat.mod_eq_of_lt temp8
  · rw [State.calShown, field_setField_same _ _ _ _ _ (by decide)]
    exact Nat.mod_eq_of_lt cal8

theorem CalShown.of_reg {how temp cal : Nat} {u : State} (h : CalShown k how temp cal t)
    (same : u.reg (Reg.LTN_ENG_STATUS k) = t.reg (Reg.LTN_ENG_STATUS k)) : CalShown k how temp cal u := by
  obtain ⟨h1, h2, h3, h4⟩ := h
  exact ⟨(field_of_reg same ..).trans h1, (field_of_reg same ..).trans h2, (field_of_reg same ..).trans h3, (field_of_reg same ..).trans h4⟩

/-- One engine changes. -/
def State.modEngine (s : State) (k : Nat) (f : Engine → Engine) : State := s.setEngine k (f (s.engine k))

theorem EngineIs.modEngine {e : Engine} (h : EngineIs k s t e) (f : Engine → Engine) : EngineIs k s (t.modEngine k f) (f e) := by
  rw [State.modEngine, h.engine]
  exact h.setEngine _

/-- The rings of an engine are calibrated: its status is shown, its rings are locked, and its record is written by f. -/
def State.calStands (s : State) (k how temp cal : Nat) (f : Engine → Engine) : State :=
  ((s.calShown k how temp cal).ringsLocked k).modEngine k f

/-- Only registers, engines and ports may differ. -/
structure RingsOnly (s t : State) : Prop where
  rest : t = { s with regs := t.regs, engines := t.engines, ports := t.ports }

theorem RingsOnly.trans (a : RingsOnly s t) {u : State} (b : RingsOnly t u) : RingsOnly s u := ⟨by rw [b.rest, a.rest]⟩
theorem RingsOnly.ms (h : RingsOnly s t) : t.ms = s.ms := by rw [h.rest]
theorem EngineIs.ringsOnly {e : Engine} (h : EngineIs k s t e) : RingsOnly s t := ⟨by rw [h.rest]⟩
theorem Cleared.ringsOnly {clears : Nat → Nat → Bool} (h : Cleared clears s t) : RingsOnly s t := ⟨by rw [h.rest]⟩
theorem PortsAre.regs {f : Nat → Port} (h : PortsAre f s t) : t.regs = s.regs := by rw [h.rest]
theorem PortsAre.engine {f : Nat → Port} (h : PortsAre f s t) (j : Nat) : t.engine j = s.engine j := by
  rw [h.rest]
  rfl
theorem PortsAre.ringsOnly {f : Nat → Port} (h : PortsAre f s t) : RingsOnly s t := ⟨by rw [h.rest]⟩

/-- What a calibration leaves before the ports go on. -/
structure Calibrated (k how temp cal : Nat) (e : Engine) (s t : State) : Prop where
  only : RingsOnly s t
  shown : CalShown k how temp cal t
  sets : Sets s.engine t.engine k e
  port : ∀ q, t.port q = { s.port q with ownBad := (t.port q).ownBad, wideSince := (t.port q).wideSince }
  bits : ∀ q i, i < 8 → (t.port q).ownBad.getLsbD i = ((s.port q).ownBad.getLsbD i && !(q / 2 == k && s.ringOut q i))
  reg : ∀ a, a ≠ Reg.LTN_ENG_STATUS k → t.reg a = s.reg a

theorem calibrated_calStands (s : State) (k : Nat) {how temp cal : Nat} (f : Engine → Engine) (how2 : how < 4) (temp8 : temp < 256)
    (cal8 : cal < 256) :
    Calibrated k how temp cal (f { s.engine k with ringsOut := 0 }) s (s.calStands k how temp cal f) := by
  have shows := calShown_shows s k how2 temp8 cal8
  have written := (EngineIs.refl k s).regsOnly (regsOnly_calShown s k how temp cal)
  have reg := fun a => reg_calShown s k how temp cal (a := a)
  have locked := written.setEngine { (s.calShown k how temp cal).engine k with ringsOut := 0 }
  have same (q i : Nat) : (s.calShown k how temp cal).ringOut q i = s.ringOut q i :=
    ringOut_of_engine (engine_of_regsOnly (regsOnly_calShown s k how temp cal) _) i
  have clears := ringsLocked_clears (s.calShown k how temp cal) k
  unfold State.calStands
  generalize s.calShown k how temp cal = u at shows written reg locked same clears ⊢
  have opened := State.setEngine_regs (s := u) k { u.engine k with ringsOut := 0 }
  rw [written.engine] at locked clears opened
  generalize u.setEngine k { s.engine k with ringsOut := 0 } = v at locked clears opened
  generalize u.ringsLocked k = w at clears ⊢
  have engine := clears.engine
  have regs := clears.regs.trans opened
  have port (q : Nat) : v.port q = s.port q := locked.port q
  have recorded := (EngineIs.refl k w).modEngine f
  have kept : (w.modEngine k f).regs = w.regs := rfl
  rw [engine, locked.engine] at recorded
  generalize w.modEngine k f = t at recorded kept
  refine ⟨(locked.ringsOnly.trans clears.ringsOnly).trans recorded.ringsOnly, shows.of_reg (reg_of_regs (kept.trans regs) _),
    ⟨recorded.sets.1, fun j other => ?_⟩, fun q => ?_, fun q i small => ?_, fun a other => ?_⟩
  · exact (recorded.sets.2 j other).trans ((engine j).trans (locked.sets.2 j other))
  · rw [recorded.port, clears.port q, port]
  · rw [recorded.port, clears.bits q i small, port, same]
  · exact (reg_of_regs (kept.trans regs) a).trans (reg a other)

/-- A port whose engine's rings are calibrated (R314, R318). -/
def Port.ringsReady (x : Port) (now : Nat) : Port :=
  if x.st = 2#4 then { x with st := 3, since := now, seekPause := false } else { x with calDone := true }

/-- Ports go on after a calibration. -/
def State.portsGoOn (s : State) (ports : List Nat) : State :=
  ports.foldl (fun s p => s.modPort p fun x => x.ringsReady s.ms) s

theorem portsAre_portsGoOn (s : State) {ports : List Nat} (distinct : ports.Nodup) :
    PortsAre (fun q => if q ∈ ports then (s.port q).ringsReady s.ms else s.port q) s (s.portsGoOn ports) :=
  portsAre_foldl (g := fun s _ x => x.ringsReady s.ms) (fun _ _ => rfl) ports distinct s

/-- A calibration that is not from saved settings is counted, with an event once the module is Ready (R322, R323). -/
def State.calCounted (s : State) (k : Nat) : State :=
  let s := s.bump (Reg.LTN_ENG_RING k) 16 8 1
  if s.ready then s.logLantern (2 * k) 0x05 0 else s

/-- The ports of an engine that wait for its calibration. -/
def State.waiting (s : State) (k : Nat) : List Nat := [2 * k, 2 * k + 1].filter fun p => (s.port p).calibrating

theorem ringCalComplete_none (none : s.waiting k = []) (ok fromSaved : Bool) (temp : Byte) :
    s.ringCalComplete k ok fromSaved temp = s := by
  unfold State.waiting at none
  unfold State.ringCalComplete
  dsimp only
  rw [none]
  exact if_pos (.inl rfl)

theorem ringCalComplete_saved {temp : Byte} (some : s.waiting k ≠ []) (saved : (s.engine k).usingSaved = true)
    (near : (s.engine k).near temp = true) (ok : Bool) : s.ringCalComplete k ok true temp =
      if ok then (s.calStands k 1 temp.toNat (s.engine k).savedTemp.toNat fun e => { e with usingSaved := false, calibrated := true }).portsGoOn
        (s.waiting k) else s.calInFull k := by
  have waits : ¬(([2 * k, 2 * k + 1].filter fun p => (s.port p).calibrating).isEmpty = true ∨
      true = true ∧ (!((s.engine k).usingSaved && (s.engine k).near temp)) = true) := by
    rw [saved, near, List.isEmpty_iff]
    simpa [State.waiting] using some
  refine (if_neg waits).trans ?_
  cases ok
  · rfl
  · rfl

theorem ringCalComplete_full {temp : Byte} (some : s.waiting k ≠ []) (ok : Bool) : s.ringCalComplete k ok false temp =
      if ok then (((s.engineFull k).calStands k 2 temp.toNat temp.toNat fun e =>
        { Engine.saved { e with usingSaved := false } temp with calibrated := true }).calCounted k).portsGoOn (s.waiting k)
      else (s.setField (Reg.LTN_ENG_STATUS k) 16 8 temp.toNat).ringCalFails k := by
  have waits : ¬(([2 * k, 2 * k + 1].filter fun p => (s.port p).calibrating).isEmpty = true ∨
      false = true ∧ (!((s.engine k).usingSaved && (s.engine k).near temp)) = true) := by
    rw [List.isEmpty_iff]
    simpa [State.waiting] using some
  refine (if_neg waits).trans ?_
  cases ok
  · rfl
  · simp only [Bool.not_true, Bool.false_eq_true, false_and, if_false, if_true]
    rfl

/-- A port that has waited for a calibration in RING_CAL goes on to SEEK. -/
theorem seeks_of_calibrated {how temp cal q : Nat} {e : Engine} {u v : State} (h : Calibrated k how temp cal e s u)
    (same : v.ports = u.ports) (now : v.ms = u.ms) (waits : q ∈ s.waiting k) (st : (s.port q).st = 2#4)
    (goes : PortsAre (fun q => if q ∈ s.waiting k then (v.port q).ringsReady v.ms else v.port q) v t) :
    t.port q = { s.port q with
      st := 3, since := s.ms, seekPause := false, ownBad := (t.port q).ownBad, wideSince := (t.port q).wideSince } ∧
    ∀ i, i < 8 → (t.port q).ownBad.getLsbD i = ((s.port q).ownBad.getLsbD i && !s.ringOut q i) := by
  have engine : q / 2 = k := by
    have here := (List.mem_filter.1 waits).1
    simp only [List.mem_cons, List.not_mem_nil, or_false] at here
    omega
  have port := h.port q
  have bits := h.bits q
  have still : (u.port q).st = 2#4 := by rw [port]; exact st
  have gone := goes.ports q
  rw [if_pos waits, port_of_ports same, now, h.only.ms, Port.ringsReady, if_pos still] at gone
  have bad : (t.port q).ownBad = (u.port q).ownBad := (congrArg Port.ownBad gone :)
  have wide : (t.port q).wideSince = (u.port q).wideSince := (congrArg Port.wideSince gone :)
  refine ⟨?_, fun i small => ?_⟩
  · rw [bad, wide, gone, port]
  · rw [bad, bits i small, engine, beq_self_eq_true, Bool.true_and]

theorem mem_waiting {q : Nat} (here : q ∈ [2 * k, 2 * k + 1]) (st : (s.port q).st = 2#4) : q ∈ s.waiting k := by
  refine List.mem_filter.2 ⟨here, ?_⟩
  rw [Port.calibrating, st]
  rfl

theorem nodup_waiting (s : State) (k : Nat) : (s.waiting k).Nodup := (both_nodup k).filter _

theorem waiting_ne_nil (calls : ∃ q ∈ [2 * k, 2 * k + 1], (s.port q).st = 2#4) : s.waiting k ≠ [] := by
  obtain ⟨q, here, st⟩ := calls
  exact List.ne_nil_of_mem (mem_waiting here st)

/-- A counted calibration leaves ports, engines and the other registers. -/
structure CalCounted (k : Nat) (s t : State) : Prop where
  rest : t = { s with regs := t.regs, ev := t.ev, pair := t.pair }
  reg : ∀ a, a ≠ Reg.LTN_ENG_RING k → t.reg a = s.reg a
  counts : Counts s t (Reg.LTN_ENG_RING k) 16 8

theorem calCounted_counts (s : State) (k : Nat) : CalCounted k s (s.calCounted k) := by
  have bumped := regsOnly_bump s (Reg.LTN_ENG_RING k) 16 8 1
  have reg := fun a => reg_bump_other s (Reg.LTN_ENG_RING k) a 16 8 1
  have counts := counts_bump s (Reg.LTN_ENG_RING k) 16 8 (by decide)
  unfold State.calCounted
  generalize s.bump (Reg.LTN_ENG_RING k) 16 8 1 = u at bumped reg counts
  dsimp only
  split
  · have regs := regs_logLantern u (2 * k) 0x05 0
    exact ⟨by rw [logLantern_rest, bumped.rest], fun a other => (reg_of_regs regs a).trans (reg a other), counts_of_regs counts regs⟩
  · exact ⟨by rw [bumped.rest], reg, counts⟩

/-- What a calibration leaves once the ports that waited for it in RING_CAL have gone on to SEEK. -/
structure CalEnds (k how temp cal : Nat) (s t : State) : Prop where
  seeks : ∀ q ∈ [2 * k, 2 * k + 1], (s.port q).st = 2#4 →
    t.port q = { s.port q with
      st := 3, since := s.ms, seekPause := false, ownBad := (t.port q).ownBad, wideSince := (t.port q).wideSince } ∧
    ∀ i, i < 8 → (t.port q).ownBad.getLsbD i = ((s.port q).ownBad.getLsbD i && !s.ringOut q i)
  shown : CalShown k how temp cal t

/-- A calibration from saved settings ends (R315, R321). -/
theorem calEnds_saved (s : State) (k : Nat) (temp : Byte) :
    let t := (s.calStands k 1 temp.toNat (s.engine k).savedTemp.toNat fun e =>
      { e with usingSaved := false, calibrated := true }).portsGoOn (s.waiting k)
    CalEnds k 1 temp.toNat (s.engine k).savedTemp.toNat s t ∧
      Sets s.engine t.engine k { s.engine k with ringsOut := 0, usingSaved := false, calibrated := true } := by
  have stands := calibrated_calStands s k (fun e => { e with usingSaved := false, calibrated := true }) (how := 1) (by decide)
    temp.isLt (s.engine k).savedTemp.isLt
  intro t
  have goes := portsAre_portsGoOn (s.calStands k 1 temp.toNat (s.engine k).savedTemp.toNat fun e =>
    { e with usingSaved := false, calibrated := true }) (nodup_waiting s k)
  change PortsAre _ _ t at goes
  clear_value t
  generalize s.calStands k 1 temp.toNat (s.engine k).savedTemp.toNat _ = u at stands goes
  refine ⟨⟨fun q here st => seeks_of_calibrated stands rfl rfl (mem_waiting here st) st goes, ?_⟩, ?_⟩
  · exact stands.shown.of_reg (reg_of_regs goes.regs _)
  · exact ⟨(goes.engine k).trans stands.sets.1, fun j other => (goes.engine j).trans (stands.sets.2 j other)⟩

/-- The status of an engine is not among the registers of the bring-up, nor a port's. -/
theorem engStatus_apart (k : Nat) : Reg.LTN_ENG_STATUS k ≠ Reg.LTN_ENG_RING k ∧ Reg.LTN_ENG_RING k ≠ Reg.LTN_ENG_STATUS k := by
  unfold Reg.LTN_ENG_STATUS Reg.LTN_ENG_RING
  omega

theorem engRing_apart (k : Nat) :
    Reg.LTN_ENG_RING k ≠ Reg.BRU_SAVED ∧ Reg.LTN_ENG_RING k ≠ Reg.BRU_STATUS ∧ Reg.LTN_ENG_RING k ≠ Reg.BRU_DEADLINE := by
  unfold Reg.LTN_ENG_RING Reg.BRU_SAVED Reg.BRU_STATUS Reg.BRU_DEADLINE
  omega

/-- A full calibration ends (R315, R321, R322). -/
theorem calEnds_full (s : State) (k : Nat) (temp : Byte) :
    let t := (((s.engineFull k).calStands k 2 temp.toNat temp.toNat fun e =>
      { Engine.saved { e with usingSaved := false } temp with calibrated := true }).calCounted k).portsGoOn (s.waiting k)
    CalEnds k 2 temp.toNat temp.toNat s t ∧
      Sets s.engine t.engine k { s.engine k with
        full := (t.engine k).full, ringsOut := 0, usingSaved := false, savedHeater := true, savedTemp := temp
        savedSerials := (s.engine k).serials, unfit := false, calibrated := true } ∧
      Counts s t (Reg.LTN_ENG_RING k) 16 8 := by
  have filled := filled_engineFull s k
  intro t
  have goes := portsAre_portsGoOn (((s.engineFull k).calStands k 2 temp.toNat temp.toNat fun e =>
    { Engine.saved { e with usingSaved := false } temp with calibrated := true }).calCounted k) (nodup_waiting s k)
  change PortsAre _ _ t at goes
  clear_value t
  generalize s.engineFull k = f at filled goes
  have stands := calibrated_calStands f k (fun e => { Engine.saved { e with usingSaved := false } temp with calibrated := true })
    (how := 2) (by decide) temp.isLt temp.isLt
  generalize f.calStands k 2 temp.toNat temp.toNat _ = u at stands goes
  have counted := calCounted_counts u k
  generalize u.calCounted k = v at counted goes
  have ports : v.ports = u.ports := by rw [counted.rest]
  have now : v.ms = u.ms := by rw [counted.rest]
  have engine (j : Nat) : v.engine j = u.engine j := by
    rw [counted.rest]
    rfl
  have waiting : f.waiting k = s.waiting k := List.filter_congr fun q _ => by rw [filled.is.port]
  have lost (q i : Nat) (here : q ∈ [2 * k, 2 * k + 1]) : f.ringOut q i = s.ringOut q i := by
    have own : q / 2 = k := by
      simp only [List.mem_cons, List.not_mem_nil, or_false] at here
      omega
    rw [ringOut_eq, ringOut_eq, own, filled.is.engine]
  refine ⟨⟨fun q here st => ?_, ?_⟩, ⟨?_, fun j other => ?_⟩, ?_⟩
  · have gone := seeks_of_calibrated (q := q) stands ports now (by rw [waiting]; exact mem_waiting here st)
      (by rw [filled.is.port]; exact st) (by rw [waiting]; exact goes)
    simp only [filled.is.port, filled.is.ms, lost q _ here] at gone
    exact gone
  · refine stands.shown.of_reg ((reg_of_regs goes.regs _).trans (counted.reg _ (engStatus_apart k).1))
  · have own := filled.is.engine
    have recorded := (goes.engine k).trans ((engine k).trans stands.sets.1)
    have full : (t.engine k).full = (f.engine k).full := (congrArg Engine.full recorded :)
    rw [full, recorded]
    generalize f.engine k = e at own ⊢
    rw [own]
    rfl
  · exact (goes.engine j).trans ((engine j).trans ((stands.sets.2 j other).trans (filled.is.sets.2 j other)))
  · obtain ⟨saved, status, deadline⟩ := engRing_apart k
    have before : u.reg (Reg.LTN_ENG_RING k) = s.reg (Reg.LTN_ENG_RING k) :=
      (stands.reg _ (engStatus_apart k).2).trans (filled.reg _ saved status deadline)
    have counts := counts_of_regs counted.counts goes.regs
    rwa [Counts, field_of_reg before] at counts

end

end Sys2Proof.Machine
end

section
/-! Ports that go DOWN (10 R312, R314, R318). -/

namespace Sys2Proof.Machine

/-- What a port that goes DOWN may touch. -/
structure DownOnly (p : Nat) (s t : State) : Prop where
  rest : t = { s with regs := t.regs, ports := t.ports, ev := t.ev, pair := t.pair, streams := t.streams }
  others : ∀ q, q ≠ p → t.port q = s.port q
  reg : ∀ a, a ≠ Reg.LTN_PORT_LOST p → a ≠ Reg.LTN_PORT_EVENTS p → a ≠ Reg.LTN_PORT_DOWN p → t.reg a = s.reg a
  ev : ∃ l, t.ev.atSource = s.ev.atSource ++ l

/-- A port has gone DOWN for a reason, at once to DARK where it lacks light. -/
structure Fails (p reason : Nat) (s t : State) : Prop where
  only : DownOnly p s t
  reason : t.field (Reg.LTN_PORT_DOWN p) 0 4 = reason
  st : (t.port p).st = if t.adminDown p || t.allLines (p / 2) then 9#4 else 1#4

section
variable {s t u : State} {p : Nat}

theorem adminDown_of_reg (same : t.reg (Reg.LTN_PORT_CTRL p) = s.reg (Reg.LTN_PORT_CTRL p)) : t.adminDown p = s.adminDown p := by
  rw [State.adminDown, State.adminDown, field_of_reg same]

theorem allLines_of_reg {k : Nat} (same : t.reg (Reg.LTN_ENG_STATUS k) = s.reg (Reg.LTN_ENG_STATUS k)) : t.allLines k = s.allLines k := by
  rw [State.allLines, State.allLines, field_of_reg same]

/-- A port's DOWN is recorded, with the flits lost (R312, R322). -/
def State.downCounted (s : State) (p reason : Nat) : State :=
  ((s.bump (Reg.LTN_PORT_LOST p) 0 32 (s.port p).unacked.length).bump (Reg.LTN_PORT_EVENTS p) 16 8 1).setField
    (Reg.LTN_PORT_DOWN p) 0 4 (reason % 16)

theorem regsOnly_downCounted (s : State) (p reason : Nat) : RegsOnly s (s.downCounted p reason) :=
  regsOnly_trans (regsOnly_trans (regsOnly_bump ..) (regsOnly_bump ..)) (regsOnly_setField ..)

theorem reg_downCounted (s : State) (p reason : Nat) {a : Nat} (lost : a ≠ Reg.LTN_PORT_LOST p) (events : a ≠ Reg.LTN_PORT_EVENTS p)
    (down : a ≠ Reg.LTN_PORT_DOWN p) : (s.downCounted p reason).reg a = s.reg a := by
  rw [State.downCounted, reg_setField_other _ _ _ _ _ _ down, reg_bump_other _ _ _ _ _ _ events, reg_bump_other _ _ _ _ _ _ lost]

theorem portDown_eq (s : State) (p reason : Nat) (evidence : Bool) : s.portDown p (some reason) evidence =
    ((((s.downCounted p reason).setPort p { (s.port p).endEpoch with st := 9, since := (s.downCounted p reason).ms }).logMarked evidence
      (srcEngine (portEngine p)) 0x0C 0x01 (p + 2 ^ 8 * portEngine p) (reason % 16 + 2 ^ 32 * (s.port p).unacked.length) 0).suspendStreams p).notePort p := rfl

theorem DownOnly.trans (a : DownOnly p s t) (b : DownOnly p t u) : DownOnly p s u := by
  obtain ⟨l, ev⟩ := a.ev
  obtain ⟨m, ev'⟩ := b.ev
  exact ⟨by rw [b.rest, a.rest], fun q other => (b.others q other).trans (a.others q other),
    fun r lost events down => (b.reg r lost events down).trans (a.reg r lost events down),
    l ++ m, by rw [ev', ev, List.append_assoc]⟩

theorem downOnly_downCounted (s : State) (p reason : Nat) : DownOnly p s (s.downCounted p reason) := by
  have regs := regsOnly_downCounted s p reason
  have reg := fun a => reg_downCounted s p reason (a := a)
  generalize s.downCounted p reason = t at regs reg
  exact ⟨by rw [regs.rest], fun q _ => port_of_ports (by rw [regs.rest]) q, reg, [], by rw [regs.rest, List.append_nil]⟩

theorem DownOnly.of_portIs {x : Port} (h : PortIs p s t x) : DownOnly p s t :=
  ⟨by rw [h.rest], h.sets.2, fun a _ _ _ => reg_of_regs h.regs a, [], by rw [h.ev, List.append_nil]⟩

theorem logMarked_rest (s : State) (evidence : Bool) (src cls cause p0 p1 p2 : Nat) :
    s.logMarked evidence src cls cause p0 p1 p2 =
      { s with ev := (s.logMarked evidence src cls cause p0 p1 p2).ev, pair := (s.logMarked evidence src cls cause p0 p1 p2).pair } :=
  logEvent_rest s _

theorem downOnly_logMarked (s : State) (p : Nat) (evidence : Bool) (src cls cause p0 p1 p2 : Nat) :
    DownOnly p s (s.logMarked evidence src cls cause p0 p1 p2) := by
  have rest := logMarked_rest s evidence src cls cause p0 p1 p2
  obtain ⟨f, appended⟩ := logEvent_atSource s { s.eventOf src cls cause with
    p0 := BitVec.ofNat 32 p0, p1 := BitVec.ofNat 64 p1, p2 := BitVec.ofNat 64 p2, flags := if evidence then 4#16 else 0#16 }
  change (s.logMarked evidence src cls cause p0 p1 p2).ev.atSource = _ at appended
  generalize s.logMarked evidence src cls cause p0 p1 p2 = t at rest appended
  exact ⟨by rw [rest], fun q _ => port_of_ports (by rw [rest]) q, fun a _ _ _ => reg_of_regs (by rw [rest]) a, _, appended⟩

theorem downOnly_suspendStreams (s : State) (p q : Nat) : DownOnly p s (s.suspendStreams q) :=
  ⟨rfl, fun _ _ => rfl, fun _ _ _ _ => rfl, [], (List.append_nil _).symm⟩

theorem downOnly_notePort (s : State) (p q : Nat) : DownOnly p s (s.notePort q) :=
  ⟨by rw [notePort_rest], fun r _ => port_of_ports (ports_notePort s q) r, fun a _ _ _ => reg_of_regs (regs_notePort s q) a, [],
    by rw [ev_notePort, List.append_nil]⟩

/-- A port goes DOWN (R312, R318). -/
theorem portDown_down (s : State) (p : Nat) {reason : Nat} (reason4 : reason < 16) (evidence : Bool) :
    DownOnly p s (s.portDown p (some reason) evidence) ∧
      (s.portDown p (some reason) evidence).field (Reg.LTN_PORT_DOWN p) 0 4 = reason ∧
      ((s.portDown p (some reason) evidence).port p).st = 9#4 := by
  rw [portDown_eq]
  have counted := downOnly_downCounted s p reason
  have shown : (s.downCounted p reason).field (Reg.LTN_PORT_DOWN p) 0 4 = reason := by
    rw [State.downCounted, field_setField_same _ _ _ _ _ (by decide), Nat.mod_eq_of_lt reason4]
    exact Nat.mod_eq_of_lt reason4
  generalize s.downCounted p reason = u at counted shown
  have written := (PortIs.refl p u).setPort { (s.port p).endEpoch with st := 9, since := u.ms }
  have st : ((u.setPort p { (s.port p).endEpoch with st := 9, since := u.ms }).port p).st = 9#4 :=
    (congrArg Port.st written.port :)
  have fields := field_of_regs written.regs (Reg.LTN_PORT_DOWN p) 0 4
  have wrote := DownOnly.of_portIs written
  generalize u.setPort p { (s.port p).endEpoch with st := 9, since := u.ms } = v at st fields wrote
  generalize reason % 16 + 2 ^ 32 * (s.port p).unacked.length = detail
  have logged := downOnly_logMarked v p evidence (srcEngine (portEngine p)) 0x0C 0x01 (p + 2 ^ 8 * portEngine p) detail 0
  have logs := logMarked_rest v evidence (srcEngine (portEngine p)) 0x0C 0x01 (p + 2 ^ 8 * portEngine p) detail 0
  generalize v.logMarked evidence _ 0x0C 0x01 _ detail 0 = w at logged logs
  have ports : ((w.suspendStreams p).notePort p).ports = v.ports := (ports_notePort ..).trans (by rw [logs]; rfl)
  have regs : ((w.suspendStreams p).notePort p).regs = v.regs := (regs_notePort ..).trans (by rw [logs]; rfl)
  exact ⟨(((counted.trans wrote).trans logged).trans (downOnly_suspendStreams ..)).trans (downOnly_notePort ..),
    (field_of_regs regs ..).trans (fields.trans shown), by rw [port_of_ports ports]; exact st⟩

theorem downOnly_darken (s : State) (p : Nat) : DownOnly p s (s.darken p) := by
  by_cases dark : (s.port p).st = 9#4 ∧ !s.adminDown p ∧ !s.allLines (portEngine p)
  · rw [State.darken, if_pos dark]
    exact DownOnly.of_portIs ((PortIs.refl p s).setPort _)
  · rw [State.darken, if_neg dark]
    exact ⟨rfl, fun _ _ => rfl, fun _ _ _ _ => rfl, [], (List.append_nil _).symm⟩

theorem regs_darken (s : State) (p : Nat) : (s.darken p).regs = s.regs := by
  unfold State.darken
  dsimp only
  split
  · rfl
  · rfl

/-- DOWN without light becomes DARK (R304, R314). -/
theorem st_darken (st : (s.port p).st = 9#4) :
    ((s.darken p).port p).st = if s.adminDown p || s.allLines (p / 2) then 9#4 else 1#4 := by
  by_cases stays : (s.adminDown p || s.allLines (p / 2)) = true
  · rw [if_pos stays, darken_light (.inr (by simpa [portEngine] using stays))]
    exact st
  · obtain ⟨up, dark⟩ := Bool.or_eq_false_iff.1 (Bool.eq_false_iff.2 stays)
    rw [if_neg stays, darken_dark st up dark, port_setPort_same]
    rfl

theorem fails_portFails (s : State) (p : Nat) {reason : Nat} (reason4 : reason < 16) (evidence : Bool) :
    Fails p reason s (s.portFails p (some reason) evidence) := by
  obtain ⟨only, shown, st⟩ := portDown_down s p reason4 evidence
  unfold State.portFails
  generalize s.portDown p (some reason) evidence = t at only shown st
  have regs := regs_darken t p
  refine ⟨only.trans (downOnly_darken t p), (field_of_regs regs ..).trans shown, ?_⟩
  rw [st_darken st, adminDown_of_reg (reg_of_regs regs _), allLines_of_reg (reg_of_regs regs _)]

end

end Sys2Proof.Machine
end

section
/-! What retires may send on ports, and changes them in nothing else (08 R261, R342; 11 R326, R332). -/

namespace Sys2Proof.Machine

theorem sends_foldl {α : Type} {f : State → α → State} (step : ∀ s x, Sends s (f s x)) (l : List α) (s : State) :
    Sends s (l.foldl f s) :=
  List.foldlRecOn (motive := Sends s) l f (Sends.refl s) fun t sends x _ => sends.trans (step t x)

theorem ports_signalVector (s : State) (port : Bool) (fn vec : Nat) : (s.signalVector port fn vec).ports = s.ports := by
  unfold State.signalVector
  dsimp only
  split
  · rfl
  · rfl

theorem ports_writeEntry (s : State) (rn idx : Nat) (entry : BitVec 256) (irq : Bool) : (s.writeEntry rn idx entry irq).ports = s.ports := by
  unfold State.writeEntry
  dsimp only
  split
  · rfl
  · split
    · exact ports_signalVector ..
    · rfl

theorem sends_setStream (s : State) (k : Nat) (x : TStream) : Sends s (s.setStream k x) := Sends.of_ports rfl
theorem sends_setRing (s : State) (rn : Nat) (x : Ring) : Sends s (s.setRing rn x) := Sends.of_ports rfl
theorem sends_setJob (s : State) (k : Nat) (x : Job) : Sends s (s.setJob k x) := Sends.of_ports rfl
theorem sends_markDone (s : State) (ref : DescRef) (status : Byte) (tag : BitVec 16) (detail : BitVec 32) :
    Sends s (s.markDone ref status tag detail) := Sends.of_ports rfl

/-- A follower holds an entry, a leader writes it and tells of it (R342, R343). -/
theorem sends_entry (s : State) (rn idx : Nat) (entry : BitVec 256) (irq : Bool) (arg : Nat) (held : HeldCpl) :
    Sends s (if s.pairFollows then
        if idx < AMap.get 0 s.pair.cplSeen rn then s.writeQuiet rn idx entry
        else { s with pair := { s.pair with held := s.pair.held ++ [held] } }
      else if (s.writeEntry rn idx entry irq).pairState = 2 || (s.writeEntry rn idx entry irq).pairState = 7 then
        (s.writeEntry rn idx entry irq).sendPair 0x23 0 arg []
      else s.writeEntry rn idx entry irq) := by
  have written : Sends s (s.writeEntry rn idx entry irq) := Sends.of_ports (ports_writeEntry ..)
  split
  · split
    · exact Sends.of_ports rfl
    · exact Sends.of_ports rfl
  · split
    · exact written.trans (sends_sendPair ..)
    · exact written

theorem sends_writeCompletion (s : State) (rn : Nat) (d : Desc) (status : Byte) (tag : BitVec 16) (detail : BitVec 32) :
    Sends s (s.writeCompletion rn d status tag detail) := by
  unfold State.writeCompletion
  dsimp only
  split
  · split
    · exact Sends.refl s
    · refine Sends.trans ?_ (sends_entry ..)
      split
      · exact Sends.of_ports rfl
      · exact Sends.refl s
  · exact Sends.of_ports (ports_writeEntry ..)

theorem sends_matchOpen (s : State) (k : Nat) : Sends s (s.matchOpen k) := by
  unfold State.matchOpen
  dsimp only
  split
  · split
    · split
      · refine Sends.trans (Sends.trans ?_ (sends_sendMsg ..)) (sends_setStream ..)
        exact Sends.of_ports rfl
      · exact Sends.refl s
    · exact Sends.refl s
  · exact Sends.refl s

theorem sends_openStreams (s : State) (slot : Nat) : Sends s (s.openStreams slot) := by
  refine sends_foldl (fun s k => ?_) _ s
  dsimp only
  split
  · exact (sends_setStream ..).trans (sends_matchOpen ..)
  · exact (sends_sendMsg ..).trans (sends_setStream ..)

theorem sends_tagsRetire (s : State) (ref : DescRef) : Sends s (s.tagsRetire ref) := by
  refine sends_foldl (fun s k => ?_) _ s
  dsimp only
  split
  · split
    · exact (sends_setJob ..).trans (sends_openStreams ..)
    · exact sends_setJob ..
  · exact Sends.refl s

theorem sends_retireRing (rn n : Nat) (s : State) : Sends s (s.retireRing rn n) := by
  induction n generalizing s with
  | zero => exact Sends.refl s
  | succ n ih =>
    unfold State.retireRing
    split
    · split
      · exact (((sends_writeCompletion ..).trans (sends_setRing ..)).trans (sends_tagsRetire ..)).trans (ih _)
      · exact Sends.refl s
    · exact Sends.refl s

theorem sends_skipReserved (rn n : Nat) (s : State) : Sends s (s.skipReserved rn n) := by
  induction n generalizing s with
  | zero => exact Sends.refl s
  | succ n ih =>
    unfold State.skipReserved
    split
    · split
      · exact Sends.refl s
      · exact ((sends_markDone ..).trans (sends_retireRing ..)).trans (ih _)
    · exact Sends.refl s

theorem sends_finishDestroy (s : State) (rn : Nat) : Sends s (s.finishDestroy rn) := by
  unfold State.finishDestroy
  dsimp only
  split
  · split
    · exact Sends.refl s
    · exact (((sends_setRing ..).trans (sends_markDone ..)).trans (sends_retireRing ..)).trans (sends_skipReserved ..)
  · exact Sends.refl s

theorem sends_settlePort (s : State) (port : Bool) : Sends s (s.settlePort port) :=
  sends_foldl (fun _ _ => ((sends_retireRing ..).trans (sends_skipReserved ..)).trans (sends_finishDestroy ..)) _ s

/-- What is done retires. -/
theorem sends_settleDone (s : State) : Sends s s.settleDone := (sends_settlePort ..).trans (sends_settlePort ..)

end Sys2Proof.Machine
end

section
/-! Engines and light that go (10 R304, R314, R315), and their ports with them. -/

namespace Sys2Proof.Machine

/-- A port is down for a reason: DOWN, or DARK where it lacks light. -/
def DownFor (q reason : Nat) (t : State) : Prop :=
  t.field (Reg.LTN_PORT_DOWN q) 0 4 = reason ∧ (t.port q).st = if t.adminDown q || t.allLines (q / 2) then 9#4 else 1#4

/-- Nothing of a port differs, nor of the time or of the registers that say whether it is up. -/
structure PortKept (q : Nat) (s t : State) : Prop where
  port : t.port q = s.port q
  ms : t.ms = s.ms
  down : t.reg (Reg.LTN_PORT_DOWN q) = s.reg (Reg.LTN_PORT_DOWN q)
  ctrl : t.reg (Reg.LTN_PORT_CTRL q) = s.reg (Reg.LTN_PORT_CTRL q)
  status : t.reg (Reg.LTN_ENG_STATUS (q / 2)) = s.reg (Reg.LTN_ENG_STATUS (q / 2))

section
variable {s t u : State} {p q k : Nat}

theorem Fails.downFor {reason : Nat} (h : Fails p reason s t) : DownFor p reason t := ⟨h.reason, h.st⟩

theorem downFor_kept {reason : Nat} (h : DownFor q reason t) (st : (u.port q).st = (t.port q).st)
    (down : u.reg (Reg.LTN_PORT_DOWN q) = t.reg (Reg.LTN_PORT_DOWN q)) (ctrl : u.reg (Reg.LTN_PORT_CTRL q) = t.reg (Reg.LTN_PORT_CTRL q))
    (status : u.reg (Reg.LTN_ENG_STATUS (q / 2)) = t.reg (Reg.LTN_ENG_STATUS (q / 2))) : DownFor q reason u :=
  ⟨(field_of_reg down ..).trans h.1, by rw [st, h.2, adminDown_of_reg ctrl, allLines_of_reg status]⟩

theorem PortKept.downFor {reason : Nat} (h : PortKept q t u) (down : DownFor q reason t) : DownFor q reason u :=
  downFor_kept down (by rw [h.port]) h.down h.ctrl h.status

theorem PortKept.refl (q : Nat) (s : State) : PortKept q s s := ⟨rfl, rfl, rfl, rfl, rfl⟩

/-- The registers that a port's DOWN writes are those of the port, below an engine's (R322). -/
theorem DownOnly.engineReg (h : DownOnly p s t) (inside : p < 128) {a : Nat} (above : 0x84000 ≤ a) : t.reg a = s.reg a := by
  refine h.reg a ?_ ?_ ?_
  · unfold Reg.LTN_PORT_LOST
    omega
  · unfold Reg.LTN_PORT_EVENTS
    omega
  · unfold Reg.LTN_PORT_DOWN
    omega

theorem above_status (k : Nat) : 0x84000 ≤ Reg.LTN_ENG_STATUS k := by
  unfold Reg.LTN_ENG_STATUS
  omega

theorem DownOnly.portKept (h : DownOnly p s t) (inside : p < 128) (other : q ≠ p) : PortKept q s t := by
  refine ⟨h.others q other, by rw [h.rest], h.reg _ ?_ ?_ ?_, h.reg _ ?_ ?_ ?_, h.engineReg inside (above_status _)⟩ <;>
    simp only [Reg.LTN_PORT_DOWN, Reg.LTN_PORT_CTRL, Reg.LTN_PORT_LOST, Reg.LTN_PORT_EVENTS] <;> omega

/-- What the two ports of an engine that go DOWN may touch. -/
structure BothOnly (s t : State) : Prop where
  rest : t = { s with regs := t.regs, ports := t.ports, ev := t.ev, pair := t.pair, streams := t.streams }
  reg : ∀ a, 0x84000 ≤ a → t.reg a = s.reg a
  ev : ∃ l, t.ev.atSource = s.ev.atSource ++ l

theorem bothOnly_foldl {f : State → Nat → State} (only : ∀ s p, DownOnly p s (f s p)) (inside : k < 64) (s : State) :
    BothOnly s ([2 * k, 2 * k + 1].foldl f s) := by
  have first := only s (2 * k)
  have second := only (f s (2 * k)) (2 * k + 1)
  change BothOnly s (f (f s (2 * k)) (2 * k + 1))
  generalize f (f s (2 * k)) (2 * k + 1) = t at second
  generalize f s (2 * k) = u at first second
  obtain ⟨l, ev⟩ := first.ev
  obtain ⟨m, ev'⟩ := second.ev
  exact ⟨by rw [second.rest, first.rest],
    fun a above => (second.engineReg (by omega) above).trans (first.engineReg (by omega) above), l ++ m, by rw [ev', ev, List.append_assoc]⟩

/-- Each port of an engine is as its own step leaves it, from where nothing of it differs. -/
theorem portKept_foldl {f : State → Nat → State} (only : ∀ s p, DownOnly p s (f s p)) (inside : k < 64) (s : State)
    (here : q ∈ [2 * k, 2 * k + 1]) : ∃ u, PortKept q s u ∧ PortKept q (f u q) ([2 * k, 2 * k + 1].foldl f s) := by
  have cases : q = 2 * k ∨ q = 2 * k + 1 := by simpa using here
  rcases cases with rfl | rfl
  · exact ⟨s, PortKept.refl .., (only (f s (2 * k)) (2 * k + 1)).portKept (by omega) (by omega)⟩
  · exact ⟨f s (2 * k), (only s (2 * k)).portKept (by omega) (by omega), PortKept.refl ..⟩

/-! ### An engine that leaves service (R154, R315) -/

/-- A port that is in use fails with its engine. -/
def State.failsWith (reason : Nat) (s : State) (p : Nat) : State :=
  if 2 ≤ (s.port p).st.toNat ∧ (s.port p).st.toNat ≤ 8 then s.portFails p (some reason) (s.pairActive && s.portPaired p) else s

theorem DownOnly.refl (p : Nat) (s : State) : DownOnly p s s :=
  ⟨rfl, fun _ _ => rfl, fun _ _ _ _ => rfl, [], (List.append_nil _).symm⟩

theorem downOnly_failsWith {reason : Nat} (reason4 : reason < 16) (s : State) (p : Nat) : DownOnly p s (s.failsWith reason p) := by
  unfold State.failsWith
  split
  · exact (fails_portFails s p reason4 _).only
  · exact DownOnly.refl p s

/-- A port in use is down after its step. -/
theorem downFor_failsWith {reason : Nat} (reason4 : reason < 16) (low : 2 ≤ (s.port p).st.toNat) (high : (s.port p).st.toNat ≤ 8) :
    DownFor p reason (s.failsWith reason p) := by
  rw [State.failsWith, if_pos ⟨low, high⟩]
  exact (fails_portFails s p reason4 _).downFor

/-- The state in which an engine has left the roster (R154). -/
def State.engineGone (s : State) (k : Nat) : State :=
  ((s.leave (srcEngine k)).setEngine k { s.engine k with recentring := false, late := false }).distChanged

theorem engineOut_serving {reason : Nat} (serves : s.serves (srcEngine k) = true) : s.engineOut k (some reason) =
    if s.enginePaired k then ([2 * k, 2 * k + 1].foldl (State.failsWith reason) (s.engineGone k)).pairDeclareFailed 2
    else [2 * k, 2 * k + 1].foldl (State.failsWith reason) (s.engineGone k) := by
  rw [State.engineOut, if_pos serves]
  rfl

/-- An engine has left service. -/
structure EngineGone (k : Nat) (s t : State) : Prop where
  out : srcEngine k ∈ t.outOf
  engine : (t.engine k).recentring = false
  reg : ∀ a, 0x80000 ≤ a → a < 0x400000 → t.reg a = s.reg a
  port : ∀ q, t.port q = s.port q

theorem engineGone_gone (s : State) (k : Nat) : EngineGone k s (s.engineGone k) := by
  have left : srcEngine k ∈ (s.leave (srcEngine k)).outOf := mem_insertNat.2 (.inl rfl)
  have regs : ((s.leave (srcEngine k)).setEngine k { s.engine k with recentring := false, late := false }).regs = s.regs :=
    State.setEngine_regs ..
  have outOf := State.setEngine_outOf (s := s.leave (srcEngine k)) k { s.engine k with recentring := false, late := false }
  have ports (q : Nat) : ((s.leave (srcEngine k)).setEngine k { s.engine k with recentring := false, late := false }).port q = s.port q :=
    State.setEngine_portAt ..
  have engine : (((s.leave (srcEngine k)).setEngine k { s.engine k with recentring := false, late := false }).engine k).recentring = false := by
    rw [engine_setEngine_same]
  unfold State.engineGone
  generalize (s.leave (srcEngine k)).setEngine k { s.engine k with recentring := false, late := false } = u at regs outOf ports engine
  have changed := distChanged_rest u
  have reg := fun a => reg_distChanged u (a := a)
  generalize u.distChanged = t at changed reg
  refine ⟨?_, ?_, fun a above below => (reg a fun d => ?_).trans (reg_of_regs regs a), fun q => ?_⟩
  · rw [changed.rest]
    exact outOf ▸ left
  · rw [engine_of_regsOnly changed]
    exact engine
  · unfold Reg.FAB_DIST_GEN
    omega
  · rw [port_of_ports (by rw [changed.rest] : t.ports = u.ports), ports]

/-- A module outside a pair has no pair to declare failed (R338, R346). -/
theorem pairDeclareFailed_single (single : s.pairActive = false) (cause : Nat) : s.pairDeclareFailed cause = s.settleDone := by
  rw [State.pairDeclareFailed, State.pairFails, single]
  rfl

/-- What an engine that leaves service outside pair mode leaves. -/
structure EngineLost (k reason : Nat) (s t : State) : Prop where
  out : srcEngine k ∈ t.outOf
  engine : (t.engine k).recentring = false
  reg : ∀ a, 0x84000 ≤ a → a < 0x400000 → t.reg a = s.reg a
  down : ∀ q ∈ [2 * k, 2 * k + 1], 2 ≤ (s.port q).st.toNat → (s.port q).st.toNat ≤ 8 → DownFor q reason t

theorem EngineLost.settled {reason : Nat} (h : EngineLost k reason s t) : EngineLost k reason s t.settleDone := by
  have outward := outward_settleDone t
  have sends := sends_settleDone t
  generalize t.settleDone = u at outward sends
  have reg := outward.reg
  refine ⟨?_, ?_, fun a above below => (reg a).trans (h.reg a above below), fun q here low high => ?_⟩
  · rw [outward.rest]
    exact h.out
  · rw [State.engine, outward.rest]
    exact h.engine
  · exact downFor_kept (h.down q here low high) (congrArg Port.st (sends.ports q) :) (reg _) (reg _) (reg _)

theorem engineLost_engineOut {reason : Nat} (reason4 : reason < 16) (inside : k < 64) (serves : s.serves (srcEngine k) = true)
    (single : s.pairActive = false) : EngineLost k reason s (s.engineOut k (some reason)) := by
  rw [engineOut_serving serves]
  have gone := engineGone_gone s k
  generalize s.engineGone k = u at gone
  have both := bothOnly_foldl (downOnly_failsWith reason4) inside u
  have each := fun q => portKept_foldl (q := q) (downOnly_failsWith reason4) inside u
  generalize [2 * k, 2 * k + 1].foldl (State.failsWith reason) u = t at both each
  have lost : EngineLost k reason s t := by
    refine ⟨?_, ?_, fun a above below => (both.reg a above).trans (gone.reg a (by omega) below), fun q here low high => ?_⟩
    · rw [both.rest]
      exact gone.out
    · rw [State.engine, both.rest]
      exact gone.engine
    · obtain ⟨v, before, after⟩ := each q here
      have st : (v.port q).st = (s.port q).st := by rw [before.port, gone.port]
      exact after.downFor (downFor_failsWith reason4 (by rwa [st]) (by rwa [st]))
  split
  · have alone : t.pairActive = false := by
      rw [pairActive_of_reg (lost.reg _ (by decide) (by decide))]
      exact single
    rw [pairDeclareFailed_single alone]
    exact lost.settled
  · exact lost

end

/-! ### Lasers (R304, R320) -/

section
variable {s t u : State} {p q k : Nat}

/-- The re-centring of an engine, if one is under way, is complete. -/
theorem recentred_is (s : State) (k : Nat) : ∃ late count,
    EngineIs k s (s.recentred k) { s.engine k with recentring := false, late := late, recentreCount := count } := by
  unfold State.recentred
  dsimp only
  split
  · exact ⟨_, _, (EngineIs.refl k s).setEngine _⟩
  · rename_i settled
    have stays : s.engine k = { s.engine k with recentring := false } := by
      rw [Bool.not_eq_true] at settled
      rw [← settled]
    refine ⟨(s.engine k).late, (s.engine k).recentreCount, ?_⟩
    have same := EngineIs.refl k s
    rw [stays] at same
    exact same

theorem regs_recentred (s : State) (k : Nat) : (s.recentred k).regs = s.regs := by
  unfold State.recentred
  dsimp only
  split
  · rfl
  · rfl

/-- None of an engine's rings is locked: no re-centring is under way. -/
structure RingsOpen (k : Nat) (s t : State) : Prop where
  is : ∃ late count, EngineIs k s t { s.engine k with recentring := false, late := late, recentreCount := count }
  open_ : t.field (Reg.LTN_ENG_STATUS k) 10 1 = 0
  field : ∀ lo w, lo + w ≤ 10 ∨ 11 ≤ lo → t.field (Reg.LTN_ENG_STATUS k) lo w = s.field (Reg.LTN_ENG_STATUS k) lo w
  reg : ∀ a, a ≠ Reg.LTN_ENG_STATUS k → t.reg a = s.reg a

theorem ringsOpen_opens (s : State) (k : Nat) : RingsOpen k s (s.ringsOpen k) := by
  obtain ⟨late, count, is⟩ := recentred_is s k
  have regs := regs_recentred s k
  unfold State.ringsOpen
  generalize s.recentred k = u at is regs
  refine ⟨⟨late, count, is.regsOnly (regsOnly_setField ..)⟩, field_setField_same _ _ _ _ _ (by decide), fun lo w apart => ?_,
    fun a other => (reg_setField_other _ _ _ _ _ _ other).trans (reg_of_regs regs a)⟩
  exact (field_setField_apart _ _ _ _ _ _ _ (by decide) (apart.symm.imp_right id)).trans (field_of_regs regs ..)

/-- The register that keeps the measured power of a line (R322). -/
def laserReg (k line : Nat) : Nat := if line < 4 then Reg.LTN_ENG_LASER_LO k else Reg.LTN_ENG_LASER_HI k

theorem laserReg_apart (k line : Nat) : laserReg k line ≠ Reg.LTN_ENG_STATUS k := by
  unfold laserReg Reg.LTN_ENG_LASER_LO Reg.LTN_ENG_LASER_HI Reg.LTN_ENG_STATUS
  split <;> omega

/-- A line has been measured: its power is kept, and whether it is present (R304). -/
def State.lineShown (s : State) (k line : Nat) (power : Byte) (b : Nat) : State :=
  (s.setLaser k line power).setField (Reg.LTN_ENG_STATUS k) line 1 b

/-- What a state shows of a line. -/
structure LineShown (k line power b : Nat) (t : State) : Prop where
  present : t.field (Reg.LTN_ENG_STATUS k) line 1 = b
  power : t.field (laserReg k line) (8 * (line % 4)) 8 = power

theorem regsOnly_lineShown (s : State) (k line : Nat) (power : Byte) (b : Nat) : RegsOnly s (s.lineShown k line power b) :=
  regsOnly_trans (regsOnly_setField ..) (regsOnly_setField ..)

section
variable {line b : Nat} {power : Byte}

theorem lineShown_shows (small : line < 8) (bit : b < 2) (s : State) (k : Nat) (power : Byte) :
    LineShown k line power.toNat b (s.lineShown k line power b) := by
  constructor
  · exact (field_setField_same _ _ _ _ _ (by omega)).trans (Nat.mod_eq_of_lt bit)
  · rw [State.lineShown, field_setField_other _ _ _ _ _ _ _ _ (laserReg_apart k line)]
    exact (field_setField_same _ _ _ _ _ (by omega)).trans (Nat.mod_eq_of_lt power.isLt)

/-- The other lines, and the rest of the status, stand (R304). -/
theorem field_lineShown (small : line < 8) (s : State) (k : Nat) {lo w : Nat} (apart : lo + w ≤ line ∨ line + 1 ≤ lo) :
    (s.lineShown k line power b).field (Reg.LTN_ENG_STATUS k) lo w = s.field (Reg.LTN_ENG_STATUS k) lo w := by
  rw [State.lineShown, field_setField_apart _ _ _ _ _ _ _ (by omega) (by omega)]
  exact field_setField_other _ _ _ _ _ _ _ _ (laserReg_apart k line).symm

theorem reg_lineShown (s : State) (k : Nat) {a : Nat} (laser : a ≠ laserReg k line) (status : a ≠ Reg.LTN_ENG_STATUS k) :
    (s.lineShown k line power b).reg a = s.reg a := by
  rw [State.lineShown, reg_setField_other _ _ _ _ _ _ status]
  exact reg_setField_other _ _ _ _ _ _ laser

theorem LineShown.kept {n : Nat} (h : LineShown k line n b t) (small : line < 8) (status : RingsOpen k t u) : LineShown k line n b u :=
  ⟨(status.field _ _ (.inl (by omega))).trans h.present, (field_of_reg (status.reg _ (laserReg_apart k line)) ..).trans h.power⟩

theorem LineShown.of_reg {n : Nat} (h : LineShown k line n b t) (above : ∀ a, 0x84000 ≤ a → u.reg a = t.reg a) : LineShown k line n b u := by
  refine ⟨(field_of_reg (above _ (above_status k)) ..).trans h.present, (field_of_reg (above _ ?_) ..).trans h.power⟩
  unfold laserReg Reg.LTN_ENG_LASER_LO Reg.LTN_ENG_LASER_HI
  split <;> omega

end

/-- A port as the light of its engine goes (R304, R314). -/
def State.lightGoes (s : State) (p : Nat) : State :=
  if (s.port p).st.toNat = 7 ∨ (s.port p).st.toNat = 8 then s.portFails p (some 5)
  else if 2 ≤ (s.port p).st.toNat ∧ (s.port p).st.toNat ≤ 9 then s.modPort p fun x => { x.endEpoch with st := 1, since := s.ms }
  else s

theorem downOnly_lightGoes (s : State) (p : Nat) : DownOnly p s (s.lightGoes p) := by
  unfold State.lightGoes
  split
  · exact (fails_portFails s p (by decide) _).only
  · split
    · exact DownOnly.of_portIs ((PortIs.refl p s).modPort _)
    · exact DownOnly.refl p s

/-- A port that carried a link is down for its light. -/
theorem downFor_lightGoes (st : (s.port p).st = 7#4 ∨ (s.port p).st = 8#4) : DownFor p 5 (s.lightGoes p) := by
  have up : (s.port p).st.toNat = 7 ∨ (s.port p).st.toNat = 8 := st.imp (by rintro st; rw [st]; rfl) (by rintro st; rw [st]; rfl)
  rw [State.lightGoes, if_pos up]
  exact (fails_portFails s p (by decide) _).downFor

/-- A port in training is in DARK. -/
theorem port_lightGoes_training (low : 2 ≤ (s.port p).st.toNat) (high : (s.port p).st.toNat ≤ 6) :
    (s.lightGoes p).port p = { (s.port p).endEpoch with st := 1, since := s.ms } := by
  rw [State.lightGoes, if_neg (by omega), if_pos ⟨low, by omega⟩]
  exact ((PortIs.refl p s).modPort _).port

theorem lightGoes_dark (dark : (s.port p).st.toNat ≤ 1) : s.lightGoes p = s := by
  rw [State.lightGoes, if_neg (by omega), if_neg (by omega)]

theorem laserLost_below {line : Nat} {power : Byte} (weak : power.toNat < 56) (present : s.field (Reg.LTN_ENG_STATUS k) line 1 = 1) :
    s.laserLost k line power = [2 * k, 2 * k + 1].foldl State.lightGoes (((s.lineShown k line power 0).logLantern (2 * k) 0x04 0).ringsOpen k) := by
  rw [State.laserLost, if_neg (by omega)]
  rfl

theorem laserLost_stays {line : Nat} {power : Byte} (stays : 56 ≤ power.toNat ∨ s.field (Reg.LTN_ENG_STATUS k) line 1 = 0) :
    s.laserLost k line power = s := by
  rw [State.laserLost, if_pos stays]

/-- What a laser line that goes leaves (R304, R323). -/
structure LineLost (k line power : Nat) (s t : State) : Prop where
  shown : LineShown k line power 0 t
  logged : ∃ r ∈ t.ev.atSource, r.cls = 0x0C#8 ∧ r.cause = 0x04#8
  ports : ∀ q ∈ [2 * k, 2 * k + 1], ((s.port q).st = 7#4 ∨ (s.port q).st = 8#4 → DownFor q 5 t) ∧
    (2 ≤ (s.port q).st.toNat → (s.port q).st.toNat ≤ 6 → (t.port q).st = 1#4 ∧ (t.port q).since = s.ms) ∧
    ((s.port q).st.toNat ≤ 1 → t.port q = s.port q)

theorem lineLost_laserLost {line : Nat} {power : Byte} (inside : k < 64) (small : line < 8) (weak : power.toNat < 56)
    (present : s.field (Reg.LTN_ENG_STATUS k) line 1 = 1) : LineLost k line power.toNat s (s.laserLost k line power) := by
  rw [laserLost_below weak present]
  have shown := lineShown_shows (b := 0) small (by decide) s k power
  have only := regsOnly_lineShown s k line power 0
  generalize s.lineShown k line power 0 = u at shown only
  have logged := logged_logLantern (s := u) rfl (2 * k) 0 (cause := 0x04) (by decide)
  have rest := logLantern_rest u (2 * k) 0x04 0
  generalize u.logLantern (2 * k) 0x04 0 = v at logged rest
  have shown : LineShown k line power.toNat 0 v := shown.of_reg fun a _ => reg_of_regs (by rw [rest]) a
  have opens := ringsOpen_opens v k
  generalize v.ringsOpen k = w at opens
  have shown := shown.kept small opens
  obtain ⟨late, count, is⟩ := opens.is
  have both := bothOnly_foldl downOnly_lightGoes inside w
  have each := fun q => portKept_foldl (q := q) downOnly_lightGoes inside w
  generalize [2 * k, 2 * k + 1].foldl State.lightGoes w = t at both each
  have port (q : Nat) : w.port q = s.port q := by
    rw [is.port, port_of_ports (by rw [rest] : v.ports = u.ports), port_of_ports (by rw [only.rest] : u.ports = s.ports)]
  have ms : w.ms = s.ms := is.ms.trans ((by rw [rest] : v.ms = u.ms).trans (by rw [only.rest]))
  refine ⟨shown.of_reg both.reg, ?_, fun q here => ?_⟩
  · obtain ⟨r, appended, cls, cause⟩ := logged
    obtain ⟨l, ev⟩ := both.ev
    refine ⟨r, ?_, BitVec.eq_of_toNat_eq cls, BitVec.eq_of_toNat_eq cause⟩
    rw [ev, is.ev, appended]
    simp
  · obtain ⟨x, before, after⟩ := each q here
    have same : x.port q = s.port q := before.port.trans (port q)
    refine ⟨fun st => after.downFor (downFor_lightGoes (by rwa [same])), fun low high => ?_, fun dark => ?_⟩
    · rw [after.port, port_lightGoes_training (by rwa [same]) (by rwa [same])]
      exact ⟨rfl, before.ms.trans ms⟩
    · rw [after.port, lightGoes_dark (by rwa [same]), same]

end

end Sys2Proof.Machine
end

section
/-! The light of an engine comes (10 R304, R314, R315, R321). -/

namespace Sys2Proof.Machine

section
variable {s t u : State} {p q k : Nat}

/-- The low eight bits of a number are all set. -/
theorem mod_256_eq_255_iff (v : Nat) : v % 256 = 255 ↔ ∀ l, l < 8 → v / 2 ^ l % 2 = 1 := by
  have bits (l : Nat) : v / 2 ^ l % 2 = 1 ↔ v.testBit l = true := by
    rw [Nat.testBit_eq_decide_div_mod_eq, decide_eq_true_eq]
  simp only [bits]
  constructor
  · intro all l small
    have bit : (v % 2 ^ 8).testBit l = (2 ^ 8 - 1).testBit l := congrArg (Nat.testBit · l) all
    rwa [Nat.testBit_mod_two_pow, Nat.testBit_two_pow_sub_one, decide_eq_true small, Bool.true_and] at bit
  · intro each
    refine Nat.eq_of_testBit_eq (x := v % 2 ^ 8) (y := 2 ^ 8 - 1) fun l => ?_
    rw [Nat.testBit_mod_two_pow, Nat.testBit_two_pow_sub_one]
    by_cases small : l < 8
    · rw [each l small, Bool.and_true]
    · rw [decide_eq_false small, Bool.false_and]

theorem allLines_iff (s : State) (k : Nat) : s.allLines k = true ↔ ∀ l, l < 8 → s.field (Reg.LTN_ENG_STATUS k) l 1 = 1 := by
  rw [State.allLines, beq_iff_eq]
  simp only [State.field, State.fnField, bitsOf, pow_zero, Nat.div_one, pow_one]
  exact mod_256_eq_255_iff _

/-! ### A calibration begins (R315, R320, R321) -/

/-- May an engine calibrate from its saved settings at a temperature (R321)? -/
def State.savedAt (s : State) (k : Nat) (temp : Byte) : Bool := (s.engine k).savedHeater && s.engineSaved k && (s.engine k).near temp

/-- An engine whose temperature is known, and which calibrates from saved settings or in full. -/
def State.tempKnown (s : State) (k v : Nat) : State :=
  (s.setEngine k { s.engine k with usingSaved := s.savedAt k (BitVec.ofNat 8 v) }).setField (Reg.LTN_ENG_STATUS k) 16 8 (v % 256)

def State.calBegins (s : State) (k v : Nat) : State :=
  (if s.savedAt k (BitVec.ofNat 8 v) then s.tempKnown k v else (s.tempKnown k v).engineFull k).ringsOpen k

/-- What the begin of a calibration leaves beside the ports. -/
structure CalBegins (k v : Nat) (s t : State) : Prop where
  rest : t = { s with regs := t.regs, engines := t.engines }
  open_ : t.field (Reg.LTN_ENG_STATUS k) 10 1 = 0
  temp : t.field (Reg.LTN_ENG_STATUS k) 16 8 = v % 256
  field : ∀ lo w, lo + w ≤ 10 → t.field (Reg.LTN_ENG_STATUS k) lo w = s.field (Reg.LTN_ENG_STATUS k) lo w
  reg : ∀ a, 0x80000 ≤ a → a ≠ Reg.LTN_ENG_STATUS k → t.reg a = s.reg a
  settled : (t.engine k).recentring = false
  saved : (t.engine k).usingSaved = s.savedAt k (BitVec.ofNat 8 v)

theorem bru_below {a : Nat} (above : 0x80000 ≤ a) : a ≠ Reg.BRU_SAVED ∧ a ≠ Reg.BRU_STATUS ∧ a ≠ Reg.BRU_DEADLINE := by
  unfold Reg.BRU_SAVED Reg.BRU_STATUS Reg.BRU_DEADLINE
  omega

theorem calBegins_begins (s : State) (k v : Nat) : CalBegins k v s (s.calBegins k v) := by
  unfold State.calBegins State.tempKnown
  generalize same : s.savedAt k (BitVec.ofNat 8 v) = saved
  have given := (EngineIs.refl k s).setEngine { s.engine k with usingSaved := saved }
  have regs : (s.setEngine k { s.engine k with usingSaved := saved }).regs = s.regs := State.setEngine_regs ..
  generalize s.setEngine k { s.engine k with usingSaved := saved } = a at given regs ⊢
  have shown := given.regsOnly (regsOnly_setField a (Reg.LTN_ENG_STATUS k) 16 8 (v % 256))
  have temp := field_setField_same a (Reg.LTN_ENG_STATUS k) 16 8 (v % 256) (by decide)
  have field := fun lo w => field_setField_apart a (Reg.LTN_ENG_STATUS k) 16 8 (v % 256) lo w (by decide)
  have reg := fun r => reg_setField_other a (Reg.LTN_ENG_STATUS k) r 16 8 (v % 256)
  generalize a.setField (Reg.LTN_ENG_STATUS k) 16 8 (v % 256) = b at shown temp field reg ⊢
  have full : Filled k b (if saved then b else b.engineFull k) := by
    split
    · exact Filled.refl k b
    · exact filled_engineFull b k
  generalize (if saved then b else b.engineFull k) = c at full ⊢
  obtain ⟨⟨late, count, is⟩, open_, kept, others⟩ := ringsOpen_opens c k
  generalize c.ringsOpen k = t at is open_ kept others
  have status : c.reg (Reg.LTN_ENG_STATUS k) = b.reg (Reg.LTN_ENG_STATUS k) := by
    obtain ⟨x, y, z⟩ := bru_below (Nat.le_trans (by decide) (above_status k))
    exact full.reg _ x y z
  have engine := is.engine
  rw [full.is.engine, shown.engine] at engine
  refine ⟨?_, open_, ?_, fun lo w low => ?_, fun r above other => ?_, (congrArg Engine.recentring engine :),
    (congrArg Engine.usingSaved engine :).trans same.symm⟩
  · exact ((shown.trans full.is).trans is).rest
  · rw [kept 16 8 (.inr (by decide)), field_of_reg status, temp]
    exact Nat.mod_mod ..
  · rw [kept lo w (.inl low), field_of_reg status, field lo w (.inr (by omega)), field_of_regs regs]
  · obtain ⟨x, y, z⟩ := bru_below above
    rw [others r other, full.reg r x y z, reg r other, reg_of_regs regs]

/-- The ports of an engine in DARK, and of them those that may calibrate (R302, R314). -/
def State.dark (s : State) (k : Nat) : List Nat := [2 * k, 2 * k + 1].filter fun p => (s.port p).st == 1#4
def State.readies (s : State) (k : Nat) : List Nat := (s.dark k).filter fun p => s.portEnabled p && !s.adminDown p

/-- The others are DISABLED. -/
def State.darkDisabled (s : State) (k : Nat) : State :=
  ((s.dark k).filter fun p => !(s.readies k).contains p).foldl (fun s p => s.modPort p fun x => { x with st := 0, since := s.ms }) s

def State.calibrating (s : State) (ports : List Nat) : State :=
  ports.foldl (fun s p => s.modPort p fun x => { x with st := 2, since := s.ms }) s

theorem startRingCal_lit (lit : s.allLines k = true) (serves : s.serves (srcEngine k) = true) : s.startRingCal k =
    if (s.readies k).isEmpty then s.darkDisabled k
    else ((s.darkDisabled k).fresh.2.calBegins k (s.darkDisabled k).fresh.1).calibrating (s.readies k) := by
  rw [State.startRingCal, if_pos ⟨lit, serves⟩]
  rfl

theorem mem_dark (here : q ∈ [2 * k, 2 * k + 1]) (st : (s.port q).st = 1#4) : q ∈ s.dark k :=
  List.mem_filter.2 ⟨here, beq_iff_eq.2 st⟩

theorem nodup_dark (s : State) (k : Nat) : (s.dark k).Nodup := (both_nodup k).filter _

/-- A port in DARK whose light has come. -/
def State.litPort (s : State) (q : Nat) : Port :=
  { s.port q with since := s.ms, st := if s.portEnabled q && !s.adminDown q then 2 else 0 }

/-- What the light of an engine leaves of its ports, its registers and its record. -/
structure Lit (k : Nat) (s t : State) : Prop where
  ports : ∀ q ∈ [2 * k, 2 * k + 1], (s.port q).st = 1#4 → t.port q = s.litPort q
  field : ∀ lo w, lo + w ≤ 10 → t.field (Reg.LTN_ENG_STATUS k) lo w = s.field (Reg.LTN_ENG_STATUS k) lo w
  reg : ∀ a, 0x80000 ≤ a → a ≠ Reg.LTN_ENG_STATUS k → t.reg a = s.reg a
  begins : s.readies k ≠ [] → t.field (Reg.LTN_ENG_STATUS k) 10 1 = 0 ∧ (t.engine k).recentring = false ∧
    (t.engine k).usingSaved = s.savedAt k (BitVec.ofNat 8 (t.field (Reg.LTN_ENG_STATUS k) 16 8))

theorem savedAt_mod (s : State) (k v : Nat) : s.savedAt k (BitVec.ofNat 8 (v % 256)) = s.savedAt k (BitVec.ofNat 8 v) := by
  have same : BitVec.ofNat 8 (v % 256) = BitVec.ofNat 8 v := by
    apply BitVec.eq_of_toNat_eq
    simp
  rw [same]

theorem lit_startRingCal (lit : s.allLines k = true) (serves : s.serves (srcEngine k) = true) : Lit k s (s.startRingCal k) := by
  rw [startRingCal_lit lit serves]
  have others := portsAre_foldl (g := fun s _ x => { x with st := 0, since := s.ms }) (fun _ _ => rfl)
    ((s.dark k).filter fun p => !(s.readies k).contains p) ((nodup_dark s k).filter _) s
  change PortsAre _ s (s.darkDisabled k) at others
  have savedAt (v : Nat) : (s.darkDisabled k).fresh.2.savedAt k (BitVec.ofNat 8 v) = s.savedAt k (BitVec.ofNat 8 v) := by
    rw [others.rest]
    rfl
  generalize s.darkDisabled k = a at others savedAt
  have disabled (q : Nat) (here : q ∈ s.dark k) (no : (s.portEnabled q && !s.adminDown q) = false) : a.port q = s.litPort q := by
    have none : q ∉ s.readies k := fun ready => Bool.false_ne_true (no.symm.trans (List.mem_filter.1 ready).2)
    rw [others.ports q, if_pos (List.mem_filter.2 ⟨here, by simpa using none⟩), State.litPort, no]
    rfl
  split
  · rename_i none
    have empty := List.isEmpty_iff.1 none
    refine ⟨fun q here st => disabled q (mem_dark here st) ?_, fun lo w _ => field_of_regs others.regs ..,
      fun r _ _ => reg_of_regs others.regs r, fun some => absurd empty some⟩
    refine Bool.eq_false_iff.2 fun ready => ?_
    have member : q ∈ s.readies k := List.mem_filter.2 ⟨mem_dark here st, ready⟩
    rw [empty] at member
    exact List.not_mem_nil member
  · have begun := calBegins_begins a.fresh.2 k a.fresh.1
    have ports (q : Nat) : a.fresh.2.port q = a.port q := rfl
    have regs : a.fresh.2.regs = a.regs := rfl
    have now : a.fresh.2.ms = s.ms := others.ringsOnly.ms
    generalize a.fresh.2.calBegins k a.fresh.1 = b at begun
    have goes := portsAre_foldl (g := fun s _ x => { x with st := 2, since := s.ms }) (fun _ _ => rfl)
      (s.readies k) ((nodup_dark s k).filter _) b
    change PortsAre _ b (b.calibrating (s.readies k)) at goes
    generalize b.calibrating (s.readies k) = t at goes
    have port (q : Nat) : b.port q = a.port q := (port_of_ports (by rw [begun.rest]) q).trans (ports q)
    have ms : b.ms = s.ms := (by rw [begun.rest] : b.ms = a.fresh.2.ms).trans now
    refine ⟨fun q here st => ?_, fun lo w low => ?_, fun r above other => ?_, fun _ => ⟨?_, ?_, ?_⟩⟩
    · rw [goes.ports q]
      by_cases ready : q ∈ s.readies k
      · have yes := (List.mem_filter.1 ready).2
        have stays : q ∉ (s.dark k).filter fun p => !(s.readies k).contains p := by simp [ready]
        rw [if_pos ready, port, ms, others.ports q, if_neg stays, State.litPort, yes]
        rfl
      · have no : (s.portEnabled q && !s.adminDown q) = false :=
          Bool.eq_false_iff.2 fun yes => ready (List.mem_filter.2 ⟨mem_dark here st, yes⟩)
        rw [if_neg ready, port]
        exact disabled q (mem_dark here st) no
    · rw [field_of_regs goes.regs, begun.field lo w low, field_of_regs regs, field_of_regs others.regs]
    · rw [reg_of_regs goes.regs, begun.reg r above other, reg_of_regs regs, reg_of_regs others.regs]
    · rw [field_of_regs goes.regs]
      exact begun.open_
    · rw [goes.engine]
      exact begun.settled
    · rw [goes.engine, field_of_regs goes.regs, begun.temp, savedAt_mod, ← savedAt]
      exact begun.saved

/-! ### A line comes (R304) -/

theorem laserPresent_strong {line : Nat} {power : Byte} (strong : 64 ≤ power.toNat) : s.laserPresent k line power =
    if (s.lineShown k line power 1).allLines k then (s.lineShown k line power 1).startRingCal k else s.lineShown k line power 1 := by
  rw [State.laserPresent, if_neg (by omega)]
  rfl

theorem laserPresent_weak {line : Nat} {power : Byte} (weak : power.toNat < 64) : s.laserPresent k line power = s := by
  rw [State.laserPresent, if_pos weak]

theorem allLines_lineShown {line : Nat} (small : line < 8) (power : Byte) :
    (s.lineShown k line power 1).allLines k = true ↔ ∀ l, l < 8 → l ≠ line → s.field (Reg.LTN_ENG_STATUS k) l 1 = 1 := by
  rw [allLines_iff]
  refine ⟨fun all l few other => ?_, fun rest l few => ?_⟩
  · rw [← field_lineShown (b := 1) (power := power) small s k (by omega)]
    exact all l few
  · by_cases same : l = line
    · rw [same]
      exact (lineShown_shows (b := 1) small (by decide) s k power).present
    · rw [field_lineShown small s k (by omega)]
      exact rest l few same

/-- Not all lines are there yet. -/
theorem laserPresent_waits {line : Nat} {power : Byte} (small : line < 8) (strong : 64 ≤ power.toNat)
    (dark : ∃ l, l < 8 ∧ l ≠ line ∧ s.field (Reg.LTN_ENG_STATUS k) l 1 = 0) :
    LineShown k line power.toNat 1 (s.laserPresent k line power) ∧ RegsOnly s (s.laserPresent k line power) := by
  obtain ⟨l, few, other, none⟩ := dark
  have part : ¬(s.lineShown k line power 1).allLines k = true := fun all =>
    absurd (none.symm.trans ((allLines_lineShown small power).1 all l few other)) (by decide)
  rw [laserPresent_strong strong, if_neg part]
  exact ⟨lineShown_shows small (by decide) s k power, regsOnly_lineShown ..⟩

/-- A measured line leaves what decides how the ports of an engine go on. -/
structure Measured (k : Nat) (s t : State) : Prop where
  regs : RegsOnly s t
  reg : ∀ a, a ≠ Reg.LTN_ENG_STATUS k → a < 0x84000 → t.reg a = s.reg a

theorem measured_lineShown (s : State) (k line : Nat) (power : Byte) (b : Nat) : Measured k s (s.lineShown k line power b) := by
  refine ⟨regsOnly_lineShown .., fun a status low => reg_lineShown s k ?_ status⟩
  unfold laserReg Reg.LTN_ENG_LASER_LO Reg.LTN_ENG_LASER_HI
  split <;> omega

namespace Measured

variable (h : Measured k s t)
include h

theorem port (q : Nat) : t.port q = s.port q := port_of_ports (by rw [h.regs.rest]) q

theorem low {a : Nat} (below : a < 0x84000) : t.reg a = s.reg a :=
  h.reg a (Nat.ne_of_lt (Nat.lt_of_lt_of_le below (above_status k))) below

theorem adminDown (inside : q < 128) : t.adminDown q = s.adminDown q := by
  refine adminDown_of_reg (h.low ?_)
  unfold Reg.LTN_PORT_CTRL
  omega

theorem portEnabled (inside : q < 128) : t.portEnabled q = s.portEnabled q := by
  rw [State.portEnabled, State.portEnabled, field_of_reg (h.low ?_)]
  unfold Reg.LTN_PORT_EN
  omega

theorem litPort (inside : q < 128) : t.litPort q = s.litPort q := by
  have ms : t.ms = s.ms := by rw [h.regs.rest]
  rw [State.litPort, h.port, h.portEnabled inside, h.adminDown inside, ms]
  rfl

theorem readies (inside : k < 64) : t.readies k = s.readies k := by
  have dark : t.dark k = s.dark k := List.filter_congr fun q _ => by rw [h.port]
  rw [State.readies, dark, State.readies]
  refine List.filter_congr fun q here => ?_
  have both : q = 2 * k ∨ q = 2 * k + 1 := by simpa using (List.mem_filter.1 here).1
  rw [h.portEnabled (by omega), h.adminDown (by omega)]

theorem savedAt (temp : Byte) : t.savedAt k temp = s.savedAt k temp := by
  have engine := engine_of_regsOnly h.regs k
  have cfg : t.field Reg.BRU_CFG 0 1 = s.field Reg.BRU_CFG 0 1 := field_of_reg (h.low (by decide)) ..
  have ltn : t.field Reg.LTN_CFG 0 1 = s.field Reg.LTN_CFG 0 1 := field_of_reg (h.low (by decide)) ..
  simp only [State.savedAt, State.engineSaved, State.useSaved, engine, cfg, ltn]

end Measured

/-- The last line has come. -/
theorem laserPresent_lights {line : Nat} {power : Byte} (inside : k < 64) (small : line < 8) (strong : 64 ≤ power.toNat)
    (others : ∀ l, l < 8 → l ≠ line → s.field (Reg.LTN_ENG_STATUS k) l 1 = 1) (serves : s.serves (srcEngine k) = true) :
    let t := s.laserPresent k line power
    LineShown k line power.toNat 1 t ∧ (∀ q ∈ [2 * k, 2 * k + 1], (s.port q).st = 1#4 → t.port q = s.litPort q) ∧
      (s.readies k ≠ [] → t.field (Reg.LTN_ENG_STATUS k) 10 1 = 0 ∧ (t.engine k).recentring = false ∧
        (t.engine k).usingSaved = s.savedAt k (BitVec.ofNat 8 (t.field (Reg.LTN_ENG_STATUS k) 16 8))) := by
  intro t
  have all := (allLines_lineShown small power).2 others
  have shown := lineShown_shows (b := 1) small (by decide) s k power
  have measured := measured_lineShown s k line power 1
  have eq : t = (s.lineShown k line power 1).startRingCal k := (laserPresent_strong strong).trans (if_pos all)
  clear_value t
  subst eq
  have serves' : (s.lineShown k line power 1).serves (srcEngine k) = true := by
    rw [State.serves, measured.regs.rest]
    exact serves
  generalize s.lineShown k line power 1 = u at all shown measured serves'
  obtain ⟨ports, field, reg, begins⟩ := lit_startRingCal all serves'
  rw [measured.readies inside] at begins
  refine ⟨⟨(field _ _ (by omega)).trans shown.present, (field_of_reg (reg _ ?_ (laserReg_apart k line)) ..).trans shown.power⟩,
    fun q here st => ?_, fun some => ?_⟩
  · unfold laserReg Reg.LTN_ENG_LASER_LO Reg.LTN_ENG_LASER_HI
    split <;> omega
  · have both : q = 2 * k ∨ q = 2 * k + 1 := by simpa using here
    rw [ports q here (by rwa [measured.port]), measured.litPort (by omega)]
  · rw [← measured.savedAt]
    exact begins some

end

end Sys2Proof.Machine
end

section
/-! Bad pairs, rings and saved settings (10 R313, R316, R317, R320, R321). -/

namespace Sys2Proof.Machine

/-- A port has asked its peer for something, behind what it had to send. -/
def Asked (p op width reason : Nat) (queue : List (List Byte)) (t : State) : Prop :=
  ∃ r, (t.port p).req = some r ∧ r.msg.op = BitVec.ofNat 8 op ∧ r.msg.width = BitVec.ofNat 8 width ∧
    r.msg.reason = BitVec.ofNat 8 reason ∧ r.sends = 1 ∧ r.lastMs = t.ms ∧ (t.port p).ctlq = queue ++ [reqBytes r.msg]

section
variable {s t u : State} {p q k : Nat} {x : Port}

/-! ### Requests -/

theorem asked_startReq (may : s.mayRequest p = true) (op width reason : Nat) :
    Asked p op width reason (s.port p).ctlq (s.startReq p op width reason) := by
  have asks := startReq_may may op width reason
  generalize s.startReq p op width reason = t at asks
  refine ⟨{ msg := s.reqOf p op width reason, sends := 1, lastMs := s.ms }, ?_, rfl, rfl, rfl, rfl, asks.ms.symm, ?_⟩
  · rw [asks.port]
    rfl
  · rw [asks.port]
    rfl

/-- A port for which only bad pairs and their time have changed may ask as before. -/
theorem mayRequest_of_portIs (h : PortIs p s t x) (st : x.st = (s.port p).st) (req : x.req = (s.port p).req) (op : x.op = (s.port p).op)
    (notBefore : x.notBefore = (s.port p).notBefore) : t.mayRequest p = s.mayRequest p := by
  rw [State.mayRequest, State.mayRequest, h.port, h.ms, st, req, op, notBefore]

theorem targetWidth_of_portIs (h : PortIs p s t x) : t.targetWidth p = min (s.maxPairs p) x.peerMax.toNat := by
  rw [State.targetWidth, maxPairs_of_regs h.regs, h.port]

/-- Pairs in use are bad: the port asks for the width that is left (R317). -/
theorem considerReq_worn (may : s.mayRequest p = true) (want : (s.port p).want = none)
    (worn : ((s.port p).ownBad ||| (s.port p).permBad) &&& (s.port p).pairs ≠ 0) :
    s.considerReq p = s.requestWidth p (s.badReason p (((s.port p).ownBad ||| (s.port p).permBad) &&& (s.port p).pairs)) := by
  have some : (((s.port p).ownBad ||| (s.port p).permBad) &&& (s.port p).pairs != 0) = true := bne_iff_ne.2 worn
  rw [State.considerReq, if_pos may]
  simp only [want, some, if_true]

theorem badReason_cases (s : State) (p : Nat) (pairs : Byte) : s.badReason p pairs = 2 ∨ s.badReason p pairs = 3 := by
  unfold State.badReason
  split
  · exact .inr rfl
  · exact .inl rfl

/-! ### Bad pairs (R316, R317) -/

/-- A port of which a pair is marked bad. -/
def State.markedPort (s : State) (p : Nat) (b : Byte) : Port :=
  { s.port p with
    ownBad := (s.port p).ownBad ||| b, wideSince := s.wideFor p { s.port p with ownBad := (s.port p).ownBad ||| b } }

/-- The pair is marked before the port considers what to ask. -/
theorem markBad_eq (s : State) (p pair : Nat) : ∃ u, PortIs p s u (s.markedPort p (BitVec.ofNat 8 (2 ^ pair))) ∧
    s.markBad p pair = u.considerReq p :=
  ⟨_, ((PortIs.refl p s).setPort _).noteWider, rfl⟩

theorem ownBad_of_unasked {y : Port} (same : x.unasked = y.unasked) : x.ownBad = y.ownBad := (congrArg Port.ownBad same :)

/-- What marking a pair leaves, whatever the port asks. -/
theorem markBad_marks (s : State) (p pair : Nat) : s.markBad p pair = { s with ports := (s.markBad p pair).ports } ∧
    ((s.markBad p pair).port p).ownBad = (s.port p).ownBad ||| BitVec.ofNat 8 (2 ^ pair) ∧
    ∀ q, q ≠ p → (s.markBad p pair).port q = s.port q := by
  obtain ⟨u, marked, eq⟩ := markBad_eq s p pair
  rw [eq]
  obtain ⟨rest, others, port⟩ := asks_considerReq u p
  generalize u.considerReq p = t at rest others port
  refine ⟨by rw [rest, marked.rest], ?_, fun q other => (others q other).trans (marked.sets.2 q other)⟩
  rw [ownBad_of_unasked port, marked.port]
  rfl

theorem or_or_right (a b c d : Byte) : a ||| b ||| c ||| d = (a ||| d) ||| b ||| c := by ac_rfl

theorem and_or_ne_zero {a b c d : Byte} (used : d &&& b ≠ 0#8) : ((a ||| b) ||| c) &&& d ≠ 0#8 := by
  intro none
  refine used (BitVec.eq_of_getLsbD_eq fun i small => ?_)
  have bit := congrArg (BitVec.getLsbD · i) none
  simp only [BitVec.getLsbD_and, BitVec.getLsbD_or, BitVec.getLsbD_zero] at bit ⊢
  cases inUse : d.getLsbD i
  · rfl
  · rw [inUse, Bool.and_true, Bool.or_eq_false_iff, Bool.or_eq_false_iff] at bit
    exact bit.1.2

/-- A pair in use that goes bad asks for a width change. -/
theorem markBad_asks {pair n : Nat} {g : Byte} (may : s.mayRequest p = true) (want : (s.port p).want = none)
    (used : (s.port p).pairs &&& BitVec.ofNat 8 (2 ^ pair) ≠ 0#8)
    (group : chooseGroup (s.targetWidth p) ((s.port p).bad ||| BitVec.ofNat 8 (2 ^ pair)) = some (n, g)) :
    Asked p 3 n 2 (s.port p).ctlq (s.markBad p pair) ∨ Asked p 3 n 3 (s.port p).ctlq (s.markBad p pair) := by
  obtain ⟨u, marked, eq⟩ := markBad_eq s p pair
  have may' : u.mayRequest p = true := (mayRequest_of_portIs marked rfl rfl rfl rfl).trans may
  have worn := and_or_ne_zero (a := (s.port p).ownBad) (c := (s.port p).permBad) used
  have group' : chooseGroup (u.targetWidth p) (u.port p).bad = some (n, g) := by
    rw [targetWidth_of_portIs marked, marked.port]
    rw [Port.bad, or_or_right] at group
    exact group
  rw [eq, considerReq_worn may' (by rw [marked.port]; exact want) (by rw [marked.port]; exact worn), requestWidth_some _ group']
  have queue : (u.port p).ctlq = (s.port p).ctlq := by rw [marked.port]; rfl
  rcases badReason_cases u p (((u.port p).ownBad ||| (u.port p).permBad) &&& (u.port p).pairs) with reason | reason
  · rw [reason, ← queue]
    exact .inl (asked_startReq may' 3 n 2)
  · rw [reason, ← queue]
    exact .inr (asked_startReq may' 3 n 3)

/-- A port that may not ask only marks its pair. -/
theorem markBad_quiet {pair : Nat} (quiet : s.mayRequest p = false) :
    PortIs p s (s.markBad p pair) (s.markedPort p (BitVec.ofNat 8 (2 ^ pair))) := by
  obtain ⟨u, marked, eq⟩ := markBad_eq s p pair
  rw [eq, considerReq_not ((mayRequest_of_portIs marked rfl rfl rfl rfl).trans quiet)]
  exact marked

/-! ### A wider group (R317) -/

theorem upshiftCheck_stays (none : (s.port p).wideSince = none ∨ s.field Reg.LTN_CFG 1 1 = 0) : s.upshiftCheck p = s := by
  unfold State.upshiftCheck
  split
  · rfl
  · rename_i since
    rw [if_neg]
    rcases none with none | off
    · rw [none] at since
      contradiction
    · rw [off]
      decide

theorem upshiftCheck_wider {since : Nat} (wider : (s.port p).wideSince = some since) (on : s.field Reg.LTN_CFG 1 1 = 1) :
    s.upshiftCheck p = (s.advanceTo (since + 1000000000)).requestWidth p 4 := by
  unfold State.upshiftCheck
  rw [wider]
  exact if_pos on

/-- A port that is free to ask at a time asks then. -/
theorem requestWidth_later {n T reason : Nat} {g : Byte} (st : (s.port p).st = 7#4) (req : (s.port p).req = none)
    (op : (s.port p).op = none) (rested : (s.port p).notBefore ≤ max s.ms T)
    (group : chooseGroup (s.targetWidth p) (s.port p).bad = some (n, g)) :
    let t := (s.advanceTo T).requestWidth p reason
    t = { s with ports := t.ports, ms := t.ms, msOff := t.msOff, up := t.up, man := t.man } ∧ t.ms = max s.ms T ∧
      Asked p 3 n reason (s.port p).ctlq t := by
  have now := advanceTo_ms s T
  have port := port_of_ports (State.advanceTo_ports s T) p
  have regs := State.advanceTo_regs s T
  have rest := timed_rest (t := (s.advanceTo T).requestWidth p reason) T (asks_requestWidth ..).rest
  have ms : ((s.advanceTo T).requestWidth p reason).ms = (s.advanceTo T).ms := by rw [(asks_requestWidth ..).rest]
  have may : (s.advanceTo T).mayRequest p = true := by
    rw [State.mayRequest, port, now, st, req, op, decide_eq_true rested]
    rfl
  have group' : chooseGroup ((s.advanceTo T).targetWidth p) ((s.advanceTo T).port p).bad = some (n, g) := by
    rw [State.targetWidth, maxPairs_of_regs regs, port]
    exact group
  refine ⟨rest, ms.trans now, ?_⟩
  rw [requestWidth_some reason group', ← port]
  exact asked_startReq may 3 n reason

/-! ### Rings (R320) -/

/-- A ring of an engine is out, and an event tells of it. -/
def State.ringLost (s : State) (k port bit : Nat) : State :=
  ((s.setEngine k { s.engine k with ringsOut := (s.engine k).ringsOut ||| BitVec.twoPow 256 bit }).setField
    (Reg.LTN_ENG_STATUS k) 10 1 0).logLantern port 0x06 0

theorem ringLockLoss_linked {pair ring : Nat} (linked : (s.port (2 * k + pair / 8)).linked = true) : s.ringLockLoss k pair ring =
    (s.ringLost k (2 * k + pair / 8) (16 * pair + ring)).markBad (2 * k + pair / 8) (pair % 8) := by
  have stays : ¬(!(s.port (2 * k + pair / 8)).linked) = true := by rw [linked]; decide
  exact if_neg stays

theorem ringLockLoss_unlinked {pair ring : Nat} (unlinked : (s.port (2 * k + pair / 8)).linked = false) :
    s.ringLockLoss k pair ring = s :=
  if_pos (by rw [unlinked]; rfl)

theorem ringLockLoss_loses {pair ring : Nat} (linked : (s.port (2 * k + pair / 8)).linked = true) :
    let t := s.ringLockLoss k pair ring
    Logged s t 0x0C 0x06 ∧ t.field (Reg.LTN_ENG_STATUS k) 10 1 = 0 ∧
      Sets s.engine t.engine k { s.engine k with
        ringsOut := (s.engine k).ringsOut ||| BitVec.twoPow 256 (16 * pair + ring) } ∧
      (t.port (2 * k + pair / 8)).ownBad = (s.port (2 * k + pair / 8)).ownBad ||| BitVec.ofNat 8 (2 ^ (pair % 8)) := by
  have given := (EngineIs.refl k s).setEngine { s.engine k with
    ringsOut := (s.engine k).ringsOut ||| BitVec.twoPow 256 (16 * pair + ring) }
  intro t
  have eq : t = _ := ringLockLoss_linked linked
  clear_value t
  unfold State.ringLost at eq
  generalize s.setEngine k _ = a at given eq
  have shown := given.regsOnly (regsOnly_setField a (Reg.LTN_ENG_STATUS k) 10 1 0)
  have open_ := field_setField_same a (Reg.LTN_ENG_STATUS k) 10 1 0 (by decide)
  generalize a.setField (Reg.LTN_ENG_STATUS k) 10 1 0 = b at shown open_ eq
  have logged := logged_logLantern shown.ev (2 * k + pair / 8) 0 (cause := 0x06) (by decide)
  have rest := logLantern_rest b (2 * k + pair / 8) 0x06 0
  generalize b.logLantern (2 * k + pair / 8) 0x06 0 = c at logged rest eq
  obtain ⟨marks, bad, others⟩ := markBad_marks c (2 * k + pair / 8) (pair % 8)
  rw [← eq] at marks bad others
  have engine (j : Nat) : t.engine j = b.engine j := by
    rw [State.engine, marks, rest]
    rfl
  have regs : t.regs = b.regs := by rw [marks, rest]
  have port : c.port (2 * k + pair / 8) = s.port (2 * k + pair / 8) :=
    (port_of_ports (by rw [rest] : c.ports = b.ports) _).trans (shown.port _)
  refine ⟨logged_of_ev logged (by rw [marks]), ?_, ⟨(engine k).trans shown.sets.1, fun j other => (engine j).trans (shown.sets.2 j other)⟩, ?_⟩
  · rw [field_of_regs regs]
    exact open_
  · rw [bad, port]

/-- A ring has locked again, and is counted; some rings may be out still (R320, R322). -/
def State.ringBack (s : State) (k : Nat) (left : BitVec 256) : State :=
  (s.setEngine k { s.engine k with ringsOut := left }).bump (Reg.LTN_ENG_RING k) 0 16 1

/-- All rings of an engine are locked once none is out and none under calibration. -/
def State.locksShown (s : State) (k : Nat) (left : BitVec 256) : State :=
  if left = 0 ∧ !s.engineCalibrates k then s.setField (Reg.LTN_ENG_STATUS k) 10 1 1 else s

theorem ringBack_counts (s : State) (k : Nat) (left : BitVec 256) :
    EngineIs k s (s.ringBack k left) { s.engine k with ringsOut := left } ∧ Counts s (s.ringBack k left) (Reg.LTN_ENG_RING k) 0 16 := by
  have given := (EngineIs.refl k s).setEngine { s.engine k with ringsOut := left }
  have regs : (s.setEngine k { s.engine k with ringsOut := left }).regs = s.regs := State.setEngine_regs ..
  unfold State.ringBack
  generalize s.setEngine k { s.engine k with ringsOut := left } = a at given regs
  exact ⟨given.regsOnly (regsOnly_bump ..), counts_bump_of_regs regs _ 0 16 (by decide)⟩

theorem locksShown_shows (s : State) (k : Nat) (left : BitVec 256) :
    RegsOnly s (s.locksShown k left) ∧ (∀ a, a ≠ Reg.LTN_ENG_STATUS k → (s.locksShown k left).reg a = s.reg a) ∧
      (left = 0 → s.engineCalibrates k = false → (s.locksShown k left).field (Reg.LTN_ENG_STATUS k) 10 1 = 1) := by
  unfold State.locksShown
  split
  · exact ⟨regsOnly_setField .., fun a other => reg_setField_other _ _ _ _ _ _ other, fun _ _ => field_setField_same _ _ _ _ _ (by decide)⟩
  · rename_i some
    exact ⟨regsOnly_refl s, fun _ _ => rfl, fun none idle => absurd ⟨none, by rw [idle]; rfl⟩ some⟩

theorem getLsbD_iff_and_twoPow {b : BitVec 256} {i : Nat} (small : i < 256) : b.getLsbD i = true ↔ b &&& BitVec.twoPow 256 i ≠ 0 := by
  have bit : BitVec.twoPow 256 i ≠ 0#256 := fun none => by
    have at_ := congrArg (BitVec.getLsbD · i) none
    simp [small] at at_
  rw [BitVec.and_twoPow]
  split
  · rename_i set
    exact iff_of_true set bit
  · rename_i clear
    exact iff_of_false clear fun other => other rfl

theorem ringRelock_out {pair ring : Nat} (out : (s.engine k).ringsOut.getLsbD (16 * pair + ring) = true) : s.ringRelock k pair ring =
    ((s.ringBack k ((s.engine k).ringsOut &&& ~~~(BitVec.twoPow 256 (16 * pair + ring)))).locksShown k
      ((s.engine k).ringsOut &&& ~~~(BitVec.twoPow 256 (16 * pair + ring)))).clearBad (2 * k + pair / 8) (pair % 8) := by
  have stays : ¬(!(s.engine k).ringsOut.getLsbD (16 * pair + ring)) = true := by rw [out]; decide
  exact if_neg stays

theorem ringRelock_in {pair ring : Nat} (locked : (s.engine k).ringsOut.getLsbD (16 * pair + ring) = false) :
    s.ringRelock k pair ring = s :=
  if_pos (by rw [locked]; rfl)

/-- What a ring that locks again leaves (R320, R322). -/
theorem ringRelock_relocks {pair ring : Nat} {left : BitVec 256} (out : (s.engine k).ringsOut.getLsbD (16 * pair + ring) = true)
    (rest : (s.engine k).ringsOut &&& ~~~(BitVec.twoPow 256 (16 * pair + ring)) = left) :
    let t := s.ringRelock k pair ring
    Counts s t (Reg.LTN_ENG_RING k) 0 16 ∧ Sets s.engine t.engine k { s.engine k with ringsOut := left } ∧
      (left = 0 → s.engineCalibrates k = false → t.field (Reg.LTN_ENG_STATUS k) 10 1 = 1) ∧
      (t.ringOut (2 * k + pair / 8) (pair % 8) = false →
        (t.port (2 * k + pair / 8)).ownBad = (s.port (2 * k + pair / 8)).ownBad &&& ~~~(BitVec.ofNat 8 (2 ^ (pair % 8)))) := by
  intro t
  have eq : t = _ := ringRelock_out out
  clear_value t
  rw [rest] at eq
  obtain ⟨is, counts⟩ := ringBack_counts s k left
  generalize s.ringBack k left = b at is counts eq
  obtain ⟨only, reg, shown⟩ := locksShown_shows b k left
  have waits : b.engineCalibrates k = s.engineCalibrates k := by simp only [State.engineCalibrates, is.port]
  rw [waits] at shown
  have stands := is.regsOnly only
  generalize b.locksShown k left = c at only reg shown stands eq
  have counted := (field_of_reg (reg _ (engStatus_apart k).2) 0 16).trans counts
  cases still : c.ringOut (2 * k + pair / 8) (pair % 8)
  · have clears := clearBad_clears still
    rw [← eq] at clears
    have engine (j : Nat) : t.engine j = c.engine j := by
      rw [clears.rest]
      rfl
    refine ⟨(field_of_regs clears.regs ..).trans counted, ⟨(engine k).trans stands.sets.1, fun j other => (engine j).trans (stands.sets.2 j other)⟩,
      fun none idle => (field_of_regs clears.regs ..).trans (shown none idle), fun _ => ?_⟩
    rw [clears.port, stands.port]
  · rw [clearBad_out still] at eq
    rw [eq]
    exact ⟨counted, stands.sets, shown, fun gone => absurd (still.symm.trans gone) (by decide)⟩

/-! ### Re-centring and saved settings (R320, R321) -/

theorem recentreComplete_late (idle : (s.engine k).recentring = false) (temp : Byte) : s.recentreComplete k temp = s := by
  rw [State.recentreComplete, idle]
  rfl

theorem recentreComplete_recentres (temp : Byte) (recentring : (s.engine k).recentring = true) :
    let t := s.recentreComplete k temp
    t.field (Reg.LTN_ENG_STATUS k) 16 8 = temp.toNat ∧ EngineIs k s t { s.engine k with
      recentring := false, late := false, recentreCount := (s.engine k).recentreCount + 1 } := by
  intro t
  have given := (EngineIs.refl k s).setEngine { s.engine k with
    recentring := false, late := false, recentreCount := (s.engine k).recentreCount + 1 }
  have eq : t = (s.setEngine k { s.engine k with
      recentring := false, late := false, recentreCount := (s.engine k).recentreCount + 1 }).setField
      (Reg.LTN_ENG_STATUS k) 16 8 temp.toNat := by
    change s.recentreComplete k temp = _
    rw [State.recentreComplete, if_pos recentring, State.recentred, if_pos recentring]
  clear_value t
  generalize s.setEngine k _ = a at given eq
  rw [eq]
  exact ⟨(field_setField_same _ _ _ _ _ (by decide)).trans (Nat.mod_eq_of_lt temp.isLt), given.regsOnly (regsOnly_setField ..)⟩

/-- Has a port been ACTIVE for a full hour by a release (R321)? -/
def Port.hourDue (x : Port) (release : Nat) : Bool := decide (x.activeMs + 3600000000000 ≤ release)

/-- A port whose equalisation is saved (R321). -/
def State.portSaved (s : State) (release p : Nat) (x : Port) : Port :=
  { x with
    savedEq := some (s.eqRecord p), eqUnfit := false
    activeMs := if x.hourDue release then x.activeMs + 3600000000000 else x.activeMs }

/-- The heater settings of an engine are saved with its temperature (R321). -/
def State.heaterSaved (s : State) (k : Nat) (temp : Byte) : State :=
  (s.setField (Reg.LTN_ENG_STATUS k) 16 8 temp.toNat).modEngine k fun e => e.saved temp

/-- The ports of an engine in ACTIVE. -/
def State.live (s : State) (k : Nat) : List Nat := [2 * k, 2 * k + 1].filter fun p => (s.port p).st == 7#4

theorem heaterSave_eq (s : State) (k : Nat) (temp : Byte) : s.heaterSave k temp =
    if (s.live k).any fun p => (s.port p).hourDue s.toll.lastRelease then
      (s.live k).foldl (fun u p => u.modPort p (u.portSaved s.toll.lastRelease p)) (s.heaterSaved k temp)
    else s := rfl

theorem mem_live : q ∈ s.live k ↔ q ∈ [2 * k, 2 * k + 1] ∧ (s.port q).st = 7#4 := by
  rw [State.live, List.mem_filter, beq_iff_eq]

/-- No port of the engine has a full hour behind it. -/
theorem heaterSave_early (temp : Byte)
    (early : ∀ q ∈ [2 * k, 2 * k + 1], (s.port q).st = 7#4 → (s.port q).hourDue s.toll.lastRelease = false) : s.heaterSave k temp = s := by
  rw [heaterSave_eq, if_neg]
  intro some
  obtain ⟨q, here, due⟩ := List.any_eq_true.1 some
  obtain ⟨both, st⟩ := mem_live.1 here
  exact Bool.false_ne_true ((early q both st).symm.trans due)

theorem heaterSaved_saved (s : State) (k : Nat) (temp : Byte) :
    EngineIs k s (s.heaterSaved k temp) ((s.engine k).saved temp) ∧
      (s.heaterSaved k temp).field (Reg.LTN_ENG_STATUS k) 16 8 = temp.toNat ∧
      ∀ a, a ≠ Reg.LTN_ENG_STATUS k → (s.heaterSaved k temp).reg a = s.reg a := by
  have shown := (EngineIs.refl k s).regsOnly (regsOnly_setField s (Reg.LTN_ENG_STATUS k) 16 8 temp.toNat)
  have field := field_setField_same s (Reg.LTN_ENG_STATUS k) 16 8 temp.toNat (by decide)
  have reg := fun a => reg_setField_other s (Reg.LTN_ENG_STATUS k) a 16 8 temp.toNat
  unfold State.heaterSaved
  generalize s.setField (Reg.LTN_ENG_STATUS k) 16 8 temp.toNat = a at shown field reg
  have regs : (a.modEngine k fun e => e.saved temp).regs = a.regs := State.setEngine_regs ..
  exact ⟨shown.modEngine _, (field_of_regs regs ..).trans (field.trans (Nat.mod_eq_of_lt temp.isLt)),
    fun r other => (reg_of_regs regs r).trans (reg r other)⟩

/-- What saving leaves (R321). -/
theorem heaterSave_saves {temp : Byte} (due : ∃ q ∈ [2 * k, 2 * k + 1], (s.port q).st = 7#4 ∧ (s.port q).hourDue s.toll.lastRelease = true) :
    let t := s.heaterSave k temp
    RingsOnly s t ∧ t.field (Reg.LTN_ENG_STATUS k) 16 8 = temp.toNat ∧ Sets s.engine t.engine k ((s.engine k).saved temp) ∧
      ∀ q ∈ [2 * k, 2 * k + 1], (s.port q).st = 7#4 → t.port q = { s.port q with
        savedEq := some { peer := s.field (Reg.LTN_PORT_PEER q) 0 17, serials := (s.engine k).serials, temp := temp }, eqUnfit := false
        activeMs := if (s.port q).hourDue s.toll.lastRelease then (s.port q).activeMs + 3600000000000 else (s.port q).activeMs } := by
  obtain ⟨q, here, st, late⟩ := due
  have some : ((s.live k).any fun p => (s.port p).hourDue s.toll.lastRelease) = true :=
    List.any_eq_true.2 ⟨q, mem_live.2 ⟨here, st⟩, late⟩
  intro t
  have goes := portsAre_foldl (g := fun u p => u.portSaved s.toll.lastRelease p) (fun _ _ => rfl) (s.live k) ((both_nodup k).filter _)
    (s.heaterSaved k temp)
  have eq : t = _ := (heaterSave_eq s k temp).trans (if_pos some)
  clear_value t
  rw [← eq] at goes
  obtain ⟨is, field, reg⟩ := heaterSaved_saved s k temp
  generalize s.heaterSaved k temp = a at goes is field reg
  refine ⟨is.ringsOnly.trans goes.ringsOnly, (field_of_regs goes.regs ..).trans field,
    ⟨(goes.engine k).trans is.sets.1, fun j other => (goes.engine j).trans (is.sets.2 j other)⟩, fun q here st => ?_⟩
  have both : q = 2 * k ∨ q = 2 * k + 1 := by simpa using here
  have engine : portEngine q = k := by
    unfold portEngine
    omega
  have apart : Reg.LTN_PORT_PEER q ≠ Reg.LTN_ENG_STATUS k := by
    unfold Reg.LTN_PORT_PEER Reg.LTN_ENG_STATUS
    omega
  have record : a.eqRecord q = { peer := s.field (Reg.LTN_PORT_PEER q) 0 17, serials := (s.engine k).serials, temp := temp } := by
    rw [State.eqRecord, engine, is.engine, field, field_of_reg (reg _ apart), BitVec.ofNat_toNat, BitVec.setWidth_eq]
    rfl
  rw [goes.ports q, if_pos (mem_live.2 ⟨here, st⟩), is.port, State.portSaved, record]

end

end Sys2Proof.Machine
end

section
/-! Writes of LTN_PORT_CTRL (10 R314, R317, R318, R322). -/

namespace Sys2Proof.Machine

section
variable {s t u : State} {p q k : Nat} {value : BitVec 32}

/-- A bit of a register. -/
theorem field_bit (s : State) (a i : Nat) : s.field a i 1 = ((s.reg a).getLsbD i).toNat := by
  rw [BitVec.getLsbD, Nat.testBit_eq_decide_div_mod_eq]
  change (s.reg a).toNat / 2 ^ i % 2 ^ 1 = _
  rcases Nat.mod_two_eq_zero_or_one ((s.reg a).toNat / 2 ^ i) with bit | bit <;> simp [bit]

/-- The width that a write sets (R322). -/
def State.widthWritten (s : State) (p : Nat) (value : BitVec 32) : State :=
  if bitsOf value.toNat 1 2 = 3 then s else (s.setField (Reg.LTN_PORT_CTRL p) 1 2 (bitsOf value.toNat 1 2)).noteWider p

/-- The fields that a write sets (R322). -/
def State.ctrlWritten (s : State) (p : Nat) (value : BitVec 32) : State :=
  (s.widthWritten p value).setField (Reg.LTN_PORT_CTRL p) 0 1 (bitsOf value.toNat 0 1)

/-- What the fields that a write sets leave. -/
structure CtrlWritten (p : Nat) (value : BitVec 32) (s t : State) : Prop where
  rest : t = { s with regs := t.regs, ports := t.ports }
  port : t.port p = { s.port p with wideSince := (t.port p).wideSince }
  others : ∀ q, q ≠ p → t.port q = s.port q
  down : t.field (Reg.LTN_PORT_CTRL p) 0 1 = value.toNat % 2
  width : t.field (Reg.LTN_PORT_CTRL p) 1 2 = if value.toNat / 2 % 4 = 3 then s.field (Reg.LTN_PORT_CTRL p) 1 2 else value.toNat / 2 % 4
  reg : ∀ a, a ≠ Reg.LTN_PORT_CTRL p → t.reg a = s.reg a

theorem widthWritten_writes (s : State) (p : Nat) (value : BitVec 32) :
    let t := s.widthWritten p value
    t = { s with regs := t.regs, ports := t.ports } ∧ t.port p = { s.port p with wideSince := (t.port p).wideSince } ∧
      (∀ q, q ≠ p → t.port q = s.port q) ∧
      (t.field (Reg.LTN_PORT_CTRL p) 1 2 = if value.toNat / 2 % 4 = 3 then s.field (Reg.LTN_PORT_CTRL p) 1 2 else value.toNat / 2 % 4) ∧
      ∀ a, a ≠ Reg.LTN_PORT_CTRL p → t.reg a = s.reg a := by
  have bits : bitsOf value.toNat 1 2 = value.toNat / 2 % 4 := rfl
  unfold State.widthWritten
  rw [bits]
  split
  · exact ⟨rfl, rfl, fun _ _ => rfl, rfl, fun _ _ => rfl⟩
  · have regs := regsOnly_setField s (Reg.LTN_PORT_CTRL p) 1 2 (value.toNat / 2 % 4)
    have field := field_setField_same s (Reg.LTN_PORT_CTRL p) 1 2 (value.toNat / 2 % 4) (by decide)
    have reg := fun a => reg_setField_other s (Reg.LTN_PORT_CTRL p) a 1 2 (value.toNat / 2 % 4)
    generalize s.setField (Reg.LTN_PORT_CTRL p) 1 2 (value.toNat / 2 % 4) = a at regs field reg ⊢
    have port (q : Nat) : a.port q = s.port q := port_of_ports (by rw [regs.rest]) q
    have wider := (PortIs.refl p a).noteWider
    generalize a.noteWider p = t at wider
    rw [port] at wider
    refine ⟨by rw [wider.rest, regs.rest], ?_, fun q other => (wider.sets.2 q other).trans (port q), ?_, fun r other =>
      (reg_of_regs wider.regs r).trans (reg r other)⟩
    · rw [wider.port]
    · exact (field_of_regs wider.regs ..).trans (field.trans (Nat.mod_mod ..))

theorem ctrlWritten_writes (s : State) (p : Nat) (value : BitVec 32) : CtrlWritten p value s (s.ctrlWritten p value) := by
  obtain ⟨rest, port, others, width, reg⟩ := widthWritten_writes s p value
  unfold State.ctrlWritten
  generalize s.widthWritten p value = a at rest port others width reg
  have regs := regsOnly_setField a (Reg.LTN_PORT_CTRL p) 0 1 (bitsOf value.toNat 0 1)
  have field := field_setField_same a (Reg.LTN_PORT_CTRL p) 0 1 (bitsOf value.toNat 0 1) (by decide)
  have apart := field_setField_apart a (Reg.LTN_PORT_CTRL p) 0 1 (bitsOf value.toNat 0 1) 1 2 (by decide) (by decide)
  have other := fun r => reg_setField_other a (Reg.LTN_PORT_CTRL p) r 0 1 (bitsOf value.toNat 0 1)
  have bit : bitsOf value.toNat 0 1 % 2 ^ 1 = value.toNat % 2 := by
    unfold bitsOf
    omega
  generalize a.setField (Reg.LTN_PORT_CTRL p) 0 1 (bitsOf value.toNat 0 1) = t at regs field apart other
  have ports (q : Nat) : t.port q = a.port q := port_of_ports (by rw [regs.rest]) q
  exact ⟨by rw [regs.rest, rest], by rw [ports]; exact port, fun q far => (ports q).trans (others q far), field.trans bit,
    apart.trans width, fun r far => (other r far).trans (reg r far)⟩

theorem writePortCtrl_eq (s : State) (p : Nat) (value : BitVec 32) : s.writePortCtrl p value =
    if value.getLsbD 0 then
      if 1 ≤ ((s.ctrlWritten p value).port p).st.toNat ∧ ((s.ctrlWritten p value).port p).st.toNat ≤ 8 then
        (s.ctrlWritten p value).portFails p (some 7)
      else s.ctrlWritten p value
    else if value.getLsbD 4 then (((s.ctrlWritten p value).enablePort p).darken p).startReq p 2 0 0
    else if value.getLsbD 3 then (((s.ctrlWritten p value).enablePort p).darken p).startReq p 1 0 0
    else (((s.ctrlWritten p value).enablePort p).darken p).considerReq p := rfl

theorem st_of_widened {x y : Port} {since : Option Nat} (same : x = { y with wideSince := since }) : x.st = y.st :=
  (congrArg Port.st same :)

/-- The registers of a port's DOWN are not its control register. -/
theorem ctrl_apart (p : Nat) : Reg.LTN_PORT_CTRL p ≠ Reg.LTN_PORT_LOST p ∧ Reg.LTN_PORT_CTRL p ≠ Reg.LTN_PORT_EVENTS p ∧
    Reg.LTN_PORT_CTRL p ≠ Reg.LTN_PORT_DOWN p := by
  unfold Reg.LTN_PORT_CTRL Reg.LTN_PORT_LOST Reg.LTN_PORT_EVENTS Reg.LTN_PORT_DOWN
  omega

theorem ctrl_apart_status (inside : p < 128) (k : Nat) : Reg.LTN_PORT_CTRL p ≠ Reg.LTN_ENG_STATUS k := by
  unfold Reg.LTN_PORT_CTRL Reg.LTN_ENG_STATUS
  omega

theorem toNat_mod_two (set : value.getLsbD 0 = true) : value.toNat % 2 = 1 := by
  rw [BitVec.getLsbD, Nat.testBit_zero, decide_eq_true_eq] at set
  exact set

theorem toNat_mod_two_clear (clear : value.getLsbD 0 = false) : value.toNat % 2 = 0 := by
  rw [BitVec.getLsbD, Nat.testBit_zero, decide_eq_false_iff_not] at clear
  omega

/-- admin_down takes a port down (R314, R318). -/
theorem writePortCtrl_down (set : value.getLsbD 0 = true) (low : 1 ≤ (s.port p).st.toNat) (high : (s.port p).st.toNat ≤ 8) :
    let t := s.writePortCtrl p value
    t.field (Reg.LTN_PORT_CTRL p) 0 1 = 1 ∧ DownFor p 7 t ∧ (t.port p).st = 9#4 := by
  have written := ctrlWritten_writes s p value
  rw [writePortCtrl_eq, if_pos set]
  generalize s.ctrlWritten p value = u at written
  have st := st_of_widened written.port
  rw [if_pos (by rw [st]; exact ⟨low, high⟩)]
  have fails := fails_portFails u p (reason := 7) (by decide) false
  generalize u.portFails p (some 7) = t at fails
  obtain ⟨lost, events, down⟩ := ctrl_apart p
  have held : t.field (Reg.LTN_PORT_CTRL p) 0 1 = 1 :=
    (field_of_reg (fails.only.reg _ lost events down) ..).trans (written.down.trans (toNat_mod_two set))
  refine ⟨held, fails.downFor, ?_⟩
  have down : t.adminDown p = true := by rw [State.adminDown, held]; rfl
  rw [fails.st, down]
  rfl

/-- What enabling a port that is not DISABLED, or is not let up, leaves: nothing. -/
theorem enablePort_stays (up : (s.port p).st ≠ 0#4) : s.enablePort p = s := by
  rw [State.enablePort, if_neg fun h => up h.1]

theorem startRingCal_unlit (unlit : ¬(s.allLines k = true ∧ s.serves (srcEngine k) = true)) : s.startRingCal k = s := by
  rw [State.startRingCal, if_neg unlit]

/-- A port that is let up enters DARK, and RING_CAL with light (R302, R314). -/
theorem enablePort_enables (inside : p < 128) (st : (s.port p).st = 0#4) (enabled : s.portEnabled p = true) (up : s.adminDown p = false) :
    let t := s.enablePort p
    t.reg (Reg.LTN_PORT_CTRL p) = s.reg (Reg.LTN_PORT_CTRL p) ∧
      (t.port p).st = if s.allLines (p / 2) && s.serves (srcEngine (p / 2)) then 2 else 1 := by
  have dark := (PortIs.refl p s).setPort { s.port p with st := 1, since := s.ms, seekTried := false }
  rw [State.enablePort, if_pos ⟨st, enabled, by rw [up]; rfl⟩, portEngine]
  have same : (s.setPort p { s.port p with st := 1, since := s.ms, seekTried := false }).serves (srcEngine (p / 2)) =
    s.serves (srcEngine (p / 2)) := rfl
  generalize s.setPort p { s.port p with st := 1, since := s.ms, seekTried := false } = u at dark same ⊢
  have regs := dark.regs
  have lines : u.allLines (p / 2) = s.allLines (p / 2) := allLines_of_reg (reg_of_regs regs _)
  have waits : (u.port p).st = 1#4 := by rw [dark.port]; rfl
  by_cases lit : u.allLines (p / 2) = true ∧ u.serves (srcEngine (p / 2)) = true
  · have lights := lit_startRingCal lit.1 lit.2
    have port := lights.ports p (mem_both p) waits
    have ready : (u.portEnabled p && !u.adminDown p) = true := by
      rw [adminDown_of_reg (reg_of_regs regs _), up, State.portEnabled, field_of_regs regs]
      exact Bool.and_eq_true_iff.2 ⟨enabled, rfl⟩
    refine ⟨(lights.reg _ ?_ (ctrl_apart_status inside _)).trans (reg_of_regs regs _), ?_⟩
    · unfold Reg.LTN_PORT_CTRL
      omega
    · rw [port, State.litPort, ready, ← lines, ← same, lit.1, lit.2]
      rfl
  · rw [startRingCal_unlit lit]
    refine ⟨reg_of_regs regs _, waits.trans ?_⟩
    rw [← lines, ← same, if_neg (by rwa [Bool.and_eq_true])]
    rfl

/-- Where a port is not taken down, a write ends with what the port may ask. -/
theorem asks_writePortCtrl (clear : value.getLsbD 0 = false) :
    Asks p (((s.ctrlWritten p value).enablePort p).darken p) (s.writePortCtrl p value) := by
  rw [writePortCtrl_eq, clear, if_neg Bool.false_ne_true]
  split
  · exact asks_startReq ..
  · split
    · exact asks_startReq ..
    · exact asks_considerReq ..

/-- A DISABLED port that a write lets up (R302, R314). -/
theorem writePortCtrl_up (inside : p < 128) (clear : value.getLsbD 0 = false) (st : (s.port p).st = 0#4)
    (enabled : s.portEnabled p = true) :
    let t := s.writePortCtrl p value
    t.field (Reg.LTN_PORT_CTRL p) 0 1 = 0 ∧
      (t.port p).st = if s.allLines (p / 2) && s.serves (srcEngine (p / 2)) then 2 else 1 := by
  have asks := asks_writePortCtrl (s := s) (p := p) clear
  have written := ctrlWritten_writes s p value
  intro t
  change Asks p _ t at asks
  clear_value t
  generalize s.ctrlWritten p value = u at asks written
  have down : u.field (Reg.LTN_PORT_CTRL p) 0 1 = 0 := written.down.trans (toNat_mod_two_clear clear)
  have up : u.adminDown p = false := by rw [State.adminDown, down]; rfl
  have enabled' : u.portEnabled p = true := by
    rw [State.portEnabled, field_of_reg (written.reg _ ?_)]
    · exact enabled
    · unfold Reg.LTN_PORT_EN Reg.LTN_PORT_CTRL
      omega
  have lines : u.allLines (p / 2) = s.allLines (p / 2) := allLines_of_reg (written.reg _ (ctrl_apart_status inside _).symm)
  have serves : u.serves (srcEngine (p / 2)) = s.serves (srcEngine (p / 2)) := by
    rw [written.rest]
    rfl
  obtain ⟨ctrl, state⟩ := enablePort_enables inside ((st_of_widened written.port).trans st) enabled' up
  rw [lines, serves] at state
  generalize u.enablePort p = v at asks ctrl state
  have light : v.darken p = v := by
    refine darken_light (.inl ?_)
    rw [state]
    split <;> decide
  rw [light] at asks
  have regs : t.regs = v.regs := by rw [asks.rest]
  have same : (t.port p).st = (v.port p).st := (congrArg Port.st asks.port :)
  exact ⟨(field_of_regs regs ..).trans ((field_of_reg ctrl ..).trans down), same.trans state⟩

/-- The pairs that max_width permits by its code (R322). -/
theorem maxPairs_of_field {w : Nat} (field : s.field (Reg.LTN_PORT_CTRL p) 1 2 = w) :
    s.maxPairs p = if w = 1 then 4 else if w = 2 then 2 else 8 := by
  rw [State.maxPairs, field]
  split
  · rfl
  · rfl
  · rename_i one two
    rw [if_neg one, if_neg two]

/-- A port that is wider than it may be asks for less (R317). -/
theorem considerReq_wide (may : s.mayRequest p = true) (want : (s.port p).want = none)
    (clean : ((s.port p).ownBad ||| (s.port p).permBad) &&& (s.port p).pairs = 0#8) (wide : s.maxPairs p < (s.port p).width.toNat) :
    s.considerReq p = s.requestWidth p 0 := by
  have fresh : (((s.port p).ownBad ||| (s.port p).permBad) &&& (s.port p).pairs != 0) = false := by rw [clean]; rfl
  rw [State.considerReq, if_pos may]
  simp only [want, fresh, if_pos wide]
  rfl

/-- A port whose end of its widest group has been written; the fields that asking reads stand. -/
theorem mayRequest_of_widened {since : Option Nat} (same : t.port p = { s.port p with wideSince := since }) (ms : t.ms = s.ms) :
    t.mayRequest p = s.mayRequest p := by
  rw [State.mayRequest, State.mayRequest, same, ms]

/-- A port in ACTIVE stays so, whatever else a write says. -/
theorem enabled_active (st : (s.port p).st = 7#4) (value : BitVec 32) :
    ((s.ctrlWritten p value).enablePort p).darken p = s.ctrlWritten p value := by
  have same := (st_of_widened (ctrlWritten_writes s p value).port).trans st
  rw [enablePort_stays (ne_of_eq_of_ne same (by decide)), darken_light (.inl (ne_of_eq_of_ne same (by decide)))]

/-- A write of max_width at a port in ACTIVE (R317). -/
theorem writePortCtrl_width (clear : value.getLsbD 0 = false) (recal : value.getLsbD 4 = false) (retrain : value.getLsbD 3 = false)
    (st : (s.port p).st = 7#4) : s.writePortCtrl p value = (s.ctrlWritten p value).considerReq p := by
  rw [writePortCtrl_eq, enabled_active st, clear, recal, retrain]
  rfl

/-- A port in ACTIVE that a write bids retrain asks for it (R318). -/
theorem writePortCtrl_asks (clear : value.getLsbD 0 = false) (bids : value.getLsbD 4 = true ∨ value.getLsbD 3 = true)
    (may : s.mayRequest p = true) :
    Asked p (if value.getLsbD 4 then 2 else 1) 0 0 (s.port p).ctlq (s.writePortCtrl p value) := by
  have st : (s.port p).st = 7#4 := by
    unfold State.mayRequest at may
    simp only [Bool.and_eq_true, beq_iff_eq] at may
    exact may.1.1.1
  have written := ctrlWritten_writes s p value
  have value' : s.writePortCtrl p value = (s.ctrlWritten p value).startReq p (if value.getLsbD 4 then 2 else 1) 0 0 := by
    rw [writePortCtrl_eq, enabled_active st, clear, if_neg Bool.false_ne_true]
    by_cases recal : value.getLsbD 4 = true
    · rw [if_pos recal, if_pos recal]
    · rw [if_neg recal, if_neg recal, if_pos (bids.resolve_left recal)]
  rw [value']
  generalize s.ctrlWritten p value = u at written
  have queue : (u.port p).ctlq = (s.port p).ctlq := (congrArg Port.ctlq written.port :)
  rw [← queue]
  exact asked_startReq ((mayRequest_of_widened written.port (by rw [written.rest])).trans may) _ 0 0

end

end Sys2Proof.Machine
end

section
/-! Training, lasers, rings and the register writes of a port (10 R304, R313-R322). -/

namespace Sys2Proof.Machine

section
variable {s : State} {p : Nat}

/-- A port that is DOWN with light, let up, seeks again after 1 s (R314). -/
theorem downTimer_seeks (st : (s.port p).st = 9#4) (up : s.adminDown p = false) (enabled : s.portEnabled p = true)
    (lit : s.allLines (p / 2) = true) (serves : s.serves (srcEngine (p / 2)) = true) :
    PortIs p (s.advanceTo ((s.port p).since + 1000000000)) (s.downTimer p)
      { s.port p with st := 3, since := (s.advanceTo ((s.port p).since + 1000000000)).ms, seekPause := false } := by
  have held : ¬(s.adminDown p = true ∨ (!s.portEnabled p) = true) := by rw [up, enabled]; decide
  have light : ¬(!s.allLines (portEngine p)) = true := by rw [portEngine, lit]; decide
  have stands : ¬(!s.serves (srcEngine (portEngine p))) = true := by rw [portEngine, serves]; decide
  rw [downTimer_down st, if_neg held, if_neg light, if_neg stands]
  exact (PortIs.refl p _).setPort _

/-- A retrain that takes too long goes DOWN (R314, R318). -/
theorem trainingTimeout_retrain (st : (s.port p).st = 8#4) : s.trainingTimeout p =
    (s.advanceTo ((s.port p).since + if (s.port p).op.any fun m => m.op == 2#8 then 4002000000 else 2000000)).portFails p (some 1) := by
  have limit : s.trainingLimit p = some (if (s.port p).op.any fun m => m.op == 2#8 then 4002000000 else 2000000) := by
    rw [State.trainingLimit, st_toNat st]
    rfl
  have port (T : Nat) := port_of_ports (State.advanceTo_ports s T) p
  unfold State.trainingTimeout
  rw [limit]
  dsimp only
  rw [port, st_toNat st]
  rfl

theorem fails_timed {reason T : Nat} (reason4 : reason < 16) :
    DownFor p reason ((s.advanceTo T).portFails p (some reason)) ∧ ((s.advanceTo T).portFails p (some reason)).ms = max s.ms T := by
  have fails := fails_portFails (s.advanceTo T) p reason4 false
  generalize (s.advanceTo T).portFails p (some reason) = t at fails
  have ms : t.ms = (s.advanceTo T).ms := by rw [fails.only.rest]
  exact ⟨fails.downFor, ms.trans (advanceTo_ms s T)⟩

/-- A calibration fails outside pair mode (R315). -/
theorem ringCalFails_fails {k : Nat} (inside : k < 64) (serves : s.serves (srcEngine k) = true) (single : s.pairActive = false) (temp : Byte) :
    let t := (s.setField (Reg.LTN_ENG_STATUS k) 16 8 temp.toNat).ringCalFails k
    t.field (Reg.LTN_ENG_STATUS k) 8 2 = 3 ∧ t.field (Reg.LTN_ENG_STATUS k) 16 8 = temp.toNat ∧ srcEngine k ∈ t.outOf ∧
      (t.engine k).recentring = false ∧ ∀ q ∈ [2 * k, 2 * k + 1], 2 ≤ (s.port q).st.toNat → (s.port q).st.toNat ≤ 8 → DownFor q 8 t := by
  have regs : RegsOnly s ((s.setField (Reg.LTN_ENG_STATUS k) 16 8 temp.toNat).setField (Reg.LTN_ENG_STATUS k) 8 2 3) :=
    regsOnly_trans (regsOnly_setField ..) (regsOnly_setField ..)
  have how := field_setField_same (s.setField (Reg.LTN_ENG_STATUS k) 16 8 temp.toNat) (Reg.LTN_ENG_STATUS k) 8 2 3 (by decide)
  have shown := (field_setField_apart (s.setField (Reg.LTN_ENG_STATUS k) 16 8 temp.toNat) (Reg.LTN_ENG_STATUS k) 8 2 3 16 8 (by decide) (by decide)).trans
    (field_setField_same s (Reg.LTN_ENG_STATUS k) 16 8 temp.toNat (by decide))
  have pair := reg_setField_other (s.setField (Reg.LTN_ENG_STATUS k) 16 8 temp.toNat) (Reg.LTN_ENG_STATUS k) Reg.PST_PAIR_STATUS 8 2 3
  have pair' := reg_setField_other s (Reg.LTN_ENG_STATUS k) Reg.PST_PAIR_STATUS 16 8 temp.toNat
  have apart : Reg.PST_PAIR_STATUS ≠ Reg.LTN_ENG_STATUS k := by
    unfold Reg.PST_PAIR_STATUS Reg.LTN_ENG_STATUS
    omega
  unfold State.ringCalFails
  generalize (s.setField (Reg.LTN_ENG_STATUS k) 16 8 temp.toNat).setField (Reg.LTN_ENG_STATUS k) 8 2 3 = u at regs how shown pair
  have lost := engineLost_engineOut (s := u) (k := k) (reason := 8) (by decide) inside
    (by rw [State.serves, regs.rest]; exact serves) ((pairActive_of_reg ((pair apart).trans (pair' apart))).trans single)
  generalize u.engineOut k (some 8) = t at lost
  have below : Reg.LTN_ENG_STATUS k < 0x400000 := by
    unfold Reg.LTN_ENG_STATUS
    omega
  have status := lost.reg _ (above_status k) below
  refine ⟨(field_of_reg status ..).trans how, (field_of_reg status ..).trans (shown.trans (Nat.mod_eq_of_lt temp.isLt)), lost.out, lost.engine,
    fun q here low high => ?_⟩
  have port : u.port q = s.port q := port_of_ports (by rw [regs.rest]) q
  exact lost.down q here (by rwa [port]) (by rwa [port])

/-- A write of max_width at a port in ACTIVE, and what the port asks then (R317). -/
theorem writePortCtrl_width_writes {value : BitVec 32} (clear : value.getLsbD 0 = false) (recal : value.getLsbD 4 = false)
    (retrain : value.getLsbD 3 = false) (st : (s.port p).st = 7#4) :
    let t := s.writePortCtrl p value
    let cap := if value.toNat / 2 % 4 = 1 then 4 else if value.toNat / 2 % 4 = 2 then 2 else 8
    t.field (Reg.LTN_PORT_CTRL p) 1 2 = (if value.toNat / 2 % 4 = 3 then s.field (Reg.LTN_PORT_CTRL p) 1 2 else value.toNat / 2 % 4) ∧
      t = { s with regs := t.regs, ports := t.ports } ∧ (∀ q, q ≠ p → t.port q = s.port q) ∧
      ∀ n g, s.mayRequest p = true → (s.port p).want = none → ((s.port p).ownBad ||| (s.port p).permBad) &&& (s.port p).pairs = 0#8 →
        value.toNat / 2 % 4 ≠ 3 → cap < (s.port p).width.toNat →
        chooseGroup (min cap (s.port p).peerMax.toNat) (s.port p).bad = some (n, g) → Asked p 3 n 0 (s.port p).ctlq t := by
  intro t cap
  have eq : t = _ := writePortCtrl_width clear recal retrain st
  clear_value t
  have written := ctrlWritten_writes s p value
  generalize s.ctrlWritten p value = u at eq written
  subst eq
  obtain ⟨rest, others, -⟩ := asks_considerReq u p
  have regs : (u.considerReq p).regs = u.regs := by rw [rest]
  refine ⟨(field_of_regs regs ..).trans written.width, by rw [rest, written.rest], fun q other => (others q other).trans (written.others q other),
    fun n g may want clean set wide group => ?_⟩
  have most : u.maxPairs p = cap := maxPairs_of_field (written.width.trans (if_neg set))
  have port := written.port
  have may' := (mayRequest_of_widened port (by rw [written.rest])).trans may
  have want' : (u.port p).want = none := (congrArg Port.want port :).trans want
  have clean' : ((u.port p).ownBad ||| (u.port p).permBad) &&& (u.port p).pairs = 0#8 := by
    rw [port]
    exact clean
  have wide' : u.maxPairs p < (u.port p).width.toNat := by
    rw [most, port]
    exact wide
  have group' : chooseGroup (u.targetWidth p) (u.port p).bad = some (n, g) := by
    rw [State.targetWidth, most, port]
    exact group
  have queue : (u.port p).ctlq = (s.port p).ctlq := (congrArg Port.ctlq port :)
  rw [considerReq_wide may' want' clean' wide', requestWidth_some _ group', ← queue]
  exact asked_startReq may' 3 n 0

theorem getLsbD_of_div {v : BitVec 32} {i : Nat} (h : v.toNat / 2 ^ i % 2 = 0) : v.getLsbD i = false := by
  rw [BitVec.getLsbD, Nat.testBit_eq_decide_div_mod_eq, h]
  rfl

theorem adminDown_eq (s : State) (p : Nat) : s.adminDown p = (s.reg (Reg.LTN_PORT_CTRL p)).getLsbD 0 := by
  rw [State.adminDown, field_bit]
  cases (s.reg (Reg.LTN_PORT_CTRL p)).getLsbD 0
  · rfl
  · rfl

/-- A bit that a register field holds. -/
theorem getLsbD_of_field {a i : Nat} (clear : s.field a i 1 = 0) : (s.reg a).getLsbD i = false := by
  rw [field_bit] at clear
  exact Bool.toNat_eq_zero.1 clear

end

/-- Settles O60: each event by the state of its port, its engine and its light. -/
theorem lanternTraining : Obligations.LanternTraining := by
  intro port engine pairs power temp peer line bad pair ring fromSaved via value s p x k e es both hour due runs same only timed downs
    asks calls filled near seeks calibrated whole laser measured b w mark bit grants ctrl cap
  have inside : p < 128 := port.isLt
  have engines : k < 64 := engine.isLt
  have close {temp : Byte} (h : e.usingSaved = true ∧ temp.toNat ≤ e.savedTemp.toNat + 8 ∧ e.savedTemp.toNat ≤ temp.toNat + 8) :
      e.near temp = true := by
    rw [Engine.near, decide_eq_true h.2.1, decide_eq_true h.2.2]
    rfl
  have measure {n : Nat} {t : State} (h : LineShown k line.toNat power.toNat n t) : measured n t := ⟨h.present, h.power⟩
  refine ⟨fun called => ?full, fun called h => ?saved, fun called h => ?goesOn, fun called serves single => ?fails,
    fun idle => ?idle, fun st unpaused group => seekLock_answers peer group st unpaused,
    fun part => answers_traced_eq rfl (seekLock_partial part peer.toNat) rfl, fun st => ?equalised,
    fun st unpaused => ?pauses, fun st savedSettings => trainingTimeout_saved_answers st savedSettings,
    fun st savedEq => answers_traced_eq rfl (trainingTimeout_equalise st savedEq)
      (filled_timed fun now => { x with eqSaved := false, since := now }),
    fun st => ?retrainFails, fun st => answers_traced_eq rfl (trainingTimeout_stays st) rfl, fun st paused => ?resumes,
    fun st held => ?disabled, fun st up enabled dark => ?darkens, fun st up enabled lit serves => ?seeks,
    fun strong dark => ?waits, fun strong others serves => ?lights,
    fun weak => answers_traced_eq rfl (laserPresent_weak weak) rfl, fun weak present => ?goes,
    fun stays => answers_traced_eq rfl (laserLost_stays stays) rfl, fun n g may want used group => ?marks,
    fun quiet => ?quiet, fun locked => ?clears, fun out => answers_traced_eq rfl (clearBad_out out) rfl,
    fun t0 n g since on st req op rested group => ?upshift, fun none => answers_traced_eq rfl (upshiftCheck_stays none) rfl,
    fun linked => answers_traced rfl (ringLockLoss_loses linked),
    fun unlinked => answers_traced_eq rfl (ringLockLoss_unlinked unlinked) rfl, fun out => ?relocks, fun locked => ?locked,
    fun recentring => ?recentres, fun settled => answers_traced_eq rfl (recentreComplete_late settled temp) rfl,
    fun some => ?saves, fun early => ?early, fun granted set low high => ?down, fun granted clear st enabled => ?up,
    fun granted clear bits st => ?width, fun granted up recal may => ?retrain, fun granted up may => ?recal⟩
  case full =>
    obtain ⟨⟨goOn, shown⟩, sets, counts⟩ := calEnds_full s k temp
    exact answers_traced_eq rfl ((ringCalComplete_full (waiting_ne_nil called) true).trans (if_pos rfl))
      ⟨⟨goOn, shown.how, shown.locked, shown.temp, shown.cal⟩, sets, counts⟩
  case saved =>
    obtain ⟨⟨goOn, shown⟩, sets⟩ := calEnds_saved s k temp
    exact answers_traced_eq rfl ((ringCalComplete_saved (waiting_ne_nil called) h.1 (close h) true).trans (if_pos rfl))
      ⟨⟨goOn, shown.how, shown.locked, shown.temp, shown.cal⟩, sets⟩
  case goesOn =>
    obtain ⟨-, sets, ports⟩ := goesOn_calInFull s k
    exact answers_traced_eq rfl
      ((ringCalComplete_saved (waiting_ne_nil called) h.1 (close h) false).trans (if_neg Bool.false_ne_true))
      ⟨sets, fun q here st => (ports q here).trans (waitsAgain_ringCal st s.ms)⟩
  case fails =>
    exact answers_traced_eq rfl ((ringCalComplete_full (waiting_ne_nil called) false).trans (if_neg Bool.false_ne_true))
      (ringCalFails_fails engines serves single temp)
  case idle =>
    have none : s.waiting k = [] := List.filter_eq_nil_iff.2 fun q here => ne_true_of_eq_false (idle q here)
    exact answers_traced_eq rfl (ringCalComplete_none none true fromSaved temp) rfl
  case equalised =>
    obtain ⟨rest, sets⟩ := equaliseComplete_equalised st
    exact answers_traced rfl ⟨rest, sets⟩
  case pauses =>
    have paused := trainingTimeout_seek st unpaused
    obtain ⟨ms, rest, sets⟩ := timed_portIs paused
    exact answers_traced rfl ⟨rest, ms, by rw [paused.ms]; exact sets⟩
  case retrainFails => exact answers_traced_eq rfl (trainingTimeout_retrain st) (fails_timed (by decide))
  case resumes =>
    have resumed := seekPauseEnd_resumes st paused
    obtain ⟨ms, rest, sets⟩ := timed_portIs resumed
    exact answers_traced rfl ⟨rest, ms, by rw [resumed.ms]; exact sets⟩
  case disabled =>
    have disables := (downTimer_down st).trans (if_pos (by rwa [Bool.not_eq_true']))
    exact answers_traced_eq rfl disables ⟨rfl, sets_setPort rfl p _⟩
  case darkens =>
    have held : ¬(s.adminDown p = true ∨ (!s.portEnabled p) = true) := by rw [up, enabled]; decide
    have unlit : (!s.allLines (portEngine p)) = true := by rw [portEngine, dark]; rfl
    have darkens := (downTimer_down st).trans ((if_neg held).trans ((if_pos unlit).trans (darken_dark st up dark)))
    exact answers_traced_eq rfl darkens ⟨rfl, sets_setPort rfl p _⟩
  case seeks =>
    have sought := downTimer_seeks st up enabled lit serves
    obtain ⟨ms, rest, sets⟩ := timed_portIs sought
    exact answers_traced rfl ⟨rest, ms, by rw [sought.ms]; exact sets⟩
  case waits =>
    obtain ⟨shown, only⟩ := laserPresent_waits line.isLt strong dark
    exact answers_traced rfl ⟨measure shown, only⟩
  case lights =>
    obtain ⟨shown, ports, begins⟩ := laserPresent_lights engines line.isLt strong others serves
    refine answers_traced rfl ⟨measure shown, fun some => begins ?_, ports⟩
    obtain ⟨q, here, st, enabled, up⟩ := some
    exact List.ne_nil_of_mem (List.mem_filter.2 ⟨mem_dark here st, by rw [enabled, up]; rfl⟩)
  case goes =>
    obtain ⟨shown, logged, ports⟩ := lineLost_laserLost engines line.isLt weak present
    exact answers_traced rfl ⟨measure shown, logged, ports⟩
  case marks =>
    obtain ⟨rest, ownBad, others⟩ := markBad_marks s p bad.toNat
    exact answers_traced rfl ⟨rest, ownBad, markBad_asks may want used group, others⟩
  case quiet =>
    have marked := markBad_quiet (pair := bad.toNat) quiet
    obtain ⟨rest, ownBad, others⟩ := markBad_marks s p bad.toNat
    exact answers_traced rfl ⟨rest, by rw [marked.port]; rfl, ownBad, others⟩
  case clears =>
    have clears := clearBad_clears locked
    exact answers_traced rfl ⟨clears.rest, by rw [clears.port], by rw [clears.port], clears.sets.2⟩
  case upshift =>
    exact answers_traced_eq rfl (upshiftCheck_wider since on) (requestWidth_later st req op rested group)
  case relocks =>
    have within : 16 * pair.toNat + ring.toNat < 256 := by omega
    exact answers_traced rfl (ringRelock_relocks ((getLsbD_iff_and_twoPow within).2 out) rfl)
  case locked =>
    have within : 16 * pair.toNat + ring.toNat < 256 := by omega
    have in_ : e.ringsOut.getLsbD (16 * pair.toNat + ring.toNat) = false :=
      Bool.eq_false_iff.2 fun out => (getLsbD_iff_and_twoPow within).1 out locked
    exact answers_traced_eq rfl (ringRelock_in in_) rfl
  case recentres =>
    obtain ⟨shown, is⟩ := recentreComplete_recentres temp recentring
    exact answers_traced rfl ⟨shown, is.sets, is.rest⟩
  case saves =>
    obtain ⟨q, here, st, late⟩ := some
    obtain ⟨only, shown, sets, ports⟩ := heaterSave_saves (temp := temp) ⟨q, here, st, decide_eq_true late⟩
    refine answers_traced rfl ⟨only.rest, shown, sets, fun q here st => ?_⟩
    rw [ports q here st]
    exact ⟨rfl, rfl, fun late => if_pos (decide_eq_true late), fun early => if_neg fun late => early (of_decide_eq_true late)⟩
  case early => exact answers_traced_eq rfl (heaterSave_early temp fun q here st => decide_eq_false (early q here st)) rfl
  case down => exact answers_traced_eq rfl (gate_granted granted _) (writePortCtrl_down set low high)
  case up =>
    obtain ⟨ctrl, st⟩ := writePortCtrl_up inside clear st enabled
    exact answers_traced_eq rfl (gate_granted granted _) ⟨ctrl, fun dark => st.trans (by rw [dark]; rfl),
      fun lit serves => st.trans (by rw [lit, serves]; rfl)⟩
  case width =>
    have low : value.getLsbD 0 = false := getLsbD_of_div (by omega)
    have three : value.getLsbD 3 = false := getLsbD_of_div (by omega)
    have four : value.getLsbD 4 = false := getLsbD_of_div (by omega)
    exact answers_traced_eq rfl (gate_granted granted _) (writePortCtrl_width_writes low four three st)
  case retrain =>
    have low : (s.reg ctrl ||| 8#32).getLsbD 0 = false := by
      rw [BitVec.getLsbD_or, ← adminDown_eq s p, up]
      rfl
    have four : (s.reg ctrl ||| 8#32).getLsbD 4 = false := by
      rw [BitVec.getLsbD_or, getLsbD_of_field recal]
      rfl
    have three : (s.reg ctrl ||| 8#32).getLsbD 3 = true := by
      rw [BitVec.getLsbD_or]
      exact Bool.or_true _
    have asked := writePortCtrl_asks low (.inr three) may
    rw [four] at asked
    exact answers_traced_eq rfl (gate_granted granted _) asked
  case recal =>
    have low : (s.reg ctrl ||| 16#32).getLsbD 0 = false := by
      rw [BitVec.getLsbD_or, ← adminDown_eq s p, up]
      rfl
    have four : (s.reg ctrl ||| 16#32).getLsbD 4 = true := by
      rw [BitVec.getLsbD_or]
      exact Bool.or_true _
    have asked := writePortCtrl_asks low (.inl four) may
    rw [four] at asked
    exact answers_traced_eq rfl (gate_granted granted _) asked

end Sys2Proof.Machine
end
